-- ==== Sys2Proof/Word.lean ====
section
/-! DEFINITION. The byte and the plainest constants of the module. -/

namespace Sys2Proof

/-- One byte. -/
abbrev Byte := BitVec 8

/-- Tests and sums over lists the model uses everywhere. -/
abbrev Bytes := List (BitVec 8)

end Sys2Proof
end

