-- ==== Sys2Proof/Syntax.lean ====
section
/-! DEFINITION. What comes into the module and what leaves it: verbs (06_pool_verbs R222, R223), packets
(11_fabric_routing R444), the environment's part of a command, and the commands themselves, one constructor for each
row of the table of operations and events. -/

namespace Sys2Proof

/-- Status codes (06 R253). -/
inductive Status
  | ok | okEscalated | denied | revoked | noMapping | poisoned | lostModified | absent | refused | busy | nodeLost
  | timeout | abftFail | engineFault | internal
deriving DecidableEq, Repr

/-- The code of a status (06 R253); severity rises with it. -/
def Status.code : Status → Nat
  | .ok => 0x00 | .okEscalated => 0x01 | .denied => 0x10 | .revoked => 0x11 | .noMapping => 0x12
  | .poisoned => 0x13 | .lostModified => 0x14 | .absent => 0x20 | .refused => 0x21 | .busy => 0x22
  | .nodeLost => 0x30 | .timeout => 0x31 | .abftFail => 0x32 | .engineFault => 0x33 | .internal => 0x3F

/-- The status of a code; a reserved one stands for INTERNAL (06 R253, R254). -/
def Status.ofCode (n : Nat) : Status :=
  match n with
  | 0x00 => .ok | 0x01 => .okEscalated | 0x10 => .denied | 0x11 => .revoked | 0x12 => .noMapping
  | 0x13 => .poisoned | 0x14 => .lostModified | 0x20 => .absent | 0x21 => .refused | 0x22 => .busy
  | 0x30 => .nodeLost | 0x31 => .timeout | 0x32 => .abftFail | 0x33 => .engineFault | _ => .internal

/-- A verb request, or a message that a module or lender originates: the verb area of 06 R222 with the source node,
the traffic class and the payload slots. -/
structure Req where
  /-- Source node (for a message of the module's own: 0). -/
  src : Nat := 0
  /-- Traffic class. -/
  tc : Nat := 0
  /-- OPCODE. -/
  opcode : Byte := 0
  /-- SUBOP. -/
  subop : Byte := 0
  /-- FLAGS. -/
  flags : BitVec 16 := 0
  /-- TID and its reserved bits. -/
  tid : BitVec 16 := 0
  /-- LEN. -/
  len : BitVec 16 := 0
  /-- TAG. -/
  tag : BitVec 32 := 0
  /-- WIN. -/
  win : BitVec 32 := 0
  /-- VA. -/
  va : BitVec 64 := 0
  /-- OPERAND0. -/
  op0 : BitVec 64 := 0
  /-- OPERAND1. -/
  op1 : BitVec 64 := 0
  /-- The payload slots, 64 B each. -/
  payload : List Byte := []
deriving DecidableEq, Repr

/-- A response or an event (06 R223). -/
structure Resp where
  /-- OPCODE: the effective opcode, or 0x80 in an event. -/
  opcode : Byte := 0
  /-- STATUS. -/
  status : Status := .ok
  /-- LOAD. -/
  load : Nat := 0
  /-- EVT_CODE. -/
  evt : Byte := 0
  /-- TID. -/
  tid : Nat := 0
  /-- LEN: bytes of data in the payload slots. -/
  len : Nat := 0
  /-- TAG. -/
  tag : BitVec 32 := 0
  /-- OBJ. -/
  obj : BitVec 32 := 0
  /-- RESULT0. -/
  r0 : BitVec 64 := 0
  /-- RESULT1. -/
  r1 : BitVec 64 := 0
  /-- RESULT2. -/
  r2 : BitVec 64 := 0
  /-- The data, without the fill of the last slot. -/
  payload : List Byte := []
deriving DecidableEq, Repr

/-- The verb area of an E2E_ACK (11 R472). -/
structure AckArea where
  /-- SACK, bit i for SEQ ACK + 1 + i. -/
  sack : BitVec 256 := 0
  /-- AFLAGS.STALE. -/
  stale : Bool := false
  /-- AFLAGS.RESYNC. -/
  resync : Bool := false
  /-- HELD. -/
  held : Nat := 0
deriving DecidableEq, Repr

/-- The verb area and data of a STREAM packet (11 R485). -/
structure StreamArea where
  /-- TID of the sending plan. -/
  tid : Nat := 0
  /-- DPLAN. -/
  dplan : Nat := 0
  /-- ENGINE, plan-relative at the destination. -/
  engine : Nat := 0
  /-- BANK. -/
  bank : Nat := 0
  /-- LEN. -/
  len : Nat := 0
  /-- The data. -/
  data : List Byte := []
deriving DecidableEq, Repr

/-- What a packet carries behind its network header. -/
inductive Body
  | req (r : Req) | resp (r : Resp) | ack (a : AckArea) | stream (a : StreamArea)
deriving DecidableEq, Repr

/-- A packet of TC0 to TC4: the network and end-to-end header of 11 R444 and what follows it. -/
structure Pkt where
  /-- TC. -/
  tc : Nat := 0
  /-- EPOCH. -/
  epoch : Bool := false
  /-- CE. -/
  ce : Bool := false
  /-- PSLOTS. -/
  pslots : Nat := 0
  /-- HOPS. -/
  hops : Nat := 12
  /-- OPEN. -/
  opening : Bool := false
  /-- ACK_V. -/
  ackV : Bool := false
  /-- INC_V. -/
  incV : Bool := false
  /-- SPACE. -/
  space : Bool := false
  /-- RETX. -/
  retx : Bool := false
  /-- ECE. -/
  ece : Bool := false
  /-- DST. -/
  dst : Nat := 0
  /-- SRC. -/
  src : Nat := 0
  /-- SRC_INC. -/
  srcInc : Nat := 0
  /-- DST_INC. -/
  dstInc : Nat := 0
  /-- SEQ. -/
  seq : Nat := 0
  /-- ACK (BASE when OPEN). -/
  ack : Nat := 0
  /-- Sealed under the key of its packet number (14 R570). -/
  sealed : Bool := false
  /-- The SEAL verifies under the session key of the packet (14 R572); the environment's part of a packet. -/
  sealOk : Bool := false
  /-- The index of the free bytes that stand for the protected bytes and the SEAL (log entry 18). -/
  cipher : Nat := 0
  /-- The verb area and the payload. -/
  body : Body := .req {}
deriving DecidableEq, Repr

/-- A link control message of LINK_CTL flits (10 R411). -/
inductive LinkCtl
  | nak (expSeq : Nat) | replayStart (seq : Nat) | reset (reason : Nat) | credit (counts : List Nat)
  | trainParam (version reqWidth : Nat) (goodMask : Byte) (credits : List Nat)
  | rttProbe (stamp : BitVec 64) | rttEcho (stamp : BitVec 64) | lpiEnter | lpiExit
deriving DecidableEq, Repr

/-- Who owns a slot of the egress slot table (12 R491): a plan, by its handle, or a PARTITIONED tenant, by its TID. -/
inductive SlotOwner
  | plan (handle : Nat) | tenant (tid : Nat)
deriving DecidableEq, Repr

/-- Marker shares found on a port's lanes: the lane number and the frame counter of each (10 R407). -/
abbrev Marks := List (Nat × Nat)

/-- What a port in DOWN finds on its lanes (10 R407, R414). -/
structure SignalIn where
  /-- Marker shares found. -/
  marks : Marks := []
  /-- Time [ns]. -/
  t : Nat := 0
deriving DecidableEq, Repr

/-- What a lane shows in a window of 1 ms (10 R428). -/
structure LaneIn where
  /-- Loss of signal or of FEC lock, while another lane keeps it. -/
  lost : Bool := false
  /-- Corrected symbols. -/
  corr : Nat := 0
  /-- Uncorrectable code words. -/
  uncorr : Nat := 0
  /-- Time [ns]. -/
  t : Nat := 0
deriving DecidableEq, Repr

/-- A flit that arrives (10 R408). -/
structure FlitIn where
  /-- Its 272 bytes. -/
  flit : Bytes
  /-- Time [ns]. -/
  t : Nat := 0
deriving DecidableEq, Repr

/-- A link-management packet of TC5 (10 R423). -/
structure LinkMgmt where
  /-- LM_TYPE. -/
  type : Nat := 3
  /-- VERSION. -/
  version : Nat := 1
  /-- FLAGS.OPEN. -/
  poolOpen : Bool := false
  /-- FLAGS.LPI. -/
  lpi : Bool := false
  /-- NODE. -/
  node : Nat := 0
  /-- PORT. -/
  port : Nat := 0
  /-- KIND. -/
  kind : Nat := 0
  /-- INCARNATION. -/
  inc : Nat := 0
  /-- MAX_WIDTH. -/
  maxWidth : Nat := 0
  /-- CLUSTER_ID. -/
  cluster : BitVec 32 := 0
  /-- ECHO. -/
  echo : Nat := 0
  /-- NONCE. -/
  nonce : Nat := 0
deriving DecidableEq, Repr

/-- Everything that leaves the module. -/
inductive Out
  /-- Nothing. -/
  | nothing
  /-- A packet the module originates, on a port; 64 stands for no port (11 R450). -/
  | pkt (port : Nat) (p : Pkt)
  /-- A transit packet, forwarded on a port (11 R448). -/
  | fwd (port : Nat) (p : Pkt)
  /-- A link-management packet (10 R423). -/
  | tc5 (port : Nat) (m : LinkMgmt)
  /-- A flit: PAYLOAD, first sent or replayed, IDLE or LINK_CTL (10 R408, R411, R433). -/
  | flit (port : Nat) (replay : Bool) (bytes : List Byte)
  /-- The marker block of a frame: what each lane carries (10 R407). -/
  | marker (port : Nat) (lanes : List (Nat × List Byte))
  /-- The answer to a management request, on a session: status and registers (17 R656). -/
  | mgmt (sess : Nat) (status : Status) (data : List (BitVec 64))
  /-- An alert on a management session with the bytes of its Cairn record (15 R620). -/
  | alert (sess : Nat) (rec : List Byte)
  /-- A status reply on UDP port 7421 (15 R621). -/
  | udp (port : Nat) (data : List Byte)
  /-- The level of BELAY_ALERT_N driven (15 R614). -/
  | alertPin (low : Bool)
  /-- A step of the memory to another processor or unit that the spec lets another agent see (15 R598): a delta of
  Lead. -/
  | delta (cycle : BitVec 32) (chk : BitVec 64)
deriving DecidableEq, Repr

/-- The environment's part of a command: when it comes, which of several free indices an allocation gives out, and
which DRAM symbols have been disturbed since the command before. -/
structure Env where
  /-- Time of the command [ns]. -/
  t : Nat := 0
  /-- The index from which an allocation searches a free one, cyclically. -/
  pick : Nat := 0
  /-- Disturbed DRAM symbols: line (PA / 128), symbol 0 to 143, difference. -/
  upsets : List (Nat × Nat × Byte) := []
  /-- Disturbed SRAM bytes (13 R527): structure code, 0 for a corrected byte; what holds it; which part of it. -/
  sram : List (Nat × Nat × Nat) := []
deriving DecidableEq, Repr

/-- Who reads or writes a register: a management session or a tenant page (17 R657, R668). -/
inductive Requester
  | mgmt (sess : Nat) | page (tid : Nat)
deriving DecidableEq, Repr

/-- What an admitted request waits for. -/
inductive Wait
  /-- Its verb command. -/
  | inbox
  /-- Earlier writes of its source to its window (06 R235). -/
  | notify
  /-- Lines of a coherent region (05 R196). -/
  | coh
  /-- A sync slot: plan handle, engine, slot, count, deadline in ns (07 R296). -/
  | slot (plan eng slot count deadline : Nat)
  /-- A barrier phase: barrier handle, phase, deadline in ns (07 R296). -/
  | barrier (handle phase deadline : Nat)
  /-- A plan run (07 R285). -/
  | run (plan : Nat)
  /-- Lenders' reads: the TAGs not yet answered with the places of their data, and the data so far by place (04 R163). -/
  | anchorRd (tags : List (Nat × Nat)) (got : List (Nat × List Byte))
  /-- Lenders' writes: the TAGs not yet answered, the status so far, and the value before an ATOMIC (04 R163, R168). -/
  | anchorWr (tags : List Nat) (st : Status) (old : List Byte)
  /-- The end of the revocation of an anchor (04 R165). -/
  | revoke (anchor : Nat)
  /-- The mirror peer: the TAGs of the messages not yet answered, and the answer that then follows (04 R153 to R155). -/
  | mirror (tags : List Nat) (resp : Resp)
  /-- The DRAM budget of a PARTITIONED tenant (12 R504). -/
  | budget
  /-- Nothing that can come in this incarnation. -/
  | never
deriving DecidableEq, Repr

/-- What comes with the busbar voltage (02 R66; 16 R636): the voltage, the levels of the pins, the links of the management
ports and the self-checks of the laser banks. -/
structure BusIn where
  /-- Busbar voltage [mV]. -/
  mv : Nat := 380000
  /-- Level of EN. -/
  en : Bool := true
  /-- Level of RESET_N. -/
  resetN : Bool := true
  /-- Straps of SLOT_ID. -/
  slotPins : BitVec 6 := 0
  /-- Link of management port 0. -/
  link0 : Bool := true
  /-- Link of management port 1. -/
  link1 : Bool := true
  /-- Laser bank A passes its self-check (16 R645). -/
  laserAOk : Bool := true
  /-- Time [ns]. -/
  t : Nat := 0
deriving DecidableEq, Repr

/-- What the start sequence meets (02 R48): levels, self-tests, training and the time its steps take. -/
structure StartIn where
  /-- t0 [ns]: the later of PGOOD and RESET_N rising. -/
  t : Nat := 0
  /-- Straps of SLOT_ID, sampled at step 2. -/
  slotPins : BitVec 6 := 0
  /-- CP0 and CP1 pass their ROM self-tests (15 R595). -/
  cp0Ok : Bool := true
  /-- CP1. -/
  cp1Ok : Bool := true
  /-- Stacks that train, at the first or the second attempt (02 R53). -/
  stkOk : BitVec 32 := 0xFFFFFFFF
  /-- Belay's free-running counter, for a start without the DRBG (02 R61). -/
  counter : BitVec 16 := 0
  /-- End of step 2 [ms from t0]. -/
  imgMs : Nat := 0
  /-- End of step 3 [ms from t0]. -/
  cpMs : Nat := 0
  /-- End of step 4 [ms from t0]. -/
  stkMs : Nat := 0
deriving DecidableEq, Repr

/-- A clock island other than Belay (01 R37, R43). -/
inductive Island
  | port (k : Fin 64) | core | crypto (k : Fin 8) | sif (k : Fin 32) | base (k : Fin 32) | cp (k : Fin 2)
deriving DecidableEq, Repr

/-- What wakes the module (02 R77). -/
inductive WakeSrc
  | fabric (port : Fin 64) (p : Pkt) | mgmt | belay
deriving DecidableEq, Repr

/-- A wake from Bivouac (02 R77 to R79). -/
structure WakeIn where
  /-- What wakes the module. -/
  src : WakeSrc := .mgmt
  /-- The state checksums of the two processors agree (02 R79). -/
  chkOk : Bool := true
  /-- Time [ns]. -/
  t : Nat := 0
deriving DecidableEq, Repr

/-- A TLS handshake at TCP port 7420 (14 R583). -/
structure TlsIn where
  /-- Name of the session. -/
  sess : Nat := 0
  /-- Management port. -/
  port : Fin 2 := 0
  /-- The certificate of the trust anchor at which the client's chain ends. -/
  anchor : List Byte := []
  /-- The chain ends in the factory trust anchor. -/
  factory : Bool := false
  /-- The handshake and the chain verify. -/
  ok : Bool := true
  /-- Time [ns]. -/
  t : Nat := 0
deriving DecidableEq, Repr

/-- An SPDM message of a peer as requester, with what its cryptographic checks answer (14 R564 to R572). -/
structure SpdmIn where
  /-- The request that carries it. -/
  req : Req := {}
  /-- Its signature or MAC verifies. -/
  ok : Bool := true
  /-- The system key slot at which the peer's certificate chain ends, when it verifies (14 R567). -/
  root : Option Nat := none
  /-- Incarnation of the peer. -/
  inc : Nat := 0
  /-- The management session that carries the message in place of a packet (14 R582). -/
  sess : Option Nat := none
  /-- Time [ns]. -/
  t : Nat := 0
deriving DecidableEq, Repr

/-- What Belay samples in 100 us (15 R611, R614, R616). -/
structure BelayIn where
  /-- Raw samples of the channels. -/
  raw : List Int := []
  /-- Time [ns]. -/
  t : Nat := 0
deriving DecidableEq, Repr

/-- The commands: one constructor for each row of the table of operations and events. -/
inductive Instr
  /-- POWER_ON: The busbar enters 260 … 410 V, so the standby converter and Belay start and power-up proceeds. -/
  | powerOn (b : BusIn)
  /-- EN_RISE: EN rises, so the main converter soft-starts the rails and releases PGOOD. -/
  | enRise (t : Nat)
  /-- EN_FALL: EN falls: a running module performs the orderly leave, turns the main converter off and pulls PGOOD low; during soft start the rails simply discharge. -/
  | enFall (t : Nat)
  /-- RESET_N_ASSERT: RESET_N is held low for at least 1 µs, so the module enters module reset without a leave and any start sequence stops. -/
  | resetNAssert (dur : Nat) (t : Nat)
  /-- START_SEQUENCE: At t0, the later of PGOOD and RESET_N rising, the module checks the rails, chooses and verifies the image, starts the processors, and trains stacks and ports. -/
  | startSequence (b : StartIn)
  /-- POOL_OPEN: Step 4 has finished and every mapped port is route-active, so the module commits the stacks and opens. -/
  | poolOpen (t : Nat)
  /-- BACKOFF_EXPIRY: BACKOFF_MS expires after the end of step 3, so the module enters POOL_OPEN even though ports are still pending. -/
  | backoffExpiry (t : Nat)
  /-- AUTO_RESTART: After a reset with cause 0x05, 0x06 or 0x07, Belay restarts the module by itself, or enters HELD_SHUTDOWN at the limit of 3 restarts in 600 s. -/
  | autoRestart (t : Nat)
  /-- BELAY_HEARTBEAT_LOSS: The controller core misses 4 Belay heartbeats, so it performs the orderly leave and a module reset with cause 0x07. -/
  | belayHeartbeatLoss (t : Nat)
  /-- PLL_LOSS_OF_LOCK: A PLL loses lock, so its island is held in reset and the module acts by island type. -/
  | pllLossOfLock (island : Island) (t : Nat)
  /-- PORT_PLL_RELOCK: A port island's PLL relocks, so the island leaves reset and the port proceeds from DOWN. -/
  | portPllRelock (port : Fin 64) (t : Nat)
  /-- MODULE_RESET: The management verb performs the orderly leave and then a module reset. -/
  | moduleReset (sess : Nat) (t : Nat)
  /-- LEAVE_CONTEXT_TIMEOUT: 1 ms into a leave, the module completes any context still open with NODE_LOST. -/
  | leaveContextTimeout (t : Nat)
  /-- BIVOUAC_ENTER: The management verb puts the module into Bivouac, or completes with BUSY when a condition fails. -/
  | bivouacEnter (sess : Nat) (t : Nat)
  /-- BIVOUAC_AUTO_ENTRY: The conditions have held for BIV_IDLE_MS with BIV_AUTO set, so the module enters Bivouac. -/
  | bivouacAutoEntry (t : Nat)
  /-- BIVOUAC_WAKE: An inbound packet of TC0 … TC4 or a management packet wakes the module, which then admits the held packets within 50 µs. -/
  | bivouacWake (w : WakeIn)
  /-- INPUT_OVERVOLTAGE: The input exceeds 420 V, so the main converter is disconnected and Belay treats the event as EMERG. -/
  | inputOvervoltage (mv : Nat) (t : Nat)
  /-- INPUT_DROPOUT: The input drops out: under 200 µs it has no effect, and a longer dropout is an abrupt loss. -/
  | inputDropout (durUs : Nat) (t : Nat)
  /-- IMAGE_STAGE_BEGIN: The idle slot is erased and staging STATE becomes WRITING. -/
  | imageStageBegin (sess : Nat) (t : Nat)
  /-- IMAGE_STAGE_WRITE: Image bytes are programmed into the idle slot. -/
  | imageStageWrite (sess : Nat) (ofs : Nat) (data : Bytes) (t : Nat)
  /-- IMAGE_STAGE_VERIFY: The idle slot's contents are checked, and STATE becomes VERIFIED or FAILED. -/
  | imageStageVerify (sess : Nat) (t : Nat)
  /-- IMAGE_STAGE_COMMIT: COMMIT is programmed in the idle slot, and for slot B SUPERSEDE is then programmed in slot A. -/
  | imageStageCommit (sess : Nat) (t : Nat)
  /-- IMAGE_STAGE_ABORT: Staging STATE returns to IDLE and the slot stays uncommitted. -/
  | imageStageAbort (sess : Nat) (t : Nat)
  /-- MGMT_SESSION_CLOSE: A management session closes, and when it was the staging session, staging is aborted. -/
  | mgmtSessionClose (sess : Nat) (t : Nat)
  /-- MGMT_TLS_HANDSHAKE: A TLS 1.3 handshake on TCP port 7420 opens a management session with the role of its trust anchor. -/
  | mgmtTlsHandshake (h : TlsIn)
  /-- MGMT_SESSION_IDLE_TIMEOUT: A management session idle for 300 s is closed. -/
  | mgmtSessionIdleTimeout (sess : Nat) (t : Nat)
  /-- REG_READ: Management reads COUNT consecutive registers. -/
  | regRead (sess : Nat) (addr : Nat) (count : Nat) (t : Nat)
  /-- REG_WRITE: Management writes one register; this row covers writes to registers that have no row of their own. -/
  | regWrite (sess : Nat) (addr : Nat) (v : BitVec 64) (e : Env)
  /-- TENANT_PAGE_ACCESS: A LOAD or STORE with CTL set reads or writes one register of the tenant page. -/
  | tenantPageAccess (r : Req) (e : Env)
  /-- REGION_CREATE: A region is allocated, placed by PLACE and zero-filled, or the verb is refused whole. -/
  | regionCreate (r : Req) (e : Env)
  /-- REGION_REPAIR: Each LOST local extent of a region is replaced by a zero-filled run on a stack in service. -/
  | regionRepair (r : Req) (e : Env)
  /-- REGION_DEGRADE: A fenced primary region becomes DEGRADED and unmirrored. -/
  | regionDegrade (r : Req) (e : Env)
  /-- WINDOW_CREATE: A window is created over a region and its handle is returned. -/
  | windowCreate (r : Req) (e : Env)
  /-- WINDOW_GRANT: A grant entry with TID, node range and rights is added to a window. -/
  | windowGrant (r : Req) (e : Env)
  /-- REVOKE_GRANT: One grant entry is removed at once. -/
  | revokeGrant (r : Req) (e : Env)
  /-- REVOKE_WINDOW: A window is set to REVOKING and its revocation sequence begins. -/
  | revokeWindow (r : Req) (e : Env)
  /-- REVOKE_REGION: A region is set to REVOKING and its revocation sequence begins. -/
  | revokeRegion (r : Req) (e : Env)
  /-- REVOKE_TENANT: A management verb unloads the plans and releases the objects of a TID, then revokes every region, window and anchor of that TID. -/
  | revokeTenant (sess : Nat) (tid : Nat) (e : Env)
  /-- REVOKE_DRAIN_DONE: The CTX count of each window of the target reaches 0, so the sequence proceeds. -/
  | revokeDrainDone (idx : Nat) (e : Env)
  /-- REVOKE_PIN_TIMEOUT: At 1 ms, every descriptor still pinned aborts with REVOKED, and runs and loads holding the window are aborted. -/
  | revokePinTimeout (idx : Nat) (e : Env)
  /-- REVOKE_OVERWRITE_DONE: The overwrite of the target's extents finishes, so indices and units are freed. -/
  | revokeOverwriteDone (idx : Nat) (e : Env)
  /-- MIRROR_BIND: The peer module receives MIRROR_BIND and creates a shadow region in state SHADOW. -/
  | mirrorBind (r : Req) (e : Env)
  /-- MIRROR_WRITE: The peer commits a write forwarded by the primary, in the primary's commit order. -/
  | mirrorWrite (r : Req) (e : Env)
  /-- MIRROR_HB_SEND: Every 1 ms a mirror heartbeat is sent to each bound peer. -/
  | mirrorHbSend (e : Env)
  /-- MIRROR_HB: A mirror heartbeat is received, and its LEAVING flag triggers an immediate takeover. -/
  | mirrorHb (r : Req) (e : Env)
  /-- MIRROR_FENCE: The primary misses 2 heartbeats, so the region becomes FENCED and unacknowledged writes complete with NODE_LOST. -/
  | mirrorFence (region : Nat) (e : Env)
  /-- SHADOW_OPEN: The peer misses 3 heartbeats, so it opens the shadow as a DEGRADED region. -/
  | shadowOpen (region : Nat) (e : Env)
  /-- HANDOFF: The peer receives HANDOFF and opens the shadow at once. -/
  | handoff (r : Req) (e : Env)
  /-- MIRROR_BREAK: The primary receives MIRROR_BREAK, and its region becomes DEGRADED without fencing. -/
  | mirrorBreak (r : Req) (e : Env)
  /-- ANCHOR_LEND: A lender lends memory, so an anchor entry in state LENT is allocated. -/
  | anchorLend (r : Req) (e : Env)
  /-- ANCHOR_RENEW: Every LEASE_MS / 4, one renewal message is sent to each lender. -/
  | anchorRenew (t : Nat)
  /-- ANCHOR_RESPONSE: A lender's response to ANCHOR_RD or ANCHOR_WR completes the anchor access. -/
  | anchorResponse (node : Nat) (p : Resp) (e : Env)
  /-- ANCHOR_RECLAIM: A lender reclaims an anchor, which is revoked and released with ANCHOR_RELEASED. -/
  | anchorReclaim (r : Req) (e : Env)
  /-- PREFETCH: An anchor range is copied into local shadow units. -/
  | prefetch (r : Req) (e : Env)
  /-- ADVISE_WILL_NEED: An anchor range is copied into shadow units. -/
  | adviseWillNeed (r : Req) (e : Env)
  /-- ADVISE_DONT_NEED: Shadow units are dropped, and the READ_MOSTLY flag is cleared. -/
  | adviseDontNeed (r : Req) (e : Env)
  /-- ADVISE_READ_MOSTLY: The READ_MOSTLY flag is set on a range, so the directory grants S in place of E. -/
  | adviseReadMostly (r : Req) (e : Env)
  /-- ADVISE_PIN: The shadow units of a range are marked pinned. -/
  | advisePin (r : Req) (e : Env)
  /-- STACK_RETIRE: Free units are reserved elsewhere and the stack becomes DRAINING. -/
  | stackRetire (sess : Nat) (stk : Fin 32) (e : Env)
  /-- EXTENT_MIGRATION_DONE: An extent's copy completes, so the extent switches to its new run, and the stack becomes RETIRED after its last extent. -/
  | extentMigrationDone (region : Nat) (ext : Nat) (e : Env)
  /-- STACK_FAIL: A stack fails at run time, so its extents are LOST, its engines go OUT and its supply switches open. -/
  | stackFail (stk : Fin 32) (e : Env)
  /-- DIE_TO_DIE_MODULE_OUT: A die-to-die module that lane repair cannot restore is removed from service. -/
  | dieToDieModuleOut (stk : Fin 32) (m : Fin 4) (e : Env)
  /-- LOAD: An uncached LOAD is translated and served. -/
  | load (r : Req) (e : Env)
  /-- LOAD_CACHED: A cached LOAD with intent S or M is served under the directory. -/
  | loadCached (r : Req) (e : Env)
  /-- STORE: A STORE writes its payload into a window, merging narrow writes. -/
  | store (r : Req) (e : Env)
  /-- STORE_NOTIFY: A STORE_NOTIFY arrives and is held until earlier writes from the same source have committed. -/
  | storeNotify (r : Req) (e : Env)
  /-- STORE_NOTIFY_RELEASE: The earlier writes have committed, so the held data commits and the NOTIFY event is sent. -/
  | storeNotifyRelease (src : Nat) (tag : Nat) (e : Env)
  /-- ATOMIC_FETCH: An ATOMIC reads without writing. -/
  | atomicFetch (r : Req) (e : Env)
  /-- ATOMIC_ADD: An ATOMIC adds, wrapping. -/
  | atomicAdd (r : Req) (e : Env)
  /-- ATOMIC_SWAP: An ATOMIC swaps in its operand. -/
  | atomicSwap (r : Req) (e : Env)
  /-- ATOMIC_CAS: An ATOMIC compares and swaps. -/
  | atomicCas (r : Req) (e : Env)
  /-- ATOMIC_MIN: An ATOMIC stores the minimum. -/
  | atomicMin (r : Req) (e : Env)
  /-- ATOMIC_MAX: An ATOMIC stores the maximum. -/
  | atomicMax (r : Req) (e : Env)
  /-- COH_ATTACH: A host attaches to a coherent region and receives a sharer slot and a lease. -/
  | cohAttach (r : Req) (e : Env)
  /-- COH_DETACH: A host's sharer slot is freed. -/
  | cohDetach (r : Req) (e : Env)
  /-- COH_RENEW: A host's lease is renewed. -/
  | cohRenew (r : Req) (e : Env)
  /-- WRITEBACK: The owner returns a line, which is written. -/
  | writeback (r : Req) (e : Env)
  /-- INVAL_ACK: PEND is decremented, and at 0 the waiting request is served. -/
  | invalAck (r : Req) (e : Env)
  /-- RECALL_ACK_NODATA: A recall is answered with no data, and the waiting request is served. -/
  | recallAckNodata (r : Req) (e : Env)
  /-- RECALL_ACK_DATA: A recall is answered with data, which is written to DRAM. -/
  | recallAckData (r : Req) (e : Env)
  /-- RECALL_ACK_WB_SENT: A recall is answered with WB_SENT, so WB_WAIT is set until the WRITEBACK arrives. -/
  | recallAckWbSent (r : Req) (e : Env)
  /-- COH_REVOKE_ACK: A host acknowledges COH_REVOKE during revocation. -/
  | cohRevokeAck (r : Req) (e : Env)
  /-- COH_DECLARE_LOST_ZERO: LM lines in the range are written with zeros and become I. -/
  | cohDeclareLostZero (r : Req) (e : Env)
  /-- COH_DECLARE_LOST_STALE: LM lines in the range keep their DRAM copy and become I. -/
  | cohDeclareLostStale (r : Req) (e : Env)
  /-- COH_LM_QUERY: Up to 256 VAs of lines in LM are returned. -/
  | cohLmQuery (r : Req) (e : Env)
  /-- LEASE_EXPIRY: A sharer's lease ends, so its slot becomes DEAD and the sweep begins. -/
  | leaseExpiry (region : Nat) (slot : Nat) (e : Env)
  /-- COH_SWEEP_DONE: The sweep of a dead slot completes, so the slot is freed and COH_LOST is sent. -/
  | cohSweepDone (region : Nat) (slot : Nat) (e : Env)
  /-- BQ_CREATE: A bulk queue is created. -/
  | bqCreate (r : Req) (e : Env)
  /-- BQ_DESTROY: Pending descriptors are discarded with REVOKED and the queue is freed. -/
  | bqDestroy (r : Req) (e : Env)
  /-- BULK_SUBMIT: Descriptors are translated and queued whole, or all are rejected. -/
  | bulkSubmit (r : Req) (e : Env)
  /-- BULK_DOORBELL: RUN advances to the clamped value. -/
  | bulkDoorbell (r : Req) (e : Env)
  /-- DESCRIPTOR_START: A released descriptor starts when queue order, FENCE and the limit of 8 allow. -/
  | descriptorStart (q : Nat) (e : Env)
  /-- DESC_NOP: A NOP descriptor does nothing. -/
  | descNop (q : Nat) (e : Env)
  /-- DESC_FILL: The destination is filled with PATTERN. -/
  | descFill (q : Nat) (e : Env)
  /-- DESC_COPY: The source is copied to the destination. -/
  | descCopy (q : Nat) (e : Env)
  /-- DESC_COMPARE: The two sources are compared and the first differing offset is reported. -/
  | descCompare (q : Nat) (e : Env)
  /-- DESC_REDUCE: Elements of the two sources are reduced into the destination. -/
  | descReduce (q : Nat) (e : Env)
  /-- DESCRIPTOR_COMPLETE: A descriptor completes, so HEAD advances, pins are released and its record is sent. -/
  | descriptorComplete (q : Nat) (e : Env)
  /-- QUERY_CAPS: The capability payload is returned; reserved opcodes within a session execute as this verb. -/
  | queryCaps (r : Req) (e : Env)
  /-- SPDM_CARRY: An SPDM message is carried in QUERY_CAPS with SUBOP 1 and answered. -/
  | spdmCarry (r : Req) (e : Env)
  /-- EVENT_RECEIVED: An EVENT that arrives at the module is discarded. -/
  | eventReceived (r : Req) (e : Env)
  /-- LOAD_INTERVAL: At each 1 ms interval, the LOAD value is computed per tenant. -/
  | loadInterval (t : Nat)
  /-- PLAN_LOAD: A plan is checked, its resources are reserved and its streams are copied, or the load is refused whole. -/
  | planLoad (r : Req) (e : Env)
  /-- PLAN_UNLOAD: A plan's engines and slots are zeroed and freed. -/
  | planUnload (r : Req) (e : Env)
  /-- PLAN_RUN: The arguments are translated, sync slots and bank owners are set, and every engine stream starts. -/
  | planRun (r : Req) (e : Env)
  /-- PLAN_RUN_END: Every engine has executed END, so the PLAN_RUN response is sent. -/
  | planRunEnd (plan : Nat) (e : Env)
  /-- OP_NOP: The engine issues a NOP operation. -/
  | opNop (eng : Nat) (e : Env)
  /-- OP_MOVE: The mover port copies SRC to DST. -/
  | opMove (eng : Nat) (e : Env)
  /-- OP_GEMV: The compute port multiplies a weight tile by activations, then runs the ABFT check. -/
  | opGemv (eng : Nat) (e : Env)
  /-- OP_ATTEND: The compute port attends over the KV pages on its stack. -/
  | opAttend (eng : Nat) (e : Env)
  /-- OP_EWISE_ADD: EWISE adds elementwise in scratch. -/
  | opEwiseAdd (eng : Nat) (e : Env)
  /-- OP_EWISE_MUL: EWISE multiplies elementwise in scratch. -/
  | opEwiseMul (eng : Nat) (e : Env)
  /-- OP_EWISE_MAX: EWISE takes the elementwise maximum in scratch. -/
  | opEwiseMax (eng : Nat) (e : Env)
  /-- OP_EWISE_SCALE: EWISE scales in scratch. -/
  | opEwiseScale (eng : Nat) (e : Env)
  /-- OP_EWISE_CONVERT: EWISE converts FP32 or BF16 elements into the activation format. -/
  | opEwiseConvert (eng : Nat) (e : Env)
  /-- OP_REDUCE: The compute port reduces SRC into DST. -/
  | opReduce (eng : Nat) (e : Env)
  /-- OP_SEND: Scratch data is sent to an argument or to a fabric node. -/
  | opSend (eng : Nat) (e : Env)
  /-- OP_RECV: The engine waits until LEN bytes have landed in the bank. -/
  | opRecv (eng : Nat) (e : Env)
  /-- OP_BANK_OWN: Bank ownership passes in the handover cycle. -/
  | opBankOwn (eng : Nat) (e : Env)
  /-- OP_BARRIER: The engine arrives at a barrier and waits for its phase. -/
  | opBarrier (eng : Nat) (e : Env)
  /-- OP_END: The engine ends its stream. -/
  | opEnd (eng : Nat) (e : Env)
  /-- BARRIER_DEFINE: A barrier context is defined or redefined. -/
  | barrierDefine (r : Req) (e : Env)
  /-- BARRIER_FREE: A barrier context is released. -/
  | barrierFree (r : Req) (e : Env)
  /-- SYNC_ARRIVE: COUNT is added to a sync slot, or external arrivals are added to a barrier. -/
  | syncArrive (r : Req) (e : Env)
  /-- SYNC_WAIT: A host waits on a sync slot or barrier. -/
  | syncWait (r : Req) (e : Env)
  /-- SYNC_WAIT_TIMEOUT: TIMEOUT_US passes first, so SYNC_WAIT completes with TIMEOUT. -/
  | syncWaitTimeout (src : Nat) (tag : Nat) (e : Env)
  /-- DEADLOCK_DETECT: Every queue of the run is blocked for DEADLOCK_US, so the run aborts and a wait-graph snapshot is written. -/
  | deadlockDetect (plan : Nat) (e : Env)
  /-- FE_PARK_ACT_RETRY: Every engine in the park mask resumes at its faulting operation. -/
  | feParkActRetry (q : Requester) (rec : Nat) (e : Env)
  /-- FE_PARK_ACT_ABORT: The parked run is aborted. -/
  | feParkActAbort (q : Requester) (rec : Nat) (e : Env)
  /-- ENGINE_HANG: An operation does not complete within 100 ms, so the engine is quarantined. -/
  | engineHang (eng : Nat) (e : Env)
  /-- ENGINE_SELFTEST: An idle engine runs its self-test, and a failure quarantines it. -/
  | engineSelftest (stk : Fin 32) (pos : Fin 66) (pass : Bool) (e : Env)
  /-- SPARE_REMAP_DONE: A quarantined engine's logical index is remapped to a spare. -/
  | spareRemapDone (eng : Nat) (e : Env)
  /-- ABFT_REEXEC_DONE: The re-execution completes, either recovered or with ABFT_FAIL and quarantine. -/
  | abftReexecDone (eng : Nat) (e : Env)
  /-- FE_BANK_OWN_WRITE: A register write hands a scratch bank to a new owner. -/
  | feBankOwnWrite (q : Requester) (eng : Nat) (v : BitVec 64) (e : Env)
  /-- FE_ABFT_CLR: A write of CLEAR_HOLD clears FE_ABFT_LAST.HELD. -/
  | feAbftClr (q : Requester) (e : Env)
  /-- WS_LOAD: A weight-set bundle is checked, measured, tiled and placed, or refused whole. -/
  | wsLoad (r : Req) (e : Env)
  /-- WS_GEMV: A group of matrices is applied to the input vectors with ABFT. -/
  | wsGemv (r : Req) (e : Env)
  /-- WS_RELEASE: LOADS is decremented, and at 0 the set is freed. -/
  | wsRelease (r : Req) (e : Env)
  /-- KV_CREATE: A KV object is created with its frames reserved. -/
  | kvCreate (r : Req) (e : Env)
  /-- KV_APPEND: Tokens are written and the layer lengths are set. -/
  | kvAppend (r : Req) (e : Env)
  /-- KV_ATTEND: Attention is computed over a layer's pages and merged. -/
  | kvAttend (r : Req) (e : Env)
  /-- KV_SHARE_PREFIX: A child object is created that shares the parent's prefix pages. -/
  | kvSharePrefix (r : Req) (e : Env)
  /-- KV_RELEASE: An object's references and its reservation are released. -/
  | kvRelease (r : Req) (e : Env)
  /-- KV_EXPIRED: An object idle for IDLE_MS is released and its creator is notified. -/
  | kvExpired (obj : Nat) (e : Env)
  /-- SIGNAL_DETECT: Signal is detected on a lane for 1 ms, so the port leaves DOWN for TRAIN. -/
  | signalDetect (port : Fin 64) (m : SignalIn)
  /-- TRAIN_PARAM: The peer's TRAIN_PARAM is received, and the width and credits are set. -/
  | trainParam (port : Fin 64) (head : Bytes) (param : Bytes) (counts : Bytes) (tail : Bytes) (t : Nat)
  /-- RTT_PROBE: An RTT_PROBE is answered with RTT_ECHO. -/
  | rttProbe (port : Fin 64) (flit : Bytes) (t : Nat)
  /-- RTT_ECHO: An RTT_ECHO gives an RTT sample, from which the replay timeout is set. -/
  | rttEcho (port : Fin 64) (flit : Bytes) (t : Nat)
  /-- TRAIN_TIMEOUT: Training has not reached VERIFY by 150 ms, so the port enters DOWN. -/
  | trainTimeout (port : Fin 64) (t : Nat)
  /-- IDENT_SEND: Every 1 ms in VERIFY, IDENT is sent until IDENT_ACK arrives. -/
  | identSend (port : Fin 64) (t : Nat)
  /-- IDENT: The peer's IDENT is checked and answered with IDENT_ACK. -/
  | ident (port : Fin 64) (m : LinkMgmt) (t : Nat)
  /-- IDENT_ACK: The peer acknowledges the port's NONCE, and verification may pass into ACTIVE. -/
  | identAck (port : Fin 64) (m : LinkMgmt) (t : Nat)
  /-- VERIFY_TIMEOUT: Verification has not completed within 20 ms, so the port enters DOWN. -/
  | verifyTimeout (port : Fin 64) (t : Nat)
  /-- HEARTBEAT_SEND: Every 100 µs in ACTIVE, a HEARTBEAT is sent. -/
  | heartbeatSend (port : Fin 64) (t : Nat)
  /-- HEARTBEAT: A HEARTBEAT is received and its NODE and INCARNATION are checked. -/
  | heartbeat (port : Fin 64) (m : LinkMgmt) (t : Nat)
  /-- HB_LOSS: 400 µs pass without a HEARTBEAT, so the port enters RESET. -/
  | hbLoss (port : Fin 64) (t : Nat)
  /-- LEAVE: The port receives LEAVE and enters DOWN at once, pruning the port. -/
  | leave (port : Fin 64) (t : Nat)
  /-- LOS: Signal leaves every lane in use, so the port enters DOWN. -/
  | los (port : Fin 64) (t : Nat)
  /-- RESET_FLIT: A RESET flit from the peer puts the port into RESET. -/
  | resetFlit (port : Fin 64) (flit : Bytes) (t : Nat)
  /-- LINK_RESET_EXIT: 1 µs after entering RESET, the port enters DOWN. -/
  | linkResetExit (port : Fin 64) (t : Nat)
  /-- LANE_FAULT: A faulty lane is excluded and the port enters RESET. -/
  | laneFault (port : Fin 64) (lane : Fin 8) (w : LaneIn)
  /-- LANE_EXCLUSION_EXPIRY: After 60 s, the excluded lane is tested again at the next TRAIN. -/
  | laneExclusionExpiry (port : Fin 64) (lane : Fin 8) (t : Nat)
  /-- FLAP_HOLD_EXPIRY: The hold period ends and the flap count is zeroed. -/
  | flapHoldExpiry (port : Fin 64) (t : Nat)
  /-- TRAINING_BACKOFF_EXPIRY: The backoff after a failed attempt ends, so the port may leave DOWN. -/
  | trainingBackoffExpiry (port : Fin 64) (t : Nat)
  /-- PAYLOAD: A PAYLOAD flit is received, checked and accepted, or discarded with a NAK. -/
  | payload (port : Fin 64) (flit : Bytes) (e : Env)
  /-- IDLE: An IDLE flit delivers an acknowledgement and a credit return. -/
  | idle (port : Fin 64) (flit : Bytes) (t : Nat)
  /-- LINK_ACK_SEND: After 16 flits, or 200 ns, a cumulative acknowledgement is sent. -/
  | linkAckSend (port : Fin 64) (t : Nat)
  /-- NAK: The sender receives a NAK and replays from EXP_SEQ. -/
  | nak (port : Fin 64) (flit : Bytes) (t : Nat)
  /-- REPLAY_START: The receiver takes START_SEQ as the expected sequence. -/
  | replayStart (port : Fin 64) (flit : Bytes) (t : Nat)
  /-- REPLAY_TIMEOUT: The replay timer expires, so the sender replays from the oldest unacknowledged flit. -/
  | replayTimeout (port : Fin 64) (t : Nat)
  /-- CREDIT: A credit return updates RET for a class and kind. -/
  | credit (port : Fin 64) (flit : Bytes) (t : Nat)
  /-- CREDIT_SEND: At least every 1 µs, a full CREDIT message is sent. -/
  | creditSend (port : Fin 64) (t : Nat)
  /-- LPI_ENTER: The peer enters low-power idle, and the replay timeout rises to 12 µs. -/
  | lpiEnter (port : Fin 64) (f : FlitIn)
  /-- LPI_EXIT: The peer leaves low-power idle. -/
  | lpiExit (port : Fin 64) (f : FlitIn)
  /-- LPI_BURST: Every 10 µs in low-power idle, a keepalive burst is sent. -/
  | lpiBurst (port : Fin 64) (t : Nat)
  /-- KEEPALIVE_LOSS: 40 µs pass without a burst from an LPI peer, so the port enters RESET. -/
  | keepaliveLoss (port : Fin 64) (t : Nat)
  /-- RETRAIN: LNK_CMD.RETRAIN puts the port into RESET. -/
  | retrain (sess : Nat) (port : Fin 64) (t : Nat)
  /-- CLEAR_HOLD: LNK_CMD.CLEAR_HOLD ends a hold and zeroes the flap count. -/
  | clearHold (sess : Nat) (port : Fin 64) (t : Nat)
  /-- ADMIN_DOWN: A write of LNK_CTL.ADMIN_DOWN takes the port down and keeps it dark until cleared. -/
  | adminDown (sess : Nat) (port : Fin 64) (v : BitVec 64) (t : Nat)
  /-- TRANSIT_FORWARD: A transit packet is forwarded on one port of its effective spray set. -/
  | transitForward (port : Fin 64) (p : Pkt) (e : Env)
  /-- TRANSIT_AGE_DROP: A transit packet held more than 8 µs is discarded. -/
  | transitAgeDrop (n : Nat) (t : Nat)
  /-- FLIP: RTE_CMD.FLIP toggles SEL and starts DRAINING. -/
  | flip (sess : Nat) (t : Nat)
  /-- DRAINING_END: 100 µs after a flip, DRAINING clears. -/
  | drainingEnd (t : Nat)
  /-- RTE_GRP_SET_WRITE: A spray set of the inactive copy is written, or the write is rejected. -/
  | rteGrpSetWrite (sess : Nat) (v : BitVec 64) (t : Nat)
  /-- E2E: An end-to-end packet arrives, is checked, reordered and delivered to admission. -/
  | e2e (port : Fin 64) (p : Pkt) (e : Env)
  /-- STREAM: A STREAM packet is delivered into its engine's inbound queue, or dropped. -/
  | stream (port : Fin 64) (p : Pkt) (t : Nat)
  /-- E2E_ACK: An E2E_ACK frees acknowledged packets and records the SACK. -/
  | e2eAck (port : Fin 64) (p : Pkt) (t : Nat)
  /-- E2E_ACK_SEND: A cumulative or selective acknowledgement is sent by its deadline. -/
  | e2eAckSend (node : Nat) (space : Bool) (t : Nat)
  /-- E2E_RETRANSMIT_TIMEOUT: A packet's timer expires, so it is retransmitted and CWND is halved. -/
  | e2eRetransmitTimeout (node : Nat) (space : Bool) (seq : Nat) (t : Nat)
  /-- SHAPER_REFILL: Every 1 µs, each token bucket adds RATE and is limited to BURST. -/
  | shaperRefill (t : Nat)
  /-- QOS_SHP_WRITE: A tenant's shaper values are lowered. -/
  | qosShpWrite (sess : Nat) (v : BitVec 64) (t : Nat)
  /-- PARTITION_BUDGET_REFILL: Every 1 µs, a PARTITIONED tenant's DRAM budget is refilled. -/
  | partitionBudgetRefill (t : Nat)
  /-- PARTITION_RESPONSE_RELEASE: At D_P after admission, a PARTITIONED response is handed to egress. -/
  | partitionResponseRelease (t : Nat)
  /-- DRAM_AGE_PROMOTION: An access that has waited AGE_NS moves up one class. -/
  | dramAgePromotion (stk : Fin 32) (t : Nat)
  /-- DRAM_REFRESH: A per-bank refresh is issued. -/
  | dramRefresh (stk : Fin 32) (pch : Fin 64) (bank : Nat) (t : Nat)
  /-- CHANNEL_RETRAINING: A channel is retrained once every 100 ms, and two failures fail the stack. -/
  | channelRetraining (stk : Fin 32) (ch : Fin 32) (pass : Bool) (e : Env)
  /-- SELF_REFRESH_ENTRY: After 50 µs idle, the stack enters self-refresh. -/
  | selfRefreshEntry (stk : Fin 32) (t : Nat)
  /-- CE_BUCKET_LEAK: Every 1 ms, each CE bucket leaks LEAK_PER_S / 1,000. -/
  | ceBucketLeak (t : Nat)
  /-- MEM_RETIRE: A page is copied to a spare page and remapped. -/
  | memRetire (sess : Nat) (pa : BitVec 64) (e : Env)
  /-- PAGE_REMAP_DONE: The page copy completes, so the remap entry becomes active. -/
  | pageRemapDone (stk : Fin 32) (page : Nat) (e : Env)
  /-- TRV_START: TRV_CMD.START begins a Traverse pass. -/
  | trvStart (q : Requester) (e : Env)
  /-- TRV_ABORT: TRV_CMD.ABORT stops the page's pass. -/
  | trvAbort (q : Requester) (e : Env)
  /-- TRAVERSE_DONE: A pass ends and its summary is written. -/
  | traverseDone (q : Requester) (e : Env)
  /-- ECC_INJ_ARM: A free unit is armed for injection. -/
  | eccInjArm (sess : Nat) (v : BitVec 64) (e : Env)
  /-- ECC_INJ_DISARM: The armed unit is overwritten and freed. -/
  | eccInjDisarm (sess : Nat) (v : BitVec 64) (e : Env)
  /-- ECC_INJ_WRITE_RAW: Data and check symbols are written unencoded. -/
  | eccInjWriteRaw (sess : Nat) (v : BitVec 64) (e : Env)
  /-- ECC_INJ_WRITE_ENC: Data is encoded and written. -/
  | eccInjWriteEnc (sess : Nat) (v : BitVec 64) (e : Env)
  /-- ECC_INJ_READ_RAW: The stored symbols are read without decoding. -/
  | eccInjReadRaw (sess : Nat) (v : BitVec 64) (e : Env)
  /-- ECC_INJ_READ_DEC: A line is read as a demand read and decoded. -/
  | eccInjReadDec (sess : Nat) (v : BitVec 64) (e : Env)
  /-- ECC_INJ_FLIP_CRIT: One copy of a critical word is XORed. -/
  | eccInjFlipCrit (sess : Nat) (v : BitVec 64) (e : Env)
  /-- ECC_LOG_SEL_WRITE: The selected CE log entry is latched into ECC_LOG_E0 and ECC_LOG_E1. -/
  | eccLogSelWrite (sess : Nat) (v : BitVec 64) (t : Nat)
  /-- ECC_LOG_CLR: The CE address log is emptied. -/
  | eccLogClr (sess : Nat) (t : Nat)
  /-- SYSKEY_PROGRAM: A system key slot is programmed and becomes usable at the next reset. -/
  | syskeyProgram (sess : Nat) (req : Bytes) (t : Nat)
  /-- SYSKEY_REVOKE: A system key slot's revoke fuse is blown. -/
  | syskeyRevoke (sess : Nat) (req : Bytes) (t : Nat)
  /-- ONX_SYSKEY_NONCE_READ: A read returns a fresh challenge and invalidates the previous one. -/
  | onxSyskeyNonceRead (sess : Nat) (t : Nat)
  /-- DRBG_FAIL: A DRBG health test fails, so no key is drawn and an alert is raised. -/
  | drbgFail (t : Nat)
  /-- GET_VERSION: An SPDM GET_VERSION request is answered. -/
  | getVersion (m : SpdmIn)
  /-- GET_CAPABILITIES: An SPDM GET_CAPABILITIES request is answered. -/
  | getCapabilities (m : SpdmIn)
  /-- NEGOTIATE_ALGORITHMS: An SPDM NEGOTIATE_ALGORITHMS request is answered. -/
  | negotiateAlgorithms (m : SpdmIn)
  /-- GET_DIGESTS: An SPDM GET_DIGESTS request is answered. -/
  | getDigests (m : SpdmIn)
  /-- GET_CERTIFICATE: An SPDM GET_CERTIFICATE request is answered. -/
  | getCertificate (m : SpdmIn)
  /-- CHALLENGE: An SPDM CHALLENGE request is answered. -/
  | challenge (m : SpdmIn)
  /-- GET_MEASUREMENTS: The signed measurement blocks and the attestation report are returned. -/
  | getMeasurements (m : SpdmIn)
  /-- KEY_EXCHANGE: A session handshake begins, or is answered with Busy or made room for by evicting a session. -/
  | keyExchange (m : SpdmIn)
  /-- FINISH: The handshake completes and packet protection switches on. -/
  | finish (m : SpdmIn)
  /-- KEY_UPDATE: The session keys are updated at the given packet numbers. -/
  | keyUpdate (m : SpdmIn)
  /-- END_SESSION: A session ends and its keys are forgotten. -/
  | endSession (m : SpdmIn)
  /-- CHUNK_SEND: A chunk of a long SPDM message is received. -/
  | chunkSend (m : SpdmIn)
  /-- CHUNK_GET: A chunk of a long SPDM response is returned. -/
  | chunkGet (m : SpdmIn)
  /-- BLOCK: SEC_CMD.BLOCK blocks a peer. -/
  | block (sess : Nat) (node : Nat) (t : Nat)
  /-- UNBLOCK: SEC_CMD.UNBLOCK ends a block and zeroes the failure count. -/
  | unblock (sess : Nat) (node : Nat) (t : Nat)
  /-- CONTROL_CYCLE: At the end of each 10 µs cycle, Lead sends its delta to Second. -/
  | controlCycle (t : Nat)
  /-- DELTA_ACK: Second's ACK is compared, and a CHK mismatch fails Second. -/
  | deltaAck (cycle : BitVec 32) (chk : BitVec 64) (t : Nat)
  /-- SECOND_HANG: No ACK arrives within 5 µs, so Second is failed. -/
  | secondHang (t : Nat)
  /-- NO_DELTA: Lead has sent no delta for 20 µs, so Second reports Lead failed. -/
  | noDelta (t : Nat)
  /-- WATCHDOG: A processor misses its watchdog for 20 µs and is failed. -/
  | watchdog (cp : Fin 2) (t : Nat)
  /-- FORCE_SWITCH: CP_CMD.FORCE_SWITCH performs a switchover when both processors are healthy. -/
  | forceSwitch (sess : Nat) (t : Nat)
  /-- RESYNC_DONE: A repaired processor's CHK matches after the full copy, so it becomes SECOND. -/
  | resyncDone (t : Nat)
  /-- BELAY_SAMPLE: Every 100 µs, Belay samples and filters the channels and acts on the most severe level. -/
  | belaySample (b : BelayIn)
  /-- L_POWER_UPDATE: Every 1 ms, L_power is raised or lowered against POWER_CAP_W. -/
  | lPowerUpdate (t : Nat)
  /-- L_THERMAL_UPDATE: Every 10 ms, L_thermal is raised or lowered. -/
  | lThermalUpdate (t : Nat)
  /-- BELAY_STATUS_REQUEST: A UDP datagram to port 7421 is answered with a 256 B status reply. -/
  | belayStatusRequest (port : Fin 2) (req : Bytes) (t : Nat)
  /-- SWAP: PWR_LASER_CMD.SWAP switches the laser banks. -/
  | swap (sess : Nat) (t : Nat)
  /-- CRN_POP: Writing the oldest record's SEQ removes it from Cairn. -/
  | crnPop (sess : Nat) (seq : BitVec 32) (t : Nat)
  /-- CAIRN_MERGE_RELEASE: Space frees in Cairn, so one CAIRN record with the merged counts is queued. -/
  | cairnMergeRelease (t : Nat)
  /-- CAIRN_CRIT_FULL_ALERT: While Cairn is full of critical records, an alert is raised at most once per second. -/
  | cairnCritFullAlert (t : Nat)
  /-- GLB_ISL_LOL_EVT_READ: A read returns COUNT and LAST, then clears COUNT. -/
  | glbIslLolEvtRead (sess : Nat) (t : Nat)
  /-- BOOT_UNREACH_DROP_READ: A read returns the unreachable-drop count and clears it. -/
  | bootUnreachDropRead (sess : Nat) (t : Nat)
  /-- WIN_REVOKE_ABORT_READ: A read returns the revocation abort count and clears it. -/
  | winRevokeAbortRead (sess : Nat) (t : Nat)
  /-- ANC_EVT_READ: A read returns the anchor event counts and clears them. -/
  | ancEvtRead (sess : Nat) (t : Nat)
  /-- COH_EVT_READ: A read returns the coherence event counts and clears them. -/
  | cohEvtRead (sess : Nat) (t : Nat)
  /-- VRB_EVT_READ: A read returns the verb event counts and clears them. -/
  | vrbEvtRead (sess : Nat) (t : Nat)
  /-- FE_EVT_READ: A read returns the engine event counts and clears them. -/
  | feEvtRead (sess : Nat) (t : Nat)
  /-- FE_ARITH_EVT_READ: A read returns the arithmetic event counts and clears them. -/
  | feArithEvtRead (sess : Nat) (t : Nat)
  /-- WS_EVT_READ: A read returns the weight-set event counts and clears them. -/
  | wsEvtRead (sess : Nat) (t : Nat)
  /-- KV_EVT_READ: A read returns the KV event counts and clears them. -/
  | kvEvtRead (sess : Nat) (t : Nat)
  /-- LNK_ERR_READ: A read returns the link error counts and clears them. -/
  | lnkErrRead (sess : Nat) (t : Nat)
  /-- RTE_EVT_READ: A read returns the routing event counts and clears them. -/
  | rteEvtRead (sess : Nat) (t : Nat)
  /-- E2E_EVT_READ: A read returns the end-to-end event counts and clears them. -/
  | e2eEvtRead (sess : Nat) (t : Nat)
  /-- E2E_DROP_READ: A read returns the end-to-end drop counts and clears them. -/
  | e2eDropRead (sess : Nat) (t : Nat)
  /-- QOS_EVT_READ: A read returns the QoS event counts and clears them. -/
  | qosEvtRead (sess : Nat) (t : Nat)
  /-- DRC_EVT_READ: A read returns the DRAM scheduler event counts and clears them. -/
  | drcEvtRead (sess : Nat) (t : Nat)
  /-- ECC_STK_CNT_READ: A read returns the per-stack error counts and clears them. -/
  | eccStkCntRead (sess : Nat) (t : Nat)
  /-- ECC_SRAM_READ: A read returns the SRAM error counts and clears them. -/
  | eccSramRead (sess : Nat) (t : Nat)
  /-- ECC_CRIT_READ: A read returns the critical word counts and clears them. -/
  | eccCritRead (sess : Nat) (t : Nat)
  /-- ONX_EVT_READ: A read returns the Onyx event counts and clears them. -/
  | onxEvtRead (sess : Nat) (t : Nat)
  /-- SEC_EVT_READ: A read returns the security event counts and clears them. -/
  | secEvtRead (sess : Nat) (t : Nat)
  /-- CRN_DROP_READ: A read returns the dropped-record count, clears it and clears OVERFLOW. -/
  | crnDropRead (sess : Nat) (t : Nat)
  /-- CRN_MERGE_READ: A read returns the merged class counts and clears them. -/
  | crnMergeRead (sess : Nat) (t : Nat)
  /-- BEL_EVT_READ: A read returns the Belay event counts and clears them. -/
  | belEvtRead (sess : Nat) (t : Nat)
  /-- GLB_ACC_ERR_READ: A read returns the register access-error counts and clears them. -/
  | glbAccErrRead (sess : Nat) (t : Nat)
  /-- MAIN_RAIL_LOSS: A main rail leaves regulation, so the transmitters go dark through the Belay gate and the module is lost abruptly, without a leave. -/
  | mainRailLoss (t : Nat)
  /-- MIRROR_PEER_RESPONSE: The peer's response to MIRROR_WRITE or MIRROR_BIND reaches the primary, so the mirrored write or REGION_CREATE completes. -/
  | mirrorPeerResponse (node : Nat) (p : Resp) (e : Env)
  /-- DRAINING_PEER_EVICTION: A DRAINING peer becomes idle, with 100 µs passed since its last packet, so it is evicted and the waiting new peer receives state. -/
  | drainingPeerEviction (node : Nat) (t : Nat)
deriving DecidableEq, Repr

end Sys2Proof
end

