-- ==== Sys2Proof/Config.lean ====
section
/-! DEFINITION. The free values and the cryptographic functions of the module: constants with no body, so that no
statement can rest on a value of theirs. -/

namespace Sys2Proof.Config

/-- A byte the spec leaves open; the index is the counter State.free (log entry 13). -/
opaque freeByte : Nat → Byte

/-- A number the spec leaves open; the index is the counter State.free (log entry 13). -/
opaque freeNat : Nat → Nat

/-- Byte i of draw n of the random source of 14 R556 (log entry 14). -/
opaque drbg : Nat → Nat → Byte

/-- ECDSA P-384 verification of a signature over a SHA-384 digest: key, digest, signature (03 R102; log entry 14). -/
opaque ecdsaVerify : List Byte → List Byte → List Byte → Bool

/-- The signature that Onyx makes over a digest: layer, digest (14 R578; log entry 14). -/
opaque onyxSign : Nat → List Byte → List Byte

/-- The public key of the X.509 certificate given, when it parses and has the form 03 R110 asks (log entry 14). -/
opaque certKey : List Byte → Option (List Byte)

/-- The public key that Onyx derives at a layer from what is measured (14 R554; log entry 14). -/
opaque onyxKey : Nat → List Byte → List Byte

/-- The certificate that Onyx issues for a layer key (14 R554; log entry 14). -/
opaque onyxCert : Nat → List Byte → List Byte

/-- Which of the FP32 values within 1 ulp of the exact exponential of FP32 bits the module returns (09 R396; log entry 15). -/
opaque expPick : BitVec 32 → Nat

/-- Which of the FP32 values within 1 ulp of the exact natural logarithm of FP32 bits the module returns (09 R396; log
entry 15). -/
opaque lnPick : BitVec 32 → Nat

/-- The number of elements of an EWISE operation: 07 R275 gives its PARAM a LEN and does not say where (log entry 28). -/
opaque ewiseLen : BitVec 64 → Nat

/-- The factor of EWISE SCALE as FP32 bits, which 07 R275 does not place (log entry 28). -/
opaque ewiseScale : BitVec 64 → BitVec 32

/-- The number of bytes of a REDUCE operation of a plan, which 07 R275 does not place (log entry 28). -/
opaque reduceLen : BitVec 64 → Nat

/-- The signatures and MACs of an SPDM message verify (14 R564; log entry 14). -/
opaque spdmOk : List Byte → Bool

/-- The system key slot at which the certificate chain of a node ends, when the chain is accepted by 14 R567: node, the
messages that carry it (log entry 14). -/
opaque spdmRoot : Nat → List Byte → Option Nat

/-- The value of a critical word whose content the spec does not give: key-table root, policy words, remap roots (log
entry 33). -/
opaque critWord : Nat → BitVec 64

/-- The fixed pattern of a marker share (10 R407), byte by byte: the spec does not give it (log entry 68). -/
opaque markByte : Nat → Byte

/-- AES-256-XTS of a data unit of n bits: key pair, tweak, n (14 R559; log entry 14). It is a permutation, so that decryption gives
the plaintext back. A whole line has 1,024 bits; for a part of a line the spec defines no cipher, and the value is free. -/
opaque xts : List Byte → Nat → (n : Nat) → Equiv.Perm (BitVec n)

end Sys2Proof.Config
end

