-- ==== Sys2Proof/Machine/State.lean ====
section
/-! DEFINITION. The state of the OZX-3240: every register, table, queue, buffer, counter, mode and
pin the spec gives the module, as plain data, with the state before power is first applied.
One structure per unit; the docstring of a field names its rule of spec/. -/

namespace Sys2Proof.Machine

/-- The four variants (00_scope R2). -/
inductive Variant
  | c3240C | c3240E | c3240M | c2440C
deriving DecidableEq, Repr

/-- BOOT_STATE.STATE (02 R90). -/
inductive BootState
  | held | belayCheck | imageVerify | cpStart | training | backoff | poolOpen | forwardOnly | bivouac | leaving | noImage | heldShutdown
deriving DecidableEq, Repr

/-- A laser bank's state (16 R645, R652). -/
inductive LaserState
  | off | active | standby | failed
deriving DecidableEq, Repr

/-- What keeps the module in reset: nothing, a module reset, or one of the shutdown holds (02 R66, R70, R71, R73). -/
inductive Hold
  | none | module | orderly | emergency | enLow | restartLimit
deriving DecidableEq, Repr

/-- BOOT_STAGE.STATE (03 R121). -/
inductive StageState
  | idle | writing | verified | committed | failed
deriving DecidableEq, Repr

/-- A configuration slot, or none (03 R93, R95). -/
inductive SlotName
  | noSlot | slotA | slotB
deriving DecidableEq, Repr

/-- Region MODE (04 R141, R143). -/
inductive RegionMode
  | priv | uncached | coherent | mirrored
deriving DecidableEq, Repr

/-- Region STATE (04 R131). -/
inductive RegionState
  | active | degraded | fenced | shadow | revoking
deriving DecidableEq, Repr

/-- XT_STK_STATE.STATE (04 R182). -/
inductive StackState
  | inService | draining | retired | failed
deriving DecidableEq, Repr

/-- An anchor's state (04 R146, R160, R164, R165). -/
inductive AnchorState
  | lent | inRegion | revoking | lost
deriving DecidableEq, Repr

/-- Directory STATE (05 R192). -/
inductive DirState
  | inv | shared | excl | modified | lostModified | waitInv | waitRcl
deriving DecidableEq, Repr

/-- A port's link state (10 R414). -/
inductive LinkState
  | down | train | verify | active | reset
deriving DecidableEq, Repr

/-- FE_ENG_STATE.STATE (07 R308). -/
inductive EngState
  | free | reserved | running | parked | substituting | out
deriving DecidableEq, Repr

/-- Owner of a scratch bank (07 R266). -/
inductive BankOwner
  | compute | mover | hostDma
deriving DecidableEq, Repr

/-- A spare engine (07 R308). -/
inductive SpareState
  | free | substituted | quarantined
deriving DecidableEq, Repr

/-- CP_ROLE codes (15 R627). -/
inductive CpState
  | reset | selftest | lead | second | resync | failed | retired
deriving DecidableEq, Repr

/-- Role of a management session (14 R584, R585). -/
inductive MgmtRole
  | operator | auditor
deriving DecidableEq, Repr

/-- ONX_TKEY_STATE.STATE (14 R593). -/
inductive TkeyState
  | empty | active | failed
deriving DecidableEq, Repr

/-- SEC_PEER_STATE.STATE (14 R593). -/
inductive SecState
  | none | handshake | active | blockedAuth | blockedMgmt
deriving DecidableEq, Repr

/-- WS_INFO.STATE (09 R403). -/
inductive WsState
  | loading | resident | lost
deriving DecidableEq, Repr

/-- KV_INFO.STATE (09 R403). -/
inductive KvState
  | active | lost
deriving DecidableEq, Repr

/-- TRV_STATUS.STATE (13 R547). -/
inductive TrvState
  | idle | running | done
deriving DecidableEq, Repr

/-- A Belay decision level (15 R614). -/
inductive BelLevel
  | none | alert | cap | orderly | emerg
deriving DecidableEq, Repr

/-- Steps 2 to 6 of a revocation (04 R171). -/
inductive RevPhase
  | drain | pins | copies | overwrite | finish
deriving DecidableEq, Repr

/-- A bulk descriptor's progress (06 R244, R248). -/
inductive DescPhase
  | queued | running | aborted | done
deriving DecidableEq, Repr

/-- Power input, pins, lasers and flash devices (02 R44; 16 R629 to R653). -/
structure Pwr where
  /-- Busbar voltage last seen (R629). -/
  busMv : Nat := 0
  /-- Standby converter in regulation (PWR_STATUS.STANDBY_OK) (R652). -/
  standbyOk : Bool := false
  /-- PWR_STATUS.INRUSH_DONE (R652). -/
  inrushDone : Bool := false
  /-- Level of the EN pin (R44 R639). -/
  en : Bool := false
  /-- Level of the RESET_N pin (PWR_STATUS resets to 0) (R44 R639). -/
  resetN : Bool := false
  /-- SLOT_ID pins (R44). -/
  slotPins : BitVec 6 := 0
  /-- SLOT_ID sampled at step 2 (R46 R652). -/
  slotId : BitVec 6 := 0
  /-- Main converter on (R44 R636). -/
  mainOn : Bool := false
  /-- Level of the PGOOD pin (R44). -/
  pgood : Bool := false
  /-- Over-voltage trip since power-on (R652). -/
  ovp : Bool := false
  /-- The transmitter gate of R47 is closed (R47). -/
  txDark : Bool := true
  /-- What holds the module (R66 R70). -/
  hold : Hold := .module
  /-- EN has been low since the latest hold began (R70). -/
  offSeen : Bool := false
  /-- RESET_N has risen or EN has been cycled since an orderly shutdown (R70). -/
  permit : Bool := false
  /-- When the latest module reset began (R38). -/
  heldAt : Nat := 0
  /-- Laser bank A (R645 R652). -/
  laserA : LaserState := .off
  /-- Laser bank B (R645 R652). -/
  laserB : LaserState := .off
  /-- PWR_LASER.SWITCHES (R652). -/
  laserSw : Nat := 0
  /-- PWR_FLASH.PRESENT_A (R652). -/
  presentA : Bool := false
  /-- PWR_FLASH.PRESENT_B (R652). -/
  presentB : Bool := false
  /-- PWR_FLASH.SFDP_A (R652). -/
  sfdpA : Bool := false
  /-- PWR_FLASH.SFDP_B (R652). -/
  sfdpB : Bool := false
  /-- PWR_FLASH.HDR_A (R650 R652). -/
  hdrA : Nat := 0
  /-- PWR_FLASH.HDR_B (R650 R652). -/
  hdrB : Nat := 0
  /-- PWR_MGMT.LINK0 (R652). -/
  link0 : Bool := false
  /-- PWR_MGMT.LINK1 (R652). -/
  link1 : Bool := false
  /-- Closed load switches of the stack positions (R635). -/
  stackSw : BitVec 32 := 0
deriving DecidableEq, Repr

/-- One configuration flash device (03 R93; 16 R648, R649). -/
structure FlashDev where
  /-- The device is fitted and answers SFDP as R648 requires (R648). -/
  fitted : Bool := true
  /-- Its reads do not fail (R96). -/
  readOk : Bool := true
  /-- COMMIT marker (an erased slot reads 0xFF) (R93 R94). -/
  commit : Byte := 255
  /-- SUPERSEDE marker (R93 R94). -/
  supersede : Byte := 255
  /-- Bytes of the slot from 0x1000 on, up to the last programmed; beyond them 0xFF (R93). -/
  image : List Byte := []
  /-- DeviceID public key of the locked factory header (R649 R650). -/
  hdrKey : List Byte := []
  /-- Serial number of the factory header (R649). -/
  hdrSerial : BitVec 64 := 0
deriving DecidableEq, Repr

/-- Fuses and factory data (14 R552; 03 R120; 16 R642). -/
structure Fuses where
  /-- The variant this module is (00 R2). -/
  variant : Variant := .c3240C
  /-- Programmed fuses: slots 0 and 15 at the factory (R552). -/
  prog : BitVec 16 := 32769
  /-- Revoke fuses (R552). -/
  revoked : BitVec 16 := 0
  /-- Programmed in the running incarnation (R553). -/
  pending : BitVec 16 := 0
  /-- Public keys of the programmed slots (R552 R553). -/
  keys : List (Nat × List Byte) := []
  /-- Fused SVN floor (R120 R121). -/
  svnFloor : Nat := 0
  /-- Fused MAC address of management port 0 (R642 R652). -/
  mac0 : BitVec 48 := 0
  /-- DeviceID public key that Onyx derives (R554 R650). -/
  deviceKey : List Byte := []
  /-- SHA-384 of the fitted mask ROM (R113 R554). -/
  romDigest : List Byte := []
deriving DecidableEq, Repr

/-- The two configuration flash devices (03 R93). -/
structure Flash where
  /-- Device A, slot A (R93). -/
  a : FlashDev := {}
  /-- Device B, slot B (R93). -/
  b : FlashDev := {}
deriving DecidableEq, Repr

/-- What follows an orderly leave (02 R69, R73; 15 R614). -/
inductive LeaveThen
  | thenReset | thenHold | thenEnOff
deriving DecidableEq, Repr

/-- An orderly leave in progress (02 R80). -/
structure Leave where
  /-- When it began (R80). -/
  since : Nat := 0
  /-- What follows it (R69 R73). -/
  what : LeaveThen := .thenReset
  /-- The cause it will record (R91). -/
  cause : Nat := 0
deriving DecidableEq, Repr

/-- The BOOT registers and the start sequence (02 R87; 03 R121). -/
structure Boot where
  /-- BOOT_STATE.STATE (R87 R90). -/
  st : BootState := .held
  /-- BOOT_STATE.SLOT (R87). -/
  slot : SlotName := .noSlot
  /-- BOOT_IMG_FAIL.REASON_A (R96 R121). -/
  failA : Nat := 0
  /-- BOOT_IMG_FAIL.REASON_B (R96 R121). -/
  failB : Nat := 0
  /-- BOOT_CAUSE.LAST (R87 R91). -/
  cause : Nat := 0
  /-- Times of the automatic restarts; RESTARTS counts those of the last 600 s (R71 R87). -/
  restarts : List Nat := []
  /-- BOOT_COUNT.COUNT (R61 R87). -/
  count : BitVec 32 := 0
  /-- The next start is the first of this power-on (R61). -/
  powerOnStart : Bool := true
  /-- BOOT_TIME.OPEN_MS (R87). -/
  openMs : Nat := 65535
  /-- BOOT_TIME.STK_MS (R87). -/
  stkMs : Nat := 65535
  /-- BOOT_TIME.PORT_MS (R87). -/
  portMs : Nat := 65535
  /-- BOOT_TIME.IMG_MS (R87). -/
  imgMs : Nat := 65535
  /-- BOOT_PORT_PEND (R87). -/
  portPend : BitVec 64 := 0
  /-- BOOT_STK_FAIL (R87). -/
  stkFail : BitVec 32 := 0
  /-- BOOT_POLICY.BACKOFF_MS (R87). -/
  backoffMs : Nat := 2000
  /-- BOOT_POLICY.BIV_IDLE_MS (R87). -/
  bivIdleMs : Nat := 60000
  /-- BOOT_POLICY.BIV_AUTO (R87). -/
  bivAuto : Bool := false
  /-- BOOT_UNREACH_DROP.COUNT (R60 R87). -/
  unreachDrop : Nat := 0
  /-- BOOT_BIV.WAKE_SRC (R87 R92). -/
  wakeSrc : Nat := 0
  /-- BOOT_BIV.ENTRIES (R87). -/
  bivEntries : Nat := 0
  /-- T0 of the running incarnation (R48). -/
  t0 : Nat := 0
  /-- End of step 3 (R56). -/
  step3End : Nat := 0
  /-- Step 3 has finished in this incarnation (R50 R51). -/
  step3Done : Bool := false
  /-- Step 4 has finished (R56). -/
  step4Done : Bool := false
  /-- Time of POOL_OPEN (R547). -/
  openAt : Nat := 0
  /-- When step 4 finishes (R56). -/
  stkDue : Nat := 0
  /-- The leave in progress (R80). -/
  leave : Option Leave := none
  /-- BOOT_IMG_INFO.KEY_IDX (R121). -/
  imgKeyIdx : Nat := 0
  /-- BOOT_IMG_INFO.FORMAT_VER (R121). -/
  imgFmtVer : Nat := 0
  /-- BOOT_IMG_INFO.SVN (R121). -/
  imgSvn : Nat := 0
  /-- BOOT_IMG_ID (R121). -/
  imgId : BitVec 64 := 0
  /-- BOOT_IMG_DIGEST0 to 5 (R103 R121). -/
  imgDigest : List Byte := []
  /-- FLAGS.RAISE_SVN of the chosen image (R100 R120). -/
  raiseSvn : Bool := false
  /-- BOOT_IMG_ADJ.CLAMPED (R108 R121). -/
  adjClamped : Nat := 0
  /-- BOOT_IMG_ADJ.DEFAULTED (R108 R121). -/
  adjDefaulted : Nat := 0
  /-- BOOT_IMG_ADJ.DROPPED (R108 R121). -/
  adjDropped : Nat := 0
  /-- BOOT_IMG_FIRST_ADJ (R121 R678). -/
  firstAdj : BitVec 64 := 0
  /-- BOOT_STAGE.STATE (R115 R121). -/
  stage : StageState := .idle
  /-- BOOT_STAGE.TARGET (R114 R121). -/
  stageTarget : SlotName := .noSlot
  /-- BOOT_STAGE.REASON (R115 R121). -/
  stageReason : Nat := 0
  /-- BOOT_STAGE.WRITTEN (R121). -/
  stageWritten : Nat := 0
  /-- End of the previous staging write (R115). -/
  stageEnd : Nat := 0
  /-- The staging session (R117). -/
  stageSess : Option Nat := none
deriving DecidableEq, Repr

/-- One PORT_MAP entry (03 R110). -/
structure PortCfg where
  /-- NBR_NODE (R110). -/
  nbrNode : Nat := 0
  /-- NBR_PORT (R110). -/
  nbrPort : Nat := 0
  /-- MAPPED (R110). -/
  mapped : Bool := false
  /-- MAX_WIDTH (R110). -/
  maxWidth : Nat := 0
  /-- VERIFY (R110). -/
  verify : Bool := false
deriving DecidableEq, Repr

/-- One TENANT_SLOTS entry with its effective limits (03 R110). -/
structure TenantCfg where
  /-- TID (R110). -/
  tid : Nat := 0
  /-- FLAGS.ENABLED (R110). -/
  enabled : Bool := false
  /-- Effective SCHED_MODE is PARTITIONED (R110 R502). -/
  partitioned : Bool := false
  /-- FLAGS.CE_REPORT (R110). -/
  ceReport : Bool := false
  /-- SERVICE_LEVEL (R110). -/
  level : Nat := 0
  /-- MAX_MEM_GIB (R110 R124). -/
  maxMemGib : Nat := 0
  /-- MAX_WINDOWS (R110 R124). -/
  maxWindows : Nat := 0
  /-- MAX_CONTEXTS (R110 R124). -/
  maxContexts : Nat := 0
  /-- MAX_KV (R110). -/
  maxKv : Nat := 0
  /-- MAX_WS (R110). -/
  maxWs : Nat := 0
  /-- MAX_COH_GIB (R110 R124). -/
  maxCohGib : Nat := 0
  /-- MAX_ANCHORS (R110 R124). -/
  maxAnchors : Nat := 0
deriving DecidableEq, Repr

/-- One TENANT_HOSTS entry (03 R110). -/
structure HostRange where
  /-- TID (R110). -/
  tid : Nat := 0
  /-- FIRST_NODE (R110). -/
  first : Nat := 0
  /-- NODES (R110). -/
  nodes : Nat := 0
deriving DecidableEq, Repr

/-- Shaper values (03 R110; 12 R499). -/
structure ShpCfg where
  /-- RATE_MBPS (R110). -/
  rate : Nat := 200000
  /-- BURST_KIB (R110). -/
  burst : Nat := 4096
  /-- OVERHEAD_B (R110). -/
  overhead : Nat := 0
deriving DecidableEq, Repr

/-- One MGMT_TRUST entry (03 R110). -/
structure TrustCfg where
  /-- ROLE (R110). -/
  role : MgmtRole := .auditor
  /-- CERT (R110). -/
  cert : List Byte := []
deriving DecidableEq, Repr

/-- One MGMT_NET entry (03 R110, R112). -/
structure NetCfg where
  /-- FAMILY (R110). -/
  family : Nat := 0
  /-- PREFIX (R110). -/
  pfx : Nat := 0
  /-- VLAN (R110). -/
  vlan : Nat := 0
  /-- ADDR (R110). -/
  addr : List Byte := []
  /-- GATEWAY (R110). -/
  gateway : List Byte := []
deriving DecidableEq, Repr

/-- One PATCH_TABLE entry (03 R110, R113). -/
structure PatchEntry where
  /-- TARGET (R110). -/
  target : Nat := 0
  /-- WORDS (R110). -/
  words : Nat := 0
  /-- DATA (R110). -/
  data : List Byte := []
deriving DecidableEq, Repr

/-- Effective values of the Salven image (03 R98, R110); its defaults are those of absent sections. -/
structure Img where
  /-- NODE_BASE (R110). -/
  nodeBase : Nat := 0
  /-- CLUSTER_ID (R110). -/
  clusterId : BitVec 32 := 0
  /-- MODULE_NAME (R110). -/
  moduleName : List Byte := []
  /-- PORT_MAP (R110). -/
  ports : List PortCfg := []
  /-- TENANT_SLOTS entries kept (R110). -/
  tenants : List TenantCfg := []
  /-- TENANT_HOSTS entries kept (R110). -/
  hosts : List HostRange := []
  /-- SERVICE_MAP QUEUE per level (R110). -/
  svcQueue : List Nat := [0,1,2,3,4,5,6,7]
  /-- SERVICE_MAP WEIGHT per level (R110). -/
  svcWeight : List Nat := [64,64,64,64,64,64,64,64]
  /-- SHAPER default record (R110). -/
  shpDefault : ShpCfg := {}
  /-- SHAPER override records by TID (R110). -/
  shpOver : List (Nat × ShpCfg) := []
  /-- Effective POWER_CAP_W (R110 R628). -/
  powerCapW : Nat := 3300
  /-- IIR_SHIFT per class (R110 R611). -/
  iirShift : List Nat := [1,1,1,1,1,1,1,1]
  /-- CE_POLICY.MODE is BUCKET (R110 R534). -/
  ceBucket : Bool := false
  /-- CE_POLICY.LEAK_PER_S (R110 R547). -/
  leakPerS : Nat := 0
  /-- CE_POLICY.DEPTH (R110 R547). -/
  bucketDepth : Nat := 0
  /-- MIRROR_PEERS kept (R110). -/
  mirrorPeers : List Nat := []
  /-- MGMT_TRUST kept (R110). -/
  trust : List TrustCfg := []
  /-- MGMT_NET (R110). -/
  net : List NetCfg := []
  /-- PATCH_TABLE (R110). -/
  patches : List PatchEntry := []
  /-- The PATCH_TABLE section as stored (R578). -/
  patchSection : List Byte := []
  /-- LEASE_MS (R110). -/
  leaseMs : Nat := 10
  /-- E2E_RTO_US (R110 R489). -/
  rtoUs : Nat := 200
  /-- AGE_NS (R110 R515). -/
  ageNs : Nat := 4000
  /-- DEADLOCK_US (R110). -/
  deadlockUs : Nat := 1000
deriving DecidableEq, Repr

/-- Clock islands (01 R37 to R43). -/
structure Isl where
  /-- GLB_ISL_PORT_LOCK (R40). -/
  portLock : BitVec 64 := 0
  /-- GLB_ISL_STK_LOCK.BASE_LOCK (R40). -/
  baseLock : BitVec 32 := 0
  /-- GLB_ISL_STK_LOCK.SIF_LOCK (R40). -/
  sifLock : BitVec 32 := 0
  /-- GLB_ISL_MISC_LOCK (R40). -/
  miscLock : BitVec 12 := 0
  /-- GLB_ISL_LOL_EVT.COUNT (R40 R41). -/
  lolCount : Nat := 0
  /-- GLB_ISL_LOL_EVT.LAST (R40 R41). -/
  lolLast : Nat := 0
  /-- Belay runs (R38 R45). -/
  belayOn : Bool := false
  /-- The controller core still receives Belay heartbeats (R38). -/
  coreHb : Bool := true
deriving DecidableEq, Repr

/-- One Cairn record (15 R622). -/
structure CairnRec where
  /-- SEQ (R622). -/
  seq : BitVec 32 := 0
  /-- CLASS (R623). -/
  cls : Nat := 0
  /-- FLAGS (R622). -/
  flags : Nat := 0
  /-- ISLAND (R622). -/
  island : Nat := 64
  /-- KIND (R623). -/
  kind : Nat := 0
  /-- TIME_US (R622). -/
  timeUs : BitVec 64 := 0
  /-- TID (R622). -/
  tid : Nat := 65535
  /-- STATUS (R622). -/
  status : Nat := 0
  /-- COUNT (R622). -/
  count : Nat := 1
  /-- ARG0 (R623). -/
  arg0 : BitVec 64 := 0
  /-- ARG1 (R623). -/
  arg1 : BitVec 64 := 0
  /-- ARG2 (R623). -/
  arg2 : BitVec 64 := 0
deriving DecidableEq, Repr

/-- The fault queue and the retention memory (15 R622 to R626). -/
structure Cairn where
  /-- Queued records, oldest first (R624). -/
  q : List CairnRec := []
  /-- CRN_NEXT_SEQ (R627). -/
  nextSeq : BitVec 32 := 0
  /-- CRN_DROP.DROPPED (R624 R627). -/
  dropped : Nat := 0
  /-- CRN_STATUS.OVERFLOW (R624 R627). -/
  overflow : Bool := false
  /-- CRN_STATUS.CRIT_FULL (R624 R627). -/
  critFull : Bool := false
  /-- CRN_MERGE0 to 3 (R624 R627). -/
  merge : List Nat := [0,0,0,0,0,0,0,0,0,0,0,0,0,0,0,0]
  /-- Time of the latest alert for a full queue (R624). -/
  lastFullAlert : Option Nat := none
  /-- Retained records, newest first (R626 R627). -/
  ret : List CairnRec := []
  /-- BEL_RET_STATUS.FROM_BOOT (R627). -/
  retBoot : BitVec 32 := 0
  /-- Belay has written an EMERG record in this incarnation (R626). -/
  retOwn : Bool := false
deriving DecidableEq, Repr

/-- One entry of the control-crossing write log (15 R600). -/
structure CpLogEntry where
  /-- CTL_SEQ (R600). -/
  ctlSeq : Nat := 0
  /-- The target written (R600). -/
  target : Nat := 0
  /-- The value written (R600). -/
  value : BitVec 64 := 0
  /-- REQ: the control request served (R600). -/
  req : Nat := 0
  /-- SELECTOR (R600). -/
  selector : Bool := false
  /-- DONE (R600). -/
  done : Bool := false
deriving DecidableEq, Repr

/-- One control processor (15 R595 to R609). -/
structure Cp where
  /-- CP_ROLE state (R627). -/
  st : CpState := .reset
  /-- CP_HEALTH FAILS (R627). -/
  fails : Nat := 0
  /-- CP_HEALTH LAST (R609 R627). -/
  last : Nat := 0
  /-- Heartbeat age seen by Belay (R616). -/
  hbAgeUs : Nat := 0
deriving DecidableEq, Repr

/-- The control plane (15 R595 to R608). -/
structure Ctl where
  /-- CP0 (R595). -/
  cp0 : Cp := {}
  /-- CP1 (R595). -/
  cp1 : Cp := {}
  /-- CP_ROLE.LEAD (R596 R627). -/
  lead : Fin 2 := 0
  /-- CP_SWITCH.COUNT (R627). -/
  switches : Nat := 0
  /-- CP_SWITCH.LAST_CODE (R627). -/
  lastCode : Nat := 0
  /-- CP_SWITCH.GAP_US (R627). -/
  gapUs : Nat := 0
  /-- Number of the current control cycle (R598). -/
  cycle : BitVec 32 := 0
  /-- CP_COPY.LAST_CYCLE (R627). -/
  lastCycle : BitVec 32 := 0
  /-- CP_COPY.MISMATCH (R627). -/
  mismatch : Nat := 0
  /-- CP_COPY.LATE (R627). -/
  late : Nat := 0
  /-- CP_PATCH.ENTRIES (R627). -/
  patches : Nat := 0
  /-- Time of the latest delta of Lead (R598 R601). -/
  deltaAt : Nat := 0
  /-- The cycle whose ACK Second still owes (R598). -/
  awaiting : Option (BitVec 32) := none
  /-- CTL_SEQ of the latest control-crossing write (R598 R600). -/
  ctlSeq : Nat := 0
  /-- CTL_SEQ that Second has applied (R598 R603). -/
  applied : Nat := 0
  /-- The write log, newest first (R600). -/
  log : List CpLogEntry := []
  /-- Lead's CHK over its control state (R598). -/
  chk : BitVec 64 := 0
deriving DecidableEq, Repr

/-- One Belay channel (15 R610 to R612). -/
structure BelChan where
  /-- Last raw samples, newest first (R611). -/
  raw : List Int := []
  /-- Filtered value (R611 R627). -/
  filt : Int := 0
  /-- Samples taken (R611). -/
  n : Nat := 0
  /-- Decision level held (R612 R627). -/
  level : BelLevel := .none
  /-- Effective ALERT, none when disabled (ROM default loaded at POWER_ON) (R610 R627). -/
  alert : Option Int := none
  /-- Effective CAP (R610 R627). -/
  cap : Option Int := none
  /-- Effective ORDERLY (R610 R627). -/
  orderly : Option Int := none
  /-- Effective EMERG (R610 R627). -/
  emerg : Option Int := none
  /-- Effective RESTART (R610 R627). -/
  restart : Option Int := none
deriving DecidableEq, Repr

/-- Belay's registers and decisions (15 R610 to R621, R627). -/
structure Bel where
  /-- The channels; an empty list stands for ROM defaults and no sample (R610 R627). -/
  chans : List BelChan := []
  /-- L_POWER (R617 R627). -/
  lPower : Nat := 0
  /-- L_THERMAL (R617 R627). -/
  lThermal : Nat := 0
  /-- Consecutive ms with channel 76 below 0.9 x POWER_CAP_W (R617). -/
  lowMs : Nat := 0
  /-- BEL_EVT.STK_FAIL (R627). -/
  stkFail : Nat := 0
  /-- BEL_EVT.CAP_STEPS (R627). -/
  capSteps : Nat := 0
  /-- BEL_EVT.ALERTS (R627). -/
  alerts : Nat := 0
  /-- BEL_EVT.HANG_DECL (R627). -/
  hangDecl : Nat := 0
  /-- Times of Belay's stack failures (R615). -/
  stkTimes : List Nat := []
  /-- BEL_PWR.CAP_W (R627 R628). -/
  capW : Nat := 3300
  /-- The channel that decided the shutdown in force (R70). -/
  trigger : Option Nat := none
  /-- BELAY_ALERT_N is driven low (R618). -/
  pinLow : Bool := false
deriving DecidableEq, Repr

/-- One open management session (14 R583 to R586). -/
structure Sess where
  /-- Name of the session (R583). -/
  id : Nat := 0
  /-- Management port (R583). -/
  port : Fin 2 := 0
  /-- Role (R584). -/
  role : MgmtRole := .auditor
  /-- Anchored in the factory trust anchor (R52). -/
  factory : Bool := false
  /-- Time of the latest use (R586). -/
  lastUse : Nat := 0
deriving DecidableEq, Repr

/-- Management sessions (14 R583 to R586, R593). -/
structure Mgmt where
  /-- Open sessions (R586). -/
  sess : List Sess := []
  /-- SEC_MGMT.HS_FAIL (R593). -/
  hsFail : Nat := 0
  /-- Handshakes accepted on port 0 in the last second (R586). -/
  hs0 : List Nat := []
  /-- Handshakes accepted on port 1 in the last second (R586). -/
  hs1 : List Nat := []
deriving DecidableEq, Repr

/-- The registers ending in _SEL of one requester (17 R668). -/
structure Sels where
  /-- TNT_SEL (04 R182). -/
  tnt : Nat := 0
  /-- XT_STK_SEL (04 R182). -/
  xtStk : Nat := 0
  /-- COH_REG_SEL (05 R218). -/
  coh : Nat := 0
  /-- VRB_BQ_SEL (06 R260). -/
  bq : Nat := 0
  /-- FE_SEL (07 R308). -/
  fe : Nat := 0
  /-- FE_SYNC_SEL (07 R308). -/
  sync : Nat := 0
  /-- FE_PARK_SEL (07 R308). -/
  park : Nat := 0
  /-- BAR_SEL (07 R308). -/
  bar : Nat := 0
  /-- WS_SEL (09 R403). -/
  ws : Nat := 0
  /-- WS_STK_SEL (09 R403). -/
  wsStk : Nat := 0
  /-- KV_SEL (09 R403). -/
  kv : Nat := 0
  /-- KV_LAYER_SEL (09 R403). -/
  kvLayer : Nat := 0
  /-- LNK_SEL (10 R442). -/
  lnk : Nat := 0
  /-- RTE_GRP_SEL.GROUP (11 R489). -/
  rteGrp : Nat := 0
  /-- RTE_GRP_SEL.COPY (11 R489). -/
  rteCopy : Nat := 0
  /-- E2E_PEER_SEL (11 R489). -/
  e2e : Nat := 0
  /-- QOS_SEL.TID (12 R515). -/
  qosTid : Nat := 0
  /-- QOS_SEL.PORT (12 R515). -/
  qosPort : Nat := 0
  /-- DRC_STK_SEL (12 R515). -/
  drcStk : Nat := 0
  /-- ECC_STK_SEL (13 R547). -/
  eccStk : Nat := 0
  /-- ECC_LOG_SEL (13 R547). -/
  eccLog : Nat := 0
  /-- ECC_LOG_E0, latched (13 R533 R547). -/
  logE0 : BitVec 64 := 0
  /-- ECC_LOG_E1, latched (13 R533 R547). -/
  logE1 : BitVec 64 := 0
  /-- ONX_TKEY_SEL (14 R593). -/
  tkey : Nat := 0
  /-- SEC_PEER_SEL (14 R593). -/
  sec : Nat := 0
  /-- BEL_CH_SEL (15 R627). -/
  belCh : Nat := 0
  /-- BEL_RET_SEL (15 R627). -/
  belRet : Nat := 0
deriving DecidableEq, Repr

/-- Global registers (17 R672). -/
structure Glb where
  /-- GLB_ACC_ERR.MGMT_DENIED (R672). -/
  mgmtDenied : Nat := 0
  /-- GLB_ACC_ERR.TNT_DENIED (R672). -/
  tntDenied : Nat := 0
  /-- GLB_SCRATCH (R672). -/
  scratch : BitVec 64 := 0
  /-- GLB_NODE.NODE: the node ID formed at step 2 (R46 R672). -/
  node : Nat := 0
  /-- GLB_SERIAL (R672). -/
  serial : BitVec 64 := 0
deriving DecidableEq, Repr

/-- One extent-table entry (04 R132). -/
structure Extent where
  /-- BASE_2M (R132). -/
  base : Nat := 0
  /-- STACK (R132). -/
  stack : Nat := 0
  /-- KIND and ANCHOR_IDX: the anchor of an anchor extent (R132). -/
  anchor : Option Nat := none
  /-- LOST (R132). -/
  lost : Bool := false
  /-- MIGRATING (R132). -/
  migrating : Bool := false
  /-- START_2M (R132). -/
  start : Nat := 0
  /-- LEN_2M (R132). -/
  len : Nat := 0
  /-- NEW_BASE_2M (R132). -/
  newBase : Nat := 0
  /-- NEW_STACK (R132). -/
  newStack : Nat := 0
  /-- COPY_PTR (R132). -/
  copyPtr : Nat := 0
  /-- Entry marked bad by an uncorrectable SRAM byte (13 R527). -/
  bad : Bool := false
deriving DecidableEq, Repr

/-- One sharer slot of a coherent region (05 R188, R189, R205). -/
structure Slot where
  /-- Slot number (R189). -/
  k : Nat := 0
  /-- The host attached (R188). -/
  node : Nat := 0
  /-- DEAD, being swept (R205). -/
  dead : Bool := false
  /-- Lease deadline (R201). -/
  deadline : Nat := 0
  /-- The host's window handle for the region (R236). -/
  win : Nat := 0
  /-- Lines made LM since the end of its lease (R206). -/
  lmMade : Nat := 0
deriving DecidableEq, Repr

/-- One grant entry (04 R133). -/
structure Grant where
  /-- TID (R133). -/
  tid : Nat := 0
  /-- FIRST_NODE (R133). -/
  first : Nat := 0
  /-- NODES; 0 is an unused entry (R133). -/
  nodes : Nat := 0
  /-- R, W, A (R133). -/
  rights : BitVec 3 := 0
deriving DecidableEq, Repr

/-- One region-table entry (04 R131). -/
structure Region where
  /-- Region index (R129). -/
  idx : Nat := 0
  /-- MODE (R131). -/
  mode : RegionMode := .priv
  /-- STATE (R131). -/
  st : RegionState := .active
  /-- OWNER_TID (R131). -/
  owner : Nat := 0
  /-- XT_BASE (R131). -/
  xtBase : Nat := 0
  /-- Its extents; their number is XT_COUNT (R131 R132). -/
  exts : List Extent := []
  /-- Interleaved by R138 rather than linear (R144). -/
  inter : Bool := false
  /-- ILV (R131). -/
  ilv : Nat := 0
  /-- SIZE_2M (R131). -/
  size : Nat := 0
  /-- PEER (R131). -/
  peer : Nat := 0
  /-- SHADOW_NODE: the module at the other end of the mirror (R131). -/
  shadowNode : Nat := 0
  /-- Region index at the other end of the mirror (R153 R676). -/
  otherIdx : Nat := 0
  /-- The mirror binding stands (R153). -/
  bound : Bool := false
  /-- This end is the peer of the mirror (R153). -/
  isShadow : Bool := false
  /-- Sharer slots in use (05 R189). -/
  slots : List Slot := []
  /-- READ_MOSTLY ranges, first line and number of lines (05 R200). -/
  readMostly : List (Nat × Nat) := []
  /-- Place in core-merge order at which its revocation began; earlier requests complete normally (R171). -/
  revOrd : Nat := 0
deriving DecidableEq, Repr

/-- One window-table entry (04 R130). -/
structure Window where
  /-- Window index (R129). -/
  idx : Nat := 0
  /-- GEN (R130). -/
  gen : Nat := 0
  /-- STATE (R130). -/
  revoking : Bool := false
  /-- OWNER_TID (R130). -/
  owner : Nat := 0
  /-- REGION (R130). -/
  region : Nat := 0
  /-- VA_BASE, VA[63:21] (R130). -/
  vaBase : Nat := 0
  /-- LEN_2M (R130). -/
  len : Nat := 0
  /-- REG_OFS_2M (R130). -/
  regOfs : Nat := 0
  /-- Grant slots 0 to 7; the used ones are GRANTS (R130 R133). -/
  grants : List (Option Grant) := []
  /-- The peer's window handle of a mirrored window (R154). -/
  peerWin : Nat := 0
  /-- Place in core-merge order at which its revocation began; earlier requests complete normally (R171). -/
  revOrd : Nat := 0
  /-- Grants revoked, each with its place in core-merge order, while an earlier request is open (R172). -/
  gone : List (Grant × Nat) := []
  /-- Entry marked bad by an uncorrectable SRAM byte (13 R527). -/
  bad : Bool := false
deriving DecidableEq, Repr

/-- One anchor-table entry (04 R129, R160). -/
structure Anchor where
  /-- ANCHOR_IDX (R129). -/
  idx : Nat := 0
  /-- The tenant lent to (R160). -/
  tid : Nat := 0
  /-- The lender (R160). -/
  lender : Nat := 0
  /-- RWIN (R160). -/
  rwin : Nat := 0
  /-- LEN_2M (R160). -/
  len : Nat := 0
  /-- State (R160 R164). -/
  st : AnchorState := .lent
  /-- The region it belongs to (R146). -/
  region : Option Nat := none
  /-- Place in core-merge order at which its reclaim began; earlier requests complete normally (R165). -/
  revOrd : Nat := 0
deriving DecidableEq, Repr

/-- One 2 MiB local shadow unit of an anchor (04 R167 to R169). -/
structure Shadow where
  /-- ANCHOR_IDX shadowed (R167). -/
  anchor : Nat := 0
  /-- Unit within the anchor (R167). -/
  unit : Nat := 0
  /-- Stack that holds it (R167). -/
  stack : Nat := 0
  /-- Its unit in that stack (R167). -/
  base : Nat := 0
  /-- Pinned by ADVISE PIN (R167). -/
  pinned : Bool := false
deriving DecidableEq, Repr

/-- Generation and hold of an index that has been used (04 R149; 06 R238; 07 R278; 09 R362). -/
structure GenRec where
  /-- 0 window, 1 queue, 2 plan, 3 barrier, 4 weight set, 5 KV object (R149). -/
  tab : Nat := 0
  /-- Index (R149). -/
  idx : Nat := 0
  /-- Latest generation given out (R130). -/
  gen : Nat := 0
  /-- When it was freed, none while in use (R149). -/
  freed : Option Nat := none
deriving DecidableEq, Repr

/-- A revocation sequence in progress (04 R171). -/
structure Rev where
  /-- 1 WINDOW, 2 REGION, 3 TENANT, 4 ANCHOR (R251). -/
  kind : Nat := 0
  /-- Window handle, region index, TID or anchor index (R171). -/
  id : Nat := 0
  /-- The issuing node (R171). -/
  node : Option Nat := none
  /-- The issuing management session (R171). -/
  sess : Option Nat := none
  /-- Arrival of the REVOKE (R171). -/
  since : Nat := 0
  /-- Step reached (R171). -/
  phase : RevPhase := .drain
  /-- (region, slot) pairs still to answer in step 4 (05 R217). -/
  slots : List (Nat × Nat) := []
  /-- (window handle, issuer) of window sequences taken over (R173). -/
  taken : List (Nat × Nat) := []
deriving DecidableEq, Repr

/-- A 64 KiB page frame of an object region (09 R358, R384). -/
structure Frame where
  /-- Stack (R358). -/
  stack : Nat := 0
  /-- Stack offset (R358). -/
  ofs : Nat := 0
  /-- Index of the object that created the page (R391). -/
  maker : Nat := 0
deriving DecidableEq, Repr

/-- Translation tables and pool memory bookkeeping (04 R123 to R184). -/
structure Pool where
  /-- Region table (R129). -/
  regions : List Region := []
  /-- Window table with its grant table (R129). -/
  windows : List Window := []
  /-- Anchor table (R129). -/
  anchors : List Anchor := []
  /-- Shadow units, oldest first (R167). -/
  shadows : List Shadow := []
  /-- Generations of the indices used (R130 R149). -/
  gens : List GenRec := []
  /-- Revocations in progress (R171). -/
  revs : List Rev := []
  /-- Units (stack, unit) withheld until module reset (13 R527). -/
  withheld : List (Nat × Nat) := []
  /-- The stacks are committed to the pool tables (POOL_OPEN) (R183). -/
  tables : Bool := false
  /-- WIN_REVOKE_ABORT.COUNT (R182). -/
  revokeAbort : Nat := 0
  /-- ANC_EVT.LOSSES (R182). -/
  ancLosses : Nat := 0
  /-- ANC_EVT.RECLAIMS (R182). -/
  ancReclaims : Nat := 0
  /-- ANC_EVT.RENEW_FAIL (R182). -/
  ancRenewFail : Nat := 0
  /-- (TAG, anchor) of the messages to lenders not yet answered (R163). -/
  ancTags : List (Nat × Nat) := []
  /-- Time of the latest anchor renewal (R162). -/
  lastRenew : Nat := 0
  /-- (TAG, peer node) of the MIRROR_BIND and MIRROR_WRITE messages not yet answered (R155). -/
  mirTags : List (Nat × Nat) := []
  /-- (peer node, time) of the latest mirror heartbeat sent (R157). -/
  mirrorSent : List (Nat × Nat) := []
  /-- (peer node, time) of the latest mirror heartbeat received (R157). -/
  mirrorSeen : List (Nat × Nat) := []
deriving DecidableEq, Repr

/-- A line in a stack's write queue (12 R510). -/
structure WqEnt where
  /-- Line (PA / 128) (12 R510). -/
  line : Nat := 0
  /-- Class: 0 SCHED, 1 REALTIME, 2 NORMAL, 3 BULK (12 R506). -/
  cls : Nat := 2
  /-- Since when it has its class (12 R508). -/
  since : Nat := 0
deriving DecidableEq, Repr

/-- One stack with its base die and die-to-die link (01; 04 R177; 12; 13). -/
structure Stk where
  /-- XT_STK_STATE.STATE (04 R182). -/
  st : StackState := .inService
  /-- The position holds a stack (00 R2). -/
  fitted : Bool := true
  /-- XT_STK_STATE.MIGRATED (04 R182). -/
  migrated : Nat := 0
  /-- Die-to-die modules in service (01 R19). -/
  d2d : BitVec 4 := 15
  /-- ECC_STK_CNT.OVF (13 R547). -/
  ovf : Nat := 0
  /-- ECC_STK_CNT.UE_LINES (13 R547). -/
  ueLines : Nat := 0
  /-- ECC_STK_CNT.CE_LINES (13 R547). -/
  ceLines : Nat := 0
  /-- Poison read count (13 R519). -/
  poisonReads : Nat := 0
  /-- CE bucket level, in thousandths (13 R534). -/
  bucket : Nat := 0
  /-- Time of the latest overflow record (13 R534). -/
  lastOvf : Option Nat := none
  /-- ECC_STK_FLAGS (13 R547). -/
  flags : BitVec 5 := 0
  /-- Time of the latest hardware set of ECC_STK_FLAGS, and the bits set then (13 R548 17 R669). -/
  flagsAt : Nat × BitVec 5 := (0, 0)
  /-- (pseudo-channel, lane) in erasure mode (13 R521 R547). -/
  erase : List (Nat × Nat) := []
  /-- (pseudo-channel, lane, time) of corrected lines of the last 10 ms (13 R521). -/
  laneHits : List (Nat × Nat × Nat) := []
  /-- Page remap table: (page, spare) (13 R538). -/
  remap : List (Nat × Nat) := []
  /-- Spare pages used (13 R538 R547). -/
  spareUsed : Nat := 0
  /-- Copies in progress: (page, spare, lines copied) (13 R539). -/
  remapping : List (Nat × Nat × Nat) := []
  /-- Channel now pausing (12 R512 R515). -/
  trainCh : Option Nat := none
  /-- (channel, successive failed retrainings) (13 R528). -/
  chFails : List (Nat × Nat) := []
  /-- (channel, time) of the latest retraining (12 R512). -/
  lastTrain : List (Nat × Nat) := []
  /-- Self-refresh (12 R513 R515). -/
  selfRef : Bool := false
  /-- Time of the latest access (12 R513). -/
  lastUse : Nat := 0
  /-- The write queue, oldest first (12 R510). -/
  wq : List WqEnt := []
  /-- Column accesses of a pseudo-channel since its last BULK one, at most 6 (12 R507). -/
  cols : List (Nat × Nat) := []
  /-- Bytes written in the current 1 ms (12 R515). -/
  wrBytes : Nat := 0
  /-- Bytes read in the current 1 ms (12 R515). -/
  rdBytes : Nat := 0
  /-- DRC_BW.WR_MBPS (12 R515). -/
  wrMbps : Nat := 0
  /-- DRC_BW.RD_MBPS (12 R515). -/
  rdMbps : Nat := 0
  /-- DRC_EVT.PROMOTED (12 R515). -/
  promoted : Nat := 0
  /-- DRC_EVT.RAW_WAIT (12 R515). -/
  rawWait : Nat := 0
  /-- DRC_EVT.SR_ENTRIES (12 R515). -/
  srEntries : Nat := 0
  /-- (pseudo-channel, bank) of the latest refresh (12 R511). -/
  refreshed : List (Nat × Nat) := []
  /-- Spare engine 0 (07 R308). -/
  spare0 : SpareState := .free
  /-- Spare engine 1 (07 R308). -/
  spare1 : SpareState := .free
deriving DecidableEq, Repr

/-- An admitted request that has not completed (06 R228). -/
structure Waiting where
  /-- Effective opcode (06 R225). -/
  op : Nat := 0
  /-- The request (06 R222). -/
  req : Req := {}
  /-- What it waits for (06 R228). -/
  why : Wait := .inbox
  /-- Its admission (06 R228). -/
  since : Nat := 0
  /-- It came under a provisional state (11 R465). -/
  prov : Bool := false
  /-- Its place in core-merge order (06 R228). -/
  ord : Nat := 0
  /-- A lender's memory that it reads has been written since its reads were sent (04 R163). -/
  dirty : Bool := false
  /-- Lenders' data by place, of a verb that reads a bundle, a source or vectors (04 R163). -/
  got : List (Nat × List Byte) := []
  /-- Region, offset and length of the output of a WS_GEMV or KV_ATTEND that has begun, and RESULT1 of its failure (09 R379). -/
  outAt : Option (Nat × Nat × Nat × Nat) := none
  /-- At its admission a descriptor or a run could still write to the unsealed region it names: it completes with BUSY (09 R357). -/
  sealLate : Bool := false
  /-- (region, line) that a verb with a parameter record waits for (05 R194). -/
  lines : List (Nat × Nat) := []
deriving DecidableEq, Repr

/-- A tenant's figures of the current 1 ms interval (06 R252). -/
structure LoadRec where
  /-- TID (R252). -/
  tid : Nat := 0
  /-- LOAD (R252). -/
  load : Nat := 0
  /-- CTX as VRB_TNT shows it (R260). -/
  ctx : Nat := 0
  /-- CE events as ECC_TNT_CE shows them (13 R535). -/
  ce : Nat := 0
deriving DecidableEq, Repr

/-- Requests, contexts and verb events (06). -/
structure Vrb where
  /-- Admitted requests not yet completed, in core-merge order (R228). -/
  waiting : List Waiting := []
  /-- VRB_CTX.PEAK (R260). -/
  peak : Nat := 0
  /-- Figures of the current interval per tenant (R252). -/
  load : List LoadRec := []
  /-- VRB_EVT.BUSY_CTX (R260). -/
  busyCtx : Nat := 0
  /-- VRB_EVT.ABSENT (R260). -/
  absent : Nat := 0
  /-- VRB_EVT.DENIED (R260). -/
  denied : Nat := 0
  /-- VRB_EVT.EVT_DROP (R260). -/
  evtDrop : Nat := 0
  /-- Control requests waiting in a switchover (15 R605). -/
  ctlQueue : Nat := 0
  /-- Place in core-merge order of the next admitted request (06 R228). -/
  nextOrd : Nat := 0
  /-- Time of the latest admission of a verb (R74). -/
  lastAdmit : Nat := 0
deriving DecidableEq, Repr

/-- A bulk descriptor as submitted (06 R245). -/
structure Desc where
  /-- OP (R245). -/
  op : Nat := 0
  /-- FENCE (R245). -/
  fence : Bool := false
  /-- CPL (R245). -/
  cpl : Bool := false
  /-- FUNC (R245). -/
  func : Nat := 0
  /-- ELEM (R245). -/
  elem : Nat := 0
  /-- TAG (R245). -/
  tag : BitVec 32 := 0
  /-- DST_WIN (R245). -/
  dstWin : Nat := 0
  /-- SRC_WIN (R245). -/
  srcWin : Nat := 0
  /-- SRC2_WIN (R245). -/
  src2Win : Nat := 0
  /-- DST_VA (R245). -/
  dstVa : BitVec 64 := 0
  /-- SRC_VA (R245). -/
  srcVa : BitVec 64 := 0
  /-- SRC2_VA (R245). -/
  src2Va : BitVec 64 := 0
  /-- LEN, clamped (R245). -/
  len : Nat := 0
  /-- PATTERN (R245). -/
  pattern : BitVec 64 := 0
deriving DecidableEq, Repr

/-- A queued descriptor (06 R239 to R248). -/
structure DescRec where
  /-- Its counter value (R239). -/
  n : Nat := 0
  /-- The descriptor (R245). -/
  d : Desc := {}
  /-- The submitting node (R241). -/
  node : Nat := 0
  /-- Progress (R244). -/
  phase : DescPhase := .queued
  /-- Status code at completion (R248). -/
  status : Status := .ok
  /-- BYTES_DONE (R248). -/
  bytes : Nat := 0
  /-- RESULT (R246). -/
  result : BitVec 64 := 0
  /-- Lenders' reads not yet answered: (TAG, place) (04 R163). -/
  tags : List (Nat × Nat) := []
  /-- Lenders' data by place (04 R163). -/
  got : List (Nat × List Byte) := []
  /-- TAGs of writes at lenders and mirror peers not yet answered, each with its place (04 R155). -/
  wr : List (Nat × Nat) := []
  /-- Its place in core-merge order, that of its submission (05 R194). -/
  ord : Nat := 0
  /-- (region, line) that it waits for (05 R194). -/
  lines : List (Nat × Nat) := []
deriving DecidableEq, Repr

/-- One bulk queue (06 R238, R239). -/
structure Bq where
  /-- INDEX (R238). -/
  idx : Nat := 0
  /-- GEN (R238). -/
  gen : Nat := 0
  /-- Owning tenant (R238). -/
  owner : Nat := 0
  /-- CQ_NODE (R238). -/
  cqNode : Nat := 0
  /-- DEPTH (R238). -/
  depth : Nat := 16
  /-- TAIL (R239). -/
  tail : Nat := 0
  /-- RUN (R239). -/
  run : Nat := 0
  /-- HEAD (R239). -/
  head : Nat := 0
  /-- Descriptors from HEAD to TAIL (R239). -/
  descs : List DescRec := []
  /-- The BQ_DESTROY waiting for the last record (R249). -/
  destroy : Option Waiting := none
deriving DecidableEq, Repr

/-- Bulk queues (06 R238 to R250). -/
structure Bulk where
  /-- Queues (R238). -/
  qs : List Bq := []
deriving DecidableEq, Repr

/-- One directory entry (05 R192). -/
structure DirEnt where
  /-- Region of the line (R192). -/
  region : Nat := 0
  /-- Line within the region (R192). -/
  line : Nat := 0
  /-- SHARERS (R192). -/
  sharers : BitVec 64 := 0
  /-- STATE (R192). -/
  st : DirState := .inv
  /-- OWNER (R192). -/
  owner : Nat := 0
  /-- PEND (R192). -/
  pend : Nat := 0
  /-- WB_WAIT (R192). -/
  wbWait : Bool := false
  /-- The recall in progress goes to S rather than to I (R196). -/
  toShared : Bool := false
deriving DecidableEq, Repr

/-- An INVAL, RECALL or COH_REVOKE not yet answered (05 R196, R217; 06 R236). -/
structure CohMsg where
  /-- TAG assigned by the module (R236). -/
  tag : Nat := 0
  /-- 0 INVAL, 1 RECALL, 2 COH_REVOKE (R236). -/
  kind : Nat := 0
  /-- Region (R236). -/
  region : Nat := 0
  /-- Line within the region (R236). -/
  line : Nat := 0
  /-- Sharer slot asked (R236). -/
  slot : Nat := 0
  /-- Host asked (R236). -/
  node : Nat := 0
  /-- A WRITEBACK has ended the recall: its acknowledgement is accepted without effect (R196). -/
  done : Bool := false
deriving DecidableEq, Repr

/-- The coherence directory (05). -/
structure Coh where
  /-- Entries not in I (R192). -/
  dir : List DirEnt := []
  /-- Messages not yet answered (R236). -/
  msgs : List CohMsg := []
  /-- Next TAG of a module-originated message (R236). -/
  nextTag : Nat := 0
  /-- COH_EVT.INVALS (R218). -/
  invals : Nat := 0
  /-- COH_EVT.RECALLS (R218). -/
  recalls : Nat := 0
  /-- COH_EVT.BUSY_FULL (R218). -/
  busyFull : Nat := 0
  /-- COH_EVT.LEASE_END (R218). -/
  leaseEnd : Nat := 0
  /-- Directory lookups of the current 1 ms (R218). -/
  lookups : Nat := 0
  /-- Directory-cache misses of the current 1 ms (R218). -/
  misses : Nat := 0
  /-- COH_DIRC.MISS_PPM (R218). -/
  missPpm : Nat := 0
  /-- Lines in the directory cache, newest first (R192). -/
  cache : List (Nat × Nat) := []
deriving DecidableEq, Repr

/-- An operation descriptor of a plan (07 R274). -/
structure OpD where
  /-- OPC (R274). -/
  opc : Nat := 0
  /-- WAIT_EN (R274). -/
  waitEn : Bool := false
  /-- SIGNAL_EN (R274). -/
  sigEn : Bool := false
  /-- WAIT_SLOT (R274). -/
  waitSlot : Nat := 0
  /-- WAIT_CNT (R274). -/
  waitCnt : Nat := 1
  /-- SIG_ENG (R274). -/
  sigEng : Nat := 0
  /-- SIG_SLOT (R274). -/
  sigSlot : Nat := 0
  /-- FMT (R274). -/
  fmt : Nat := 0
  /-- SRC (R274). -/
  src : BitVec 64 := 0
  /-- DST (R274). -/
  dst : BitVec 64 := 0
  /-- PARAM (R274). -/
  param : BitVec 64 := 0
deriving DecidableEq, Repr

/-- An operation in execution on a port of an engine (07 R287). -/
structure Flight where
  /-- Its index within the stream (R287). -/
  i : Nat := 0
  /-- Start of the operation, for the limit of 100 ms (R299). -/
  since : Nat := 0
  /-- Its place in core-merge order, of an ATTEND (09 R389). -/
  ord : Nat := 0
  /-- Lenders' reads of the operation not yet answered: (TAG, place) (04 R163). -/
  tags : List (Nat × Nat) := []
  /-- Lenders' data of the operation by place (04 R163). -/
  got : List (Nat × List Byte) := []
  /-- TAGs of the operation's writes at lenders and mirror peers not yet answered (04 R163). -/
  wr : List Nat := []
deriving DecidableEq, Repr

/-- One logical facet engine (07 R262, R263). -/
structure Eng where
  /-- Logical number (R263). -/
  n : Nat := 0
  /-- STATE (R308). -/
  st : EngState := .free
  /-- OWNER_TID (R308). -/
  tid : Nat := 0
  /-- PLAN (R308). -/
  plan : Nat := 0
  /-- PHYS (R263 R308). -/
  phys : Nat := 0
  /-- Bank owners (R266 R308). -/
  own : List BankOwner := [.compute,.compute,.compute,.compute]
  /-- Scratch bytes that are not zero, keyed bank x 2^17 + offset (R262). -/
  banks : List (Nat × Byte) := []
  /-- Sync slots, 0 beyond the list (R262 R292). -/
  sync : List Nat := []
  /-- FE_ARITH_FLAGS (08 R353). -/
  aflags : BitVec 8 := 0
  /-- Time of the latest hardware set of FE_ARITH_FLAGS, and the bits set then (08 R354 17 R669). -/
  aflagsAt : Nat × BitVec 8 := (0, 0)
  /-- Tenant last served (R265). -/
  lastTid : Option Nat := none
  /-- Next operation of its stream (R287). -/
  pc : Nat := 0
  /-- Has executed END (R288). -/
  ended : Bool := true
  /-- Inbound queue: (bank, data) (R262 11 R486). -/
  inq : List (Nat × List Byte) := []
  /-- Inbound pointers of the banks (11 R486). -/
  inPtr : List Nat := [0,0,0,0]
  /-- Bytes landed and not yet taken by a RECV (R275). -/
  landed : List Nat := [0,0,0,0]
  /-- Time of the latest self-test of the position that serves (R299 R303). -/
  lastTest : Option Nat := none
  /-- Idle since (R299). -/
  idleSince : Nat := 0
  /-- Uncorrectable scratch bytes of the last hour (R299). -/
  ueTimes : List Nat := []
  /-- Start of the latest substitution (R303). -/
  remapAt : Nat := 0
  /-- The operation in execution on the compute port (R287). -/
  comp : Option Flight := none
  /-- The operation in execution on the mover port (R287). -/
  mov : Option Flight := none
  /-- The park record whose page it faulted on (R300). -/
  park : Option Nat := none
  /-- (time, bank) of the latest BANK_OWN operation (R269). -/
  ownOp : Option (Nat × Nat) := none
  /-- Time of the latest write of FE_BANK_OWN (R269). -/
  ownReg : Option Nat := none
  /-- State to return to after SUBSTITUTING (R303). -/
  saved : EngState := .free
deriving DecidableEq, Repr

/-- A plan's argument declaration (07 R272). -/
structure ArgDecl where
  /-- KIND (R272). -/
  kind : Nat := 0
  /-- LEN (R272). -/
  len : Nat := 0
deriving DecidableEq, Repr

/-- An argument of a running plan (07 R284). -/
structure ArgVal where
  /-- KIND (R284). -/
  kind : Nat := 0
  /-- Window handle, barrier handle or KV handle (R284). -/
  win : Nat := 0
  /-- VA (R284). -/
  va : BitVec 64 := 0
  /-- Declared LEN (R284). -/
  len : Nat := 0
deriving DecidableEq, Repr

/-- A plan run (07 R285 to R291). -/
structure Run where
  /-- Issuer (R284). -/
  node : Nat := 0
  /-- Arguments (R284). -/
  args : List ArgVal := []
  /-- Start (R288). -/
  since : Nat := 0
  /-- Blocks escalated (R288). -/
  esc : Nat := 0
  /-- Some GEMV completed OK_ESCALATED (08 R349). -/
  escAny : Bool := false
  /-- Since when its queues have been blocked without a break, if they are (R297). -/
  progress : Nat := 0
deriving DecidableEq, Repr

/-- A loaded plan (07 R271 to R283). -/
structure Plan where
  /-- INDEX (R278). -/
  idx : Nat := 0
  /-- GEN (R278). -/
  gen : Nat := 0
  /-- Tenant (R278). -/
  tid : Nat := 0
  /-- Node that issued PLAN_LOAD (R305). -/
  node : Nat := 0
  /-- Plan digest (R271). -/
  digest : List Byte := []
  /-- Logical engine of each plan-relative engine (R281). -/
  engs : List Nat := []
  /-- OPS (R272). -/
  ops : List OpD := []
  /-- (FIRST_OP, OP_COUNT) per engine (R272). -/
  streams : List (Nat × Nat) := []
  /-- ARGS (R272). -/
  args : List ArgDecl := []
  /-- SYNC_SCHED: (engine, slot, INIT) (R272). -/
  syncInit : List (Nat × Nat × Nat) := []
  /-- Contexts of the plan's own barriers (R295). -/
  bars : List Nat := []
  /-- WS_REFS (R272). -/
  wsRefs : List (List Byte) := []
  /-- SCRATCH_KIB (R272). -/
  scratchKib : List Nat := [0,0,0,0]
  /-- TC4 slots reserved (R272 11 R480). -/
  tc4 : Nat := 0
  /-- FAULT_ARG (R271). -/
  faultArg : Nat := 255
  /-- Its plan store has read uncorrectable (13 R524). -/
  storeBad : Bool := false
  /-- The run in progress (R285). -/
  run : Option Run := none
deriving DecidableEq, Repr

/-- A barrier context (07 R293). -/
structure Bar where
  /-- INDEX (R293). -/
  idx : Nat := 0
  /-- GEN (R295). -/
  gen : Nat := 0
  /-- Tenant (R295). -/
  tid : Nat := 0
  /-- The plan whose own barrier it is (R295). -/
  plan : Option Nat := none
  /-- Engines of the mask (R293). -/
  mask : List Nat := []
  /-- EXT_COUNT (R293). -/
  ext : Nat := 0
  /-- PHASE (R293). -/
  phase : Nat := 0
  /-- Engines arrived in this phase (R293). -/
  arrived : List Nat := []
  /-- External arrivals (R293). -/
  extArr : Nat := 0
deriving DecidableEq, Repr

/-- A park record (07 R300). -/
structure Park where
  /-- Record index (R301). -/
  idx : Nat := 0
  /-- TID (R308). -/
  tid : Nat := 0
  /-- STACK (R300). -/
  stack : Nat := 0
  /-- PAGE (R300). -/
  page : Nat := 0
  /-- PLAN (R308). -/
  plan : Nat := 0
  /-- MASK (R300). -/
  mask : BitVec 64 := 0
  /-- KIND (R308). -/
  kind : Nat := 1
deriving DecidableEq, Repr

/-- A GEMV waiting for its re-execution (08 R340). -/
structure Reexec where
  /-- Original engine (R340). -/
  eng : Nat := 0
  /-- Physical position that re-executes (R304). -/
  pos : Nat := 0
  /-- RATIO of the first mismatch (R353). -/
  ratio : Int := 0
deriving DecidableEq, Repr

/-- Facet engines, plans, barriers and parks (07; 08 R353). -/
structure Fe where
  /-- Engines whose state is not the initial one (R262). -/
  engs : List Eng := []
  /-- Loaded plans (R278). -/
  plans : List Plan := []
  /-- Barrier contexts in use (R293). -/
  bars : List Bar := []
  /-- Open park records (R301). -/
  parks : List Park := []
  /-- Re-executions in progress (08 R340). -/
  reexec : List Reexec := []
  /-- FE_EVT.BANK_COLL (R308). -/
  bankColl : Nat := 0
  /-- FE_EVT.PARK_FULL (R308). -/
  parkFull : Nat := 0
  /-- FE_EVT.DEADLOCK (R308). -/
  deadlock : Nat := 0
  /-- FE_EVT.QUARANTINE (R308). -/
  quarantine : Nat := 0
  /-- FE_ARITH_EVT.ESCALATED (08 R353). -/
  escalated : Nat := 0
  /-- FE_ARITH_EVT.ABFT_FAIL (08 R353). -/
  abftFail : Nat := 0
  /-- FE_ARITH_EVT.ABFT_RETRY (08 R353). -/
  abftRetry : Nat := 0
  /-- FE_ABFT_LAST (08 R353). -/
  abftLast : BitVec 64 := 0
deriving DecidableEq, Repr

/-- One matrix of a weight set (09 R364). -/
structure Mat where
  /-- ROWS (R364). -/
  rows : Nat := 0
  /-- COLS (R364). -/
  cols : Nat := 0
  /-- TOL_MAX (R364). -/
  tolMax : Nat := 6
deriving DecidableEq, Repr

/-- One resident tile (09 R365, R370, R371). -/
structure Tile where
  /-- Matrix (R365). -/
  mat : Nat := 0
  /-- Row tile number across the set (R370). -/
  g : Nat := 0
  /-- Row tile of its matrix (R365). -/
  rowT : Nat := 0
  /-- Column tile (R365). -/
  colT : Nat := 0
  /-- Rows (R365). -/
  rows : Nat := 0
  /-- Columns (R365). -/
  cols : Nat := 0
  /-- Stack (R370). -/
  stack : Nat := 0
  /-- Stack offset of the main image (R370). -/
  ofs : Nat := 0
  /-- Stack offset of the residual image (R370). -/
  resOfs : Nat := 0
  /-- Home engine of its stack (R370). -/
  home : Nat := 0
  /-- SAT_W (R371). -/
  satW : BitVec 64 := 0
  /-- RES (R371). -/
  res : BitVec 64 := 0
  /-- Checksum vector C (R371 08 R336). -/
  chk : List (BitVec 32) := []
  /-- Checksum vector C' (R371 08 R336). -/
  chk2 : List (BitVec 32) := []
  /-- Its checksum slot or tile record has read uncorrectable (13 R524). -/
  bad : Bool := false
deriving DecidableEq, Repr

/-- One weight set (09 R362 to R373). -/
structure Wset where
  /-- INDEX (R362). -/
  idx : Nat := 0
  /-- GEN (R362). -/
  gen : Nat := 0
  /-- OWNER_TID (R403). -/
  tid : Nat := 0
  /-- STATE (R403). -/
  st : WsState := .loading
  /-- Object region (R368). -/
  region : Nat := 0
  /-- RESIDUAL (R403). -/
  residual : Bool := false
  /-- WFMT (R403). -/
  wfmt : Nat := 0
  /-- LOADS (R403). -/
  loads : Nat := 0
  /-- Matrices (R403). -/
  mats : List Mat := []
  /-- Tiles (R403). -/
  tiles : List Tile := []
  /-- Stack list (R403). -/
  stks : List Nat := []
  /-- Set digest (R367). -/
  digest : List Byte := []
  /-- Nodes whose WS_LOAD LOADS counts (R382). -/
  nodes : List Nat := []
  /-- Tile runs: (stack, offset, bytes) (R358). -/
  runs : List (Nat × Nat × Nat) := []
  /-- Place in core-merge order of the WS_LOAD that a LOADING set belongs to (R373). -/
  loader : Option Nat := none
deriving DecidableEq, Repr

/-- Weight sets (09 R403). -/
structure Ws where
  /-- Set slots in use (R362). -/
  sets : List Wset := []
  /-- WS_EVT.LOST (R403). -/
  lost : Nat := 0
  /-- WS_EVT.POISONED (R403). -/
  poisoned : Nat := 0
  /-- WS_EVT.REFUSED (R403). -/
  refused : Nat := 0
  /-- WS_EVT.DEDUP (R403). -/
  dedup : Nat := 0
deriving DecidableEq, Repr

/-- A page reference of a KV object (09 R384, R390). -/
structure KvPage where
  /-- Layer (R384). -/
  layer : Nat := 0
  /-- KV head (R384). -/
  head : Nat := 0
  /-- Page number in its chain (R385). -/
  p : Nat := 0
  /-- The frame referenced (R386). -/
  frame : Frame := {}
deriving DecidableEq, Repr

/-- One KV object (09 R383 to R392). -/
structure KvObj where
  /-- INDEX (R362). -/
  idx : Nat := 0
  /-- GEN (R362). -/
  gen : Nat := 0
  /-- OWNER_TID (R403). -/
  tid : Nat := 0
  /-- Creating node (R392). -/
  node : Nat := 0
  /-- STATE (R403). -/
  st : KvState := .active
  /-- Object region (R383). -/
  region : Nat := 0
  /-- LAYERS (R383). -/
  layers : Nat := 1
  /-- KV_HEADS (R383). -/
  heads : Nat := 1
  /-- HEAD_DIM in elements (R383). -/
  headDim : Nat := 128
  /-- KFMT is MXFP8 E4M3 (R383). -/
  mx : Bool := false
  /-- MAX_TOKENS (R383). -/
  maxTok : Nat := 0
  /-- IDLE_MS (R383). -/
  idleMs : Nat := 0
  /-- Stack list (R358). -/
  stks : List Nat := []
  /-- LEN per layer (R388). -/
  lens : List Nat := []
  /-- SHARED_LEN (R390 R403). -/
  sharedLen : Nat := 0
  /-- Pages written or shared (R384). -/
  pages : List KvPage := []
  /-- (stack, frames reserved and not drawn) (R386). -/
  resv : List (Nat × Nat) := []
  /-- Time of the latest verb or run that named it (R392). -/
  lastUse : Nat := 0
deriving DecidableEq, Repr

/-- KV objects (09 R403). -/
structure Kv where
  /-- Object slots in use (R362). -/
  objs : List KvObj := []
  /-- KV_EVT.EXPIRED (R403). -/
  expired : Nat := 0
  /-- KV_EVT.LOST (R403). -/
  lost : Nat := 0
  /-- KV_EVT.COW (R403). -/
  cow : Nat := 0
  /-- KV_EVT.IMMUTABLE (R403). -/
  immutable : Nat := 0
deriving DecidableEq, Repr

/-- A PAYLOAD flit in the replay buffer (10 R433). -/
structure TxFlit where
  /-- Sequence number (R410). -/
  seq : Nat := 0
  /-- Header, slots and CRC as sent (R408). -/
  bytes : List Byte := []
deriving DecidableEq, Repr

/-- A packet at a port's egress scheduler (11 R476; 12 R491 to R497). -/
structure EgPkt where
  /-- 0 owner of slots, 1 TC5, 2 TC0 and TC1, 3 transit TC4, 4 weighted group (12 R493). -/
  rank : Nat := 2
  /-- Queue of the weighted group, or order within an owner (12 R495 R503). -/
  queue : Nat := 0
  /-- Class (12 R493). -/
  tc : Nat := 0
  /-- Header and payload slots (12 R497). -/
  slots : Nat := 1
  /-- Arrival port of a transit packet (11 R448). -/
  transit : Option Nat := none
  /-- Arrival of its last flit (11 R452). -/
  arrived : Nat := 0
  /-- The packet of TC0 to TC4 (11 R444). -/
  pkt : Option Pkt := none
  /-- The TC5 packet (R423). -/
  lm : LinkMgmt := {}
  /-- The bytes of a transit packet as they came, with HOPS and CE changed (11 R446). -/
  raw : List Byte := []
  /-- Owner of the slots in which it leaves (12 R492). -/
  owner : Option SlotOwner := none
deriving DecidableEq, Repr

/-- One fabric port's link layer (10). -/
structure LnkPort where
  /-- LNK_STATE.STATE (R414 R442). -/
  st : LinkState := .down
  /-- LNK_STATE.REASON (R441 R442). -/
  reason : Nat := 0
  /-- Entry to the present state (R417 R420). -/
  since : Nat := 0
  /-- Since when signal has been detected on some lane (R414). -/
  signal : Option Nat := none
  /-- Lanes whose marker share has been found (R407 R417). -/
  lock : BitVec 8 := 0
  /-- REQ_WIDTH sent in this attempt (R418). -/
  sentWidth : Nat := 0
  /-- LOS must clear before it trains again (R425). -/
  losNeeded : Bool := false
  /-- LPI_PEER (R442). -/
  lpiPeer : Bool := false
  /-- LPI_TX (R442). -/
  lpiTx : Bool := false
  /-- LANES_USED (R442). -/
  lanesUsed : BitVec 8 := 0
  /-- LANES_GOOD (R442). -/
  lanesGood : BitVec 8 := 0
  /-- WIDTH (R442). -/
  width : Nat := 0
  /-- LNK_NBR.NBR_NODE (R442). -/
  nbrNode : Nat := 0
  /-- LNK_NBR.NBR_PORT (R442). -/
  nbrPort : Nat := 0
  /-- LNK_NBR.KIND (R442). -/
  nbrKind : Nat := 0
  /-- LNK_NBR.INC (R442). -/
  nbrInc : Nat := 0
  /-- LNK_CTL.ADMIN_DOWN (R442). -/
  adminDown : Bool := false
  /-- LNK_CTL.REQ_WIDTH (R442). -/
  reqWidth : Nat := 0
  /-- LNK_TIMING.RTT_NS (R442). -/
  rttNs : Nat := 0
  /-- LNK_TIMING.REPLAY_TO_NS (R442). -/
  replayToNs : Nat := 0
  /-- LNK_ERR.FLAPS (R442). -/
  flaps : Nat := 0
  /-- LNK_ERR.FEC_UNCORR (R442). -/
  fecUncorr : Nat := 0
  /-- LNK_ERR.REPLAYS (R442). -/
  replays : Nat := 0
  /-- LNK_ERR.CRC_ERR (R442). -/
  crcErr : Nat := 0
  /-- LNK_FLAGS (R442). -/
  flags : BitVec 6 := 0
  /-- Time of the latest hardware set of LNK_FLAGS, and the bits set then (R443 17 R669). -/
  flagsAt : Nat × BitVec 6 := (0, 0)
  /-- The peer's credit advertisement, in CRD_SEL order (R437 R442). -/
  crdPeer : List Nat := [0,0,0,0,0,0,0,0,0,0,0,0]
  /-- SENT (R438). -/
  sent : List Nat := [0,0,0,0,0,0,0,0,0,0,0,0]
  /-- RET (R438). -/
  ret : List Nat := [0,0,0,0,0,0,0,0,0,0,0,0]
  /-- Cumulative credit counts of this receiver (R439). -/
  freed : List Nat := [0,0,0,0,0,0,0,0,0,0,0,0]
  /-- Counts last returned to the peer (R439). -/
  freedSent : List Nat := [0,0,0,0,0,0,0,0,0,0,0,0]
  /-- Next counter of the round robin (R439). -/
  crdNext : Nat := 0
  /-- The peer's TRAIN_PARAM has been received (R417). -/
  peerParams : Bool := false
  /-- RTT pairs completed in this attempt (R417). -/
  rttPairs : Nat := 0
  /-- The peer's IDENT has passed its checks (R420). -/
  gotIdent : Bool := false
  /-- The IDENT_ACK for the port's own IDENT has arrived (R420). -/
  gotAck : Bool := false
  /-- NONCE of this entry to VERIFY (R423). -/
  nonce : Nat := 0
  /-- A verification has failed since start (R422). -/
  everVerifyFailed : Bool := false
  /-- Consecutive failures k (R432). -/
  fails : Nat := 0
  /-- End of the training backoff (R432). -/
  backoffUntil : Nat := 0
  /-- Flaps of the last 60 s (R430). -/
  flapTimes : List Nat := []
  /-- End of the hold in force (R430). -/
  holdUntil : Option Nat := none
  /-- (length, end) of the latest hold (R430). -/
  lastHold : Option (Nat × Nat) := none
  /-- Latest HEARTBEAT received (R424). -/
  lastHb : Nat := 0
  /-- Latest HEARTBEAT sent (R424). -/
  lastHbTx : Nat := 0
  /-- Latest burst from an LPI peer (R440). -/
  lastBurst : Nat := 0
  /-- Sequence of the next PAYLOAD flit to send (R410). -/
  txSeq : Nat := 0
  /-- Replay buffer, oldest first (R433). -/
  buf : List TxFlit := []
  /-- Start of the replay timer (R433). -/
  timer : Nat := 0
  /-- Consecutive replays with no advance (R434). -/
  noAdvance : Nat := 0
  /-- Replays of the last 1 ms (R434). -/
  replayTimes : List Nat := []
  /-- Sequence expected next (R410). -/
  rxExp : Nat := 0
  /-- Sequence of the next flit of a replay in progress (R434). -/
  rxReplayFrom : Option Nat := none
  /-- A NAK has been sent and no REPLAY_START has arrived (R434). -/
  nak : Bool := false
  /-- PAYLOAD flits accepted since the last acknowledgement (R435). -/
  unacked : Nat := 0
  /-- Acceptance of the first of them (R435). -/
  firstUnacked : Nat := 0
  /-- Open packets: (class, with 8 added for one demoted to TC2; payload slots left; bytes) (R412). -/
  rxOpen : List (Nat × Nat × List Byte) := []
  /-- (lane, end of exclusion) (R428). -/
  excl : List (Nat × Nat) := []
  /-- LNK_LANE UNCORR (R442). -/
  laneUncorr : List Nat := [0,0,0,0,0,0,0,0]
  /-- LNK_LANE CORR_SYM (R442). -/
  laneCorr : List Nat := [0,0,0,0,0,0,0,0]
  /-- Consecutive 1 ms windows above 42,500 corrected symbols, per lane (R428). -/
  laneBad : List Nat := [0,0,0,0,0,0,0,0]
  /-- Start of the current 1 µs window (11 R482). -/
  tc4Win : Nat := 0
  /-- TC4 slots received in the window (11 R482). -/
  tc4Cnt : Nat := 0
  /-- Packets at egress, in arrival order (11 R476 12 R493). -/
  eg : List EgPkt := []
  /-- Slots of packets that have started, not yet in a flit: (class, header, bytes) (10 R412 R433). -/
  txSlots : List (Nat × Bool × List Byte) := []
  /-- Next slot position of the TC4 slot table (12 R491). -/
  slotPos : Nat := 0
  /-- Frame counter of the next marker block (R407). -/
  frame : Nat := 0
  /-- Flit times since the frame began; 0 where a marker block is next (R407). -/
  frameAt : Nat := 0
  /-- Tag T of the head packet of each weighted queue that is not empty (12 R497). -/
  wtag : List (Nat × Nat) := []
  /-- Virtual time V (12 R497 R515). -/
  vt : Nat := 0
deriving DecidableEq, Repr

/-- A packet in a port's ingress buffer, whole (10 R412, R439). -/
structure InPkt where
  /-- Arrival port (R412). -/
  port : Nat := 0
  /-- A TC4 packet demoted to TC2 (11 R482). -/
  demoted : Bool := false
  /-- Class of its slots (R408). -/
  tc : Nat := 0
  /-- Its slots' credits are not yet free (R439 R427). -/
  owes : Bool := true
  /-- Its slots (R412). -/
  bytes : List Byte := []
deriving DecidableEq, Repr

/-- The 64 fabric ports (10 R442). -/
structure Lnk where
  /-- The ports; beyond the list a port is in its reset state (R414). -/
  ports : List LnkPort := []
  /-- Packets in the ingress buffers, in arrival order (R24 R412 R439). -/
  ingress : List InPkt := []
  /-- Latest packet of TC0 to TC4 that entered an egress scheduler (R74). -/
  lastPkt : Nat := 0
deriving DecidableEq, Repr

/-- The router (11 R444 to R460, R489). -/
structure Rte where
  /-- SEL (critical word 0x00 bit 0) (R455 R489). -/
  sel : Bool := false
  /-- DRAINING (critical word 0x00 bit 1) (R458 R489). -/
  draining : Bool := false
  /-- Time of the latest flip (R458). -/
  flipAt : Nat := 0
  /-- RTE_EPOCH.FLIPS (R489). -/
  flips : Nat := 0
  /-- RTE_EPOCH.STAGE_REJ (R489). -/
  stageRej : Nat := 0
  /-- Table copy 0; 0 beyond the list (R455). -/
  copy0 : List (BitVec 64) := []
  /-- Table copy 1; 0 beyond the list (R455). -/
  copy1 : List (BitVec 64) := []
  /-- LIVE (R448 R489). -/
  live : BitVec 64 := 0
  /-- Port last chosen per class (R449). -/
  lastPort : List Nat := [63,63,63,63,63,63]
  /-- RTE_EVT.NOROUTE (R489). -/
  noroute : Nat := 0
  /-- RTE_EVT.AGE_DROP (R489). -/
  ageDrop : Nat := 0
  /-- RTE_EVT.HOPS_DROP (R489). -/
  hopsDrop : Nat := 0
  /-- RTE_EVT.TC4_DEMOTE (R489). -/
  tc4Demote : Nat := 0
  /-- Reserved TC4 slots: (slot, plan index) (R479 R480 12 R491). -/
  tc4Slots : List (Nat × Nat) := []
deriving DecidableEq, Repr

/-- A packet the module has made and not yet numbered (11 R462, R478; 12 R501). -/
structure QPkt where
  /-- Class (R478). -/
  tc : Nat := 0
  /-- Tenant it is sent for (12 R498). -/
  tid : Option Nat := none
  /-- Verb area and payload (R444). -/
  body : Body := (.req {})
  /-- Tenant whose request context it keeps (12 R501). -/
  ctx : Option Nat := none
  /-- Counted in SHP_FULL (12 R501). -/
  held : Bool := false
  /-- Sent below the switch point of packet protection (R571). -/
  plain : Bool := false
  /-- Handle of the plan in whose TC4 slots it leaves (12 R492). -/
  plan : Option Nat := none
  /-- TAGs of the responses that must leave before it (06 R256). -/
  behind : List (BitVec 32) := []
deriving DecidableEq, Repr

/-- A packet sent and not yet acknowledged (11 R461, R470, R473). -/
structure SentPkt where
  /-- SEQ (R461). -/
  seq : Nat := 0
  /-- Class (R478). -/
  tc : Nat := 0
  /-- Tenant it is sent for (12 R498). -/
  tid : Option Nat := none
  /-- What it carries (R473). -/
  body : Body := (.req {})
  /-- Handle of the plan in whose TC4 slots it leaves (12 R492). -/
  plan : Option Nat := none
  /-- Its first transmission was protected (14 R570). -/
  sealed : Bool := false
  /-- Index of the free bytes of its first transmission (14 R570). -/
  cipher : Nat := 0
  /-- Transmissions (R474). -/
  count : Nat := 1
  /-- Latest transmission (R473). -/
  sentAt : Nat := 0
  /-- Reported received by a SACK (R470). -/
  reported : Bool := false
deriving DecidableEq, Repr

/-- One sequence space with one peer, both directions (11 R461). -/
structure Space where
  /-- Next sequence to send (R461 R489). -/
  sndNext : Nat := 0
  /-- OPEN is still set on every packet (R466). -/
  opening : Bool := true
  /-- Unacknowledged packets, oldest first (R461). -/
  sent : List SentPkt := []
  /-- Packets not yet numbered, oldest first (R462 R478 12 R501). -/
  queue : List QPkt := []
  /-- The receive direction has state (R466). -/
  rcvOn : Bool := false
  /-- Expected sequence E (R468 R489). -/
  rcvExp : Nat := 0
  /-- Packets held in the reorder store (R468). -/
  held : List (Nat × Pkt) := []
  /-- Deliveries not yet acknowledged (R471). -/
  dlv : Nat := 0
  /-- First delivery not yet acknowledged (R471). -/
  dlvAt : Nat := 0
  /-- An arrival into the store has not been reported (R471). -/
  newHeld : Bool := false
  /-- An acknowledgement is due at once (R471). -/
  ackNow : Bool := false
  /-- ECE is due (R477). -/
  ece : Bool := false
deriving DecidableEq, Repr

/-- End-to-end state of one peer (11 R461, R465). -/
structure Peer where
  /-- Peer node (R461). -/
  node : Nat := 0
  /-- The peer's incarnation (R465 R489). -/
  inc : Nat := 0
  /-- The peer's incarnation is known (R464 14 R577). -/
  incOk : Bool := false
  /-- A provisional state (R465). -/
  prov : Bool := false
  /-- Its creation (R465). -/
  provAt : Nat := 0
  /-- DRAINING (R462 R489). -/
  draining : Bool := false
  /-- CWND (R478 R489). -/
  cwnd : Nat := 64
  /-- Acknowledged without ECE since the last rise (R478). -/
  acked : Nat := 0
  /-- Latest fall on ECE (R478). -/
  cutAt : Option Nat := none
  /-- Latest packet sent or received (R462). -/
  last : Nat := 0
  /-- Space 0 (R461). -/
  sp0 : Space := {}
  /-- Space 1 (R461). -/
  sp1 : Space := {}
deriving DecidableEq, Repr

/-- End-to-end delivery (11 R461 to R478, R489). -/
structure E2e where
  /-- Peers with state (R462). -/
  peers : List Peer := []
  /-- E2E_PEERS.PEAK (R489). -/
  peersPeak : Nat := 0
  /-- E2E_REORDER.PEAK (R489). -/
  heldPeak : Nat := 0
  /-- E2E_EVT.STALE (R489). -/
  stale : Nat := 0
  /-- E2E_EVT.RETX (R489). -/
  retx : Nat := 0
  /-- E2E_EVT.EVICT (R489). -/
  evict : Nat := 0
  /-- E2E_EVT.NODE_LOST (R489). -/
  nodeLost : Nat := 0
  /-- E2E_DROP.DUP (R489). -/
  dup : Nat := 0
  /-- E2E_DROP.STORE_FULL (R489). -/
  storeFull : Nat := 0
  /-- E2E_DROP.WIN_DROP (R489). -/
  winDrop : Nat := 0
  /-- E2E_DROP.STREAM_DROP (R489). -/
  streamDrop : Nat := 0
  /-- Packets for peers that have no state yet or are draining: (node, packet) (R462). -/
  waitOut : List (Nat × QPkt) := []
  /-- Packets held in Bivouac until the wake: (port, packet) (02 R78). -/
  bivHeld : List (Nat × Pkt) := []
deriving DecidableEq, Repr

/-- One token bucket (12 R498, R499); a bucket not listed is full and holds nothing. -/
structure Bucket where
  /-- Port (R498). -/
  port : Nat := 0
  /-- Tenant (R498). -/
  tid : Nat := 0
  /-- TOKENS (R499). -/
  tokens : Nat := 0
  /-- Waiting packets, oldest first (R499). -/
  q : List Pkt := []
deriving DecidableEq, Repr

/-- Effective shaper values of a tenant (12 R499). -/
structure ShpEff where
  /-- Tenant (R499). -/
  tid : Nat := 0
  /-- Values in effect (R499). -/
  now : ShpCfg := {}
  /-- Values in effect from the next refill (R500). -/
  next : ShpCfg := {}
deriving DecidableEq, Repr

/-- A PARTITIONED tenant (12 R502, R504). -/
structure PartRec where
  /-- Tenant (R502). -/
  tid : Nat := 0
  /-- Slots held (R502). -/
  slots : List Nat := []
  /-- RATE_MBPS (R504). -/
  rate : Nat := 0
  /-- (stack, bytes used since the last refill) (R504). -/
  budget : List (Nat × Nat) := []
deriving DecidableEq, Repr

/-- A response of a PARTITIONED tenant held until D_P (12 R505). -/
structure HeldResp where
  /-- Tenant (R505). -/
  tid : Nat := 0
  /-- Release time (R505). -/
  due : Nat := 0
  /-- Its node (R505). -/
  node : Nat := 0
  /-- The response (R505). -/
  q : QPkt := {}
deriving DecidableEq, Repr

/-- Service classes and shapers (12 R491 to R505, R515). -/
structure Qos where
  /-- Effective shaper values (R499). -/
  shp : List ShpEff := []
  /-- Buckets that are not full and idle (R498). -/
  buckets : List Bucket := []
  /-- PARTITIONED tenants (R502). -/
  parts : List PartRec := []
  /-- Responses held until D_P (R505). -/
  held : List HeldResp := []
  /-- QOS_EVT.PART_LATE (R515). -/
  partLate : Nat := 0
  /-- QOS_EVT.SHP_FULL (R515). -/
  shpFull : Nat := 0
  /-- QOS_EVT.PART_CLAMP (R515). -/
  partClamp : Nat := 0
deriving DecidableEq, Repr

/-- One entry of the CE address log (13 R533). -/
structure CeLog where
  /-- PA of the line (R533). -/
  pa : Nat := 0
  /-- SRC (R547). -/
  src : Nat := 0
  /-- MAXSYM (R533). -/
  maxSym : Nat := 0
  /-- LAST_MS (R533). -/
  lastMs : Nat := 0
  /-- HITS (R533). -/
  hits : Nat := 0
deriving DecidableEq, Repr

/-- One critical word: three copies and Lead's shadow (13 R529, R530); a word not listed holds its voted value in all three. -/
structure CritWord where
  /-- Index (R529). -/
  idx : Nat := 0
  /-- Copy 0 (R529). -/
  c0 : BitVec 64 := 0
  /-- Copy 1 (R529). -/
  c1 : BitVec 64 := 0
  /-- Copy 2 (R529). -/
  c2 : BitVec 64 := 0
  /-- Last value voted (R529). -/
  voted : BitVec 64 := 0
  /-- Lead's shadow (R530). -/
  shadow : BitVec 64 := 0
  /-- No two copies agree and Lead has not yet rewritten them (R529). -/
  split : Bool := false
deriving DecidableEq, Repr

/-- Memory integrity (13 R517 to R548). -/
structure Ecc where
  /-- Per line PA / 128: symbols that differ from the codeword of the line's data (R517 R522). -/
  errs : List (Nat × List (Nat × Byte)) := []
  /-- CE address log (R533). -/
  log : List CeLog := []
  /-- ECC_LOG_STATUS.REPLACED (R547). -/
  replaced : Nat := 0
  /-- ECC_SRAM.CE (R547). -/
  sramCe : Nat := 0
  /-- ECC_SRAM.UE (R547). -/
  sramUe : Nat := 0
  /-- ECC_SRAM.LAST_STRUCT (R547). -/
  sramLast : Nat := 0
  /-- SRAM bucket level, in thousandths (R534 R547). -/
  sramBucket : Nat := 0
  /-- Time of the latest SRAM overflow record (R534). -/
  sramOvf : Option Nat := none
  /-- ECC_CRIT.REPAIRS (R547). -/
  repairs : Nat := 0
  /-- ECC_CRIT.SPLITS (R547). -/
  splits : Nat := 0
  /-- ECC_CRIT.LAST_IDX (R547). -/
  lastIdx : Nat := 0
  /-- Critical words whose copies have been disturbed (R529). -/
  crit : List CritWord := []
  /-- (TID, CE events attributed) (R535). -/
  tntCe : List (Nat × Nat) := []
  /-- (stack, unit) armed (R546). -/
  injArmed : Option (Nat × Nat) := none
  /-- ECC_INJ_CTL as it reads back (R547). -/
  injCtl : BitVec 64 := 0
  /-- ECC_INJ_STATUS.RESULT (R547). -/
  injResult : Nat := 0
  /-- ECC_INJ_STATUS.OUTCOME (R547). -/
  injOutcome : Nat := 0
  /-- ECC_INJ_STATUS.SYMS (R547). -/
  injSyms : Nat := 0
  /-- ECC_INJ_DATA0 to 15 (R547). -/
  injData : List (BitVec 64) := [0,0,0,0,0,0,0,0,0,0,0,0,0,0,0,0]
  /-- ECC_INJ_CHK0 to 1 (R547). -/
  injChk : List (BitVec 64) := [0,0]
deriving DecidableEq, Repr

/-- The TRV registers of one page (13 R541, R547). -/
structure TrvPage where
  /-- The tenant page's TID, 0xFFFF for management (R545). -/
  tid : Nat := 65535
  /-- TRV_ARG_TGT (R547). -/
  tgt : BitVec 32 := 0
  /-- TRV_ARG_ADDR (R547). -/
  addr : BitVec 64 := 0
  /-- TRV_ARG_LEN (R547). -/
  len : Nat := 128
  /-- TRV_STATUS.STATE (R547). -/
  st : TrvState := .idle
  /-- TRV_STATUS.RESULT (R547). -/
  result : Nat := 0
  /-- TRV_STATUS.LINES_DONE (R547). -/
  linesDone : Nat := 0
  /-- Passes started from this page (R545). -/
  pass : Nat := 0
  /-- Start of the pass (R545). -/
  since : Nat := 0
  /-- First address of the pass (R545). -/
  pStart : BitVec 64 := 0
  /-- Bytes of the range per stack, or of the window range (R543). -/
  pLen : Nat := 0
  /-- Stack mask or window handle of the pass (R541). -/
  pTgt : BitVec 32 := 0
  /-- LINES of the pass (R545). -/
  pLines : Nat := 0
  /-- CE_LINES so far (R545). -/
  ceLines : Nat := 0
  /-- CE_SYMBOLS so far (R545). -/
  ceSyms : Nat := 0
  /-- UE_LINES so far (R545). -/
  ueLines : Nat := 0
  /-- POISON_LINES so far (R545). -/
  poison : Nat := 0
  /-- FIRST_BAD so far (R545). -/
  firstBad : BitVec 64 := 18446744073709551615
  /-- MAXSYM so far (R545). -/
  maxSym : Nat := 0
  /-- A stack of the range has failed during the pass (R544). -/
  stackLost : Bool := false
  /-- TRV_SUM0 to 7 (R545). -/
  sum : List Byte := []
deriving DecidableEq, Repr

/-- Scrub passes (13 R541 to R545). -/
structure Trv where
  /-- Pages whose TRV registers have been used (R547). -/
  pages : List TrvPage := []
deriving DecidableEq, Repr

/-- A tenant key slot (14 R557, R562, R593). -/
structure Tkey where
  /-- TID (R557). -/
  tid : Nat := 0
  /-- STATE (R593). -/
  st : TkeyState := .empty
  /-- GEN (R593). -/
  gen : Nat := 0
  /-- The AES-256-XTS key pair K1, K2 (R557). -/
  key : List Byte := []
deriving DecidableEq, Repr

/-- The root of trust (14 R552 to R563, R593). -/
structure Onx where
  /-- ONX_STATE.DRBG_FAIL (R556 R593). -/
  drbgFail : Bool := false
  /-- A first failure has been recorded (R556). -/
  drbgEver : Bool := false
  /-- ONX_STATE.ALIAS_READY (R593). -/
  aliasReady : Bool := false
  /-- ONX_STATE.UDS_LOCKED (R555 R593). -/
  udsLocked : Bool := false
  /-- ONX_STATE.LAYER (R593). -/
  layer : Nat := 0
  /-- The challenge now valid (R553 R593). -/
  nonce : Option (BitVec 64) := none
  /-- Key slots that are not EMPTY (R557). -/
  tkeys : List Tkey := []
  /-- Number of keys and nonces drawn (R556 R557). -/
  keySeed : Nat := 0
  /-- The system key pair (R557). -/
  sysKey : List Byte := []
  /-- The key-encryption key (R557). -/
  kek : List Byte := []
  /-- Unwrapped keys by TID, 4,096 for the system key, in the 8 crypto islands and the 32 base dies (R558). -/
  xts : List (List (Nat × List Byte)) := []
  /-- ONX_PATCH_DIGEST (R578 R593). -/
  patchDigest : List Byte := []
  /-- ONX_ROM_DIGEST (R593). -/
  romDigest : List Byte := []
  /-- HISTORY per TID, 65,535 for the module; 48 zero bytes beyond the list (R581). -/
  history : List (Nat × List Byte) := []
  /-- ONX_EVT.DRBG_RESEED (R593). -/
  reseed : Nat := 0
  /-- ONX_EVT.KEY_UE (R593). -/
  keyUe : Nat := 0
  /-- ONX_EVT.UNWRAP_FAIL (R593). -/
  unwrapFail : Nat := 0
  /-- ONX_EVT.SYSKEY_DENIED (R593). -/
  sysDenied : Nat := 0
deriving DecidableEq, Repr

/-- Security state of one peer node (14 R566, R574, R593). -/
structure SecPeer where
  /-- Peer node (R593). -/
  node : Nat := 0
  /-- STATE (R593). -/
  st : SecState := .none
  /-- ROLE: the module is the requester (R593). -/
  requester : Bool := false
  /-- FAILS (R574 R593). -/
  fails : Nat := 0
  /-- KEY_GEN (R593). -/
  keyGen : Nat := 0
  /-- PEER_INC (R593). -/
  inc : Nat := 0
  /-- Fabric root at which its chain ends (R553 R567). -/
  root : Nat := 8
  /-- Latest use of the session (R566). -/
  last : Nat := 0
  /-- N of the packet of the peer that ended its handshake: its packets above it are protected (R571). -/
  swN : Nat := 0
  /-- Incarnation of a handshake that runs under a provisional state beside the session (R465). -/
  hsInc : Option Nat := none
  /-- SEQ of the latest packet of the peer that carried FINISH or answered it (R571). -/
  hsSeq : Option Nat := none
  /-- SPDM code of the request last sent as requester (R564). -/
  step : Nat := 0
  /-- The certificate chain of the peer as it has arrived (R567). -/
  cert : List Byte := []
  /-- Chunks received of a long message (R564). -/
  chunk : List Byte := []
  /-- Long response waiting for CHUNK_GET (R564). -/
  large : List Byte := []
  /-- N of the next packet sent, per space (R570). -/
  txN : List Nat := [0,0]
  /-- First N of the sending key, per space (R571). -/
  txK : List Nat := [0,0]
  /-- N expected next, per space (R570). -/
  rxN : List Nat := [0,0]
  /-- First N of the receiving key, per space (R571). -/
  rxK : List Nat := [0,0]
  /-- SPDM negotiation reached by the peer as requester: 0 none, 1 version, 2 capabilities, 3 algorithms (R564). -/
  negotiated : Nat := 0
deriving DecidableEq, Repr

/-- Fabric sessions (14 R564 to R577, R593). -/
structure Sec where
  /-- Peers with a session, a failure count or a block (R593). -/
  peers : List SecPeer := []
  /-- SEC_SESS.PEAK (R593). -/
  peak : Nat := 0
  /-- SEC_EVT.HS_FAIL (R593). -/
  hsFail : Nat := 0
  /-- SEC_EVT.BLOCKS (R593). -/
  blocks : Nat := 0
  /-- SEC_EVT.NO_SESSION (R593). -/
  noSession : Nat := 0
  /-- SEC_EVT.AUTH_FAIL (R593). -/
  authFail : Nat := 0
  /-- Messages waiting for a session to open: (node, message) (R577). -/
  toOpen : List (Nat × QPkt) := []
deriving DecidableEq, Repr

/-- The module. -/
structure State where
  /-- Power input, pins, lasers and flash devices (02 R44; 16 R629 to R653). -/
  pwr : Pwr := {}
  /-- Fuses and factory data (14 R552; 03 R120; 16 R642). -/
  fuse : Fuses := {}
  /-- The two configuration flash devices (03 R93). -/
  flash : Flash := {}
  /-- The BOOT registers and the start sequence (02 R87; 03 R121). -/
  boot : Boot := {}
  /-- Effective values of the Salven image (03 R98, R110); its defaults are those of absent sections. -/
  img : Img := {}
  /-- Clock islands (01 R37 to R43). -/
  isl : Isl := {}
  /-- The fault queue and the retention memory (15 R622 to R626). -/
  crn : Cairn := {}
  /-- The control plane (15 R595 to R608). -/
  cp : Ctl := {}
  /-- Belay's registers and decisions (15 R610 to R621, R627). -/
  bel : Bel := {}
  /-- Management sessions (14 R583 to R586, R593). -/
  mgmt : Mgmt := {}
  /-- Global registers (17 R672). -/
  glb : Glb := {}
  /-- Translation tables and pool memory bookkeeping (04 R123 to R184). -/
  pool : Pool := {}
  /-- Requests, contexts and verb events (06). -/
  vrb : Vrb := {}
  /-- Bulk queues (06 R238 to R250). -/
  bulk : Bulk := {}
  /-- The coherence directory (05). -/
  coh : Coh := {}
  /-- Facet engines, plans, barriers and parks (07; 08 R353). -/
  fe : Fe := {}
  /-- Weight sets (09 R403). -/
  ws : Ws := {}
  /-- KV objects (09 R403). -/
  kv : Kv := {}
  /-- The 64 fabric ports (10 R442). -/
  lnk : Lnk := {}
  /-- The router (11 R444 to R460, R489). -/
  rte : Rte := {}
  /-- End-to-end delivery (11 R461 to R478, R489). -/
  e2e : E2e := {}
  /-- Service classes and shapers (12 R491 to R505, R515). -/
  qos : Qos := {}
  /-- Memory integrity (13 R517 to R548). -/
  ecc : Ecc := {}
  /-- Scrub passes (13 R541 to R545). -/
  trv : Trv := {}
  /-- The root of trust (14 R552 to R563, R593). -/
  onx : Onx := {}
  /-- Fabric sessions (14 R564 to R577, R593). -/
  sec : Sec := {}
  /-- Commands waiting, first in first out. -/
  pending : List Instr := []
  /-- Time. -/
  now : Nat := 0
  /-- When conditions 2 and 4 to 7 of R74 last failed (02 R74). -/
  busyAt : Nat := 0
  /-- Class of the DRAM accesses of the command in progress: 0 SCHED, 1 REALTIME, 2 NORMAL, 3 BULK (12 R506). -/
  svc : Nat := 2
  /-- Number of free values taken. -/
  free : Nat := 0
  /-- Everything that has left the module, oldest first. -/
  out : List Out := []
  /-- The _SEL registers of each requester; all 0 beyond the list (17 R668). -/
  sels : List (Requester × Sels) := []
  /-- DRAM plaintext by PA, canonical (04 R126). -/
  mem : List (Nat × BitVec 8) := []
  /-- The stack positions (01). -/
  stks : List Stk := (List.replicate 32 ({} : Stk))
deriving DecidableEq, Repr

/-- The module before power is first applied: every register at the reset value its register map lists
(02 R89), every table empty, the queue of waiting commands empty. -/
def State.reset : State := {}

/-- Why the block would stop. No command of this model stops with a fault: every command has the effect the
spec gives it. The reason is kept so that the type is not empty. -/
inductive Fault
  /-- An operand names a unit outside the module. No meaning raises it (safe: it is never raised). -/
  | noSuchUnit
deriving DecidableEq, Repr

/-- Why a command would be refused. -/
inductive Refusal
  /-- The command has no meaning yet; only a refused arm of exec raises it (safe). -/
  | notModelled (mnemonic : String)
deriving DecidableEq, Repr

end Sys2Proof.Machine
end

