-- ==== Sys2Proof/Machine/Ops.lean ====
section
/-! DEFINITION. The named operations that every family shares: bytes and numbers, association lists, pool memory,
time, free values, the fault queue Cairn, alerts, and what leaves the module. -/

namespace Sys2Proof.Machine

/-! Numbers and bytes -/

/-- Add n to a counter that saturates at its width (17 R661). -/
def satAdd (bits x n : Nat) : Nat := min (2 ^ bits - 1) (x + n)

/-- Add n to a counter that wraps at its width. -/
def wrapAdd (bits x n : Nat) : Nat := (x + n) % 2 ^ bits

/-- Clamp to a range that includes both bounds (00 R10, 17 R662). -/
def clampTo (lo hi x : Nat) : Nat := max lo (min hi x)

/-- Bits hi down to lo of a number (00 R8). -/
def bits (x hi lo : Nat) : Nat := (x / 2 ^ lo) % 2 ^ (hi + 1 - lo)

/-- One bit of a number. -/
def bit (x i : Nat) : Bool := (x / 2 ^ i) % 2 == 1

/-- A bit as a number. -/
def b2n (b : Bool) : Nat := if b then 1 else 0

/-- The n low bytes of a number, little-endian (00 R9). -/
def le : Nat → Nat → List Byte
  | 0, _ => []
  | n + 1, v => BitVec.ofNat 8 v :: le n (v / 256)

/-- The number that little-endian bytes spell (00 R9). -/
def ofLe : List Byte → Nat
  | [] => 0
  | b :: l => b.toNat + 256 * ofLe l

/-- The number that big-endian bytes spell. -/
def ofBe (l : List Byte) : Nat := ofLe l.reverse

/-- The n low bytes of a number, big-endian. -/
def be (n v : Nat) : List Byte := (le n v).reverse

/-- n bytes at an offset, with zeros beyond the end. -/
def slice (l : List Byte) (ofs n : Nat) : List Byte :=
  let t := (l.drop ofs).take n
  t ++ List.replicate (n - t.length) 0

/-- The little-endian field of n bytes at an offset. -/
def field (l : List Byte) (ofs n : Nat) : Nat := ofLe (slice l ofs n)

/-- Fill to a multiple of n bytes with zeros. -/
def padTo (n : Nat) (l : List Byte) : List Byte :=
  l ++ List.replicate ((n - l.length % n) % n) 0

/-- x divided by y, rounded up. -/
def ceilDiv (x y : Nat) : Nat := (x + y - 1) / y

/-- A 64-bit value of a number. -/
def w64 (x : Nat) : BitVec 64 := BitVec.ofNat 64 x

/-- Eight-byte little-endian words of a list of bytes. -/
def words64 (n : Nat) (l : List Byte) : List (BitVec 64) :=
  (List.range n).map fun k => w64 (field l (8 * k) 8)

/-! Lists -/

/-- The value of a key in an association list. -/
def assoc {α : Type} (k : Nat) : List (Nat × α) → Option α
  | [] => none
  | p :: l => if p.1 = k then some p.2 else assoc k l

/-- The value of a key, or a default. -/
def assocD {α : Type} (d : α) (k : Nat) (l : List (Nat × α)) : α := (assoc k l).getD d

/-- Set the value of a key, in place or at the end. -/
def setAssoc {α : Type} (k : Nat) (v : α) : List (Nat × α) → List (Nat × α)
  | [] => [(k, v)]
  | p :: l => if p.1 = k then (k, v) :: l else p :: setAssoc k v l

/-- Change every element that satisfies a test. -/
def mapIf {α : Type} (p : α → Bool) (f : α → α) (l : List α) : List α :=
  l.map fun x => if p x then f x else x

/-- Change the element at a position, where there is one. -/
def modNth {α : Type} (n : Nat) (f : α → α) : List α → List α
  | [] => []
  | x :: l => match n with
    | 0 => f x :: l
    | n + 1 => x :: modNth n f l

/-- The element at a position, or a default. -/
def nth {α : Type} (d : α) (l : List α) (n : Nat) : α := l.getD n d

/-- Set element n of a list, extending it with a default where it is shorter. -/
def setNthD {α : Type} (d : α) (n : Nat) (v : α) (l : List α) : List α :=
  if n < l.length then l.set n v else l ++ List.replicate (n - l.length) d ++ [v]

/-- Remove the first element that satisfies a test. -/
def eraseFirst {α : Type} (p : α → Bool) : List α → List α
  | [] => []
  | x :: l => if p x then l else x :: eraseFirst p l

/-- The bits of a W1C register that hardware has set at one time: bits set now join those set before at the same time (17
R669). -/
def setNow {w : Nat} (now : Nat) (x : Nat × BitVec w) (f : BitVec w) : Nat × BitVec w :=
  (now, if x.1 = now then x.2 ||| f else f)

/-- A write of a W1C register: it clears the bits written 1, but not those that hardware sets at the same time (17 R669). -/
def writeW1c {w : Nat} (now : Nat) (x : Nat × BitVec w) (cur v : BitVec w) : BitVec w :=
  cur &&& ~~~(if x.1 = now then v &&& ~~~x.2 else v)

/-- The sum of a list. -/
def sumBy {α : Type} (f : α → Nat) (l : List α) : Nat := l.foldl (fun a x => a + f x) 0

/-- The number of elements that satisfy a test. -/
def countIf {α : Type} (p : α → Bool) (l : List α) : Nat := (l.filter p).length

/-- Insert into a list kept by an order. -/
def insertBy {α : Type} (le : α → α → Bool) (x : α) : List α → List α
  | [] => [x]
  | y :: l => if le x y then x :: y :: l else y :: insertBy le x l

/-- A list in an order; equal elements keep their order. -/
def sortBy {α : Type} (le : α → α → Bool) : List α → List α
  | [] => []
  | x :: l => insertBy le x (sortBy le l)

/-- The element with the least key. -/
def leastBy {α : Type} (key : α → Nat) (l : List α) : Option α :=
  l.foldl (fun b x => match b with
    | none => some x
    | some y => if key x < key y then some x else some y) none

/-- The first of n numbers below a size that satisfies a test, cyclically from i. -/
def findFreeN (free : Nat → Bool) (size : Nat) : Nat → Nat → Option Nat
  | 0, _ => none
  | n + 1, i => if free i then some i else findFreeN free size n ((i + 1) % size)

/-- The first of the numbers below a size that satisfies a test, cyclically from start: the choice of an index that an
allocation gives out (log entry 16). -/
def findFree (free : Nat → Bool) (size start : Nat) : Option Nat := findFreeN free size size (start % size)

/-! Pool memory: plaintext bytes by PA, one list in rising order with no zero entry (04 R126; log entry 11). -/

/-- The byte at an address; an unlisted byte reads 0. -/
def memRead : List (Nat × BitVec 8) → Nat → Byte
  | [], _ => 0
  | (k, v) :: m, a => if k = a then v else if a < k then 0 else memRead m a

/-- Write one byte; writing 0 removes the entry. -/
def memWrite : List (Nat × BitVec 8) → Nat → Byte → List (Nat × BitVec 8)
  | [], a, v => if v = 0 then [] else [(a, v)]
  | (k, w) :: m, a, v =>
    if a < k then (if v = 0 then (k, w) :: m else (a, v) :: (k, w) :: m)
    else if a = k then (if v = 0 then m else (a, v) :: m)
    else (k, w) :: memWrite m a v

/-- Write bytes at consecutive addresses. -/
def memWriteL (m : List (Nat × BitVec 8)) (a : Nat) : List Byte → List (Nat × BitVec 8)
  | [] => m
  | b :: l => memWriteL (memWrite m a b) (a + 1) l

/-- Read n bytes at consecutive addresses. -/
def memReadL (m : List (Nat × BitVec 8)) (a n : Nat) : List Byte :=
  (List.range n).map fun i => memRead m (a + i)

/-- Zero the n bytes at an address: a zero-fill or an overwrite (04 R147, R176). -/
def memZero (m : List (Nat × BitVec 8)) (a n : Nat) : List (Nat × BitVec 8) :=
  m.filter fun c => c.1 < a || a + n ≤ c.1

/-- Copy n bytes from one address to another, the ranges apart (04 R178). -/
def memCopy (m : List (Nat × BitVec 8)) (src dst n : Nat) : List (Nat × BitVec 8) :=
  (m.filter fun c => src ≤ c.1 && c.1 < src + n).foldl
    (fun m' c => memWrite m' (c.1 - src + dst) c.2) (memZero m dst n)

/-- The canonical form: addresses strictly rising from lo on, no zero entry. -/
def memWfFrom : Nat → List (Nat × BitVec 8) → Bool
  | _, [] => true
  | lo, (k, v) :: m => decide (lo ≤ k) && decide (v ≠ 0) && memWfFrom (k + 1) m

/-- The canonical form of a memory. -/
def Memory.wf (m : List (Nat × BitVec 8)) : Bool := memWfFrom 0 m

/-! Request contexts in use (06 R224 to R228), and what keeps the module awake -/

/-- The effective opcode of a request: a reserved one executes as QUERY_CAPS (06 R225, R226). -/
def effOpcode (o : Byte) : Byte :=
  let n := o.toNat
  if (1 ≤ n && n ≤ 4) || n = 8 || n = 9 || (0x10 ≤ n && n ≤ 0x13) || (0x18 ≤ n && n ≤ 0x1D) || n = 0x20 || n = 0x21
    || (0x28 ≤ n && n ≤ 0x30) || (0x38 ≤ n && n ≤ 0x3A) || (0x40 ≤ n && n ≤ 0x44) || (0x48 ≤ n && n ≤ 0x4A)
    || n = 0x50 || n = 0x51 || n = 0x80 || (0x81 ≤ n && n ≤ 0x83) || (0x88 ≤ n && n ≤ 0x8B) || (0x90 ≤ n && n ≤ 0x94)
  then o else 0x7F

/-- The acknowledgements that receive no response (06 R224). -/
def isAck (o : Byte) : Bool := o == 0x2C || o == 0x2D || o == 0x2E

/-- Requests that take no context (06 R228). -/
def noContext (o : Byte) : Bool := effOpcode o == 0x7F || isAck o || o == 0x80

/-- Packets that keep a request context while they wait for a port (12 R501), and responses held until D_P (12 R505). -/
def ctxPackets (s : State) : List Nat :=
  (s.e2e.peers.map fun p => p.sp0.queue.filterMap QPkt.ctx).flatten ++ s.qos.held.filterMap fun h => h.q.ctx

/-- Request contexts of the module (06 R228). -/
def ctxAll (s : State) : Nat :=
  countIf (fun w => !noContext w.req.opcode) s.vrb.waiting + sumBy (fun q => q.descs.length) s.bulk.qs
    + (ctxPackets s).length

/-- A Traverse pass runs (13 R541). -/
def passRuns (s : State) : Bool := s.trv.pages.any fun p => p.st == .running

/-- A host holds a line of a coherent region in its cache (02 R74 condition 5). -/
def hostHolds (s : State) : Bool := s.coh.dir.any fun d => d.st ≠ .lostModified && d.st ≠ .inv

/-- Conditions 2 and 4 to 7 of 02 R74; a LOST anchor is not held. -/
def bivReady (s : State) : Bool :=
  ctxAll s == 0 && !(s.fe.plans.any fun p => p.run.isSome) && !passRuns s && !hostHolds s
    && (s.pool.anchors.all fun a => a.st == .lost) && !(s.pool.regions.any fun g => g.mode == .mirrored)

/-! Time and free values -/

/-- Time goes on to t; it never goes back. What the module was up to lasted until then (02 R74), and what is accessed next is NORMAL
until its class is known (12 R506). -/
def atTime (t : Nat) (s : State) : State :=
  { s with now := max s.now t, busyAt := if bivReady s then s.busyAt else max s.now t, svc := 2 }

/-! Column accesses and the write queue of a stack (12 R506 to R510; log entry 81) -/

/-- Column accesses of a pseudo-channel since its last BULK one, at most 6 (12 R507). -/
def sinceBulk (x : Stk) (pch : Nat) : Nat := assocD 0 pch x.cols

/-- A column access of a class issues in a pseudo-channel (12 R507). -/
def column (pch cls : Nat) (x : Stk) : Stk :=
  { x with cols := setAssoc pch (if cls = 3 then 0 else min 6 (sinceBulk x pch + 1)) x.cols }

/-- BULK accesses of n lines from a line on issue (12 R507). -/
def bulkColumns (line n : Nat) (x : Stk) : Stk :=
  { x with cols := x.cols.filter fun c => !decide ((c.1 + 64 - line % 64) % 64 < n) }

/-- The queued write that a pseudo-channel issues next, its banks ready: the oldest of the highest class, but a BULK one where none
issued among the last 6 accesses (12 R507). -/
def nextWrite (x : Stk) (pch : Nat) : Option WqEnt :=
  let q := x.wq.filter fun e => e.line % 64 = pch
  match if 6 ≤ sinceBulk x pch then q.find? fun e => e.cls = 3 else none with
  | some e => some e
  | none => leastBy (fun e => e.cls) q

/-- A queued write issues. -/
def issueWrite (e : WqEnt) (x : Stk) : Stk :=
  column (e.line % 64) e.cls { x with wq := x.wq.filter fun y => y.line ≠ e.line }

/-- The queued writes of a pseudo-channel that issue before a read of a class (12 R507); n bounds them. -/
def issueBefore (pch cls : Nat) : Nat → Stk → Stk
  | 0, x => x
  | n + 1, x =>
    match nextWrite x pch with
    | some e => if e.cls ≤ cls || decide (6 ≤ sinceBulk x pch && e.cls = 3) then issueBefore pch cls n (issueWrite e x) else x
    | none => x

/-- A read of a line issues: a queued write of the line is raised to the read's class and issues first (12 R507, R510). -/
def issueRead (line cls : Nat) (x : Stk) : Stk :=
  let x := { x with
    rawWait := if x.wq.any fun e => e.line = line then satAdd 16 x.rawWait 1 else x.rawWait
    wq := mapIf (fun e => e.line = line) (fun e => { e with cls := min e.cls cls }) x.wq }
  column (line % 64) cls (issueBefore (line % 64) cls x.wq.length x)

/-- Queued writes issue, in the class order of R506 (12 R507, R510); n is their number. -/
def drainWrites : Nat → Stk → Stk
  | 0, x => x
  | n + 1, x =>
    match leastBy (fun e => e.cls) x.wq with
    | some e => drainWrites n (issueWrite ((nextWrite x (e.line % 64)).getD e) x)
    | none => x

/-- The write queue empties (12 R510). -/
def drained (x : Stk) : Stk := drainWrites x.wq.length x

/-- A write of a line enters the queue, or merges into its entry; above 3,072 lines the queue drains to 1,024 (12 R510). -/
def queueWrite (now line cls : Nat) (x : Stk) : Stk :=
  let x := if x.wq.any fun e => e.line = line then
      { x with wq := mapIf (fun e => e.line = line) (fun e => { e with cls := min e.cls cls }) x.wq }
    else { x with wq := x.wq ++ [{ line := line, cls := cls, since := now }] }
  if 3072 < x.wq.length then drainWrites (x.wq.length - 1024) x else x

/-- The oldest queued write that has waited AGE_NS in its class moves up one class (12 R508). -/
def promote (now age : Nat) (x : Stk) : Stk :=
  match x.wq.find? fun e => decide (0 < e.cls) && decide (e.since + age ≤ now) with
  | some e => { x with wq := mapIf (fun y => y.line = e.line) (fun y => { y with cls := y.cls - 1, since := y.since + age }) x.wq }
  | none => x

/-- The class of the DRAM accesses that follow (12 R506). -/
def setSvc (c : Nat) (s : State) : State := { s with svc := c }

/-- One idle microsecond on an empty queue: the write queues drain (12 R510; log entry 12). -/
def idleTick (s : State) : State :=
  { s with
    now := s.now + 1000, busyAt := if bivReady s then s.busyAt else s.now + 1000
    stks := s.stks.map drained }

/-- Take n free values; the first has the index answered (log entry 13). -/
def takeFree (n : Nat) (s : State) : State × Nat := ({ s with free := s.free + n }, s.free)

/-- Free bytes (log entry 13). -/
def freeBytes (n : Nat) (s : State) : State × List Byte :=
  let (s, i) := takeFree n s
  (s, (List.range n).map fun k => Config.freeByte (i + k))

/-- Something leaves the module. -/
def emit (o : Out) (s : State) : State := { s with out := s.out ++ [o] }

/-- A draw of n bytes from the random source (14 R556). -/
def draw (n : Nat) (s : State) : State × List Byte :=
  ({ s with onx := { s.onx with
      keySeed := s.onx.keySeed + 1
      reseed := if (s.onx.keySeed + 1) % 2 ^ 20 = 0 then satAdd 16 s.onx.reseed 1 else s.onx.reseed } },
    (List.range n).map fun i => Config.drbg s.onx.keySeed i)

/-! The units a variant has (00 R2) -/

/-- Facet engines are present. -/
def hasEngines (s : State) : Bool := s.fuse.variant ≠ .c3240M

/-- Anchor federation is present. -/
def hasAnchors (s : State) : Bool := s.fuse.variant ≠ .c2440C

/-- Stack positions that hold a stack. -/
def stackCount (s : State) : Nat := if s.fuse.variant = .c2440C then 24 else 32

/-- The module's incarnation: BOOT_COUNT.COUNT[15:0] (02 R61). -/
def incarnation (s : State) : Nat := s.boot.count.toNat % 65536

/-- One stack position. -/
def stackAt (s : State) (k : Nat) : Stk := nth {} s.stks k

/-- Change one stack position. -/
def modStack (k : Nat) (f : Stk → Stk) (s : State) : State := { s with stks := modNth k f s.stks }

/-! Units' records, each by one function -/

/-- Change the power unit. -/
def setPwr (f : Pwr → Pwr) (s : State) : State := { s with pwr := f s.pwr }
/-- Change the boot unit. -/
def setBoot (f : Boot → Boot) (s : State) : State := { s with boot := f s.boot }
/-- Change the clock islands. -/
def setIsl (f : Isl → Isl) (s : State) : State := { s with isl := f s.isl }
/-- Step 4 of the start sequence finishes at its time: the stacks that failed show, and the module waits (02 R48, R53, R56). -/
def noteStep4 (s : State) : State :=
  if s.boot.st = .training && !s.boot.step4Done && decide (s.boot.stkDue ≤ s.now) then
    setBoot (fun b => { b with
      st := .backoff, step4Done := true, stkMs := min 65535 ((b.stkDue - b.t0) / 1000000)
      stkFail := (List.range 32).foldl (fun m k =>
        if (stackAt s k).fitted && (stackAt s k).st = .failed then m ||| 1#32 <<< k else m) 0 }) s
  else s
/-- Change the fault queue. -/
def setCrn (f : Cairn → Cairn) (s : State) : State := { s with crn := f s.crn }
/-- Change the control plane. -/
def setCp (f : Ctl → Ctl) (s : State) : State := { s with cp := f s.cp }
/-- Change Belay. -/
def setBel (f : Bel → Bel) (s : State) : State := { s with bel := f s.bel }
/-- Change the management sessions. -/
def setMgmt (f : Mgmt → Mgmt) (s : State) : State := { s with mgmt := f s.mgmt }
/-- Change the translation tables. -/
def setPool (f : Pool → Pool) (s : State) : State := { s with pool := f s.pool }
/-- Change the request contexts. -/
def setVrb (f : Vrb → Vrb) (s : State) : State := { s with vrb := f s.vrb }
/-- Change the bulk queues. -/
def setBulk (f : Bulk → Bulk) (s : State) : State := { s with bulk := f s.bulk }
/-- Change the directory. -/
def setCoh (f : Coh → Coh) (s : State) : State := { s with coh := f s.coh }
/-- Change the engines. -/
def setFe (f : Fe → Fe) (s : State) : State := { s with fe := f s.fe }
/-- Change the weight sets. -/
def setWs (f : Ws → Ws) (s : State) : State := { s with ws := f s.ws }
/-- Change the KV objects. -/
def setKv (f : Kv → Kv) (s : State) : State := { s with kv := f s.kv }
/-- Change the ports. -/
def setLnk (f : Lnk → Lnk) (s : State) : State := { s with lnk := f s.lnk }
/-- Change the router. -/
def setRte (f : Rte → Rte) (s : State) : State := { s with rte := f s.rte }
/-- Change the end-to-end layer. -/
def setE2e (f : E2e → E2e) (s : State) : State := { s with e2e := f s.e2e }
/-- Change the shapers. -/
def setQos (f : Qos → Qos) (s : State) : State := { s with qos := f s.qos }
/-- Change the integrity unit. -/
def setEcc (f : Ecc → Ecc) (s : State) : State := { s with ecc := f s.ecc }
/-- Change the scrubber. -/
def setTrv (f : Trv → Trv) (s : State) : State := { s with trv := f s.trv }
/-- Change the root of trust. -/
def setOnx (f : Onx → Onx) (s : State) : State := { s with onx := f s.onx }
/-- Change the fabric sessions. -/
def setSec (f : Sec → Sec) (s : State) : State := { s with sec := f s.sec }
/-- Change pool memory. -/
def setMem (f : List (Nat × BitVec 8) → List (Nat × BitVec 8)) (s : State) : State := { s with mem := f s.mem }

/-! Keys in the XTS units (14 R557, R558, R562) -/

/-- Every XTS unit gets the unwrapped key of every ACTIVE slot and the system key (14 R558). -/
def loadKeys (s : State) : State :=
  let table := ((s.onx.tkeys.filter fun k => k.st == .active).map fun k => (k.tid, k.key)) ++ [(4096, s.onx.sysKey)]
  setOnx (fun o => { o with xts := List.replicate 40 table }) s

/-- The key of a tenant in an XTS unit: the crypto islands are units 0 to 7, the base dies 8 to 39 (14 R558). -/
def xtsKey (s : State) (unit tid : Nat) : List Byte := assocD [] tid (nth [] s.onx.xts unit)

/-- Every line that bytes touch, whole or in part, through a cipher of the line's bytes; n bounds the lines. -/
def byLines (f : Nat → List Byte → List Byte) : Nat → Nat → List Byte → List Byte
  | 0, _, _ => []
  | n + 1, a, d =>
    if d.isEmpty then []
    else
      let k := 128 - a % 128
      f a (d.take k) ++ byLines f n (a + k) (d.drop k)

/-- The pseudo-address of a byte of an anchor (04 R128). -/
def pseudoAddr (a ofs : Nat) : Nat := 2 ^ 63 + a * 2 ^ 36 + ofs

/-- Bytes of an anchor as they travel and rest at the lender: each line encrypted under the owner's key with its pseudo-address as
the tweak (04 R163; 14 R559; log entry 14). The key is that of a crypto island's copy; all copies are equal (14 R558). -/
def sealAnchor (s : State) (tid a ofs : Nat) (d : List Byte) : List Byte :=
  byLines (fun p x => le x.length (Config.xts (xtsKey s 0 tid) (pseudoAddr a p) (8 * x.length) (BitVec.ofNat _ (ofLe x))).toNat)
    (d.length / 128 + 2) ofs d

/-- The plaintext of bytes that a lender sent (04 R163; 14 R559). -/
def openAnchor (s : State) (tid a ofs : Nat) (d : List Byte) : List Byte :=
  byLines (fun p x => le x.length ((Config.xts (xtsKey s 0 tid) (pseudoAddr a p) (8 * x.length)).symm (BitVec.ofNat _ (ofLe x))).toNat)
    (d.length / 128 + 2) ofs d

/-! The fault queue (15 R622 to R626) -/

/-- A class and kind whose records are critical (15 R623). -/
def critical (cls kind : Nat) : Bool :=
  match cls with
  | 0x04 => kind == 0x0A || kind == 0x0C
  | 0x05 | 0x09 | 0x0B | 0x0C | 0x0D | 0x0F => true
  | 0x0A => kind == 2 || kind == 3 || kind == 4 || kind == 5
  | _ => false

/-- The 64 B of a record (15 R622). -/
def cairnBytes (r : CairnRec) : List Byte :=
  le 4 r.seq.toNat ++ le 1 r.cls ++ le 1 r.flags ++ le 1 r.island ++ le 1 r.kind ++ le 8 r.timeUs.toNat
    ++ le 2 r.tid ++ le 1 r.status ++ le 1 0 ++ le 4 r.count ++ le 8 r.arg0.toNat ++ le 8 r.arg1.toNat
    ++ le 8 r.arg2.toNat ++ le 16 0

/-- A record built now, not yet numbered (15 R622). -/
def mkRec (cls kind : Nat) (a0 a1 a2 : Nat) (s : State) : CairnRec :=
  { seq := 0xFFFFFFFF, cls := cls, flags := b2n (critical cls kind), kind := kind,
    island := if cls = 0x0A then 0x92 else 0x40,
    timeUs := w64 ((s.now - s.boot.t0) / 1000), arg0 := w64 a0, arg1 := w64 a1, arg2 := w64 a2 }

/-- Send an ALERT with a record on every open management session (15 R620). -/
def alertAll (r : CairnRec) (s : State) : State :=
  s.mgmt.sess.foldl (fun s x => emit (.alert x.id (cairnBytes r)) s) s

/-- The counts merged while the queue is full of critical records (15 R624). -/
def mergedTotal (s : State) : Nat := sumBy id s.crn.merge

/-- The alert for a queue full of critical records, at most once a second (15 R624). -/
def critFullAlert (s : State) : State :=
  let due := match s.crn.lastFullAlert with
    | none => true
    | some t => t + 1000000000 ≤ s.now
  if s.crn.critFull && due then
    setCrn (fun c => { c with lastFullAlert := some s.now })
      (alertAll { mkRec 0x0F 1 (mergedTotal s) 0 0 s with count := mergedTotal s } s)
  else s

/-- Queue a record, or drop or merge it (15 R624); the record answered carries its number when it was queued. -/
def queueRec (r : CairnRec) (s : State) : State × CairnRec :=
  let crit := critical r.cls r.kind
  let r := { r with flags := b2n crit }
  let n := s.crn.q.length
  if (if crit then n < 1024 else n < 960) then
    let r := { r with seq := s.crn.nextSeq }
    (setCrn (fun c => { c with q := c.q ++ [r], nextSeq := c.nextSeq + 1 }) s, r)
  else if crit then
    (critFullAlert (setCrn (fun c => { c with
      merge := modNth r.cls (fun x => satAdd 16 x 1) c.merge, critFull := true }) s), r)
  else
    (setCrn (fun c => { c with dropped := satAdd 32 c.dropped 1, overflow := true }) s, r)

/-- Space has freed: one CAIRN record with the merged total (15 R624). -/
def mergeRelease (s : State) : State :=
  if s.crn.critFull && s.crn.q.length < 1024 then
    let n := mergedTotal s
    let s := (queueRec { mkRec 0x0F 1 n 0 0 s with count := n } s).1
    setCrn (fun c => { c with merge := List.replicate 16 0, critFull := false }) s
  else s

/-- Write a record (15 R622 to R624). -/
def cairn (cls kind a0 a1 a2 : Nat) (s : State) : State := (queueRec (mkRec cls kind a0 a1 a2 s) s).1

/-- Write a record tied to an island, a tenant and a status. -/
def cairnAt (cls kind a0 a1 a2 island tid : Nat) (st : Status) (s : State) : State :=
  (queueRec { mkRec cls kind a0 a1 a2 s with island := island, tid := tid, status := st.code } s).1

/-- Write a record and raise a management alert with it (15 R620). -/
def cairnAlert (cls kind a0 a1 a2 : Nat) (s : State) : State :=
  let (s, r) := queueRec (mkRec cls kind a0 a1 a2 s) s
  alertAll r s

end Sys2Proof.Machine
end

