-- ==== Sys2Proof/Machine/BelTable.lean ====
section
/-! DEFINITION. Belay's channel groups with the ROM defaults and the absolute limits of their thresholds
(15_control_belay_faults R610, R613). -/

namespace Sys2Proof.Machine

/-- A row of the channel table of 15 R610; a threshold of none is disabled. -/
structure BelGroup where
  /-- First channel. -/
  first : Nat
  /-- Last channel. -/
  last : Nat
  /-- Class. -/
  cls : Nat
  /-- LOW sense: a smaller value is more severe. -/
  low : Bool
  /-- ALERT. -/
  alert : Option Int
  /-- CAP. -/
  cap : Option Int
  /-- ORDERLY. -/
  orderly : Option Int
  /-- EMERG. -/
  emerg : Option Int
  /-- RESTART. -/
  restart : Option Int
  /-- SPAN. -/
  span : Int
deriving DecidableEq, Repr

/-- The channel table (15 R610). -/
def belGroups : List BelGroup := [
  ⟨0, 7, 0, false, some 95000, some 100000, some 110000, some 115000, some 85000, 5000⟩,
  ⟨8, 39, 1, false, some 85000, some 90000, some 95000, some 105000, some 75000, 5000⟩,
  ⟨40, 40, 2, false, some 40000, some 45000, some 50000, some 55000, some 35000, 5000⟩,
  ⟨41, 41, 2, false, some 55000, some 60000, some 65000, some 70000, some 50000, 5000⟩,
  ⟨42, 42, 3, true, some 3000, some 2500, some 2000, some 1200, some 3200, 500⟩,
  ⟨43, 43, 3, false, some 60000, some 70000, some 80000, some 100000, some 50000, 10000⟩,
  ⟨44, 44, 4, true, some 270000, some 265000, some 262000, some 255000, some 275000, 5000⟩,
  ⟨45, 59, 4, false, some 15, some 25, some 40, some 60, some 10, 10⟩,
  ⟨60, 75, 5, false, some 900, some 950, some 1050, some 1150, some 850, 50⟩,
  ⟨76, 76, 6, false, some 3300, some 3400, some 3500, some 3700, some 3200, 100⟩,
  ⟨77, 77, 0, false, some 100000, some 105000, some 115000, some 125000, some 90000, 5000⟩,
  ⟨78, 85, 7, false, some 8, none, none, none, some 0, 0⟩,
  ⟨86, 87, 7, false, some 200, none, none, none, some 0, 0⟩,
  ⟨88, 88, 7, false, some 300, none, none, some 1000, some 0, 0⟩,
  ⟨89, 90, 7, false, some 100, none, none, none, some 50, 50⟩,
  ⟨91, 91, 4, false, some 50, none, some 100, some 150, some 30, 20⟩]

/-- A group that no channel has: channels 92 to 95 are reserved and never decide. -/
def noGroup : BelGroup := ⟨92, 95, 7, false, none, none, none, none, none, 0⟩

/-- A group by its number. -/
def belGroup (g : Nat) : BelGroup := nth noGroup belGroups g

/-- The group of a channel. -/
def chanGroup (ch : Nat) : BelGroup :=
  (belGroups.find? fun g => decide (g.first ≤ ch) && decide (ch ≤ g.last)).getD noGroup

/-- A value is at or beyond a threshold in the more severe direction (15 R612). -/
def reaches (low : Bool) (v : Int) (thr : Option Int) : Bool :=
  match thr with
  | none => false
  | some x => if low then decide (v ≤ x) else decide (x ≤ v)

/-- The absolute limit of a threshold: its ROM default moved by SPAN to the looser side (15 R610; log entry 34). -/
def absLimit (g : BelGroup) (d : Option Int) : Option Int := d.map fun x => if g.low then x - g.span else x + g.span

/-- 32-bit two's complement of a threshold; a disabled one holds the value that its sense never reaches (15 R613). -/
def thrBits (low : Bool) (x : Option Int) : Nat :=
  match x with
  | none => if low then 0x80000000 else 0x7FFFFFFF
  | some v => (v % 2 ^ 32).toNat

/-- The threshold that 32 bits spell (15 R613). -/
def thrOf (low : Bool) (n : Nat) : Option Int :=
  if n = (if low then 0x80000000 else 0x7FFFFFFF) then none
  else some (if n < 2 ^ 31 then n else (n : Int) - 2 ^ 32)

/-- Critical word 0x20 + w: the limits of group w / 2 (15 R613). -/
def limitWord (w : Nat) : BitVec 64 :=
  let g := belGroup (w / 2)
  let d := if w % 2 = 0 then g.emerg else g.orderly
  w64 (thrBits g.low (absLimit g d) * 2 ^ 32 + thrBits g.low d)

/-- A channel with the ROM defaults of its group and no sample. -/
def romChan (ch : Nat) : BelChan :=
  let g := chanGroup ch
  { alert := g.alert, cap := g.cap, orderly := g.orderly, emerg := g.emerg, restart := g.restart }

/-- One Belay channel; an empty list stands for ROM defaults and no sample. -/
def chanAt (s : State) (ch : Nat) : BelChan := s.bel.chans.getD ch (romChan ch)

/-- All channels. -/
def chansAll (s : State) : List BelChan := (List.range 96).map fun ch => chanAt s ch

/-- Change one channel. -/
def modChan (ch : Nat) (f : BelChan → BelChan) (s : State) : State :=
  setBel (fun b => { b with chans := modNth ch f (chansAll s) }) s

/-- The thresholds of every channel back at their ROM defaults (02 R50, R51). -/
def romThresholds (s : State) : State :=
  setBel (fun b => { b with chans := (List.range 96).map fun ch =>
    let c := chanAt s ch
    let d := romChan ch
    { c with alert := d.alert, cap := d.cap, orderly := d.orderly, emerg := d.emerg, restart := d.restart } }) s

end Sys2Proof.Machine
end

