-- ==== Sys2Proof/Machine/Flits.lean ====
section
/-! DEFINITION. The bytes on a link: packets, link-management packets, flits with their CRC-64, link control messages and marker
blocks, each as it is sent and as it is read (10_tythes_link R407 to R411, R423; 11_fabric_routing R444, R472, R485; 06 R222, R223). -/

namespace Sys2Proof.Machine

/-- One byte of the CRC-64 of 10 R409. -/
def crcBits : Nat → BitVec 64 → BitVec 64
  | 0, r => r
  | n + 1, r => crcBits n (if r.getLsbD 63 then (r <<< 1) ^^^ 0x42F0E1EBA9EA3693 else r <<< 1)

/-- The CRC-64 of 10 R409: all ones at the start, most significant bit first, inverted at the end. -/
def crc64 (l : List Byte) : BitVec 64 :=
  ~~~ l.foldl (fun r b => crcBits 8 (r ^^^ BitVec.shiftLeft (b.setWidth 64) 56)) 0xFFFFFFFFFFFFFFFF

/-! The bytes of a packet -/

/-- The 40 B verb area of a request or message (06 R222). -/
def reqArea (r : Req) : List Byte :=
  [r.opcode, r.subop] ++ le 2 r.flags.toNat ++ le 2 r.tid.toNat ++ le 2 r.len.toNat ++ le 4 r.tag.toNat
    ++ le 4 r.win.toNat ++ le 8 r.va.toNat ++ le 8 r.op0.toNat ++ le 8 r.op1.toNat

/-- The 40 B verb area of a response or event (06 R223). -/
def respArea (r : Resp) : List Byte :=
  [r.opcode, BitVec.ofNat 8 r.status.code, BitVec.ofNat 8 r.load, r.evt] ++ le 2 r.tid ++ le 2 r.len
    ++ le 4 r.tag.toNat ++ le 4 r.obj.toNat ++ le 8 r.r0.toNat ++ le 8 r.r1.toNat ++ le 8 r.r2.toNat

/-- The 40 B verb area of an E2E_ACK (11 R472). -/
def ackArea (a : AckArea) : List Byte :=
  le 32 a.sack.toNat ++ le 1 (b2n a.stale + 2 * b2n a.resync) ++ le 1 0 ++ le 2 a.held ++ le 4 0

/-- The 40 B verb area of a STREAM packet (11 R485). -/
def streamArea (a : StreamArea) : List Byte :=
  le 2 a.tid ++ le 2 a.dplan ++ le 2 a.engine ++ le 1 a.bank ++ le 1 0 ++ le 2 a.len ++ le 30 0

/-- The verb area of a packet. -/
def bodyArea : Body → List Byte
  | .req r => reqArea r | .resp r => respArea r | .ack a => ackArea a | .stream a => streamArea a

/-- The payload of a packet in whole slots. -/
def bodyPayload : Body → List Byte
  | .req r => padTo 64 r.payload | .resp r => padTo 64 r.payload | .ack _ => [] | .stream a => padTo 64 a.data

/-- Payload slots of a body. -/
def bodySlots (b : Body) : Nat := (bodyPayload b).length / 64

/-- PKIND of a body (11 R444). -/
def bodyKind : Body → Nat
  | .ack _ => 1 | .stream _ => 2 | _ => 0

/-- The 24 header bytes of 11 R444 with the SEAL of 14 R570. -/
def pktHeader (p : Pkt) : List Byte :=
  le 1 (p.tc + 8 * b2n p.epoch + 16 * bodyKind p.body + 64 * b2n p.ce) ++ le 1 p.pslots ++ le 1 p.hops
    ++ le 1 (b2n p.opening + 2 * b2n p.ackV + 4 * b2n p.incV + 8 * b2n p.space + 16 * b2n p.retx + 32 * b2n p.ece)
    ++ le 4 p.dst ++ le 4 p.src ++ le 2 p.srcInc ++ le 2 p.dstInc ++ le 2 p.seq ++ le 2 p.ack
    ++ (if p.sealed then (List.range 4).map fun i => Config.freeByte (p.cipher + i) else le 4 0)

/-- The slots of a packet: the header slot, then the payload slots; protected bytes are free bytes (14 R570; log
entry 18). -/
def pktBytes (p : Pkt) : List Byte :=
  let t := bodyArea p.body ++ bodyPayload p.body
  pktHeader p ++ (if p.sealed then (List.range t.length).map fun i => Config.freeByte (p.cipher + 4 + i) else t)

/-- The 64 B of a link-management packet (10 R423). -/
def lmBytes (m : LinkMgmt) : List Byte :=
  le 1 m.type ++ le 1 m.version ++ le 2 (b2n m.poolOpen + 2 * b2n m.lpi) ++ le 4 m.node ++ le 1 m.port ++ le 1 m.kind
    ++ le 2 m.inc ++ le 1 m.maxWidth ++ le 3 0 ++ le 4 m.cluster.toNat ++ le 4 m.echo ++ le 4 m.nonce ++ le 36 0

/-! Flits -/

/-- The 272 B of a flit; the CRC covers the implicit sequence, the header and the payload (10 R408, R409). -/
def flitBytes (seq h : Nat) (payload : List Byte) : List Byte :=
  let b := le 8 h ++ slice payload 0 256
  b ++ le 8 (crc64 (le 3 seq ++ b)).toNat

/-- SLOT_INFO of up to four slots: class and header mark, 7 for empty (10 R408). -/
def slotInfo (sl : List (Nat × Bool × List Byte)) : Nat :=
  sumBy (fun k => (match sl[k]? with | some x => x.1 + 8 * b2n x.2.1 | none => 7) * 16 ^ k) (List.range 4)

/-- The message bytes of a link control message (10 R411). -/
def ctlBytes : LinkCtl → List Byte
  | .nak q => [0x01, 0, 0, 0] ++ le 3 q
  | .replayStart q => [0x02, 0, 0, 0] ++ le 3 q
  | .reset r => [0x03] ++ le 1 r
  | .credit c => [0x04] ++ le 15 0 ++ ((List.range 12).map fun i => le 2 (nth 0 c i)).flatten
  | .trainParam v w m c => [0x05] ++ le 1 v ++ le 1 w ++ [m] ++ le 12 0 ++ ((List.range 12).map fun i => le 2 (nth 0 c i)).flatten
  | .rttProbe x => [0x06] ++ le 7 0 ++ le 8 x.toNat
  | .rttEcho x => [0x07] ++ le 7 0 ++ le 8 x.toNat
  | .lpiEnter => [0x08]
  | .lpiExit => [0x09]

/-- The link control message that the payload of a LINK_CTL flit carries; one of a reserved CTL_TYPE is none (10 R411). -/
def ctlOf (b : List Byte) : Option LinkCtl :=
  let counts := (List.range 12).map fun i => field b (16 + 2 * i) 2
  match field b 0 1 with
  | 0x01 => some (.nak (field b 4 3))
  | 0x02 => some (.replayStart (field b 4 3))
  | 0x03 => some (.reset (field b 1 1))
  | 0x04 => some (.credit counts)
  | 0x05 => some (.trainParam (field b 1 1) (field b 2 1) (BitVec.ofNat 8 (field b 3 1)) counts)
  | 0x06 => some (.rttProbe (w64 (field b 8 8)))
  | 0x07 => some (.rttEcho (w64 (field b 8 8)))
  | 0x08 => some .lpiEnter
  | 0x09 => some .lpiExit
  | _ => none

/-- FTYPE of a flit: 0 PAYLOAD, 2 LINK_CTL, and everything else IDLE (10 R408). -/
def flitType (f : List Byte) : Nat :=
  match field f 0 1 % 8 with
  | 0 => 0
  | 2 => 2
  | _ => 1

/-- The CRC of a flit holds for an implicit sequence (10 R409). -/
def crcHolds (seq : Nat) (flit : List Byte) : Bool :=
  decide (field flit 264 8 = (crc64 (le 3 seq ++ slice flit 0 264)).toNat)

/-! Marker blocks and lanes (10 R407; log entry 68) -/

/-- One share of 34 B: the lane number, the frame counter and the fixed pattern. -/
def markerShare (lane frame : Nat) : List Byte := le 1 lane ++ le 2 frame ++ (List.range 31).map Config.markByte

/-- What a lane carries of a marker block at a width code: its share, then 8 / w - 1 repeats of it. -/
def markerLane (width lane frame : Nat) : List Byte := (List.replicate (2 ^ width) (markerShare lane frame)).flatten

/-- The lanes of a mask, ascending. -/
def lanesOf (m : BitVec 8) : List Nat := (List.range 8).filter fun k => m.getLsbD k

/-- The marker block over the lanes of a mask: 272 B at every width. -/
def markerBlock (lanes : BitVec 8) (width frame : Nat) : List (Nat × List Byte) :=
  (lanesOf lanes).map fun k => (k, markerLane width k frame)

/-- The lanes that lock: those whose number a share names (10 R407, R417). -/
def lockOf (marks : Marks) : BitVec 8 := marks.foldl (fun m x => m ||| 1#8 <<< (x.1 % 256)) 0

/-- The symbols of 10 bits that lane k of w lanes carries of a flit stream, in ascending lane order (10 R407). -/
def striped (w k : Nat) (stream : List (BitVec 10)) : List (BitVec 10) :=
  (List.range (stream.length / w)).map fun j => stream.getD (w * j + k) 0

/-- The stream that w deskewed lanes carry (10 R407). -/
def gathered (w n : Nat) (lanes : List (List (BitVec 10))) : List (BitVec 10) :=
  (List.range (w * n)).map fun j => (nth [] lanes (j % w)).getD (j / w) 0

/-! What arrived bytes say -/

/-- The request of a verb area and its payload slots (06 R222). -/
def reqOf (tc src : Nat) (a pay : List Byte) : Req :=
  { src := src, tc := tc, opcode := BitVec.ofNat 8 (field a 0 1), subop := BitVec.ofNat 8 (field a 1 1)
    flags := BitVec.ofNat 16 (field a 2 2), tid := BitVec.ofNat 16 (field a 4 2), len := BitVec.ofNat 16 (field a 6 2)
    tag := BitVec.ofNat 32 (field a 8 4), win := BitVec.ofNat 32 (field a 12 4), va := w64 (field a 16 8)
    op0 := w64 (field a 24 8), op1 := w64 (field a 32 8), payload := pay }

/-- The response or event of a verb area and its data (06 R223). -/
def respOf (a pay : List Byte) : Resp :=
  { opcode := BitVec.ofNat 8 (field a 0 1), status := .ofCode (field a 1 1), load := field a 2 1 % 16
    evt := BitVec.ofNat 8 (field a 3 1), tid := field a 4 2 % 4096, len := field a 6 2, tag := BitVec.ofNat 32 (field a 8 4)
    obj := BitVec.ofNat 32 (field a 12 4), r0 := w64 (field a 16 8), r1 := w64 (field a 24 8), r2 := w64 (field a 32 8)
    payload := pay.take (field a 6 2) }

/-- The area of an E2E_ACK (11 R472). -/
def ackOf (a : List Byte) : AckArea :=
  { sack := BitVec.ofNat 256 (field a 0 32), stale := bit (field a 32 1) 0, resync := bit (field a 32 1) 1, held := field a 34 2 }

/-- The area and the data of a STREAM packet (11 R485). -/
def streamOf (a pay : List Byte) : StreamArea :=
  { tid := field a 0 2 % 4096, dplan := field a 2 2, engine := field a 4 2 % 2048, bank := field a 6 1 % 4, len := field a 8 2
    data := pay }

/-- The body of an unsealed packet; PKIND 3 is E2E. A request travels on TC0, TC2 and TC4, a response or event on TC1 and TC3 (06
R221; 11 R444). -/
def bodyOf (tc src kind : Nat) (a pay : List Byte) : Body :=
  if kind = 1 then .ack (ackOf a)
  else if kind = 2 then .stream (streamOf a pay)
  else if tc = 1 || tc = 3 then .resp (respOf a pay)
  else .req (reqOf tc src a pay)

/-- The packet of TC0 to TC4 that arrived bytes spell (11 R444). -/
def pktOf (b : List Byte) : Pkt :=
  let h := field b 0 1
  let f := field b 3 1
  let tc := bits h 2 0
  let src := field b 8 4 % 2 ^ 20
  { tc := tc, epoch := bit h 3, ce := bit h 6, pslots := field b 1 1 % 64, hops := field b 2 1
    opening := bit f 0, ackV := bit f 1, incV := bit f 2, space := bit f 3, retx := bit f 4, ece := bit f 5
    dst := field b 4 4 % 2 ^ 20, src := src, srcInc := field b 12 2, dstInc := field b 14 2, seq := field b 16 2, ack := field b 18 2
    body := bodyOf tc src (bits h 5 4) (slice b 24 40) (b.drop 64) }

/-- What the module knows of an arrived packet: the bytes say it, but for the protected bytes of a sealed one and the check of its
SEAL, which come with the command (14 R570, R572; log entries 18, 70). -/
def arrived (b : List Byte) (p : Pkt) : Pkt :=
  let h := pktOf b
  if p.sealed then { h with sealed := true, sealOk := p.sealOk, cipher := p.cipher, body := p.body } else h

/-- The link-management packet that arrived bytes spell; a reserved LM_TYPE is HEARTBEAT (10 R423). -/
def lmOf (b : List Byte) : LinkMgmt :=
  let t := field b 0 1
  { type := if 1 ≤ t && t ≤ 4 then t else 3, version := field b 1 1, poolOpen := bit (field b 2 2) 0, lpi := bit (field b 2 2) 1
    node := field b 4 4 % 2 ^ 20, port := field b 8 1 % 64, kind := min 2 (field b 9 1), inc := field b 10 2
    maxWidth := field b 12 1, cluster := BitVec.ofNat 32 (field b 16 4), echo := field b 20 4, nonce := field b 24 4 }

/-- The bytes of a packet as a forwarding element changes them: HOPS, and CE where it marks (11 R446). -/
def forwarded (hops : Nat) (b : List Byte) : List Byte := b.set 2 (BitVec.ofNat 8 hops)

/-- CE set in the bytes of a packet (11 R444, R476). -/
def markCe (b : List Byte) : List Byte := modNth 0 (fun x => x ||| 0x40) b

end Sys2Proof.Machine
end

