-- ==== Sys2Proof/Machine/Egress.lean ====
section
/-! DEFINITION. What leaves a port: frames and flits, credits, the replay buffer, and the egress scheduler with its slot table
(10_tythes_link R407 to R439, 11_fabric_routing R476, R479, 12_service_and_dram R491 to R497). -/

namespace Sys2Proof.Machine

/-! Ports -/

/-- One port; beyond the list a port is in its reset state. -/
def portAt (s : State) (k : Nat) : LnkPort := nth {} s.lnk.ports k

/-- Change one port. -/
def modPort (k : Nat) (f : LnkPort → LnkPort) (s : State) : State :=
  setLnk (fun l => { l with ports := setNthD {} k (f (nth {} l.ports k)) l.ports }) s

/-- Credits available of a counter: the advertisement less what is outstanding (10 R438). -/
def crdAvail (p : LnkPort) (i : Nat) : Nat :=
  nth 0 p.crdPeer i - (nth 0 p.sent i + 65536 - nth 0 p.ret i) % 65536

/-- The counter of a class and kind: 2 x TC + KIND (10 R408). -/
def crdSel (tc : Nat) (data : Bool) : Nat := 2 * tc + b2n data

/-- The weight of a queue of the weighted group (12 R496). -/
def queueWeight (s : State) (q : Nat) : Nat :=
  match (List.range 8).find? fun l => nth 0 s.img.svcQueue l = q with
  | some l => nth 64 s.img.svcWeight l
  | none => 64

/-- The increment of a packet of c bytes (12 R497). -/
def wfqInc (s : State) (q c : Nat) : Nat := ceilDiv (c * 1024) (max 1 (queueWeight s q))

/-- The next acknowledgement due from a receiver (10 R435): ACK_V and ACK_SEQ of the next flit. -/
def ackDue (now : Nat) (p : LnkPort) : Bool :=
  decide (0 < p.unacked) && !p.nak && (decide (16 ≤ p.unacked) || decide (p.firstUnacked + 200 ≤ now))

/-- The changed credit count that the next flit returns, round-robin (10 R439). -/
def crdDue (p : LnkPort) : Option Nat :=
  ((List.range 12).map fun i => (p.crdNext + i) % 12).find? fun i => nth 0 p.freed i ≠ nth 0 p.freedSent i

/-- A flit's header with the acknowledgement and the credit return it carries, where it carries them (10 R408). -/
def headerWith (p : LnkPort) (ftype slotInfo : Nat) (ack : Bool) (crd : Option Nat) : Nat × LnkPort :=
  let h := ftype + (if ack then 8 + 16 * ((p.rxExp + 65535) % 65536) else 0) + slotInfo * 2 ^ 20
  let p := if ack then { p with unacked := 0 } else p
  match crd with
  | none => (h, p)
  | some i => (h + 2 ^ 36 + i * 2 ^ 37 + nth 0 p.freed i * 2 ^ 41,
      { p with freedSent := p.freedSent.set i (nth 0 p.freed i), crdNext := (i + 1) % 12 })

/-- A flit's header with the acknowledgement and the credit return that are due (10 R408, R435, R439). -/
def flitHeader (now : Nat) (p : LnkPort) (ftype slotInfo : Nat) : Nat × LnkPort :=
  headerWith p ftype slotInfo (ackDue now p) (crdDue p)

/-- A flit leaves in its flit time; a frame that begins has its marker block first (10 R407; log entry 68). -/
def lineFlit (k : Nat) (rpl : Bool) (b : List Byte) (s : State) : State :=
  let p := portAt s k
  let s := if p.frameAt = 0 then
      emit (.marker k (markerBlock (if p.lanesUsed = 0 then 0xFF else p.lanesUsed) (if p.lanesUsed = 0 then 0 else p.width) p.frame)) s
    else s
  emit (.flit k rpl b) (modPort k (fun p => { p with
    frame := if p.frameAt = 0 then wrapAdd 16 p.frame 1 else p.frame
    frameAt := if 256 ≤ p.frameAt then 0 else max 2 (p.frameAt + 1) }) s)

/-- Make one PAYLOAD flit of up to four slots, keep it for replay and send it (10 R433). -/
def sendFlit (k : Nat) (sl : List (Nat × Bool × List Byte)) (s : State) : State :=
  let p := portAt s k
  let (h, p) := flitHeader s.now p 0 (slotInfo sl)
  let b := flitBytes p.txSeq h ((sl.map fun x => x.2.2).flatten)
  let p := { p with buf := p.buf ++ [{ seq := p.txSeq, bytes := b }], txSeq := (p.txSeq + 1) % 2 ^ 24,
                    timer := if p.buf.isEmpty then s.now else p.timer }
  lineFlit k false b (modPort k (fun _ => p) s)

/-- An IDLE or LINK_CTL flit, with the acknowledgement and the credit return that are due; it is never replayed (10 R408, R411). -/
def sendOther (k ftype : Nat) (payload : List Byte) (s : State) : State :=
  let (h, p) := flitHeader s.now (portAt s k) ftype (slotInfo [])
  lineFlit k false (flitBytes 0xFFFFFF h payload) (modPort k (fun _ => p) s)

/-- An IDLE flit (10 R411). -/
def sendIdle (k : Nat) (s : State) : State := sendOther k 1 [] s

/-- A LINK_CTL flit (10 R411). -/
def sendCtl (k : Nat) (c : LinkCtl) (s : State) : State := sendOther k 2 (ctlBytes c) s

/-- The link carries flits. -/
def carries (p : LnkPort) : Bool := p.st == .verify || p.st == .active

/-- Every acknowledgement and changed count that is due goes out in IDLE flits, one count in each: outside low-power idle there is
a flit in every flit time (10 R435, R439); n bounds the flits. -/
def sendReturns (k : Nat) : Nat → State → State
  | 0, s => s
  | n + 1, s =>
    let p := portAt s k
    if carries p && !p.lpiTx && (ackDue s.now p || (crdDue p).isSome) then sendReturns k n (sendIdle k s) else s

/-- What a port owes its peer goes out (10 R435, R439). -/
def payReturns (k : Nat) (s : State) : State := sendReturns k 13 s

/-- The slots of a packet at egress with their class. -/
def egSlots (e : EgPkt) : List (Nat × Bool × List Byte) :=
  let b := if e.raw.isEmpty then (match e.pkt with | some p => pktBytes p | none => lmBytes e.lm) else e.raw
  (List.range (b.length / 64)).map fun i => (e.tc, i == 0, slice b (64 * i) 64)

/-! The slot table (11 R479; 12 R491 to R494) -/

/-- The handle of a plan (07 R278). -/
def planHandle (p : Plan) : Nat := p.idx + 256 * p.gen

/-- The owner of a slot (12 R491). -/
def slotOwner (s : State) (slot : Nat) : Option SlotOwner :=
  match s.rte.tc4Slots.find? fun x => x.1 = slot with
  | some x => (s.fe.plans.find? fun p => p.idx = x.2).map fun p => .plan (planHandle p)
  | none => (s.qos.parts.find? fun p => p.slots.contains slot).map fun p => .tenant p.tid

/-- Slots from the one after a slot that have one owner, in a row. -/
def ownedRun (s : State) (o : SlotOwner) : Nat → Nat → Nat
  | 0, _ => 0
  | n + 1, slot => if slotOwner s (slot % 256) = some o then 1 + ownedRun s o n (slot + 1) else 0

/-- Positions left to the owner of the slot of a position, in it and in the following slots of the same owner (12 R492). -/
def ownerRoom (s : State) (o : SlotOwner) (pos : Nat) : Nat :=
  64 - pos % 64 + 64 * ownedRun s o 255 (pos / 64 + 1)

/-- Positions before the next slot that has an owner (12 R494). -/
def openRoom (s : State) (pos : Nat) : Nat :=
  match (List.range 256).find? fun d => (slotOwner s ((pos / 64 + 1 + d) % 256)).isSome with
  | some d => 64 - pos % 64 + 64 * d
  | none => 16384

/-- A packet may start: the link carries its class and all its credits are there (10 R414, R438). -/
def egReady (p : LnkPort) (e : EgPkt) : Bool :=
  (p.st == .active || (p.st == .verify && e.tc == 5))
    && decide (1 ≤ crdAvail p (crdSel e.tc false)) && decide (e.slots - 1 ≤ crdAvail p (crdSel e.tc true))

/-- The first packet of each queue of the weighted group. -/
def wfqHeads (p : LnkPort) : List EgPkt :=
  (List.range 8).filterMap fun q => p.eg.find? fun e => e.rank == 4 && e.queue == q

/-- Tags are compared modulo 2^48 from V on (12 R497). -/
def wfqKey (p : LnkPort) (e : EgPkt) : Nat := (assocD 0 e.queue p.wtag + 2 ^ 48 - p.vt) % 2 ^ 48

/-- The first packet of each class of an owner, in the owner's order (12 R492, R503). -/
def ownerHeads (p : LnkPort) (o : SlotOwner) : List EgPkt :=
  (List.range 5).filterMap fun q => p.eg.find? fun e => e.rank == 0 && e.owner == some o && e.queue == q

/-- The packets that may take a position no owner takes, in their order (12 R493, R497). -/
def openHeads (p : LnkPort) : List EgPkt :=
  ([1, 2, 3].filterMap fun r => p.eg.find? fun e => e.rank == r) ++ sortBy (fun a b => wfqKey p a ≤ wfqKey p b) (wfqHeads p)

/-- The packet that starts in a position: the owner's where it fits in the owner's slots, else one that ends before the next slot
with an owner (12 R492 to R494). -/
def egAt (s : State) (p : LnkPort) (pos : Nat) : Option EgPkt :=
  let own := match slotOwner s (pos / 64) with
    | some o => (ownerHeads p o).find? fun e => egReady p e && decide (e.slots ≤ ownerRoom s o pos)
    | none => none
  match own with
  | some e => some e
  | none => (openHeads p).find? fun e =>
      egReady p e && (e.tc ≤ 1 || e.tc == 5 || decide (e.slots ≤ openRoom s pos))

/-- Where the next packet starts: the next position, or the beginning of a later slot of the table (12 R491 to R494; log entry
69). -/
def egNext (s : State) (p : LnkPort) : Option (Nat × EgPkt) :=
  if p.eg.any (egReady p) then
    (p.slotPos :: (List.range 256).map fun d => (p.slotPos / 64 + 1 + d) % 256 * 64).findSome? fun pos =>
      (egAt s p pos).map fun e => (pos, e)
  else none

/-- Take a packet out of its queue; its credits are consumed and V and the queue's tag move (10 R438; 12 R497). -/
def egTake (s : State) (p : LnkPort) (e : EgPkt) : LnkPort :=
  let eg := eraseFirst (fun x => x == e) p.eg
  let p := { p with eg := eg
                    sent := modNth (crdSel e.tc false) (fun x => wrapAdd 16 x 1)
                      (modNth (crdSel e.tc true) (fun x => wrapAdd 16 x (e.slots - 1)) p.sent) }
  if e.rank == 4 then
    let t := assocD 0 e.queue p.wtag
    let rest := p.wtag.filter fun x => x.1 ≠ e.queue
    match eg.find? fun x => x.rank == 4 && x.queue == e.queue with
    | some x => { p with vt := t, wtag := (e.queue, wrapAdd 48 t (wfqInc s e.queue (64 * x.slots))) :: rest }
    | none => { p with vt := t, wtag := rest }
  else p

/-- A packet starts at a position: its slots follow those that wait for a flit, after the empty slots of a flit that a later slot of
the table leaves behind (10 R412; 12 R491). -/
def startPkt (k pos : Nat) (e : EgPkt) (s : State) : State :=
  let s := modPort k (fun p =>
    let gap := if pos = p.slotPos then 0 else (4 - p.txSlots.length % 4) % 4
    let q := egTake s p e
    { q with
      txSlots := p.txSlots ++ List.replicate gap (7, false, List.replicate 64 0) ++ egSlots e
      slotPos := (pos + e.slots) % 16384 }) s
  match e.pkt, e.transit with
  | some q, none => emit (.pkt k q) s
  | some q, some _ => emit (.fwd k q) s
  | none, _ => emit (.tc5 k e.lm) s

/-- Start packets while the replay buffer has room for a slot more (10 R433); n bounds the packets. -/
def startPkts (k : Nat) : Nat → State → State
  | 0, s => s
  | n + 1, s =>
    let p := portAt s k
    if 4 * (1024 - p.buf.length) ≤ p.txSlots.length then s
    else match egNext s p with
      | some (pos, e) => startPkts k n (startPkt k pos e s)
      | none => s

/-- The slots that wait go out in flits of four while the replay buffer has room; the last one may be short (10 R433); n bounds the
flits. -/
def sendSlots (k : Nat) : Nat → State → State
  | 0, s => s
  | n + 1, s =>
    let p := portAt s k
    if p.txSlots.isEmpty || decide (1024 ≤ p.buf.length) then s
    else
      let short := decide (p.txSlots.length < 4)
      sendSlots k n (sendFlit k (p.txSlots.take 4) (modPort k (fun p => { p with
        txSlots := p.txSlots.drop 4
        slotPos := if short then ceilDiv p.slotPos 4 * 4 % 16384 else p.slotPos }) s))

/-- Fill the positions of a port. -/
def pumpPort (k : Nat) (s : State) : State := sendSlots k 1024 (startPkts k ((portAt s k).eg.length) s)

/-- Bytes of TC2 and TC3 packets that a port holds (11 R476). -/
def egBytes (p : LnkPort) : Nat :=
  sumBy (fun e => 64 * e.slots) (p.eg.filter fun e => e.tc == 2 || e.tc == 3)

/-- Enter a packet at a port's egress scheduler; CE is set on TC2 and TC3 above 64 KiB (11 R476), and a queue newly
active starts at V (12 R497). -/
def enqueue (k : Nat) (e : EgPkt) (s : State) : State :=
  let p := portAt s k
  let mark := (e.tc == 2 || e.tc == 3) && decide (65536 < egBytes p)
  let e := if mark then { e with pkt := e.pkt.map fun q => { q with ce := true }, raw := markCe e.raw } else e
  let newly := e.rank == 4 && !(p.eg.any fun x => x.rank == 4 && x.queue == e.queue)
  let p := { p with eg := p.eg ++ [e],
                    wtag := if newly then (e.queue, wrapAdd 48 p.vt (wfqInc s e.queue (64 * e.slots))) ::
                      p.wtag.filter (fun x => x.1 ≠ e.queue) else p.wtag }
  let s := modPort k (fun _ => p) s
  pumpPort k (if e.transit.isSome then setLnk (fun l => { l with lastPkt := s.now }) s else s)

/-- Send a link-management packet (10 R423). -/
def sendLm (k : Nat) (m : LinkMgmt) (s : State) : State :=
  enqueue k { rank := 1, tc := 5, slots := 1, arrived := s.now, lm := m } s

/-- Take a packet out of a port's queue without sending it; the next packet of its weighted queue starts where it did. -/
def egDrop (s : State) (e : EgPkt) (p : LnkPort) : LnkPort :=
  let head := e.rank == 4 && (p.eg.find? fun x => x.rank == 4 && x.queue == e.queue) == some e
  let eg := eraseFirst (fun x => x == e) p.eg
  if head then
    let t := (assocD 0 e.queue p.wtag + 2 ^ 48 - wfqInc s e.queue (64 * e.slots)) % 2 ^ 48
    let rest := p.wtag.filter fun x => x.1 ≠ e.queue
    match eg.find? fun x => x.rank == 4 && x.queue == e.queue with
    | some x => { p with eg := eg, wtag := (e.queue, wrapAdd 48 t (wfqInc s e.queue (64 * x.slots))) :: rest }
    | none => { p with eg := eg, wtag := rest }
  else { p with eg := eg }

/-! The ingress buffer (10 R412, R439) -/

/-- A packet leaves the ingress buffer across the ingress crossing: its slots' credits are free, where the link has not been reset
since (10 R427, R439). -/
def freeSlots (x : InPkt) (s : State) : State :=
  if x.owes then
    payReturns x.port (modPort x.port (fun p => { p with
      freed := modNth (crdSel x.tc false) (fun c => wrapAdd 16 c 1)
        (modNth (crdSel x.tc true) (fun c => wrapAdd 16 c (x.bytes.length / 64 - 1)) p.freed) }) s)
  else s

/-- The oldest packet that satisfies a test leaves the ingress buffer. -/
def takeWhere (hit : InPkt → Bool) (s : State) : State × Option InPkt :=
  match s.lnk.ingress.find? hit with
  | some x => (freeSlots x (setLnk (fun l => { l with ingress := eraseFirst hit l.ingress }) s), some x)
  | none => (s, none)

/-- The oldest packet of a class that waits in a port's ingress buffer. -/
def takeIngress (k tc : Nat) (s : State) : State × Option InPkt :=
  takeWhere (fun x => decide (x.port = k) && decide (x.tc = tc)) s

end Sys2Proof.Machine
end

