-- ==== Sys2Proof/Machine/Send.lean ====
section
/-! DEFINITION. What the module originates: critical words, ports and shapers, end-to-end peers and their numbering,
sessions opened as requester, responses' carriage and events (11_fabric_routing R447 to R478, 12 R498 to R505,
13 R529, 14 R566 to R577, 06 R251, R680). -/

namespace Sys2Proof.Machine

/-! Critical words (13 R529, R530) -/

/-- The capability word of a variant (17 R673, R674). -/
def capsWord (s : State) : Nat :=
  match s.fuse.variant with
  | .c3240C => 0x0100000408000320
  | .c3240E => 0x0100000408001720
  | .c3240M => 0x0100000000002220
  | .c2440C => 0x0100000306003118

/-- The value of a critical word where no copy has been disturbed (13 R529). The key-table root, the policy words and the
remap roots have no content in the spec: their words are free (log entry 33). -/
def critDefault (idx : Nat) (s : State) : BitVec 64 :=
  if idx = 0x00 then w64 (b2n s.rte.sel + 2 * b2n s.rte.draining)
  else if idx = 0x19 then w64 s.glb.node
  else if idx = 0x1A then w64 (incarnation s)
  else if idx = 0x1B then w64 (capsWord s)
  else if idx = 0x1C then w64 s.fuse.svnFloor
  else if 0x1D ≤ idx && idx ≤ 0x1F then 0
  else if 0x20 ≤ idx && idx ≤ 0x3F then limitWord (idx - 0x20)
  else Config.critWord idx

/-- The value that the users of a critical word hold: the last value voted (13 R529). -/
def critValue (idx : Nat) (s : State) : BitVec 64 :=
  match s.ecc.crit.find? fun w => w.idx = idx with
  | some w => w.voted
  | none => critDefault idx s

/-- A voted value takes effect where the model holds the word's users. -/
def critApply (idx : Nat) (v : BitVec 64) (s : State) : State :=
  let n := v.toNat
  if idx = 0x00 then setRte (fun r => { r with sel := bit n 0, draining := bit n 1 }) s
  else if idx = 0x19 then { s with glb := { s.glb with node := n % 2 ^ 20 } }
  else if idx = 0x1A then setBoot (fun b => { b with
    count := BitVec.ofNat 32 (b.count.toNat / 65536 * 65536 + n % 65536) }) s
  else if idx = 0x1C then { s with fuse := { s.fuse with svnFloor := n % 64 } }
  else s

/-- Read a critical word: the vote, the repair of one copy, or the split (13 R529). -/
def critRead (idx : Nat) (s : State) : State :=
  match s.ecc.crit.find? fun w => w.idx = idx with
  | none => s
  | some w =>
    if w.split then s
    else if w.c0 = w.c1 && w.c1 = w.c2 then s
    else if w.c0 = w.c1 || w.c0 = w.c2 || w.c1 = w.c2 then
      let v := if w.c0 = w.c1 then w.c0 else if w.c0 = w.c2 then w.c0 else w.c1
      let w' := { w with c0 := v, c1 := v, c2 := v, voted := v }
      critApply idx v (setEcc (fun e => { e with
        repairs := satAdd 32 e.repairs 1, crit := mapIf (fun x => x.idx = idx) (fun _ => w') e.crit }) s)
    else
      cairn 0x05 1 idx w.voted.toNat 0 (setEcc (fun e => { e with
        splits := satAdd 16 e.splits 1, lastIdx := idx,
        crit := mapIf (fun x => x.idx = idx) (fun x => { x with split := true }) e.crit }) s)

/-- A write of a critical word rewrites the shadow and the three copies (13 R530). -/
def critWrite (idx : Nat) (s : State) : State :=
  setEcc (fun e => { e with crit := e.crit.filter fun w => w.idx ≠ idx }) s

/-- XOR one copy of a critical word: an injection (13 R546) or an uncorrectable or miscorrected byte (13 R527). -/
def critFlip (idx copy : Nat) (x : BitVec 64) (s : State) : State :=
  let v := critDefault idx s
  let w := match s.ecc.crit.find? fun w => w.idx = idx with
    | some w => w
    | none => { idx := idx, c0 := v, c1 := v, c2 := v, voted := v, shadow := v }
  let w' := if copy = 0 then { w with c0 := w.c0 ^^^ x } else if copy = 1 then { w with c1 := w.c1 ^^^ x }
    else { w with c2 := w.c2 ^^^ x }
  setEcc (fun e => { e with crit := w' :: e.crit.filter fun w => w.idx ≠ idx }) s

/-- Lead rewrites the copies of a split word from its shadow within one control cycle (13 R529). -/
def critRewrite (s : State) : State :=
  (s.ecc.crit.filter fun w => w.split).foldl
    (fun s w => critWrite w.idx (critApply w.idx w.shadow s)) s

/-! Ports of a packet (11 R448 to R450) -/

/-- The spray set of a copy and group, ANDed with LIVE (11 R448). -/
def liveSet (s : State) (copy : Bool) (group : Nat) : BitVec 64 :=
  nth 0 (if copy then s.rte.copy1 else s.rte.copy0) group &&& s.rte.live

/-- The ports of a set, ascending. -/
def portsOf (set : BitVec 64) : List Nat := (List.range 64).filter fun k => set.getLsbD k

/-- The group of a node (00 Vocabulary). -/
def groupOf (n : Nat) : Nat := n / 256

/-- The port with the most credits available for the class, ties round-robin from the port last chosen (11 R449). -/
def mostCredits (s : State) (tc slots : Nat) (ports : List Nat) : Option Nat :=
  let last := nth 63 s.rte.lastPort tc
  let order := (ports.filter fun k => last < k) ++ ports.filter fun k => k ≤ last
  let c := fun k => crdAvail (portAt s k) (crdSel tc (decide (1 < slots)))
  order.foldl (fun b k => match b with
    | none => some k
    | some x => if c x < c k then some k else some x) none

/-- Slot positions, at x8, until the next slot of an owner begins on a port (11 R481; log entry 69). -/
def slotWait (s : State) (o : SlotOwner) (k : Nat) : Nat :=
  let p := portAt s k
  let next := ceilDiv p.slotPos 64
  match (List.range 256).find? fun d => slotOwner s ((next + d) % 256) = some o with
  | some d => ((next + d) * 64 - p.slotPos) * 2 ^ p.width
  | none => 2 ^ 20

/-- The ports that a TC4 packet may take: those of a plan's slots that begin soonest; for another's packet the spec names no rule (11
R449, R481; log entry 19). -/
def tc4Ports (s : State) (plan : Option Nat) (ports : List Nat) : List Nat :=
  match plan with
  | none => ports
  | some h => ports.filter fun k => ports.all fun j => decide (slotWait s (.plan h) k ≤ slotWait s (.plan h) j)

/-- The port of a packet among a set; which one a TC4 packet takes of several that its rule leaves is a free choice (11 R449, R481;
log entry 19). -/
def choosePort (tc slots : Nat) (plan : Option Nat) (set : BitVec 64) (s : State) : State × Option Nat :=
  let ports := portsOf set
  if tc = 4 then
    let (s, i) := takeFree 1 s
    let l := tc4Ports s plan ports
    (s, l[Config.freeNat i % max 1 l.length]?)
  else
    match mostCredits s tc slots ports with
    | none => (s, none)
    | some k => (setRte (fun r => { r with lastPort := setNthD 63 tc k r.lastPort }) s, some k)

/-! Shapers (12 R498 to R503) -/

/-- The tenant's entry of the image. -/
def tenantOf (s : State) (tid : Nat) : Option TenantCfg := s.img.tenants.find? fun t => t.tid = tid

/-- A tenant runs in PARTITIONED mode (12 R502). -/
def isPart (s : State) (tid : Nat) : Bool := s.qos.parts.any fun p => p.tid = tid

/-- The image's shaper values of a tenant (03 R110). -/
def imgShp (s : State) (tid : Nat) : ShpCfg := (assoc tid s.img.shpOver).getD s.img.shpDefault

/-- The shaper values in effect for a tenant (12 R499). -/
def shpOf (s : State) (tid : Nat) : ShpCfg :=
  match s.qos.shp.find? fun x => x.tid = tid with
  | some x => x.now
  | none => imgShp s tid

/-- A tenant's bucket on a port; one that is not listed is full and holds nothing (12 R500). -/
def bucketAt (s : State) (k tid : Nat) : Bucket :=
  match s.qos.buckets.find? fun b => b.port = k && b.tid = tid with
  | some b => b
  | none => { port := k, tid := tid, tokens := (shpOf s tid).burst * 1024 }

/-- Put a bucket back; a full and empty one is not listed. -/
def putBucket (b : Bucket) (s : State) : State :=
  let rest := s.qos.buckets.filter fun x => !(x.port == b.port && x.tid == b.tid)
  if b.q.isEmpty && b.tokens == (shpOf s b.tid).burst * 1024 then setQos (fun q => { q with buckets := rest }) s
  else setQos (fun q => { q with buckets := rest ++ [b] }) s

/-- c of a packet: 64 B times its slots (12 R497). -/
def pktCost (p : Pkt) : Nat := 64 * (1 + p.pslots)

/-- Bytes that a bucket holds (12 R501). -/
def bucketBytes (b : Bucket) : Nat := sumBy pktCost b.q

/-- The queue of the weighted group of a tenant (12 R495). -/
def queueOf (s : State) (tid : Option Nat) : Nat :=
  match tid.bind (tenantOf s) with
  | some t => nth 0 s.img.svcQueue t.level
  | none => nth 0 s.img.svcQueue 0

/-- The order of an owner's classes within its slots (12 R503). -/
def partOrder (tc : Nat) : Nat := if tc = 1 then 0 else if tc = 0 then 1 else if tc = 3 then 2 else 3

/-- A packet of the module's own at a port's egress scheduler; one of TC4 leaves in the slots of its plan (11 R481; 12 R492, R493). -/
def ownEg (s : State) (tid plan : Option Nat) (p : Pkt) : EgPkt :=
  let e : EgPkt := { tc := p.tc, slots := 1 + p.pslots, arrived := s.now, pkt := some p }
  if p.tc = 4 then { e with rank := 0, queue := 4, owner := plan.map SlotOwner.plan }
  else if p.tc ≤ 1 then { e with rank := 2 }
  else { e with rank := 4, queue := queueOf s tid }

/-- Pass packets of a bucket while the head packet is eligible (12 R499). -/
def drainBucket (k tid : Nat) : Nat → State → State
  | 0, s => s
  | n + 1, s =>
    let b := bucketAt s k tid
    match b.q with
    | [] => s
    | p :: q =>
      let c := pktCost p + (shpOf s tid).overhead
      if c ≤ b.tokens then
        drainBucket k tid n (enqueue k (ownEg s (some tid) none p) (putBucket { b with tokens := b.tokens - c, q := q } s))
      else s

/-- A packet of the module's own reaches a port: an owner's packet, a shaped packet, or one that no shaper holds
(12 R498, R503). -/
def toPort (k : Nat) (tid plan : Option Nat) (p : Pkt) (s : State) : State :=
  match tid with
  | some t =>
    if isPart s t && decide (p.tc ≤ 3) then
      enqueue k { ownEg s tid plan p with rank := 0, queue := partOrder p.tc, owner := some (.tenant t) } s
    else if p.tc = 2 || p.tc = 3 then
      let b := bucketAt s k t
      drainBucket k t (b.q.length + 1) (putBucket { b with q := b.q ++ [p] } s)
    else enqueue k (ownEg s tid plan p) s
  | none => enqueue k (ownEg s tid plan p) s

/-- The controller core may release one more packet of a tenant to a port (12 R501). -/
def mayRelease (s : State) (k : Nat) (tid : Option Nat) (tc : Nat) : Bool :=
  match tid with
  | some t => isPart s t || !(tc == 2 || tc == 3) || decide (bucketBytes (bucketAt s k t) < (shpOf s t).burst * 1024)
  | none => true

/-! Peers and their sequence spaces (11 R461 to R468) -/

/-- The held or the provisional state of a node (11 R465). -/
def peerOf (s : State) (node : Nat) (prov : Bool) : Option Peer :=
  s.e2e.peers.find? fun p => p.node = node && p.prov = prov

/-- Change the state of a node. -/
def modPeer (node : Nat) (prov : Bool) (f : Peer → Peer) (s : State) : State :=
  setE2e (fun e => { e with peers := mapIf (fun p => p.node = node && p.prov = prov) f e.peers }) s

/-- One sequence space of a peer. -/
def spaceOf (p : Peer) (space : Bool) : Space := if space then p.sp1 else p.sp0

/-- Change one sequence space of a peer. -/
def modSpace (space : Bool) (f : Space → Space) (p : Peer) : Peer :=
  if space then { p with sp1 := f p.sp1 } else { p with sp0 := f p.sp0 }

/-- A node owes the module or is owed by it: a request context of it or towards it is open (11 R462). -/
def contextOf (s : State) (node : Nat) : Bool :=
  (s.vrb.waiting.any fun w => w.req.src = node)
    || (s.bulk.qs.any fun q => !q.descs.isEmpty && (q.cqNode = node || q.descs.any fun d => d.node = node))
    || (s.coh.msgs.any fun m => m.node = node) || (s.qos.held.any fun h => h.node = node)
    || (s.pool.revs.any fun r => r.node = some node) || (s.pool.mirTags.any fun t => t.2 = node)
    || (s.pool.anchors.any fun a => a.lender = node && s.pool.ancTags.any fun t => t.2 = a.idx)
    || (s.fe.plans.any fun p => match p.run with | some r => r.node == node | none => false)

/-- A space has nothing unacknowledged or held. -/
def spaceIdle (sp : Space) : Bool := sp.sent.isEmpty && sp.held.isEmpty && sp.queue.isEmpty

/-- A peer is idle (11 R462). -/
def peerIdle (s : State) (p : Peer) : Bool :=
  spaceIdle p.sp0 && spaceIdle p.sp1 && !contextOf s p.node && decide (p.last + 100000 ≤ s.now)

/-- Evict a peer's state (11 R462). -/
def evictPeer (node : Nat) (prov : Bool) (s : State) : State :=
  setE2e (fun e => { e with
    peers := e.peers.filter (fun p => !(p.node == node && p.prov == prov)), evict := satAdd 16 e.evict 1 }) s

/-- Add the state of a peer. -/
def addPeer (p : Peer) (s : State) : State :=
  setE2e (fun e => { e with peers := e.peers ++ [p], peersPeak := max e.peersPeak (e.peers.length + 1) }) s

/-- State for a new peer: a free one, the least recently used idle one, or none, in which case the least recently used
peer begins to drain (11 R462). -/
def newPeer (p : Peer) (s : State) : State × Bool :=
  if s.e2e.peers.length < 16384 then (addPeer p s, true)
  else match leastBy (fun q => q.last) (s.e2e.peers.filter (peerIdle s)) with
    | some q => (addPeer p (evictPeer q.node q.prov s), true)
    | none =>
      match leastBy (fun q => q.last) s.e2e.peers with
      | some q => (modPeer q.node q.prov (fun x => { x with draining := true }) s, false)
      | none => (s, false)

/-! Sessions (14 R566, R572, R577) -/

/-- The security state of a node. -/
def secOf (s : State) (node : Nat) : Option SecPeer := s.sec.peers.find? fun p => p.node = node

/-- A session with the node is open. -/
def hasSession (s : State) (node : Nat) : Bool :=
  match secOf s node with
  | some p => p.st == .active
  | none => false

/-- The node is blocked (14 R574). -/
def isBlocked (s : State) (node : Nat) : Bool :=
  match secOf s node with
  | some p => p.st == .blockedAuth || p.st == .blockedMgmt
  | none => false

/-- Change or add the security state of a node. -/
def modSec (node : Nat) (f : SecPeer → SecPeer) (s : State) : State :=
  setSec (fun c => { c with peers :=
    if (c.peers.any fun p => p.node = node) then mapIf (fun p => p.node = node) f c.peers
    else c.peers ++ [f { node := node }] }) s

/-- Handshakes that run (14 R566). -/
def handshakes (s : State) : Nat := countIf (fun p => p.st == .handshake) s.sec.peers

/-- Sessions that are open. -/
def sessions (s : State) : Nat := countIf (fun p => p.st == .active) s.sec.peers

/-! Numbering and transmission (11 R456, R461 to R478) -/

/-- The network and end-to-end header of a packet of a peer (11 R444, R451, R456, R466, R471, R477). -/
def header (s : State) (p : Peer) (space : Bool) (tc seq : Nat) (retx : Bool) (b : Body) : Pkt :=
  let sp := spaceOf p space
  { tc := tc, epoch := s.rte.sel, pslots := bodySlots b, hops := 12, opening := sp.opening,
    ackV := !sp.opening && sp.rcvOn, incV := p.incOk, space := space, retx := retx, ece := sp.ece,
    dst := p.node, src := s.glb.node, srcInc := incarnation s, dstInc := p.inc, seq := seq,
    ack := if sp.opening then (match sp.sent with | x :: _ => x.seq | [] => seq) else (sp.rcvExp + 65535) % 65536,
    body := b }

/-- A packet of a peer has gone out: what it acknowledged is no longer due (11 R471, R477). -/
def acked (space : Bool) (p : Peer) : Peer :=
  modSpace space (fun sp => if sp.opening then { sp with ece := false }
    else { sp with dlv := 0, ackNow := false, ece := false }) p

/-- LOAD of a tenant in the current interval (06 R252). -/
def loadOf (s : State) (tid : Nat) : Nat :=
  match s.vrb.load.find? fun l => l.tid = tid with
  | some l => l.load
  | none => 0

/-- A body as it leaves: a response or event carries the LOAD of the interval it leaves in (06 R252). -/
def bodyNow (s : State) (b : Body) : Body :=
  match b with
  | .resp r => .resp { r with load := loadOf s r.tid }
  | b => b

/-- Give a packet its number and send it on a port of its effective spray set; with no port it stays unacknowledged
(11 R450, R461, R473). -/
def transmit (p : Peer) (space : Bool) (q : QPkt) (port : Option Nat) (s : State) : State :=
  let sp := spaceOf p space
  let q := { q with body := bodyNow s q.body }
  let sealed := hasSession s p.node && !q.plain
  let (s, c) := if sealed then takeFree (44 + 64 * bodySlots q.body) s else (s, 0)
  let h := { header s p space q.tc sp.sndNext false q.body with sealed := sealed, sealOk := sealed, cipher := c }
  let rec' : SentPkt := { seq := sp.sndNext, tc := q.tc, tid := q.tid, body := q.body, plan := q.plan, sentAt := s.now,
                          sealed := sealed, cipher := c }
  let s := modPeer p.node p.prov (fun p => acked space (modSpace space (fun sp => { sp with
    sndNext := (sp.sndNext + 1) % 65536, sent := sp.sent ++ [rec'] }) { p with last := s.now })) s
  let s := if hasSession s p.node && !p.prov then
      modSec p.node (fun x => { x with txN := modNth (b2n space) (fun n => n + 1) x.txN }) s else s
  match port with
  | some k => toPort k q.tid q.plan h s
  | none => s

/-- 2^32 packets have gone under one sending key: nothing further is sent to the peer (14 R571). -/
def keySpent (s : State) (node : Nat) : Bool :=
  match secOf s node with
  | some x => x.st == .active && ((x.txN.zip x.txK).any fun y => decide (y.2 + 2 ^ 32 ≤ y.1))
  | none => false

/-- A packet of a queue may be numbered now by the window and CWND (11 R461, R478). -/
def mayNumber (p : Peer) (space : Bool) (q : QPkt) : Bool :=
  let n := (spaceOf p space).sent.length
  decide (n < 512) && (space || !(q.tc == 2 || q.tc == 3) || decide (n < p.cwnd))

/-- A response to a LOAD. -/
def isLoadResp (b : Body) (tag : BitVec 32) : Bool :=
  match b with
  | .resp r => r.opcode == 0x01 && r.tag == tag
  | _ => false

/-- The response to a LOAD of a node, by its TAG, has not been numbered: it waits for CWND or a shaper, or until D_P (06 R256). -/
def respWaits (s : State) (node : Nat) (tag : BitVec 32) : Bool :=
  (match peerOf s node false with | some p => p.sp0.queue.any fun q => isLoadResp q.body tag | none => false)
    || s.qos.held.any fun h => h.node = node && isLoadResp h.q.body tag

/-- TAGs of the LOADs of a node whose responses have not been numbered: what is sent now must leave after them (06 R256). -/
def respsAhead (s : State) (node : Nat) : List (BitVec 32) :=
  ((match peerOf s node false with | some p => p.sp0.queue.map QPkt.body | none => [])
    ++ (s.qos.held.filter fun h => h.node = node).map fun h => h.q.body).filterMap fun b => match b with
      | .resp r => if r.opcode == 0x01 then some r.tag else none
      | _ => none

/-- Number and send what may go of a space's queue, oldest first; n bounds the packets tried (11 R478; 12 R501). -/
def pumpSpaceN (node : Nat) (prov space : Bool) : Nat → List QPkt → State → State
  | 0, _, s => s
  | _, [], s => s
  | n + 1, q :: rest, s =>
    match peerOf s node prov with
    | none => s
    | some p =>
      if p.draining || keySpent s node || !mayNumber p space q || q.behind.any (respWaits s node) then pumpSpaceN node prov space n rest s
      else
        let s0 := critRead 0x00 s
        let (s1, port) := choosePort q.tc (1 + bodySlots q.body) q.plan (liveSet s0 s0.rte.sel (groupOf node)) s0
        if (match port with | some k => mayRelease s1 k q.tid q.tc | none => true) then
          let s2 := modPeer node prov (modSpace space fun sp => { sp with
            queue := eraseFirst (fun x => x == q) sp.queue }) s1
          pumpSpaceN node prov space n rest (transmit p space q port s2)
        else
          let s2 := if q.held then s1 else
            setQos (fun c => { c with shpFull := satAdd 16 c.shpFull 1 })
              (modPeer node prov (modSpace space fun sp => { sp with
                queue := mapIf (fun x => x == q) (fun x => { x with held := true }) sp.queue }) s1)
          pumpSpaceN node prov space n rest s2

/-- Number and send what may go of a space. -/
def pumpSpace (node : Nat) (prov space : Bool) (s : State) : State :=
  match peerOf s node prov with
  | none => s
  | some p => pumpSpaceN node prov space (spaceOf p space).queue.length (spaceOf p space).queue s

/-- Messages of a node wait for responses to leave (06 R256). -/
def anyBehind (node : Nat) (prov : Bool) (s : State) : Bool :=
  match peerOf s node prov with
  | none => false
  | some p => p.sp0.queue.any fun q => !q.behind.isEmpty

/-- Number and send what may go of both spaces of a peer; what waited for a response that has gone follows it (06 R256). -/
def pumpPeer (node : Nat) (prov : Bool) (s : State) : State :=
  let s := pumpSpace node prov false s
  pumpSpace node prov true (if anyBehind node prov s then pumpSpace node prov false s else s)

/-- Hand a packet for a node to the end-to-end layer (11 R461, R462). -/
def sendQ (node : Nat) (prov space : Bool) (q : QPkt) (s : State) : State :=
  let (s, ok) := match peerOf s node prov with
    | some p => (s, !p.draining)
    | none => newPeer { node := node, prov := prov, last := s.now } s
  if ok then
    pumpPeer node prov (modPeer node prov (modSpace space fun sp => { sp with queue := sp.queue ++ [q] }) s)
  else setE2e (fun e => { e with waitOut := e.waitOut ++ [(node, q)] }) s

/-- Packets that waited for a peer's state try again (11 R462). -/
def pumpWaitOut (s : State) : State :=
  s.e2e.waitOut.foldl (fun s x => sendQ x.1 false (match x.2.body with | .stream _ => true | _ => false) x.2 s)
    (setE2e (fun e => { e with waitOut := [] }) s)

/-- The TAG of the next message that the module originates (06 R236; log entry 8). -/
def freshTag (s : State) : State × Nat :=
  (setCoh (fun c => { c with nextTag := (c.nextTag + 1) % 2 ^ 32 }) s, s.coh.nextTag)

/-- An SPDM request of the module as requester, in QUERY_CAPS with SUBOP 1 (14 R565, R577). -/
def sendSpdm (node : Nat) (msg : List Byte) (s : State) : State :=
  let (s, tag) := freshTag s
  sendQ node false false { tc := 2, body := .req {
    tc := 2, opcode := 0x7F, subop := 1, len := BitVec.ofNat 16 msg.length, tag := BitVec.ofNat 32 tag, payload := msg } } s

/-- Open a session as requester where none is open or being opened: it begins with GET_VERSION (14 R564, R577). -/
def openSession (node : Nat) (s : State) : State :=
  match secOf s node with
  | some p => if p.st == .none && decide (handshakes s < 256) then
      sendSpdm node [0x10, 0x84, 0, 0] (modSec node (fun p => { p with
        st := .handshake, requester := true, negotiated := 0, last := s.now }) s)
    else s
  | none => if decide (handshakes s < 256) then
      sendSpdm node [0x10, 0x84, 0, 0] (modSec node (fun p => { p with
        st := .handshake, requester := true, last := s.now }) s)
    else s

/-- Send a request, event or message to a node, opening a session first where there is none (14 R577). -/
def sendMsg (node : Nat) (space : Bool) (q : QPkt) (s : State) : State :=
  if hasSession s node then sendQ node false space q s
  else if isBlocked s node then setSec (fun c => { c with noSession := satAdd 16 c.noSession 1 }) s
  else openSession node (setSec (fun c => { c with toOpen := c.toOpen ++ [(node, q)] }) s)

/-- The messages that waited for a session go out (14 R577). -/
def flushToOpen (node : Nat) (s : State) : State :=
  (s.sec.toOpen.filter fun x => x.1 = node).foldl
    (fun s x => sendQ node false (match x.2.body with | .stream _ => true | _ => false) x.2 s)
    (setSec (fun c => { c with toOpen := c.toOpen.filter fun x => x.1 ≠ node }) s)

/-! Events (06 R251, R680) -/

/-- An event addressed to one node (06 R223, R251). -/
def event (node evt : Nat) (st : Status) (tid obj r0 r1 r2 : Nat) (s : State) : State :=
  sendMsg node false { tc := 1, tid := some tid, body := .resp {
      opcode := 0x80, status := st, load := loadOf s tid, evt := BitVec.ofNat 8 evt, tid := tid,
      obj := BitVec.ofNat 32 obj, r0 := w64 r0, r1 := w64 r1, r2 := w64 r2 } } s

/-- A node is covered by a grant of a list (06 R680). -/
def covered (grants : List Grant) (node : Nat) : Bool :=
  grants.any fun g => decide (g.first ≤ node) && decide (node < g.first + g.nodes)

/-- The nodes covered by grants that hold an open session, ascending (06 R680). -/
def fanNodes (s : State) (grants : List Grant) : List Nat :=
  sortBy (fun a b => a ≤ b) ((s.sec.peers.filter fun p => p.st == .active && covered grants p.node).map SecPeer.node)

/-- An event to every covered node with an open session (06 R680). -/
def fanOut (grants : List Grant) (evt : Nat) (st : Status) (tid obj r0 r1 r2 : Nat) (s : State) : State :=
  (fanNodes s grants).foldl (fun s n => event n evt st tid obj r0 r1 r2 s) s

end Sys2Proof.Machine
end

