-- ==== Sys2Proof/Machine/Reset.lean ====
section
/-! DEFINITION. Module reset with what Belay keeps of it, the alert pin, and the wake from Bivouac (01_architecture R38;
02_startup_and_loss R47, R66 to R68, R76 to R79; 15_control_belay_faults R614, R618, R626; 16_connectors_and_power R635, R646). -/

namespace Sys2Proof.Machine

/-- The module runs and can leave (02 R73). -/
def running (s : State) : Bool :=
  match s.boot.st with
  | .training | .backoff | .poolOpen | .forwardOnly | .bivouac => true
  | _ => false

/-- The controller core is out of reset: Cairn holds records of this incarnation. -/
def coreOn (s : State) : Bool := !(s.boot.st == .held || s.boot.st == .heldShutdown)

/-- A hold that keeps the main converter off (02 R66). -/
def shutdownHold (h : Hold) : Bool := h == .orderly || h == .emergency || h == .enLow

/-- The conditions under which BELAY_ALERT_N is low (15 R618). -/
def alertLow (s : State) : Bool :=
  (s.bel.chans.any fun c => c.level != .none) || s.boot.st == .noImage || s.boot.st == .heldShutdown
    || shutdownHold s.pwr.hold

/-- Drive BELAY_ALERT_N (15 R618). -/
def alertPin (s : State) : State :=
  if alertLow s = s.bel.pinLow then s
  else emit (.alertPin (alertLow s)) (setBel (fun b => { b with pinLow := alertLow s }) s)

/-! Retention memory (02 R68; 15 R626) -/

/-- Records newest first by TIME_US. -/
def newestFirst (l : List CairnRec) : List CairnRec := sortBy (fun a b => decide (b.timeUs.toNat ≤ a.timeUs.toNat)) l

/-- Belay writes an EMERG record into its retention memory (15 R614, R626). -/
def emergRecord (ch : Nat) (v : Int) (s : State) : State :=
  let r : CairnRec := { mkRec 0x0A 4 ch ((v % 2 ^ 64).toNat) 0 s with flags := 7 }
  let s := if s.crn.retOwn then s else
    setCrn (fun c => { c with ret := [], retBoot := s.boot.count, retOwn := true }) s
  setCrn (fun c => { c with ret := newestFirst ((r :: c.ret).take 64) }) s

/-- The copy at a module reset: Belay's own records, then the newest queued critical ones up to 64 (02 R68; 15 R626). -/
def retentionCopy (s : State) : State :=
  if coreOn s then
    let own := if s.crn.retOwn then s.crn.ret else []
    let crit := (s.crn.q.filter fun r => critical r.cls r.kind).reverse.take (64 - own.length)
    setCrn (fun c => { c with
      ret := newestFirst (own ++ crit.map fun r => { r with flags := r.flags ||| 2 })
      retBoot := s.boot.count }) s
  else s

/-! Module reset -/

/-- Laser banks at a module reset: no bank stays FAILED (16 R646; log entry 35). -/
def laserReset (p : Pwr) : Pwr :=
  match p.laserA, p.laserB with
  | .failed, .failed => { p with laserA := .active, laserB := .standby }
  | .failed, _ => { p with laserA := .standby }
  | _, .failed => { p with laserB := .standby }
  | _, _ => p

/-- The stack positions before training: which hold a stack is the variant's (00 R2). -/
def freshStacks (s : State) : List Stk := (List.range 32).map fun k => { fitted := decide (k < stackCount s) }

/-- A module reset with a cause and what then holds the module (02 R66, R67; 16 R635): everything but the Belay island goes to
its reset value; a shutdown hold turns the main converter off. -/
def resetModule (cause : Nat) (hold : Hold) (s : State) : State :=
  let s := retentionCopy s
  let off := shutdownHold hold
  alertPin { ({} : State) with
    pwr := { laserReset s.pwr with
      txDark := true, hold := hold, permit := false, offSeen := off && !s.pwr.en
      mainOn := s.pwr.mainOn && !off, pgood := s.pwr.pgood && !off, heldAt := s.now
      stackSw := BitVec.ofNat 32 (2 ^ stackCount s - 1) }
    fuse := { s.fuse with pending := 0 }
    flash := s.flash
    boot := { cause := cause, count := s.boot.count, restarts := s.boot.restarts, powerOnStart := s.boot.powerOnStart }
    isl := { belayOn := s.isl.belayOn }
    crn := { ret := s.crn.ret, retBoot := s.crn.retBoot, retOwn := s.crn.retOwn }
    bel := s.bel
    onx := { keySeed := s.onx.keySeed }
    stks := freshStacks s
    pending := s.pending, now := s.now, busyAt := s.now, free := s.free, out := s.out }

/-- Belay itself has stopped: a module reset after a loss of its heartbeats is 10 ms old and Belay has not restarted the module
(01 R38). -/
def belayStops (s : State) : State :=
  if s.pwr.hold = .module && s.boot.cause = 7 && decide (s.pwr.heldAt + 10000000 < s.now) then
    setIsl (fun i => { i with belayOn := false }) s
  else s

/-! The wake from Bivouac (02 R76 to R79) -/

/-- The module leaves Bivouac (02 R76 to R78). -/
def wakeUp (src : Nat) (s : State) : State :=
  let s := setBoot (fun b => { b with st := .poolOpen, wakeSrc := src }) s
  let s := (List.range 64).foldl (fun s k => if (portAt s k).lpiTx then
      payReturns k (sendCtl k .lpiExit (modPort k (fun p => { p with lpiTx := false }) s)) else s) s
  { s with stks := s.stks.map fun x => { x with selfRef := false } }

/-- Both processors hold a copy of the control state, and their checksums differ at a wake that no command says more of: a free
value decides (02 R79; log entry 41). -/
def wakeDiffers (s : State) : State × Bool :=
  let up := fun (p : Cp) => p.st == .lead || p.st == .second
  let (s, i) := takeFree 1 s
  (s, up s.cp.cp0 && up s.cp.cp1 && Config.freeNat i % 2 == 1)

/-- A wake up to the comparison of the two checksums, with the reset where they differ (02 R77 to R79). -/
def wakeChecked (src : Nat) (s : State) : State :=
  let (s, bad) := wakeDiffers s
  if bad then resetModule 6 .module s else wakeUp src s

/-- A management packet that arrives in Bivouac wakes the module (02 R77). -/
def mgmtWake (s : State) : State := if s.boot.st = .bivouac then wakeChecked 2 s else s

end Sys2Proof.Machine
end

