-- ==== Sys2Proof/Machine/MgmtOps.lean ====
section
/-! DEFINITION. How a management verb is served: its session, its role and its answer (14_security_and_isolation R583 to R586,
02_startup_and_loss R52, 17_register_map R656, R672). -/

namespace Sys2Proof.Machine

/-- The MAC address of a management port: port 1 has the fused one plus 1 (16 R642). -/
def portMac (s : State) (port : Nat) : BitVec 48 := s.fuse.mac0 + BitVec.ofNat 48 port

/-- The IPv6 link-local address of a management port, from its MAC address by the interface identifier of 64 bits that IPv6 over
Ethernet forms: PRESUMED (03 R112; log entry 37). -/
def linkLocal (s : State) (port : Nat) : List Byte :=
  let m := be 6 (portMac s port).toNat
  [0xFE, 0x80, 0, 0, 0, 0, 0, 0] ++ (slice m 0 1).map (fun b => b ^^^ 2) ++ slice m 1 2 ++ [0xFF, 0xFE] ++ slice m 3 3

/-- The addresses of a management port: the link-local one always, and that of its MGMT_NET entry where it has one, never in
NO_IMAGE, where no image is loaded (03 R112; 16 R642). -/
def portAddrs (s : State) (port : Nat) : List (List Byte) :=
  match s.img.net[port]? with
  | some n => if n.family = 0 then [linkLocal s port]
      else [linkLocal s port, if n.family = 1 then n.addr.take 4 else n.addr]
  | none => [linkLocal s port]

/-- An open session by its name. -/
def sessAt (s : State) (id : Nat) : Option Sess := s.mgmt.sess.find? fun x => x.id = id

/-- What a management verb needs (14 R585; 02 R52): either role, OPERATOR or the factory session, or OPERATOR. -/
inductive Need
  | read | stage | operator
deriving DecidableEq, Repr

/-- A session may run a verb (14 R585; 02 R52). -/
def mayRun (x : Sess) (n : Need) : Bool :=
  match n with
  | .read => true
  | .stage => x.role == .operator || x.factory
  | .operator => x.role == .operator && !x.factory

/-- Answer a management verb on its session. -/
def mgmtReply (sess : Nat) (st : Status) (data : List (BitVec 64)) (s : State) : State := emit (.mgmt sess st data) s

/-- A register access of management that completes with DENIED (17 R672). -/
def mgmtDenied (sess : Nat) (s : State) : State :=
  mgmtReply sess .denied [] { s with glb := { s.glb with mgmtDenied := satAdd 16 s.glb.mgmtDenied 1 } }

/-- Serve a management verb: its session is in use, and a session without the role is denied (14 R585, R586). A command
on no open session has no other effect than the wake of a module in Bivouac, which comes first (02 R77). -/
def withSess (sess t : Nat) (n : Need) (f : State → State) (s : State) : State :=
  let s := mgmtWake (noteStep4 (atTime t s))
  match sessAt s sess with
  | none => s
  | some x =>
    let s := setMgmt (fun m => { m with
      sess := mapIf (fun y => y.id = sess) (fun y => { y with lastUse := s.now }) m.sess }) s
    if mayRun x n then f s else mgmtReply sess .denied [] s

/-- Serve a register write of management: one without the role counts as an access denied (14 R585; 17 R672). -/
def withWrite (sess t : Nat) (f : State → State) (s : State) : State :=
  let s := mgmtWake (noteStep4 (atTime t s))
  match sessAt s sess with
  | none => s
  | some x =>
    let s := setMgmt (fun m => { m with
      sess := mapIf (fun y => y.id = sess) (fun y => { y with lastUse := s.now }) m.sess }) s
    if mayRun x .operator then f s else mgmtDenied sess s

end Sys2Proof.Machine
end

