-- ==== Sys2Proof/Machine/Operands.lean ====
section
/-! DEFINITION. The operand forms of the verbs: the fields of a verb area (06_pool_verbs R222), table look-ups, the checks of
an access and its translation into parts (04_pool_memory R129 to R140). -/

namespace Sys2Proof.Machine

/-! Fields of a request (06 R222) -/

/-- TID[11:0]. -/
def reqTid (r : Req) : Nat := r.tid.toNat % 4096
/-- The window handle, INDEX[15:0] and GEN[23:16]. -/
def reqWin (r : Req) : Nat := r.win.toNat % 2 ^ 24
/-- CTL[31]: the tenant register page. -/
def reqCtl (r : Req) : Bool := r.win.getLsbD 31
/-- FLAGS.CACHED. -/
def reqCached (r : Req) : Bool := r.flags.getLsbD 0
/-- FLAGS.INTENT is M; the codes 0, 2 and 3 stand for S. -/
def reqIntentM (r : Req) : Bool := r.flags.toNat / 2 % 4 == 1
/-- FLAGS.SEND_EVT. -/
def reqSendEvt (r : Req) : Bool := r.flags.getLsbD 3
/-- FLAGS.DOORBELL. -/
def reqDoorbell (r : Req) : Bool := r.flags.getLsbD 4
/-- Payload slots of a request. -/
def reqSlots (r : Req) : Nat := ceilDiv r.payload.length 64
/-- LEN. -/
def reqLen (r : Req) : Nat := r.len.toNat
/-- VA. -/
def reqVa (r : Req) : Nat := r.va.toNat
/-- OPERAND0. -/
def op0 (r : Req) : Nat := r.op0.toNat
/-- OPERAND1. -/
def op1 (r : Req) : Nat := r.op1.toNat

/-- The length of one 2 MiB unit. -/
def unit2M : Nat := 2 ^ 21

/-! Tables (04 R129) -/

/-- A region by its index. -/
def regionAt (s : State) (i : Nat) : Option Region := s.pool.regions.find? fun g => g.idx = i

/-- Change a region. -/
def modRegion (i : Nat) (f : Region → Region) (s : State) : State :=
  setPool (fun p => { p with regions := mapIf (fun g => g.idx = i) f p.regions }) s

/-- A window by its index. -/
def windowAt (s : State) (i : Nat) : Option Window := s.pool.windows.find? fun w => w.idx = i

/-- Change a window. -/
def modWindow (i : Nat) (f : Window → Window) (s : State) : State :=
  setPool (fun p => { p with windows := mapIf (fun w => w.idx = i) f p.windows }) s

/-- A window's handle (04 R134). -/
def handleOf (w : Window) : Nat := w.idx + 2 ^ 16 * w.gen

/-- The window that a handle names while its index and generation match (04 R135 step 1). -/
def windowOf (s : State) (h : Nat) : Option Window :=
  match windowAt s (h % 2 ^ 16) with
  | some w => if w.gen = h / 2 ^ 16 % 256 then some w else none
  | none => none

/-- An anchor by its index. -/
def anchorAt (s : State) (i : Nat) : Option Anchor := s.pool.anchors.find? fun a => a.idx = i

/-- Change an anchor. -/
def modAnchor (i : Nat) (f : Anchor → Anchor) (s : State) : State :=
  setPool (fun p => { p with anchors := mapIf (fun a => a.idx = i) f p.anchors }) s

/-- The grants in use of a window (04 R133). -/
def grantsOf (w : Window) : List Grant := w.grants.filterMap id |>.filter fun g => 0 < g.nodes

/-- The windows of a region. -/
def windowsOf (s : State) (i : Nat) : List Window := s.pool.windows.filter fun w => w.region = i

/-- The grants that serve a request by its place in core-merge order: those in use, and those revoked since its admission
(04 R172). -/
def grantsFor (w : Window) (ord : Nat) : List Grant :=
  grantsOf w ++ (w.gone.filter fun x => decide (ord < x.2)).map Prod.fst

/-- A revocation of the window or the region had begun when a request was admitted (04 R171). -/
def revokedFor (w : Window) (g : Region) (ord : Nat) : Bool :=
  (w.revoking && decide (w.revOrd ≤ ord)) || (g.st == .revoking && decide (g.revOrd ≤ ord))

/-- The grants of all windows of a region. -/
def regionGrants (s : State) (i : Nat) : List Grant := ((windowsOf s i).map grantsOf).flatten

/-- A grant names the tenant, includes the node and holds the rights (04 R135 step 4). -/
def grantFits (tid node rights : Nat) (g : Grant) : Bool :=
  g.tid == tid && decide (g.first ≤ node) && decide (node < g.first + g.nodes)
    && decide (g.rights.toNat &&& rights = rights)

/-- Rights: R in bit 0, W in bit 1, A in bit 2 (04 R133). -/
def rightR : Nat := 1
/-- W. -/
def rightW : Nat := 2
/-- A. -/
def rightA : Nat := 4

/-- A region is sealed while it holds an object (09 R357). -/
def sealedRegion (s : State) (i : Nat) : Bool :=
  (s.ws.sets.any fun x => x.region = i) || (s.kv.objs.any fun x => x.region = i)

/-- The object region that a WS_LOAD or KV_CREATE names (09 R368, R383). -/
def objField (w : Waiting) : Nat := if w.op = 0x38 then field w.req.payload 4 2 else field w.req.payload 0 2

/-- A region may hold objects of a tenant (09 R356). -/
def objRegion (s : State) (tid i : Nat) : Option Region :=
  match regionAt s i with
  | some g => if g.owner = tid && (g.mode = .priv || g.mode = .uncached) && g.exts.all (fun x => x.anchor.isNone)
      then some g else none
  | none => none

/-- A bulk descriptor or a running plan may still write to a region: the first object waits (09 R357). -/
def sealBusy (s : State) (i : Nat) : Bool :=
  let inG := fun (h : Nat) => match windowAt s (h % 2 ^ 16) with | some x => x.region == i | none => false
  (s.bulk.qs.any fun q => q.descs.any fun x => (x.phase = .queued || x.phase = .running)
      && (x.d.op = 1 || x.d.op = 2 || x.d.op = 4) && inG x.d.dstWin)
    || (s.fe.plans.any fun p => match p.run with
      | some r => r.args.any fun a => (a.kind == 1 || a.kind == 2) && inG a.win
      | none => false)

/-- A region is sealed for a request by an earlier admitted WS_LOAD or KV_CREATE that passes its check (09 R357). -/
def sealPending (s : State) (i ord : Nat) : Bool :=
  s.vrb.waiting.any fun w => (w.op = 0x38 || w.op = 0x40) && decide (w.ord < ord) && objField w = i
    && (objRegion s (reqTid w.req) i).isSome && !w.sealLate

/-- A tenant's key slot has failed (14 R563). -/
def keyFailed (s : State) (tid : Nat) : Bool := s.onx.tkeys.any fun k => k.tid = tid && k.st = .failed

/-! Translation (04 R137 to R139) -/

/-- log2 of the granule of an interleaved region (04 R143). -/
def granBits (g : Region) : Nat := if g.ilv = 1 then 16 else if g.ilv = 2 then 21 else 12

/-- The extent of a byte of a region: its number, the extent and the offset within it (04 R137, R138). -/
def selectExt (g : Region) (o : Nat) : Option (Nat × Extent × Nat) :=
  if g.inter then
    let b := granBits g
    let n := g.exts.length
    let e := o / 2 ^ b % max 1 n
    (g.exts[e]?).map fun x => (e, x, o / 2 ^ b / max 1 n * 2 ^ b + o % 2 ^ b)
  else
    match ((List.range g.exts.length).zip g.exts).find? fun p =>
      decide (p.2.start * unit2M ≤ o) && decide (o < (p.2.start + p.2.len) * unit2M) with
    | some p => some (p.1, p.2, o - p.2.start * unit2M)
    | none => none

/-- Bytes from a region offset to the next extent boundary or granule (04 R139). -/
def runLen (g : Region) (o : Nat) : Nat :=
  if g.inter then 2 ^ granBits g - o % 2 ^ granBits g
  else match selectExt g o with
    | some (_, x, d) => x.len * unit2M - d
    | none => 1

/-- One part of an access: where it lies in the access and in the region, and where its bytes are (04 R139). -/
structure Part where
  /-- Offset within the access. -/
  pos : Nat := 0
  /-- Offset within the region. -/
  o : Nat := 0
  /-- Bytes. -/
  len : Nat := 0
  /-- Extent number. -/
  ext : Nat := 0
  /-- Offset within the extent. -/
  ofs : Nat := 0
  /-- The extent. -/
  x : Extent := {}
deriving DecidableEq, Repr

/-- The physical address of a byte of a local extent (04 R126, R137). -/
def paOf (x : Extent) (ofs : Nat) : Nat := x.stack * 2 ^ 36 + x.base * unit2M + ofs

/-- The first address of a part. -/
def partPa (p : Part) : Nat := paOf p.x p.ofs

/-- The parts of an access of len bytes at region offset o; n bounds their number (04 R139). -/
def partsN (g : Region) : Nat → Nat → Nat → Nat → List Part
  | 0, _, _, _ => []
  | n + 1, pos, o, len =>
    if len = 0 then []
    else match selectExt g o with
      | none => []
      | some (e, x, d) =>
        let k := min len (runLen g o)
        { pos := pos, o := o, len := k, ext := e, ofs := d, x := x } :: partsN g n (pos + k) (o + k) (len - k)

/-- The parts of an access. -/
def partsOf (g : Region) (o len : Nat) : List Part := partsN g (len / 4096 + 2) 0 o len

/-- Cut a part at line boundaries of 128 B. -/
def linesN : Nat → Part → List Part
  | 0, _ => []
  | n + 1, p =>
    let k := min p.len (128 - p.ofs % 128)
    if p.len = 0 then []
    else { p with len := k } :: linesN n { p with pos := p.pos + k, o := p.o + k, ofs := p.ofs + k, len := p.len - k }

/-- The lines of a part. -/
def linesOf (p : Part) : List Part := linesN (p.len / 128 + 2) p

/-- The result of the checks of an access: a status, or the window, the region and the region offset. -/
inductive Access
  | bad (st : Status)
  | ok (w : Window) (g : Region) (o : Nat)
deriving DecidableEq, Repr

/-- Steps 1 and 2 of 04 R135 for a request of a tenant by its place in core-merge order. -/
def windowAccess (s : State) (ord h tid : Nat) : Access :=
  match windowOf s h with
  | none => .bad .noMapping
  | some w =>
    if w.bad then .bad .poisoned
    else if w.owner ≠ tid && !((grantsFor w ord).any fun g => g.tid = tid) then .bad .noMapping
    else match regionAt s w.region with
      | none => .bad .noMapping
      | some g =>
        if revokedFor w g ord then .bad .revoked
        else if g.st = .fenced then .bad .nodeLost
        else if g.st = .shadow then .bad .noMapping
        else .ok w g 0

/-- Steps 1 to 4 of 04 R135 for a request of a tenant from a node, with the seal of 09 R357. The request's place in core-merge
order says which revocations it came before: those let it complete normally (04 R171, R172). -/
def checkAccess (s : State) (ord h tid node va len rights : Nat) : Access :=
  match windowAccess s ord h tid with
  | .bad st => .bad st
  | .ok w g _ =>
    if va < w.vaBase * unit2M || (w.vaBase + w.len) * unit2M < va + len then .bad .noMapping
    else if !((grantsFor w ord).any (grantFits tid node rights)) then .bad .denied
    else if rights &&& 6 ≠ 0 && (sealedRegion s g.idx || sealPending s g.idx ord) then .bad .denied
    else .ok w g (va - w.vaBase * unit2M + w.regOfs * unit2M)

/-- Step 5 of 04 R135 for one part, with marked extent entries (13 R527) and failed keys (14 R563). A request that came before
the reclaim of an anchor completes normally (04 R165). -/
def partStatus (s : State) (ord owner : Nat) (p : Part) : Status :=
  if p.x.bad then .poisoned
  else match p.x.anchor with
    | some a => match anchorAt s a with
      | some a => if a.st = .lost then .nodeLost else if a.st = .revoking && decide (a.revOrd ≤ ord) then .revoked
        else if keyFailed s owner then .poisoned else .ok
      | none => .nodeLost
    | none => if p.x.lost then .poisoned else if keyFailed s owner then .poisoned else .ok

/-- The most severe of two statuses: the higher code (06 R253). -/
def worse (a b : Status) : Status := if a.code < b.code then b else a

/-- The extent that a PA lies in, if any. -/
def extentAtPa (s : State) (pa : Nat) : Option (Region × Nat × Extent) :=
  (s.pool.regions.findSome? fun g =>
    (((List.range g.exts.length).zip g.exts).find? fun p => p.2.anchor.isNone && p.2.stack == pa / 2 ^ 36
      && decide (p.2.base * unit2M ≤ pa % 2 ^ 36) && decide (pa % 2 ^ 36 < (p.2.base + p.2.len) * unit2M)).map
      fun p => (g, p.1, p.2))

/-! What a verb or a descriptor names (06 R230, R236, R245; 09 R361) -/

/-- A verb reads its WIN field as a window (06 R230, R236; 04 R676). -/
def usesWin (r : Req) : Bool :=
  let o := r.opcode.toNat
  (1 ≤ o && o ≤ 4) || o = 8 || o = 9 || o = 0x1C || (o = 0x1D && r.subop ≠ 2 && r.subop ≠ 3) || (0x28 ≤ o && o ≤ 0x2B)
    || o = 0x2F || o = 0x30 || o = 0x50

/-- A verb reaches a window by its WIN field. -/
def namesWin (r : Req) (h : Nat) : Bool := usesWin r && !reqCtl r && reqWin r == h

/-- A range of a window: handle, VA, length; a length of 0 goes to the end of the window. -/
structure WinRange where
  /-- Handle. -/
  h : Nat := 0
  /-- VA. -/
  va : Nat := 0
  /-- Bytes. -/
  len : Nat := 0
deriving DecidableEq, Repr

/-- The width of an ATOMIC (06 R233). -/
def atomicWidth (r : Req) : Nat := if r.subop.getLsbD 3 then 8 else 4

/-- The range that a memory verb or a hint names (06 R230 to R235; 04 R676). -/
def verbRange (r : Req) : List WinRange :=
  let o := r.opcode.toNat
  let at' := fun (n : Nat) => [{ h := reqWin r, va := reqVa r, len := n : WinRange }]
  if reqCtl r then []
  else if o = 1 then at' (if reqCached r then 128 else clampTo 1 2048 (reqLen r))
  else if o = 2 || o = 3 then at' (clampTo 1 (max 1 (64 * reqSlots r)) (reqLen r))
  else if o = 4 then at' (atomicWidth r)
  else if o = 8 || o = 9 then at' (clampTo 1 (2 ^ 40) (op0 r))
  else if o = 0x2B then at' 128
  else []

/-- The ranges of the parameter records of the weight-set and KV verbs, and of PLAN_LOAD, that they pin; what the record does
not give the length of goes to the end of its window (09 R368, R375, R387, R394; 07 R278). -/
def recRanges (r : Req) : List WinRange :=
  let p := r.payload
  let range := fun (h va : Nat) => { h := field p h 3, va := field p va 8 : WinRange }
  match r.opcode.toNat with
  | 0x38 => [range 0 8] | 0x39 => [range 0x0C 0x18, range 0x10 0x20] | 0x41 => [range 0x10 0x18]
  | 0x42 => [range 0x10 0x18, range 0x14 0x20] | 0x50 => [{ h := reqWin r, va := reqVa r }] | _ => []

/-- The ranges a descriptor names: window, VA, rights (06 R140, R245). -/
def descRanges (d : Desc) : List (Nat × Nat × Nat) :=
  let dst := (d.dstWin, d.dstVa.toNat, rightW)
  let src := (d.srcWin, d.srcVa.toNat, rightR)
  let src2 := (d.src2Win, d.src2Va.toNat, rightR)
  match d.op with
  | 1 => [dst] | 2 => [dst, src] | 3 => [src, src2] | 4 => [dst, src, src2] | _ => []

/-- Windows a descriptor pins (06 R241). -/
def descWins (d : Desc) : List Nat := (descRanges d).map Prod.fst

/-- The tenant whose limits an access counts against: the owner of the first window that it reaches under a foreign grant, in use
or revoked since its place in core-merge order (04 R151). -/
def ownerTid (s : State) (ord tid : Nat) (wins : List Nat) : Nat :=
  let foreign := fun (h : Nat) => (windowOf s h).bind fun w =>
    if w.owner ≠ tid && (grantsFor w ord).any (fun g => g.tid = tid) then some w.owner else none
  (wins.findSome? foreign).getD tid

/-- The tenant whose limits a request counts against. -/
def ctxTid (s : State) (ord : Nat) (r : Req) : Nat :=
  ownerTid s ord (reqTid r) ((if usesWin r && !reqCtl r then [reqWin r] else []) ++ (recRanges r).map WinRange.h)

/-! Leases of attached hosts (05 R188, R201) -/

/-- The live sharer slot of a node (05 R188, R189). -/
def slotOf (g : Region) (node : Nat) : Option Slot := g.slots.find? fun x => x.node = node && !x.dead

/-- A sharer slot by its number. -/
def slotAt (g : Region) (k : Nat) : Option Slot := g.slots.find? fun x => x.k = k

/-- Change a sharer slot. -/
def modSlot (g k : Nat) (f : Slot → Slot) (s : State) : State :=
  modRegion g (fun x => { x with slots := mapIf (fun y => y.k = k) f x.slots }) s

/-- LEASE_MS in nanoseconds (05 R201). -/
def leaseNs (s : State) : Nat := s.img.leaseMs * 1000000

/-- A coherence message from a host renews its lease as it arrives (05 R201). -/
def renewLease (g node : Nat) (s : State) : State :=
  match (regionAt s g).bind fun x => slotOf x node with
  | some x => modSlot g x.k (fun y => { y with deadline := s.now + leaseNs s }) s
  | none => s

/-- The kind of the message that an acknowledgement answers: 0 INVAL, 1 RECALL, 2 COH_REVOKE (06 R236). -/
def ackKind (o : Byte) : Nat := o.toNat - 0x2C

/-- The coherent region that a message of a host belongs to: by the message it acknowledges, or by its window (06 R236). -/
def cohRegionOf (s : State) (r : Req) : Option Nat :=
  let o := r.opcode.toNat
  if isAck r.opcode then
    (s.coh.msgs.find? fun m => m.kind = ackKind r.opcode && m.tag = r.tag.toNat && m.node = r.src).map CohMsg.region
  else if !reqCtl r && ((0x28 ≤ o && o ≤ 0x30) || (o = 1 && reqCached r)) then
    (windowOf s (reqWin r)).map Window.region
  else none

/-- A message of a host arrives: a coherence message renews its lease (05 R201). -/
def leaseArrival (r : Req) (s : State) : State :=
  match cohRegionOf s r with
  | some g => renewLease g r.src s
  | none => s

/-! Free indices and generations (04 R149; 06 R238; 07 R278; 09 R362) -/

/-- The record of an index of a table. -/
def genOf (s : State) (tab idx : Nat) : Option GenRec := s.pool.gens.find? fun g => g.tab = tab && g.idx = idx

/-- An index was freed at least 20 ms ago or has never been used (04 R149). -/
def indexRested (s : State) (tab idx : Nat) : Bool :=
  match genOf s tab idx with
  | none => true
  | some g => match g.freed with
    | none => false
    | some t => decide (t + 20000000 ≤ s.now)

/-- The generation that the next use of an index has: 0 at its first use (log entry 7), then one more, wrapping. -/
def nextGen (s : State) (tab idx : Nat) : Nat :=
  match genOf s tab idx with
  | none => 0
  | some g => (g.gen + 1) % 256

/-- Mark an index used with a generation. -/
def useIndex (tab idx gen : Nat) (s : State) : State :=
  let rest := s.pool.gens.filter fun g => !(g.tab == tab && g.idx == idx)
  setPool (fun p => { p with gens := ({ tab := tab, idx := idx, gen := gen, freed := none } : GenRec) :: rest }) s

/-- Mark an index freed now. -/
def freeIndex (tab idx : Nat) (s : State) : State :=
  setPool (fun p => { p with gens := mapIf (fun g => g.tab = tab && g.idx = idx) (fun g => { g with freed := some s.now }) p.gens }) s

end Sys2Proof.Machine
end

