-- ==== Sys2Proof/Machine/Fail.lean ====
section
/-! DEFINITION. Responses, the end of waiting requests, and what the loss of a unit does to the others: aborted runs, engines
that leave service, and the failure of a stack (06_pool_verbs R223, R228; 07 R291, R299, R305, R306; 13 R528). -/

namespace Sys2Proof.Machine

/-! Responses -/

/-- A response to a request with its status and the tenant's LOAD (06 R223, R252). -/
def mkResp (s : State) (r : Req) (st : Status) : Resp :=
  { opcode := effOpcode r.opcode, status := st, load := loadOf s (reqTid r), tid := reqTid r, tag := r.tag }

/-- The packet of a response: TC3 with payload, TC1 without (06 R221), and the tenant whose context it keeps until it is sent
(06 R228; 12 R501). -/
def respPkt (ctx : Option Nat) (p : Resp) : QPkt :=
  { tc := if p.payload.isEmpty then 1 else 3, tid := some p.tid, body := .resp { p with len := p.payload.length },
    ctx := ctx }

/-- Count a status in VRB_EVT (06 R260). -/
def countStatus (st : Status) (s : State) : State :=
  match st with
  | .denied => setVrb (fun v => { v with denied := satAdd 16 v.denied 1 }) s
  | .absent => setVrb (fun v => { v with absent := satAdd 16 v.absent 1 }) s
  | _ => s

/-- The tenant whose context an admitted request holds (06 R228). -/
def ctxFor (s : State) (r : Req) : Option Nat := if noContext r.opcode then none else some (ctxTid s 0 r)

/-- Send a response under the held or the provisional state of the requester (06 R224; 11 R465), with the context it keeps. -/
def sendRespAs (ctx : Option Nat) (prov : Bool) (r : Req) (p : Resp) (s : State) : State :=
  sendQ r.src prov false (respPkt ctx p) (countStatus p.status s)

/-- Send the response of an admitted request. -/
def sendResp (prov : Bool) (r : Req) (p : Resp) (s : State) : State := sendRespAs (ctxFor s r) prov r p s

/-- A response of a PARTITIONED tenant to LOAD, STORE, STORE_NOTIFY or ATOMIC is held until D_P (12 R505). -/
def heldUntilDp (s : State) (r : Req) : Bool :=
  isPart s (reqTid r) && decide (1 ≤ r.opcode.toNat) && decide (r.opcode.toNat ≤ 4)

/-- Answer a request admitted at a time (06 R224; 12 R505). -/
def answerAt (since : Nat) (r : Req) (p : Resp) (s : State) : State :=
  if heldUntilDp s r then
    let due := since + s.img.ageNs + 6000
    if due < s.now then
      sendResp false r p (setQos (fun q => { q with partLate := satAdd 16 q.partLate 1 }) s)
    else
      setQos (fun q => { q with held := q.held ++
        [{ tid := reqTid r, due := due, node := r.src, q := respPkt (ctxFor s r) p }] }) (countStatus p.status s)
  else sendResp false r p s

/-- Answer a request with a status alone. -/
def answer (since : Nat) (r : Req) (st : Status) (s : State) : State := answerAt since r (mkResp s r st) s

/-- A WS_LOAD ends without a resident set: everything it allocated is freed (09 R369). -/
def dropLoading (w : Waiting) (s : State) : State :=
  setWs (fun c => { c with sets := c.sets.filter fun x => x.loader ≠ some w.ord }) s

/-- A waiting request completes: it leaves the contexts and its response is sent (06 R228). -/
def complete (w : Waiting) (p : Resp) (s : State) : State :=
  answerAt w.since w.req p (dropLoading w (setVrb (fun v => { v with waiting := eraseFirst (fun x => x == w) v.waiting }) s))

/-- A waiting request completes with a status alone. -/
def completeSt (w : Waiting) (st : Status) (s : State) : State := complete w (mkResp s w.req st) s

/-- Complete every waiting request that satisfies a test. -/
def completeAll (p : Waiting → Bool) (st : Status) (s : State) : State :=
  (s.vrb.waiting.filter p).foldl (fun s w => completeSt w st s) s

/-! Output that becomes undefined -/

/-- The shadow unit of an anchor's byte (04 R167). -/
def shadowOf (s : State) (a ofs : Nat) : Option Shadow :=
  s.pool.shadows.find? fun u => u.anchor = a && u.unit = ofs / unit2M

/-- The address of a piece in DRAM: a local extent, or the shadow of an anchor. -/
def pieceAddr (s : State) (p : Part) : Option Nat :=
  match p.x.anchor with
  | none => some (partPa p)
  | some a => (shadowOf s a p.ofs).map fun u => u.stack * 2 ^ 36 + u.base * unit2M + p.ofs % unit2M

/-- Bytes of DRAM become free bytes (log entry 13). -/
def undefBytes (pa : Nat) (d : List Byte) (s : State) : State := setMem (fun m => memWriteL m pa d) s

/-- The bytes of an output range become undefined, in both copies of an extent that migrates (09 R379; 04 R178; log entry 13). -/
def undefAt (g : Region) (o len : Nat) (s : State) : State :=
  (partsOf g o len).foldl (fun s p =>
    if partStatus s 0 g.owner p ≠ .ok then s
    else match pieceAddr s p with
      | some pa =>
        let (s, d) := freeBytes p.len s
        let s := undefBytes pa d s
        if p.x.migrating then undefBytes (p.x.newStack * 2 ^ 36 + p.x.newBase * unit2M + p.ofs) d s else s
      | none => s) s

/-- The output of a WS_GEMV or KV_ATTEND that has begun becomes undefined (09 R379; log entries 13 and 62). -/
def undefOut (w : Waiting) (s : State) : State :=
  match w.outAt with
  | none => s
  | some (i, o, n, _) => match regionAt s i with
    | some g => undefAt g o n s
    | none => s

/-- The response of a waiting verb that ends with a failure; the run time of a WS_GEMV or KV_ATTEND that has begun is a free
value (09 R379, R398; log entry 13). -/
def failResp (w : Waiting) (st : Status) (s : State) : State × Resp :=
  match w.outAt with
  | none => (s, mkResp s w.req st)
  | some (_, _, _, r1) => match w.why with
    | .mirror _ p => (s, { p with status := st, r1 := w64 r1 })
    | _ =>
      let (s, f) := takeFree 1 s
      (s, { mkResp s w.req st with r0 := w64 (Config.freeNat f), r1 := w64 r1 })

/-- Every waiting verb that satisfies a test ends with a failure. -/
def failAll (p : Waiting → Bool) (st : Status) (s : State) : State :=
  (s.vrb.waiting.filter p).foldl (fun s w =>
    let (s, r) := failResp w st s
    complete w r s) s

/-- The output of every waiting verb that satisfies a test becomes undefined. -/
def undefAll (p : Waiting → Bool) (s : State) : State :=
  (s.vrb.waiting.filter p).foldl (fun s w => undefOut w s) s

/-! Runs and engines (07 R263, R291, R299 to R306) -/

/-- One logical engine; one that is not listed is in its initial state. -/
def engAt (s : State) (n : Nat) : Eng :=
  match s.fe.engs.find? fun e => e.n = n with
  | some e => e
  | none => { n := n, phys := n % 64 }

/-- Change one logical engine. -/
def modEng (n : Nat) (f : Eng → Eng) (s : State) : State :=
  let e := f (engAt s n)
  setFe (fun c => { c with engs :=
    if (c.engs.any fun x => x.n = n) then mapIf (fun x => x.n = n) (fun _ => e) c.engs else c.engs ++ [e] }) s

/-- A loaded plan by its index. -/
def planAt (s : State) (i : Nat) : Option Plan := s.fe.plans.find? fun p => p.idx = i

/-- Change a plan. -/
def modPlan (i : Nat) (f : Plan → Plan) (s : State) : State :=
  setFe (fun c => { c with plans := mapIf (fun p => p.idx = i) f c.plans }) s

/-- The plan-relative number of an engine of a plan. -/
def relEngine (p : Plan) (n : Nat) : Nat := (p.engs.findIdx? fun x => x = n).getD 0

/-- The park records with an engine still parked on them, with the engines left in their masks (07 R300, R302). -/
def parksLeft (engs : List Eng) (parks : List Park) : List Park :=
  let left := fun (i : Nat) => (engs.filter fun e => e.st = .parked && e.park = some i).foldl
    (fun (m : BitVec 64) e => m ||| 1#64 <<< (e.n % 64)) 0
  (parks.map fun k => { k with mask := left k.idx }).filter fun k => k.mask ≠ 0

/-- A run aborts: its engines stop, its park records close, and PLAN_RUN is answered (07 R288, R291). -/
def abortRun (i : Nat) (st : Status) (eng : Option Nat) (s : State) : State :=
  match planAt s i with
  | none => s
  | some p => match p.run with
    | none => s
    | some run =>
      let s := p.engs.foldl (fun s n => modEng n (fun e => { e with
        st := if e.st = .running || e.st = .parked then .reserved else e.st
        ended := true, comp := none, mov := none, park := none, idleSince := s.now }) s) s
      let s := setFe (fun c => { c with
        parks := parksLeft c.engs c.parks
        bars := c.bars.map fun b => { b with arrived := b.arrived.filter fun n => !p.engs.contains n }
        reexec := c.reexec.filter fun x => !p.engs.contains x.eng }) (modPlan i (fun p => { p with run := none }) s)
      let r1 := match eng with | some n => relEngine p n | none => 0xFFFFFFFFFFFFFFFF
      (s.vrb.waiting.filter fun w => w.why = .run i).foldl (fun s w => complete w { mkResp s w.req st with
        r0 := w64 (min (2 ^ 64 - 1) (s.now - run.since)), r1 := w64 r1, r2 := w64 run.esc } s) s

/-- A logical engine goes OUT (07 R305): ENGINE_OUT to the loaders of the plans that reserve it, and the abort of a running
one. -/
def engineLeaves (n kind : Nat) (s : State) : State :=
  if (engAt s n).st = .out then s
  else
    (s.fe.plans.filter fun p => p.engs.contains n).foldl (fun s p =>
      abortRun p.idx .engineFault (some n)
        (event p.node 0x09 .engineFault p.tid (planHandle p) n kind 0 s)) (modEng n (fun e => { e with st := .out }) s)

/-- The record of an engine that goes OUT (07 R299; 15 R623). -/
def engineRec (n kind tid : Nat) (s : State) : State :=
  cairnAt 0x07 kind n (n / 64 * 2 ^ 32) 0 (0x70 + n / 64) tid .engineFault s

/-- A logical engine goes OUT, with its record (07 R299, R305). -/
def engineOut (n kind : Nat) (s : State) : State :=
  if (engAt s n).st = .out then s
  else
    let tid := match s.fe.plans.find? fun p => p.engs.contains n with | some p => p.tid | none => 0xFFFF
    engineLeaves n kind (engineRec n kind tid s)

/-! Mirrors (04 R157, R159) -/

/-- A message to a mirror peer (06 R237): OPERAND0 carries the primary's region index. -/
def mirrorMsg (node opcode tid tag : Nat) (flags : Nat) (op0 op1 va : Nat) (subop : Nat) (payload : List Byte) (s : State) : State :=
  sendMsg node false { tc := if payload.isEmpty then 0 else 2, tid := some tid, body := .req {
    tc := if payload.isEmpty then 0 else 2, opcode := BitVec.ofNat 8 opcode, subop := BitVec.ofNat 8 subop,
    flags := BitVec.ofNat 16 flags, tid := BitVec.ofNat 16 tid, len := BitVec.ofNat 16 payload.length,
    tag := BitVec.ofNat 32 tag, va := w64 va, op0 := w64 op0, op1 := w64 op1, payload := payload } }
    (if opcode = 0x90 || opcode = 0x91 then setPool (fun p => { p with mirTags := p.mirTags ++ [(tag, node)] }) s else s)

/-- The window that a verb writes through: WIN, or the output window of its parameter record (09 R375, R394). -/
def outWin (w : Waiting) : Option Nat :=
  if 1 ≤ w.op && w.op ≤ 4 then some (reqWin w.req)
  else if w.op = 0x39 then some (field w.req.payload 0x10 3)
  else if w.op = 0x42 then some (field w.req.payload 0x14 3)
  else none

/-- A waiting request writes through a window of a region. -/
def inRegion (s : State) (i : Nat) (w : Waiting) : Bool :=
  match (outWin w).bind fun h => windowAt s (h % 2 ^ 16) with
  | some x => x.region = i
  | none => false

/-- A request waits for a mirror peer. -/
def waitsMirror (w : Waiting) : Bool := match w.why with | .mirror _ _ => true | _ => false

/-- A descriptor whose writes to a fenced region await the peer ends with NODE_LOST: the bytes before the first of them are known to
be complete (04 R157; 06 R248). -/
def fenceDesc (s : State) (i : Nat) (x : DescRec) : DescRec :=
  let hit := match windowAt s (x.d.dstWin % 2 ^ 16) with | some w => w.region == i | none => false
  if x.phase = .done && !x.wr.isEmpty && hit then
    { x with status := worse x.status .nodeLost, bytes := x.wr.foldl (fun n t => min n t.2) x.bytes, wr := [] }
  else x

/-- A primary's region is fenced: writes the peer has not acknowledged complete with NODE_LOST (04 R157). -/
def fenceRegion (i : Nat) (s : State) : State :=
  let tid := match regionAt s i with | some g => g.owner | none => 0xFFFF
  let s := modRegion i (fun g => { g with st := .fenced }) s
  let s := cairnAt 0x06 2 i 0 0 0x40 tid .nodeLost s
  let s := setBulk (fun b => { b with qs := b.qs.map fun q => { q with descs := q.descs.map (fenceDesc s i) } }) s
  failAll (fun w => waitsMirror w && inRegion s i w) .nodeLost s

/-- A primary hands its region over: HANDOFF to the peer, and the fence (04 R159). -/
def handoffPrimary (g : Region) (s : State) : State :=
  if g.mode = .mirrored && g.bound && !g.isShadow && g.st = .active then
    fenceRegion g.idx (modRegion g.idx (fun g => { g with bound := false })
      (mirrorMsg g.shadowNode 0x93 g.owner 0 0 g.idx 0 0 0 [] s))
  else s

/-- What the loss of a stack does to a mirrored region: HANDOFF by the primary, MIRROR_BREAK by the peer (04 R159). -/
def handoffRegion (g : Region) (s : State) : State :=
  if g.mode = .mirrored && g.bound && g.isShadow then
    modRegion g.idx (fun g => { g with bound := false })
      (mirrorMsg g.shadowNode 0x94 g.owner 0 0 g.otherIdx 0 0 0 [] s)
  else handoffPrimary g s

/-! The failure of a stack (13 R528) -/

/-- Mark the local extents of a region on a stack LOST and send EXTENT_LOST for each (04 R179). A migration whose target stack fails is
given up, and its extent stays where it is: DESIGN CHOICE (04 R181; log entry 60). -/
def loseExtents (k : Nat) (g : Region) (s : State) : State :=
  ((List.range g.exts.length).zip g.exts).foldl (fun s p =>
    let (e, x) := p
    if x.anchor.isNone && x.stack == k && !x.lost then
      let s := modRegion g.idx (fun g => { g with exts := g.exts.set e { x with lost := true, migrating := false } }) s
      fanOut (regionGrants s g.idx) 0x05 .poisoned g.owner g.idx e k 0 (cairnAt 0x06 4 g.idx k 0 0x40 g.owner .poisoned s)
    else if x.migrating && x.newStack == k then
      modRegion g.idx (fun g => { g with exts := g.exts.set e { x with migrating := false } }) s
    else s) s

/-- The line of a region lies on a lost extent. -/
def lineLost (g : Region) (line : Nat) : Bool :=
  match selectExt g (line * 128) with
  | some (_, x, _) => x.lost
  | none => false

/-- Lines that a waiting request of a coherent region names. -/
def waitLines (s : State) (w : Waiting) : List (Nat × Nat) :=
  match windowAt s (reqWin w.req % 2 ^ 16) with
  | none => []
  | some x =>
    let o := reqVa w.req - x.vaBase * unit2M + x.regOfs * unit2M
    let n := if w.op = 4 then 8 else if w.op = 1 && reqCached w.req then 128 else max 1 (min 2048 (reqLen w.req))
    (List.range ((o + n - 1) / 128 - o / 128 + 1)).map fun i => (x.region, o / 128 + i)

/-- A waiting request waits for lines of a coherent region. -/
def waitsCoh (w : Waiting) : Bool := match w.why with | .coh => true | _ => false

/-- Directory entries of lost lines go with their stack; requests that wait for them complete with POISONED
(05 R192, R216). -/
def loseLines (s : State) : State :=
  let lost := fun (d : DirEnt) => match regionAt s d.region with
    | some g => lineLost g d.line
    | none => false
  let s := setCoh (fun c => { c with
    dir := c.dir.filter fun d => !lost d
    msgs := c.msgs.filter fun m => !lost { region := m.region, line := m.line } }) s
  completeAll (fun w => waitsCoh w && (waitLines s w).any fun x => lost { region := x.1, line := x.2 }) .poisoned s

/-- A waiting WS_LOAD whose stack list holds the stack: the stack serves, and the object region has an extent on it (09 R358,
R374). -/
def loadsTo (s : State) (k : Nat) (w : Waiting) : Bool :=
  let mask := field w.req.payload 0x10 4
  w.op == 0x38 && ((stackAt s k).st == .inService && (mask == 0 || bit mask k))
    && (match objRegion s (reqTid w.req) (objField w) with
      | some g => g.exts.any fun x => x.anchor.isNone && x.stack == k && !x.lost
      | none => false)

/-- A weight set with a tile on the stack becomes LOST (09 R382). -/
def loseSets (k : Nat) (s : State) : State :=
  (s.ws.sets.filter fun x => x.st = .resident && x.tiles.any (fun t => t.stack = k)).foldl (fun s x =>
    let s := setWs (fun c => { c with
      lost := satAdd 16 c.lost 1,
      sets := mapIf (fun y => y.idx = x.idx) (fun y => { y with st := .lost }) c.sets }) s
    (x.nodes.eraseDups).foldl (fun s n => event n 0x0A .poisoned x.tid (x.idx + 256 * x.gen) k
      (countIf (fun t => t.stack = k) x.tiles) 0 s) s) s

/-- A KV object becomes LOST and its creating node receives KV_LOST (09 R393; 13 R524). -/
def loseKv (idx stack pages : Nat) (s : State) : State :=
  match s.kv.objs.find? fun o => o.idx = idx with
  | none => s
  | some o => if o.st = .lost then s else
    event o.node 0x0B .poisoned o.tid (o.idx + 2 ^ 20 * o.gen) stack pages 0
      (setKv (fun c => { c with
        lost := satAdd 16 c.lost 1,
        objs := mapIf (fun y => y.idx = idx) (fun y => { y with st := .lost }) c.objs }) s)

/-- KV objects with a page on the stack become LOST (09 R393). -/
def loseObjs (k : Nat) (s : State) : State :=
  (s.kv.objs.filter fun o => o.pages.any fun p => p.frame.stack = k).foldl
    (fun s o => loseKv o.idx k (countIf (fun p => p.frame.stack = k) o.pages) s) s

/-- The engines and spares of a stack leave service, with one record for them all (07 R306; log entry 38). -/
def enginesLeave (k : Nat) (s : State) : State :=
  if hasEngines s then
    let s := (List.range 64).foldl (fun s i => engineLeaves (k * 64 + i) 0x08 s) (engineRec (k * 64) 0x08 0xFFFF s)
    modStack k (fun x => { x with spare0 := .quarantined, spare1 := .quarantined }) s
  else s

/-- A stack fails at run time, by a row of 13 R528; its two islands are held in reset (01 R42; 02 R66). -/
def stackFail (k row : Nat) (s : State) : State :=
  let x := stackAt s k
  if x.st = .failed || !x.fitted then s
  else
    let s := completeAll (loadsTo s k) .poisoned s
    let s := modStack k (fun x => { x with
      st := .failed, flags := x.flags ||| 16#5, flagsAt := setNow s.now x.flagsAt 16#5, trainCh := none,
      remapping := [], wq := [], cols := [] }) s
    let s := setPwr (fun p => { p with stackSw := p.stackSw &&& ~~~ (1#32 <<< k) }) s
    let s := setIsl (fun i => { i with sifLock := i.sifLock &&& ~~~ (1#32 <<< k), baseLock := i.baseLock &&& ~~~ (1#32 <<< k) }) s
    let s := cairnAt 0x0B 1 k row 0 (0x50 + k) 0xFFFF .poisoned s
    let regs := s.pool.regions
    let s := regs.foldl (fun s g => loseExtents k g s) s
    let s := (regs.filter fun g => g.exts.any fun x => x.anchor.isNone && x.stack = k).foldl
      (fun s g => handoffRegion g s) s
    let s := setPool (fun p => { p with shadows := p.shadows.filter fun u => u.stack ≠ k }) s
    let s := loseLines s
    let s := enginesLeave k s
    let s := loseObjs k (loseSets k s)
    setTrv (fun t => { t with pages := t.pages.map fun p =>
      if p.st = .running && p.tid = 0xFFFF && p.pTgt.getLsbD k then { p with stackLost := true } else p }) s

end Sys2Proof.Machine
end

