-- ==== Sys2Proof/Machine/LineCode.lean ====
section
/-! DEFINITION. The DRAM line code (13_memory_integrity R517 to R522): Reed-Solomon over GF(256), its check symbols,
and the decoding of an error pattern. A stored line is its data's codeword with the symbols of its error pattern
changed; a decode sees only the syndromes, which are those of the pattern. Symbol s is the coefficient of degree
143 - s (log entry 17). -/

namespace Sys2Proof.Machine

/-- Multiply by alpha (13 R517: x^8 + x^4 + x^3 + x^2 + 1). -/
def gfX (a : Byte) : Byte := if a.getLsbD 7 then (a <<< 1) ^^^ 0x1D else a <<< 1

/-- The product of GF(256), by the n low bits of the second factor, highest first. -/
def gfMulN : Nat → Byte → Byte → Byte
  | 0, _, _ => 0
  | n + 1, a, b => gfX (gfMulN n a (b >>> 1)) ^^^ (if b.getLsbD 0 then a else 0)

/-- The product of GF(256). -/
def gfMul (a b : Byte) : Byte := gfMulN 8 a b

/-- A power in GF(256). -/
def gfPow (a : Byte) : Nat → Byte
  | 0 => 1
  | n + 1 => gfMul a (gfPow a n)

/-- The inverse in GF(256); 0 for 0. -/
def gfInv (a : Byte) : Byte := gfPow a 254

/-- alpha to the power n. -/
def alphaPow (n : Nat) : Byte := gfPow 2 (n % 255)

/-- The value of a polynomial, lowest coefficient first. -/
def gfEval (x : Byte) : List Byte → Byte
  | [] => 0
  | c :: p => c ^^^ gfMul x (gfEval x p)

/-- The sum of two polynomials. -/
def gfAdd : List Byte → List Byte → List Byte
  | [], q => q
  | p, [] => p
  | a :: p, b :: q => (a ^^^ b) :: gfAdd p q

/-- A multiple of a polynomial. -/
def gfScale (c : Byte) (p : List Byte) : List Byte := p.map (gfMul c)

/-- The product of two polynomials. -/
def gfPolyMul : List Byte → List Byte → List Byte
  | [], _ => []
  | a :: p, q => gfAdd (gfScale a q) (0 :: gfPolyMul p q)

/-- The generator with roots alpha^0 to alpha^15, lowest coefficient first (13 R517). -/
def rsGen : List Byte := (List.range 16).foldl (fun g i => gfPolyMul g [alphaPow i, 1]) [1]

/-- One step of the division by the generator: the remainder, highest coefficient first. -/
def rsStep (g : List Byte) (r : List Byte) (d : Byte) : List Byte :=
  let f := d ^^^ r.headD 0
  List.zipWith (fun x y => x ^^^ gfMul f y) (r.drop 1 ++ [0]) g

/-- The 16 check symbols of 128 data bytes (13 R517). -/
def rsCheck (data : List Byte) : List Byte :=
  let g := (rsGen.take 16).reverse
  data.foldl (rsStep g) (List.replicate 16 0)

/-- An error pattern: symbols that differ from the codeword, with the difference (13 R517). -/
abbrev Pattern := List (Nat × Byte)

/-- Add a difference to one symbol of a pattern; a symbol with no difference is not listed. -/
def patAdd : Pattern → Nat → Byte → Pattern
  | [], i, v => if v = 0 then [] else [(i, v)]
  | (k, w) :: p, i, v =>
    if k = i then (if w ^^^ v = 0 then p else (k, w ^^^ v) :: p) else (k, w) :: patAdd p i v

/-- The sum of two patterns. -/
def patSum (p q : Pattern) : Pattern := q.foldl (fun p x => patAdd p x.1 x.2) p

/-- The 16 syndromes of a pattern. -/
def syndromes (p : Pattern) : List Byte :=
  (List.range 16).map fun j => p.foldl (fun a x => a ^^^ gfMul x.2 (alphaPow (j * (143 - x.1)))) 0

/-- State of the Berlekamp-Massey iteration: C, B, L, m, b. -/
structure BmState where
  /-- Connection polynomial. -/
  c : List Byte
  /-- Previous one. -/
  pc : List Byte
  /-- Its length. -/
  l : Nat
  /-- Steps since. -/
  m : Nat
  /-- Previous discrepancy. -/
  pd : Byte

/-- The discrepancy of step n. -/
def bmDisc (s c : List Byte) (l n : Nat) : Byte :=
  (List.range (l + 1)).foldl
    (fun a i => if i ≤ n then a ^^^ gfMul (c.getD i 0) (s.getD (n - i) 0) else a) 0

/-- The shortest recurrence of the first n syndromes. -/
def bmRun (s : List Byte) : Nat → BmState
  | 0 => { c := [1], pc := [1], l := 0, m := 1, pd := 1 }
  | n + 1 =>
    let b := bmRun s n
    let d := bmDisc s b.c b.l n
    if d = 0 then { b with m := b.m + 1 }
    else
      let c' := gfAdd b.c (List.replicate b.m 0 ++ gfScale (gfMul d (gfInv b.pd)) b.pc)
      if 2 * b.l ≤ n then { c := c', pc := b.c, l := n + 1 - b.l, m := 1, pd := d }
      else { b with c := c', m := b.m + 1 }

/-- The formal derivative of a polynomial. -/
def gfDeriv (p : List Byte) : List Byte :=
  (List.range (p.length - 1)).map fun i => if i % 2 = 0 then p.getD (i + 1) 0 else 0

/-- The pattern that a decoder finds from syndromes, with the given symbols erased: at most 4 symbol errors beyond
the erased symbols; none where there is no such pattern (13 R519, R521). -/
def rsDecode (syn : List Byte) (erased : List Nat) : Option Pattern :=
  let gam := erased.foldl (fun g i => gfPolyMul g [1, alphaPow (143 - i)]) [1]
  let ts := (gfPolyMul syn gam).take 16 |>.drop erased.length
  let b := bmRun ts (16 - erased.length)
  if 4 < b.l then none
  else
    let psi := gfPolyMul b.c gam
    let om := (gfPolyMul syn psi).take 16
    let dpsi := gfDeriv psi
    let xinv := fun i => alphaPow (255 - (143 - i) % 255)
    let pos := (List.range 144).filter fun i => gfEval (xinv i) psi = 0
    let pat := pos.map fun i =>
      (i, gfMul (alphaPow (143 - i)) (gfMul (gfEval (xinv i) om) (gfInv (gfEval (xinv i) dpsi))))
    let pat := pat.filter fun x => x.2 ≠ 0
    if pos.length = b.l + erased.length && syndromes pat = syn then some pat else none

/-- The poison pattern: 0xA5 in symbols 128 to 136 (13 R522). -/
def poisonPat : Pattern := (List.range 9).map fun i => (128 + i, (0xA5 : Byte))

/-- The lane of a symbol (13 R518). -/
def laneOf (sym : Nat) : Nat := sym % 36

/-- The symbols of a lane (13 R518). -/
def laneSyms (lane : Nat) : List Nat := [lane, lane + 36, lane + 72, lane + 108]

/-- What a decode of a line reports (13 R519): for a correctable line the symbols corrected outside the erased lane
and the pattern removed. -/
inductive LineOutcome
  | clean (removed : Pattern) | corrected (syms : List Nat) (removed : Pattern) | poison | uncorrectable
deriving DecidableEq, Repr

/-- One decode with a lane erased or none. -/
def decodeOnce (p : Pattern) (lane : Option Nat) : Option (List Nat × Pattern) :=
  let er := (lane.map laneSyms).getD []
  (rsDecode (syndromes p) er).map fun q => ((q.map Prod.fst).filter (fun i => !er.contains i), q)

/-- Decode the stored line whose error pattern is p (13 R519, R521, R522). A pattern of at most 4 symbols is its own
decode, by the code's distance (13 R519). -/
def decodeLine (p : Pattern) (lane : Option Nat) : LineOutcome :=
  match p, lane with
  | [], _ => .clean []
  | _, _ =>
    let er := (lane.map laneSyms).getD []
    let out := (p.map Prod.fst).filter fun i => !er.contains i
    if out.isEmpty then .clean p
    else if out.length ≤ 4 then .corrected out p
    else if syndromes p = syndromes poisonPat then .poison
    else match decodeOnce p lane with
      | some (syms, q) => if syms.isEmpty then .clean q else .corrected syms q
      | none =>
        match decodeOnce (patSum p poisonPat) lane with
        | some _ => .poison
        | none => .uncorrectable

end Sys2Proof.Machine
end

