-- ==== Sys2Proof/Machine/Dram.lean ====
section
/-! DEFINITION. Reads and writes of DRAM: the decode of every line read and what it records, write-back, poison, erasure
mode, narrow writes, and the write queue (12_service_and_dram R510, R513; 13_memory_integrity R519 to R535). -/

namespace Sys2Proof.Machine

/-- The stack of a PA (04 R126). -/
def paStack (pa : Nat) : Nat := pa / 2 ^ 36
/-- The pseudo-channel of a PA (13 R536). -/
def paPch (pa : Nat) : Nat := pa / 128 % 64

/-- The error pattern of a line. -/
def linePat (s : State) (line : Nat) : Pattern := assocD [] line s.ecc.errs

/-- Set the error pattern of a line; a line with none is not listed. -/
def setPat (line : Nat) (p : Pattern) (s : State) : State :=
  setEcc (fun e =>
    let rest := e.errs.filter fun x => x.1 ≠ line
    { e with errs := if p.isEmpty then rest else (line, p) :: rest }) s

/-- DRAM symbols disturbed since the command before (log entry 20). -/
def applyUpsets (u : List (Nat × Nat × Byte)) (s : State) : State :=
  u.foldl (fun s x => if x.2.1 < 144 then setPat x.1 (patAdd (linePat s x.1) x.2.1 x.2.2) s else s) s

/-- The environment's part of a command takes effect: time goes on and symbols are disturbed. -/
def applyEnv (e : Env) (s : State) : State := applyUpsets e.upsets (atTime e.t s)

/-- The lane in erasure mode of a pseudo-channel (13 R521). -/
def erasedLane (s : State) (stack pch : Nat) : Option Nat := assoc pch (stackAt s stack).erase

/-- A pseudo-channel meets a condition of erasure mode for a lane: entry, or the failure of the stack when another lane
is in erasure mode already (13 R521). -/
def eraseLane (stack pch lane : Nat) (s : State) : State :=
  match erasedLane s stack pch with
  | some l => if l = lane then s else stackFail stack 3 s
  | none =>
    cairnAt 0x02 2 stack pch lane (0x70 + stack) 0xFFFF .ok (modStack stack (fun x => { x with
      erase := x.erase ++ [(pch, lane)], flags := x.flags ||| 2#5, flagsAt := setNow s.now x.flagsAt 2#5,
      laneHits := x.laneHits.filter fun h => !(h.1 == pch && h.2.1 == lane) }) s)

/-- Count the lanes of a corrected line: 16 lines within 10 ms with an error in one lane put it in erasure mode
(13 R521). -/
def laneHit (stack pch : Nat) (syms : List Nat) (s : State) : State :=
  ((syms.map laneOf).eraseDups).foldl (fun s lane =>
    let keep := (stackAt s stack).laneHits.filter fun h => decide (s.now < h.2.2 + 10000000)
    let hits := keep ++ [(pch, lane, s.now)]
    let s := modStack stack (fun x => { x with laneHits := hits }) s
    if 16 ≤ countIf (fun h => h.1 == pch && h.2.1 == lane) hits then eraseLane stack pch lane s else s) s

/-- Milliseconds since POOL_OPEN, saturating (13 R547). -/
def msSinceOpen (s : State) : Nat := min (2 ^ 32 - 1) ((s.now - s.boot.openAt) / 1000000)

/-- Enter a CE event in the address log (13 R533). -/
def logCe (pa src n : Nat) (s : State) : State :=
  let e := s.ecc
  let ms := msSinceOpen s
  match e.log.find? fun x => x.pa = pa with
  | some _ => setEcc (fun e => { e with log := mapIf (fun x => x.pa = pa) (fun x => { x with
      hits := satAdd 16 x.hits 1, maxSym := max x.maxSym n, lastMs := ms, src := src }) e.log }) s
  | none =>
    let new : CeLog := { pa := pa, src := src, maxSym := n, lastMs := ms, hits := 1 }
    if e.log.length < 64 then setEcc (fun e => { e with log := e.log ++ [new] }) s
    else match leastBy (fun x => x.hits * 2 ^ 32 + x.lastMs) e.log with
      | some v => setEcc (fun e => { e with
          log := mapIf (fun x => x.pa = v.pa) (fun _ => new) e.log, replaced := satAdd 16 e.replaced 1 }) s
      | none => s

/-- A second has passed since the latest overflow record. -/
def ovfDue (now : Nat) (last : Option Nat) : Bool :=
  match last with
  | none => true
  | some t => decide (t + 1000000000 ≤ now)

/-- Add a CE event to a stack's bucket (13 R534). -/
def stackBucket (stack : Nat) (s : State) : State :=
  if !s.img.ceBucket then s
  else
    let x := stackAt s stack
    let depth := s.img.bucketDepth * 1000
    if depth ≤ x.bucket then
      let s := modStack stack (fun x => { x with ovf := satAdd 16 x.ovf 1 }) s
      if ovfDue s.now x.lastOvf then
        cairnAlert 0x02 1 stack 0 0 (modStack stack (fun x => { x with
          flags := x.flags ||| 1#5, flagsAt := setNow s.now x.flagsAt 1#5, lastOvf := some s.now }) s)
      else s
    else modStack stack (fun x => { x with bucket := min depth (x.bucket + 1000) }) s

/-- Attribute a CE event to the owner of the extent (13 R535). -/
def attributeCe (pa : Nat) (s : State) : State :=
  match extentAtPa s pa with
  | some (g, _, _) => setEcc (fun e => { e with
      tntCe := setAssoc g.owner (satAdd 32 (assocD 0 g.owner e.tntCe) 1) e.tntCe }) s
  | none => s

/-- A CE event: one line decoded CORRECTED with its symbols (13 R531). Sources: 0 demand, 1 merge or copy, 2 Traverse,
3 injection. -/
def ceEvent (src pa : Nat) (syms : List Nat) (s : State) : State :=
  let line := pa / 128 * 128
  let k := paStack pa
  let s := modStack k (fun x => { x with ceLines := satAdd 32 x.ceLines 1 }) s
  laneHit k (paPch pa) syms (attributeCe line (stackBucket k (logCe line src syms.length s)))

/-- A unit is armed for injection: its lines are stored without encryption (14 R559). -/
def armedAt (s : State) (pa : Nat) : Bool :=
  match s.ecc.injArmed with
  | some (k, u) => decide (paStack pa = k) && decide (pa % 2 ^ 36 / unit2M = u)
  | none => false

/-- The data of a line when a decode leaves a difference in it: the difference itself in an unencrypted unit, otherwise
free bytes in each 16 B block it touches (14 R559; 13 R519; log entry 13). -/
def lineData (pa : Nat) (left : Pattern) (s : State) : State × List Byte :=
  let base := pa / 128 * 128
  let d := memReadL s.mem base 128
  let left := left.filter fun x => x.1 < 128
  if left.isEmpty then (s, d)
  else if armedAt s pa then (s, left.foldl (fun d x => modNth x.1 (fun b => b ^^^ x.2) d) d)
  else
    let (s, f) := freeBytes 128 s
    (s, (List.range 128).map fun i => if left.any (fun x => x.1 / 16 = i / 16) then f.getD i 0 else d.getD i 0)

/-- The DRAM of a stack is used: it leaves self-refresh (12 R513). -/
def touchStack (k : Nat) (s : State) : State :=
  modStack k (fun x => { x with selfRef := false, lastUse := s.now }) s

/-- A column access reads a line, after a queued write of it (12 R507, R510). -/
def readQueue (pa : Nat) (s : State) : State :=
  let k := paStack pa
  let s := touchStack k s
  modStack k (fun x => issueRead (pa / 128) s.svc { x with rdBytes := x.rdBytes + 128 }) s

/-- A write of a line enters the queue (12 R510). -/
def writeQueue (pa : Nat) (s : State) : State :=
  let k := paStack pa
  let s := touchStack k s
  modStack k (fun x => queueWrite s.now (pa / 128) s.svc { x with wrBytes := x.wrBytes + 128 }) s

/-- What a read of a line answers: data with the number of symbols corrected, or a reason for none. -/
inductive LineRead
  | data (d : List Byte) (syms : Nat) | poison | ue
deriving DecidableEq, Repr

/-- Read one line (13 R519): decode, count, log, write back and poison as its outcome says. Source 4 is a copy
(R539), which records as source 1. -/
def readLine (src pa : Nat) (s : State) : State × LineRead :=
  let base := pa / 128 * 128
  let line := pa / 128
  let k := paStack pa
  let s := readQueue pa s
  let p := linePat s line
  match decodeLine p (erasedLane s k (paPch pa)) with
  | .clean q =>
    let (s, d) := lineData pa (patSum p q) s
    (s, .data d 0)
  | .corrected syms q =>
    let (s, d) := lineData pa (patSum p q) s
    let s := ceEvent (if src = 4 then 1 else src) pa syms s
    let back := src = 2 || ((src = 0 || src = 3) && 2 ≤ syms.length)
    let s := if back then setPat line [] (setMem (fun m => memWriteL m base d) s) else s
    (s, .data d syms.length)
  | .poison => (modStack k (fun x => { x with poisonReads := x.poisonReads + 1 }) s, .poison)
  | .uncorrectable =>
    let (s, d) := lineData pa p s
    let s := setPat line poisonPat (setMem (fun m => memWriteL m base d) s)
    let s := modStack k (fun x => { x with ueLines := satAdd 16 x.ueLines 1, flags := x.flags ||| 4#5, flagsAt := setNow s.now x.flagsAt 4#5 }) s
    (cairnAt 0x03 1 base (if src = 4 then 1 else src) 0 (0x70 + k) 0xFFFF .poisoned s, .ue)

/-- Read len bytes from a PA, line by line; none when a line gives no data. n bounds the lines. -/
def readSpan (src : Nat) : Nat → Nat → Nat → State → State × Option (List Byte)
  | 0, _, _, s => (s, some [])
  | n + 1, pa, len, s =>
    if len = 0 then (s, some [])
    else
      let k := min len (128 - pa % 128)
      let (s, r) := readLine src pa s
      let (s, rest) := readSpan src n (pa + k) (len - k) s
      match r, rest with
      | .data d _, some t => (s, some ((d.drop (pa % 128)).take k ++ t))
      | _, _ => (s, none)

/-- Read bytes of DRAM. -/
def readDram (src pa len : Nat) (s : State) : State × Option (List Byte) := readSpan src (len / 128 + 2) pa len s

/-- Write bytes within one line: a whole line is encoded afresh and clears poison (13 R523); a part is merged
(13 R525). -/
def writeLine (pa : Nat) (d : List Byte) (s : State) : State × Status :=
  let line := pa / 128
  if d.length = 128 && pa % 128 = 0 then
    (writeQueue pa (setPat line [] (setMem (fun m => memWriteL m pa d) s)), .ok)
  else if ((stackAt s (paStack pa)).wq.any fun e => e.line = line) && (linePat s line).isEmpty then
    (writeQueue pa (setMem (fun m => memWriteL m pa d) s), .ok)
  else
    let (s, r) := readLine 1 pa s
    match r with
    | .data old _ =>
      (writeQueue pa (setPat line [] (setMem (fun m => memWriteL (memWriteL m (line * 128) old) pa d) s)), .ok)
    | _ => (s, .poisoned)

/-- Write bytes of DRAM from a PA, line by line; the status is the worst. n bounds the lines. -/
def writeSpan : Nat → Nat → List Byte → State → State × Status
  | 0, _, _, s => (s, .ok)
  | n + 1, pa, d, s =>
    if d.isEmpty then (s, .ok)
    else
      let k := 128 - pa % 128
      let (s, st) := writeLine pa (d.take k) s
      let (s, st') := writeSpan n (pa + k) (d.drop k) s
      (s, worse st st')

/-- Write bytes of DRAM. -/
def writeDram (pa : Nat) (d : List Byte) (s : State) : State × Status := writeSpan (d.length / 128 + 2) pa d s

/-- Read bytes of DRAM in class SCHED: a tile or a KV page (12 R506). -/
def readSched (src pa len : Nat) (s : State) : State × Option (List Byte) :=
  let (t, r) := readDram src pa len (setSvc 0 s)
  (setSvc s.svc t, r)

/-- Write bytes of DRAM in class BULK: a WS_LOAD copy (12 R506). -/
def writeBulk (pa : Nat) (d : List Byte) (s : State) : State := setSvc s.svc (writeDram pa d (setSvc 3 s)).1

/-- Zero whole lines: a zero-fill or an overwrite, which clears poison (04 R147, R176; 12 R506; 13 R523). -/
def zeroDram (pa len : Nat) (s : State) : State :=
  modStack (paStack pa) (bulkColumns (pa / 128) (len / 128)) <| setEcc (fun e => { e with errs := e.errs.filter fun x => !(decide (pa / 128 ≤ x.1) && decide (x.1 < (pa + len) / 128)) })
    (setMem (fun m => memZero m pa len) s)

/-- What is left of a line's error pattern after a copy: nothing of a correctable line, poison of the others
(04 R178; 13 R524, R539). -/
def copiedPat (p : Pattern) (lane : Option Nat) : Pattern :=
  match decodeLine p lane with
  | .clean _ => []
  | .corrected _ _ => []
  | .poison => poisonPat
  | .uncorrectable => poisonPat

/-- Copy whole lines to another place with their poison (04 R178). The lines with an error pattern are decoded and
recorded one by one; then the bytes move, in class BULK (12 R506). -/
def copyDram (src dst len : Nat) (s : State) : State :=
  let hit := (s.ecc.errs.map Prod.fst).filter fun l => decide (src / 128 ≤ l) && decide (l < (src + len) / 128)
  let s := setSvc s.svc (hit.foldl (fun s l => (readLine 4 (l * 128) s).1) (setSvc 3 s))
  let s := setMem (fun m => memCopy m src dst len) s
  let s := modStack (paStack dst) (bulkColumns (dst / 128) (len / 128)) (modStack (paStack src) (bulkColumns (src / 128) (len / 128)) s)
  hit.foldl (fun s l =>
    setPat (l - src / 128 + dst / 128) (copiedPat (linePat s l) (erasedLane s (paStack src) (l % 64))) s)
    (setEcc (fun e => { e with errs := e.errs.filter fun x =>
      !(decide (dst / 128 ≤ x.1) && decide (x.1 < (dst + len) / 128)) }) s)

end Sys2Proof.Machine
end

