-- ==== Sys2Proof/Machine/Admission.lean ====
section
/-! DEFINITION. Admission of requests and request contexts (06_pool_verbs R221, R226 to R228, R258; 14 R576; 02 R54, R59), and
how a verb command takes its request. -/

namespace Sys2Proof.Machine

/-- A source lies in a TENANT_HOSTS range of the tenant (03 R110). -/
def listedHost (s : State) (tid node : Nat) : Bool :=
  s.img.hosts.any fun h => h.tid == tid && decide (h.first ≤ node) && decide (node < h.first + h.nodes)

/-- A node of MIRROR_PEERS (03 R110). -/
def isMirrorPeer (s : State) (node : Nat) : Bool := s.img.mirrorPeers.contains node

/-- The tenant's slot is enabled and its key is ACTIVE (14 R556, R576). -/
def tenantEnabled (s : State) (tid : Nat) : Bool :=
  (match tenantOf s tid with | some t => t.enabled | none => false)
    && s.onx.tkeys.any fun k => k.tid = tid && k.st = .active

/-- A source is listed for a tenant: the first two conditions of 14 R576. -/
def listedFor (s : State) (tid node : Nat) : Bool :=
  tenantEnabled s tid && (listedHost s tid node || isMirrorPeer s node)

/-- A source is authorised for a tenant (14 R576). -/
def authorised (s : State) (tid node : Nat) : Bool :=
  tenantEnabled s tid && listedHost s tid node && hasSession s node

/-- The source of a request is authorised (14 R576): a mirror peer for the mirror messages, QUERY_CAPS without a session. -/
def reqAuthorised (s : State) (r : Req) : Bool :=
  let o := r.opcode.toNat
  if effOpcode r.opcode = 0x7F then listedFor s (reqTid r) r.src
  else if 0x90 ≤ o && o ≤ 0x94 then tenantEnabled s (reqTid r) && isMirrorPeer s r.src && hasSession s r.src
  else authorised s (reqTid r) r.src

/-- Opcodes that R226 denies. -/
def opcodeDenied (s : State) (r : Req) : Bool :=
  let o := r.opcode.toNat
  (0x81 ≤ o && o ≤ 0x83) || (0x88 ≤ o && o ≤ 0x8B) || (0x90 ≤ o && o ≤ 0x94 && !isMirrorPeer s r.src)

/-- The verbs that TC4 admits (11 R483). -/
def tc4Verb (o : Byte) : Bool := o == 0x39 || o == 0x42 || o == 0x48 || o == 0x51

/-- The traffic class of a request is one that 06 R221 or 11 R483 allows. -/
def classAllowed (r : Req) : Bool :=
  if r.tc = 4 then tc4Verb r.opcode else r.tc = (if r.payload.isEmpty then 0 else 2)

/-- A verb that needs an absent unit (06 R258; 00 R5, R6). -/
def unitAbsent (s : State) (r : Req) : Bool :=
  let o := r.opcode.toNat
  (!hasEngines s && ((0x38 ≤ o && o ≤ 0x3A) || o = 0x42 || o = 0x50 || o = 0x51 || (0x48 ≤ o && o ≤ 0x4A)))
    || (!hasAnchors s && (o = 0x20 || o = 0x21 || (o = 0x18 && bits r.subop.toNat 4 3 = 2)))

/-- The tenant whose limits a descriptor counts against. -/
def descTid (s : State) (ord tid : Nat) (d : Desc) : Nat := ownerTid s ord tid (descWins d)

/-- Request contexts of a tenant (06 R228). -/
def ctxOf (s : State) (tid : Nat) : Nat :=
  countIf (fun w => !noContext w.req.opcode && ctxTid s w.ord w.req = tid) s.vrb.waiting
    + sumBy (fun q => countIf (fun x => descTid s x.ord q.owner x.d = tid) q.descs) s.bulk.qs
    + countIf (fun t => t = tid) (ctxPackets s)

/-- n more contexts of a tenant would pass a limit (06 R228). -/
def ctxFull (s : State) (tid n : Nat) : Bool :=
  decide (262144 < ctxAll s + n)
    || (match tenantOf s tid with | some t => decide (t.maxContexts < ctxOf s tid + n) | none => false)

/-- Steps 3 to 6 of 06 R227: the status of the first that fails. -/
def admissionStatus (s : State) (r : Req) : Option Status :=
  if opcodeDenied s r || !classAllowed r then some .denied
  else if effOpcode r.opcode ≠ 0x7F && s.boot.st = .forwardOnly then some .internal
  else if effOpcode r.opcode ≠ 0x7F && s.boot.st = .leaving then some .nodeLost
  else if effOpcode r.opcode ≠ 0x7F && s.boot.st ≠ .poolOpen then some .busy
  else if !reqAuthorised s r then some .denied
  else if unitAbsent s r then some .absent
  else none

/-- The peak of the contexts in use (06 R260). -/
def notePeak (s : State) : State := setVrb (fun v => { v with peak := max v.peak (ctxAll s) }) s

/-- Refuse a request at admission; the acknowledgements receive no response (06 R224). -/
def refuse (prov : Bool) (r : Req) (st : Status) (s : State) : State :=
  if isAck r.opcode then s else sendRespAs none prov r (mkResp s r st) s

/-- Steps 3 to 8 of 06 R227: the request is refused, or answered as admitted. -/
def admission (prov : Bool) (r : Req) (s : State) : State × Bool :=
  match admissionStatus s r with
  | some st => (refuse prov r st s, false)
  | none =>
    if !noContext r.opcode && ctxFull s (ctxTid s s.vrb.nextOrd r) 1 then
      (refuse prov r .busy (setVrb (fun v => { v with busyCtx := satAdd 16 v.busyCtx 1 }) s), false)
    else (s, true)

/-- At its admission a WS_LOAD or KV_CREATE is the first on an unsealed region that a descriptor or a run may still write to: it
completes with BUSY (09 R357). -/
def sealsLate (s : State) (r : Req) : Bool :=
  let w : Waiting := { op := r.opcode.toNat, req := r }
  let i := objField w
  (w.op = 0x38 || w.op = 0x40) && !sealedRegion s i && !sealPending s i s.vrb.nextOrd && sealBusy s i

/-- The record of a request at its admission: its place in core-merge order is the next one (06 R228). -/
def admitted (prov : Bool) (r : Req) (s : State) : Waiting :=
  { op := r.opcode.toNat, req := r, why := .inbox, since := s.now, prov := prov, ord := s.vrb.nextOrd, sealLate := sealsLate s r }

/-- Admit a request that the end-to-end layer delivers: it waits for its verb command (06 R227, R255). An EVENT in the form of a
request passes no check: its command discards it (06 R226). -/
def admitDelivered (prov : Bool) (r : Req) (s : State) : State :=
  let (s, ok) := if r.opcode = 0x80 then (s, true) else admission prov r s
  if ok then
    let w := admitted prov r s
    notePeak (setVrb (fun v => { v with waiting := v.waiting ++ [w], nextOrd := v.nextOrd + 1, lastAdmit := s.now })
      (leaseArrival r s))
  else s

/-- The delivered request that a verb command names. -/
def inboxOf (s : State) (r : Req) : Option Waiting :=
  s.vrb.waiting.find? fun w => w.why = .inbox && w.req = r && w.op = r.opcode.toNat

/-- Requests reach admission: the controller core runs with its tables loaded and is awake (02 R48, R59, R78, R83; log
entry 21). -/
def reachable (s : State) : Bool :=
  match s.boot.st with
  | .training | .backoff | .poolOpen | .forwardOnly | .leaving => true
  | _ => false

/-- CTL set in a verb other than LOAD and STORE: the access is denied and counted (17 R657, R672). -/
def ctlDenied (w : Waiting) (s : State) : State :=
  answerAt w.since w.req (mkResp s w.req .denied) { s with glb := { s.glb with tntDenied := satAdd 16 s.glb.tntDenied 1 } }

/-- What a verb command runs: the verb, but for CTL in a verb that has no use for it. -/
def ctlGuard (r : Req) (verb : Waiting → State → State) : Waiting → State → State :=
  if reqCtl r && usesWin r && r.opcode ≠ 1 && r.opcode ≠ 2 then ctlDenied else verb

/-- The class of a verb's DRAM accesses (12 R506): SCHED for a verb admitted on TC4, REALTIME for a PARTITIONED tenant, an ATOMIC, a
cached LOAD and a WRITEBACK; NORMAL for the others (log entry 81). -/
def verbClass (s : State) (r : Req) : Nat :=
  if r.tc = 4 then 0
  else if isPart s (reqTid r) || r.opcode == 0x04 || r.opcode == 0x2B || (r.opcode == 0x01 && reqCached r) then 1
  else 2

/-- A verb command: it takes its delivered request, or brings the request itself through admission, and runs the verb
with the time of admission (06 R227). -/
def runVerb (r : Req) (e : Env) (verb : Waiting → State → State) (s : State) : State :=
  let s := applyEnv e s
  if !reachable s then s else
  match inboxOf s r with
  | some w => ctlGuard r verb w (setSvc (verbClass s r)
      (setVrb (fun v => { v with waiting := eraseFirst (fun x => x == w) v.waiting }) s))
  | none =>
    let (s, ok) := admission false r s
    if ok then
      let w := admitted false r s
      ctlGuard r verb w (setSvc (verbClass s r) (setVrb (fun v => { v with
        peak := max v.peak (ctxAll s + (if noContext r.opcode then 0 else 1)), nextOrd := v.nextOrd + 1
        lastAdmit := s.now }) (leaseArrival r s)))
    else s

/-- A request goes on waiting for something (06 R228). -/
def waitFor (w : Waiting) (why : Wait) (s : State) : State :=
  setVrb (fun v => { v with waiting := v.waiting ++ [{ w with why := why }] }) s

/-- Answer the request of a verb (06 R224). -/
def reply (w : Waiting) (p : Resp) (s : State) : State := answerAt w.since w.req p s

/-- Answer the request of a verb with a status alone. -/
def replySt (w : Waiting) (st : Status) (s : State) : State := reply w (mkResp s w.req st) s

end Sys2Proof.Machine
end

