-- ==== Sys2Proof/Machine/Alloc.lean ====
section
/-! DEFINITION. Free capacity: which units of a stack are free, where an allocation goes, and what counts against a tenant's
limits (04_pool_memory R124, R125, R144, R145, R169, R180; 05_coherence R213, R214). -/

namespace Sys2Proof.Machine

/-- Units of pool memory in a stack (04). -/
def stackUnits : Nat := 31744

/-- SIZE_2M at most (04 R143). -/
def maxUnits (s : State) : Nat := stackUnits * stackCount s

/-- A stack is in service (04 R182). -/
def inService (s : State) (k : Nat) : Bool :=
  decide (k < stackCount s) && (stackAt s k).st == .inService && (stackAt s k).fitted

/-- Runs of a stack in use by local extents, migrations (04 R177), shadow units, the armed unit (13 R546) and withheld
units (13 R527), in rising order. -/
def usedRuns (s : State) (k : Nat) : List (Nat × Nat) :=
  let xs := (s.pool.regions.map Region.exts).flatten
  let a := (xs.filter fun x => x.anchor.isNone && x.stack == k).map fun x => (x.base, x.len)
  let b := (xs.filter fun x => x.migrating && x.newStack == k).map fun x => (x.newBase, x.len)
  let c := (s.pool.shadows.filter fun u => u.stack = k).map fun u => (u.base, 1)
  let d := match s.ecc.injArmed with | some (j, u) => if j = k then [(u, 1)] else [] | none => []
  let e := (s.pool.withheld.filter fun w => w.1 = k).map fun w => (w.2, 1)
  sortBy (fun x y => x.1 ≤ y.1) (a ++ b ++ c ++ d ++ e)

/-- The gaps between used runs from lo on. -/
def gaps : Nat → List (Nat × Nat) → List (Nat × Nat)
  | lo, [] => if lo < stackUnits then [(lo, stackUnits - lo)] else []
  | lo, (b, l) :: r => (if lo < b then [(lo, b - lo)] else []) ++ gaps (max lo (b + l)) r

/-- Free runs of a stack, from the lowest offset. -/
def freeRuns (s : State) (k : Nat) : List (Nat × Nat) := gaps 0 (usedRuns s k)

/-- Free units of a stack. -/
def freeUnits (s : State) (k : Nat) : Nat := sumBy Prod.snd (freeRuns s k)

/-- Units of coherent extents on a stack, reservations of a migration included (05 R213, R215). -/
def cohUsed (s : State) (k : Nat) : Nat :=
  let xs := ((s.pool.regions.filter fun g => g.mode = .coherent).map Region.exts).flatten
  sumBy Extent.len (xs.filter fun x => x.stack = k) + sumBy Extent.len (xs.filter fun x => x.migrating && x.newStack == k)

/-- Free directory room of a stack (05 R213). -/
def cohRoom (s : State) (k : Nat) : Nat := 4096 - cohUsed s k

/-- A stack's free units as an allocation counts them (05 R214). -/
def roomFor (s : State) (coh : Bool) (k : Nat) : Nat :=
  if coh then min (freeUnits s k) (cohRoom s k) else freeUnits s k

/-- The first free run of at least n units of a stack; a coherent extent needs directory room too (04 R144). -/
def firstFit (s : State) (coh : Bool) (k n : Nat) : Option Nat :=
  if coh && decide (cohRoom s k < n) then none
  else ((freeRuns s k).find? fun r => decide (n ≤ r.2)).map Prod.fst

/-- Stacks in service of a mask; a mask of 0 takes all (04 R143). -/
def maskStacks (s : State) (mask : Nat) : List Nat :=
  (List.range 32).filter fun k => inService s k && (mask == 0 || bit mask k)

/-- Stacks by most free units, ties to the lower number (04 R144). -/
def byFree (s : State) (coh : Bool) (ks : List Nat) : List Nat :=
  sortBy (fun a b => roomFor s coh a ≥ roomFor s coh b) ks

/-- The largest power of two not above n (04 R144). -/
def powBelow (n : Nat) : Nat := if n = 0 then 0 else 2 ^ Nat.log2 n

/-- PLACE SPREAD: the effective size and the extents, or none (04 R144). -/
def placeSpread (s : State) (coh : Bool) (mask size : Nat) : Option (Nat × List Extent) :=
  let ks := maskStacks s mask
  let n := powBelow ks.length
  if n = 0 then none
  else
    let size := ceilDiv size n * n
    let per := size / n
    let fit := (byFree s coh ks).filterMap fun k => (firstFit s coh k per).map fun b => (k, b)
    if fit.length < n then none
    else
      let ch := sortBy (fun a b => a.1 ≤ b.1) (fit.take n)
      some (size, ((List.range n).zip ch).map fun p =>
        { base := p.2.2, stack := p.2.1, start := p.1 * per, len := per })

/-- Take runs for n units in the order given, within the directory room left per stack. -/
def takeRuns (coh : Bool) : List (Nat × Nat × Nat) → (Nat → Nat) → Nat → Nat → List Extent
  | [], _, _, _ => []
  | (k, b, l) :: r, room, start, n =>
    if n = 0 then []
    else
      let m := min n (if coh then min l (room k) else l)
      if m = 0 then takeRuns coh r room start n
      else { base := b, stack := k, start := start, len := m } ::
        takeRuns coh r (fun j => if j = k then room j - m else room j) (start + m) (n - m)

/-- PLACE PACK: the extents, or none (04 R145). -/
def placePack (s : State) (coh : Bool) (mask size : Nat) : Option (List Extent) :=
  let runs := ((maskStacks s mask).map fun k => (freeRuns s k).map fun r => (k, r.1, r.2)).flatten
  let xs := takeRuns coh (sortBy (fun a b => a.2.2 ≥ b.2.2) runs) (cohRoom s) 0 size
  if sumBy Extent.len xs = size && decide (xs.length ≤ 64) then some xs else none

/-- Units that a tenant holds in local extents and anchor shadows (04 R124). -/
def memUnits (s : State) (tid : Nat) : Nat :=
  sumBy (fun g => sumBy Extent.len (g.exts.filter fun x => x.anchor.isNone))
    (s.pool.regions.filter fun g => g.owner = tid)
  + countIf (fun u => match anchorAt s u.anchor with | some a => a.tid == tid | none => false) s.pool.shadows

/-- Units of a tenant's coherent regions (04 R124). -/
def cohUnits (s : State) (tid : Nat) : Nat :=
  sumBy Region.size (s.pool.regions.filter fun g => g.owner = tid && g.mode = .coherent)

/-- A limit of a tenant; 0 where it has no slot. -/
def limitOf (s : State) (tid : Nat) (f : TenantCfg → Nat) : Nat :=
  match tenantOf s tid with | some t => f t | none => 0

/-- n more units fit MAX_MEM_GIB. -/
def memFits (s : State) (tid n : Nat) : Bool := decide (memUnits s tid + n ≤ limitOf s tid TenantCfg.maxMemGib * 512)

/-- Drop unpinned shadow units of a tenant, oldest first, until n units fit or none remain (04 R169). -/
def shadowRelease (tid n : Nat) : Nat → State → State
  | 0, s => s
  | k + 1, s =>
    if memFits s tid n then s
    else match s.pool.shadows.find? fun u => !u.pinned &&
        (match anchorAt s u.anchor with | some a => a.tid == tid | none => false) with
      | none => s
      | some u => shadowRelease tid n k (setPool (fun p => { p with
          shadows := eraseFirst (fun x => x == u) p.shadows }) s)

/-- Make room under MAX_MEM_GIB (04 R169). -/
def makeRoom (tid n : Nat) (s : State) : State := shadowRelease tid n s.pool.shadows.length s

/-- Windows of a tenant. -/
def windowCount (s : State) (tid : Nat) : Nat := countIf (fun w => w.owner = tid) s.pool.windows

/-- Regions of a tenant. -/
def regionCount (s : State) (tid : Nat) : Nat := countIf (fun g => g.owner = tid) s.pool.regions

/-- An anchor that its lender has got back and that waits for the end of its region (04 R165). -/
def anchorGone (s : State) (a : Anchor) : Bool :=
  a.st == .revoking && !(s.pool.revs.any fun r => r.kind = 4 && r.id = a.idx)

/-- Anchors lent to a tenant (04 R124). -/
def anchorCount (s : State) (tid : Nat) : Nat := countIf (fun a => a.tid = tid && !anchorGone s a) s.pool.anchors

/-- Extent-table entries in use. -/
def xtUsed (s : State) : Nat := sumBy (fun g => g.exts.length) s.pool.regions

/-- The first run of n free extent-table entries after the runs given in rising order (04 R129, R132). -/
def xtFind (n : Nat) : Nat → List (Nat × Nat) → Option Nat
  | lo, [] => if lo + n ≤ 262144 then some lo else none
  | lo, (b, l) :: r => if lo + n ≤ b then some lo else xtFind n (max lo (b + l)) r

/-- XT_BASE of a new region of n extents. -/
def xtBase (s : State) (n : Nat) : Option Nat :=
  xtFind n 0 (sortBy (fun a b => a.1 ≤ b.1) (s.pool.regions.map fun g => (g.xtBase, g.exts.length)))

/-- The free region index from pick on (log entry 16). -/
def freeRegion (s : State) (pick : Nat) : Option Nat :=
  findFree (fun i => !(s.pool.regions.any fun g => g.idx = i)) 65536 pick

/-- Zero the local extents of a list that are not lost (04 R147, R176). -/
def zeroExtents (xs : List Extent) (s : State) : State :=
  (xs.filter fun x => x.anchor.isNone && !x.lost).foldl (fun s x => zeroDram (paOf x 0) (x.len * unit2M) s) s

end Sys2Proof.Machine
end

