-- ==== Sys2Proof/Machine/Directory.lean ====
section
/-! DEFINITION. The coherence directory: entries, the messages to sharers, and the transitions of a line up to the point where a
request may be served (05_coherence R188 to R206; 06_pool_verbs R236). -/

namespace Sys2Proof.Machine

/-- The directory entry of a line; a line that is not listed is in I (05 R192). -/
def dirAt (s : State) (g line : Nat) : DirEnt :=
  match s.coh.dir.find? fun d => d.region = g && d.line = line with
  | some d => d
  | none => { region := g, line := line }

/-- Put a directory entry back; a line in I is not listed. -/
def setDir (d : DirEnt) (s : State) : State :=
  setCoh (fun c =>
    let rest := c.dir.filter fun x => !(x.region == d.region && x.line == d.line)
    { c with dir := if d.st = .inv then rest else d :: rest }) s

/-- A line waits for acknowledgements (05 R194). -/
def dirWaiting (d : DirEnt) : Bool := d.st == .waitInv || d.st == .waitRcl

/-- Lines in WAIT_INV or WAIT_RCL (05 R194, R218). -/
def waitingLines (s : State) : Nat := countIf dirWaiting s.coh.dir

/-- A directory lookup: the cache, and the figures of COH_DIRC (05 R192, R218). -/
def dirLookup (g line : Nat) (s : State) : State :=
  setCoh (fun c =>
    let hit := c.cache.contains (g, line)
    { c with
      lookups := c.lookups + 1, misses := c.misses + b2n (!hit)
      cache := (g, line) :: (c.cache.filter fun x => x ≠ (g, line)).take 262143 }) s

/-- A line of a READ_MOSTLY range (05 R200). -/
def readMostlyLine (g : Region) (line : Nat) : Bool :=
  g.readMostly.any fun r => decide (r.1 ≤ line) && decide (line < r.1 + r.2)

/-- The VA of a line in the window that a slot uses (06 R236). -/
def lineVa (s : State) (win line : Nat) : Nat :=
  match windowOf s win with
  | some w => w.vaBase * unit2M + line * 128 - w.regOfs * unit2M
  | none => line * 128

/-- Send INVAL (kind 0), RECALL (kind 1) or COH_REVOKE (kind 2) to a slot of a region; it leaves after the responses that have granted
the node lines (06 R236, R256; 05 R217). -/
def cohSend (kind region line slot : Nat) (toInv : Bool) (s : State) : State :=
  match regionAt s region with
  | none => s
  | some g => match slotAt g slot with
    | none => s
    | some x =>
      let (s, tag) := freshTag s
      let s := setCoh (fun c => { c with
        msgs := c.msgs ++ [{ tag := tag, kind := kind, region := region, line := line, slot := slot, node := x.node }]
        invals := if kind = 0 then satAdd 16 c.invals 1 else c.invals
        recalls := if kind = 1 then satAdd 16 c.recalls 1 else c.recalls }) s
      sendMsg x.node false { tc := 0, tid := some g.owner, behind := respsAhead s x.node, body := .req {
        tc := 0, opcode := BitVec.ofNat 8 (0x81 + kind), subop := if kind = 1 && toInv then 1 else 0,
        tid := BitVec.ofNat 16 g.owner, tag := BitVec.ofNat 32 tag, win := BitVec.ofNat 32 x.win,
        va := w64 (if kind = 2 then 0 else lineVa s x.win line), op0 := w64 (if kind = 2 then region else 0) } } s

/-- What a request does to a line: an uncached LOAD, a cached LOAD of intent S or M, or a write. -/
inductive LineUse
  | loadU | loadS | loadM | write
deriving DecidableEq, Repr

/-- Sharer slots of an entry. -/
def sharersOf (d : DirEnt) : List Nat := (List.range 64).filter fun k => d.sharers.getLsbD k

/-- The sharers that a use must invalidate (05 R196). -/
def mustInval (d : DirEnt) (u : LineUse) (slot : Option Nat) : List Nat :=
  match u with
  | .loadM => (sharersOf d).filter fun k => slot ≠ some k
  | .write => sharersOf d
  | _ => []

/-- A line is stable and the use needs no message (05 R196). -/
def lineReady (d : DirEnt) (u : LineUse) (slot : Option Nat) : Bool :=
  match d.st with
  | .inv | .lostModified => true
  | .shared => (mustInval d u slot).isEmpty
  | .excl => slot == some d.owner
  | .modified | .waitInv | .waitRcl => false

/-- Start what a use needs on a stable line: INVALs, a RECALL, or the wait for the owner's WRITEBACK (05 R196). -/
def lineStart (d : DirEnt) (u : LineUse) (slot : Option Nat) (s : State) : State :=
  match d.st with
  | .shared =>
    let t := mustInval d u slot
    t.foldl (fun s k => cohSend 0 d.region d.line k false s)
      (setDir { d with st := .waitInv, pend := t.length } s)
  | .excl | .modified =>
    if slot = some d.owner then setDir { d with st := .waitRcl, wbWait := true, toShared := false } s
    else
      let toS := u = .loadU || u = .loadS
      cohSend 1 d.region d.line d.owner (!toS) (setDir { d with st := .waitRcl, toShared := toS } s)
  | _ => s

/-- The state of a line after a use that was ready (05 R196, R200, R211); any LOAD of the owner in E leaves it E or M by intent, an
uncached one by the default intent S (log entry 22). -/
def lineAfter (g : Region) (d : DirEnt) (u : LineUse) (slot : Option Nat) : DirEnt :=
  let k := slot.getD 0
  match d.st with
  | .lostModified => d
  | _ => match u with
    | .loadU => d
    | .loadS =>
      if d.st = .shared then { d with sharers := d.sharers ||| (1#64 <<< k) }
      else if readMostlyLine g d.line then { d with st := .shared, sharers := 1#64 <<< k }
      else { d with st := .excl, owner := k, sharers := 1#64 <<< k }
    | .loadM => { d with st := .modified, owner := k, sharers := 1#64 <<< k, pend := 0, wbWait := false }
    | .write => { d with st := .inv }

/-- The state a cached LOAD reports: 1 S, 2 E, 3 M (06 R230). -/
def grantCode (d : DirEnt) : Nat := match d.st with | .shared => 1 | .excl => 2 | _ => 3

/-- A line leaves its waiting state when nothing is outstanding (05 R196). -/
def settle (d : DirEnt) : DirEnt :=
  match d.st with
  | .waitInv =>
    if d.pend = 0 then (if d.sharers = 0 then { d with st := .inv } else { d with st := .shared }) else d
  | .shared => if d.sharers = 0 then { d with st := .inv } else d
  | _ => d

/-- The end of a recall: S with the former owner, or I (05 R196). -/
def recallEnd (d : DirEnt) : DirEnt :=
  if d.toShared then { d with st := .shared, sharers := 1#64 <<< d.owner, wbWait := false }
  else { d with st := .inv, wbWait := false }

/-- What the end of a slot's lease does to an entry, and whether the line is lost (05 R196, R205). -/
def lineOnLeaseEnd (k : Nat) (asked : Bool) (d : DirEnt) : DirEnt × Bool :=
  let d := { d with sharers := d.sharers &&& ~~~ (1#64 <<< k) }
  match d.st with
  | .excl | .modified | .waitRcl =>
    if d.owner = k then ({ d with st := .lostModified, sharers := 0, pend := 0, wbWait := false }, true) else (d, false)
  | .waitInv => (settle { d with pend := if asked then d.pend - 1 else d.pend }, false)
  | _ => (settle d, false)

/-- Drop a slot from every entry of its region; lost says whether the lines it owns become LM, or are released
(05 R204, R205). -/
def dropSlotLines (g k : Nat) (lost : Bool) (s : State) : State :=
  let asked := fun (l : Nat) => s.coh.msgs.any fun m => m.kind = 0 && m.region = g && m.slot = k && m.line = l
  let mine := s.coh.dir.filter fun d => d.region = g
  let res := mine.map fun d => lineOnLeaseEnd k (asked d.line) d
  let ents := res.map fun x => if x.2 && !lost then { x.1 with st := .inv } else x.1
  let made := countIf (fun x => x.2) res
  let s := setCoh (fun c => { c with
    dir := (c.dir.filter fun d => d.region ≠ g) ++ ents.filter (fun d => d.st ≠ .inv)
    msgs := c.msgs.filter fun m => !(m.region == g && m.slot == k) }) s
  if lost then modSlot g k (fun x => { x with lmMade := x.lmMade + made }) s else s

/-- A slot's lease ends: DEAD at once, and the lines it owned are lost (05 R202, R205). -/
def leaseEnd (g k : Nat) (s : State) : State :=
  match (regionAt s g).bind fun x => slotAt x k with
  | none => s
  | some x =>
    if x.dead then s
    else
      dropSlotLines g k (match regionAt s g with | some y => y.st ≠ .revoking | none => false) (setCoh (fun c => { c with leaseEnd := satAdd 16 c.leaseEnd 1 })
        (modSlot g k (fun y => { y with dead := true, lmMade := 0 }) s))

/-- Free a slot (05 R204, R205). -/
def freeSlot (g k : Nat) (s : State) : State :=
  modRegion g (fun x => { x with slots := x.slots.filter fun y => y.k ≠ k }) s

end Sys2Proof.Machine
end

