-- ==== Sys2Proof/Machine/Access.lean ====
section
/-! DEFINITION. Accesses to pool memory: pieces of an access, anchors and their shadows, the budget of a PARTITIONED tenant,
mirrored writes, the directory's gate, and the memory verbs as attempts that may wait (04_pool_memory R135 to R140, R155,
R163, R168; 05_coherence R190 to R211; 06_pool_verbs R230 to R235; 12 R504). -/

namespace Sys2Proof.Machine

/-! Pieces -/

/-- Cut a part at multiples of b bytes of its extent offset. -/
def cutN (b : Nat) : Nat → Part → List Part
  | 0, _ => []
  | n + 1, p =>
    let k := min p.len (b - p.ofs % b)
    if p.len = 0 then []
    else { p with len := k } ::
      cutN b n { p with pos := p.pos + k, o := p.o + k, ofs := p.ofs + k, len := p.len - k }

/-- A part at multiples of b bytes. -/
def cutAt (b : Nat) (p : Part) : List Part := cutN b (p.len / b + 2) p

/-- The pieces of an access: a local part whole, an anchor part in messages of at most 2,048 B, a coherent one by lines. -/
def pieces (coh : Bool) (ps : List Part) : List Part :=
  (ps.map fun p => if coh then cutAt 128 p else if p.x.anchor.isSome then cutAt 2048 p else [p]).flatten

/-- The plaintext of a piece that a lender sent (04 R163). -/
def lenderData (s : State) (p : Part) (d : List Byte) : List Byte :=
  match p.x.anchor.bind (anchorAt s) with
  | some a => openAnchor s a.tid a.idx p.ofs (slice d 0 p.len)
  | none => slice d 0 p.len

/-- Read the pieces of an access; got holds the lenders' data by place. -/
def readPieces (src : Nat) (got : List (Nat × List Byte)) : List Part → State → State × Option (List Byte)
  | [], s => (s, some [])
  | p :: ps, s =>
    let (s, d) := match pieceAddr s p with
      | some pa => readDram src pa p.len s
      | none => (s, (assoc p.pos got).map (lenderData s p))
    let (s, t) := readPieces src got ps s
    match d, t with
    | some d, some t => (s, some (d ++ t))
    | _, _ => (s, none)

/-- Pieces that only their lender can read. -/
def needRd (s : State) (got : List (Nat × List Byte)) (ps : List Part) : List Part :=
  ps.filter fun p => (pieceAddr s p).isNone && (assoc p.pos got).isNone

/-- Remember which anchor a message is about (04 R164). -/
def noteAncTag (tag a : Nat) (s : State) : State := setPool (fun p => { p with ancTags := p.ancTags ++ [(tag, a)] }) s

/-- Send ANCHOR_RD for a piece (06 R237); the TAG goes with the place of its data. -/
def anchorRd (owner key : Nat) (p : Part) (s : State) : State × (Nat × Nat) :=
  let (s, tag) := freshTag s
  match p.x.anchor.bind (anchorAt s) with
  | none => (s, (tag, key))
  | some a => (noteAncTag tag a.idx <| sendMsg a.lender false { tc := 0, tid := some owner, body := .req {
      tc := 0, opcode := 0x88, tid := BitVec.ofNat 16 owner, len := BitVec.ofNat 16 p.len,
      tag := BitVec.ofNat 32 tag, win := BitVec.ofNat 32 a.rwin, va := w64 p.ofs } } s, (tag, key))

/-- An anchor is written: an ATOMIC or a shadow fill that has read it must read it again (04 R167; 05 R187). -/
def markDirty (a : Nat) (s : State) : State :=
  let hit := fun (w : Waiting) => (w.op = 4 || w.op = 8 || w.op = 9) && (match w.why with | .anchorRd _ _ => true | _ => false)
    && (match (windowAt s (reqWin w.req % 2 ^ 16)).bind fun x => regionAt s x.region with
      | some g => g.exts.any fun x => x.anchor = some a
      | none => false)
  setVrb (fun v => { v with waiting := mapIf hit (fun w => { w with dirty := true }) v.waiting }) s

/-- Send ANCHOR_WR for a piece (06 R237). -/
def anchorWr (owner : Nat) (p : Part) (d : List Byte) (s : State) : State × Nat :=
  let s := match p.x.anchor with | some a => markDirty a s | none => s
  let (s, tag) := freshTag s
  match p.x.anchor.bind (anchorAt s) with
  | none => (s, tag)
  | some a => (noteAncTag tag a.idx <| sendMsg a.lender false { tc := 2, tid := some owner, body := .req {
      tc := 2, opcode := 0x89, tid := BitVec.ofNat 16 owner, len := BitVec.ofNat 16 p.len,
      tag := BitVec.ofNat 32 tag, win := BitVec.ofNat 32 a.rwin, va := w64 p.ofs, payload := sealAnchor s a.tid a.idx p.ofs d } } s, tag)

/-- Send ANCHOR_RD for every piece of a list. -/
def anchorRds (owner base : Nat) : List Part → State → State × List (Nat × Nat)
  | [], s => (s, [])
  | p :: ps, s =>
    let (s, t) := anchorRd owner (base + p.pos) p s
    let (s, ts) := anchorRds owner base ps s
    (s, t :: ts)

/-- A write that a mirror peer must commit too (04 R155). -/
def mirrorLive (g : Region) : Bool := g.mode == .mirrored && g.bound && !g.isShadow && g.st == .active

/-- Send MIRROR_WRITE for committed bytes (04 R155; 06 R237). -/
def mirrorWr (g : Region) (o : Nat) (d : List Byte) (s : State) : State × Nat :=
  let (s, tag) := freshTag s
  (mirrorMsg g.shadowNode 0x91 g.owner tag 0 g.idx 0 o 0 d s, tag)

/-- MIRROR_WRITEs for bytes of any length, in messages of at most 2,048 B. -/
def mirrorWrs (g : Region) : Nat → Nat → List Byte → State → State × List Nat
  | 0, _, _, s => (s, [])
  | n + 1, o, d, s =>
    if d.isEmpty then (s, [])
    else
      let (s, t) := mirrorWr g o (d.take 2048) s
      let (s, ts) := mirrorWrs g n (o + 2048) (d.drop 2048) s
      (s, t :: ts)

/-- The extent of a region that occupies the run of an extent that has been looked up. -/
def extentNow (s : State) (g : Nat) (x : Extent) : Extent :=
  match (regionAt s g).bind fun y => y.exts.find? fun z => z.anchor.isNone && z.stack = x.stack && z.base = x.base with
  | some z => z
  | none => x

/-- The copy of a migrating extent has gone on: COPY_PTR advances by a free number of MiB, within the extent, and their lines are in
the new run (04 R178; log entry 13). -/
def advanceCopy (g : Nat) (x : Extent) (s : State) : State :=
  let y := extentNow s g x
  if !y.migrating then s
  else
    let (s, i) := takeFree 1 s
    let n := Config.freeNat i % (2 * y.len - y.copyPtr + 1)
    let src := y.stack * 2 ^ 36 + y.base * unit2M + y.copyPtr * 2 ^ 20
    let s := copyDram src (y.newStack * 2 ^ 36 + y.newBase * unit2M + y.copyPtr * 2 ^ 20) (n * 2 ^ 20) s
    modRegion g (fun r => { r with exts := mapIf (fun z => z == y) (fun z => { z with copyPtr := z.copyPtr + n }) r.exts }) s

/-- DRAM writes follow the migration of their extent: a line below COPY_PTR commits to both copies (04 R178). -/
def writeBoth (g : Nat) (p : Part) (pa : Nat) (d : List Byte) (s : State) : State × Status :=
  let s := if p.x.anchor.isNone && p.x.migrating then advanceCopy g p.x s else s
  let x := extentNow s g p.x
  let (s, st) := writeDram pa d s
  if p.x.anchor.isNone && x.migrating && decide (p.ofs / 2 ^ 20 < x.copyPtr) then
    let (s, st') := writeDram (x.newStack * 2 ^ 36 + x.newBase * unit2M + p.ofs) d s
    (s, worse st st')
  else (s, st)

/-- Write one piece: DRAM, a shadow, the lender, and the mirror peer; the TAGs of the messages sent (04 R155, R163,
R168). -/
def writePiece (g : Region) (p : Part) (d : List Byte) (s : State) : State × Status × List Nat :=
  let (s, st) := match pieceAddr s p with
    | some pa => writeBoth g.idx p pa d s
    | none => (s, .ok)
  if st = .ok then
    if p.x.anchor.isSome then
      let (s, t) := anchorWr g.owner p d s
      (s, st, [t])
    else if mirrorLive g then
      let (s, ts) := mirrorWrs g (d.length / 2048 + 1) p.o d s
      (s, st, ts)
    else (s, st, [])
  else (s, st, [])

/-! The budget of a PARTITIONED tenant (12 R504) -/

/-- Bytes of an access per stack. -/
def stackBytes (s : State) (ps : List Part) : List (Nat × Nat) :=
  ps.foldl (fun m p => match pieceAddr s p with
    | some pa => setAssoc (paStack pa) (assocD 0 (paStack pa) m + p.len) m
    | none => m) []

/-- The budget of a tenant holds an access; an empty budget is never refused (log entry 23). -/
def budgetFits (q : PartRec) (m : List (Nat × Nat)) : Bool :=
  m.all fun x => let u := assocD 0 x.1 q.budget; u == 0 || decide (u + x.2 ≤ q.rate)

/-- Use the budget of a tenant for an access, or answer that it must wait. -/
def useBudget (tid : Nat) (ps : List Part) (s : State) : Option State :=
  match s.qos.parts.find? fun q => q.tid = tid with
  | none => some s
  | some q =>
    let m := stackBytes s ps
    if budgetFits q m then
      let b := m.foldl (fun b x => setAssoc x.1 (assocD 0 x.1 b + x.2) b) q.budget
      some (setQos (fun c => { c with parts := mapIf (fun y => y.tid = tid) (fun y => { y with budget := b }) c.parts }) s)
    else none

/-! The directory's gate (05 R194, R196) -/

/-- Lines claimed by requests and descriptors that came before (05 R194, R197). -/
def claimed (s : State) (ord : Nat) : List (Nat × Nat) :=
  ((s.vrb.waiting.filter fun w => decide (w.ord < ord)).map fun w => if waitsCoh w then waitLines s w else w.lines).flatten
    ++ (s.bulk.qs.map fun q => ((q.descs.filter fun x => x.phase = .running && decide (x.ord < ord)).map DescRec.lines).flatten).flatten

/-- What the gate answers. -/
inductive Gate
  | go | wait | busy
deriving DecidableEq, Repr

/-- Look the lines of a request up and start what they need; go when every line is ready (05 R194, R196). -/
def cohGate (ord g : Nat) (lines : List Nat) (u : LineUse) (slot : Option Nat) (s : State) : State × Gate :=
  let s := lines.foldl (fun s l => dirLookup g l s) s
  if (claimed s ord).any fun x => x.1 = g && lines.contains x.2 then (s, .wait)
  else
    let ds := lines.map (dirAt s g)
    if ds.all fun d => lineReady d u slot then (s, .go)
    else
      let start := ds.filter fun d => !dirWaiting d && !lineReady d u slot
      if 16384 < waitingLines s + start.length then
        (setCoh (fun c => { c with busyFull := satAdd 16 c.busyFull 1 }) s, .busy)
      else (start.foldl (fun s d => lineStart d u slot s) s, .wait)

/-! The memory verbs -/

/-- Answer a memory verb; a STORE_NOTIFY that completes with OK sends its NOTIFY first (06 R235). -/
def finishMem (w : Waiting) (p : Resp) (s : State) : State :=
  let r := w.req
  let s := if w.op = 3 && reqSendEvt r && p.status = .ok then
      let tid := match windowAt s (reqWin r % 2 ^ 16) with | some x => x.owner | none => reqTid r
      event (op0 r % 2 ^ 20) 0x02 .ok tid (reqWin r) (reqVa r) r.src (op1 r) s
    else s
  reply w p s

/-- Answer a memory verb with a status alone. -/
def finishSt (w : Waiting) (st : Status) (s : State) : State := finishMem w (mkResp s w.req st) s

/-- A write goes on to its answer, or waits for lenders and the mirror peer. -/
def finishWrite (w : Waiting) (p : Resp) (anchor : Bool) (tags : List Nat) (old : List Byte) (s : State) : State :=
  if tags.isEmpty then finishMem w p s
  else if anchor then waitFor w (.anchorWr tags p.status old) s
  else waitFor w (.mirror tags p) s

/-- The worst status of the parts of an access (04 R135 step 5, R139). -/
def partsStatus (s : State) (ord owner : Nat) (ps : List Part) : Status :=
  ps.foldl (fun a p => worse a (partStatus s ord owner p)) .ok

/-- A line is in LM (05 R207). -/
def lineLm (s : State) (g line : Nat) : Bool := (dirAt s g line).st == .lostModified

/-- Lines of parts. -/
def linesOfParts (ps : List Part) : List Nat :=
  ((ps.map fun p => (List.range ((p.o + p.len - 1) / 128 - p.o / 128 + 1)).map fun i => p.o / 128 + i).flatten).eraseDups

/-- Serve a LOAD whose directory gate is open (06 R230, R234). -/
def loadData (w : Waiting) (g : Region) (ps : List Part) (got : List (Nat × List Byte)) (code : Nat) (s : State) : State :=
  let pc := pieces false ps
  let need := needRd s got pc
  if need.isEmpty then
    match useBudget (ctxTid s w.ord w.req) pc s with
    | none => waitFor w .budget s
    | some s =>
      match readPieces 0 got pc s with
      | (s, some d) => finishMem w { mkResp s w.req .ok with payload := d, r0 := w64 code } s
      | (s, none) => finishSt w .poisoned s
  else
    let (s, tags) := anchorRds g.owner 0 need s
    waitFor w (.anchorRd tags got) s

/-- LOAD (06 R230 to R234; 05 R190 to R196, R207). Alignment and the payload are checked before the steps of 04 R135; the spec gives
the two no order: DESIGN CHOICE (log entry 82). -/
def loadRun (w : Waiting) (got : List (Nat × List Byte)) (s : State) : State :=
  let r := w.req
  let cached := reqCached r
  let len := if cached then 128 else clampTo 1 2048 (reqLen r)
  if cached && reqVa r % 128 ≠ 0 then finishSt w .denied s
  else
    match checkAccess s w.ord (reqWin r) (reqTid r) r.src (reqVa r) len rightR with
    | .bad st => finishSt w st s
    | .ok _ g o =>
      let ps := partsOf g o len
      let st := partsStatus s w.ord g.owner ps
      if cached && (g.mode = .uncached || g.mode = .mirrored) then finishSt w .denied s
      else if g.mode = .coherent then
        let slot := (slotOf g r.src).map Slot.k
        if cached && slot.isNone then finishSt w .denied s
        else
          let u := if !cached then LineUse.loadU else if reqIntentM r then .loadM else .loadS
          match (if u = .loadM then checkAccess s w.ord (reqWin r) (reqTid r) r.src (reqVa r) len (rightR + rightW)
            else .ok {} g o) with
          | .bad st => finishSt w st s
          | .ok _ _ _ =>
            if st ≠ .ok then finishSt w st s
            else
              let lines := linesOfParts ps
              match cohGate w.ord g.idx lines u slot s with
              | (s, .busy) => finishSt w .busy s
              | (s, .wait) => waitFor w .coh s
              | (s, .go) =>
                if lines.any (lineLm s g.idx) then finishSt w .poisoned s
                else if (useBudget (ctxTid s w.ord r) ps s).isNone then waitFor w .budget s
                else
                  let ds := lines.map fun l => lineAfter g (dirAt s g.idx l) u slot
                  let s := ds.foldl (fun s d => setDir d s) s
                  let code := if cached then (match ds with | d :: _ => grantCode d | [] => 0) else 0
                  loadData w g ps got code s
      else if st ≠ .ok then finishSt w st s
      else loadData w g ps got (if cached then 3 else 0) s

/-- Write the pieces of a STORE that pass their checks (06 R234; 05 R207): the worst status and the TAGs sent. -/
def storePieces (ord : Nat) (g : Region) (data : List Byte) : List Part → State → State × Status × List Nat
  | [], s => (s, .ok, [])
  | p :: ps, s =>
    let st := partStatus s ord g.owner p
    let lm := g.mode = .coherent && lineLm s g.idx (p.o / 128)
    let (s, st, tags) :=
      if st ≠ .ok then (s, st, [])
      else if lm && p.len ≠ 128 then (s, .poisoned, [])
      else
        let (s, st, tags) := writePiece g p (slice data p.pos p.len) s
        let s := if g.mode = .coherent then setDir { region := g.idx, line := p.o / 128 } s else s
        (s, st, tags)
    let (s, st', tags') := storePieces ord g data ps s
    (s, worse st st', tags ++ tags')

/-- Earlier writes of a STORE_NOTIFY's source to its window that have not completed (06 R235). -/
def earlierWrites (s : State) (w : Waiting) : Bool :=
  s.vrb.waiting.any fun e => e.req.src = w.req.src && !reqCtl e.req && reqWin e.req = reqWin w.req && decide (e.ord < w.ord)
    && (e.op = 2 || e.op = 3 || e.op = 4)

/-- Earlier admitted verbs may still write to a region (09 R357). -/
def writesPending (s : State) (i ord : Nat) : Bool :=
  s.vrb.waiting.any fun w => w.op ≠ 1 && decide (w.ord < ord) && inRegion s i w

/-- STORE, STORE_NOTIFY, and a WRITEBACK of a PRIVATE region (06 R230, R232, R234, R235). The coherence actions of a STORE_NOTIFY begin
after its hold: DESIGN CHOICE (05 R198; log entry 56). -/
def storeRun (w : Waiting) (s : State) : State :=
  let r := w.req
  let slots := reqSlots r
  let len := if w.op = 0x2B then 128 else clampTo 1 (64 * slots) (reqLen r)
  if slots = 0 || (w.op = 0x2B && reqVa r % 128 ≠ 0) then finishSt w .denied s
  else if w.op = 3 && earlierWrites s w then waitFor w .notify s
  else
    match checkAccess s w.ord (reqWin r) (reqTid r) r.src (reqVa r) len rightW with
    | .bad st => finishSt w st s
    | .ok x g o =>
      if w.op = 3 && reqSendEvt r && !covered (grantsOf x) (op0 r % 2 ^ 20) then finishSt w .denied s
      else
        let ps := partsOf g o len
        let good := ps.filter fun p => partStatus s w.ord g.owner p = .ok
        let slot := (slotOf g r.src).map Slot.k
        match (if g.mode = .coherent then cohGate w.ord g.idx (linesOfParts good) .write slot s else (s, .go)) with
        | (s, .busy) => finishSt w .busy s
        | (s, .wait) => waitFor w .coh s
        | (s, .go) =>
          match useBudget (ctxTid s w.ord r) good s with
          | none => waitFor w .budget s
          | some s =>
            let (s, st, tags) := storePieces w.ord g r.payload (pieces (g.mode = .coherent) ps) s
            finishWrite w (mkResp s r st) (g.mode ≠ .mirrored) tags [] s

/-- Compare as the SIGNED bit says (06 R233). -/
def atomicLess (w : Nat) (signed : Bool) (a b : Nat) : Bool :=
  let h := 2 ^ (8 * w - 1)
  if signed then decide ((a + h) % (2 * h) < (b + h) % (2 * h)) else decide (a < b)

/-- The new value of an ATOMIC, or none where it writes nothing (06 R233). -/
def atomicNew (op w : Nat) (signed : Bool) (old a b : Nat) : Option Nat :=
  match op with
  | 1 => some ((old + a) % 2 ^ (8 * w))
  | 2 => some a
  | 3 => if old = a then some b else none
  | 4 => some (if atomicLess w signed a old then a else old)
  | 5 => some (if atomicLess w signed old a then a else old)
  | _ => none

/-- Serve an ATOMIC whose directory gate is open: one read-modify-write (05 R187; 06 R233). -/
def atomicDo (w : Waiting) (g : Region) (ps : List Part) (got : List (Nat × List Byte)) (s : State) : State :=
  let r := w.req
  let width := atomicWidth r
  let need := needRd s got (pieces false ps)
  if need.isEmpty then
    match useBudget (ctxTid s w.ord r) ps s with
    | none => waitFor w .budget s
    | some s =>
      match readPieces 0 got (pieces false ps) s with
      | (s, none) => finishSt w .poisoned s
      | (s, some d) =>
        let old := ofLe d
        let m := 2 ^ (8 * width)
        match atomicNew (r.subop.toNat % 8) width (r.subop.getLsbD 4) old (op0 r % m) (op1 r % m) with
        | none => finishMem w { mkResp s r .ok with r0 := w64 old } s
        | some v =>
          let (s, st, tags) := storePieces w.ord g (le width v) (pieces (g.mode = .coherent) ps) s
          finishWrite w { mkResp s r st with r0 := w64 (if st = .ok then old else 0) } (g.mode ≠ .mirrored) tags d s
  else
    let (s, tags) := anchorRds g.owner 0 need s
    waitFor w (.anchorRd tags got) s

/-- ATOMIC (06 R230 to R233; 05 R187, R207, R211). -/
def atomicRun (w : Waiting) (got : List (Nat × List Byte)) (s : State) : State :=
  let r := w.req
  let width := atomicWidth r
  if reqVa r % width ≠ 0 then finishSt w .denied s
  else
    match checkAccess s w.ord (reqWin r) (reqTid r) r.src (reqVa r) width rightA with
    | .bad st => finishSt w st s
    | .ok _ g o =>
      let ps := partsOf g o width
      let st := partsStatus s w.ord g.owner ps
      if st ≠ .ok then finishSt w st s
      else if g.mode = .coherent then
        match cohGate w.ord g.idx [o / 128] .write ((slotOf g r.src).map Slot.k) s with
        | (s, .busy) => finishSt w .busy s
        | (s, .wait) => waitFor w .coh s
        | (s, .go) =>
          if lineLm s g.idx (o / 128) then finishSt w .poisoned s
          else atomicDo w g ps got (setDir { region := g.idx, line := o / 128 } s)
      else atomicDo w g ps got s

/-- Where the ranges of a memory verb lie: region, first line and last line. -/
def verbLines (s : State) (r : Req) : List (Nat × Nat × Nat) :=
  (verbRange r).filterMap fun x => (windowOf s x.h).map fun v =>
    let o := x.va - v.vaBase * unit2M + v.regOfs * unit2M
    (v.region, o / 128, (o + x.len - 1) / 128)

/-- A request has not been served yet: its command, the directory, its budget or a lender's read is still to come. -/
def unserved (w : Waiting) : Bool :=
  match w.why with
  | .inbox => true | .coh => true | .budget => true | .notify => true | .anchorRd _ _ => true | _ => false

/-- A cached LOAD or an ATOMIC that its alignment denies accesses no line (06 R231). -/
def misaligned (w : Waiting) : Bool :=
  (w.op = 1 && reqCached w.req && reqVa w.req % 128 ≠ 0) || (w.op = 4 && reqVa w.req % atomicWidth w.req ≠ 0)

/-- An earlier STORE or ATOMIC to a line of a memory verb, from any source, has not been served (06 R255). -/
def overtakes (s : State) (w : Waiting) : Bool :=
  let l := verbLines s w.req
  !misaligned w && s.vrb.waiting.any fun e => decide (e.ord < w.ord) && (e.op = 2 || e.op = 4) && unserved e
    && (verbLines s e.req).any fun x => l.any fun y => x.1 = y.1 && decide (x.2.1 ≤ y.2.2) && decide (y.2.1 ≤ x.2.2)

/-- Try a memory verb, with the lenders' data so far. -/
def memAttempt (w : Waiting) (got : List (Nat × List Byte)) (s : State) : State :=
  if w.op = 1 then loadRun w got s
  else if w.op = 4 then atomicRun w got s
  else storeRun w s

/-- A waiting request is tried again. -/
def retryOne (w : Waiting) (got : List (Nat × List Byte)) (s : State) : State :=
  memAttempt w got (setSvc (verbClass s w.req) (setVrb (fun v => { v with waiting := eraseFirst (fun x => x == w) v.waiting }) s))

/-- Requests that wait for lines are tried again in core-merge order (05 R194). -/
def retryCoh (s : State) : State :=
  (sortBy (fun a b => a.ord ≤ b.ord) (s.vrb.waiting.filter waitsCoh)).foldl (fun s w => retryOne w [] s) s

/-- Requests that wait for a budget are tried again in core-merge order (12 R504). -/
def retryBudget (s : State) : State :=
  (sortBy (fun a b => a.ord ≤ b.ord) (s.vrb.waiting.filter fun w => match w.why with | .budget => true | _ => false)).foldl
    (fun s w => retryOne w [] s) s

end Sys2Proof.Machine
end

