-- ==== Sys2Proof/Machine/Arith.lean ====
section
/-! DEFINITION. Numbers of the engines and movers: exact dyadic values, FP32, BF16 and the narrow formats, and rounding to
nearest even (08_narrow_arithmetic R310 to R324, R332; 06_pool_verbs R246). -/

namespace Sys2Proof.Machine

/-- An exact value m x 2^e. -/
structure Dy where
  /-- Mantissa. -/
  m : Int := 0
  /-- Exponent. -/
  e : Int := 0
deriving DecidableEq, Repr

/-- The exact sum. -/
def dyAdd (a b : Dy) : Dy :=
  if a.m = 0 then b else if b.m = 0 then a
  else if a.e ≤ b.e then { m := a.m + b.m * 2 ^ (b.e - a.e).toNat, e := a.e }
  else { m := a.m * 2 ^ (a.e - b.e).toNat + b.m, e := b.e }

/-- The exact product. -/
def dyMul (a b : Dy) : Dy := { m := a.m * b.m, e := a.e + b.e }

/-- The value times 2^k. -/
def dyScale (a : Dy) (k : Int) : Dy := { a with e := a.e + k }

/-- a is less than b. -/
def dyLt (a b : Dy) : Bool := decide ((dyAdd a { b with m := -b.m }).m < 0)

/-- A value of a floating-point format. -/
inductive Fp
  | nan | inf (neg : Bool) | fin (neg : Bool) (d : Dy)
deriving DecidableEq, Repr

/-- Round a magnitude a x 2^e to nearest even at p fraction bits above the least exponent lmin: the code without sign. -/
def roundMag (p : Nat) (lmin : Int) (a : Nat) (e : Int) : Nat :=
  if a = 0 then 0
  else
    let l := max ((Nat.log2 a : Int) + e - p) lmin
    let n := if l ≤ e then a * 2 ^ (e - l).toNat
      else
        let k := (l - e).toNat
        let q := a / 2 ^ k
        let r := a % 2 ^ k
        if 2 * r < 2 ^ k then q else if 2 ^ k < 2 * r then q + 1 else q + q % 2
    (l - lmin).toNat * 2 ^ p + n

/-- The magnitude that a code without sign denotes. -/
def magOf (p : Nat) (lmin : Int) (c : Nat) : Dy :=
  let x := c / 2 ^ p
  if x = 0 then { m := (c % 2 ^ p : Nat), e := lmin }
  else { m := (2 ^ p + c % 2 ^ p : Nat), e := lmin + (x - 1 : Nat) }

/-- A signed dyadic value. -/
def dySign (neg : Bool) (d : Dy) : Dy := if neg then { d with m := -d.m } else d

/-! FP32 -/

/-- The canonical quiet NaN (08 R318). -/
def f32Nan : BitVec 32 := 0x7FC00000

/-- Decode FP32 (08 R318). -/
def f32Dec (b : BitVec 32) : Fp :=
  let neg := b.getLsbD 31
  let c := b.toNat % 2 ^ 31
  if c = 0x7F800000 then .inf neg
  else if 0x7F800000 < c then .nan
  else .fin neg (dySign neg (magOf 23 (-149) c))

/-- FP32 of a sign and a magnitude code. -/
def f32Pack (neg : Bool) (c : Nat) : BitVec 32 := BitVec.ofNat 32 (b2n neg * 2 ^ 31 + min c 0x7F800000)

/-- Round an exact value to FP32, to nearest even; zero takes the sign given (08 R322, R323). -/
def f32Round (negZero : Bool) (d : Dy) : BitVec 32 :=
  if d.m = 0 then f32Pack negZero 0
  else f32Pack (decide (d.m < 0)) (roundMag 23 (-149) d.m.natAbs d.e)

/-- FP32 addition (IEEE 754-2019, round to nearest even). -/
def f32Add (a b : BitVec 32) : BitVec 32 :=
  match f32Dec a, f32Dec b with
  | .nan, _ => f32Nan
  | _, .nan => f32Nan
  | .inf x, .inf y => if x = y then f32Pack x 0x7F800000 else f32Nan
  | .inf x, _ => f32Pack x 0x7F800000
  | _, .inf y => f32Pack y 0x7F800000
  | .fin x d, .fin y d' => f32Round (x && y) (dyAdd d d')

/-- FP32 negation. -/
def f32Neg (a : BitVec 32) : BitVec 32 := a ^^^ 0x80000000

/-- FP32 subtraction. -/
def f32Sub (a b : BitVec 32) : BitVec 32 := f32Add a (f32Neg b)

/-- FP32 multiplication. -/
def f32Mul (a b : BitVec 32) : BitVec 32 :=
  match f32Dec a, f32Dec b with
  | .nan, _ => f32Nan
  | _, .nan => f32Nan
  | .inf x, .inf y => f32Pack (x != y) 0x7F800000
  | .inf x, .fin y d => if d.m = 0 then f32Nan else f32Pack (x != y) 0x7F800000
  | .fin x d, .inf y => if d.m = 0 then f32Nan else f32Pack (x != y) 0x7F800000
  | .fin x d, .fin y d' => f32Round (x != y) (dyMul d d')

/-- FP32 division, rounded to nearest even; the quotient is taken to 64 bits with a sticky bit. -/
def f32Div (a b : BitVec 32) : BitVec 32 :=
  match f32Dec a, f32Dec b with
  | .nan, _ => f32Nan
  | _, .nan => f32Nan
  | .inf _, .inf _ => f32Nan
  | .inf x, .fin y _ => f32Pack (x != y) 0x7F800000
  | .fin x _, .inf y => f32Pack (x != y) 0
  | .fin x d, .fin y d' =>
    if d'.m = 0 then (if d.m = 0 then f32Nan else f32Pack (x != y) 0x7F800000)
    else if d.m = 0 then f32Pack (x != y) 0
    else
      let n := d.m.natAbs * 2 ^ 64
      let q := n / d'.m.natAbs
      let r := n % d'.m.natAbs
      f32Pack (x != y) (roundMag 23 (-149) (2 * q + b2n (r ≠ 0)) (d.e - d'.e - 65))

/-- A finite FP32 value, NaN or infinity counting as 0. -/
def f32Val (a : BitVec 32) : Dy := match f32Dec a with | .fin _ d => d | _ => {}

/-- FP32 is NaN. -/
def f32IsNan (a : BitVec 32) : Bool := f32Dec a == .nan

/-- FP32 is NaN or infinite. -/
def f32NonFinite (a : BitVec 32) : Bool := decide (0x7F800000 ≤ a.toNat % 2 ^ 31)

/-- FP32 is infinite. -/
def f32IsInf (a : BitVec 32) : Bool := a.toNat % 2 ^ 31 == 0x7F800000

/-- The magnitude. -/
def f32Abs (a : BitVec 32) : BitVec 32 := a &&& 0x7FFFFFFF

/-- Order of FP32 values that are not NaN, -0 below +0. -/
def f32Key (a : BitVec 32) : Int :=
  let c := (a.toNat % 2 ^ 31 : Nat)
  if a.getLsbD 31 then -(c : Int) - 1 else c

/-- The NaN-propagating minimum (06 R246). -/
def f32Min (a b : BitVec 32) : BitVec 32 :=
  if f32IsNan a || f32IsNan b then f32Nan else if f32Key a ≤ f32Key b then a else b

/-- The NaN-propagating maximum (06 R246). -/
def f32Max (a b : BitVec 32) : BitVec 32 :=
  if f32IsNan a || f32IsNan b then f32Nan else if f32Key b ≤ f32Key a then a else b

/-! BF16 -/

/-- BF16 as FP32. -/
def bf16To32 (b : BitVec 16) : BitVec 32 := BitVec.ofNat 32 (b.toNat * 65536)

/-- Round FP32 to BF16, to nearest even (08 R324). -/
def bf16Of32 (a : BitVec 32) : BitVec 16 :=
  match f32Dec a with
  | .nan => 0x7FC0
  | .inf neg => BitVec.ofNat 16 (b2n neg * 2 ^ 15 + 0x7F80)
  | .fin neg d => BitVec.ofNat 16 (b2n neg * 2 ^ 15 + min 0x7F80 (roundMag 7 (-133) d.m.natAbs d.e))

/-! Narrow elements (08 R312 to R317) -/

/-- Element formats of weights and activations. -/
inductive EFmt
  | e2m1 | e2m3 | e3m2 | e4m3 | e5m2 | int8 | bn3 | trit | bf16
deriving DecidableEq, Repr

/-- Fraction bits and least exponent of a floating-point element format (08 R312). -/
def efmtShape : EFmt → Nat × Int
  | .e2m1 => (1, -1) | .e2m3 => (3, -3) | .e3m2 => (2, -4) | .e4m3 => (3, -9) | .e5m2 => (2, -16) | _ => (7, -133)

/-- Width of an element (08 R310). -/
def efmtWidth : EFmt → Nat
  | .e2m1 => 4 | .e2m3 => 6 | .e3m2 => 6 | .e4m3 => 8 | .e5m2 => 8 | .int8 => 8 | .bn3 => 3 | .trit => 2 | .bf16 => 16

/-- Two's complement of w bits. -/
def signedOf (w c : Nat) : Int := if c < 2 ^ (w - 1) then c else (c : Int) - 2 ^ w

/-- Decode one element (08 R312 to R316, R318). -/
def efmtDec (f : EFmt) (c : Nat) : Fp :=
  match f with
  | .int8 => let q := signedOf 8 c; .fin (decide (q < 0)) { m := q, e := -6 }
  | .bn3 => let q := signedOf 3 c; .fin (decide (q < 0)) { m := q, e := 0 }
  | .trit => if c = 1 then .fin false { m := 1 } else if c = 3 then .fin true { m := -1 } else .fin false {}
  | _ =>
    let w := efmtWidth f
    let neg := bit c (w - 1)
    let m := c % 2 ^ (w - 1)
    let (p, l) := efmtShape f
    if f = .e4m3 && m = 0x7F then .nan
    else if f = .e5m2 && m = 0x7C then .inf neg
    else if f = .e5m2 && decide (0x7C < m) then .nan
    else if f = .bf16 && m = 0x7F80 then .inf neg
    else if f = .bf16 && decide (0x7F80 < m) then .nan
    else .fin neg (dySign neg (magOf p l m))

/-- An element is saturated (08 R333). -/
def efmtSat (f : EFmt) (c : Nat) : Bool :=
  match f with
  | .e2m1 => c % 8 == 7 | .e2m3 => c % 32 == 31 | .e3m2 => c % 32 == 31
  | .e4m3 => c % 128 == 0x7E | .e5m2 => c % 128 == 0x7B
  | .int8 => c == 0x7F || c == 0x80 | .bn3 => c == 3 || c == 4
  | .trit => false | .bf16 => false

/-- Largest finite code without sign of an activation format (08 R312). -/
def efmtTop : EFmt → Nat
  | .e4m3 => 0x7E | .e5m2 => 0x7B | _ => 0x7F7F

/-- Element i of width w of a little-endian bit stream (08 R317). -/
def streamElem (l : List Byte) (w i : Nat) : Nat :=
  (field l (w * i / 8) 3 / 2 ^ (w * i % 8)) % 2 ^ w

/-- Trit digit j of a packed byte (08 R315): 0, 1 or 2. -/
def packedTrit (b j : Nat) : Nat := b / 3 ^ j % 3

/-- floor(log2) of a positive magnitude m x 2^e. -/
def dyLog2 (d : Dy) : Int := (Nat.log2 d.m.natAbs : Int) + d.e

/-- The scale exponent X of a block of FP32 values for an activation format (08 R332). -/
def blockExp (f : EFmt) (xs : List (BitVec 32)) : Int :=
  let a := xs.foldl (fun a x => max a (x.toNat % 2 ^ 31)) 0
  if a = 0 then -127
  else max (-127) (min 127 (dyLog2 (magOf 23 (-149) a) - (if f = .e5m2 then 15 else 8)))

/-- Round x / 2^X to an activation element, saturating (08 R332). -/
def narrow (f : EFmt) (x : Int) (v : BitVec 32) : Nat :=
  let (p, l) := efmtShape f
  let neg := v.getLsbD 31
  let d := f32Val v
  b2n neg * 128 + min (efmtTop f) (roundMag p l d.m.natAbs (d.e - x))

end Sys2Proof.Machine
end

