-- ==== Sys2Proof/Machine/Narrow.lean ====
section
/-! DEFINITION. Narrow arithmetic: blocks of weights and activations, the exact block sums and their accumulation, saturation,
checksum vectors and the check of a GEMV (08_narrow_arithmetic R310 to R349). -/

namespace Sys2Proof.Machine

/-! Weight formats (R310) -/

/-- A weight format: element format, packed trits, block size, data bytes of a block. -/
structure WFmt where
  /-- Element format. -/
  fmt : EFmt := .e2m1
  /-- BNT in the packed layout (R315). -/
  packed : Bool := false
  /-- Block size in elements. -/
  n : Nat := 32
  /-- Data bytes of a block. -/
  d : Nat := 16
deriving DecidableEq, Repr

/-- The format of a WFMT code; a reserved code stands for MXFP4 (R310). -/
def wfmtOf : Nat → WFmt
  | 1 => { fmt := .bn3, n := 16, d := 6 }
  | 2 => { fmt := .trit, packed := true, n := 64, d := 13 }
  | 3 => { fmt := .trit, n := 64, d := 16 }
  | 4 => { fmt := .e2m3, d := 24 }
  | 5 => { fmt := .e3m2, d := 24 }
  | 6 => { fmt := .e4m3, d := 32 }
  | 7 => { fmt := .e5m2, d := 32 }
  | 8 => { fmt := .int8, d := 32 }
  | _ => {}

/-- The effective code of a WFMT code (R310). -/
def wfmtCode (c : Nat) : Nat := if 8 < c then 0 else c

/-- Bytes of a tile image, a multiple of 64 (09 R366). -/
def tileBytes (w : WFmt) (rows cols : Nat) : Nat :=
  let nb := cols / w.n
  ceilDiv (rows * nb * w.d + rows * nb) 64 * 64

/-- The element codes of a block's data bytes (R315, R317). -/
def blockCodes (w : WFmt) (l : List Byte) : List Nat :=
  if w.packed then (List.range w.n).map fun i =>
    let t := packedTrit ((l.getD (i / 5) 0).toNat) (i % 5)
    if t = 2 then 3 else t
  else (List.range w.n).map fun i => streamElem l (efmtWidth w.fmt) i

/-- A block holds an invalid BNT byte or code (R315, R316). -/
def blockInvalid (w : WFmt) (l : List Byte) : Bool :=
  if w.packed then (l.any fun b => decide (243 ≤ b.toNat)) || decide (81 ≤ (l.getD 12 0).toNat)
  else w.fmt = .trit && (blockCodes w l).contains 2

/-- Data bytes of block b of row j of a tile image (09 R366). -/
def blockData (w : WFmt) (cols : Nat) (img : List Byte) (j b : Nat) : List Byte :=
  slice img (j * (cols / w.n * w.d) + b * w.d) w.d

/-- Scale bytes of row j of a tile image (09 R366). -/
def rowScales (w : WFmt) (rows cols : Nat) (img : List Byte) (j : Nat) : List Nat :=
  let nb := cols / w.n
  (slice img (rows * (nb * w.d) + j * nb) nb).map fun b => b.toNat

/-- Element codes of row j. -/
def rowCodes (w : WFmt) (cols : Nat) (img : List Byte) (j : Nat) : List Nat :=
  ((List.range (cols / w.n)).map fun b => blockCodes w (blockData w cols img j b)).flatten

/-- Element values of row j. -/
def rowElems (w : WFmt) (cols : Nat) (img : List Byte) (j : Nat) : List Fp :=
  (rowCodes w cols img j).map (efmtDec w.fmt)

/-! Exact sums (R322, R326) -/

/-- Exact product. -/
def fpMul : Fp → Fp → Fp
  | .nan, _ => .nan
  | _, .nan => .nan
  | .inf x, .inf y => .inf (x != y)
  | .inf x, .fin y d => if d.m = 0 then .nan else .inf (x != y)
  | .fin x d, .inf y => if d.m = 0 then .nan else .inf (x != y)
  | .fin x d, .fin y d' => .fin (x != y) (dyMul d d')

/-- Exact sum. -/
def fpAdd : Fp → Fp → Fp
  | .nan, _ => .nan
  | _, .nan => .nan
  | .inf x, .inf y => if x = y then .inf x else .nan
  | .inf x, _ => .inf x
  | _, .inf y => .inf y
  | .fin _ d, .fin _ d' => let t := dyAdd d d'; .fin (decide (t.m < 0)) t

/-- Times 2^k. -/
def fpScale (k : Int) : Fp → Fp
  | .fin s d => .fin s (dyScale d k)
  | x => x

/-- Rounded once to FP32 (R322). -/
def fpRound : Fp → BitVec 32
  | .nan => f32Nan
  | .inf s => f32Pack s 0x7F800000
  | .fin _ d => f32Round false d

/-- NaN or infinite. -/
def fpSpecial : Fp → Bool
  | .fin _ _ => false | _ => true

/-- Sum of products of two lists, exact. -/
def fpDot (a b : List Fp) : Fp := (List.zipWith fpMul a b).foldl fpAdd (.fin false {})

/-- Chunks of n elements; k bounds their number. -/
def chunksN {α : Type} (n : Nat) : Nat → List α → List (List α)
  | 0, _ => []
  | k + 1, l => if l.isEmpty then [] else l.take n :: chunksN n k (l.drop n)

/-- Chunks of n elements. -/
def chunks {α : Type} (n : Nat) (l : List α) : List (List α) := chunksN n l.length l

/-! Activation vectors (R319) -/

/-- Activation format of an AFMT code (R328). -/
def afmtOf (c : Nat) : EFmt := if c = 1 then .e5m2 else if c = 2 then .bf16 else .e4m3

/-- Stride of an activation vector (R319). -/
def actStride (f : EFmt) (k : Nat) : Nat :=
  if f = .bf16 then ceilDiv (2 * k) 64 * 64 else ceilDiv (k + k / 32) 64 * 64

/-- Stride of an output vector (R330). -/
def outStride (bf : Bool) (rows : Nat) : Nat := ceilDiv ((if bf then 2 else 4) * rows) 64 * 64

/-- A decoded activation vector. -/
structure ActVec where
  /-- Element codes. -/
  codes : List Nat := []
  /-- Element values. -/
  els : List Fp := []
  /-- Scale bytes of its blocks of 32; none for BF16. -/
  scales : List Nat := []
  /-- BF16. -/
  bf : Bool := false
  /-- Saturated blocks of 32 (R334). -/
  sat : List Bool := []
deriving DecidableEq, Repr

/-- Decode an activation vector of k columns from elements and scales (R319, R334). -/
def actVec (f : EFmt) (k : Nat) (els scales : List Byte) : ActVec :=
  if f = .bf16 then
    let c := (List.range k).map fun i => field els (2 * i) 2
    { codes := c, els := c.map (efmtDec .bf16), bf := true, sat := List.replicate (k / 32) false }
  else
    let c := (slice els 0 k).map fun b => b.toNat
    { codes := c, els := c.map (efmtDec f), scales := (slice scales 0 (k / 32)).map fun b => b.toNat,
      sat := (chunks 32 c).map fun b => b.any (efmtSat f) }

/-- Columns c0 to c0 + k - 1 of a vector of kk columns laid out by R319: a column tile of a WS_GEMV's input. -/
def actSub (f : EFmt) (kk c0 k : Nat) (l : List Byte) : ActVec :=
  if f = .bf16 then actVec f k (slice l (2 * c0) (2 * k)) []
  else actVec f k (slice l c0 k) (slice l (kk + c0 / 32) (k / 32))

/-- The activation scale that covers column k; 127 where there is none (R311, R321). -/
def actScale (a : ActVec) (k : Nat) : Nat := if a.bf then 127 else a.scales.getD (k / 32) 127

/-- A dequantised activation rounded to FP32 (R337). -/
def actRound (a : ActVec) (k : Nat) : BitVec 32 :=
  if actScale a k = 255 then f32Nan else fpRound (fpScale ((actScale a k : Int) - 127) (a.els.getD k (.fin false {})))

/-- Some scale or element of the vector is NaN or infinite (R339). -/
def actSpecial (a : ActVec) : Bool := a.scales.contains 255 || a.els.any fpSpecial

/-! Tiles (09 R366, R371) -/

/-- What a GEMV knows of a tile. -/
structure TileIn where
  /-- Rows. -/
  rows : Nat := 0
  /-- Columns. -/
  cols : Nat := 0
  /-- Format of the main plane. -/
  w : WFmt := {}
  /-- Main image. -/
  img : List Byte := []
  /-- Residual image. -/
  res : Option (List Byte) := none
  /-- SAT_W (R335). -/
  satW : BitVec 64 := 0
  /-- RES (R335). -/
  resBits : BitVec 64 := 0
  /-- C (R336). -/
  chk : List (BitVec 32) := []
  /-- C' (R336). -/
  chk2 : List (BitVec 32) := []
deriving DecidableEq, Repr

/-- The bit of each block column in which a test of an element code holds in some row. -/
def columnBits (w : WFmt) (rows cols : Nat) (img : List Byte) (p : Nat → Bool) : BitVec 64 :=
  BitVec.ofNat 64 (sumBy (fun b => if (List.range rows).any fun j => (blockCodes w (blockData w cols img j b)).any p
    then 2 ^ b else 0) (List.range (cols / w.n)))

/-- SAT_W of a main image (R335). -/
def satBits (w : WFmt) (rows cols : Nat) (img : List Byte) : BitVec 64 := columnBits w rows cols img (efmtSat w.fmt)

/-- RES of a residual image: -0 is zero too (R335). -/
def resBitsOf (rows cols : Nat) (img : List Byte) : BitVec 64 := columnBits {} rows cols img fun c => c % 8 ≠ 0

/-- The dequantised weights of row j, exact. -/
def rowWeights (w : WFmt) (rows cols : Nat) (img : List Byte) (j : Nat) : List Fp :=
  let sc := rowScales w rows cols img j
  ((chunks w.n (rowElems w cols img j)).zip sc).map (fun x =>
    x.1.map fun e => if x.2 = 255 then .nan else fpScale ((x.2 : Int) - 127) e) |>.flatten

/-- A checksum vector over rows of FP32 values (R336). -/
def checksum (cols : Nat) (rows : List (List (BitVec 32))) : List (BitVec 32) :=
  rows.foldl (fun acc r => List.zipWith f32Add acc r) (List.replicate cols 0)

/-- C of a main image (R336). -/
def chkOf (w : WFmt) (rows cols : Nat) (img : List Byte) : List (BitVec 32) :=
  checksum cols ((List.range rows).map fun j => (rowWeights w rows cols img j).map fpRound)

/-- C' of both images (R336). -/
def chk2Of (w : WFmt) (rows cols : Nat) (img res : List Byte) : List (BitVec 32) :=
  checksum cols ((List.range rows).map fun j =>
    List.zipWith (fun a b => fpRound (fpAdd a b)) (rowWeights w rows cols img j) (rowWeights {} rows cols res j))

/-- What R320 and R336 refuse in a tile: 3 an invalid BNT byte or code, 4 a NaN scale, or a NaN or infinite element, 6 a
NaN or infinite checksum entry (09 R369). -/
def tileReject (w : WFmt) (rows cols : Nat) (img : List Byte) (res : Option (List Byte)) : Nat :=
  let rs := List.range rows
  if rs.any fun j => (List.range (cols / w.n)).any fun b => blockInvalid w (blockData w cols img j b) then 3
  else if (rs.any fun j => (rowScales w rows cols img j).contains 255 || (rowElems w cols img j).any fpSpecial)
      || (match res with
        | some r => rs.any fun j => (rowScales {} rows cols r j).contains 255
        | none => false) then 4
  else if (chkOf w rows cols img).any f32NonFinite
      || (match res with | some r => (chk2Of w rows cols img r).any f32NonFinite | none => false) then 6
  else 0

/-! The GEMV of one tile -/

/-- Length of an accumulation block (R321). -/
def accLen (w : WFmt) (a : ActVec) : Nat := if a.bf then w.n else min w.n 32

/-- Block columns escalated for a vector (R347). -/
def escalated (t : TileIn) (esc : Nat) (a : ActVec) : List Nat :=
  if t.res.isNone || !(esc == 1 || esc == 2) then []
  else (List.range (t.cols / t.w.n)).filter fun b => t.resBits.getLsbD b
    && (esc == 1 || t.satW.getLsbD b || a.sat.getD (b * t.w.n / 32) false)

/-- Bits of ARITH_FLAGS (R331). -/
def flNanScale : Nat := 1
/-- NONFINITE_IN. -/
def flNonfinite : Nat := 2
/-- SAT_W. -/
def flSatW : Nat := 4
/-- SAT_A. -/
def flSatA : Nat := 8
/-- OVF. -/
def flOvf : Nat := 16
/-- ESC. -/
def flEsc : Nat := 32
/-- ABFT_RETRY. -/
def flRetry : Nat := 64
/-- ABFT_SKIP. -/
def flSkip : Nat := 128

/-- An addition of R323 or R324 with the OVF flag of R327. -/
def accAdd (x : BitVec 32 × Nat) (c : BitVec 32) : BitVec 32 × Nat :=
  let y := f32Add x.1 c
  (y, if f32IsInf y && !f32NonFinite x.1 && !f32NonFinite c then x.2 ||| flOvf else x.2)

/-- The exact block sum of accumulation block i, scaled (R322, R326, R348). -/
def blockSum (t : TileIn) (a : ActVec) (escs : List Nat) (row res : List Fp) (sc rsc : List Nat) (i : Nat) : Fp :=
  let l := accLen t.w a
  let k0 := i * l
  let e := (a.els.drop k0).take l
  let sa := actScale a k0
  let ws := sc.getD (k0 / t.w.n) 127
  let main := fpScale ((ws : Int) - 127 + sa - 127) (fpDot ((row.drop k0).take l) e)
  let p := if escs.contains (k0 / t.w.n) then
      fpAdd main (fpScale ((rsc.getD (k0 / 32) 127 : Int) - 127 + sa - 127) (fpDot ((res.drop k0).take l) e))
    else main
  if sa = 255 then .nan else p

/-- One tile output and its flags (R322, R323, R326). -/
def rowOut (t : TileIn) (a : ActVec) (escs : List Nat) (j : Nat) : BitVec 32 × Nat :=
  let row := rowElems t.w t.cols t.img j
  let sc := rowScales t.w t.rows t.cols t.img j
  let (res, rsc) := match t.res with
    | some r => if escs.isEmpty then ([], []) else (rowElems {} t.cols r j, rowScales {} t.rows t.cols r j)
    | none => ([], [])
  (List.range (t.cols / accLen t.w a)).foldl (fun x i =>
    let p := blockSum t a escs row res sc rsc i
    let c := fpRound p
    let x := if !fpSpecial p && f32IsInf c then (x.1, x.2 ||| flOvf) else x
    accAdd x c) (0, 0)

/-- Flags of a vector (R326, R331). -/
def vecFlags (t : TileIn) (a : ActVec) (escs : List Nat) : Nat :=
  (if a.scales.contains 255 then flNanScale else 0) ||| (if a.els.any fpSpecial then flNonfinite else 0)
    ||| (if t.satW ≠ 0 then flSatW else 0) ||| (if a.sat.contains true then flSatA else 0)
    ||| (if escs.isEmpty then 0 else flEsc)

/-- Disturbed values of a GEMV (R344). -/
structure GemvFaults where
  /-- Outputs of the MAC array, of accumulation and of output writing, by vector x 128 + row. -/
  out : List (Nat × BitVec 32) := []
  /-- Values of the checksum path, by vector x 2,048 + k: p_k, and s at k = 1,024. -/
  chk : List (Nat × BitVec 32) := []
deriving DecidableEq, Repr

/-- The check of a vector (R337 to R339): none when it is not applied, otherwise none inside when it passes, or RATIO of the
mismatch (R353). A disturbed product or sum of the checksum path stands in the place of the computed one (R344). -/
def abftCheck (t : TileIn) (a : ActVec) (escs : List Nat) (tol : Nat) (bad : Nat → Option (BitVec 32))
    (ys : List (BitVec 32)) : Option (Option Int) :=
  let ps := (List.range t.cols).map fun k =>
    let g := if escs.contains (k / t.w.n) then t.chk2.getD k 0 else t.chk.getD k 0
    (bad k).getD (f32Mul g (actRound a k))
  let s := (bad 1024).getD (ps.foldl f32Add 0)
  let y := ys.foldl f32Add 0
  let m := (ys ++ ps).foldl (fun acc x => f32Add acc (f32Abs x)) 0
  let d := f32Sub y s
  if actSpecial a || ([s, y, m, d] ++ ys).any f32NonFinite then none
  else
    let tau := f32Val (f32Round false (dyScale (f32Val m) (-(tol : Int))))
    let x := f32Val (f32Abs d)
    if dyLt tau x then
      if tau.m = 0 then some (some 127)
      else
        let k := dyLog2 x - dyLog2 tau
        some (some (min 127 (if dyLt x (dyScale tau k) then k - 1 else k)))
    else some none

/-- What a GEMV of one tile yields. -/
structure GemvOut where
  /-- y' per vector and row. -/
  ys : List (List (BitVec 32)) := []
  /-- ARITH_FLAGS (R331). -/
  flags : Nat := 0
  /-- Vectors whose check was skipped (R339). -/
  skipped : Nat := 0
  /-- Escalated blocks (R348). -/
  esc : Nat := 0
  /-- RATIO of the first mismatch. -/
  miss : Option Int := none
deriving DecidableEq, Repr

/-- Add the outcome of a vector. -/
def gemvVec (t : TileIn) (esc tol : Nat) (faults : GemvFaults) (o : GemvOut) (v : Nat) (a : ActVec) : GemvOut :=
  let escs := escalated t esc a
  let rows := (List.range t.rows).map fun j =>
    let x := rowOut t a escs j
    ((assoc (v * 128 + j) faults.out).getD x.1, x.2)
  let ys := rows.map Prod.fst
  let fl := rows.foldl (fun f x => f ||| x.2) (vecFlags t a escs)
  match abftCheck t a escs tol (fun k => assoc (v * 2048 + k) faults.chk) ys with
  | none => { o with ys := o.ys ++ [ys], flags := o.flags ||| fl ||| flSkip, skipped := o.skipped + 1,
                     esc := o.esc + escs.length }
  | some r => { o with ys := o.ys ++ [ys], flags := o.flags ||| fl, esc := o.esc + escs.length,
                       miss := if o.miss.isSome then o.miss else r }

/-- The GEMV of one tile over its vectors; faults are the disturbed values (R329, R337,
R344). -/
def gemvTile (t : TileIn) (esc tol : Nat) (faults : GemvFaults) (vs : List ActVec) : GemvOut :=
  ((List.range vs.length).zip vs).foldl (fun o x => gemvVec t esc tol faults o x.1 x.2) {}

/-- BF16 of an output with OVF where a finite value becomes infinite (R324, R327). -/
def outBf (x : BitVec 32) : BitVec 16 × Nat :=
  let b := bf16Of32 x
  (b, if !f32NonFinite x && b.toNat % 2 ^ 15 = 0x7F80 then flOvf else 0)

/-! CONVERT (R332) -/

/-- Convert FP32 values to an activation format: elements, then scales, laid out by R319 without its padding; the elements
of a block that holds a NaN or an infinity are free bytes from an index on (log entry 13). -/
def convertTo (f : EFmt) (base : Nat) (xs : List (BitVec 32)) : List Byte :=
  if f = .bf16 then (xs.map fun x => le 2 (bf16Of32 x).toNat).flatten
  else
    let bs := (List.range (xs.length / 32)).zip (chunks 32 xs)
    (bs.map fun y => if y.2.any f32NonFinite then (List.range y.2.length).map fun i => Config.freeByte (base + 32 * y.1 + i)
        else y.2.map fun x => BitVec.ofNat 8 (narrow f (blockExp f y.2) x)).flatten
      ++ bs.map fun y => if y.2.any f32NonFinite then 0xFF else BitVec.ofNat 8 (blockExp f y.2 + 127).toNat

end Sys2Proof.Machine
end

