-- ==== Sys2Proof/Machine/EngOps.lean ====
section
/-! DEFINITION. Engines as their users see them: which engine serves, the tenants' boundary, quarantine and spares, and the
records of the checks (07_facet_engines R263 to R265, R299 to R305; 08_narrow_arithmetic R340 to R342, R353, R354). -/

namespace Sys2Proof.Machine

/-- An engine is reserved by a loaded plan (07 R264). -/
def reserved (s : State) (n : Nat) : Bool := s.fe.plans.any fun p => p.engs.contains n

/-- An engine is OUT. -/
def engOut (s : State) (n : Nat) : Bool := (engAt s n).st == .out

/-- The engine of a stack that serves work of a home engine, or the status where there is none (09 R378). -/
def pickEngine (s : State) (k home : Nat) : Status × Nat :=
  match ((List.range 64).map fun i => 64 * k + (home + i) % 64).find? fun n => !reserved s n && !engOut s n with
  | some n => (.ok, n)
  | none =>
    (if (List.range 64).all fun i => engOut s (64 * k + i) then .engineFault else .busy, 64 * k + home)

/-- Before an engine that no plan reserves serves another tenant it zeroes its banks and sync slots (07 R265). -/
def serveTenant (n tid : Nat) (s : State) : State :=
  modEng n (fun e => if e.lastTid = some tid then { e with idleSince := s.now }
    else { e with banks := [], sync := [], lastTid := some tid, idleSince := s.now }) s

/-- OR flags into FE_ARITH_FLAGS of an engine (08 R353). -/
def noteFlags (n fl : Nat) (s : State) : State :=
  let f := BitVec.ofNat 8 fl
  modEng n (fun e => { e with aflags := e.aflags ||| f, aflagsAt := setNow s.now e.aflagsAt f }) s

/-- FE_ARITH_FLAGS of an engine is cleared by hardware (08 R354). -/
def clearFlags (n : Nat) (s : State) : State := modEng n (fun e => { e with aflags := 0, aflagsAt := (0, 0) }) s

/-- Count escalated blocks (08 R348, R353). -/
def noteEsc (k : Nat) (s : State) : State := setFe (fun c => { c with escalated := satAdd 32 c.escalated k }) s

/-- The stack's spare at a physical position changes state. -/
def setSpare (k pos : Nat) (x : SpareState) (s : State) : State :=
  if pos = 64 then modStack k (fun y => { y with spare0 := x }) s
  else if pos = 65 then modStack k (fun y => { y with spare1 := x }) s else s

/-- A free spare of a stack (07 R303, R304). -/
def freeSpare (s : State) (k : Nat) : Option Nat :=
  if (stackAt s k).spare0 = .free then some 64 else if (stackAt s k).spare1 = .free then some 65 else none

/-- An engine is quarantined (07 R303, R305): its runs abort with a status, and a free spare substitutes it, or it goes
OUT. -/
def quarantine (n kind tid : Nat) (st : Status) (s : State) : State :=
  let e := engAt s n
  if e.st = .out then s
  else
    let k := n / 64
    let s := setFe (fun c => { c with quarantine := satAdd 16 c.quarantine 1 }) s
    let s := setSpare k e.phys .quarantined s
    let s := (s.fe.plans.filter fun p => p.engs.contains n).foldl (fun s p => abortRun p.idx st (some n) s) s
    let e := engAt s n
    match freeSpare s k with
    | some pos =>
      let s := setSpare k pos .substituted s
      let s := modEng n (fun x => { x with
        st := .substituting
        saved := if e.st = .substituting then e.saved else e.st
        phys := pos, remapAt := s.now, lastTest := none, banks := [], sync := [] }) s
      cairnAt 0x07 kind n (k * 2 ^ 32) 0 (0x70 + k) tid st s
    | none => engineOut n kind s

/-- The position that re-executes a GEMV of an engine: a free spare, or the next engine of the stack (07 R304). -/
def reexecPos (s : State) (n : Nat) : Option Nat :=
  let k := n / 64
  match freeSpare s k with
  | some pos => some pos
  | none => (((List.range 63).map fun i => 64 * k + (n + 1 + i) % 64).find? fun m =>
      (engAt s m).st ≠ .out && (engAt s m).st ≠ .substituting).map fun m => (engAt s m).phys

/-- Write FE_ABFT_LAST: a failure sets HELD, and a recovery does not overwrite a held failure (08 R353, R354). -/
def abftLast (failed : Bool) (n tid : Nat) (ratio : Int) (pos : Option Nat) (s : State) : State :=
  if !failed && s.fe.abftLast.getLsbD 61 then s
  else setFe (fun c => { c with
    abftLast := w64 (2 ^ 63 + b2n failed * (2 ^ 62 + 2 ^ 61) + tid % 4096 * 2 ^ 48 + (ratio % 256).toNat * 2 ^ 40
      + pos.getD 0x7F * 2 ^ 24 + n % 2048) }) s

/-- A re-execution passed (08 R341). -/
def abftRecovered (n tid : Nat) (ratio : Int) (pos : Nat) (s : State) : State :=
  cairnAt 0x08 1 n (ratio % 256).toNat 0 (0x70 + n / 64) tid .ok
    (abftLast false n tid ratio (some pos) (setFe (fun c => { c with abftRetry := satAdd 16 c.abftRetry 1 }) s))

/-- A re-execution failed, or no engine could re-execute (08 R342). -/
def abftFailed (n tid : Nat) (ratio : Int) (pos : Option Nat) (s : State) : State :=
  quarantine n 0x03 tid .abftFail
    (abftLast true n tid ratio pos (setFe (fun c => { c with abftFail := satAdd 16 c.abftFail 1 }) s))

/-- Disturbed values of a GEMV that a command brings for a tile (08 R344). Code 0x200 disturbs outputs of a first execution, 0x201
of a re-execution, by vector x 128 + row; codes 0x202 and 0x203 disturb the checksum path of the two, by vector x 2,048 + k: the
product p_k for k below 1,024, and the sum s for k = 1,024. -/
def macFaults (e : Env) (code tile : Nat) : GemvFaults :=
  let of := fun (c n : Nat) =>
    (e.sram.filter fun x => x.1 = c && x.2.1 / n = tile).map fun x => (x.2.1 % n, BitVec.ofNat 32 x.2.2)
  { out := of code (2 ^ 16), chk := of (code + 2) (2 ^ 18) }

end Sys2Proof.Machine
end

