-- ==== Sys2Proof/Machine/BulkOps.lean ====
section
/-! DEFINITION. Bulk descriptors: their layout, checks, execution and records (06_pool_verbs R238 to R250, R259). -/

namespace Sys2Proof.Machine

/-- A queue by its index. -/
def bqAt (s : State) (i : Nat) : Option Bq := s.bulk.qs.find? fun q => q.idx = i

/-- Change a queue. -/
def modBq (i : Nat) (f : Bq → Bq) (s : State) : State :=
  setBulk (fun b => { b with qs := mapIf (fun q => q.idx = i) f b.qs }) s

/-- A queue's handle: INDEX[11:0] and GEN[19:12] (06 R238). -/
def bqHandle (q : Bq) : Nat := q.idx + 4096 * q.gen

/-- The queue of a tenant that a handle names, while it is not being destroyed (06 R240; log entry 24). -/
def bqOf (s : State) (h tid : Nat) : Option Bq :=
  match bqAt s (h % 4096) with
  | some q => if q.gen = h / 4096 % 256 && q.owner = tid && q.destroy.isNone then some q else none
  | none => none

/-- Bytes of a REDUCE element (06 R245). -/
def elemBytes (elem : Nat) : Nat := if elem = 1 then 2 else if elem = 3 then 8 else 4

/-- A descriptor of 64 B, clamped (06 R245). -/
def parseDesc (l : List Byte) : Desc :=
  let op := field l 0 1
  let op := if 4 < op then 0 else op
  let fn := field l 2 1
  let func := if 2 < fn % 16 then 0 else fn % 16
  let elem := if 3 < fn / 16 then 0 else fn / 16
  let len := clampTo 1 (2 ^ 36) (field l 0x30 8)
  let eb := elemBytes elem
  { op := op, fence := bit (field l 1 1) 0, cpl := bit (field l 1 1) 1, func := func, elem := elem,
    tag := BitVec.ofNat 32 (field l 4 4), dstWin := field l 8 3, srcWin := field l 12 3, src2Win := field l 16 3,
    dstVa := w64 (field l 0x18 8), srcVa := w64 (field l 0x20 8), src2Va := w64 (field l 0x28 8),
    len := if op = 4 then max eb (len / eb * eb) else len, pattern := w64 (field l 0x38 8) }

/-- Physical ranges of parts: place and length; anchors lie apart from the stacks. -/
def physRanges (ps : List Part) : List (Nat × Nat) :=
  ps.map fun p => match p.x.anchor with
    | some a => (pseudoAddr a p.ofs, p.len)
    | none => (partPa p, p.len)

/-- Two lists of physical ranges overlap (06 R247). -/
def rangesOverlap (a b : List (Nat × Nat)) : Bool :=
  a.any fun x => b.any fun y => decide (x.1 < y.1 + y.2) && decide (y.1 < x.1 + x.2)

/-- The parts of a range, or the status of its check (04 R135). -/
def rangeParts (s : State) (ord tid node len : Nat) (x : Nat × Nat × Nat) : Status × List Part :=
  match checkAccess s ord x.1 tid node x.2.1 len x.2.2 with
  | .bad st => (st, [])
  | .ok _ g o =>
    let ps := partsOf g o len
    (partsStatus s ord g.owner ps, ps)

/-- The status of a descriptor's checks (06 R241, R247). -/
def checkDesc (s : State) (ord tid node : Nat) (d : Desc) : Status :=
  let rs := (descRanges d).map (rangeParts s ord tid node d.len)
  match rs.find? fun r => r.1 ≠ .ok with
  | some r => r.1
  | none => match d.op, rs with
    | 2, [a, b] => if rangesOverlap (physRanges a.2) (physRanges b.2) then .denied else .ok
    | 4, [a, b, c] =>
      if rangesOverlap (physRanges a.2) (physRanges b.2 ++ physRanges c.2) then .denied else .ok
    | _, _ => .ok

/-- A range that a running descriptor uses: region and region offset. -/
structure Span where
  /-- Region. -/
  g : Region := {}
  /-- Region offset. -/
  o : Nat := 0
  /-- All its bytes, where a lender supplied some of them. -/
  whole : Option (List Byte) := none
deriving DecidableEq, Repr

/-- The span of a window and VA; a queued descriptor keeps its translation (06 R242). -/
def spanOf (s : State) (win va : Nat) : Option Span :=
  match windowOf s win with
  | none => none
  | some w => (regionAt s w.region).map fun g => { g := g, o := va - w.vaBase * unit2M + w.regOfs * unit2M }

/-- Pieces of a span that only lenders can read. -/
def spanNeed (s : State) (got : List (Nat × List Byte)) (base len : Nat) (x : Span) : List Part :=
  (pieces false (partsOf x.g x.o len)).filter fun p => (pieceAddr s p).isNone && (assoc (base + p.pos) got).isNone

/-- A span with lenders' data read whole. -/
def spanWhole (s : State) (got : List (Nat × List Byte)) (base len : Nat) (x : Span) : State × Span :=
  let ps := pieces false (partsOf x.g x.o len)
  if ps.all fun p => (pieceAddr s p).isSome then (s, x)
  else
    let (s, d) := readPieces 1 ((got.filter fun k => base ≤ k.1).map fun k => (k.1 - base, k.2)) ps s
    (s, { x with whole := d })

/-- Read bytes of a span at a position: data, or a status (06 R248; 05 R207). -/
def spanRead (x : Span) (pos len : Nat) (s : State) : State × Status × List Byte :=
  match x.whole with
  | some d => (s, .ok, slice d pos len)
  | none =>
    let ps := partsOf x.g (x.o + pos) len
    let st := partsStatus s 0 x.g.owner ps
    if st ≠ .ok then (s, st, [])
    else if x.g.mode = .coherent && (linesOfParts ps).any (lineLm s x.g.idx) then (s, .poisoned, [])
    else match readPieces 1 [] ps s with
      | (s, some d) => (s, .ok, d)
      | (s, none) => (s, .poisoned, [])

/-- One element of a REDUCE (06 R246). -/
def reduceElem (func elem : Nat) (a b : List Byte) : List Byte :=
  let x := ofLe a
  let y := ofLe b
  let f := fun (x y : BitVec 32) => if func = 1 then f32Min x y else if func = 2 then f32Max x y else f32Add x y
  match elem with
  | 0 => le 4 (f (BitVec.ofNat 32 x) (BitVec.ofNat 32 y)).toNat
  | 1 => le 2 (bf16Of32 (f (bf16To32 (BitVec.ofNat 16 x)) (bf16To32 (BitVec.ofNat 16 y)))).toNat
  | _ =>
    let w := elemBytes elem
    if func = 0 then le w (x + y)
    else
      let less := atomicLess w true x y
      le w (if func = 1 then (if less then x else y) else (if less then y else x))

/-- Elements of two lists of bytes, n of w bytes each (06 R246). -/
def reduceBytes (func elem w : Nat) : Nat → List Byte → List Byte → List Byte
  | 0, _, _ => []
  | n + 1, a, b => reduceElem func elem (a.take w) (b.take w) ++ reduceBytes func elem w n (a.drop w) (b.drop w)

/-- What a descriptor writes at a position of its destination (06 R246). -/
def descData (d : Desc) (srcs : List Span) (pos len : Nat) (s : State) : State × Status × List Byte :=
  match d.op, srcs with
  | 1, _ => (s, .ok, (List.range len).map fun i => BitVec.ofNat 8 (d.pattern.toNat / 256 ^ ((pos + i) % 8)))
  | 2, x :: _ => spanRead x pos len s
  | 4, x :: y :: _ =>
    let w := elemBytes d.elem
    let lo := pos / w * w
    let hi := ceilDiv (pos + len) w * w
    let (s, st, a) := spanRead x lo (hi - lo) s
    if st ≠ .ok then (s, st, [])
    else
      let (s, st, b) := spanRead y lo (hi - lo) s
      (s, st, ((reduceBytes d.func d.elem w ((hi - lo) / w) a b).drop (pos - lo)).take len)
  | _, _ => (s, .ok, [])

/-- Write one piece of a destination: its status, and the TAGs sent with its place. -/
def descPiece (d : Desc) (g : Region) (srcs : List Span) (p : Part) (s : State) : State × Status × List (Nat × Nat) :=
  let (s, st, data) := descData d srcs p.pos p.len s
  if st ≠ .ok then (s, st, [])
  else
    let (s, st, tags) := storePieces 0 g data [{ p with pos := 0 }] s
    (s, st, tags.map fun t => (t, p.pos))

/-- Pieces beyond the prefix that is known to be complete may or may not be written: a free value decides for each
(06 R248; log entries 13 and 61). -/
def descStray (d : Desc) (g : Region) (srcs : List Span) : List Part → State → State × List (Nat × Nat)
  | [], s => (s, [])
  | p :: ps, s =>
    let (s, f) := takeFree 1 s
    let (s, _, ts) := if Config.freeNat f % 2 = 1 then descPiece d g srcs p s else (s, .ok, [])
    let (s, ts') := descStray d g srcs ps s
    (s, ts ++ ts')

/-- Write the pieces of a destination in order until one fails: bytes known to be done, status, and the TAGs sent with their
places (06 R248). -/
def descWrite (d : Desc) (g : Region) (srcs : List Span) : List Part → State → State × Nat × Status × List (Nat × Nat)
  | [], s => (s, d.len, .ok, [])
  | p :: ps, s =>
    let (s, st, tags) := descPiece d g srcs p s
    if st ≠ .ok then
      let (s, ts) := descStray d g srcs ps s
      (s, p.pos, st, tags ++ ts)
    else
      let (s, n, st, ts) := descWrite d g srcs ps s
      (s, n, st, tags ++ ts)

/-- Compare two spans in pieces of 128 B: the first differing offset (06 R246). -/
def descCompare (x y : Span) (len : Nat) : Nat → Nat → State → State × Nat × Status × Nat
  | 0, pos, s => (s, pos, .ok, 2 ^ 64 - 1)
  | n + 1, pos, s =>
    if len ≤ pos then (s, len, .ok, 2 ^ 64 - 1)
    else
      let k := min 128 (len - pos)
      let (s, st, a) := spanRead x pos k s
      if st ≠ .ok then (s, pos, st, 2 ^ 64 - 1)
      else
        let (s, st, b) := spanRead y pos k s
        if st ≠ .ok then (s, pos, st, 2 ^ 64 - 1)
        else match (List.range k).find? fun i => a.getD i 0 ≠ b.getD i 0 with
          | some i => (s, len, .ok, pos + i)
          | none => descCompare x y len n (pos + 128) s

/-- Change a descriptor of a queue by its counter value. -/
def modDesc (q n : Nat) (f : DescRec → DescRec) (s : State) : State :=
  modBq q (fun b => { b with descs := mapIf (fun x => x.n = n) f b.descs }) s

/-- A descriptor's execution ends. -/
def descEnd (q n : Nat) (st : Status) (bytes result : Nat) (wr : List (Nat × Nat)) (s : State) : State :=
  modDesc q n (fun x => { x with
    phase := .done, status := st, bytes := bytes, result := w64 result, wr := wr }) s

/-- Lines of coherent spans that a descriptor uses, and how. -/
def descLines (len : Nat) (dst : Option Span) (srcs : List Span) : List (Nat × Nat × LineUse) :=
  let lines := fun (x : Span) => if x.g.mode = .coherent then linesOfParts (partsOf x.g x.o len) else []
  ((dst.toList.map fun x => (lines x).map fun l => (x.g.idx, l, LineUse.write)).flatten)
    ++ ((srcs.map fun x => (lines x).map fun l => (x.g.idx, l, LineUse.loadU)).flatten)

/-- Look up the lines of coherent spans that a descriptor or a verb uses by its place in core-merge order, and start what they need,
within the limit of waiting lines (05 R194, R196). -/
def descGate (ord len : Nat) (dst : Option Span) (srcs : List Span) (s : State) : State × Gate :=
  let held := claimed s ord
  (descLines len dst srcs).foldl (fun (a : State × Gate) x =>
    let (s, r) := a
    let s := dirLookup x.1 x.2.1 s
    let d := dirAt s x.1 x.2.1
    if r = .busy then (s, r)
    else if held.contains (x.1, x.2.1) || dirWaiting d then (s, .wait)
    else if lineReady d x.2.2 none then (s, r)
    else if 16384 ≤ waitingLines s then (setCoh (fun c => { c with busyFull := satAdd 16 c.busyFull 1 }) s, .busy)
    else (lineStart d x.2.2 none s, .wait)) (s, .go)

/-- The lines of coherent spans, while they are waited for (05 R194). -/
def waitedLines (len : Nat) (dst : Option Span) (srcs : List Span) : List (Nat × Nat) :=
  (descLines len dst srcs).map fun x => (x.1, x.2.1)

/-- The first running descriptor of a queue that has an operation. -/
def runningDesc (s : State) (q op : Nat) : Option DescRec :=
  (bqAt s q).bind fun b => b.descs.find? fun x => x.phase = .running && x.d.op = op

/-- The sources of a descriptor. -/
def descSrcs (s : State) (d : Desc) : List Span :=
  (if d.op = 2 then [(d.srcWin, d.srcVa.toNat)]
    else if d.op = 3 || d.op = 4 then [(d.srcWin, d.srcVa.toNat), (d.src2Win, d.src2Va.toNat)] else []).filterMap
      fun y => spanOf s y.1 y.2

/-- The destination of a descriptor. -/
def descDst (s : State) (d : Desc) : Option Span :=
  if d.op = 1 || d.op = 2 || d.op = 4 then spanOf s d.dstWin d.dstVa.toNat else none

/-- The pieces that a descriptor writes, in order. -/
def descPieces (d : Desc) (t : Span) : List Part := ((partsOf t.g t.o d.len).map (cutAt 128)).flatten

/-- The engine of a stack that runs a part of a descriptor: the lowest that no plan reserves and that is not OUT; none where the bulk
movers run it (06 R259). -/
def partEngine (s : State) (k : Nat) : Option Nat :=
  if hasEngines s then
    ((List.range 64).map fun i => 64 * k + i).find? fun n => !reserved s n && !engOut s n
  else none

/-- The parts of a descriptor run on engines of the stacks that hold its destination, for a COMPARE its source; an engine that last
served another tenant is cleaned first (06 R259; 07 R265). -/
def serveParts (tid : Nat) (d : Desc) (srcs : List Span) (dst : Option Span) (s : State) : State :=
  match if d.op = 3 then srcs.head? else dst with
  | none => s
  | some t =>
    let ks := ((partsOf t.g t.o d.len).filterMap fun p => (pieceAddr s p).map paStack).eraseDups
    (ks.filterMap (partEngine s)).foldl (fun s n => serveTenant n tid s) s

/-- Execute a running descriptor in its class (12 R506), or start what it must wait for: lenders' data and lines of coherent regions. One whose region has
been fenced ends with NODE_LOST (04 R157). -/
def descRun (q op : Nat) (s : State) : State :=
  match runningDesc s q op with
  | none => s
  | some x =>
    let d := x.d
    let s := setSvc (if isPart s (match bqAt s q with | some b => b.owner | none => 0) then 1 else 3) s
    let srcs := descSrcs s d
    let dst := descDst s d
    let bases := [0, 2 ^ 40]
    let need := ((bases.zip srcs).map fun y => (spanNeed s x.got y.1 d.len y.2).map fun p =>
      ({ p with pos := y.1 + p.pos }, y.2.g.owner)).flatten
    if !x.tags.isEmpty then s
    else if (dst.toList ++ srcs).any fun y => y.g.st = .fenced then descEnd q x.n .nodeLost 0 0 [] s
    else if !need.isEmpty then
      let (s, tags) := need.foldl (fun (a : State × List (Nat × Nat)) y =>
        let (s, t) := anchorRd y.2 y.1.pos y.1 a.1
        (s, a.2 ++ [t])) (s, [])
      modDesc q x.n (fun y => { y with tags := tags }) s
    else
      match descGate x.ord d.len dst srcs s with
      | (s, .wait) => modDesc q x.n (fun y => { y with lines := waitedLines d.len dst srcs }) s
      | (s, .busy) => descEnd q x.n .busy 0 0 [] s
      | (s, .go) =>
        let (s, srcs) := (bases.zip srcs).foldl (fun (a : State × List Span) y =>
          let (s, z) := spanWhole a.1 x.got y.1 d.len y.2
          (s, a.2 ++ [z])) (serveParts (match bqAt s q with | some b => b.owner | none => 0) d srcs dst s, [])
        match op, dst, srcs with
        | 3, _, a :: b :: _ =>
          let (s, n, st, res) := descCompare a b d.len (d.len / 128 + 2) 0 s
          descEnd q x.n st n (if st = .ok then res else 0) [] s
        | 0, _, _ => descEnd q x.n .ok 0 0 [] s
        | _, some t, _ =>
          let (s, n, st, wr) := descWrite d t.g srcs (descPieces d t) s
          descEnd q x.n st n 0 wr s
        | _, _, _ => descEnd q x.n .noMapping 0 0 [] s

/-- The completion record of a descriptor (06 R248, R251). -/
def descRecord (q : Bq) (x : DescRec) (s : State) : State :=
  sendMsg q.cqNode false { tc := 1, tid := some q.owner, body := .resp {
      opcode := 0x80, status := x.status, load := loadOf s q.owner, evt := 0x01, tid := q.owner, tag := x.d.tag,
      obj := BitVec.ofNat 32 (bqHandle q), r0 := w64 x.bytes, r1 := x.result, r2 := w64 x.n } } s

/-- What a running descriptor has done where something stops it: a free value says how many pieces are known to be complete, and
free values say which later ones are written; where lines of a coherent region are not there for it, none is (06 R248; log
entries 13 and 61). -/
def descStop (x : DescRec) (s : State) : State × Nat × List (Nat × Nat) :=
  let d := x.d
  let srcs := descSrcs s d
  let dst := descDst s d
  let held := claimed s x.ord
  if (descLines d.len dst srcs).any fun l => held.contains (l.1, l.2.1) || !lineReady (dirAt s l.1 l.2.1) l.2.2 none then
    (s, 0, [])
  else
    let (s, f) := takeFree 1 s
    match dst with
    | none => (s, if d.op = 3 then Config.freeNat f % (d.len + 1) else 0, [])
    | some t =>
      let ps := descPieces d t
      let k := Config.freeNat f % (ps.length + 1)
      let (s, n, st, ts) := descWrite d t.g srcs (ps.take k) s
      if st ≠ .ok then (s, n, ts)
      else
        let (s, ts') := descStray d t.g srcs (ps.drop k) s
        (s, (match ps.drop k with | p :: _ => p.pos | [] => d.len), ts ++ ts')

/-- The running descriptors that satisfy a test stop. -/
def stopRunning (hit : DescRec → Bool) (s : State) : State :=
  s.bulk.qs.foldl (fun s q => (q.descs.filter fun x => x.phase = .running && hit x).foldl (fun s x =>
    let (s, n, _) := descStop x s
    modDesc q.idx x.n (fun y => { y with bytes := n }) s) s) s

/-- At the end of step 3 of a revocation every descriptor still pinned aborts with REVOKED (04 R171). -/
def abortPins (pin : DescRec → Bool) (s : State) : State :=
  let hit := fun (x : DescRec) => (x.phase = .queued || x.phase = .running) && pin x
  let n := sumBy (fun q => countIf hit q.descs) s.bulk.qs
  setPool (fun p => { p with revokeAbort := satAdd 32 p.revokeAbort n })
    (setBulk (fun b => { b with qs := b.qs.map fun q => { q with descs := mapIf hit (fun x => { x with
      phase := .aborted, status := .revoked, tags := [], wr := [] }) q.descs } }) (stopRunning pin s))

/-- A queue that has been destroyed and has no descriptor left is freed, and its request answered (06 R249). -/
def destroyDone (q : Nat) (s : State) : State :=
  match bqAt s q with
  | none => s
  | some b => match b.destroy with
    | none => s
    | some w =>
      if b.descs.isEmpty then
        freeIndex 1 q (complete w (mkResp s w.req .ok)
          (setBulk (fun c => { c with qs := c.qs.filter fun x => x.idx ≠ q }) s))
      else s

/-- The completion of a descriptor is decided: it ran and its writes are acknowledged, or it was aborted (06 R228, R244). -/
def descOver (x : DescRec) : Bool := (x.phase == .done && x.wr.isEmpty) || x.phase == .aborted

/-- The head descriptor of a queue completes: HEAD advances and its record is sent (06 R244, R248). -/
def headDone (q : Nat) (s : State) : State :=
  match bqAt s q with
  | none => s
  | some b => match b.descs with
    | [] => s
    | x :: rest =>
      if descOver x then
        let s := modBq q (fun b => { b with descs := rest, head := (b.head + 1) % 65536 }) s
        let s := if x.d.cpl || x.status ≠ .ok then descRecord b x s else s
        destroyDone q s
      else s

end Sys2Proof.Machine
end

