-- ==== Sys2Proof/Machine/Crypto.lean ====
section
/-! DEFINITION. SHA-384, by which plans, weight sets, images and measurements are named (03_salven_image R102, 07 R271, 09 R367,
14 R578, R581). -/

namespace Sys2Proof.Machine

/-- The greatest r below 2^n added to lo whose d-th power does not pass x: one bit of the root at a time, the highest
first. -/
def rootFrom (d x : Nat) : Nat → Nat → Nat
  | 0, lo => lo
  | n + 1, lo => rootFrom d x n (if (lo + 2 ^ n) ^ d ≤ x then lo + 2 ^ n else lo)

/-- The first 64 bits after the point of the d-th root of p. -/
def rootFraction (d p : Nat) : BitVec 64 := w64 (rootFrom d (p * 2 ^ (64 * d)) 69 0)

/-- The primes below 410, the first eighty. -/
def shaPrimes : List Nat :=
  (List.range 410).filter fun p => 1 < p && (List.range 21).all fun d => decide (d < 2) || p ≤ d || p % d != 0

/-- The constants of the eighty rounds: cube roots of the first eighty primes. -/
def shaK : List (BitVec 64) := shaPrimes.map (rootFraction 3)

/-- The chaining value SHA-384 starts from: square roots of the ninth to the sixteenth prime. -/
def shaStart : List (BitVec 64) := ((shaPrimes.drop 8).take 8).map (rootFraction 2)

/-- A word turned right by each of the counts, the turned words added without carry. -/
def turned (x : BitVec 64) (l : List Nat) : BitVec 64 := l.foldl (fun a n => a ^^^ x.rotateRight n) 0

/-- The message words still to come, from the sixteen in hand, oldest first. -/
def shaWords : Nat → List (BitVec 64) → List (BitVec 64)
  | 0, w => w
  | n + 1, w =>
    let o := fun (i : Nat) => w.getD i 0
    let late := turned (o 14) [19, 61] ^^^ o 14 >>> 6
    let early := turned (o 1) [1, 8] ^^^ o 1 >>> 7
    o 0 :: shaWords n (w.drop 1 ++ [o 0 + early + o 9 + late])

/-- The rounds, as two sequences that grow by one word a round, newest first: `up` runs through the values of the first
working variable, `dn` through those of the fifth, and the other six are their predecessors. -/
def shaRun : List (BitVec 64 × BitVec 64) → List (BitVec 64) → List (BitVec 64) → List (BitVec 64)
  | [], up, dn => up.take 4 ++ dn.take 4
  | kw :: l, up, dn =>
    let u := fun (i : Nat) => up.getD i 0
    let e := fun (i : Nat) => dn.getD i 0
    let choice := e 2 ^^^ (e 0 &&& (e 1 ^^^ e 2))
    let major := (u 0 &&& u 1) ||| (u 2 &&& (u 0 ||| u 1))
    let mix := kw.1 + kw.2 + e 3 + choice + turned (e 0) [14, 18, 41]
    shaRun l ((mix + major + turned (u 0) [28, 34, 39]) :: up.take 3) ((u 3 + mix) :: dn.take 3)

/-- The chaining value after a block of 128 B. -/
def shaChain (v : List (BitVec 64)) (b : List Byte) : List (BitVec 64) :=
  let w := shaWords 64 ((List.range 16).map fun i => w64 (ofBe (slice b (8 * i) 8)))
  (v.zip (shaRun (shaK.zip w) (v.take 4) (v.drop 4))).map fun x => x.1 + x.2

/-- SHA-384: the message, one bit 1, zeros up to 16 B short of a block, and the length in bits. -/
def sha384 (l : List Byte) : List Byte :=
  let m := l ++ 0x80 :: List.replicate ((239 - l.length % 128) % 128) 0 ++ be 16 (8 * l.length)
  let v := (List.range (m.length / 128)).foldl (fun v i => shaChain v (slice m (128 * i) 128)) shaStart
  ((v.take 6).map fun w => be 8 w.toNat).flatten

/-- The HISTORY accumulator of a TID, 65,535 for the module (14 R581). -/
def historyOf (s : State) (tid : Nat) : List Byte := assocD (List.replicate 48 0) tid s.onx.history

/-- A load or a release enters the accumulators of its TID and of the module (14 R581). -/
def noteHistory (kind op tid : Nat) (digest : List Byte) (s : State) : State :=
  let next := fun (i : Nat) => sha384 (historyOf s i ++ le 1 kind ++ le 1 op ++ le 2 tid ++ digest)
  setOnx (fun o => { o with history := setAssoc 65535 (next 65535) (setAssoc tid (next tid) o.history) }) s

end Sys2Proof.Machine
end

