-- ==== Sys2Proof/Machine/Scrub.lean ====
section
/-! DEFINITION. Scrub passes: the range of a pass, what its reads do, and how it ends (13_memory_integrity R541 to R545). -/

namespace Sys2Proof.Machine

/-- The tenant's CE figures are shown (13 R545). -/
def ceShown (s : State) (tid : Nat) : Bool :=
  tid == 0xFFFF || (match tenantOf s tid with | some t => t.ceReport | none => false)

/-- The 64 B summary of a pass (13 R545). -/
def trvSummary (s : State) (p : TrvPage) (result : Nat) : List Byte :=
  let ce := ceShown s p.tid
  let us := (s.now - p.since) / 1000
  let us := if p.tid = 0xFFFF then us else ceilDiv us 1000 * 1000
  le 1 result ++ le 1 0 ++ le 2 p.tid ++ le 4 p.pass ++ le 8 p.pStart.toNat ++ le 8 p.pLines ++ le 8 p.linesDone
    ++ le 4 (if ce then p.ceLines else 0) ++ le 4 (if ce then p.ceSyms else 0) ++ le 4 p.ueLines ++ le 4 p.poison
    ++ le 8 p.firstBad.toNat ++ le 4 (min (2 ^ 32 - 1) us) ++ le 1 (if ce then p.maxSym else 0)
    ++ le 3 0

/-! Pages -/

/-- The TRV registers of a page: a tenant's, or management's with 0xFFFF (13 R547). -/
def trvPage (s : State) (tid : Nat) : TrvPage :=
  match s.trv.pages.find? fun p => p.tid = tid with
  | some p => p
  | none => { tid := tid }

/-- Change the TRV registers of a page. -/
def modTrv (tid : Nat) (f : TrvPage → TrvPage) (s : State) : State :=
  let p := f (trvPage s tid)
  setTrv (fun t => { t with pages := p :: t.pages.filter fun x => x.tid ≠ tid }) s

/-- The page of a requester. -/
def trvPageOf : Requester → Nat
  | .mgmt _ => 0xFFFF
  | .page tid => tid

/-! Ranges -/

/-- Bytes of the first x bytes of a region that lie in extent number e (04 R137, R138). -/
def bytesBelow (g : Region) (e x : Nat) : Nat :=
  if g.inter then
    let b := 2 ^ granBits g
    let n := max 1 g.exts.length
    x / (b * n) * b + min b (x % (b * n) - e * b)
  else match g.exts[e]? with
    | some y => min (y.len * unit2M) (x - y.start * unit2M)
    | none => 0

/-- Bytes of a range of a region that lie in extent number e. -/
def bytesIn (g : Region) (e lo len : Nat) : Nat := bytesBelow g e (lo + len) - bytesBelow g e lo

/-- The region offset of a byte of an extent: the inverse of the selection of 04 R137, R138. -/
def regionOfs (g : Region) (e : Nat) (x : Extent) (d : Nat) : Nat :=
  if g.inter then
    let b := 2 ^ granBits g
    (d / b * max 1 g.exts.length + e) * b + d % b
  else x.start * unit2M + d

/-- The window, the region and the first region offset of a tenant's pass. -/
def passRegion (s : State) (p : TrvPage) : Option (Window × Region × Nat) :=
  (windowOf s (p.pTgt.toNat % 2 ^ 24)).bind fun w => (regionAt s w.region).map fun g =>
    (w, g, p.pStart.toNat - w.vaBase * unit2M + w.regOfs * unit2M)

/-- The stacks of a management pass (13 R541). -/
def passStacks (s : State) (p : TrvPage) : List Nat :=
  (List.range 32).filter fun k => p.pTgt.getLsbD k && decide (k < stackCount s) && (stackAt s k).fitted
    && ((stackAt s k).st == .inService || (stackAt s k).st == .draining)

/-- The address by which a pass names a line of a PA, if the line is in its range: the PA, or a tenant's VA. -/
def passAddr (s : State) (p : TrvPage) (pa : Nat) : Option Nat :=
  if p.tid = 0xFFFF then
    let d := pa % 2 ^ 36
    if (passStacks s p).contains (paStack pa) && decide (p.pStart.toNat ≤ d) && decide (d < p.pStart.toNat + p.pLen) then
      some pa
    else none
  else match passRegion s p, extentAtPa s pa with
    | some (_, g, o), some (g', e, x) =>
      let r := regionOfs g e x (pa % 2 ^ 36 - x.base * unit2M)
      if g'.idx = g.idx && decide (o ≤ r) && decide (r < o + p.pLen) then some (p.pStart.toNat + (r - o)) else none
    | _, _ => none

/-- The bytes that a pass reads of a stack. -/
def passBytes (s : State) (p : TrvPage) (k : Nat) : Nat :=
  if p.tid = 0xFFFF then (if (passStacks s p).contains k then p.pLen else 0)
  else match passRegion s p with
    | some (_, g, o) => sumBy (fun i => bytesIn g i.1 o p.pLen)
        (((List.range g.exts.length).zip g.exts).filter fun i => i.2.anchor.isNone && i.2.stack == k)
    | none => 0

/-! Reads -/

/-- What one read adds to a pass (13 R545). -/
def passCount (addr : Nat) (r : LineRead) (p : TrvPage) : TrvPage :=
  match r with
  | .data _ n => if n = 0 then p else { p with
      ceLines := satAdd 32 p.ceLines 1, ceSyms := satAdd 32 p.ceSyms n, maxSym := max p.maxSym n }
  | .poison => { p with poison := satAdd 32 p.poison 1, firstBad := w64 (min p.firstBad.toNat addr) }
  | .ue => { p with ueLines := satAdd 32 p.ueLines 1, firstBad := w64 (min p.firstBad.toNat addr) }

/-- A pass reads one line, in class BULK (12 R506). -/
def passLine (tid : Nat) (s : State) (x : Nat × Nat) : State :=
  let (s, r) := readLine 2 x.1 (setSvc 3 s)
  modTrv tid (passCount x.2 r) s

/-- The lines of a pass that do not hold a clean codeword: (PA, address), ascending. -/
def passHits (s : State) (p : TrvPage) : List (Nat × Nat) :=
  sortBy (fun a b => decide (a.2 ≤ b.2)) (s.ecc.errs.filterMap fun x => (passAddr s p (x.1 * 128)).map fun a => (x.1 * 128, a))

/-- The reads of a stack: the others find clean lines (12 R510, R515). -/
def passStack (p : TrvPage) (hits : List (Nat × Nat)) (s : State) (k : Nat) : State :=
  let n := passBytes s p k
  if n = 0 then s
  else
    let inRange := fun l => (passAddr s p (l * 128)).isSome
    let q := (stackAt s k).wq.filter fun e => inRange e.line
    modStack k (fun x => bulkColumns 0 (n / 128) { x with
      rdBytes := x.rdBytes + (n - 128 * countIf (fun h => paStack h.1 = k) hits)
      rawWait := satAdd 16 x.rawWait q.length, wq := x.wq.filter fun e => !inRange e.line }) (touchStack k s)

/-- The page's pass reads the first m lines of its range, of each stack for management (13 R543). -/
def passRead (tid m : Nat) (s : State) : State :=
  let p := trvPage s tid
  let p' := { p with pLen := min p.pLen (128 * m) }
  let hits := passHits s p'
  let s := (List.range 32).foldl (passStack p' hits) s
  let s := hits.foldl (passLine tid) s
  modTrv tid (fun q => { q with
    linesDone := if tid = 0xFFFF then p'.pLen / 128 * (passStacks s p).length else p'.pLen / 128 }) s

/-- A pass ends with a summary (13 R544). -/
def trvEnd (tid result : Nat) (s : State) : State :=
  setTrv (fun t => { t with
    pages := mapIf (fun p => p.tid = tid && p.st = .running)
      (fun p => { p with st := .done, sum := trvSummary s p result }) t.pages }) s

/-- A pass stops before its end: how far it has come is a free value (13 R544; log entry 13). -/
def trvStop (tid result : Nat) (s : State) : State :=
  let p := trvPage s tid
  if p.st = .running then
    let (s, i) := takeFree 1 s
    trvEnd tid result (passRead tid (Config.freeNat i % (p.pLen / 128 + 1)) s)
  else s

/-- Step 1 of a revocation ends the passes on its windows (13 R544). -/
def trvRevoke (wins : List Nat) (s : State) : State :=
  (s.trv.pages.filter fun p => p.tid ≠ 0xFFFF && p.st = .running && wins.contains (p.pTgt.toNat % 2 ^ 24)).foldl
    (fun s p => trvStop p.tid 2 s) s

/-- The pass of a page has read every line of its range (13 R544). -/
def trvFinish (tid : Nat) (s : State) : State :=
  let p := trvPage s tid
  if p.st = .running then
    let lost := p.stackLost || (p.tid ≠ 0xFFFF && match passRegion s p with
      | some (_, g, o) => ((List.range g.exts.length).zip g.exts).any fun i => i.2.lost && decide (0 < bytesIn g i.1 o p.pLen)
      | none => false)
    trvEnd tid (if lost then 3 else 0) (passRead tid (p.pLen / 128) s)
  else s

end Sys2Proof.Machine
end

