-- ==== Sys2Proof/Machine/Revocation.lean ====
section
/-! DEFINITION. Revocation: its steps, the end of scrub passes and plan runs on its target, the release of objects, and
REVOKE_DONE (04_pool_memory R165, R170 to R176; 05 R217; 07 R283; 09 R360; 13 R544, R545; 14 R562). -/

namespace Sys2Proof.Machine

/-! Plans and objects that go with their tenant -/

/-- Unload a plan that does not run: banks and sync slots zeroed, engines, barriers and the slot freed (07 R283). -/
def unloadPlan (i : Nat) (s : State) : State :=
  match planAt s i with
  | none => s
  | some p =>
    let s := p.engs.foldl (fun s n => modEng n (fun e => { e with
      st := if e.st = .out then .out else if e.st = .substituting then .substituting else .free
      saved := .free, own := [.compute,.compute,.compute,.compute], comp := none, mov := none, park := none
      tid := 0, plan := 0, banks := [], sync := [], ended := true, inq := [], inPtr := [0,0,0,0],
      landed := [0,0,0,0] }) s) s
    let s := setRte (fun r => { r with tc4Slots := r.tc4Slots.filter fun x => x.2 ≠ i }) s
    noteHistory 1 2 p.tid p.digest <|
    freeIndex 2 i ((s.fe.bars.filter fun b => b.plan = some i).foldl (fun s b => freeIndex 3 b.idx s)
      (setFe (fun c => { c with
        plans := c.plans.filter fun x => x.idx ≠ i
        bars := c.bars.filter fun b => b.plan ≠ some i }) s))

/-- Free a weight set (09 R381; 14 R581). -/
def freeSet (i : Nat) (s : State) : State :=
  let s := match s.ws.sets.find? fun x => x.idx = i with
    | some x => noteHistory 2 2 x.tid x.digest s
    | none => s
  freeIndex 4 i (setWs (fun c => { c with sets := c.sets.filter fun x => x.idx ≠ i }) s)

/-- Free a KV object: its references and its reservation go; pages it made have no maker any more (09 R391, R392). -/
def freeObj (i : Nat) (s : State) : State :=
  freeIndex 5 i (setKv (fun c => { c with
    objs := (c.objs.filter fun x => x.idx ≠ i).map fun x => { x with
      pages := mapIf (fun p => p.frame.maker = i) (fun p => { p with
        frame := { p.frame with maker := 2 ^ 20 } }) x.pages } }) s)

/-- Plans, weight sets and KV objects of a tenant go before its revocation begins; the WS_LOAD, WS_GEMV, KV_APPEND and KV_ATTEND on
them complete with REVOKED (09 R360). -/
def releaseTenant (tid : Nat) (s : State) : State :=
  let runs := fun (w : Waiting) => reqTid w.req = tid && (w.op = 0x38 || w.op = 0x39 || w.op = 0x41 || w.op = 0x42)
  let s := (s.fe.plans.filter fun p => p.tid = tid).foldl (fun s p => unloadPlan p.idx (abortRun p.idx .revoked none s)) s
  let s := failAll runs .revoked (undefAll runs s)
  let s := (s.ws.sets.filter fun x => x.tid = tid).foldl (fun s x => freeSet x.idx s) s
  (s.kv.objs.filter fun x => x.tid = tid).foldl (fun s x => freeObj x.idx s) s

/-! The target of a revocation -/

/-- A region has a revocation sequence of its own. -/
def hasRev (s : State) (kind id : Nat) : Bool := s.pool.revs.any fun r => r.kind = kind && r.id = id

/-- Regions of a target. -/
def revRegions (s : State) (v : Rev) : List Region :=
  if v.kind = 2 then (regionAt s v.id).toList
  else if v.kind = 3 then s.pool.regions.filter fun g => g.owner = v.id && !hasRev s 2 g.idx
  else []

/-- Windows of a target (04 R170). -/
def revWindows (s : State) (v : Rev) : List Window :=
  if v.kind = 1 then (windowOf s v.id).toList
  else ((revRegions s v).map fun g => windowsOf s g.idx).flatten

/-- Anchors of a target (04 R165, R170). -/
def revAnchors (s : State) (v : Rev) : List Anchor :=
  if v.kind = 4 then (anchorAt s v.id).toList
  else
    let gs := (revRegions s v).map Region.idx
    s.pool.anchors.filter fun a => (match a.region with | some g => gs.contains g | none => v.kind = 3 && a.tid = v.id)

/-- A range reaches an extent of an anchor (04 R165). -/
def touches (s : State) (a : Nat) (x : WinRange) : Bool :=
  match (windowAt s (x.h % 2 ^ 16)).bind fun w => (regionAt s w.region).map fun g => (w, g) with
  | none => false
  | some (w, g) =>
    let o := x.va - w.vaBase * unit2M + w.regOfs * unit2M
    let n := if x.len = 0 then (w.regOfs + w.len) * unit2M - o else x.len
    g.exts.any fun e => e.anchor == some a && decide (e.start * unit2M < o + n) && decide (o < (e.start + e.len) * unit2M)

/-- A range belongs to the target of a revocation: it lies in one of its windows, or reaches its anchor (04 R165, R171). -/
def onTarget (s : State) (v : Rev) (hs : List Nat) (x : WinRange) : Bool :=
  if v.kind = 4 then touches s v.id x else hs.contains x.h

/-- A WS_LOAD or WS_GEMV: it pins its windows (09 R373, R379). -/
def pinsWins (w : Waiting) : Bool := w.op == 0x38 || w.op == 0x39

/-- CTX of a window: admitted requests not yet completed that name it; WS_LOAD and WS_GEMV pin it instead (04 R130). -/
def ctxOfWindow (s : State) (h : Nat) : Nat :=
  countIf (fun w => namesWin w.req h || (!pinsWins w && (recRanges w.req).any fun x => x.h = h)) s.vrb.waiting

/-- The handles of the windows of a target. -/
def revHandles (s : State) (v : Rev) : List Nat := (revWindows s v).map handleOf

/-- Step 2 is over: CTX of each window is 0, or no admitted request reaches the anchor (04 R165, R171). -/
def revDrained (s : State) (v : Rev) : Bool :=
  if v.kind = 4 then !(s.vrb.waiting.any fun w => (verbRange w.req).any (touches s v.id)
    || (!pinsWins w && (recRanges w.req).any (touches s v.id)))
  else (revHandles s v).all fun h => ctxOfWindow s h == 0

/-- A descriptor pins the target (04 R171; 06 R241). -/
def descPins (s : State) (v : Rev) (hs : List Nat) (x : DescRec) : Bool :=
  (descRanges x.d).any fun r => onTarget s v hs { h := r.1, va := r.2.1, len := x.d.len }

/-- A running plan pins the target by a window argument (07 R285). -/
def runPins (s : State) (v : Rev) (hs : List Nat) (p : Plan) : Bool :=
  match p.run with
  | some r => r.args.any fun a => decide (a.kind ≤ 2)
      && onTarget s v hs { h := a.win % 2 ^ 24, va := a.va.toNat, len := max 1 a.len }
  | none => false

/-- An admitted WS_LOAD or WS_GEMV pins the target (09 R373, R379). -/
def verbPins (s : State) (v : Rev) (hs : List Nat) (w : Waiting) : Bool :=
  pinsWins w && (recRanges w.req).any (onTarget s v hs)

/-- PINS of a window: every naming of it by a descriptor that is not aborted, by an argument of a running plan, and by an admitted
WS_LOAD or WS_GEMV (04 R130; 06 R241; 07 R285; 09 R373, R379). -/
def pinsOf (s : State) (h : Nat) : Nat :=
  sumBy (fun q => sumBy (fun x => if x.phase = .aborted then 0 else countIf (fun r => r.1 = h) (descRanges x.d)) q.descs) s.bulk.qs
    + sumBy (fun p => match p.run with
      | some r => countIf (fun a => decide (a.kind ≤ 2) && a.win % 2 ^ 24 = h) r.args
      | none => 0) s.fe.plans
    + sumBy (fun w => if pinsWins w then countIf (fun x => x.h = h) (recRanges w.req) else 0) s.vrb.waiting

/-- Step 3 is over: PINS of each window is 0, or no descriptor, run or verb pins the anchor (04 R165, R171; 07 R285). -/
def revUnpinned (s : State) (v : Rev) : Bool :=
  if v.kind = 4 then
    !(s.bulk.qs.any fun q => q.descs.any fun x => x.phase ≠ .aborted && descPins s v [] x)
      && !(s.fe.plans.any (runPins s v [])) && !(s.vrb.waiting.any (verbPins s v []))
  else (revHandles s v).all fun h => pinsOf s h == 0

/-- The record of every descriptor that the revocation aborted has gone out, so that it comes before REVOKE_DONE; records of one
queue keep their order (06 R244, R250; log entry 25). -/
def revRecorded (s : State) (v : Rev) : Bool :=
  let hs := revHandles s v
  !(s.bulk.qs.any fun q => q.descs.any fun x => x.phase = .aborted && descPins s v hs x)

/-! Step 4 (05 R217) -/

/-- Another window that stays ACTIVE and by which a slot's node reaches the region with right R (05 R217). -/
def keepingWin (s : State) (g : Region) (win : Nat) (x : Slot) : Option Window :=
  (windowsOf s g.idx).find? fun w => handleOf w ≠ win && !w.revoking
    && (grantsOf w).any fun a => decide (a.first ≤ x.node) && decide (x.node < a.first + a.nodes) && a.rights.getLsbD 0

/-- A slot that keeps its access uses the window that it keeps (05 R217; 06 R236). -/
def moveSlot (s : State) (g : Region) (win : Nat) (x : Slot) : Slot :=
  match keepingWin s g win x with
  | some w => if x.win = win then { x with win := handleOf w } else x
  | none => x

/-- A slot may hold a line. -/
def slotHolds (k : Nat) (d : DirEnt) : Bool :=
  d.sharers.getLsbD k || ((d.st = .excl || d.st = .modified || d.st = .waitRcl) && d.owner = k)

/-- Recall the stable lines that losing slots hold to I, as many as may wait at once; the others follow (05 R194, R217). -/
def recallSlots (g : Nat) (ks : List Nat) (s : State) : State :=
  let ds := s.coh.dir.filter fun d => d.region = g && !dirWaiting d && ks.any fun k => slotHolds k d
  (ds.take (16384 - waitingLines s)).foldl (fun s d =>
    match d.st with
    | .shared =>
      let t := ks.filter fun k => d.sharers.getLsbD k
      t.foldl (fun s k => cohSend 0 g d.line k false s) (setDir { d with st := .waitInv, pend := t.length } s)
    | .excl | .modified => cohSend 1 g d.line d.owner true (setDir { d with st := .waitRcl, toShared := false } s)
    | _ => s) s

/-- Slots of a window sequence that hold nothing more are detached (05 R217). -/
def detachDone (g : Nat) (ks : List Nat) (s : State) : State × List Nat :=
  let left := ks.filter fun k => s.coh.dir.any fun d => d.region = g && slotHolds k d
  ((ks.filter fun k => !left.contains k).foldl (fun s k => freeSlot g k s) s, left)

/-- Put a revocation record back. -/
def modRev (kind id : Nat) (f : Rev → Rev) (s : State) : State :=
  setPool (fun p => { p with revs := mapIf (fun r => r.kind = kind && r.id = id) f p.revs }) s

/-- Step 4 begins (05 R217). -/
def revCopies (v : Rev) (s : State) : State :=
  if v.kind = 1 then
    match (windowOf s v.id).bind fun w => regionAt s w.region with
    | none => s
    | some g =>
      let ks := if g.mode = .coherent then
          ((g.slots.filter fun x => !x.dead && (keepingWin s g v.id x).isNone).map Slot.k) else []
      let s := modRegion g.idx (fun y => { y with slots := y.slots.map (moveSlot s g v.id) }) s
      modRev v.kind v.id (fun r => { r with slots := ks.map fun k => (g.idx, k) }) (recallSlots g.idx ks s)
  else
    let gs := (revRegions s v).filter fun g => g.mode = .coherent
    let ids := gs.map Region.idx
    let s := setCoh (fun c => { c with
      dir := c.dir.filter fun d => !ids.contains d.region
      msgs := c.msgs.filter fun m => !ids.contains m.region }) s
    let ks := (gs.map fun g => (g.slots.filter fun x => !x.dead).map fun x => (g.idx, x.k)).flatten
    modRev v.kind v.id (fun r => { r with slots := ks }) (ks.foldl (fun s x => cohSend 2 x.1 0 x.2 true s) s)

/-- Slots that step 4 still waits for. -/
def revSlots (v : Rev) (s : State) : State × List (Nat × Nat) :=
  let live := v.slots.filter fun x => match (regionAt s x.1).bind fun g => slotAt g x.2 with
    | some y => !y.dead
    | none => false
  if v.kind = 1 then
    match live with
    | [] => (s, [])
    | (g, _) :: _ =>
      let ks := live.map Prod.snd
      let (s, left) := detachDone g ks (recallSlots g ks s)
      (s, left.map fun k => (g, k))
  else (s, live)

/-! Step 6 -/

/-- REVOKE_DONE to the issuer and to the covered nodes (04 R171; 06 R251, R680). -/
def revokeDone (kind id tid : Nat) (node sess : Option Nat) (grants : List Grant) (s : State) : State :=
  let s := match node with
    | some n => event n 0x03 .ok tid id kind 0 0 s
    | none => s
  let s := ((fanNodes s grants).filter fun n => node ≠ some n).foldl (fun s n => event n 0x03 .ok tid id kind 0 0 s) s
  match sess with
  | some x => if s.mgmt.sess.any (fun y => y.id = x) then emit (.mgmt x .ok []) s else s
  | none => s

/-- Give an anchor back to its lender: ANCHOR_RELEASED (04 R165; 06 R237). -/
def releaseAnchor (a : Anchor) (s : State) : State :=
  let (s, tag) := freshTag s
  setPool (fun p => { p with shadows := p.shadows.filter fun u => u.anchor ≠ a.idx })
    (sendMsg a.lender false { tc := 0, tid := some a.tid, body := .req {
      tc := 0, opcode := 0x8B, tid := BitVec.ofNat 16 a.tid, tag := BitVec.ofNat 32 tag,
      win := BitVec.ofNat 32 a.rwin } } s)

/-- Remove windows from the table. -/
def dropWindows (ws : List Window) (s : State) : State :=
  let ids := ws.map Window.idx
  ids.foldl (fun s i => freeIndex 0 i s)
    (setPool (fun p => { p with windows := p.windows.filter fun w => !ids.contains w.idx }) s)

/-- Remove regions with their directory from the tables. -/
def dropRegions (ids : List Nat) (s : State) : State :=
  setCoh (fun c => { c with
    dir := c.dir.filter fun d => !ids.contains d.region, msgs := c.msgs.filter fun m => !ids.contains m.region })
    (setPool (fun p => { p with regions := p.regions.filter fun g => !ids.contains g.idx }) s)

/-- A tenant's key pair is drawn anew, and every XTS unit's copy is replaced (14 R558, R562). -/
def replaceKey (tid : Nat) (s : State) : State :=
  if s.onx.tkeys.any fun k => k.tid = tid then
    let (s, k') := draw 64 s
    let new := fun (k : Tkey) => { k with st := .active, gen := satAdd 16 k.gen 1, key := k' }
    loadKeys (setOnx (fun o => { o with tkeys := mapIf (fun k => k.tid = tid) new o.tkeys }) s)
  else s

/-- The nodes of a tenant as grants: those of TENANT_HOSTS (03 R110). -/
def hostGrants (s : State) (tid : Nat) : List Grant :=
  (s.img.hosts.filter fun h => h.tid = tid).map fun h => { tid := tid, first := h.first, nodes := h.nodes }

/-- The last step of a revocation (04 R165, R171 to R173). The owner of a reclaimed anchor is told at the nodes that its region's
grants cover, or, where it is in no region, at the tenant's nodes of TENANT_HOSTS (log entry 58). -/
def revFinish (v : Rev) (s : State) : State :=
  let ws := revWindows s v
  let gs := revRegions s v
  let as := revAnchors s v
  let grants := (ws.map grantsOf).flatten
  let tid := if v.kind = 1 then (match ws with | w :: _ => w.owner | [] => 0)
    else if v.kind = 2 then (match gs with | g :: _ => g.owner | [] => 0)
    else if v.kind = 3 then v.id else (match as with | a :: _ => a.tid | [] => 0)
  let s := setPool (fun p => { p with revs := p.revs.filter fun r => !(r.kind == v.kind && r.id == v.id) }) s
  if v.kind = 1 then
    revokeDone 1 v.id tid v.node v.sess grants (dropWindows ws s)
  else if v.kind = 4 then
    let s := as.foldl (fun s a => releaseAnchor a s) s
    let s := setPool (fun p => { p with
      ancReclaims := satAdd 16 p.ancReclaims 1
      anchors := p.anchors.filter fun a => !(a.idx == v.id && a.region.isNone) }) s
    let g := match as with | a :: _ => (match a.region with | some i => regionGrants s i | none => hostGrants s a.tid) | [] => []
    let s := revokeDone 4 v.id tid none none g s
    (s.vrb.waiting.filter fun w => w.why = .revoke v.id).foldl (fun s w =>
      complete w { mkResp s w.req .ok with obj := BitVec.ofNat 32 v.id } s) s
  else
    let s := (as.filter fun a => !anchorGone s a).foldl (fun s a => releaseAnchor a s) s
    let ids := as.map Anchor.idx
    let s := setPool (fun p => { p with anchors := p.anchors.filter fun a => !ids.contains a.idx }) s
    let s := dropRegions (gs.map Region.idx) (dropWindows ws s)
    let s := if v.kind = 3 then replaceKey v.id s else s
    let s := v.taken.foldl (fun s x => revokeDone 1 x.1 tid (some x.2) none [] s) s
    revokeDone v.kind v.id tid v.node v.sess grants s

/-- One step of a revocation as far as it may go now; n bounds the steps (04 R171). -/
def revAdvance : Nat → Nat → Nat → State → State
  | 0, _, _, s => s
  | n + 1, kind, id, s =>
    match s.pool.revs.find? fun r => r.kind = kind && r.id = id with
    | none => s
    | some v =>
      match v.phase with
      | .drain => if revDrained s v then revAdvance n kind id (modRev kind id (fun r => { r with phase := .pins }) s) else s
      | .pins =>
        if revUnpinned s v then
          revAdvance n kind id (revCopies v (modRev kind id (fun r => { r with phase := .copies }) s))
        else s
      | .copies =>
        let (s, left) := revSlots v s
        let s := modRev kind id (fun r => { r with slots := left }) s
        if left.isEmpty then
          if kind = 1 || kind = 4 then revAdvance n kind id (modRev kind id (fun r => { r with phase := .finish }) s)
          else modRev kind id (fun r => { r with phase := .overwrite }) s
        else s
      | .overwrite => s
      | .finish => if revRecorded s v then revFinish v s else s

/-- Every revocation goes on as far as it may. -/
def revsAdvance (s : State) : State := s.pool.revs.foldl (fun s v => revAdvance 5 v.kind v.id s) s

/-- The anchors that nodes of a tenant lent to other tenants, which the revocation of the tenant reclaims (04 R170; log entry 58). -/
def lentBy (s : State) (tid : Nat) : List Anchor :=
  s.pool.anchors.filter fun a => a.tid ≠ tid && s.img.hosts.any fun h =>
    h.tid == tid && decide (h.first ≤ a.lender) && decide (a.lender < h.first + h.nodes)

/-- The sequences that a tenant's waits for: those of its regions and windows, and of the anchors it lent elsewhere. -/
def tenantWaits (s : State) (tid : Nat) : Bool :=
  s.pool.revs.any fun r =>
    (r.kind = 2 && (match regionAt s r.id with | some g => g.owner == tid | none => false))
      || (r.kind = 1 && (match windowOf s r.id with | some w => w.owner == tid | none => false))
      || (r.kind = 4 && (lentBy s tid).any fun a => a.idx = r.id)

/-- The overwrite of the target's extents has finished (04 R171 step 5, R174; 05 R210); a tenant's sequence ends after those it
waits for. -/
def revOverwritten (v : Rev) (s : State) : State :=
  if v.phase = .overwrite && !(v.kind = 3 && tenantWaits s v.id) then
    revAdvance 5 v.kind v.id (modRev v.kind v.id (fun r => { r with phase := .finish })
      ((revRegions s v).foldl (fun s g => zeroExtents g.exts s) s))
  else s

/-- Begin one revocation: its record, and the window sequences it takes over (04 R171, R173). -/
def revStart (v : Rev) (s : State) : State :=
  let hs := revHandles s v
  let inner := if v.kind = 1 || v.kind = 4 then [] else s.pool.revs.filter fun r => r.kind = 1 && hs.contains r.id
  let v := { v with taken := inner.filterMap fun r => r.node.map fun n => (r.id, n) }
  let gs := (revRegions s v).map Region.idx
  let ord := s.vrb.nextOrd
  let s := setPool (fun p => { p with
    revs := (p.revs.filter fun r => !(inner.any fun x => x.kind = r.kind && x.id = r.id)) ++ [v]
    regions := mapIf (fun g => gs.contains g.idx) (fun g => { g with st := .revoking, revOrd := ord }) p.regions
    windows := if v.kind = 1 then mapIf (fun w => hs.contains (handleOf w)) (fun w => { w with revoking := true, revOrd := ord })
      p.windows else p.windows
    anchors := if v.kind = 4 then mapIf (fun a => a.idx = v.id) (fun a => { a with st := .revoking, revOrd := ord }) p.anchors
      else p.anchors }) s
  revAdvance 5 v.kind v.id (trvRevoke hs s)

/-- Begin a revocation; that of a tenant reclaims the anchors it lent elsewhere (04 R170, R171). -/
def revBegin (v : Rev) (s : State) : State :=
  let lent := if v.kind = 3 then (lentBy s v.id).filter fun a => a.st ≠ .revoking else []
  revStart v (lent.foldl (fun s a => revStart { kind := 4, id := a.idx, since := v.since } s) s)

/-- Every descriptor, run and waiting verb that pins the target ends (04 R171; 07 R291; 09 R374, R379). -/
def endPins (v : Rev) (s : State) : State :=
  let hs := revHandles s v
  let s := abortPins (descPins s v hs) s
  let s := (s.fe.plans.filter (runPins s v hs)).foldl (fun s p => abortRun p.idx .revoked none s) s
  failAll (verbPins s v hs) .revoked (undefAll (verbPins s v hs) s)

/-- At 1 ms every descriptor still pinned aborts, and the runs that hold a window abort (04 R171; 07 R291). -/
def revPinTimeout (v : Rev) (s : State) : State :=
  if v.phase = .pins && decide (v.since + 1000000 ≤ s.now) then revAdvance 5 v.kind v.id (endPins v s) else s

end Sys2Proof.Machine
end

