-- ==== Sys2Proof/Machine/Pool.lean ====
section
/-! DEFINITION. The commands of the pool: regions, windows, grants, revocation, lent anchors and hints (04_pool_memory R141 to
R176, R180, R676; 05_coherence R200, R213, R214; 06_pool_verbs R248). -/

namespace Sys2Proof.Machine

/-! Regions -/

/-- The parameters of REGION_CREATE with their defaults and clamps (04 R143, R676). -/
structure RegParams where
  /-- MODE. -/
  mode : RegionMode := .priv
  /-- PLACE. -/
  place : Nat := 0
  /-- ILV. -/
  ilv : Nat := 0
  /-- SIZE_2M. -/
  size : Nat := 1
  /-- PEER. -/
  peer : Nat := 0
  /-- ANCHORS. -/
  anchors : Nat := 1
  /-- STACK_MASK. -/
  mask : Nat := 0
deriving DecidableEq, Repr

/-- A MODE code; 4 to 7 are PRIVATE (04 R143). -/
def modeOf (n : Nat) : RegionMode :=
  if n = 1 then .uncached else if n = 2 then .coherent else if n = 3 then .mirrored else .priv

/-- The code of a MODE. -/
def modeCode : RegionMode → Nat
  | .priv => 0 | .uncached => 1 | .coherent => 2 | .mirrored => 3

/-- The parameters of a request (04 R676). -/
def regParams (s : State) (r : Req) : RegParams :=
  let b := r.subop.toNat
  let a := op0 r
  { mode := modeOf (bits b 2 0), place := if bits b 4 3 = 3 then 0 else bits b 4 3
    ilv := if bits b 6 5 = 3 then 0 else bits b 6 5, size := clampTo 1 (maxUnits s) (bits a 19 0)
    peer := bits a 35 32, anchors := clampTo 1 64 (bits a 46 40), mask := bits (op1 r) 31 0 }

/-- The effective STACK_MASK (04 R143, R676). -/
def maskWord (ks : List Nat) : Nat := sumBy (fun k => 2 ^ k) ks

/-- The placement of local extents: effective size and extents (04 R144, R145). -/
def placeLocal (s : State) (p : RegParams) : Option (Nat × List Extent) :=
  let coh := p.mode = .coherent
  if p.place = 1 then (placePack s coh p.mask p.size).map fun xs => (p.size, xs)
  else placeSpread s coh p.mask p.size

/-- Enter a region in the tables and zero its extents (04 R129, R147). -/
def addRegion (g : Region) (s : State) : State :=
  zeroExtents g.exts (setPool (fun p => { p with regions := p.regions ++ [g] }) s)

/-- A region of local extents within every limit, or none (04 R124, R125; 05 R213, R214). -/
def newRegion (tid pick : Nat) (p : RegParams) (s : State) : State × Option Region :=
  if limitOf s tid TenantCfg.maxWindows ≤ regionCount s tid then (s, none)
  else
    let s := makeRoom tid p.size s
    match placeLocal s p with
    | none => (s, none)
    | some (size, xs) =>
      let s := makeRoom tid size s
      match freeRegion s pick, xtBase s xs.length with
      | some i, some xt =>
        if !memFits s tid size || (p.mode = .coherent
            && decide (limitOf s tid TenantCfg.maxCohGib * 512 < cohUnits s tid + size)) then (s, none)
        else
          let g : Region := { idx := i, mode := p.mode, owner := tid, xtBase := xt, exts := xs, inter := p.place ≠ 1,
                              ilv := p.ilv, size := size, peer := if p.mode = .mirrored then p.peer else 0 }
          (addRegion g s, some g)
      | _, _ => (s, none)

/-- The response of REGION_CREATE (04 R676). PEER and ILV of a kind that does not use them echo the request: DESIGN CHOICE (log entry
57). -/
def regionResp (s : State) (r : Req) (g : Region) (p : RegParams) (mask : Nat) : Resp :=
  { mkResp s r .ok with
    obj := BitVec.ofNat 32 g.idx, r0 := w64 (g.size + 2 ^ 32 * g.exts.length)
    r1 := w64 (modeCode p.mode + 8 * p.place + 32 * p.ilv + 256 * p.peer), r2 := w64 mask }

/-- The extents of PLACE ANCHOR, in list order from a first unit on (04 R146). -/
def anchorExtents : Nat → List Anchor → List Extent
  | _, [] => []
  | n, a :: l => { anchor := some a.idx, start := n, len := a.len } :: anchorExtents (n + a.len) l

/-- REGION_CREATE with PLACE ANCHOR (04 R142, R146). -/
def createAnchored (pick : Nat) (p : RegParams) (w : Waiting) (s : State) : State :=
  let r := w.req
  let tid := reqTid r
  let ids := (List.range p.anchors).map fun i => field r.payload (2 * i) 2 % 2 ^ 14
  let as := ids.filterMap (anchorAt s)
  if p.mode = .coherent || p.mode = .mirrored || 64 * reqSlots r < 2 * p.anchors then replySt w .denied s
  else if as.length ≠ ids.length || ids.eraseDups.length ≠ ids.length
      || as.any (fun a => a.tid ≠ tid || a.st ≠ .lent) then replySt w .denied s
  else
    let size := sumBy Anchor.len as
    if maxUnits s < size || limitOf s tid TenantCfg.maxWindows ≤ regionCount s tid then replySt w .refused s
    else match freeRegion s pick, xtBase s as.length with
      | some i, some xt =>
        let g : Region := { idx := i, mode := p.mode, owner := tid, xtBase := xt, exts := anchorExtents 0 as,
                            ilv := p.ilv, size := size }
        let s := setPool (fun q => { q with
          anchors := mapIf (fun a => ids.contains a.idx) (fun a => { a with st := .inRegion, region := some i }) q.anchors })
          (addRegion g s)
        reply w (regionResp s r g p (maskWord (maskStacks s p.mask))) s
      | _, _ => replySt w .refused s

/-- REGION_CREATE (04 R143 to R147, R153). -/
def regionCreate (pick : Nat) (w : Waiting) (s : State) : State :=
  let r := w.req
  let p := regParams s r
  if p.place = 2 then createAnchored pick p w s
  else
    let mask := maskWord (maskStacks s p.mask)
    match p.mode, s.img.mirrorPeers[p.peer]? with
    | .mirrored, none => replySt w .noMapping s
    | .mirrored, some node =>
      match newRegion (reqTid r) pick p s with
      | (s, none) => replySt w .refused s
      | (s, some g) =>
        let (s, tag) := freshTag s
        let s := modRegion g.idx (fun g => { g with shadowNode := node }) s
        let s := mirrorMsg node 0x90 g.owner tag 0 g.idx (g.size + 2 ^ 20 * p.ilv) 0 0 [] s
        waitFor w (.mirror [tag] (regionResp s r g p mask)) s
    | _, _ =>
      match newRegion (reqTid r) pick p s with
      | (s, none) => replySt w .refused s
      | (s, some g) => reply w (regionResp s r g p mask) s

/-- REGION_CREATE. -/
def execRegionCreate (r : Req) (e : Env) (s : State) : Host.Outcome State Fault Refusal :=
  .next (runVerb { r with opcode := 0x18 } e (regionCreate e.pick) s)

/-- A region of a tenant by its index (04 R676). -/
def tenantRegion (s : State) (tid i : Nat) : Option Region := (regionAt s i).filter fun g => g.owner = tid

/-- A region of the requester's tenant that its verbs may use: an unopened shadow is not one (04 R156, R676). -/
def ownRegion (s : State) (tid i : Nat) : Option Region := (tenantRegion s tid i).filter fun g => g.st ≠ .shadow

/-- Replace the lost extents of a list, in ascending extent number (04 R180). -/
def repairN (gi : Nat) (coh : Bool) : List Nat → State → Option State
  | [], s => some s
  | e :: es, s =>
    match (regionAt s gi).bind fun g => g.exts[e]? with
    | none => some s
    | some x =>
      match (byFree s coh (maskStacks s 0)).findSome? fun k => (firstFit s coh k x.len).map fun b => (k, b) with
      | none => none
      | some (k, b) =>
        let y := { x with stack := k, base := b, lost := false }
        repairN gi coh es (zeroExtents [y] (modRegion gi (fun g => { g with exts := g.exts.set e y }) s))

/-- The lost local extents of a region. -/
def lostExts (g : Region) : List Nat :=
  (List.range g.exts.length).filter fun e => match g.exts[e]? with | some x => x.lost && x.anchor.isNone | none => false

/-- REGION_REPAIR (04 R180). -/
def regionRepair (w : Waiting) (s : State) : State :=
  let r := w.req
  match ownRegion s (reqTid r) (op0 r % 65536) with
  | none => replySt w .noMapping s
  | some g =>
    if g.st = .revoking then replySt w .revoked s
    else
      let lost := lostExts g
      match repairN g.idx (g.mode = .coherent) lost s with
      | none => replySt w .refused s
      | some s => reply w { mkResp s r .ok with obj := BitVec.ofNat 32 g.idx, r0 := w64 lost.length } s

/-- REGION_REPAIR. -/
def execRegionRepair (r : Req) (e : Env) (s : State) : Host.Outcome State Fault Refusal :=
  .next (runVerb { r with opcode := 0x19 } e regionRepair s)

/-- REGION_DEGRADE (04 R158). -/
def regionDegrade (w : Waiting) (s : State) : State :=
  let r := w.req
  match tenantRegion s (reqTid r) (op0 r % 65536) with
  | none => replySt w .noMapping s
  | some g =>
    if g.st = .fenced || g.st = .degraded then
      reply w { mkResp s r .ok with obj := BitVec.ofNat 32 g.idx, r0 := 1 }
        (if g.st = .fenced then modRegion g.idx (fun g => { g with st := .degraded, bound := false }) s else s)
    else replySt w .busy s

/-- REGION_DEGRADE. -/
def execRegionDegrade (r : Req) (e : Env) (s : State) : Host.Outcome State Fault Refusal :=
  .next (runVerb { r with opcode := 0x1A } e regionDegrade s)

/-! Windows -/

/-- Two unit ranges overlap. -/
def unitsOverlap (a n b m : Nat) : Bool := decide (a < b + m) && decide (b < a + n)

/-- A new window within every limit, or the status of the refusal (04 R148, R149). -/
def newWindow (tid pick va ofs len : Nat) (g : Region) (s : State) : State × Status × Window :=
  let ofs := if g.inter then 0 else clampTo 0 (g.size - 1) ofs
  let len := if g.inter then g.size else clampTo 1 (g.size - ofs) len
  if va % unit2M ≠ 0 || 2 ^ 64 < va + len * unit2M
      || s.pool.windows.any (fun x => x.owner == tid && unitsOverlap x.vaBase x.len (va / unit2M) len) then (s, .denied, {})
  else if limitOf s tid TenantCfg.maxWindows ≤ windowCount s tid then (s, .refused, {})
  else match findFree (fun i => (windowAt s i).isNone && indexRested s 0 i) 65536 pick with
    | none => (s, .refused, {})
    | some i =>
      let x : Window := { idx := i, gen := nextGen s 0 i, owner := tid, region := g.idx, vaBase := va / unit2M,
                          len := len, regOfs := ofs, grants := List.replicate 8 none }
      (useIndex 0 i x.gen (setPool (fun p => { p with windows := p.windows ++ [x] }) s), .ok, x)

/-- WINDOW_CREATE (04 R148, R154). -/
def windowCreate (pick : Nat) (w : Waiting) (s : State) : State :=
  let r := w.req
  match ownRegion s (reqTid r) (op0 r % 65536) with
  | none => replySt w .noMapping s
  | some g =>
    if g.st = .revoking then replySt w .revoked s
    else
      match newWindow (reqTid r) pick (reqVa r) (bits (op1 r) 19 0) (bits (op1 r) 51 32) g s with
      | (s, .ok, x) =>
        let p := { mkResp s r .ok with obj := BitVec.ofNat 32 (handleOf x), r0 := w64 (x.regOfs + 2 ^ 32 * x.len) }
        if mirrorLive g then
          let (s, tag) := freshTag s
          waitFor w (.mirror [tag] p) (mirrorMsg g.shadowNode 0x90 g.owner tag 0 g.idx (x.regOfs + 2 ^ 32 * x.len)
            (x.vaBase * unit2M) 1 [] s)
        else reply w p s
      | (s, st, _) => replySt w st s

/-- WINDOW_CREATE. -/
def execWindowCreate (r : Req) (e : Env) (s : State) : Host.Outcome State Fault Refusal :=
  .next (runVerb { r with opcode := 0x1B } e (windowCreate e.pick) s)

/-- A grant would make a PRIVATE region reachable from a second node (04 R141, R142). -/
def secondNode (s : State) (g : Region) (x : Grant) : Bool :=
  g.mode == .priv && (x.nodes ≠ 1 || (regionGrants s g.idx).any fun y => y.first ≠ x.first || y.nodes ≠ 1)

/-- Add a grant in the first unused slot (04 R142, R150). -/
def addGrant (x : Window) (g : Region) (y : Grant) (s : State) : State × Status × Nat :=
  if 0xFFFFF < y.first + y.nodes - 1 || secondNode s g y then (s, .denied, 0)
  else match (List.range 8).find? fun i => (x.grants.getD i none).isNone with
    | none => (s, .refused, 0)
    | some i => (modWindow x.idx (fun x => { x with grants := setNthD none i (some y) x.grants }) s, .ok, i)

/-- WINDOW_GRANT (04 R150, R151, R154). -/
def windowGrant (w : Waiting) (s : State) : State :=
  let r := w.req
  let y : Grant := { tid := bits (op1 r) 11 0, first := bits (op0 r) 19 0, nodes := clampTo 1 1048576 (bits (op0 r) 52 32)
                     rights := BitVec.ofNat 3 (bits (op1 r) 18 16) }
  match windowOf s (reqWin r) with
  | none => replySt w .noMapping s
  | some x =>
    match ownRegion s (reqTid r) x.region with
    | none => replySt w .noMapping s
    | some g =>
      if x.owner ≠ reqTid r then replySt w .noMapping s
      else if revokedFor x g w.ord then replySt w .revoked s
      else
        match addGrant x g y s with
        | (s, .ok, i) =>
          let p := { mkResp s r .ok with obj := BitVec.ofNat 32 (handleOf x), r0 := w64 i, r1 := w64 y.nodes }
          if mirrorLive g then
            let (s, tag) := freshTag s
            waitFor w (.mirror [tag] p) (mirrorMsg g.shadowNode 0x90 g.owner tag 0 g.idx (y.first + 2 ^ 32 * y.nodes)
              (y.tid + 2 ^ 16 * y.rights.toNat + 2 ^ 32 * x.peerWin) 2 [] s)
          else reply w p s
        | (s, st, _) => replySt w st s

/-- WINDOW_GRANT. -/
def execWindowGrant (r : Req) (e : Env) (s : State) : Host.Outcome State Fault Refusal :=
  .next (runVerb { r with opcode := 0x1C } e windowGrant s)

/-! Revocation -/

/-- SUBOP of a REVOKE of a GRANT: 0, and the reserved codes (04 R676). -/
def grantSubop (b : Byte) : Byte := if b = 1 || b = 2 || b = 3 then 0 else b

/-- REVOKE of a GRANT (04 R172): requests admitted before it still have the grant. -/
def revokeGrant (w : Waiting) (s : State) : State :=
  let r := w.req
  let i := bits (op0 r) 2 0
  match windowOf s (reqWin r) with
  | none => replySt w .noMapping s
  | some x =>
    if x.owner ≠ reqTid r || (ownRegion s (reqTid r) x.region).isNone then replySt w .noMapping s
    else match x.grants.getD i none with
      | none => replySt w .noMapping s
      | some y =>
        let n := s.vrb.nextOrd
        let used := fun (k : Nat) => (s.vrb.waiting.any fun v => decide (v.ord < k))
          || s.bulk.qs.any fun q => q.descs.any fun d => decide (d.ord < k)
        reply w { mkResp s r .ok with obj := BitVec.ofNat 32 (handleOf x) }
          (modWindow x.idx (fun x => { x with
            grants := setNthD none i none x.grants, gone := (x.gone ++ [(y, n)]).filter fun g => used g.2 }) s)

/-- REVOKE of a GRANT. -/
def execRevokeGrant (r : Req) (e : Env) (s : State) : Host.Outcome State Fault Refusal :=
  .next (runVerb { r with opcode := 0x1D, subop := grantSubop r.subop } e revokeGrant s)

/-- REVOKE of a WINDOW (04 R171, R173). -/
def revokeWindow (w : Waiting) (s : State) : State :=
  let r := w.req
  match windowOf s (reqWin r) with
  | none => replySt w .noMapping s
  | some x =>
    match ownRegion s (reqTid r) x.region with
    | none => replySt w .noMapping s
    | some g =>
      if x.owner ≠ reqTid r then replySt w .noMapping s
      else
        let p := { mkResp s r .ok with obj := BitVec.ofNat 32 (handleOf x) }
        if x.revoking || g.st = .revoking then reply w p s
        else revBegin { kind := 1, id := handleOf x, node := some r.src, since := w.since } (reply w p s)

/-- REVOKE of a WINDOW. -/
def execRevokeWindow (r : Req) (e : Env) (s : State) : Host.Outcome State Fault Refusal :=
  .next (runVerb { r with opcode := 0x1D, subop := 1 } e revokeWindow s)

/-- An admitted WS_LOAD on a region: its set is LOADING and counts as resident (09 R373). -/
def loadsOn (s : State) (i : Nat) : Bool :=
  s.vrb.waiting.any fun w => w.op = 0x38 && objField w = i && (objRegion s (reqTid w.req) i).isSome && !w.sealLate

/-- REVOKE of a REGION (04 R171, R173, R175). -/
def revokeRegion (w : Waiting) (s : State) : State :=
  let r := w.req
  match ownRegion s (reqTid r) (op0 r % 65536) with
  | none => replySt w .noMapping s
  | some g =>
    let p := { mkResp s r .ok with obj := BitVec.ofNat 32 g.idx }
    if g.st = .revoking then reply w p s
    else if sealedRegion s g.idx || loadsOn s g.idx then replySt w .busy s
    else revBegin { kind := 2, id := g.idx, node := some r.src, since := w.since } (reply w p s)

/-- REVOKE of a REGION; SUBOP 3 names a TENANT and is denied (04 R170). -/
def execRevokeRegion (r : Req) (e : Env) (s : State) : Host.Outcome State Fault Refusal :=
  if r.subop = 3 then .next (runVerb { r with opcode := 0x1D } e (fun w s => replySt w .denied s) s)
  else .next (runVerb { r with opcode := 0x1D, subop := 2 } e revokeRegion s)

/-- REVOKE of a TENANT, by management (04 R170, R171; 09 R360). -/
def revokeTenant (sess tid : Nat) (s : State) : State :=
  if hasRev s 3 tid then mgmtReply sess .ok [] s
  else revBegin { kind := 3, id := tid, sess := some sess, since := s.now } (releaseTenant tid s)

/-- REVOKE of a TENANT. -/
def execRevokeTenant (sess tid : Nat) (e : Env) (s : State) : Host.Outcome State Fault Refusal :=
  .next (withSess sess e.t .operator (revokeTenant sess (tid % 4096)) (applyEnv e s))

/-- The revocation at a place of the list of those in progress goes on. -/
def atRev (i : Nat) (f : Rev → State → State) (s : State) : State :=
  match s.pool.revs[i]? with
  | some v => f v s
  | none => s

/-- REVOKE_DRAIN_DONE (04 R171 step 2). -/
def execRevokeDrainDone (i : Nat) (e : Env) (s : State) : Host.Outcome State Fault Refusal :=
  .next (atRev i (fun v s => revAdvance 5 v.kind v.id s) (applyEnv e s))

/-- REVOKE_PIN_TIMEOUT (04 R171 step 3). -/
def execRevokePinTimeout (i : Nat) (e : Env) (s : State) : Host.Outcome State Fault Refusal :=
  .next (atRev i revPinTimeout (applyEnv e s))

/-- REVOKE_OVERWRITE_DONE (04 R171 steps 5 and 6). -/
def execRevokeOverwriteDone (i : Nat) (e : Env) (s : State) : Host.Outcome State Fault Refusal :=
  .next (atRev i revOverwritten (applyEnv e s))

/-! Anchors -/

/-- ANCHOR_LEND (04 R160). -/
def anchorLend (pick : Nat) (w : Waiting) (s : State) : State :=
  let r := w.req
  let tid := reqTid r
  if limitOf s tid TenantCfg.maxAnchors ≤ anchorCount s tid then replySt w .refused s
  else match findFree (fun i => (anchorAt s i).isNone) 16384 pick with
    | none => replySt w .refused s
    | some i =>
      let a : Anchor := { idx := i, tid := tid, lender := r.src, rwin := bits (op0 r) 15 0,
                          len := clampTo 1 32768 (bits (op0 r) 47 32) }
      reply w { mkResp s r .ok with obj := BitVec.ofNat 32 i, r0 := w64 a.len }
        (setPool (fun p => { p with anchors := p.anchors ++ [a] }) s)

/-- ANCHOR_LEND. -/
def execAnchorLend (r : Req) (e : Env) (s : State) : Host.Outcome State Fault Refusal :=
  .next (runVerb { r with opcode := 0x20 } e (anchorLend e.pick) s)

/-- ANCHOR_RECLAIM (04 R165, R173). An anchor that is unknown, or another lender's or tenant's, answers NO_MAPPING: DESIGN CHOICE (log
entry 58). -/
def anchorReclaim (w : Waiting) (s : State) : State :=
  let r := w.req
  match anchorAt s (bits (op0 r) 13 0) with
  | none => replySt w .noMapping s
  | some a =>
    if a.lender ≠ r.src || a.tid ≠ reqTid r || anchorGone s a then replySt w .noMapping s
    else
      let s := waitFor w (.revoke a.idx) s
      if a.st = .revoking then s
      else revBegin { kind := 4, id := a.idx, node := some r.src, since := w.since } s

/-- ANCHOR_RECLAIM. -/
def execAnchorReclaim (r : Req) (e : Env) (s : State) : Host.Outcome State Fault Refusal :=
  .next (runVerb { r with opcode := 0x21 } e anchorReclaim s)

/-! Hints (04 R167 to R169; 05 R200) -/

/-- The window range of PREFETCH and ADVISE (04 R676). -/
def hintLen (r : Req) : Nat := clampTo 1 (2 ^ 40) (op0 r)

/-- The 2 MiB units of anchors that parts touch. -/
def anchorUnits (ps : List Part) : List (Nat × Nat) :=
  ((ps.filterMap fun p => p.x.anchor.map fun a =>
    (List.range ((p.ofs + p.len - 1) / unit2M - p.ofs / unit2M + 1)).map fun i => (a, p.ofs / unit2M + i)).flatten).eraseDups

/-- The reads that fill a shadow unit, in messages of 2,048 B; the place of each piece is its own for every anchor. -/
def unitPieces (u : Nat × Nat) : List Part :=
  (List.range 1024).map fun i =>
    { pos := u.1 * 2 ^ 36 + u.2 * unit2M + i * 2048, ofs := u.2 * unit2M + i * 2048, len := 2048, x := { anchor := some u.1 } }

/-- Give a shadow unit a place and fill it with the lender's data (04 R167). -/
def fillShadow (got : List (Nat × List Byte)) (s : State) (u : Nat × Nat) : State :=
  match (byFree s false (maskStacks s 0)).findSome? fun k => (firstFit s false k 1).map fun b => (k, b) with
  | none => s
  | some (k, b) =>
    let d := ((unitPieces u).map fun p => lenderData s p (assocD [] p.pos got)).flatten
    setPool (fun p => { p with shadows := p.shadows ++ [{ anchor := u.1, unit := u.2, stack := k, base := b }] })
      (writeDram (k * 2 ^ 36 + b * unit2M) d s).1

/-- PREFETCH and ADVISE WILL_NEED: read the units that have no shadow yet, then fill their shadows (04 R167, R168). -/
def prefetchRun (w : Waiting) (got : List (Nat × List Byte)) (s : State) : State :=
  let r := w.req
  match checkAccess s w.ord (reqWin r) (reqTid r) r.src (reqVa r) (hintLen r) rightR with
  | .bad st => replySt w st s
  | .ok _ g o =>
    let ps := partsOf g o (hintLen r)
    let st := partsStatus s w.ord g.owner ps
    if st ≠ .ok then replySt w st s
    else
      let us := (anchorUnits ps).filter fun u => (shadowOf s u.1 (u.2 * unit2M)).isNone
      let s := if us.isEmpty then s else makeRoom g.owner us.length s
      let free := sumBy (freeUnits s) (maskStacks s 0)
      if us.isEmpty then reply w (mkResp s r .ok) s
      else if !memFits s g.owner us.length || free < us.length then replySt w .refused s
      else
        let need := (us.map unitPieces).flatten.filter fun p => (assoc p.pos got).isNone
        if need.isEmpty then
          let s := us.foldl (fillShadow got) s
          reply w { mkResp s r .ok with r0 := w64 us.length } s
        else
          let (s, tags) := anchorRds g.owner 0 need s
          waitFor w (.anchorRd tags got) s

/-- PREFETCH. -/
def execPrefetch (r : Req) (e : Env) (s : State) : Host.Outcome State Fault Refusal :=
  .next (runVerb { r with opcode := 0x08 } e (fun w s => prefetchRun w [] s) s)

/-- ADVISE WILL_NEED; the reserved codes stand for it (04 R676). -/
def execAdviseWillNeed (r : Req) (e : Env) (s : State) : Host.Outcome State Fault Refusal :=
  .next (runVerb { r with opcode := 0x09, subop := grantSubop r.subop } e (fun w s => prefetchRun w [] s) s)

/-- The check of an ADVISE of another kind. -/
def adviseRange (w : Waiting) (f : Region → List Part → Nat → State → State) (s : State) : State :=
  let r := w.req
  match checkAccess s w.ord (reqWin r) (reqTid r) r.src (reqVa r) (hintLen r) rightR with
  | .bad st => replySt w st s
  | .ok _ g o =>
    let ps := partsOf g o (hintLen r)
    let st := partsStatus s w.ord g.owner ps
    if st ≠ .ok then replySt w st s else f g ps o s

/-- Lines of a region range: the first and their number. -/
def lineRange (o len : Nat) : Nat × Nat := (o / 128, (o + len - 1) / 128 - o / 128 + 1)

/-- Take a line range out of a list of line ranges. -/
def cutRange (c : Nat × Nat) (l : List (Nat × Nat)) : List (Nat × Nat) :=
  (l.map fun x =>
    (if x.1 < c.1 then [(x.1, min x.2 (c.1 - x.1))] else [])
      ++ (if c.1 + c.2 < x.1 + x.2 then [(max x.1 (c.1 + c.2), x.1 + x.2 - max x.1 (c.1 + c.2))] else [])).flatten

/-- ADVISE DONT_NEED (04 R167, R169; 05 R200). -/
def adviseDontNeed (w : Waiting) (s : State) : State :=
  adviseRange w (fun g ps o s =>
    let us := anchorUnits ps
    let hit := fun (u : Shadow) => us.contains (u.anchor, u.unit)
    let n := countIf hit s.pool.shadows
    let s := setPool (fun p => { p with shadows := p.shadows.filter fun u => !hit u }) s
    let s := modRegion g.idx (fun g => { g with readMostly := cutRange (lineRange o (hintLen w.req)) g.readMostly }) s
    reply w { mkResp s w.req .ok with r0 := w64 n } s) s

/-- ADVISE DONT_NEED. -/
def execAdviseDontNeed (r : Req) (e : Env) (s : State) : Host.Outcome State Fault Refusal :=
  .next (runVerb { r with opcode := 0x09, subop := 1 } e adviseDontNeed s)

/-- ADVISE READ_MOSTLY (05 R200; 04 R167). -/
def adviseReadMostly (w : Waiting) (s : State) : State :=
  adviseRange w (fun g _ o s =>
    let s := if g.mode = .coherent then
        modRegion g.idx (fun g => { g with
          readMostly := cutRange (lineRange o (hintLen w.req)) g.readMostly ++ [lineRange o (hintLen w.req)] }) s
      else s
    reply w (mkResp s w.req .ok) s) s

/-- ADVISE READ_MOSTLY. -/
def execAdviseReadMostly (r : Req) (e : Env) (s : State) : Host.Outcome State Fault Refusal :=
  .next (runVerb { r with opcode := 0x09, subop := 2 } e adviseReadMostly s)

/-- ADVISE PIN (04 R167). -/
def advisePin (w : Waiting) (s : State) : State :=
  adviseRange w (fun _ ps _ s =>
    let us := anchorUnits ps
    let hit := fun (u : Shadow) => us.contains (u.anchor, u.unit)
    let n := countIf hit s.pool.shadows
    let s := setPool (fun p => { p with shadows := mapIf hit (fun u => { u with pinned := true }) p.shadows }) s
    reply w { mkResp s w.req .ok with r0 := w64 n } s) s

/-- ADVISE PIN. -/
def execAdvisePin (r : Req) (e : Env) (s : State) : Host.Outcome State Fault Refusal :=
  .next (runVerb { r with opcode := 0x09, subop := 3 } e advisePin s)

/-! The end of a bulk descriptor -/

/-- DESCRIPTOR_COMPLETE: HEAD advances, the pins are released and the record is sent (06 R244, R248); a revocation that
waited for the pins goes on (04 R171). -/
def execDescriptorComplete (q : Nat) (e : Env) (s : State) : Host.Outcome State Fault Refusal :=
  .next (revsAdvance (headDone q (applyEnv e s)))

end Sys2Proof.Machine
end

