-- ==== Sys2Proof/Machine/Mirror.lean ====
section
/-! DEFINITION. Mirrored regions at both ends, and the renewal of anchors (04_pool_memory R153 to R159, R162; 06_pool_verbs R237;
02_startup_and_loss R80, R81). -/

namespace Sys2Proof.Machine

/-- The shadow region of a primary's region (04 R153). -/
def shadowRegion (s : State) (node i : Nat) : Option Region :=
  s.pool.regions.find? fun g => g.isShadow && g.bound && g.shadowNode == node && g.otherIdx == i

/-- A heartbeat of a mirror partner has been seen now, or its mirror has just been bound (04 R157). -/
def sawMirror (node : Nat) (s : State) : State :=
  setPool (fun p => { p with mirrorSeen := setAssoc node s.now p.mirrorSeen }) s

/-- MIRROR_BIND with SUBOP 0: the shadow region (04 R153). -/
def bindRegion (pick : Nat) (w : Waiting) (s : State) : State :=
  let r := w.req
  let p : RegParams := { mode := .mirrored, size := clampTo 1 (maxUnits s) (bits (op1 r) 19 0), ilv := min 2 (bits (op1 r) 21 20) }
  match newRegion (reqTid r) pick p s with
  | (s, none) => replySt w .refused s
  | (s, some g) =>
    let s := modRegion g.idx (fun g => { g with
      st := .shadow, isShadow := true, bound := true, shadowNode := r.src, otherIdx := op0 r % 65536 }) s
    reply w { mkResp s r .ok with obj := BitVec.ofNat 32 g.idx } (sawMirror r.src s)

/-- MIRROR_BIND with SUBOP 1: a window of the shadow (04 R154). -/
def bindWindow (pick : Nat) (w : Waiting) (s : State) : State :=
  let r := w.req
  match shadowRegion s r.src (op0 r % 65536) with
  | none => replySt w .noMapping s
  | some g =>
    match newWindow (reqTid r) pick (reqVa r) (bits (op1 r) 19 0) (bits (op1 r) 51 32) g s with
    | (s, .ok, x) => reply w { mkResp s r .ok with obj := BitVec.ofNat 32 (handleOf x) } s
    | (s, st, _) => replySt w st s

/-- MIRROR_BIND with SUBOP 2: a grant on a window of the shadow (04 R154). -/
def bindGrant (w : Waiting) (s : State) : State :=
  let r := w.req
  match shadowRegion s r.src (op0 r % 65536), windowOf s (reqVa r / 2 ^ 32 % 2 ^ 24) with
  | some g, some x =>
    if x.region ≠ g.idx then replySt w .noMapping s
    else
      let y : Grant := { tid := bits (reqVa r) 11 0, first := bits (op1 r) 19 0, nodes := clampTo 1 1048576 (bits (op1 r) 52 32)
                         rights := BitVec.ofNat 3 (bits (reqVa r) 18 16) }
      match addGrant x g y s with
      | (s, st, _) => replySt w st s
  | _, _ => replySt w .noMapping s

/-- MIRROR_BIND (04 R153, R154). -/
def mirrorBind (pick : Nat) (w : Waiting) (s : State) : State :=
  if w.req.subop = 1 then bindWindow pick w s
  else if w.req.subop = 2 then bindGrant w s
  else bindRegion pick w s

/-- MIRROR_BIND. -/
def execMirrorBind (r : Req) (e : Env) (s : State) : Host.Outcome State Fault Refusal :=
  .next (runVerb { r with opcode := 0x90 } e (mirrorBind e.pick) s)

/-- MIRROR_WRITE (04 R155): the peer commits the bytes. -/
def mirrorWrite (w : Waiting) (s : State) : State :=
  let r := w.req
  let len := min (reqLen r) (64 * reqSlots r)
  match shadowRegion s r.src (op0 r % 65536) with
  | none => replySt w .noMapping s
  | some g =>
    if g.st ≠ .shadow || g.size * unit2M < reqVa r + len then replySt w .noMapping s
    else
      let (s, st, _) := storePieces w.ord g r.payload (partsOf g (reqVa r) len) s
      replySt w st s

/-- MIRROR_WRITE. -/
def execMirrorWrite (r : Req) (e : Env) (s : State) : Host.Outcome State Fault Refusal :=
  .next (runVerb { r with opcode := 0x91 } e mirrorWrite s)

/-- Regions whose mirror binding stands (04 R153). -/
def boundRegions (s : State) : List Region := s.pool.regions.filter fun g => g.mode == .mirrored && g.bound

/-- The primary's region index of a bound region (06 R237). -/
def primaryIdx (g : Region) : Nat := if g.isShadow then g.otherIdx else g.idx

/-- One mirror heartbeat to a partner (04 R157; 02 R80). -/
def sendMirrorHb (leaving : Bool) (node : Nat) (s : State) : State :=
  match (boundRegions s).find? fun g => g.shadowNode = node with
  | none => s
  | some g => setPool (fun p => { p with mirrorSent := setAssoc node s.now p.mirrorSent })
      (mirrorMsg node 0x92 g.owner 0 (if leaving then 32 else 0) (primaryIdx g) 0 0 0 [] s)

/-- The last heartbeat to a partner is 1 ms old, or there was none (04 R157). -/
def hbDue (s : State) (n : Nat) : Bool :=
  match assoc n s.pool.mirrorSent with
  | some t => decide (t + 1000000 ≤ s.now)
  | none => true

/-- MIRROR_HB_SEND: every 1 ms to each bound partner (04 R157). -/
def execMirrorHbSend (e : Env) (s : State) : Host.Outcome State Fault Refusal :=
  let s := applyEnv e s
  .next ((((boundRegions s).map Region.shadowNode).eraseDups.filter (hbDue s)).foldl
    (fun s n => sendMirrorHb (s.boot.st = .leaving) n s) s)

/-- Open a shadow: a DEGRADED region, and MIRROR_TAKEOVER to every covered node (04 R157). -/
def openShadow (g : Region) (s : State) : State :=
  let s := modRegion g.idx (fun g => { g with st := .degraded, bound := false }) s
  fanOut (regionGrants s g.idx) 0x07 .ok g.owner g.idx g.shadowNode 0 0 (cairnAt 0x06 3 g.idx 0 0 0x40 g.owner .ok s)

/-- Shadows of a partner that have not been opened. -/
def shadowsOf (s : State) (node : Nat) : List Region :=
  s.pool.regions.filter fun g => g.isShadow && g.bound && g.st == .shadow && g.shadowNode == node

/-- MIRROR_HB: a heartbeat of a partner; LEAVING takes over at once (04 R157; 02 R81). -/
def mirrorHb (w : Waiting) (s : State) : State :=
  let r := w.req
  let s := sawMirror r.src s
  let s := if r.flags.getLsbD 5 then (shadowsOf s r.src).foldl (fun s g => openShadow g s) s else s
  replySt w .ok s

/-- MIRROR_HB. -/
def execMirrorHb (r : Req) (e : Env) (s : State) : Host.Outcome State Fault Refusal :=
  .next (runVerb { r with opcode := 0x92 } e mirrorHb s)

/-- No heartbeat of a partner has come for a time. -/
def mirrorSilent (s : State) (node ns : Nat) : Bool :=
  match assoc node s.pool.mirrorSeen with
  | some t => decide (t + ns ≤ s.now)
  | none => false

/-- MIRROR_FENCE: the primary has missed 2 heartbeats (04 R157). -/
def execMirrorFence (i : Nat) (e : Env) (s : State) : Host.Outcome State Fault Refusal :=
  let s := applyEnv e s
  .next (match regionAt s i with
    | some g => if mirrorLive g && mirrorSilent s g.shadowNode 2000000 then
        fenceRegion i (undefAll (fun w => waitsMirror w && inRegion s i w) s) else s
    | none => s)

/-- SHADOW_OPEN: the peer has missed 3 heartbeats (04 R157). -/
def execShadowOpen (i : Nat) (e : Env) (s : State) : Host.Outcome State Fault Refusal :=
  let s := applyEnv e s
  .next (match regionAt s i with
    | some g => if g.isShadow && g.bound && g.st = .shadow && mirrorSilent s g.shadowNode 3000000 then openShadow g s else s
    | none => s)

/-- HANDOFF: the peer opens the shadow at once (04 R159). -/
def handoff (w : Waiting) (s : State) : State :=
  match shadowRegion s w.req.src (op0 w.req % 65536) with
  | none => replySt w .noMapping s
  | some g => replySt w .ok (if g.st = .shadow then openShadow g s else s)

/-- HANDOFF. -/
def execHandoff (r : Req) (e : Env) (s : State) : Host.Outcome State Fault Refusal :=
  .next (runVerb { r with opcode := 0x93 } e handoff s)

/-- A write that only waits for the mirror peer completes as committed at the primary (04 R159). -/
def mirrorGiveUp (i : Nat) (s : State) : State :=
  (s.vrb.waiting.filter fun w => waitsMirror w && inRegion s i w).foldl (fun s w =>
    match w.why with
    | .mirror _ p => finishMem w p (setVrb (fun v => { v with waiting := eraseFirst (fun x => x == w) v.waiting }) s)
    | _ => s) s

/-- MIRROR_BREAK: the primary's region becomes DEGRADED without fencing (04 R159). -/
def mirrorBreak (w : Waiting) (s : State) : State :=
  let i := op0 w.req % 65536
  match regionAt s i with
  | none => replySt w .noMapping s
  | some g =>
    if g.mode = .mirrored && g.bound && !g.isShadow && g.shadowNode = w.req.src && g.st = .active then
      replySt w .ok (mirrorGiveUp i (modRegion i (fun g => { g with st := .degraded, bound := false }) s))
    else replySt w .noMapping s

/-- MIRROR_BREAK. -/
def execMirrorBreak (r : Req) (e : Env) (s : State) : Host.Outcome State Fault Refusal :=
  .next (runVerb { r with opcode := 0x94 } e mirrorBreak s)

/-! Renewal of anchors (04 R162) -/

/-- ANCHOR_RENEW messages to a lender, of at most 1,024 anchors each (06 R237). -/
def renewTo (node : Nat) : Nat → List Nat → State → State
  | 0, _, s => s
  | n + 1, l, s =>
    if l.isEmpty then s
    else
      let (s, tag) := freshTag s
      let k := l.take 1024
      let b := (k.map fun x => le 2 x).flatten
      renewTo node n (l.drop 1024) (sendMsg node false { tc := 0, body := .req {
        tc := 0, opcode := 0x8A, len := BitVec.ofNat 16 b.length, tag := BitVec.ofNat 32 tag,
        op0 := w64 k.length, payload := b } } s)

/-- Anchors that the module holds: not lost and not given back. -/
def heldAnchors (s : State) : List Anchor := s.pool.anchors.filter fun a => a.st ≠ .lost && !anchorGone s a

/-- Renew the anchors held of each lender (04 R162). -/
def renewAnchors (s : State) : State :=
  let as := heldAnchors s
  (as.map Anchor.lender).eraseDups.foldl (fun s n =>
    renewTo n 17 ((as.filter fun a => a.lender = n).map Anchor.rwin) s)
    (setPool (fun p => { p with lastRenew := s.now }) s)

/-- ANCHOR_RENEW: every LEASE_MS / 4, to each lender (04 R162). -/
def execAnchorRenew (t : Nat) (s : State) : Host.Outcome State Fault Refusal :=
  let s := atTime t s
  .next (if s.pool.lastRenew + leaseNs s / 4 ≤ s.now then renewAnchors s else s)

end Sys2Proof.Machine
end

