-- ==== Sys2Proof/Machine/Stacks.lean ====
section
/-! DEFINITION. Retirement and failure of stacks (04_pool_memory R177 to R179, R181; 05_coherence R215; 07 R306; 09 R359;
13 R528; 01_architecture R19). -/

namespace Sys2Proof.Machine

/-- An extent that a retirement of stack k must give a run elsewhere: one on it, or one that is moving to it. -/
def mustMove (k : Nat) (x : Extent) : Bool :=
  x.anchor.isNone && !x.lost && (x.stack == k || (x.migrating && x.newStack == k))

/-- A run of n units on a stack in service other than k: the stack with the most free units first (log entry 26). -/
def otherRun (s : State) (coh : Bool) (k n : Nat) : Option (Nat × Nat) :=
  (byFree s coh ((maskStacks s 0).filter fun j => j ≠ k)).findSome? fun j => (firstFit s coh j n).map fun b => (j, b)

/-- Reserve a run for each extent of a list of (region, extent number) (04 R177; 05 R215). -/
def reserveRuns (k : Nat) : List (Nat × Nat) → State → Option State
  | [], s => some s
  | (g, e) :: l, s =>
    match (regionAt s g).bind fun x => (x.exts[e]?).map fun y => (x, y) with
    | none => some s
    | some (x, y) =>
      match otherRun s (x.mode = .coherent) k y.len with
      | none => none
      | some (j, b) =>
        reserveRuns k l (modRegion g (fun x => { x with
          exts := x.exts.set e { y with migrating := true, newStack := j, newBase := b, copyPtr := 0 } }) s)

/-- Move the shadow units of a stack elsewhere (log entry 26). -/
def moveShadows (k : Nat) : List Shadow → State → Option State
  | [], s => some s
  | u :: l, s =>
    match otherRun s false k 1 with
    | none => none
    | some (j, b) =>
      let s := copyDram (u.stack * 2 ^ 36 + u.base * unit2M) (j * 2 ^ 36 + b * unit2M) unit2M s
      moveShadows k l (zeroDram (u.stack * 2 ^ 36 + u.base * unit2M) unit2M
        (setPool (fun p => { p with shadows := mapIf (fun x => x == u) (fun x => { x with stack := j, base := b }) p.shadows }) s))

/-- The extents that a retirement of a stack must move. -/
def movers (s : State) (k : Nat) : List (Nat × Nat) :=
  (s.pool.regions.map fun g => ((List.range g.exts.length).filter fun e =>
    match g.exts[e]? with | some x => mustMove k x | none => false).map fun e => (g.idx, e)).flatten

/-- A draining stack with no extent left is retired, and its engines leave service (04 R178; 07 R306). -/
def retireDone (k : Nat) (s : State) : State :=
  if (stackAt s k).st = .draining && !(s.pool.regions.any fun g => g.exts.any fun x =>
      x.anchor.isNone && !x.lost && x.stack == k) then
    enginesLeave k (modStack k (fun x => { x with st := .retired }) s)
  else s

/-- A stack holds a tile run or a page frame (09 R359). -/
def holdsObject (s : State) (k : Nat) : Bool :=
  (s.ws.sets.any fun x => x.runs.any fun r => r.1 = k) || (s.kv.objs.any fun o => o.pages.any fun p => p.frame.stack = k)

/-- An engine of a stack is reserved by a loaded plan (07 R306). -/
def planOnStack (s : State) (k : Nat) : Bool := s.fe.plans.any fun p => p.engs.any fun n => n / 64 = k

/-- STACK_RETIRE (04 R177; 07 R306 and 09 R359 check first). -/
def stackRetire (sess k : Nat) (s : State) : State :=
  if planOnStack s k || holdsObject s k then mgmtReply sess .busy [] s
  else if !inService s k then mgmtReply sess .noMapping [] s
  else
    match (reserveRuns k (movers s k) s).bind fun s' =>
      moveShadows k (s.pool.shadows.filter fun u => u.stack = k) s' with
    | none => mgmtReply sess .refused [] s
    | some s' => retireDone k (mgmtReply sess .ok [] (modStack k (fun x => { x with st := .draining }) s'))

/-- STACK_RETIRE. -/
def execStackRetire (sess : Nat) (stk : Fin 32) (e : Env) (s : State) : Host.Outcome State Fault Refusal :=
  .next (withSess sess e.t .operator (stackRetire sess stk) (applyEnv e s))

/-- Every line of an extent is stable (05 R215). -/
def extentStable (s : State) (g : Region) (e : Nat) : Bool :=
  !(s.coh.dir.any fun d => d.region = g.idx && dirWaiting d
    && (match selectExt g (d.line * 128) with | some (i, _, _) => i == e | none => false))

/-- EXTENT_MIGRATION_DONE: the copy completes, the extent switches, and the source run is overwritten (04 R178). -/
def migrationDone (gi e : Nat) (s : State) : State :=
  match (regionAt s gi).bind fun g => (g.exts[e]?).map fun x => (g, x) with
  | none => s
  | some (g, x) =>
    if !x.migrating || !extentStable s g e then s
    else
      let src := x.stack * 2 ^ 36 + x.base * unit2M
      let done := x.copyPtr * 2 ^ 20
      let s := copyDram (src + done) (x.newStack * 2 ^ 36 + x.newBase * unit2M + done) (x.len * unit2M - done) s
      match (regionAt s gi).bind fun g => g.exts[e]? with
      | none => s
      | some y =>
        if !y.migrating then s
        else
          let s := modRegion gi (fun g => { g with exts := g.exts.set e { y with
            stack := y.newStack, base := y.newBase, migrating := false, copyPtr := 0 } }) s
          let s := zeroDram src (x.len * unit2M) s
          retireDone x.stack (modStack x.stack (fun k => { k with migrated := (k.migrated + 1) % 2 ^ 18 }) s)

/-- EXTENT_MIGRATION_DONE. -/
def execExtentMigrationDone (gi e : Nat) (v : Env) (s : State) : Host.Outcome State Fault Refusal :=
  .next (migrationDone gi e (applyEnv v s))

/-- STACK_FAIL: a stack fails at run time; the row of 13 R528 that is the cause comes with the event (13 R528; 04 R179,
R181). -/
def execStackFail (stk : Fin 32) (e : Env) (s : State) : Host.Outcome State Fault Refusal :=
  .next (stackFail stk (clampTo 1 5 e.pick) (applyEnv e s))

/-- DIE_TO_DIE_MODULE_OUT: a module of a stack's link leaves service; the last one takes the stack with it (01 R19;
13 R528). -/
def dieModuleOut (k m : Nat) (s : State) : State :=
  if (stackAt s k).d2d.getLsbD m && (stackAt s k).fitted then
    let s := modStack k (fun x => { x with d2d := x.d2d &&& ~~~ (1#4 <<< m) }) s
    let s := cairnAt 0x0B 2 k 1 0 (0x50 + k) 0xFFFF .ok s
    if (stackAt s k).d2d = 0 then stackFail k 1 s else s
  else s

/-- DIE_TO_DIE_MODULE_OUT. -/
def execDieToDieModuleOut (stk : Fin 32) (m : Fin 4) (e : Env) (s : State) : Host.Outcome State Fault Refusal :=
  .next (dieModuleOut stk m (applyEnv e s))

end Sys2Proof.Machine
end

