-- ==== Sys2Proof/Machine/Coherence.lean ====
section
/-! DEFINITION. The commands of shared regions: attachment, leases, writebacks and acknowledgements, lost lines (05_coherence R188
to R210, R217; 06_pool_verbs R231, R232, R236). -/

namespace Sys2Proof.Machine

/-- The window and region of a coherence verb that names no address: steps 1 and 2 of 04 R135. -/
def cohWin (s : State) (w : Waiting) : Access := windowAccess s w.ord (reqWin w.req) (reqTid w.req)

/-- Everything that waited for a line or a slot goes on. -/
def cohSettled (s : State) : State := revsAdvance (retryCoh s)

/-- The answer with a lease length (06 R236). -/
def leaseResp (s : State) (r : Req) (slot : Nat) : Resp :=
  { mkResp s r .ok with r0 := w64 slot, r1 := w64 (s.img.leaseMs * 1000) }

/-- COH_ATTACH (05 R188, R189). -/
def cohAttach (pick : Nat) (w : Waiting) (s : State) : State :=
  let r := w.req
  match cohWin s w with
  | .bad st => replySt w st s
  | .ok x g _ =>
    if !((grantsFor x w.ord).any (grantFits (reqTid r) r.src rightR)) || g.mode ≠ .coherent then replySt w .denied s
    else match slotOf g r.src with
      | some y => reply w (leaseResp s r y.k) s
      | none => match findFree (fun k => (slotAt g k).isNone) 64 pick with
        | none => replySt w .refused s
        | some k =>
          let y : Slot := { k := k, node := r.src, deadline := w.since + leaseNs s, win := handleOf x }
          reply w (leaseResp s r k) (modRegion g.idx (fun g => { g with slots := g.slots ++ [y] }) s)

/-- COH_ATTACH. -/
def execCohAttach (r : Req) (e : Env) (s : State) : Host.Outcome State Fault Refusal :=
  .next (runVerb { r with opcode := 0x28 } e (cohAttach e.pick) s)

/-- A slot owns a line in M or WAIT_RCL (05 R204). -/
def slotOwes (s : State) (g k : Nat) : Bool :=
  s.coh.dir.any fun d => d.region = g && d.owner = k && (d.st = .modified || d.st = .waitRcl)

/-- COH_DETACH (05 R204). -/
def cohDetach (w : Waiting) (s : State) : State :=
  let r := w.req
  match cohWin s w with
  | .bad st => replySt w st s
  | .ok _ g _ => match slotOf g r.src with
    | none => replySt w .ok s
    | some y =>
      if slotOwes s g.idx y.k then replySt w .busy s
      else cohSettled (replySt w .ok (freeSlot g.idx y.k (dropSlotLines g.idx y.k false s)))

/-- COH_DETACH. -/
def execCohDetach (r : Req) (e : Env) (s : State) : Host.Outcome State Fault Refusal :=
  .next (runVerb { r with opcode := 0x29 } e cohDetach s)

/-- COH_RENEW (05 R201). -/
def cohRenew (w : Waiting) (s : State) : State :=
  let r := w.req
  match cohWin s w with
  | .bad st => replySt w st s
  | .ok _ g _ => match slotOf g r.src with
    | none => replySt w .denied s
    | some _ => reply w (leaseResp s r 0) s

/-- COH_RENEW. -/
def execCohRenew (r : Req) (e : Env) (s : State) : Host.Outcome State Fault Refusal :=
  .next (runVerb { r with opcode := 0x2A } e cohRenew s)

/-- In step 4 of the revocation of a window a WRITEBACK of a slot that loses its access is taken as from an attached slot
(05 R217). -/
def losingSlot (s : State) (x : Window) (g : Region) (node : Nat) : Bool :=
  s.pool.revs.any fun v => v.kind = 1 && v.id = handleOf x && v.phase = .copies
    && (match slotOf g node with | some y => v.slots.contains (g.idx, y.k) | none => false)

/-- The checks of a WRITEBACK: steps 1 to 3 of 04 R135; the rights are those of an attached slot (05 R199, R217). -/
def writebackAccess (s : State) (w : Waiting) : Access :=
  let r := w.req
  let late := match windowOf s (reqWin r) with
    | some x => match regionAt s x.region with
      | some g => decide (g.st ≠ .revoking) && losingSlot s x g r.src
      | none => false
    | none => false
  match windowAccess s (if late = true then 0 else w.ord) (reqWin r) (reqTid r) with
  | .bad st => .bad st
  | .ok x g _ =>
    if reqVa r < x.vaBase * unit2M || (x.vaBase + x.len) * unit2M < reqVa r + 128 then .bad .noMapping
    else .ok x g (reqVa r - x.vaBase * unit2M + x.regOfs * unit2M)

/-- Write the data of a line that comes back (05 R196, R199). -/
def lineBack (g : Region) (line : Nat) (d : List Byte) (s : State) : State × Status :=
  match partsOf g (line * 128) 128 with
  | p :: _ =>
    let st := partStatus s 0 g.owner p
    if st ≠ .ok then (s, st)
    else
      let (s, st, _) := writePiece g p (slice d 0 128) s
      (s, st)
  | [] => (s, .noMapping)

/-- A WRITEBACK to a line of a coherent region; one to a line of a LOST extent is POISONED (05 R196, R199, R216). -/
def cohWriteback (w : Waiting) (g : Region) (line : Nat) (s : State) : State :=
  let d := dirAt (dirLookup g.idx line s) g.idx line
  match slotOf g w.req.src with
  | none => replySt w .denied s
  | some y =>
    let lost := partsStatus s 0 g.owner (partsOf g (line * 128) 128)
    if lost ≠ .ok then replySt w lost s
    else if d.owner ≠ y.k || !(d.st = .excl || d.st = .modified || d.st = .waitRcl) then replySt w .denied s
    else
      let (s, st) := lineBack g line w.req.payload s
      if st ≠ .ok then replySt w st s
      else
        let back := fun (m : CohMsg) => m.kind == 1 && m.region == g.idx && m.line == line && m.slot == y.k
        let s := setCoh (fun c => { c with msgs := mapIf back (fun m => { m with done := true }) c.msgs }) s
        let s := setDir (if d.st = .waitRcl then recallEnd d else { d with st := .inv }) s
        cohSettled (replySt w .ok s)

/-- WRITEBACK (05 R199, R217; 06 R231, R232). -/
def writeback (w : Waiting) (s : State) : State :=
  let r := w.req
  if reqVa r % 128 ≠ 0 || reqSlots r < 2 then replySt w .denied s
  else match writebackAccess s w with
    | .bad st => replySt w st s
    | .ok _ g o =>
      match g.mode with
      | .coherent => cohWriteback w g (o / 128) s
      | .priv => storeRun w s
      | _ => replySt w .denied s

/-- WRITEBACK. -/
def execWriteback (r : Req) (e : Env) (s : State) : Host.Outcome State Fault Refusal :=
  .next (runVerb { r with opcode := 0x2B } e writeback s)

/-- The message of a kind that an acknowledgement answers; it is taken off the list (05 R196; 06 R236). -/
def takeMsg (kind : Nat) (r : Req) (s : State) : State × Option CohMsg :=
  match s.coh.msgs.find? fun m => m.kind = kind && m.tag = r.tag.toNat && m.node = r.src with
  | none => (s, none)
  | some m => (setCoh (fun c => { c with msgs := eraseFirst (fun x => x == m) c.msgs }) s, some m)

/-- INVAL_ACK (05 R196). -/
def invalAck (w : Waiting) (s : State) : State :=
  match takeMsg 0 w.req s with
  | (s, none) => s
  | (s, some m) =>
    let d := dirAt s m.region m.line
    let s := if d.st = .waitInv then
        setDir (settle { d with pend := d.pend - 1, sharers := d.sharers &&& ~~~ (1#64 <<< m.slot) }) s
      else s
    cohSettled s

/-- INVAL_ACK. -/
def execInvalAck (r : Req) (e : Env) (s : State) : Host.Outcome State Fault Refusal :=
  .next (runVerb { r with opcode := 0x2C } e invalAck s)

/-- The recall that a RECALL_ACK ends, when it still stands. -/
def takeRecall (r : Req) (f : CohMsg → DirEnt → State → State) (s : State) : State :=
  match takeMsg 1 r s with
  | (s, none) => s
  | (s, some m) =>
    let d := dirAt s m.region m.line
    if !m.done && d.st = .waitRcl && d.owner = m.slot then cohSettled (f m d s) else s

/-- RECALL_ACK NODATA (05 R196). -/
def execRecallAckNodata (r : Req) (e : Env) (s : State) : Host.Outcome State Fault Refusal :=
  let sub := if r.subop = 1 || r.subop = 2 then 0 else r.subop
  .next (runVerb { r with opcode := 0x2D, subop := sub } e (fun w s =>
    takeRecall w.req (fun _ d s => setDir (recallEnd d) s) s) s)

/-- RECALL_ACK DATA (05 R196). -/
def recallData (w : Waiting) (s : State) : State :=
  takeRecall w.req (fun m d s =>
    match regionAt s m.region with
    | none => s
    | some g =>
      let s := if 2 ≤ reqSlots w.req then (lineBack g m.line w.req.payload s).1 else s
      setDir (recallEnd d) s) s

/-- RECALL_ACK DATA. -/
def execRecallAckData (r : Req) (e : Env) (s : State) : Host.Outcome State Fault Refusal :=
  .next (runVerb { r with opcode := 0x2D, subop := 1 } e recallData s)

/-- RECALL_ACK WB_SENT (05 R196). -/
def execRecallAckWbSent (r : Req) (e : Env) (s : State) : Host.Outcome State Fault Refusal :=
  .next (runVerb { r with opcode := 0x2D, subop := 2 } e (fun w s =>
    takeRecall w.req (fun _ d s => setDir { d with wbWait := true } s) s) s)

/-- COH_REVOKE_ACK (05 R217). -/
def cohRevokeAck (w : Waiting) (s : State) : State :=
  match takeMsg 2 w.req s with
  | (s, none) => s
  | (s, some m) =>
    revsAdvance (setPool (fun p => { p with revs := p.revs.map fun v =>
      if v.kind = 1 then v else { v with slots := v.slots.filter fun x => x ≠ (m.region, m.slot) } }) s)

/-- COH_REVOKE_ACK. -/
def execCohRevokeAck (r : Req) (e : Env) (s : State) : Host.Outcome State Fault Refusal :=
  .next (runVerb { r with opcode := 0x2E } e cohRevokeAck s)

/-! Lost lines (05 R207 to R209) -/

/-- Lost lines of a region from one line up to another, ascending. -/
def lostLines (s : State) (g lo hi : Nat) : List Nat :=
  sortBy (fun a b => a ≤ b) ((s.coh.dir.filter fun d =>
    d.region = g && d.st = .lostModified && decide (lo ≤ d.line) && decide (d.line < hi)).map DirEnt.line)

/-- COH_DECLARE_LOST (05 R207, R208). -/
def declareLost (zero : Bool) (w : Waiting) (s : State) : State :=
  let r := w.req
  match cohWin s w with
  | .bad st => replySt w st s
  | .ok x g _ =>
    let lo := reqVa r / 128 * 128
    let hi := ceilDiv (reqVa r + clampTo 1 (2 ^ 40) (op0 r)) 128 * 128
    if x.owner ≠ reqTid r then replySt w .noMapping s
    else if lo < x.vaBase * unit2M || (x.vaBase + x.len) * unit2M < hi then replySt w .noMapping s
    else
      let o := fun va => (va - x.vaBase * unit2M + x.regOfs * unit2M) / 128
      let s := (lostLines s g.idx (o lo) (o hi)).foldl (fun s l =>
        let s := if zero then (lineBack g l (List.replicate 128 0) s).1 else s
        setDir { dirAt s g.idx l with st := .inv } s) s
      cohSettled (replySt w .ok s)

/-- COH_DECLARE_LOST with VALUE ZERO; the reserved codes stand for it. -/
def execCohDeclareLostZero (r : Req) (e : Env) (s : State) : Host.Outcome State Fault Refusal :=
  .next (runVerb { r with opcode := 0x2F, subop := if r.subop = 1 then 0 else r.subop } e (declareLost true) s)

/-- COH_DECLARE_LOST with VALUE STALE. -/
def execCohDeclareLostStale (r : Req) (e : Env) (s : State) : Host.Outcome State Fault Refusal :=
  .next (runVerb { r with opcode := 0x2F, subop := 1 } e (declareLost false) s)

/-- COH_LM_QUERY (05 R209). -/
def lmQuery (w : Waiting) (s : State) : State :=
  let r := w.req
  match checkAccess s w.ord (reqWin r) (reqTid r) r.src (reqVa r) 1 rightR with
  | .bad st => replySt w st s
  | .ok x g o =>
    let all := lostLines s g.idx (ceilDiv o 128) ((x.regOfs + x.len) * unit2M / 128)
    let vas := (all.take 256).map fun l => l * 128 + x.vaBase * unit2M - x.regOfs * unit2M
    let resume := if 256 < all.length then (vas.getLast?).getD 0 + 128 else (x.vaBase + x.len) * unit2M
    reply w { mkResp s r .ok with
      r0 := w64 vas.length, r1 := w64 resume, payload := (vas.map fun v => le 8 v).flatten } s

/-- COH_LM_QUERY. -/
def execCohLmQuery (r : Req) (e : Env) (s : State) : Host.Outcome State Fault Refusal :=
  .next (runVerb { r with opcode := 0x30 } e lmQuery s)

/-! Leases (05 R202 to R206) -/

/-- The deadline of a slot's lease has passed (05 R202). -/
def leaseOver (s : State) (x : Slot) : Bool := decide (x.deadline ≤ s.now)

/-- The live slots of a node: region and slot number. -/
def nodeSlots (s : State) (node : Nat) : List (Nat × Nat) :=
  (s.pool.regions.map fun g => (g.slots.filter fun x => x.node = node && !x.dead).map fun x => (g.idx, x.k)).flatten

/-- Every lease of a node ends at once: it is lost, or it has restarted (05 R202). -/
def leasesLost (node : Nat) (s : State) : State :=
  cohSettled ((nodeSlots s node).foldl (fun s x => leaseEnd x.1 x.2 s) s)

/-- LEASE_EXPIRY (05 R202, R205). -/
def leaseExpiry (g k : Nat) (s : State) : State :=
  match (regionAt s g).bind fun x => slotAt x k with
  | none => s
  | some x => if !x.dead && leaseOver s x then cohSettled (leaseEnd g k s) else s

/-- LEASE_EXPIRY. -/
def execLeaseExpiry (g k : Nat) (e : Env) (s : State) : Host.Outcome State Fault Refusal :=
  .next (leaseExpiry g k (applyEnv e s))

/-- COH_SWEEP_DONE (05 R205, R206). -/
def sweepDone (g k : Nat) (s : State) : State :=
  match (regionAt s g).bind fun y => (slotAt y k).map fun x => (y, x) with
  | none => s
  | some (y, x) =>
    if !x.dead then s
    else
      let s := freeSlot g k s
      if x.lmMade = 0 then s
      else fanOut (regionGrants s g) 0x04 .lostModified y.owner g k x.lmMade 0
        (cairnAt 0x06 1 g k 0 0x40 y.owner .lostModified s)

/-- COH_SWEEP_DONE. -/
def execCohSweepDone (g k : Nat) (e : Env) (s : State) : Host.Outcome State Fault Refusal :=
  .next (sweepDone g k (applyEnv e s))

end Sys2Proof.Machine
end

