-- ==== Sys2Proof/Machine/Attend.lean ====
section
/-! DEFINITION. The arithmetic of attention: EXP and LN within 1 ulp of the exact value, page partials, their merge tree, and
the result (09_weights_and_kv R384, R396, R397). -/

namespace Sys2Proof.Machine

/-! EXP and LN (R396): the two FP32 neighbours of the exact value are found in fixed point with 160 fraction bits; which one
is returned is free (log entry 15). -/

/-- Fraction bits of the fixed point. -/
def fixP : Nat := 160

/-- Sum of t z^2i / (2i + 1) in fixed point: the series of the inverse hyperbolic tangent. -/
def atanhSum (z2 : Nat) : Nat → Nat → Nat → Nat
  | 0, _, _ => 0
  | n + 1, i, t => t / (2 * i + 1) + atanhSum z2 n (i + 1) (t * z2 / 2 ^ fixP)

/-- 2 atanh z for z in [0, 1/2] in fixed point. -/
def atanh2 (z : Nat) : Nat := 2 * atanhSum (z * z / 2 ^ fixP) 110 0 z

/-- ln 2 in fixed point. -/
def fixLn2 : Nat := atanh2 (2 ^ fixP / 3)

/-- Sum of the Taylor series of the exponential in fixed point. -/
def expSum (r : Nat) : Nat → Nat → Nat → Nat
  | 0, _, _ => 0
  | n + 1, i, t => t + expSum r n (i + 1) (t * r / 2 ^ fixP / (i + 1))

/-- The exponential of a dyadic value of magnitude at most 2^8, as a dyadic value. -/
def dyExp (d : Dy) : Dy :=
  let x : Int := if 0 ≤ d.e + fixP then d.m * 2 ^ (d.e + fixP).toNat else d.m / 2 ^ (-(d.e + fixP)).toNat
  let n := x / (fixLn2 : Int)
  let r := (x % (fixLn2 : Int)).toNat
  { m := (expSum r 60 0 (2 ^ fixP) : Nat), e := n - fixP }

/-- The natural logarithm of a positive dyadic value, as a dyadic value. -/
def dyLn (d : Dy) : Dy :=
  let l := Nat.log2 d.m.natAbs
  let m := d.m.natAbs * 2 ^ fixP / 2 ^ l
  let one := 2 ^ fixP
  let z := (m - one) * one / (m + one)
  { m := (atanh2 z : Int) + ((l : Int) + d.e) * fixLn2, e := -(fixP : Int) }

/-- Round a positive magnitude down at p fraction bits: the code without sign. -/
def downMag (p : Nat) (lmin : Int) (a : Nat) (e : Int) : Nat :=
  if a = 0 then 0
  else
    let l := max ((Nat.log2 a : Int) + e - p) lmin
    let n := if l ≤ e then a * 2 ^ (e - l).toNat else a / 2 ^ (l - e).toNat
    (l - lmin).toNat * 2 ^ p + n

/-- One of the neighbours of an exact value, by a free number: the lower or the upper magnitude (R396). -/
def nearFp32 (pick : Nat) (d : Dy) : BitVec 32 :=
  f32Pack (decide (d.m < 0)) (downMag 23 (-149) d.m.natAbs d.e + pick % 2)

/-- EXP (R396). -/
def expF32 (x : BitVec 32) : BitVec 32 :=
  let k := Config.expPick x
  match f32Dec x with
  | .nan => f32Nan
  | .inf neg => if neg then 0 else 0x7F800000
  | .fin _ d =>
    if d.m = 0 then (if k % 3 = 0 then 0x3F800000 else if k % 3 = 1 then 0x3F7FFFFF else 0x3F800001)
    else if dyLt { m := 89 } d then 0x7F800000
    else if dyLt d { m := -200 } then BitVec.ofNat 32 (k % 2)
    else nearFp32 k (dyExp d)

/-- LN (R396). -/
def lnF32 (x : BitVec 32) : BitVec 32 :=
  let k := Config.lnPick x
  match f32Dec x with
  | .nan => f32Nan
  | .inf neg => if neg then f32Nan else 0x7F800000
  | .fin _ d =>
    if d.m = 0 then 0xFF800000
    else if d.m < 0 then f32Nan
    else if x = 0x3F800000 then (if k % 3 = 0 then 0 else if k % 3 = 1 then 1 else 0x80000001)
    else nearFp32 k (dyLn d)

/-! Vectors -/

/-- Bytes of one head vector (R384). -/
def headBytes (mx : Bool) (hd : Nat) : Nat := if mx then hd + hd / 32 else 2 * hd

/-- Tokens of a page (R384). -/
def pageTokens (mx : Bool) (hd : Nat) : Nat := 65536 / (2 * headBytes mx hd) / 16 * 16

/-- The dequantised elements of an activation vector, exact. -/
def actValues (a : ActVec) : List Fp :=
  ((List.range a.els.length).zip a.els).map fun x =>
    let sc := actScale a x.1
    if sc = 255 then .nan else fpScale ((sc : Int) - 127) x.2

/-- A head vector in a format (R319, R384). -/
def headVec (mx : Bool) (hd : Nat) (l : List Byte) : List Fp :=
  actValues (actSub (if mx then .e4m3 else .bf16) hd 0 hd l)

/-- 1 / sqrt(HEAD_DIM) in FP32 (R394). -/
def headScale (hd : Nat) : BitVec 32 := if hd = 64 then 0x3E000000 else 0x3DB504F3

/-! Partials (R396, R397) -/

/-- The partial of a page or of a part of the tree. -/
structure AttPart where
  /-- m. -/
  m : BitVec 32 := 0xFF800000
  /-- l. -/
  l : BitVec 32 := 0
  /-- o. -/
  o : List (BitVec 32) := []
deriving DecidableEq, Repr

/-- The greatest of FP32 values. -/
def f32MaxL (l : List (BitVec 32)) : BitVec 32 := l.foldl f32Max 0xFF800000

/-- The partial of a page over its attended tokens, each a K and a V vector (R396). -/
def attPage (hd : Nat) (scale : BitVec 32) (q : List Fp) (kv : List (List Fp × List Fp)) : AttPart :=
  let ss := kv.map fun x => f32Mul scale (fpRound (fpDot q x.1))
  let m := f32MaxL ss
  let es := ss.map fun s => expF32 (f32Sub s m)
  let o := (es.zip kv).foldl (fun o x =>
    List.zipWith (fun o v => f32Add o (fpRound (fpMul (f32Dec x.1) v))) o x.2.2) (List.replicate hd 0)
  { m := m, l := es.foldl f32Add 0, o := o }

/-- Merge two partials (R397). -/
def attMerge (a b : AttPart) : AttPart :=
  if a.l.toNat % 2 ^ 31 = 0 then b
  else if b.l.toNat % 2 ^ 31 = 0 then a
  else
    let m := f32Max a.m b.m
    let x := expF32 (f32Sub a.m m)
    let y := expF32 (f32Sub b.m m)
    { m := m, l := f32Add (f32Mul a.l x) (f32Mul b.l y),
      o := List.zipWith (fun p q => f32Add (f32Mul p x) (f32Mul q y)) a.o b.o }

/-- One level of the merge tree (R397). -/
def attLevel : List AttPart → List AttPart
  | a :: b :: l => attMerge a b :: attLevel l
  | l => l

/-- The merge tree; n bounds its levels (R397). -/
def attTree : Nat → List AttPart → AttPart
  | _, [] => {}
  | _, [a] => a
  | 0, a :: _ => a
  | n + 1, l => attTree n (attLevel l)

/-- The result of a head: its outputs and LSE, and whether an input was NaN or infinite (R397). -/
def attHead (hd : Nat) (scale : BitVec 32) (q : List Fp) (pages : List (List (List Fp × List Fp))) :
    List (BitVec 32) × BitVec 32 × Bool :=
  if q.any fpSpecial || pages.any fun p => p.any fun x => x.1.any fpSpecial || x.2.any fpSpecial then
    (List.replicate hd f32Nan, f32Nan, true)
  else if pages.all List.isEmpty then (List.replicate hd 0, 0xFF800000, false)
  else
    let t := attTree 32 (pages.map (attPage hd scale q))
    (t.o.map fun o => f32Div o t.l, f32Add t.m (lnF32 t.l), false)

end Sys2Proof.Machine
end

