-- ==== Sys2Proof/Machine/Fetch.lean ====
section
/-! DEFINITION. How a verb that names windows in a parameter record reads and writes them: checks, lenders' data, lines of
coherent regions, and undefined output (04_pool_memory R135, R163; 05_coherence R190 to R196; 06_pool_verbs R235;
09_weights_and_kv R376, R379). -/

namespace Sys2Proof.Machine

/-- A fetch of a range: it stops with a status, the verb goes on waiting, or the bytes are there. -/
inductive Fetched
  | stop (s : State) (st : Status)
  | wait (s : State)
  | ok (s : State) (d : List Byte)
deriving DecidableEq, Repr

/-- The verb goes on waiting for its command, with the lenders' data so far. -/
def againLater (w : Waiting) (s : State) : State := waitFor w .inbox s

/-- Read a range with right R for a verb; base keeps the places of several ranges apart. -/
def fetchRange (w : Waiting) (base h va len : Nat) (s : State) : Fetched :=
  let w := { w with lines := [] }
  match checkAccess s w.ord h (reqTid w.req) w.req.src va len rightR with
  | .bad st => .stop s st
  | .ok _ g o =>
    let st := partsStatus s w.ord g.owner (partsOf g o len)
    let x : Span := { g := g, o := o }
    if st ≠ .ok then .stop s st
    else
      let need := spanNeed s w.got base len x
      if need.isEmpty then
        match descGate w.ord len none [x] s with
        | (s, .wait) => .wait (againLater { w with lines := waitedLines len none [x] } s)
        | (s, .busy) => .stop s .busy
        | (s, .go) =>
          let (s, x) := spanWhole s w.got base len x
          match spanRead x 0 len s with
          | (s, .ok, d) => .ok s d
          | (s, st, _) => .stop s st
      else
        let (s, tags) := anchorRds g.owner base need s
        .wait (waitFor w (.anchorRd tags w.got) s)

/-- Earlier writes of a verb's source to a window that have not completed (09 R376). -/
def earlierTo (s : State) (w : Waiting) (h : Nat) : Bool :=
  s.vrb.waiting.any fun e => e.req.src = w.req.src && reqCtl e.req = reqCtl w.req && reqWin e.req = h && decide (e.ord < w.ord)
    && (e.op = 2 || e.op = 3 || e.op = 4)

/-- Write bytes at a region offset: the worst status and the TAGs sent. -/
def writeAt (g : Region) (o : Nat) (d : List Byte) (s : State) : State × Status × List Nat :=
  let ps := (partsOf g o d.length).map fun p => if g.mode = .coherent then cutAt 128 p else cutAt 2048 p
  storePieces 0 g d ps.flatten s

/-- Write several pieces of output, each at its offset in the range. -/
def writeOut (g : Region) (o : Nat) : List (Nat × List Byte) → State → State × Status × List Nat
  | [], s => (s, .ok, [])
  | (pos, d) :: l, s =>
    let (s, st, ts) := writeAt g (o + pos) d s
    let (s, st', ts') := writeOut g o l s
    (s, worse st st', ts ++ ts')

/-- A verb fails: where it has begun, its output becomes undefined (09 R379). -/
def replyFail (w : Waiting) (st : Status) (s : State) : State :=
  let (s, p) := failResp w st (undefOut w s)
  reply w p s

/-- Answer now, or when lenders and the mirror peer have acknowledged the writes (04 R155, R163). -/
def replyAfter (w : Waiting) (p : Resp) (tags : List Nat) (s : State) : State :=
  if tags.isEmpty then reply w p s else waitFor w (.mirror tags p) s

end Sys2Proof.Machine
end

