-- ==== Sys2Proof/Machine/Weights.lean ====
section
/-! DEFINITION. Object regions and their arenas, weight sets, and the verbs WS_LOAD, WS_GEMV and WS_RELEASE
(09_weights_and_kv R356 to R382; 08_narrow_arithmetic R320, R335 to R349). -/

namespace Sys2Proof.Machine

/-! Arenas (R358) -/

/-- Runs of a region's stack in use by tile runs and page frames, in rising order (R358). -/
def arenaUsed (s : State) (g k : Nat) : List (Nat × Nat) :=
  let a := ((s.ws.sets.filter fun x => x.region = g).map fun x =>
    (x.runs.filter fun r => r.1 = k).map fun r => (r.2.1, r.2.2)).flatten
  let b := ((s.kv.objs.filter fun x => x.region = g).map fun x =>
    (x.pages.filter fun p => p.frame.stack = k).map fun p => (p.frame.ofs, 65536)).flatten
  sortBy (fun x y => x.1 ≤ y.1) (a ++ b).eraseDups

/-- Gaps of an extent, from lo to hi, between used runs in rising order. -/
def extGaps (hi : Nat) : Nat → List (Nat × Nat) → List (Nat × Nat)
  | lo, [] => if lo < hi then [(lo, hi - lo)] else []
  | lo, (b, l) :: r =>
    if b + l ≤ lo then extGaps hi lo r
    else if hi ≤ b then (if lo < hi then [(lo, hi - lo)] else [])
    else (if lo < b then [(lo, b - lo)] else []) ++ extGaps hi (b + l) r

/-- Free runs of a region on a stack: stack offset and bytes, from the lowest offset (R358). -/
def arenaGaps (s : State) (g : Region) (k : Nat) : List (Nat × Nat) :=
  let xs := sortBy (fun a b => a.base ≤ b.base) (g.exts.filter fun x => x.anchor.isNone && x.stack == k && !x.lost)
  let used := arenaUsed s g.idx k
  (xs.map fun x => extGaps ((x.base + x.len) * unit2M) (x.base * unit2M) used).flatten

/-- Frames of a region's stack reserved by its KV objects and not drawn (R386). -/
def arenaResv (s : State) (g k : Nat) : Nat :=
  sumBy (fun x => assocD 0 k x.resv) (s.kv.objs.filter fun x => x.region = g)

/-- Frames of a region's stack that are neither in use nor reserved (R386). -/
def arenaFree (s : State) (g : Region) (k : Nat) : Nat :=
  sumBy (fun r => r.2 / 65536) (arenaGaps s g k) - arenaResv s g.idx k

/-- First fit of a run: its stack offset, or none with the bytes that could be had (R358). -/
def arenaFit (s : State) (g : Region) (k n : Nat) : Option Nat × Nat :=
  let gs := arenaGaps s g k
  let room := min (gs.foldl (fun m r => max m r.2) 0) (arenaFree s g k * 65536)
  if n ≤ arenaFree s g k * 65536 then ((gs.find? fun r => decide (n ≤ r.2)).map Prod.fst, room) else (none, room)

/-- The stack list of a new object (R358). -/
def stackList (s : State) (g : Region) (mask : Nat) : List Nat :=
  (maskStacks s mask).filter fun k => g.exts.any fun x => x.anchor.isNone && x.stack == k && !x.lost

/-- A set slot or object slot is free and has rested (R362). -/
def freeHandle (s : State) (tab size pick : Nat) (used : Nat → Bool) : Option Nat :=
  findFree (fun i => !used i && indexRested s tab i) size pick

/-- Answer with a status and RESULT1, RESULT2. -/
def reply12 (w : Waiting) (st : Status) (r1 r2 : Nat) (s : State) : State :=
  reply w { mkResp s w.req st with r1 := w64 r1, r2 := w64 r2 } s

/-! The bundle (R363 to R367) -/

/-- A directory entry with its offsets. -/
structure MatDir where
  /-- The matrix. -/
  m : Mat := {}
  /-- DATA_OFS. -/
  data : Nat := 0
  /-- RES_OFS. -/
  res : Nat := 0
deriving DecidableEq, Repr

/-- Row and column tiles of a matrix in tile order: row tile, column tile, rows, columns (R365). -/
def matTiles (m : Mat) : List (Nat × Nat × Nat × Nat) :=
  ((List.range (ceilDiv m.rows 128)).map fun r => (List.range (ceilDiv m.cols 1024)).map fun c =>
    (r, c, min 128 (m.rows - 128 * r), min 1024 (m.cols - 1024 * c))).flatten

/-- Bytes of a matrix's tile images in a format (R365, R366). -/
def matBytes (w : WFmt) (m : Mat) : Nat := sumBy (fun t => tileBytes w t.2.2.1 t.2.2.2) (matTiles m)

/-- What a bundle's header and directory say. -/
structure Bundle where
  /-- WFMT, effective. -/
  wfmt : Nat := 0
  /-- RESIDUAL. -/
  residual : Bool := false
  /-- Directory. -/
  dir : List MatDir := []
deriving DecidableEq, Repr

/-- The directory of a bundle. -/
def bundleDir (d : List Byte) : List MatDir :=
  (List.range (field d 0x0E 2)).map fun i =>
    let o := 0x80 + 32 * i
    { m := { rows := field d o 4, cols := field d (o + 4) 4, tolMax := clampTo 6 20 (field d (o + 8) 1) },
      data := field d (o + 0x10) 8, res := field d (o + 0x18) 8 }

/-- Two spans overlap. -/
def spanMeets (a b : Nat × Nat) : Bool := decide (a.1 < b.1 + b.2) && decide (b.1 < a.1 + a.2)

/-- No two spans of a list overlap. -/
def apart : List (Nat × Nat) → Bool
  | [] => true
  | x :: l => !(l.any (spanMeets x)) && apart l

/-- Parse a bundle's header and directory; none where R363, R364 or the layout of its tile images is violated (R369 reason 0x01). -/
def parseBundle (d : List Byte) : Option Bundle :=
  let n := field d 0x0E 2
  let len := field d 0x10 8
  let dir := bundleDir d
  let w := wfmtCode (field d 0x0C 1 % 16)
  let res := bit (field d 0x0D 1) 0
  let spans := (0, 0x80 + 32 * n) :: (dir.map fun x =>
    (x.data, matBytes (wfmtOf w) x.m) :: (if res then [(x.res, matBytes {} x.m)] else [])).flatten
  let ok := field d 0 8 = 0x3130544847494557 && field d 8 2 = 1 && field d 0x0A 2 = 0x80
    && decide (1 ≤ n) && decide (n ≤ 4096) && decide (0x1000 ≤ len) && decide (len ≤ 2 ^ 40) && len % 64 = 0
    && decide (0x80 + 32 * n ≤ len)
    && (dir.all fun x => decide (1 ≤ x.m.rows) && decide (x.m.rows ≤ 262144) && decide (64 ≤ x.m.cols)
      && decide (x.m.cols ≤ 262144) && x.data % 64 = 0 && (res || x.res = 0))
    && (spans.all fun x => decide (x.1 + x.2 ≤ len)) && apart spans
  if ok then some { wfmt := w, residual := res, dir := dir } else none

/-- The tile images of a bundle, matrix by matrix, main plane then residual: bundle offset and bytes (R365). -/
def bundleSpans (b : Bundle) : List (Nat × Nat) :=
  (b.dir.map fun x => (x.data, matBytes (wfmtOf b.wfmt) x.m) :: (if b.residual then [(x.res, matBytes {} x.m)] else [])).flatten

/-- The directory with the places of the images in their order, one after the other. -/
def packedDir (b : Bundle) : List MatDir :=
  (b.dir.foldl (fun (a : List MatDir × Nat) x =>
    let n := matBytes (wfmtOf b.wfmt) x.m
    let m := if b.residual then matBytes {} x.m else 0
    (a.1 ++ [{ x with data := a.2, res := a.2 + n }], a.2 + n + m)) ([], 0)).1

/-- A tile with the places of its images among those read. -/
structure TilePlan where
  /-- The tile; its offsets within its stack's run. -/
  t : Tile := {}
  /-- Place of the main image. -/
  src : Nat := 0
  /-- Place of the residual image. -/
  resSrc : Nat := 0
deriving DecidableEq, Repr

/-- The tiles of a matrix, from a place of each plane on; g0 numbers its first row tile (R365, R370). -/
def planMat (w : WFmt) (mat g0 : Nat) (ks : List Nat) (x : MatDir) : List TilePlan :=
  ((matTiles x.m).foldl (fun (a : List TilePlan × Nat × Nat) t =>
    let n := tileBytes w t.2.2.1 t.2.2.2
    let m := tileBytes {} t.2.2.1 t.2.2.2
    (a.1 ++ [{ t := { mat := mat, g := g0 + t.1, rowT := t.1, colT := t.2.1, rows := t.2.2.1, cols := t.2.2.2,
                      stack := nth 0 ks ((g0 + t.1) % max 1 ks.length) }, src := a.2.1, resSrc := a.2.2 }],
      a.2.1 + n, a.2.2 + m)) ([], x.data, x.res)).1

/-- The tiles of all matrices in index order (R365, R370). -/
def planMats (w : WFmt) (ks : List Nat) : Nat → Nat → List MatDir → List TilePlan
  | _, _, [] => []
  | mat, g0, x :: l => planMat w mat g0 ks x ++ planMats w ks (mat + 1) (g0 + ceilDiv x.m.rows 128) l

/-- Give the tiles of one stack their offsets in its run and their home engines (R370): (g, column tile) order is index
order. -/
def placeStack (w : WFmt) (res : Bool) (k : Nat) (ts : List TilePlan) : List TilePlan :=
  let mine := ts.filter fun x => x.t.stack = k
  let main := sumBy (fun x => tileBytes w x.t.rows x.t.cols) mine
  ((mine.foldl (fun (a : List TilePlan × Nat × Nat × Nat) x =>
    (a.1 ++ [{ x with t := { x.t with ofs := a.2.1, resOfs := if res then main + a.2.2.1 else 0, home := a.2.2.2 % 64 } }],
      a.2.1 + tileBytes w x.t.rows x.t.cols, a.2.2.1 + tileBytes {} x.t.rows x.t.cols, a.2.2.2 + 1)) ([], 0, 0, 0)).1)

/-- Bytes of a stack's run, in whole 64 KiB (R358, R370). -/
def runBytes (w : WFmt) (res : Bool) (ts : List TilePlan) (k : Nat) : Nat :=
  let mine := ts.filter fun x => x.t.stack = k
  let n := sumBy (fun x => tileBytes w x.t.rows x.t.cols + if res then tileBytes {} x.t.rows x.t.cols else 0) mine
  ceilDiv n 65536 * 65536

/-- Checksum slots and tile records of a stack in use (R371). -/
def metaUsed (s : State) (k : Nat) : Nat × Nat :=
  (sumBy (fun x => countIf (fun t => t.stack = k) x.tiles * (if x.residual then 2 else 1)) s.ws.sets,
    sumBy (fun x => countIf (fun t => t.stack = k) x.tiles) s.ws.sets)

/-- A stack that lacks checksum slots or tile records, with the shortfall (R369, R371). -/
def metaShort (s : State) (res : Bool) (ts : List TilePlan) (k : Nat) : Nat :=
  let n := countIf (fun x => x.t.stack = k) ts
  let u := metaUsed s k
  max ((if res then 2 * n else n) + u.1 - 196608) (n + u.2 - 196608)

/-- The images of one stack's run in their order (R370). -/
def runImage (w : WFmt) (res : Bool) (d : List Byte) (ts : List TilePlan) : List Byte :=
  (ts.map fun x => slice d x.src (tileBytes w x.t.rows x.t.cols)).flatten
    ++ if res then (ts.map fun x => slice d x.resSrc (tileBytes {} x.t.rows x.t.cols)).flatten else []

/-- The set digest over the header with the directory, and the images (R367). -/
def setDigest (w : WFmt) (res : Bool) (head d : List Byte) (ts : List TilePlan) : List Byte :=
  sha384 (head
    ++ (ts.map fun x => sha384 (slice d x.src (tileBytes w x.t.rows x.t.cols))).flatten
    ++ if res then (ts.map fun x => sha384 (slice d x.resSrc (tileBytes {} x.t.rows x.t.cols))).flatten else [])

/-- The residual image of a tile. -/
def planRes (res : Bool) (d : List Byte) (x : TilePlan) : Option (List Byte) :=
  if res then some (slice d x.resSrc (tileBytes {} x.t.rows x.t.cols)) else none

/-- What the tiles of a bundle are refused for, the first reason of the table over all tiles (R369). -/
def tilesReject (w : WFmt) (res : Bool) (d : List Byte) (ts : List TilePlan) : Nat :=
  ts.foldl (fun a x =>
    let r := tileReject w x.t.rows x.t.cols (slice d x.src (tileBytes w x.t.rows x.t.cols)) (planRes res d x)
    if r = 0 then a else if a = 0 then r else min a r) 0

/-- The resident tile: its saturation bits and checksum vectors (08 R335, R336). -/
def tileRecord (w : WFmt) (res : Bool) (base : List (Nat × Nat)) (d : List Byte) (x : TilePlan) : Tile :=
  let img := slice d x.src (tileBytes w x.t.rows x.t.cols)
  let b := assocD 0 x.t.stack base
  { x.t with
    ofs := b + x.t.ofs
    resOfs := if res then b + x.t.resOfs else 0
    satW := satBits w x.t.rows x.t.cols img
    res := match planRes res d x with | some r => resBitsOf x.t.rows x.t.cols r | none => 0
    chk := chkOf w x.t.rows x.t.cols img
    chk2 := match planRes res d x with | some r => chk2Of w x.t.rows x.t.cols img r | none => [] }

/-- A WS_LOAD ends without a resident set: what it allocated is freed (R369). -/
def wsFail (w : Waiting) (st : Status) (r1 r2 : Nat) (s : State) : State := reply12 w st r1 r2 (dropLoading w s)

/-- A WS_LOAD is refused (R369); REFUSED counts in WS_EVT. -/
def wsRefuse (w : Waiting) (r1 r2 : Nat) (s : State) : State :=
  wsFail w .refused r1 r2 (setWs (fun c => { c with refused := satAdd 16 c.refused 1 }) s)

/-- The first stack of a list with a shortfall. -/
def firstShort (f : Nat → Nat) (ks : List Nat) : Option (Nat × Nat) :=
  (ks.find? fun k => f k ≠ 0).map fun k => (k, f k)

/-- The places of the tiles of a bundle in index order, over a stack list (R365, R370). -/
def tileOrder (b : Bundle) (ks : List Nat) : List TilePlan :=
  let f := wfmtOf b.wfmt
  let ts := planMats f ks 0 0 (packedDir b)
  let placed := (ks.map fun k => placeStack f b.residual k ts).flatten
  ts.map fun x => (placed.find? fun y => y.t.mat = x.t.mat && y.t.rowT = x.t.rowT && y.t.colT = x.t.colT).getD x

/-- A set may hold what a bundle holds: the shapes agree, as they must where the digests do (R367, R372). -/
def sameShape (b : Bundle) (x : Wset) : Bool :=
  x.mats == b.dir.map MatDir.m && x.wfmt == b.wfmt && x.residual == b.residual

/-- A set of the tenant that may be equal loads since before (R372). -/
def equalLoads (w : Waiting) (x : Wset) (b : Bundle) (s : State) : Bool :=
  s.ws.sets.any fun y => y.tid = x.tid && sameShape b y && y.loader.any fun o => decide (o < w.ord)

/-- The images are read: reasons 0x03, 0x04 and 0x06, the digest, merging with an equal set, or a new RESIDENT set (R367, R369 to
R373). A set of the tenant that loads since before and may be equal goes first. -/
def wsCommit (w : Waiting) (x : Wset) (b : Bundle) (head d : List Byte) (s : State) : State :=
  let f := wfmtOf b.wfmt
  let ts := tileOrder b x.stks
  let base := x.runs.map fun r => (r.1, r.2.1)
  let reject := tilesReject f b.residual d ts
  if equalLoads w x b s then againLater w s
  else if reject ≠ 0 then
    let s := x.runs.foldl (fun s r =>
      let (s, fr) := freeBytes r.2.2 s
      setMem (fun m => memWriteL m (r.1 * 2 ^ 36 + r.2.1) fr) s) s
    wsRefuse w reject 0 s
  else
    let s := x.runs.foldl (fun s r =>
      writeBulk (r.1 * 2 ^ 36 + r.2.1) (runImage f b.residual d (ts.filter fun t => t.t.stack = r.1)) s) s
    let dig := setDigest f b.residual head d ts
    match s.ws.sets.find? fun y => y.tid = x.tid && y.st = .resident && y.digest = dig with
    | some y =>
      let s := setWs (fun c => { c with
        dedup := satAdd 16 c.dedup 1
        sets := mapIf (fun z => z.idx = y.idx) (fun z => { z with
          loads := z.loads + 1, nodes := z.nodes ++ [w.req.src] }) c.sets }) (dropLoading w s)
      reply w { mkResp s w.req .ok with
        obj := BitVec.ofNat 32 (y.idx + 256 * y.gen), r0 := w64 y.tiles.length, r2 := w64 (y.loads + 1) } s
    | none =>
      let z := { x with st := .resident, loader := none, tiles := ts.map (tileRecord f b.residual base d), digest := dig }
      let s := noteHistory 2 1 x.tid dig (useIndex 4 x.idx x.gen (setWs (fun c => { c with
        sets := mapIf (fun y => y.loader = some w.ord) (fun _ => z) c.sets }) s))
      reply w { mkResp s w.req .ok with
        obj := BitVec.ofNat 32 (x.idx + 256 * x.gen), r0 := w64 ts.length, r2 := w64 1 } s

/-- Read ranges of a bundle one after the other; each keeps the place of its bundle offset for the lenders' data. -/
def fetchSpans (w : Waiting) (h va : Nat) : List (Nat × Nat) → List Byte → State → Fetched
  | [], acc, s => .ok s acc
  | (o, n) :: l, acc, s =>
    match fetchRange w o h (va + o) n s with
    | .ok s d => fetchSpans w h va l (acc ++ d) s
    | x => x

/-- The tiles of a LOADING set are read, then it becomes resident (R369, R373). -/
def wsRead (w : Waiting) (x : Wset) (b : Bundle) (head : List Byte) (s : State) : State :=
  match fetchSpans w (field w.req.payload 0 3) (field w.req.payload 8 8) (bundleSpans b) [] s with
  | .stop s st => wsFail w st 0 0 s
  | .wait s => s
  | .ok s d => wsCommit w x b head d s

/-- The LOADING set of a WS_LOAD. -/
def loadingOf (s : State) (w : Waiting) : Option Wset := s.ws.sets.find? fun x => x.loader = some w.ord

/-- Sets that are resident, lost or loading, those of earlier WS_LOADs that have no place yet among them (R369, R373). -/
def setCount (s : State) (w : Waiting) (mine : Nat → Bool) : Nat :=
  countIf (fun x => mine x.tid) s.ws.sets
    + countIf (fun v => v.op = 0x38 && decide (v.ord < w.ord) && (loadingOf s v).isNone && mine (reqTid v.req)) s.vrb.waiting

/-- Reasons 0x02 to 0x09 of R369 in the table's order; then the set is LOADING with its runs allocated (R373). -/
def wsPlace (pick : Nat) (w : Waiting) (g : Region) (b : Bundle) (head : List Byte) (s : State) : State :=
  let tid := reqTid w.req
  let ks := stackList s g (field w.req.payload 0x10 4)
  let order := tileOrder b ks
  let bytes := runBytes (wfmtOf b.wfmt) b.residual order
  let used := ks.filter fun k => order.any fun x => x.t.stack = k
  let fits := used.map fun k => (k, arenaFit s g k (bytes k))
  if b.dir.any fun x => x.m.cols % 64 ≠ 0 then wsRefuse w 0x02 0 s
  else if b.residual && b.wfmt ≠ 0 then wsRefuse w 0x05 0 s
  else if 256 ≤ setCount s w (fun _ => true) || limitOf s tid TenantCfg.maxWs ≤ setCount s w (· == tid) then wsRefuse w 0x07 0 s
  else match freeHandle s 4 256 pick fun i => s.ws.sets.any fun x => x.idx = i with
    | none => wsRefuse w 0x07 0 s
    | some idx =>
      if ks.isEmpty then wsRefuse w 0x0A 0 s
      else match fits.find? fun x => x.2.1.isNone with
        | some (k, _, room) => wsRefuse w 0x08 (k * 2 ^ 32 + min (2 ^ 32 - 1) (ceilDiv (bytes k - room) 1024)) s
        | none =>
          match firstShort (metaShort s b.residual order) used with
          | some (k, n) => wsRefuse w 0x09 (k * 2 ^ 32 + n) s
          | none =>
            let x : Wset := {
              idx := idx, gen := nextGen s 4 idx, tid := tid, st := .loading, region := g.idx, residual := b.residual
              wfmt := b.wfmt, loads := 1, mats := b.dir.map MatDir.m, tiles := order.map TilePlan.t, stks := ks
              nodes := [w.req.src], runs := fits.map fun f => (f.1, f.2.1.getD 0, bytes f.1), loader := some w.ord }
            wsRead w x b head (setWs (fun c => { c with sets := c.sets ++ [x] }) s)

/-- The bundle's range is checked and its directory read: reason 0x01, then the place of the set and its tiles (R369). A set that
has its place goes on; it loses it where its bundle has changed its shape meanwhile. -/
def wsBundle (pick : Nat) (w : Waiting) (g : Region) (hd : List Byte) (s : State) : State :=
  let r := w.req
  let h := field r.payload 0 3
  let va := field r.payload 8 8
  let n := 0x80 + 32 * field hd 0x0E 2
  let range := rangeParts s w.ord (reqTid r) r.src (max 0x80 (field hd 0x10 8)) (h, va, rightR)
  if range.1 ≠ .ok then wsFail w range.1 0 0 s
  else if field hd 0x10 8 < n then wsFail w .denied 0x01 0 s
  else match fetchRange w (2 ^ 51) h va n s with
    | .stop s st => wsFail w st 0 0 s
    | .wait s => s
    | .ok s head =>
      match parseBundle head with
      | none => wsFail w .denied 0x01 0 s
      | some b => match (loadingOf s w).filter (sameShape b) with
        | some x => wsRead w x b head s
        | none => wsPlace pick w g b head (dropLoading w s)

/-- An earlier WS_LOAD on the same region has no place yet: placement keeps admission order (R374). -/
def loadsEarlier (s : State) (w : Waiting) : Bool :=
  s.vrb.waiting.any fun v => v.op = 0x38 && decide (v.ord < w.ord) && objField v = objField w && (loadingOf s v).isNone

/-- WS_LOAD (R356, R357, R368 to R374). -/
def wsLoad (pick : Nat) (w : Waiting) (s : State) : State :=
  let r := w.req
  match objRegion s (reqTid r) (objField w) with
  | none => wsFail w .denied 0x0B 0 s
  | some g =>
    if g.st = .revoking then wsFail w .revoked 0x0B 0 s
    else if w.sealLate then replySt w .busy s
    else if writesPending s g.idx w.ord || loadsEarlier s w then againLater w s
    else
      match fetchRange w (2 ^ 50) (field r.payload 0 3) (field r.payload 8 8) 0x80 s with
      | .stop s st => wsFail w st 0 0 s
      | .wait s => s
      | .ok s hd => wsBundle pick w g hd s

/-- WS_LOAD. -/
def execWsLoad (r : Req) (e : Env) (s : State) : Host.Outcome State Fault Refusal :=
  .next (runVerb { r with opcode := 0x38 } e (wsLoad e.pick) s)

/-! WS_GEMV (R375 to R380) -/

/-- The weight set of a tenant that a handle names (R362). -/
def setOf (s : State) (h tid : Nat) : Option Wset :=
  s.ws.sets.find? fun x => x.idx = h % 256 && x.gen = h / 256 % 256 && x.tid = tid && x.st ≠ .loading

/-- The parameters of a WS_GEMV (R375). -/
structure GemvP where
  /-- First matrix. -/
  first : Nat := 0
  /-- Matrices. -/
  count : Nat := 1
  /-- Vectors. -/
  batch : Nat := 1
  /-- Activation format. -/
  af : EFmt := .e4m3
  /-- BF16 output. -/
  bf : Bool := false
  /-- Tolerance exponent. -/
  tol : Nat := 10
  /-- ESC_MODE. -/
  esc : Nat := 0
deriving DecidableEq, Repr

/-- Read the parameters (R375). -/
def gemvParams (x : Wset) (p : List Byte) : GemvP :=
  let first := field p 2 2
  let t := field p 8 1
  { first := first, count := min (clampTo 1 64 (field p 4 2)) (x.mats.length - first), batch := clampTo 1 64 (field p 6 1),
    af := afmtOf (field p 7 1 % 4), bf := bit (field p 7 1) 2, tol := if t = 0 then 10 else clampTo 6 20 t,
    esc := if field p 9 1 = 1 then 1 else if field p 9 1 = 2 then 2 else 0 }

/-- Read a tile's images from DRAM: the residual only where some vector escalates (R379; 13 R524). -/
def readTile (x : Wset) (t : Tile) (esc : Nat) (vs : List ActVec) (s : State) : State × Option TileIn :=
  let w := wfmtOf x.wfmt
  let base : TileIn := { rows := t.rows, cols := t.cols, w := w, satW := t.satW, resBits := t.res, chk := t.chk, chk2 := t.chk2 }
  let (s, img) := readSched 0 (t.stack * 2 ^ 36 + t.ofs) (tileBytes w t.rows t.cols) s
  let wantRes := x.residual && vs.any fun a => !(escalated { base with res := some [] } esc a).isEmpty
  let (s, res) := if wantRes then
      let (s, r) := readSched 0 (t.stack * 2 ^ 36 + t.resOfs) (tileBytes {} t.rows t.cols) s
      (s, r.map some)
    else (s, some (if x.residual then some [] else none))
  match img, res with
  | some i, some r => if t.bad then (s, none) else (s, some { base with img := i, res := r })
  | _, _ => (s, none)

/-- The GEMV of one tile with its check, its re-execution and its records: an output, or the status of its failure
(R379; 08 R337 to R342). -/
def tileRun (e : Env) (x : Wset) (i n : Nat) (t : Tile) (esc tol : Nat) (vs : List ActVec) (s : State) :
    State × Status × GemvOut :=
  match readTile x t esc vs s with
  | (s, none) => (s, .poisoned, {})
  | (s, some ti) =>
    let o := gemvTile ti esc tol (macFaults e 0x200 i) vs
    let done := fun (o : GemvOut) (s : State) => noteEsc o.esc (noteFlags n o.flags s)
    match o.miss with
    | none => (done o s, .ok, o)
    | some ratio =>
      match reexecPos s n with
      | none => (abftFailed n x.tid ratio none (done o s), .abftFail, o)
      | some pos =>
        match readTile x t esc vs s with
        | (s, none) => (s, .poisoned, {})
        | (s, some ti) =>
          let o2 := gemvTile ti esc tol (macFaults e 0x201 i) vs
          match o2.miss with
          | none =>
            let o2 := { o2 with flags := o2.flags ||| flRetry }
            (abftRecovered n x.tid ratio pos (done o2 s), .ok, o2)
          | some _ => (abftFailed n x.tid ratio (some pos) (done o2 s), .abftFail, o2)

/-- What the tiles of a call have yielded so far. -/
structure CallAcc where
  /-- Outputs per vector and row of the group. -/
  out : List (List (BitVec 32)) := []
  /-- Flags. -/
  flags : Nat := 0
  /-- Checks skipped. -/
  skipped : Nat := 0
  /-- Blocks escalated. -/
  esc : Nat := 0
  /-- Status. -/
  st : Status := .ok
  /-- First failing tile: matrix and tile. -/
  bad : Nat × Nat := (0, 0)
deriving DecidableEq, Repr

/-- Fold a column tile's outputs into rows row0 on of a vector (R377). -/
def foldRows (colT row0 : Nat) (acc ys : List (BitVec 32)) : List (BitVec 32) × Nat :=
  if colT = 0 then (acc.take row0 ++ ys ++ acc.drop (row0 + ys.length), 0)
  else
    let z := List.zipWith (fun a y => accAdd (a, 0) y) ((acc.drop row0).take ys.length) ys
    (acc.take row0 ++ z.map Prod.fst ++ acc.drop (row0 + ys.length), z.foldl (fun f x => f ||| x.2) 0)

/-- Run the tiles of a call in (matrix, tile) order until one fails; each comes with its index, its engine and the engine
of its row tile's column tile 0, which folds (R377 to R379). -/
def callTiles (e : Env) (x : Wset) (p : GemvP) (vecs : List (List Byte)) (row : Nat → Nat) (k : Nat) :
    List (Nat × Nat × Nat × Tile) → CallAcc → State → State × CallAcc
  | [], a, s => (s, a)
  | (i, n, fold, t) :: l, a, s =>
    let m := nth {} x.mats t.mat
    let vs := vecs.map fun v => actSub p.af k (1024 * t.colT) t.cols v
    match tileRun e x i n t p.esc (min p.tol m.tolMax) vs s with
    | (s, .ok, o) =>
      let z := List.zipWith (fun acc ys => foldRows t.colT (row t.mat + 128 * t.rowT) acc ys) a.out o.ys
      let fl := z.foldl (fun f y => f ||| y.2) 0
      callTiles e x p vecs row k l { a with
        out := z.map Prod.fst, flags := a.flags ||| o.flags ||| fl, skipped := a.skipped + o.skipped
        esc := a.esc + o.esc } (if fl = 0 then s else noteFlags fold fl s)
    | (s, st, o) => (s, { a with flags := a.flags ||| o.flags, esc := a.esc + o.esc, st := st, bad := (t.mat, i) })

/-- The bytes of the outputs of a vector, with the flags of their rounding (R376, R377). -/
def outBytes (bf : Bool) (ys : List (BitVec 32)) : List Byte × Nat :=
  if bf then
    let z := ys.map outBf
    ((z.map fun x => le 2 x.1.toNat).flatten, z.foldl (fun f x => f ||| x.2) 0)
  else ((ys.map fun y => le 4 y.toNat).flatten, 0)

/-- The run time [ns] that a response names: a free value, since the step is atomic and the spec gives bounds only (R379, R380;
log entry 13). -/
def runTime (s : State) : State × BitVec 64 :=
  let (s, i) := takeFree 1 s
  (s, w64 (Config.freeNat i))

/-- A WS_GEMV fails: RESULT1 names the first failing tile (R379). -/
def gemvFail (w : Waiting) (st : Status) (fl esc mat tile : Nat) (s : State) : State :=
  let s := if st = .poisoned then setWs (fun c => { c with poisoned := satAdd 16 c.poisoned 1 }) s else s
  let (s, ns) := runTime s
  reply w { mkResp s w.req st with
    obj := BitVec.ofNat 32 (fl % 256), r0 := ns, r1 := w64 (mat * 2 ^ 32 + tile), r2 := w64 esc } s

/-- The flags of the rounding of the outputs: each row tile's on the engine that folds it (R377; 08 R353). -/
def noteRounding (p : GemvP) (row : Nat → Nat) (tiles : List (Nat × Nat × Nat × Tile)) (out : List (List (BitVec 32))) (s : State) :
    State :=
  (tiles.filter fun t => t.2.2.2.colT = 0).foldl (fun s t =>
    let at' := row t.2.2.2.mat + 128 * t.2.2.2.rowT
    let fl := out.foldl (fun f ys => f ||| (outBytes p.bf ((ys.drop at').take t.2.2.2.rows)).2) 0
    if fl = 0 then s else noteFlags t.2.2.1 fl s) s

/-- The work of a WS_GEMV whose checks have passed (R376 to R379). -/
def gemvWork (e : Env) (w : Waiting) (x : Wset) (p : GemvP) (k : Nat) (tiles : List (Nat × Nat × Nat × Tile))
    (go : Region) (oo : Nat) (input : List Byte) (s : State) : State :=
  let ms := (x.mats.drop p.first).take p.count
  let rows := sumBy Mat.rows ms
  let ist := actStride p.af k
  let ost := outStride p.bf rows
  let vecs := (List.range p.batch).map fun v => slice input (v * ist) ist
  let row := fun mi => sumBy Mat.rows (ms.take (mi - p.first))
  let s := ((tiles.map fun t => t.2.1).eraseDups).foldl (fun s n =>
    clearFlags n (serveTenant n x.tid s)) s
  let (s, a) := callTiles e x p vecs row k tiles { out := vecs.map fun _ => List.replicate rows 0 } s
  if a.st ≠ .ok then
    gemvFail w a.st a.flags a.esc a.bad.1 a.bad.2 (undefAt go oo (p.batch * ost) s)
  else
    let bs := a.out.map (outBytes p.bf)
    let fl := bs.foldl (fun f b => f ||| b.2) a.flags
    let s := noteRounding p row tiles a.out s
    let (s, st, tags) := writeOut go oo (((List.range p.batch).zip bs).map fun b => (b.1 * ost, b.2.1)) s
    if st ≠ .ok then gemvFail w st fl a.esc 0 0 (undefAt go oo (p.batch * ost) s)
    else
      let (s, ns) := runTime s
      replyAfter w { mkResp s w.req (if a.esc = 0 then .ok else .okEscalated) with
        obj := BitVec.ofNat 32 (fl % 256), r0 := ns, r1 := w64 a.skipped, r2 := w64 a.esc } tags s

/-- The tiles of a call with their engines, or the status of the first that has none (R378). -/
def callEngines (s : State) (x : Wset) (p : GemvP) : Status × (Nat × Nat) × List (Nat × Nat × Nat × Tile) :=
  let ts := ((List.range x.tiles.length).zip x.tiles).filter fun t =>
    decide (p.first ≤ t.2.mat) && decide (t.2.mat < p.first + p.count)
  let es := ts.map fun t => (t, pickEngine s t.2.stack t.2.home)
  match es.find? fun y => y.2.1 ≠ .ok with
  | some (t, st, _) => (st, (t.2.mat, t.1), [])
  | none =>
    let full := es.map fun y => (y.1.1, y.2.2, y.1.2)
    (.ok, (0, 0), full.map fun y =>
      let f := match full.find? fun z => z.2.2.g = y.2.2.g && z.2.2.colT = 0 with | some z => z.2.1 | none => y.2.1
      (y.1, y.2.1, f, y.2.2))

/-- WS_GEMV (R375 to R379, R382). -/
def wsGemv (e : Env) (w : Waiting) (s : State) : State :=
  let r := w.req
  let b := slice r.payload 0 64
  match setOf s (field b 0 2) (reqTid r) with
  | none => replySt w .noMapping s
  | some x =>
    let p := gemvParams x b
    if x.mats.length ≤ p.first then
      if x.st = .lost then gemvFail w .poisoned 0 0 p.first 0 s else replySt w .denied s
    else
      let ms := (x.mats.drop p.first).take p.count
      let k := (nth {} x.mats p.first).cols
      if x.st ≠ .lost && ms.any fun m => m.cols ≠ k then replySt w .denied s
      else
        let hin := field b 0x0C 3
        let hout := field b 0x10 3
        let vin := field b 0x18 8
        let vout := field b 0x20 8
        let ilen := p.batch * actStride p.af k
        let olen := p.batch * outStride p.bf (sumBy Mat.rows ms)
        let i := rangeParts s w.ord (reqTid r) r.src ilen (hin, vin, rightR)
        let o := rangeParts s w.ord (reqTid r) r.src olen (hout, vout, rightW)
        let undef := fun (s : State) => match (if o.1 = .ok then spanOf s hout vout else none) with
          | some t => undefAt t.g t.o olen s
          | none => s
        if x.st = .lost then
          gemvFail w .poisoned 0 0 p.first ((x.tiles.findIdx? fun t => t.mat = p.first).getD 0) (undef s)
        else if i.1 ≠ .ok then replyFail w i.1 s
        else if o.1 ≠ .ok then replyFail w o.1 s
        else if rangesOverlap (physRanges i.2) (physRanges o.2) then replyFail w .denied s
        else match callEngines s x p with
          | (.ok, _, tiles) =>
            if earlierTo s w hin then againLater w s
            else match spanOf s hout vout with
              | none => replyFail w .noMapping s
              | some t =>
                let w := { w with outAt := some (t.g.idx, t.o, olen, 0) }
                match descGate w.ord olen (some t) [] s with
                | (s, .wait) => againLater { w with lines := waitedLines olen (some t) [] } s
                | (s, .busy) => gemvFail w .busy 0 0 0 0 (undefAt t.g t.o olen s)
                | (s, .go) =>
                  match fetchRange w 0 hin vin ilen s with
                  | .stop s st => gemvFail w st 0 0 0 0 (undefAt t.g t.o olen s)
                  | .wait s => s
                  | .ok s d => gemvWork e w x p k tiles t.g t.o d s
          | (st, bad, _) => gemvFail w st 0 0 bad.1 bad.2 (undef s)

/-- WS_GEMV. -/
def execWsGemv (r : Req) (e : Env) (s : State) : Host.Outcome State Fault Refusal :=
  .next (runVerb { r with opcode := 0x39 } e (wsGemv e) s)

/-! WS_RELEASE (R381, R382) -/

/-- A loaded plan of the tenant refers to a digest (R381). -/
def planRefs (s : State) (tid : Nat) (dig : List Byte) : Bool :=
  s.fe.plans.any fun p => p.tid = tid && p.wsRefs.contains dig

/-- A WS_GEMV on a set is admitted and incomplete (R381). -/
def gemvRuns (s : State) (x : Wset) : Bool :=
  s.vrb.waiting.any fun w => w.op = 0x39 && reqTid w.req = x.tid && field w.req.payload 0 2 = x.idx + 256 * x.gen

/-- WS_RELEASE (R381, R382): the LOADS entry of the requester's node goes, or the latest one. -/
def wsRelease (w : Waiting) (s : State) : State :=
  let r := w.req
  match setOf s (field r.payload 0 2) (reqTid r) with
  | none => replySt w .noMapping s
  | some x =>
    if x.st = .lost then reply w (mkResp s r .ok) (freeSet x.idx s)
    else if 1 < x.loads then
      let ns := if x.nodes.contains r.src then x.nodes.erase r.src else x.nodes.dropLast
      reply w { mkResp s r .ok with r0 := w64 (x.loads - 1) } (setWs (fun c => { c with
        sets := mapIf (fun y => y.idx = x.idx) (fun y => { y with loads := y.loads - 1, nodes := ns }) c.sets }) s)
    else if planRefs s x.tid x.digest || gemvRuns s x then replySt w .busy s
    else reply w (mkResp s r .ok) (freeSet x.idx s)

/-- WS_RELEASE. -/
def execWsRelease (r : Req) (e : Env) (s : State) : Host.Outcome State Fault Refusal :=
  .next (runVerb { r with opcode := 0x3A } e wsRelease s)

end Sys2Proof.Machine
end

