-- ==== Sys2Proof/Machine/Kv.lean ====
section
/-! DEFINITION. KV objects and the verbs KV_CREATE, KV_APPEND, KV_ATTEND, KV_SHARE_PREFIX and KV_RELEASE, and the expiry of an
idle object (09_weights_and_kv R383 to R402). -/

namespace Sys2Proof.Machine

/-- A KV object by its index. -/
def kvAt (s : State) (i : Nat) : Option KvObj := s.kv.objs.find? fun o => o.idx = i

/-- Change a KV object. -/
def modKv (i : Nat) (f : KvObj → KvObj) (s : State) : State :=
  setKv (fun c => { c with objs := mapIf (fun o => o.idx = i) f c.objs }) s

/-- A KV handle: INDEX[19:0] and GEN[27:20] (R362). -/
def kvHandle (o : KvObj) : Nat := o.idx + 2 ^ 20 * o.gen

/-- The object of a tenant that a handle names; reserved bits are ignored (R362). -/
def kvOf (s : State) (h tid : Nat) : Option KvObj :=
  s.kv.objs.find? fun o => o.idx = h % 2 ^ 20 && o.gen = h / 2 ^ 20 % 256 && o.tid = tid

/-- A verb has named an object (R392). -/
def touchKv (i : Nat) (s : State) : State := modKv i (fun o => { o with lastUse := s.now }) s

/-- Tokens of a page of an object (R384). -/
def kvT (o : KvObj) : Nat := pageTokens o.mx o.headDim

/-- Frames of a chain (R386). -/
def kvN (o : KvObj) : Nat := ceilDiv o.maxTok (kvT o)

/-- The stack of page p of chain (l, h) (R385). -/
def kvStack (o : KvObj) (l h p : Nat) : Nat := nth 0 o.stks ((p + l * o.heads + h) % max 1 o.stks.length)

/-- Of the pages lo to hi - 1 of a chain number c, those on place j of a stack list of n stacks (R385). -/
def pagesOn (n c j lo hi : Nat) : Nat :=
  let upTo := fun (m : Nat) => let r := (j + n * (c + 1) - c) % n; if r < m then (m - 1 - r) / n + 1 else 0
  upTo hi - upTo lo

/-- Frames per stack of pages lo to hi - 1 of all chains of an object (R385, R386). -/
def kvNeed (o : KvObj) (lo hi : Nat) : List (Nat × Nat) :=
  let n := o.stks.length
  ((List.range n).zip o.stks).map fun x =>
    (x.2, sumBy (fun c => pagesOn n c x.1 lo hi) (List.range (o.layers * o.heads)))

/-- Page references of an object on a stack: its chains in full (R386). -/
def kvRefs (o : KvObj) (k : Nat) : Nat := assocD 0 k (kvNeed o 0 (kvN o))

/-- Why a new object is refused, with RESULT2: 0x01 to 0x04 of R386. -/
def kvRefuse (s : State) (g : Region) (o : KvObj) (lo : Nat) : Option (Nat × Nat) :=
  let need := kvNeed o lo (kvN o)
  if limitOf s o.tid TenantCfg.maxKv ≤ countIf (fun x => x.tid = o.tid) s.kv.objs then some (1, 0)
  else if o.stks.isEmpty then some (4, 0)
  else match need.find? fun x => decide (arenaFree s g x.1 < x.2) with
    | some x => some (2, x.1 * 2 ^ 32 + (x.2 - arenaFree s g x.1))
    | none =>
      if o.stks.any fun k => decide (2 ^ 24 < sumBy (fun x => kvRefs x k) s.kv.objs + kvRefs o k) then some (3, 0)
      else none

/-- Add a new object: the handle, the frames reserved, and RESULT1 (R386, R390). -/
def kvAdd (pick lo r1 : Nat) (w : Waiting) (g : Region) (o : KvObj) (s : State) : State :=
  match kvRefuse s g o lo with
  | some (r1, r2) => reply12 w .refused r1 r2 s
  | none =>
    match freeHandle s 5 (2 ^ 20) pick fun i => s.kv.objs.any fun x => x.idx = i with
    | none => reply12 w .refused 1 0 s
    | some idx =>
      let need := kvNeed o lo (kvN o)
      let o := { o with idx := idx, gen := nextGen s 5 idx, resv := need, lastUse := s.now, node := w.req.src }
      let s := useIndex 5 idx o.gen (setKv (fun c => { c with objs := c.objs ++ [o] }) s)
      reply w { mkResp s w.req .ok with
        obj := BitVec.ofNat 32 (kvHandle o), r0 := w64 (sumBy Prod.snd need), r1 := w64 r1 } s

/-- IDLE_MS (R383). -/
def idleMsOf (x : Nat) : Nat := if x = 0 then 0 else clampTo 1 3600000 x

/-- KV_CREATE (R356, R357, R383, R386). -/
def kvCreate (pick : Nat) (w : Waiting) (s : State) : State :=
  let r := w.req
  let p := r.payload
  match objRegion s (reqTid r) (objField w) with
  | none => replySt w .denied s
  | some g =>
    if g.st = .revoking then replySt w .revoked s
    else if w.sealLate then replySt w .busy s
    else if writesPending s g.idx w.ord then againLater w s
    else
      let o : KvObj := {
        tid := reqTid r, region := g.idx, layers := clampTo 1 256 (field p 2 2), heads := clampTo 1 64 (field p 4 1)
        headDim := if field p 5 1 = 0 then 64 else 128, mx := field p 6 1 = 1, maxTok := clampTo 1 (2 ^ 20) (field p 8 4)
        idleMs := idleMsOf (field p 0x0C 4), stks := stackList s g (field p 0x10 4) }
      let o := { o with lens := List.replicate o.layers 0 }
      kvAdd pick 0 (kvT o) w g o s

/-- KV_CREATE. -/
def execKvCreate (r : Req) (e : Env) (s : State) : Host.Outcome State Fault Refusal :=
  .next (runVerb { r with opcode := 0x40 } e (kvCreate e.pick) s)

/-! Appending (R387 to R391) -/

/-- A page of an object, if it has one. -/
def pageOf (o : KvObj) (l h p : Nat) : Option KvPage := o.pages.find? fun x => x.layer = l && x.head = h && x.p = p

/-- Other objects that refer to a frame. -/
def othersOf (s : State) (i : Nat) (f : Frame) : List KvObj :=
  s.kv.objs.filter fun o => o.idx ≠ i && o.pages.any fun p => p.frame.stack = f.stack && p.frame.ofs = f.ofs

/-- A page that an append may not enter: full for the writer, or one that some object shares in full, while more than one
object refers to it (R391). -/
def pageImmutable (s : State) (o : KvObj) (l h p : Nat) : Bool :=
  match pageOf o l h p with
  | none => false
  | some x =>
    let others := othersOf s o.idx x.frame
    let t := kvT o
    !others.isEmpty && (decide ((p + 1) * t ≤ nth 0 o.lens l) || decide ((p + 1) * t ≤ o.sharedLen)
      || others.any fun y => decide ((p + 1) * t ≤ y.sharedLen))

/-- Draw a frame of an object's reservation on a stack: the first free frame of the arena (R358, R386). -/
def drawFrame (i k maker : Nat) (s : State) : State × Frame :=
  match kvAt s i with
  | none => (s, {})
  | some o => match regionAt s o.region with
    | none => (s, {})
    | some g =>
      let f : Frame := match arenaGaps s g k with
        | x :: _ => { stack := k, ofs := x.1, maker := maker }
        | [] => {}
      (modKv i (fun o => { o with resv := setAssoc k (assocD 0 k o.resv - 1) o.resv }) s, f)

/-- Give an object a page frame in the place of what it had. -/
def setPage (i l h p : Nat) (f : Frame) (s : State) : State :=
  modKv i (fun o => { o with
    pages := (o.pages.filter fun x => !(x.layer == l && x.head == h && x.p == p))
      ++ [{ layer := l, head := h, p := p, frame := f }] }) s

/-- The address of a frame. -/
def framePa (f : Frame) : Nat := f.stack * 2 ^ 36 + f.ofs

/-- Copy a shared page into a frame of an object's own (R391). -/
def copyPage (i l h p : Nat) (src : Frame) (s : State) : State :=
  let (s, f) := drawFrame i src.stack i s
  let s := setPage i l h p f s
  copyDram (framePa src) (framePa f) 65536 (setKv (fun c => { c with cow := satAdd 16 c.cow 1 }) s)

/-- Make a page of an object writable: draw it, or copy it where another object refers to it; the frames drawn and copies
made (R386, R391). -/
def ownPage (i l h p : Nat) (s : State) : State × Nat × Nat :=
  match kvAt s i with
  | none => (s, 0, 0)
  | some o =>
    match pageOf o l h p with
    | none =>
      let (s, f) := drawFrame i (kvStack o l h p) i s
      (setPage i l h p f s, 1, 0)
    | some x =>
      let others := othersOf s i x.frame
      if others.isEmpty then (s, 0, 0)
      else if x.frame.maker = i then
        (others.foldl (fun s y => copyPage y.idx l h p x.frame s) s, others.length, others.length)
      else (copyPage i l h p x.frame s, 1, 1)

/-- Write the tokens of one page of a chain: K vectors, then V vectors, each in one run (R384, R385). -/
def writeTokens (o : KvObj) (f : Frame) (slot : Nat) (ks vs : List Byte) (s : State) : State × Status :=
  let vb := headBytes o.mx o.headDim
  let (s, a) := writeDram (framePa f + slot * vb) ks s
  let (s, b) := writeDram (framePa f + 0x8000 + slot * vb) vs s
  (s, worse a b)

/-- The source bytes of a token's K or V vector (R387). -/
def srcVec (o : KvObj) (count li ti h v : Nat) (d : List Byte) : List Byte :=
  let vb := headBytes o.mx o.headDim
  slice d ((((li * count + ti) * o.heads + h) * 2 + v) * vb) vb

/-- Append to one page of a chain. -/
def appendPage (i l0 pos count : Nat) (d : List Byte) (a : State × Status × Nat × Nat) (x : Nat × Nat × Nat) :
    State × Status × Nat × Nat :=
  let (s, st, fr, cp) := a
  let (l, h, p) := x
  let (s, n, c) := ownPage i l h p s
  match kvAt s i with
  | none => (s, st, fr, cp)
  | some o =>
    match pageOf o l h p with
    | none => (s, st, fr + n, cp + c)
    | some pg =>
      let t := kvT o
      let lo := max pos (p * t)
      let hi := min (pos + count) ((p + 1) * t)
      let ts := (List.range (hi - lo)).map fun j => lo + j - pos
      let ks := (ts.map fun j => srcVec o count (l - l0) j h 0 d).flatten
      let vs := (ts.map fun j => srcVec o count (l - l0) j h 1 d).flatten
      let (s, st') := writeTokens o pg.frame (lo - p * t) ks vs s
      (s, worse st st', fr + n, cp + c)

/-- Pages of the named layers that tokens pos to pos + count - 1 touch. -/
def touchedPages (o : KvObj) (l0 ln pos count : Nat) : List (Nat × Nat × Nat) :=
  if count = 0 then []
  else
    let t := kvT o
    ((List.range ln).map fun li => ((List.range o.heads).map fun h =>
      (List.range ((pos + count - 1) / t - pos / t + 1)).map fun p => (l0 + li, h, pos / t + p)).flatten).flatten

/-- A request's object and layers: LAYER and LAYER_COUNT of an append, one layer of an attend (R387, R394). -/
def kvLayers (o : KvObj) (w : Waiting) : Nat × Nat :=
  let p := w.req.payload
  let l := field p 4 2
  if w.op = 0x41 then (l, clampTo 1 (o.layers - l) (field p 6 2)) else (l, 1)

/-- Earlier admitted verbs of a kind on layers of an object have not completed (R389). -/
def earlierKv (s : State) (w : Waiting) (o : KvObj) (ops : List Nat) (l0 ln : Nat) : Bool :=
  s.vrb.waiting.any fun x => ops.contains x.op && decide (x.ord < w.ord) && reqTid x.req = o.tid
    && field x.req.payload 0 4 % 2 ^ 28 = kvHandle o
    && (let y := kvLayers o x; decide (y.1 < l0 + ln) && decide (l0 < y.1 + y.2))

/-- A plan's ATTEND on a layer of an object has been issued and has not completed, before a place in core-merge order (R389). -/
def attendFlies (s : State) (o : KvObj) (l0 ln ord : Nat) : Bool :=
  s.fe.engs.any fun e => match e.comp, planAt s e.plan with
    | some f, some p => match p.run with
      | none => false
      | some r =>
        let d := nth {} p.ops ((nth (0, 0) p.streams (relEngine p e.n)).1 + f.i)
        let a := nth {} r.args (bits d.src.toNat 59 56)
        d.opc == 3 && decide (f.ord ≤ ord) && a.kind == 4 && a.win % 2 ^ 28 == kvHandle o
          && decide (l0 ≤ bits d.src.toNat 39 32) && decide (bits d.src.toNat 39 32 < l0 + ln)
    | _, _ => false

/-- KV_APPEND (R387 to R391). -/
def kvAppend (w : Waiting) (s : State) : State :=
  let r := w.req
  let b := slice r.payload 0 64
  match kvOf s (field b 0 4) (reqTid r) with
  | none => replySt w .noMapping s
  | some o =>
    let s := touchKv o.idx s
    let l0 := field b 4 2
    if o.st = .lost then replySt w .poisoned s
    else if o.layers ≤ l0 then replySt w .denied s
    else
      let ln := clampTo 1 (o.layers - l0) (field b 6 2)
      let pos := field b 8 4
      let count := clampTo 0 65536 (field b 0x0C 4)
      let len := ln * count * o.heads * 2 * headBytes o.mx o.headDim
      let src := rangeParts s w.ord (reqTid r) r.src len (field b 0x10 3, field b 0x18 8, rightR)
      let ls := (List.range ln).map fun i => l0 + i
      let touched := touchedPages o l0 ln pos count
      if earlierKv s w o [0x41, 0x42] l0 ln || attendFlies s o l0 ln w.ord then againLater w s
      else if count ≠ 0 && src.1 ≠ .ok then replySt w src.1 s
      else if ls.any fun l => decide (nth 0 o.lens l < pos) then reply12 w .denied 1 0 s
      else if touched.any fun x => pageImmutable s o x.1 x.2.1 x.2.2 then
        reply12 w .denied 2 0 (setKv (fun c => { c with immutable := satAdd 16 c.immutable 1 }) s)
      else if o.maxTok < pos + count then reply12 w .refused 3 0 s
      else
        let go := fun (s : State) (d : List Byte) =>
          let (s, st, fr, cp) := touched.foldl (appendPage o.idx l0 pos count d) (s, .ok, 0, 0)
          if st ≠ .ok then replySt w st s
          else
            reply w { mkResp s r .ok with r0 := w64 (pos + count), r1 := w64 fr, r2 := w64 cp }
              (modKv o.idx (fun y => { y with lens := ls.foldl (fun m l => m.set l (pos + count)) y.lens }) s)
        if count = 0 then go s []
        else match fetchRange w 0 (field b 0x10 3) (field b 0x18 8) len s with
          | .stop s st => replySt w st s
          | .wait s => s
          | .ok s d => go s d

/-- KV_APPEND. -/
def execKvAppend (r : Req) (e : Env) (s : State) : Host.Outcome State Fault Refusal :=
  .next (runVerb { r with opcode := 0x41 } e kvAppend s)

/-! Sharing and releasing (R390, R392) -/

/-- The least of a list of numbers. -/
def leastOf (l : List Nat) : Nat := match l with | [] => 0 | x :: r => r.foldl min x

/-- KV_SHARE_PREFIX (R390). -/
def kvSharePrefix (pick : Nat) (w : Waiting) (s : State) : State :=
  let r := w.req
  let b := slice r.payload 0 64
  match kvOf s (field b 0 4) (reqTid r) with
  | none => replySt w .noMapping s
  | some o =>
    let s := touchKv o.idx s
    if o.st = .lost then replySt w .poisoned s
    else if earlierKv s w o [0x41] 0 o.layers then againLater w s
    else match regionAt s o.region with
      | none => replySt w .noMapping s
      | some g =>
        if g.st = .revoking then replySt w .revoked s
        else
          let t := kvT o
          let p := clampTo 0 (leastOf o.lens) (field b 4 4)
          let child := { o with
            st := .active, maxTok := clampTo (max p 1) (2 ^ 20) (field b 8 4), idleMs := idleMsOf (field b 0x0C 4)
            lens := List.replicate o.layers p, sharedLen := p / t * t
            pages := o.pages.filter fun x => decide (x.p < ceilDiv p t) }
          kvAdd pick (p / t) (p / t * t) w g child s

/-- KV_SHARE_PREFIX. -/
def execKvSharePrefix (r : Req) (e : Env) (s : State) : Host.Outcome State Fault Refusal :=
  .next (runVerb { r with opcode := 0x43 } e (kvSharePrefix e.pick) s)

/-- A KV verb on an object is admitted and incomplete, or a running plan holds it (R392). -/
def kvBusy (s : State) (o : KvObj) : Bool :=
  (s.vrb.waiting.any fun w => (w.op = 0x41 || w.op = 0x42 || w.op = 0x43) && reqTid w.req = o.tid
      && field w.req.payload 0 4 % 2 ^ 28 = kvHandle o)
    || (s.fe.plans.any fun p => match p.run with
      | some r => r.args.any fun a => a.kind == 4 && a.win % 2 ^ 28 == kvHandle o
      | none => false)

/-- KV_RELEASE (R392). -/
def kvRelease (w : Waiting) (s : State) : State :=
  match kvOf s (field w.req.payload 0 4) (reqTid w.req) with
  | none => replySt w .noMapping s
  | some o => if kvBusy s o then replySt w .busy (touchKv o.idx s) else replySt w .ok (freeObj o.idx s)

/-- KV_RELEASE. -/
def execKvRelease (r : Req) (e : Env) (s : State) : Host.Outcome State Fault Refusal :=
  .next (runVerb { r with opcode := 0x44 } e kvRelease s)

/-- KV_EXPIRED: an object that nothing has named for IDLE_MS is released (R392, R402). -/
def execKvExpired (i : Nat) (e : Env) (s : State) : Host.Outcome State Fault Refusal :=
  let s := applyEnv e s
  .next (match kvAt s i with
    | none => s
    | some o =>
      if o.idleMs = 0 || s.now < o.lastUse + o.idleMs * 1000000 || kvBusy s o then s
      else event o.node 0x0C .ok o.tid (kvHandle o) o.idleMs 0 0
        (setKv (fun c => { c with expired := satAdd 16 c.expired 1 }) (freeObj i s)))

/-! Attention (R394 to R401) -/

/-- The parameters of a KV_ATTEND (R394). -/
structure AttP where
  /-- Layer. -/
  layer : Nat := 0
  /-- Query heads. -/
  heads : Nat := 1
  /-- Queries per head. -/
  nq : Nat := 1
  /-- Effective CTX_LEN. -/
  ctx : Nat := 0
  /-- SCALE. -/
  scale : BitVec 32 := 0
  /-- Query format. -/
  qf : EFmt := .bf16
  /-- BF16 output. -/
  bf : Bool := false
deriving DecidableEq, Repr

/-- Read the parameters (R394). -/
def attParams (o : KvObj) (b : List Byte) : AttP :=
  let l := field b 4 2
  let n := nth 0 o.lens l
  let c := field b 8 4
  let sc := BitVec.ofNat 32 (field b 0x0C 4)
  { layer := l, heads := clampTo o.heads (16 * o.heads) (field b 6 1) / o.heads * o.heads, nq := clampTo 1 16 (field b 7 1)
    ctx := if c = 0 || n = 0 then n else clampTo 1 n c
    scale := if f32NonFinite sc || sc.getLsbD 31 || sc = 0 then headScale o.headDim else sc
    qf := if field b 0x28 1 % 4 = 1 then .e4m3 else .bf16, bf := bit (field b 0x28 1) 2 }

/-- Attended tokens of query i (R395). -/
def attTokens (p : AttP) (i : Nat) : Nat := p.ctx + i + 1 - p.nq

/-- Read the K and V vectors of the first n tokens of a page. -/
def readPage (o : KvObj) (f : Frame) (n : Nat) (s : State) : State × Option (List (List Fp × List Fp)) :=
  let vb := headBytes o.mx o.headDim
  let (s, k) := readSched 0 (framePa f) (n * vb) s
  let (s, v) := readDram 0 (framePa f + 0x8000) (n * vb) s
  match k, v with
  | some k, some v => (s, some ((List.range n).map fun j =>
      (headVec o.mx o.headDim (slice k (j * vb) vb), headVec o.mx o.headDim (slice v (j * vb) vb))))
  | _, _ => (s, none)

/-- Read the pages of a chain that hold its first n tokens (R395): each page's vectors, or none for one with an uncorrectable
line. -/
def readChain (o : KvObj) (l h n : Nat) : List Nat → State → State × List (Option (List (List Fp × List Fp)))
  | [], s => (s, [])
  | p :: ps, s =>
    let t := kvT o
    let f := match pageOf o l h p with | some x => x.frame | none => {}
    let (s, a) := readPage o f (min t (n - p * t)) s
    let (s, r) := readChain o l h n ps s
    (s, a :: r)

/-- Read the chains of a layer for every KV head. -/
def readHeads (o : KvObj) (l n : Nat) : List Nat → State → State × List (List (Option (List (List Fp × List Fp))))
  | [], s => (s, [])
  | h :: hs, s =>
    let (s, a) := readChain o l h n (List.range (ceilDiv n (kvT o))) s
    let (s, r) := readHeads o l n hs s
    (s, a :: r)

/-- The pages that were read, of all heads. -/
def pagesRead {α : Type} (kv : List (List (Option α))) : Nat := sumBy (fun c => (c.filter Option.isSome).length) kv

/-- The first n tokens of a chain, page by page. -/
def firstTokens (t n : Nat) (pages : List (List (List Fp × List Fp))) : List (List (List Fp × List Fp)) :=
  (List.range pages.length).map fun p => (nth [] pages p).take (n - p * t)

/-- The outputs of a call in the order of R398: per query i and head q its output bytes, LSE and flag. A head with a page that was
not read has no output and no flag. -/
def attOutputs (o : KvObj) (p : AttP) (q : List Byte) (kv : List (List (Option (List (List Fp × List Fp))))) :
    List (List Byte × BitVec 32 × Nat) :=
  let st := actStride p.qf o.headDim
  ((List.range p.nq).map fun i => (List.range p.heads).map fun h =>
    let c := nth [] kv (h / (p.heads / o.heads))
    if c.any Option.isNone then ([], 0, 0)
    else
      let v := actValues (actSub p.qf o.headDim 0 o.headDim (slice q ((i * p.heads + h) * st) st))
      let x := attHead o.headDim p.scale v (firstTokens (kvT o) (attTokens p i) (c.filterMap id))
      let y := outBytes p.bf x.1
      (y.1, x.2.1, if x.2.2 then flNonfinite else 0)).flatten

/-- The engines of the pages a call reads (R378, R399), or the status where a stack has none. -/
def attEngines (s : State) (o : KvObj) (l n : Nat) : Status × List Nat :=
  let ps := ((List.range (ceilDiv n (kvT o))).map fun p => (List.range o.heads).map fun h =>
    pickEngine s (kvStack o l h p) ((p / max 1 o.stks.length * o.heads + h) % 64)).flatten
  match ps.find? fun x => x.1 ≠ .ok with
  | some x => (x.1, [])
  | none => (.ok, (ps.map Prod.snd).eraseDups)

/-- A KV_ATTEND fails after its checks: the output is undefined, and the response carries the flags set and the pages read so far
(R398). -/
def attFail (w : Waiting) (st : Status) (g : Region) (o len ctx fl pages : Nat) (s : State) : State :=
  let (s, ns) := runTime (undefAt g o len s)
  reply w { mkResp s w.req st with obj := BitVec.ofNat 32 fl, r0 := ns, r1 := w64 ctx, r2 := w64 pages } s

/-- The work of a KV_ATTEND (R395 to R398). -/
def attWork (w : Waiting) (o : KvObj) (p : AttP) (engs : List Nat) (g : Region) (oo len : Nat) (q : List Byte) (s : State) :
    State :=
  let s := engs.foldl (fun s n => serveTenant n o.tid s) s
  let (s, kv) := readHeads o p.layer p.ctx (List.range o.heads) s
  let ys := attOutputs o p q kv
  let fl := ys.foldl (fun f y => f ||| y.2.2) 0
  let s := if fl = 0 then s else engs.foldl (fun s n => noteFlags n fl s) s
  let pages := pagesRead kv
  if kv.any (fun c => c.any Option.isNone) then attFail w .poisoned g oo len p.ctx fl pages s
  else
    let ost := outStride p.bf o.headDim
    let outs := ((List.range ys.length).zip ys).map fun y => (y.1 * ost, y.2.1)
    let lse := (ys.map fun y => le 4 y.2.1.toNat).flatten
    let (s, st, tags) := writeOut g oo (outs ++ [(p.nq * p.heads * ost, lse)]) s
    if st ≠ .ok then attFail w st g oo len p.ctx fl pages s
    else
      let (s, ns) := runTime s
      replyAfter w { mkResp s w.req .ok with
      obj := BitVec.ofNat 32 fl, r0 := ns, r1 := w64 p.ctx, r2 := w64 pages } tags s

/-- KV_ATTEND (R389, R394 to R401). -/
def kvAttend (w : Waiting) (s : State) : State :=
  let r := w.req
  let b := slice r.payload 0 64
  match kvOf s (field b 0 4) (reqTid r) with
  | none => replySt w .noMapping s
  | some o =>
    let s := touchKv o.idx s
    if o.st = .lost then replySt w .poisoned s
    else if o.layers ≤ field b 4 2 then replySt w .denied s
    else if earlierKv s w o [0x41] (field b 4 2) 1 then againLater w s
    else
      let p := attParams o b
      let n := p.nq * p.heads
      let qlen := n * actStride p.qf o.headDim
      let olen := n * outStride p.bf o.headDim + 4 * n
      let hq := field b 0x10 3
      let ho := field b 0x14 3
      let q := rangeParts s w.ord (reqTid r) r.src qlen (hq, field b 0x18 8, rightR)
      let t := rangeParts s w.ord (reqTid r) r.src olen (ho, field b 0x20 8, rightW)
      if q.1 ≠ .ok then replyFail w q.1 s
      else if t.1 ≠ .ok then replyFail w t.1 s
      else if rangesOverlap (physRanges q.2) (physRanges t.2) then replyFail w .denied s
      else match attEngines s o p.layer p.ctx, spanOf s ho (field b 0x20 8) with
        | (.ok, engs), some x =>
          let w := { w with outAt := some (x.g.idx, x.o, olen, p.ctx) }
          match descGate w.ord olen (some x) [] s with
          | (s, .wait) => againLater { w with lines := waitedLines olen (some x) [] } s
          | (s, .busy) => attFail w .busy x.g x.o olen p.ctx 0 0 s
          | (s, .go) =>
            match fetchRange w 0 hq (field b 0x18 8) qlen s with
            | .stop s st => attFail w st x.g x.o olen p.ctx 0 0 s
            | .wait s => s
            | .ok s d => attWork w o p engs x.g x.o olen d s
        | (st, _), _ => replyFail w (if st = .ok then .noMapping else st) s

/-- KV_ATTEND. -/
def execKvAttend (r : Req) (e : Env) (s : State) : Host.Outcome State Fault Refusal :=
  .next (runVerb { r with opcode := 0x42 } e kvAttend s)

end Sys2Proof.Machine
end

