-- ==== Sys2Proof/Machine/Sections.lean ====
section
/-! DEFINITION. The section directory and the signature trailer that a Salven image and a Benan plan share, and Onyx's key
slots (03_salven_image R101 to R104, 07_facet_engines R271, 14_security_and_isolation R552, R553). -/

namespace Sys2Proof.Machine

/-- A directory entry (03 R101). -/
structure Sect where
  /-- TYPE. -/
  typ : Nat := 0
  /-- VER. -/
  ver : Nat := 0
  /-- OFFSET. -/
  ofs : Nat := 0
  /-- LEN. -/
  len : Nat := 0
deriving DecidableEq, Repr

/-- The n directory entries at an offset. -/
def sectDir (l : List Byte) (base n : Nat) : List Sect :=
  (List.range n).map fun i =>
    let o := base + 16 * i
    { typ := field l o 2, ver := field l (o + 2) 2, ofs := field l (o + 4) 4, len := field l (o + 8) 4 }

/-- No element of a list stands twice. -/
def noneTwice : List Nat → Bool
  | [] => true
  | x :: l => !l.contains x && noneTwice l

/-- The placement conditions of 03 R101 that hold for every section; base is the end of the header, total the bundle's
length. -/
def sectsPlaced (base total : Nat) (ds : List Sect) : Bool :=
  (ds.all fun d => d.ofs % 64 = 0 && decide (d.ofs + d.len ≤ total - 128))
    && apart ((0, base + 16 * ds.length) :: ds.map fun d => (d.ofs, d.len))
    && noneTwice (ds.map Sect.typ)

/-- A section at version 1 (03 R104). -/
def sectOf (ds : List Sect) (typ : Nat) : Option Sect := ds.find? fun d => d.typ = typ && d.ver = 1

/-- The bytes of a section; none where it is absent. -/
def sectBytes (l : List Byte) (ds : List Sect) (typ : Nat) : List Byte :=
  match sectOf ds typ with
  | some d => slice l d.ofs d.len
  | none => []

/-- COUNT of a section with a prefix; 0 where it is absent. -/
def sectCount (l : List Byte) (ds : List Sect) (typ : Nat) : Nat :=
  match sectOf ds typ with
  | some d => field l d.ofs 4
  | none => 0

/-- The entries of a section, n of them, w bytes each, behind a prefix of p bytes. -/
def sectEntries (l : List Byte) (ds : List Sect) (typ p w n : Nat) : List (List Byte) :=
  match sectOf ds typ with
  | some d => (List.range n).map fun i => slice l (d.ofs + p + w * i) w
  | none => []

/-- A key slot is usable: programmed, not revoked, and not programmed in this incarnation (14 R552, R553). -/
def keyUsable (s : State) (slot : Nat) : Bool :=
  s.fuse.prog.getLsbD slot && !s.fuse.revoked.getLsbD slot && !s.fuse.pending.getLsbD slot

/-- The public key of a slot. -/
def keyOf (s : State) (slot : Nat) : List Byte := assocD [] slot s.fuse.keys

/-- The signature trailer of a bundle verifies over its signed region (03 R102). -/
def signedBy (key l : List Byte) (total : Nat) : Bool :=
  let o := total - 128
  field l o 8 = 0x544749534E45564C && Config.ecdsaVerify key (sha384 (slice l 0 o)) (slice l (o + 8) 96)

/-- The digest of a bundle's signed region (03 R103, 07 R271). -/
def regionDigest (l : List Byte) (total : Nat) : List Byte := sha384 (slice l 0 (total - 128))

end Sys2Proof.Machine
end

