-- ==== Sys2Proof/Machine/EngRun.lean ====
section
/-! DEFINITION. Engines while they run a plan: scratch banks and their owners, operations in flight, sync slots, barriers,
parks, and when a run is blocked (07_facet_engines R266 to R270, R284 to R302; 11_fabric_routing R486). -/

namespace Sys2Proof.Machine

/-! Scratch banks (R266 to R268) -/

/-- Read scratch bytes; beyond the end of the bank nothing is read. -/
def scratchRead (e : Eng) (bank ofs len : Nat) : List Byte :=
  memReadL e.banks (bank * 2 ^ 17 + ofs) (min len (2 ^ 17 - ofs))

/-- Write scratch bytes; beyond the end of the bank nothing is written. -/
def scratchWrite (bank ofs : Nat) (d : List Byte) (e : Eng) : Eng :=
  { e with banks := memWriteL e.banks (bank * 2 ^ 17 + ofs) (d.take (2 ^ 17 - ofs)) }

/-- Owner of a bank. -/
def ownerOf (e : Eng) (bank : Nat) : BankOwner := nth .compute e.own bank

/-- Bytes waiting in the inbound queue (R262). -/
def inqBytes (e : Eng) : Nat := sumBy (fun x => x.2.length) e.inq

/-- Land the queued data of banks that HOST_DMA owns, in order; data that would pass the end of its bank is discarded and
counted (11 R486). -/
def landInbound (e : Eng) : Eng × Nat :=
  e.inq.foldl (fun (a : Eng × Nat) x =>
    let (e, n) := a
    if ownerOf e x.1 ≠ .hostDma then ({ e with inq := e.inq ++ [x] }, n)
    else
      let p := nth 0 e.inPtr x.1
      if 2 ^ 17 < p + x.2.length then (e, n + 1)
      else ({ scratchWrite x.1 p x.2 e with
        inPtr := e.inPtr.set x.1 (p + x.2.length)
        landed := e.landed.set x.1 (nth 0 e.landed x.1 + x.2.length) }, n)) ({ e with inq := [] }, 0)

/-- Count discarded stream data (11 R486, R489). -/
def noteStreamDrop (n : Nat) (s : State) : State :=
  if n = 0 then s else setE2e (fun c => { c with streamDrop := satAdd 16 c.streamDrop n }) s

/-- Land what may land in an engine. -/
def landEngine (n : Nat) (s : State) : State :=
  let x := landInbound (engAt s n)
  noteStreamDrop x.2 (modEng n (fun _ => x.1) s)

/-- Hand a bank to an owner; the inbound pointer returns to 0 when HOST_DMA becomes its owner (R268; 11 R486). -/
def handBank (bank : Nat) (o : BankOwner) (e : Eng) : Eng :=
  { e with own := e.own.set bank o,
           inPtr := if o = .hostDma && ownerOf e bank ≠ .hostDma then e.inPtr.set bank 0 else e.inPtr }

/-- The owner of a code; 3 is COMPUTE (R270). -/
def bankOwnerOf (c : Nat) : BankOwner := if c = 1 then .mover else if c = 2 then .hostDma else .compute

/-- The code of an owner (R308). -/
def bankCode : BankOwner → Nat
  | .compute => 0 | .mover => 1 | .hostDma => 2

/-! Operations (R274, R275, R287) -/

/-- The running plan of an engine with its run. -/
def runOf (s : State) (n : Nat) : Option (Plan × Run) :=
  let e := engAt s n
  match s.fe.plans.find? fun p => p.engs.contains n with
  | some p => if e.st = .running || e.st = .parked then p.run.map fun r => (p, r) else none
  | none => none

/-- Operation i of an engine's stream; beyond its end the engine has ended. -/
def opAt (p : Plan) (n i : Nat) : OpD :=
  let f := nth (0, 0) p.streams (relEngine p n)
  if i < f.2 then nth { opc := 0x0F } p.ops (f.1 + i) else { opc := 0x0F }

/-- Operations of the compute port that write a destination. -/
def onMacs (opc : Nat) : Bool := opc == 2 || opc == 3 || opc == 4 || opc == 5

/-- Operations of the compute port (R275). -/
def onComp (opc : Nat) : Bool := onMacs opc || opc == 9

/-- Operations of the mover port. -/
def onMover (opc : Nat) : Bool := opc == 1 || opc == 6 || opc == 7

/-- A sync slot of an engine. -/
def slotVal (e : Eng) (k : Nat) : Nat := nth 0 e.sync k

/-- The wait of an operation is satisfied (R287). -/
def waitMet (e : Eng) (d : OpD) : Bool := !d.waitEn || decide (d.waitCnt ≤ slotVal e d.waitSlot)

/-- Both ports are idle. -/
def portsIdle (e : Eng) : Bool := e.comp.isNone && e.mov.isNone

/-! Blocked queues (R297) -/

/-- What a queue waits for, as a wait-graph record shows it: WAIT, PORT, TARGET, NEED, HAVE and the operation (R298). -/
structure WaitRec where
  /-- OP_INDEX. -/
  op : Nat := 0
  /-- WAIT. -/
  wait : Nat := 0
  /-- PORT. -/
  port : Nat := 0
  /-- TARGET. -/
  target : Nat := 0
  /-- NEED. -/
  need : Nat := 0
  /-- HAVE. -/
  have' : Nat := 0
deriving DecidableEq, Repr

/-- Scratch banks that an operation uses, in the order of its operands (R275, R276, R329; 09 R399). -/
def opBanks (d : OpD) : List Nat :=
  let b := fun (x : BitVec 64) => if bits x.toNat 63 60 = 0 then [bits x.toNat 18 17] else []
  match d.opc with
  | 2 => bits d.param.toNat 18 17 :: b d.dst
  | 3 => bits d.param.toNat 18 17 :: b d.dst
  | 1 => b d.src ++ b d.dst
  | 4 => b d.src ++ b d.dst
  | 5 => b d.src ++ b d.dst
  | 6 => b d.src
  | _ => []

/-- The owner that a port needs. -/
def portOwner (mover : Bool) : BankOwner := if mover then .mover else .compute

/-- A bank of an operation that its port does not own (R267). -/
def foreignBank (e : Eng) (mover : Bool) (d : OpD) : Option Nat :=
  (opBanks d).find? fun b => ownerOf e b ≠ portOwner mover

/-- LEN of a MOVE, SEND or RECV (R275). -/
def moveLen (d : OpD) : Nat := max 1 (bits d.param.toNat 16 0)

/-- A barrier context by its index. -/
def barAt (s : State) (i : Nat) : Option Bar := s.fe.bars.find? fun b => b.idx = i

/-- Change a barrier context. -/
def modBar (i : Nat) (f : Bar → Bar) (s : State) : State :=
  setFe (fun c => { c with bars := mapIf (fun b => b.idx = i) f c.bars }) s

/-- A barrier's handle (R295). -/
def barHandle (b : Bar) : Nat := b.idx + 256 * b.gen

/-- The barrier context of a tenant that a handle names. -/
def barOf (s : State) (h tid : Nat) : Option Bar :=
  s.fe.bars.find? fun b => b.idx = h % 256 && b.gen = h / 256 % 256 && b.tid = tid

/-- The context of a BARRIER operand (R276). -/
def opBar (s : State) (p : Plan) (r : Run) (d : OpD) : Option Bar :=
  let k := bits d.src.toNat 4 0
  if k < 16 then (p.bars[k]?).bind (barAt s)
  else if k < 24 then barOf s ((nth {} r.args (k - 16)).win % 2 ^ 16) p.tid else none

/-- The barrier in whose BARRIER an engine waits: the operation in execution on its compute port (R275, R294). -/
def engineBar (s : State) (n : Nat) : Option Bar :=
  (runOf s n).bind fun x => (engAt s n).comp.bind fun f =>
    let d := opAt x.1 n f.i
    if d.opc = 9 then opBar s x.1 x.2 d else none

/-- What the operation of a port waits for: none where it is not blocked (R297). -/
def flightWait (s : State) (n : Nat) (p : Plan) (mover : Bool) (f : Flight) : Option WaitRec :=
  let e := engAt s n
  let d := opAt p n f.i
  let w : WaitRec := { op := f.i, port := b2n mover }
  if e.st = .parked then some { w with wait := 5 }
  else if d.opc = 9 then
    match engineBar s n with
    | some b => some { w with
        wait := 2, target := b.idx, need := b.mask.length + b.ext, have' := b.arrived.length + b.extArr }
    | none => some { w with wait := 2 }
  else if s.fe.reexec.any fun x => x.eng = n && !mover then none
  else match foreignBank e mover d with
    | some b => some { w with wait := 3, target := b, need := bankCode (portOwner mover), have' := bankCode (ownerOf e b) }
    | none =>
      if d.opc = 7 then
        let b := bits d.param.toNat 21 20
        if nth 0 e.landed b < moveLen d then
          some { w with wait := 4, target := b, need := moveLen d, have' := nth 0 e.landed b }
        else none
      else none

/-- What the next operation of the stream waits for: outside none where it does not wait on anything of R297; inside none
where it only waits for the engine's own ports. -/
def issueWait (s : State) (n : Nat) (p : Plan) : Option (Option WaitRec) :=
  let e := engAt s n
  let d := opAt p n e.pc
  let w : WaitRec := { op := e.pc, port := b2n (onMover d.opc) }
  if (onComp d.opc && e.comp.isSome) || (onMover d.opc && e.mov.isSome)
      || ((d.opc = 8 || d.opc = 0x0F) && !portsIdle e) then some none
  else if !waitMet e d then
    some (some { w with wait := 1, target := d.waitSlot, need := d.waitCnt, have' := slotVal e d.waitSlot })
  else none

/-- What the inbound queue waits for (R267, R297). -/
def inboundWait (e : Eng) : Option WaitRec :=
  (e.inq.head?).map fun x =>
    { op := e.pc, wait := 3, port := 2, target := x.1, need := bankCode .hostDma, have' := bankCode (ownerOf e x.1) }

/-- The queues of an engine with work pending, each blocked with its record or not. -/
def engineQueues (s : State) (n : Nat) (p : Plan) : List (Option WaitRec) :=
  let e := engAt s n
  if e.ended then []
  else
    (e.comp.toList.map fun f => flightWait s n p false f) ++ (e.mov.toList.map fun f => flightWait s n p true f)
      ++ (match issueWait s n p with
        | some none => [] | some (some w) => [some w]
        | none => [if e.st = .parked then some { op := e.pc, wait := 5 } else none])
      ++ (e.inq.head?.toList.map fun _ => inboundWait e)

/-- Every queue of a run with work pending is blocked (R297). -/
def runBlocked (s : State) (p : Plan) : Bool :=
  let qs := (p.engs.map fun n => engineQueues s n p).flatten
  p.run.isSome && !qs.isEmpty && qs.all Option.isSome

/-- A run that is not blocked breaks its blocked interval (R297). -/
def noteBreak (i : Nat) (s : State) : State :=
  match planAt s i with
  | none => s
  | some p => if runBlocked s p then s else modPlan i (fun p => { p with run := p.run.map fun r => { r with progress := s.now } }) s

/-- A run has done work: its blocked interval begins anew. -/
def noteWork (i : Nat) (s : State) : State :=
  modPlan i (fun p => { p with run := p.run.map fun r => { r with progress := s.now } }) s

/-! Sync slots (R287, R292, R296) -/

/-- Waiting SYNC_WAITs on a slot of a plan whose count has been reached complete (R296). -/
def wakeSlot (p : Plan) (n k : Nat) (s : State) : State :=
  (s.vrb.waiting.filter fun w => match w.why with
    | .slot h e j c _ => h == planHandle p && e == n && j == k && decide (c ≤ slotVal (engAt s n) k)
    | _ => false).foldl (fun s w => complete w { mkResp s w.req .ok with r0 := w64 (slotVal (engAt s n) k) } s) s

/-- An engine of a run faults in a way that does not park it (R291, R299): a record, and the abort of the run. -/
def engineFault (i n kind : Nat) (st : Status) (s : State) : State :=
  let tid := match planAt s i with | some p => p.tid | none => 0xFFFF
  abortRun i st (some n) (cairnAt 0x07 kind n (n / 64 * 2 ^ 32) 0 (0x70 + n / 64) tid st s)

/-- Add to a sync slot of a plan's engine; beyond 0xFFFF the run aborts (R292). -/
def addSlot (p : Plan) (n k c : Nat) (s : State) : State :=
  let v := slotVal (engAt s n) k + c
  let s := wakeSlot p n k (modEng n (fun e => { e with sync := setNthD 0 k (min 0xFFFF v) e.sync }) s)
  if 0xFFFF < v then engineFault p.idx n 0x07 .engineFault s else s

/-- The signal of a completed operation (R287). -/
def signal (p : Plan) (d : OpD) (s : State) : State :=
  if d.sigEn then
    match p.engs[d.sigEng]? with
    | some m => addSlot p m d.sigSlot 1 s
    | none => s
  else s

/-- An engine has issued its next operation: the pc advances, and its wait is paid (R287). -/
def advance (n : Nat) (d : OpD) (s : State) : State :=
  modEng n (fun e => { e with
    pc := e.pc + 1
    sync := if d.waitEn then setNthD 0 d.waitSlot (slotVal e d.waitSlot - d.waitCnt) e.sync else e.sync }) s

/-! Barriers (R293 to R296) -/

/-- One phase of a barrier completes: its waits end (R294, R296). -/
def barPhase (b : Bar) (s : State) : State :=
  let ph := (b.phase + 1) % 65536
  let s := modBar b.idx (fun b => { b with phase := ph, arrived := [], extArr := b.extArr - b.ext }) s
  let s := ((s.fe.engs.filter fun e => (engineBar s e.n).map Bar.idx = some b.idx).map Eng.n).foldl (fun s n =>
    match runOf s n, (engAt s n).comp with
    | some (p, _), some f => signal p (opAt p n f.i) (noteWork p.idx (modEng n (fun e => { e with comp := none }) s))
    | _, _ => s) s
  (s.vrb.waiting.filter fun w => match w.why with | .barrier h _ _ => h == barHandle b | _ => false).foldl
    (fun s w => complete w { mkResp s w.req .ok with r0 := w64 ph } s) s

/-- Phases of a barrier complete while their arrivals are there; n bounds their number (R294). -/
def barAdvance (i : Nat) : Nat → State → State
  | 0, s => s
  | n + 1, s =>
    match barAt s i with
    | none => s
    | some b =>
      if (b.mask.all b.arrived.contains) && decide (b.ext ≤ b.extArr) then
        let s := barPhase b s
        if b.mask.isEmpty && b.ext ≠ 0 then barAdvance i n s else s
      else s

/-- An arrival at a barrier has been counted. -/
def barArrived (i : Nat) (s : State) : State := barAdvance i 65536 s

/-! Parks (R300 to R302) -/

/-- Stack and page of a PA (R300). -/
def pageOfPa (pa : Nat) : Nat × Nat := (pa / 2 ^ 36, pa % 2 ^ 36 / 65536)

/-- An engine of a run faults on a page: it joins the page's open record, opens one, or its run aborts where all are open
(R300, R301). -/
def parkOn (n stack page : Nat) (s : State) : State :=
  match runOf s n with
  | none => s
  | some (p, r) =>
    let m : BitVec 64 := 1#64 <<< (n % 64)
    match s.fe.parks.find? fun k => k.stack = stack && k.page = page with
    | some k =>
      modEng n (fun e => { e with st := .parked, park := some k.idx }) (setFe (fun c => { c with
        parks := mapIf (fun x => x.idx = k.idx) (fun x => { x with mask := x.mask ||| m }) c.parks }) s)
    | none =>
      match findFree (fun i => !(s.fe.parks.any fun k => k.idx = i)) 64 0 with
      | none => engineFault p.idx n 0x09 .poisoned (setFe (fun c => { c with parkFull := satAdd 16 c.parkFull 1 }) s)
      | some i =>
        let s := setFe (fun c => { c with parks := c.parks ++
          [{ idx := i, tid := p.tid, stack := stack, page := page, plan := p.idx, mask := m, kind := 1 }] }) s
        let s := modEng n (fun e => { e with st := .parked, park := some i }) s
        event r.node 0x08 .poisoned p.tid (planHandle p) i (stack * 2 ^ 32 + page) m.toNat
          (cairnAt 0x07 1 n (stack * 2 ^ 32 + page) 0 (0x70 + n / 64) p.tid .poisoned s)

/-- The first line of a range of DRAM that gives no data. -/
def badLine (s : State) (pa len : Nat) : Option Nat :=
  ((s.ecc.errs.filter fun x => decide (pa / 128 ≤ x.1) && decide (x.1 * 128 < pa + len) && decide (pa < (x.1 + 1) * 128)
    && (match decodeLine x.2 (erasedLane s (paStack (x.1 * 128)) (paPch (x.1 * 128))) with
      | .poison => true | .uncorrectable => true | _ => false)).map fun x => x.1 * 128).foldl
    (fun a x => match a with | none => some x | some y => some (min x y)) none

/-- The first bad address of the DRAM parts of an access. -/
def badPart (s : State) (ps : List Part) : Option Nat :=
  ps.findSome? fun p => (pieceAddr s p).bind fun pa => badLine s pa p.len

end Sys2Proof.Machine
end

