-- ==== Sys2Proof/Machine/PlanParse.lean ====
section
/-! DEFINITION. A Benan plan: its header, sections and operations, what PLAN_LOAD clamps and denies, the resources it needs and
the engines it takes (07_facet_engines R271 to R282; 08_narrow_arithmetic R329). -/

namespace Sys2Proof.Machine

/-- A number clamped, with 1 where the clamp changed it (R277). -/
def clampN (lo hi x : Nat) : Nat × Nat := (clampTo lo hi x, b2n (clampTo lo hi x != x))

/-- A code of an enumeration, with its default and 1 where it is reserved (R277). -/
def defaultN (ok : Bool) (dflt x : Nat) : Nat × Nat := if ok then (x, 0) else (dflt, 1)

/-- A group of engines; none is any stack (R272). -/
structure GroupD where
  /-- STACK. -/
  stack : Option Nat := none
  /-- COUNT. -/
  count : Nat := 1
deriving DecidableEq, Repr

/-- A TILE_MAP entry (R272). -/
structure TileD where
  /-- WS_REF. -/
  ref : Nat := 0
  /-- ENGINE. -/
  eng : Nat := 0
  /-- TILE. -/
  tile : Nat := 0
deriving DecidableEq, Repr

/-- A BARRIERS entry (R272). -/
structure BarD where
  /-- Plan-relative engines of the mask. -/
  mask : List Nat := []
  /-- EXT_COUNT. -/
  ext : Nat := 0
deriving DecidableEq, Repr

/-- A plan as its bundle states it, clamped (R271, R272). -/
structure PlanIn where
  /-- KEY_IDX. -/
  key : Nat := 0
  /-- TID_BIND. -/
  bind : Nat := 0xFFFF
  /-- ENGINE_COUNT. -/
  engines : Nat := 1
  /-- FAULT_ARG. -/
  faultArg : Nat := 255
  /-- SCRATCH_KIB. -/
  kib : List Nat := []
  /-- SYNC_MASK. -/
  syncMask : BitVec 32 := 0
  /-- TC4_SLOTS. -/
  tc4 : Nat := 0
  /-- ENGINE_GROUPS. -/
  groups : List GroupD := []
  /-- STREAMS. -/
  streams : List (Nat × Nat) := []
  /-- OPS. -/
  ops : List OpD := []
  /-- TILE_MAP. -/
  tiles : List TileD := []
  /-- SYNC_SCHED. -/
  sync : List (Nat × Nat × Nat) := []
  /-- BARRIERS. -/
  bars : List BarD := []
  /-- WS_REFS. -/
  refs : List (List Byte) := []
  /-- ARGS. -/
  args : List ArgDecl := []
  /-- Clamps and defaults applied. -/
  clamps : Nat := 0
  /-- The layout obeys R271 and R272. -/
  ok : Bool := false
deriving DecidableEq, Repr

/-- Clamps and defaults in PARAM and FMT of an operation (R245, R275, R277; 08 R328, R329; 09 R399). -/
def paramClamps (opc fmt param : Nat) : Nat :=
  match opc with
  | 1 => (clampN 1 131072 (bits param 16 0)).2
  | 2 => (clampN 1 64 (bits param 25 19)).2 + (clampN 6 20 (bits param 30 26)).2 + b2n (bits param 32 31 == 3)
      + b2n (fmt % 4 == 3)
  | 3 => (clampN 1 511 (bits param 31 23)).2 + b2n (fmt % 4 == 3)
  | 4 => b2n (decide (4 < bits param 3 0)) + b2n (fmt % 4 == 3)
  | 5 => b2n (decide (2 < bits param 3 0)) + b2n (decide (3 < bits param 7 4))
  | 6 => (clampN 1 131072 (bits param 16 0)).2
  | 7 => (clampN 1 131072 (bits param 16 0)).2
  | 8 => b2n (bits param 3 2 == 3)
  | _ => 0

/-- An operation descriptor, clamped, with its number of clamps and defaults (R274, R275, R277). -/
def parseOp (l : List Byte) : OpD × Nat :=
  let o := field l 0 1
  let (opc, c0) := defaultN (decide (o ≤ 9) || o == 0x0F) 0 o
  let fl := field l 1 1
  let (ws, c1) := clampN 0 31 (field l 2 1)
  let (wc, c2) := clampN 1 255 (field l 3 1)
  let (ss, c3) := clampN 0 31 (field l 6 1)
  let fmt := field l 7 1
  let param := field l 0x18 8
  ({ opc := opc, waitEn := bit fl 0, sigEn := bit fl 1, waitSlot := ws, waitCnt := wc, sigEng := field l 4 2, sigSlot := ss,
     fmt := fmt, src := w64 (field l 8 8), dst := w64 (field l 0x10 8), param := w64 param },
    c0 + c1 + c2 + c3 + paramClamps opc fmt param)

/-- An ENGINE_GROUPS entry with its clamps (R272). -/
def parseGroup (l : List Byte) : GroupD × Nat :=
  let st := field l 0 1
  let (n, c) := clampN 1 64 (field l 2 2)
  if st = 0xFF then ({ stack := none, count := n }, c)
  else
    let (k, c') := clampN 0 31 st
    ({ stack := some k, count := n }, c + c')

/-- Sizes of the sections of a plan: fixed for RESOURCES, and COUNT entries behind a prefix for the others (R272). -/
def planSectLen (l : List Byte) (d : Sect) : Bool :=
  let w := match d.typ with
    | 2 => 4 | 3 => 8 | 4 => 32 | 5 => 8 | 6 => 8 | 7 => 264 | 8 => 48 | 9 => 16 | _ => 0
  if d.typ = 1 then d.len = 32
  else if w = 0 then true
  else decide (8 ≤ d.len) && d.len = 8 + w * field l d.ofs 4

/-- The fields of the header that fix the layout of the bundle (R271, R273 reason 0x01). -/
def planHeadOk (l : List Byte) : Bool :=
  let len := field l 0x10 4
  let n := field l 0x14 2
  field l 0 8 = 0x3130304E414E4542 && field l 8 2 = 1 && field l 0x0A 2 = 0x80
    && decide (0x1000 ≤ len) && decide (len ≤ 0x1000000) && len % 64 = 0 && decide (4 ≤ n) && decide (n ≤ 16)

/-- The numbers of the bits set in a mask of bytes. -/
def maskBits (l : List Byte) : List Nat :=
  (List.range (8 * l.length)).filter fun i => (l.getD (i / 8) 0).getLsbD (i % 8)

/-- Read a plan from its bundle (R271, R272, R277). -/
def parsePlan (l : List Byte) : PlanIn :=
  let total := field l 0x10 4
  let ds := sectDir l 0x80 (field l 0x14 2)
  let ents := fun (t w : Nat) => sectEntries l ds t 8 w (sectCount l ds t)
  let r := sectBytes l ds 1
  let gs := (ents 2 4).map parseGroup
  let st := (ents 3 8).map fun x => (field x 0 4, clampN 1 1048576 (field x 4 4))
  let ops := (ents 4 32).map parseOp
  let sy := (ents 6 8).map fun x => (field x 0 2, clampN 0 31 (field x 2 1), field x 4 2)
  let ar := (ents 9 16).map fun x => (defaultN (decide (field x 0 1 ≤ 4)) 0 (field x 0 1), field x 8 8)
  let (nb, cb) := clampN 0 16 (field r 0x0C 1)
  let (tc4, ct) := clampN 0 128 (field r 0x10 4)
  let (ne, ce) := clampN 1 2048 (field l 0x1A 2)
  let (na, ca) := clampN 0 8 (field l 0x1C 1)
  let bars := (ents 7 264).map fun x => ({ mask := maskBits (slice x 0 256), ext := field x 256 2 } : BarD)
  let groups := gs.map Prod.fst
  let streams := st.map fun x => (x.1, x.2.1)
  { key := field l 0x16 1, bind := field l 0x18 2, engines := ne, faultArg := field l 0x1D 1
    kib := (List.range 4).map fun i => field r (2 * i) 2, syncMask := BitVec.ofNat 32 (field r 8 4), tc4 := tc4
    groups := groups, streams := streams, ops := ops.map Prod.fst
    tiles := (ents 5 8).map fun x => { ref := field x 0 1, eng := field x 2 2, tile := field x 4 4 }
    sync := sy.map fun x => (x.1, x.2.1.1, x.2.2), bars := bars, refs := ents 8 48
    args := ar.map fun x => { kind := x.1.1, len := x.2 }
    clamps := sumBy (fun x => x.2) gs + sumBy (fun x => x.2.2) st + sumBy (fun x => x.2) ops + sumBy (fun x => x.2.1.2) sy
      + sumBy (fun x => x.1.2) ar + cb + ct + ce + ca
    ok := sectsPlaced 0x80 total ds && ds.all (planSectLen l)
      && ([1, 2, 3, 4].all fun t => (sectOf ds t).isSome)
      && sumBy GroupD.count groups = ne && streams.length = ne
      && (streams.all fun x => decide (x.1 + x.2 ≤ ops.length))
      && bars.length = nb && sectCount l ds 8 = field r 0x14 2 && ar.length = na }

/-! Denials (R273) -/

/-- Bytes of a bank that a plan declares. -/
def bankBytes (p : PlanIn) (b : Nat) : Nat := nth 0 p.kib b * 1024

/-- A scratch operand of n bytes lies within what the plan declares. -/
def scratchOk (p : PlanIn) (x n : Nat) : Bool :=
  decide (bits x 16 0 + max 1 n ≤ bankBytes p (bits x 18 17))

/-- A window argument operand of n bytes lies within what the plan declares, for reading or for writing. -/
def argOk (p : PlanIn) (x n : Nat) (write : Bool) : Bool :=
  match p.args[bits x 59 56]? with
  | some a => (if write then a.kind == 1 || a.kind == 2 else a.kind == 0 || a.kind == 2)
      && decide (bits x 39 0 + max 1 n ≤ a.len)
  | none => false

/-- An argument of a kind. -/
def argKind (p : PlanIn) (i k : Nat) : Bool :=
  match p.args[i]? with | some a => a.kind == k | none => false

/-- The operands of an operation name what the plan declares (R273 reason 0x06); a destination that is a weight-set tile has a
reason of its own. -/
def operandsOk (p : PlanIn) (d : OpD) : Bool :=
  let s := d.src.toNat
  let t := d.dst.toNat
  let ss := bits s 63 60
  let ts := bits t 63 60
  let n := moveLen d
  let bank := fun (b : Nat) => decide (0 < nth 0 p.kib b)
  match d.opc with
  | 1 => (match ss with
      | 0 => scratchOk p s n | 1 => decide (bits s 59 52 < p.refs.length) | 2 => argOk p s n false | _ => false)
      && (match ts with | 0 => scratchOk p t n | 1 => true | 2 => argOk p t n true | _ => false)
  | 2 => ss = 1 && decide (bits s 59 52 < p.refs.length) && (ts = 1 || (ts = 0 && bank (bits t 18 17)))
      && bank (bits d.param.toNat 18 17)
  | 3 => ss = 2 && argKind p (bits s 59 56) 4
      && (match ts with | 0 => scratchOk p t 1 | 1 => true | 2 => argOk p t 1 true | _ => false)
      && bank (bits d.param.toNat 18 17)
  | 4 => ss = 0 && scratchOk p s 1 && (ts = 1 || (ts = 0 && scratchOk p t 1))
  | 5 => (ss = 0 && scratchOk p s 1 || ss = 2 && argOk p s 1 false)
      && (match ts with | 0 => scratchOk p t 1 | 1 => true | 2 => argOk p t 1 true && argOk p t 1 false | _ => false)
  | 6 => ss = 0 && scratchOk p s n && (match ts with | 1 => true | 2 => argOk p t n true | 3 => true | _ => false)
  | 7 => bank (bits d.param.toNat 21 20)
  | 8 => bank (bits d.param.toNat 1 0)
  | 9 => let k := bits s 4 0
      if k < 16 then decide (k < p.bars.length) else decide (k < 24) && argKind p (k - 16) 3
  | _ => true

/-- An operation names sync slots and engines that the plan declares. -/
def syncOk (p : PlanIn) (d : OpD) : Bool :=
  (!d.waitEn || p.syncMask.getLsbD d.waitSlot)
    && (!d.sigEn || (p.syncMask.getLsbD d.sigSlot && decide (d.sigEng < p.engines)))

/-- An operation writes a weight-set tile (R273 reason 0x07). -/
def writesTile (d : OpD) : Bool := (onMacs d.opc || d.opc == 1 || d.opc == 6) && bits d.dst.toNat 63 60 == 1

/-- Everything but the operations names only what the plan declares. -/
def declaredOk (p : PlanIn) : Bool :=
  (p.tiles.all fun x => decide (x.ref < p.refs.length) && decide (x.eng < p.engines))
    && (p.sync.all fun x => decide (x.1 < p.engines) && p.syncMask.getLsbD x.2.1)
    && (p.bars.all fun b => b.mask.all fun e => decide (e < p.engines))

/-- The group of each plan-relative engine (R272). -/
def engineGroups (p : PlanIn) : List GroupD := (p.groups.map fun g => List.replicate g.count g).flatten

/-- The resident set of a tenant with a digest. -/
def setByDigest (s : State) (tid : Nat) (d : List Byte) : Option Wset :=
  s.ws.sets.find? fun x => x.tid = tid && x.st = .resident && x.digest = d

/-- A tile of a reference, where its set is resident. -/
def refTile (s : State) (tid : Nat) (refs : List (List Byte)) (ref tile : Nat) : Option (Wset × Tile) :=
  (refs[ref]?).bind fun d => (setByDigest s tid d).bind fun x => (x.tiles[tile]?).map fun t => (x, t)

/-- A TILE_MAP entry pairs a tile with an engine that is not on its stack (R273 reason 0x05). -/
def tileElsewhere (s : State) (tid : Nat) (p : PlanIn) (x : TileD) : Bool :=
  match (engineGroups p)[x.eng]? with
  | none => false
  | some g => match g.stack with
    | none => true
    | some k => match refTile s tid p.refs x.ref x.tile with
      | some (_, t) => t.stack != k
      | none => false

/-- Why a plan is malformed, apart from the tile-shape check; 0 where it is not (R273, R279). -/
def planDenied (s : State) (tid : Nat) (l : List Byte) (p : PlanIn) : Nat :=
  let slot := 4 + p.key
  let usable := decide (p.key < 4) && keyUsable s slot
  if !p.ok then 1
  else if usable && !signedBy (keyOf s slot) l (field l 0x10 4) then 2
  else if !usable then 3
  else if p.bind ≠ 0xFFFF && p.bind ≠ tid then 4
  else if p.tiles.any (tileElsewhere s tid p) then 5
  else if !(declaredOk p && p.ops.all fun d => operandsOk p d && syncOk p d) then 6
  else if p.ops.any writesTile then 7
  else 0

/-! Resources (R280, R281) -/

/-- FREE engines of a stack, lowest index first. -/
def freeEngines (s : State) (k : Nat) : List Nat :=
  if k < stackCount s then ((List.range 64).map fun i => 64 * k + i).filter fun n => (engAt s n).st = .free else []

/-- Take n engines of a stack. -/
def takeOf (k n : Nat) (free : List (Nat × List Nat)) : List (Nat × List Nat) × List Nat :=
  let l := assocD [] k free
  (setAssoc k (l.drop n) free, l.take n)

/-- Stacks by their FREE engines remaining, most first, ties to the lower number (R281). -/
def mostFree (free : List (Nat × List Nat)) : List Nat :=
  (sortBy (fun a b => b.2.length ≤ a.2.length) free).map Prod.fst

/-- Take n engines from stacks in an order. -/
def takeFrom : List Nat → Nat → List (Nat × List Nat) → List (Nat × List Nat) × List Nat
  | [], _, free => (free, [])
  | k :: ks, n, free =>
    let (free, a) := takeOf k n free
    if a.length = n then (free, a)
    else
      let (free, b) := takeFrom ks (n - a.length) free
      (free, a ++ b)

/-- What placing the groups yields: engines per group, or the first group that does not fit with its shortfall. -/
structure Placing where
  /-- FREE engines left. -/
  free : List (Nat × List Nat) := []
  /-- (group number, engines). -/
  got : List (Nat × List Nat) := []
  /-- Class 0x02 or 0x03 and RESULT2. -/
  short : Option (Nat × Nat) := none
deriving DecidableEq, Repr

/-- Take the engines of a fixed-stack group (R281). -/
def placeFixed (a : Placing) (x : Nat × GroupD) : Placing :=
  match x.2.stack with
  | none => a
  | some k =>
    if a.short.isSome then a
    else
      let (free, e) := takeOf k x.2.count a.free
      if e.length < x.2.count then { a with short := some (2, k * 2 ^ 16 + (x.2.count - e.length)) }
      else { a with free := free, got := a.got ++ [(x.1, e)] }

/-- Take the engines of an any-stack group (R281). -/
def placeAny (a : Placing) (x : Nat × GroupD) : Placing :=
  if x.2.stack.isSome || a.short.isSome then a
  else
    let (free, e) := takeFrom (mostFree a.free) x.2.count a.free
    { a with free := free, got := a.got ++ [(x.1, e)] }

/-- Place the groups of a plan (R280 classes 0x02 and 0x03, R281). -/
def placeGroups (s : State) (p : PlanIn) : Placing :=
  let gs := (List.range p.groups.length).zip p.groups
  let a := gs.foldl placeFixed { free := (List.range (stackCount s)).map fun k => (k, freeEngines s k) }
  let need := sumBy (fun g => if g.stack.isNone then g.count else 0) p.groups
  let left := sumBy (fun x => x.2.length) a.free
  if a.short.isNone && decide (left < need) then { a with short := some (3, 0xFF * 2 ^ 16 + (need - left)) }
  else gs.foldl placeAny a

/-- The logical engines of a placing, in plan-relative order. -/
def placedEngines (p : PlanIn) (a : Placing) : List Nat :=
  ((List.range p.groups.length).map fun i => assocD [] i a.got).flatten

/-- Bytes of plan store that streams use on a stack (R280 class 0x06, R282). -/
def storeUsed (engs : List Nat) (streams : List (Nat × Nat)) (k : Nat) : Nat :=
  sumBy (fun x => if x.1 / 64 = k then 32 * x.2.2 else 0) (engs.zip streams)

/-- KiB short in the plan store of a stack. -/
def storeShort (s : State) (engs : List Nat) (streams : List (Nat × Nat)) (k : Nat) : Nat :=
  ceilDiv (storeUsed engs streams k + sumBy (fun p => storeUsed p.engs p.streams k) s.fe.plans - 32 * 2 ^ 20) 1024

/-- The first resource class that does not fit, with RESULT2 (R280). -/
def planRefused (pick : Nat) (s : State) (tid : Nat) (p : PlanIn) (a : Placing) : Option (Nat × Nat) :=
  let engs := placedEngines p a
  let kib := p.kib.foldl max 0
  let freeBars := 256 - s.fe.bars.length
  let freeTc4 := 128 - s.rte.tc4Slots.length
  if (freeHandle s 2 256 pick fun i => s.fe.plans.any fun x => x.idx = i).isNone then some (1, 1)
  else match a.short with
    | some x => some x
    | none =>
      if 128 < kib then some (4, kib - 128)
      else if freeBars < p.bars.length then some (5, p.bars.length - freeBars)
      else match firstShort (storeShort s engs p.streams) ((engs.map fun n => n / 64).eraseDups) with
        | some (_, n) => some (6, n)
        | none =>
          match p.refs.findIdx? fun d => (setByDigest s tid d).isNone with
          | some i => some (7, i)
          | none => if freeTc4 < p.tc4 then some (8, p.tc4 - freeTc4) else none

/-! The tile-shape check (R279; 08 R329) -/

/-- ACT_OFS of a GEMV (08 R329). -/
def actOfs (d : OpD) : Nat := bits d.param.toNat 16 6 * 64

/-- BATCH of a GEMV (08 R329). -/
def gemvBatch (d : OpD) : Nat := clampTo 1 64 (bits d.param.toNat 25 19)

/-- The output format of a GEMV is BF16 (08 R324, R328). -/
def gemvBf (d : OpD) : Bool := bit d.fmt 2 && !d.param.getLsbD 34

/-- Bytes of a GEMV's outputs with its flag record (08 R330). -/
def gemvOutLen (d : OpD) (rows : Nat) : Nat :=
  gemvBatch d * outStride (gemvBf d) rows + if d.param.getLsbD 33 then 8 else 0

/-- An operation reads a weight-set tile: a GEMV, and a MOVE whose SRC names one (R275, R276). -/
def readsTile (d : OpD) : Bool := d.opc == 2 || (d.opc == 1 && bits d.src.toNat 63 60 == 1)

/-- The tile of a GEMV or of a MOVE on an engine: 0x06 where it does not exist or the ranges of a GEMV pass what the plan declares,
0x05 where it lies on another stack than the engine (R290; 01 R12). -/
def gemvShape (s : State) (tid : Nat) (p : PlanIn) (n : Nat) (d : OpD) : Nat :=
  if !readsTile d then 0
  else match refTile s tid p.refs (bits d.src.toNat 59 52) (bits d.src.toNat 31 0) with
    | none => 6
    | some (_, t) =>
      let f := afmtOf (d.fmt % 4)
      let act := actOfs d + gemvBatch d * actStride f t.cols
      if t.stack ≠ n / 64 then 5
      else if d.opc ≠ 2 then 0
      else if bankBytes p (bits d.param.toNat 18 17) < act || !scratchOk p d.dst.toNat (gemvOutLen d t.rows) then 6
      else 0

/-- The tile-shape check over all streams. -/
def planShape (s : State) (tid : Nat) (p : PlanIn) (engs : List Nat) : Nat :=
  (engs.zip p.streams).foldl (fun a x =>
    ((p.ops.drop x.2.1).take x.2.2).foldl (fun a d => if a ≠ 0 then a else gemvShape s tid p x.1 d) a) 0

/-! The plan (R282) -/

/-- The lowest-numbered free TC4 slots (11 R480). -/
def freeTc4Slots (s : State) (n : Nat) : List Nat :=
  ((List.range 256).filter fun k => !(s.rte.tc4Slots.any fun x => x.1 = k)).take n

/-- Allocate the plan's own barriers, translated to logical numbers (R282, R295); their indices in order. -/
def allocBars (tid plan : Nat) (engs : List Nat) : List BarD → State → State × List Nat
  | [], s => (s, [])
  | b :: bs, s =>
    match findFree (fun i => !(s.fe.bars.any fun x => x.idx = i)) 256 0 with
    | none => (s, [])
    | some i =>
      let bar : Bar := { idx := i, gen := nextGen s 3 i, tid := tid, plan := some plan
                         mask := b.mask.map fun e => nth 0 engs e, ext := b.ext }
      let s := useIndex 3 i bar.gen (setFe (fun c => { c with bars := c.bars ++ [bar] }) s)
      let (s, l) := allocBars tid plan engs bs s
      (s, i :: l)

/-- Enter a plan whose checks have passed: its slot, its engines, its barriers and its TC4 slots (R282; 11 R480). -/
def enterPlan (idx tid node : Nat) (digest : List Byte) (p : PlanIn) (engs : List Nat) (s : State) : State :=
  let gen := nextGen s 2 idx
  let (s, bars) := allocBars tid idx engs p.bars s
  let slots := freeTc4Slots s p.tc4
  let plan : Plan := {
    idx := idx, gen := gen, tid := tid, node := node, digest := digest, engs := engs, ops := p.ops, streams := p.streams
    args := p.args, syncInit := p.sync, bars := bars, wsRefs := p.refs, scratchKib := p.kib, tc4 := p.tc4
    faultArg := p.faultArg }
  let s := setFe (fun c => { c with plans := c.plans ++ [plan] }) s
  let s := setRte (fun r => { r with tc4Slots := r.tc4Slots ++ slots.map fun k => (k, idx) }) s
  let s := engs.foldl (fun s n => modEng n (fun e => { e with
    st := .reserved, tid := tid, plan := idx, own := [.compute,.compute,.compute,.compute], banks := [], sync := []
    ended := true, lastTid := some tid, idleSince := s.now }) s) s
  noteHistory 1 1 tid digest (useIndex 2 idx gen s)

end Sys2Proof.Machine
end

