-- ==== Sys2Proof/Machine/Plans.lean ====
section
/-! DEFINITION. The verbs of plans, barriers and sync slots, the deadlock detector, parks, engine faults and spares
(07_facet_engines R265 to R309; 08_narrow_arithmetic R353 to R355). -/

namespace Sys2Proof.Machine

/-! PLAN_LOAD (R278 to R283) -/

/-- The plan's bundle is there: R273, R280, the tile-shape check, and the plan (R279). -/
def planCheck (pick : Nat) (w : Waiting) (d : List Byte) (s : State) : State :=
  let tid := reqTid w.req
  let p := parsePlan d
  let deny := planDenied s tid d p
  if deny ≠ 0 then reply12 w .denied deny 0 s
  else
    let a := placeGroups s p
    let engs := placedEngines p a
    match planRefused pick s tid p a with
    | some (c, n) => reply12 w .refused c n s
    | none =>
      let shape := planShape s tid p engs
      if shape ≠ 0 then reply12 w .denied shape 0 s
      else match freeHandle s 2 256 pick fun i => s.fe.plans.any fun x => x.idx = i with
        | none => reply12 w .refused 1 1 s
        | some i =>
          let s := enterPlan i tid w.req.src (regionDigest d (field d 0x10 4)) p engs s
          reply w { mkResp s w.req .ok with
            r0 := w64 (match planAt s i with | some p => planHandle p | none => 0), r2 := w64 p.clamps } s

/-- PLAN_LOAD, SUBOP LOAD: the range of the whole bundle, as its header names its length, comes before the header's own checks (R278,
R279). -/
def planLoad (pick : Nat) (w : Waiting) (s : State) : State :=
  let r := w.req
  let h := reqWin r
  match fetchRange w (2 ^ 50) h (reqVa r) 0x80 s with
  | .stop s st => replySt w st s
  | .wait s => s
  | .ok s hd =>
    let range := (rangeParts s w.ord (reqTid r) r.src (max 0x80 (field hd 0x10 4)) (h, reqVa r, rightR)).1
    if range ≠ .ok then replySt w range s
    else if !planHeadOk hd then reply12 w .denied 1 0 s
    else match fetchRange w 0 h (reqVa r) (field hd 0x10 4) s with
      | .stop s st => replySt w st s
      | .wait s => s
      | .ok s d => planCheck pick w d s

/-- PLAN_LOAD. -/
def execPlanLoad (r : Req) (e : Env) (s : State) : Host.Outcome State Fault Refusal :=
  .next (runVerb { r with opcode := 0x50, subop := if r.subop = 1 then 0 else r.subop } e (planLoad e.pick) s)

/-- The plan of a tenant that a handle names (R278, R284). -/
def planOf (s : State) (h tid : Nat) : Option Plan :=
  s.fe.plans.find? fun p => p.idx = h % 256 && p.gen = h / 256 % 256 && p.tid = tid

/-- UNLOAD (R283). -/
def planUnload (w : Waiting) (s : State) : State :=
  match planOf s (op0 w.req % 2 ^ 16) (reqTid w.req) with
  | none => replySt w .noMapping s
  | some p => if p.run.isSome then replySt w .busy s else replySt w .ok (unloadPlan p.idx s)

/-- PLAN_UNLOAD: PLAN_LOAD with SUBOP 1. -/
def execPlanUnload (r : Req) (e : Env) (s : State) : Host.Outcome State Fault Refusal :=
  .next (runVerb { r with opcode := 0x50, subop := 1 } e planUnload s)

/-! PLAN_RUN (R284 to R288) -/

/-- The value of an argument, or the status of its record (R284; 09 R357, R362). -/
def argValue (s : State) (w : Waiting) (a : ArgDecl) (i : Nat) : Status × ArgVal :=
  let b := slice w.req.payload (16 * i) 16
  let win := field b 0 4
  let va := field b 8 8
  let tid := reqTid w.req
  let v : ArgVal := { kind := a.kind, win := win, va := w64 va, len := a.len }
  if a.kind ≤ 2 then
    ((rangeParts s w.ord tid w.req.src a.len (win % 2 ^ 24, va, a.kind + 1)).1, v)
  else if a.kind = 3 then (if (barOf s (win % 2 ^ 16) tid).isSome then .ok else .noMapping, v)
  else match kvOf s win tid with
    | none => (.noMapping, v)
    | some o => (if o.st = .lost then .poisoned else .ok, v)

/-- A run starts; the initial value of a sync slot may complete a SYNC_WAIT on it (R286, R296; 08 R354). -/
def startRun (w : Waiting) (p : Plan) (args : List ArgVal) (s : State) : State :=
  let s := modPlan p.idx (fun p => { p with run := some { node := w.req.src, args := args, since := s.now, progress := s.now } }) s
  let s := ((List.range p.engs.length).zip p.engs).foldl (fun s x => modEng x.2 (fun e => { e with
    st := .running, own := [.compute,.compute,.compute,.compute], pc := 0, ended := false
    sync := (p.syncInit.filter fun y => y.1 = x.1).foldl (fun l y => setNthD 0 y.2.1 y.2.2 l) []
    comp := none, mov := none, park := none, landed := [0,0,0,0] }) (clearFlags x.2 s)) s
  let s := ((p.syncInit.map fun y => (nth 0 p.engs y.1, y.2.1)).eraseDups).foldl (fun s y => wakeSlot p y.1 y.2 s) s
  let s := args.foldl (fun s a => if a.kind = 4 then modKv (a.win % 2 ^ 20) (fun o => { o with lastUse := s.now }) s else s) s
  waitFor w (.run p.idx) s

/-- PLAN_RUN (R284 to R286, R305; 13 R524). -/
def planRun (w : Waiting) (s : State) : State :=
  match planOf s (op0 w.req % 2 ^ 16) (reqTid w.req) with
  | none => replySt w .noMapping s
  | some p =>
    if p.run.isSome then replySt w .busy s
    else if p.storeBad || p.engs.any (engOut s) then replySt w .engineFault s
    else
      let vs := ((List.range p.args.length).zip p.args).map fun x => argValue s w x.2 x.1
      match vs.findIdx? fun v => v.1 ≠ .ok with
      | some i => reply12 w ((vs[i]?).map Prod.fst |>.getD .internal) i 0 s
      | none =>
        if p.engs.any fun n => (engAt s n).st = .substituting then againLater w s
        else startRun w p (vs.map Prod.snd) s

/-- PLAN_RUN. -/
def execPlanRun (r : Req) (e : Env) (s : State) : Host.Outcome State Fault Refusal :=
  .next (runVerb { r with opcode := 0x51 } e planRun s)

/-- Every engine of a run has executed END (R288; 08 R349). -/
def planRunEnd (i : Nat) (s : State) : State :=
  match planAt s i with
  | none => s
  | some p => match p.run with
    | none => s
    | some r =>
      if p.engs.any fun n => !(engAt s n).ended then s
      else
        let s := p.engs.foldl (fun s n => modEng n (fun e => if e.st = .running then { e with st := .reserved } else e) s)
          (modPlan i (fun p => { p with run := none }) s)
        (s.vrb.waiting.filter fun w => w.why = .run i).foldl (fun s w =>
          complete w { mkResp s w.req (if r.escAny then .okEscalated else .ok) with
            r0 := w64 (min (2 ^ 64 - 1) (s.now - r.since)), r1 := w64 0xFFFFFFFFFFFFFFFF, r2 := w64 r.esc } s) s

/-- PLAN_RUN_END. -/
def execPlanRunEnd (plan : Nat) (e : Env) (s : State) : Host.Outcome State Fault Refusal :=
  .next (planRunEnd plan (applyEnv e s))

/-! Barriers and sync slots (R293 to R296) -/

/-- An engine is reserved by a plan of a tenant (R295, R309). -/
def engineOf (s : State) (tid n : Nat) : Bool := s.fe.plans.any fun p => p.tid = tid && p.engs.contains n

/-- BARRIER_DEFINE, SUBOP DEFINE (R295; the handle comes back in RESULT0). -/
def barrierDefine (pick : Nat) (w : Waiting) (s : State) : State :=
  let r := w.req
  let tid := reqTid r
  let mask := maskBits (slice r.payload 0 256)
  let ext := op0 r % 2 ^ 16
  let h := op1 r % 2 ^ 16
  if h = 0xFFFF then
    if mask.any fun n => !engineOf s tid n then replySt w .denied s
    else match findFree (fun i => !(s.fe.bars.any fun b => b.idx = i)) 256 pick with
      | none => replySt w .refused s
      | some i =>
        let b : Bar := { idx := i, gen := nextGen s 3 i, tid := tid, mask := mask, ext := ext }
        reply w { mkResp s r .ok with r0 := w64 (barHandle b) }
          (useIndex 3 i b.gen (setFe (fun c => { c with bars := c.bars ++ [b] }) s))
  else match barOf s h tid with
    | none => replySt w .noMapping s
    | some b =>
      if mask.any fun n => !engineOf s tid n then replySt w .denied s
      else if !b.arrived.isEmpty || b.extArr ≠ 0 then replySt w .busy s
      else reply w { mkResp s r .ok with r0 := w64 (barHandle b) } (modBar b.idx (fun b => { b with mask := mask, ext := ext }) s)

/-- BARRIER_DEFINE. -/
def execBarrierDefine (r : Req) (e : Env) (s : State) : Host.Outcome State Fault Refusal :=
  .next (runVerb { r with opcode := 0x4A, subop := if r.subop = 1 then 0 else r.subop } e (barrierDefine e.pick) s)

/-- An engine, of the mask or not, or a SYNC_WAIT waits on a barrier (R295). -/
def barAwaited (s : State) (b : Bar) : Bool :=
  (s.fe.engs.any fun e => (engineBar s e.n).map Bar.idx == some b.idx)
    || s.vrb.waiting.any fun w => match w.why with | .barrier h _ _ => h == barHandle b | _ => false

/-- BARRIER_DEFINE, SUBOP FREE (R295). -/
def barrierFree (w : Waiting) (s : State) : State :=
  match barOf s (op1 w.req % 2 ^ 16) (reqTid w.req) with
  | none => replySt w .noMapping s
  | some b =>
    if barAwaited s b then replySt w .busy s
    else replySt w .ok (freeIndex 3 b.idx (setFe (fun c => { c with bars := c.bars.filter fun x => x.idx ≠ b.idx }) s))

/-- BARRIER_FREE: BARRIER_DEFINE with SUBOP 1. -/
def execBarrierFree (r : Req) (e : Env) (s : State) : Host.Outcome State Fault Refusal :=
  .next (runVerb { r with opcode := 0x4A, subop := 1 } e barrierFree s)

/-- The target of a SYNC verb: the engine and slot of a plan, or a barrier (R296). -/
inductive SyncTarget
  | slot (p : Plan) (eng slot : Nat) | barrier (b : Bar)
deriving DecidableEq, Repr

/-- The target that OPERAND0 names, if the tenant holds it (R296). -/
def syncTarget (s : State) (tid x : Nat) : Option SyncTarget :=
  if bits x 63 62 = 1 then (barOf s (bits x 15 0) tid).map .barrier
  else (planOf s (bits x 47 32) tid).bind fun p => (p.engs[bits x 26 16]?).map fun n => .slot p n (bits x 4 0)

/-- SYNC_ARRIVE (R292, R294, R296). -/
def syncArrive (w : Waiting) (s : State) : State :=
  let c := clampTo 1 65535 (op1 w.req % 2 ^ 16)
  match syncTarget s (reqTid w.req) (op0 w.req) with
  | none => replySt w .noMapping s
  | some (.slot p n k) =>
    if p.run.isNone then replySt w .busy s
    else replySt w .ok (noteBreak p.idx (addSlot p n k c (noteBreak p.idx s)))
  | some (.barrier b) =>
    replySt w .ok (barArrived b.idx (modBar b.idx (fun b => { b with extArr := min 65535 (b.extArr + c) }) s))

/-- SYNC_ARRIVE. -/
def execSyncArrive (r : Req) (e : Env) (s : State) : Host.Outcome State Fault Refusal :=
  .next (runVerb { r with opcode := 0x48 } e syncArrive s)

/-- SYNC_WAIT (R296). -/
def syncWait (w : Waiting) (s : State) : State :=
  let x := op1 w.req
  let c := x % 2 ^ 16
  let due := w.since + clampTo 1 1000000 (bits x 63 32) * 1000
  match syncTarget s (reqTid w.req) (op0 w.req) with
  | none => replySt w .noMapping s
  | some (.slot p n k) =>
    let v := slotVal (engAt s n) k
    if c ≤ v then reply w { mkResp s w.req .ok with r0 := w64 v } s else waitFor w (.slot (planHandle p) n k c due) s
  | some (.barrier b) => waitFor w (.barrier (barHandle b) b.phase due) s

/-- SYNC_WAIT. -/
def execSyncWait (r : Req) (e : Env) (s : State) : Host.Outcome State Fault Refusal :=
  .next (runVerb { r with opcode := 0x49 } e syncWait s)

/-- A SYNC_WAIT whose time has passed. -/
def syncLate (s : State) (w : Waiting) : Bool :=
  match w.why with
  | .slot _ _ _ _ due => decide (due ≤ s.now)
  | .barrier _ _ due => decide (due ≤ s.now)
  | _ => false

/-- SYNC_WAIT_TIMEOUT: TIMEOUT_US of a SYNC_WAIT, named by its source and TAG, has passed (R296). -/
def execSyncWaitTimeout (src tag : Nat) (e : Env) (s : State) : Host.Outcome State Fault Refusal :=
  let s := applyEnv e s
  .next (match s.vrb.waiting.find? fun w => w.req.src = src && w.req.tag.toNat = tag && syncLate s w with
    | some w => completeSt w .timeout s
    | none => s)

/-! The deadlock detector (R297, R298) -/

/-- A record of the wait graph (R298). -/
def waitBytes (x : WaitRec) : List Byte :=
  le 4 x.op ++ le 1 x.wait ++ le 1 x.port ++ le 2 x.target ++ le 4 x.need ++ le 4 x.have'

/-- The record of an engine: its first blocked queue, or none where it has ended. -/
def waitRecord (s : State) (p : Plan) (n : Nat) : WaitRec :=
  match (engineQueues s n p).findSome? id with
  | some x => x
  | none => { op := (engAt s n).pc }

/-- The snapshot, cut to the length of its argument (R298). -/
def waitGraph (s : State) (p : Plan) (r : Run) (len : Nat) : List Byte :=
  let k := min p.engs.length ((len - 64) / 16)
  le 2 (planHandle p) ++ le 2 (b2n (decide (k < p.engs.length))) ++ le 4 k ++ le 8 (s.now - r.progress) ++ le 48 0
    ++ ((p.engs.take k).map fun n => waitBytes (waitRecord s p n)).flatten

/-- Write the snapshot into the FAULT_ARG argument (R298). -/
def writeGraph (p : Plan) (r : Run) (s : State) : State :=
  match r.args[p.faultArg]? with
  | none => s
  | some a =>
    if (a.kind = 1 || a.kind = 2) && decide (64 ≤ a.len) then
      match spanOf s (a.win % 2 ^ 24) a.va.toNat with
      | some x => (writeAt x.g x.o (waitGraph s p r a.len) s).1
      | none => s
    else s

/-- DEADLOCK_DETECT (R291, R297 to R299). -/
def deadlockDetect (i : Nat) (s : State) : State :=
  match planAt s i with
  | none => s
  | some p => match p.run with
    | none => s
    | some r =>
      if runBlocked s p && decide (r.progress + s.img.deadlockUs * 1000 ≤ s.now) then
        let n := (p.engs.find? fun n => !(engAt s n).ended).getD 0
        let s := writeGraph p r s
        let s := setFe (fun c => { c with deadlock := satAdd 16 c.deadlock 1 }) s
        abortRun i .engineFault none (cairnAt 0x07 0x02 n (n / 64 * 2 ^ 32) 0 (0x70 + n / 64) p.tid .engineFault s)
      else s

/-- DEADLOCK_DETECT. -/
def execDeadlockDetect (plan : Nat) (e : Env) (s : State) : Host.Outcome State Fault Refusal :=
  .next (deadlockDetect plan (applyEnv e s))

/-! Parks (R302, R309) -/

/-- The requester may resolve an open record (R302, R309). -/
def mayResolve (q : Requester) (k : Park) : Bool :=
  match q with | .mgmt _ => true | .page tid => k.tid == tid

/-- The engines parked on a record. -/
def parkedOn (s : State) (k : Park) : List Nat := (s.fe.engs.filter fun e => e.st = .parked && e.park = some k.idx).map Eng.n

/-- RETRY: every engine in the mask resumes at its faulting operation (R302). -/
def parkRetry (k : Park) (s : State) : State :=
  let es := parkedOn s k
  let s := setFe (fun c => { c with parks := c.parks.filter fun x => x.idx ≠ k.idx }) s
  es.foldl (fun s n =>
    let i := (engAt s n).plan
    noteBreak i (modEng n (fun e => { e with st := .running, park := none }) s)) s

/-- ABORT: the runs of the engines in the mask abort (R291, R302). -/
def parkAbort (k : Park) (s : State) : State :=
  let es := parkedOn s k
  let s := setFe (fun c => { c with parks := c.parks.filter fun x => x.idx ≠ k.idx }) s
  es.foldl (fun s n => abortRun (engAt s n).plan .poisoned (some n) s) s

/-- Resolve a record where the requester may. -/
def parkAct (q : Requester) (rec' : Nat) (f : Park → State → State) (s : State) : State :=
  if !hasEngines s then s
  else match s.fe.parks.find? fun k => k.idx = rec' with
    | some k => if mayResolve q k then f k s else s
    | none => s

/-- A register write by its requester: management needs its role and gets an answer; a tenant page is reached
while requests are served (14 R585; 17 R657). -/
def byRequester (q : Requester) (t : Nat) (f : State → State) (s : State) : State :=
  match q with
  | .mgmt sess => withWrite sess t (fun s => mgmtReply sess .ok [] (f s)) s
  | .page _ => if reachable s then f (atTime t s) else s

/-- FE_PARK_ACT with RETRY. -/
def execFeParkActRetry (q : Requester) (rec' : Nat) (e : Env) (s : State) : Host.Outcome State Fault Refusal :=
  .next (byRequester q e.t (parkAct q (rec' % 64) parkRetry) (applyEnv e s))

/-- FE_PARK_ACT with ABORT. -/
def execFeParkActAbort (q : Requester) (rec' : Nat) (e : Env) (s : State) : Host.Outcome State Fault Refusal :=
  .next (byRequester q e.t (parkAct q (rec' % 64) parkAbort) (applyEnv e s))

/-! Engine faults and spares (R299 to R306) -/

/-- An operation of an engine has been in execution for 100 ms (R299). -/
def hangs (s : State) (e : Eng) : Bool :=
  e.st = .running && (e.comp.toList ++ e.mov.toList).any fun f => decide (f.since + 100000000 ≤ s.now)

/-- ENGINE_HANG (R299, R303, R305). -/
def execEngineHang (eng : Nat) (e : Env) (s : State) : Host.Outcome State Fault Refusal :=
  let s := applyEnv e s
  .next (if hangs s (engAt s eng) then quarantine eng 0x05 (engAt s eng).tid .engineFault s else s)

/-- The logical engine at a physical position of a stack. -/
def engineAtPos (s : State) (k pos : Nat) : Option Nat :=
  ((List.range 64).map fun i => 64 * k + i).find? fun n => (engAt s n).phys = pos && (engAt s n).st ≠ .out

/-- An engine is idle (R299). -/
def engineIdle (e : Eng) : Bool := portsIdle e && (e.ended || e.st ≠ .running) && e.st ≠ .parked && e.st ≠ .out

/-- ENGINE_SELFTEST: an engine idle for 1 ms tests itself, at most once in 100 ms; a spare that substitutes tests itself first
(R299, R303). -/
def engineSelftest (k pos : Nat) (pass : Bool) (s : State) : State :=
  if !hasEngines s || stackCount s ≤ k then s
  else match engineAtPos s k pos with
    | some n =>
      let x := engAt s n
      let due := x.st = .substituting || (engineIdle x && decide (x.idleSince + 1000000 ≤ s.now)
        && x.lastTest.all fun t => decide (t + 100000000 ≤ s.now))
      if !due then s
      else
        let s := modEng n (fun e => { e with lastTest := some s.now }) s
        if pass then s else quarantine n 0x04 (engAt s n).tid .engineFault s
    | none =>
      if pass then s
      else if (pos = 64 && (stackAt s k).spare0 = .free) || (pos = 65 && (stackAt s k).spare1 = .free) then
        setSpare k pos .quarantined (setFe (fun c => { c with quarantine := satAdd 16 c.quarantine 1 }) s)
      else s

/-- ENGINE_SELFTEST. -/
def execEngineSelftest (stk : Fin 32) (pos : Fin 66) (pass : Bool) (e : Env) (s : State) :
    Host.Outcome State Fault Refusal :=
  .next (engineSelftest stk.val pos.val pass (applyEnv e s))

/-- SPARE_REMAP_DONE: a substituted engine takes the state it had, once its spare has run its self-test (R303). -/
def execSpareRemapDone (eng : Nat) (e : Env) (s : State) : Host.Outcome State Fault Refusal :=
  let s := applyEnv e s
  .next (if (engAt s eng).st = .substituting && (engAt s eng).lastTest.isSome then
    modEng eng (fun x => { x with st := x.saved, saved := .free, idleSince := s.now }) s else s)

/-! Registers (R268 to R270; 08 R354) -/

/-- Hand the four banks of an engine over as a register value says, and count the collisions with operations of the same
cycle (R268 to R270). -/
def writeBankOwn (n v : Nat) (s : State) : State :=
  let p := (engAt s n).plan
  let hit := match (engAt s n).ownOp with | some (t, _) => t == s.now | none => false
  let s := noteBreak p s
  let s := modEng n (fun e => (List.range 4).foldl (fun e b => handBank b (bankOwnerOf (bits v (2 * b + 1) (2 * b))) e)
    { e with ownReg := some s.now }) s
  let s := if hit then setFe (fun c => { c with bankColl := satAdd 16 c.bankColl 1 }) s else s
  noteBreak p (landEngine n s)

/-- FE_BANK_OWN may be written by management for any engine, by a tenant page for engines of its plans (R270). -/
def bankOwnWrite (q : Requester) (n v : Nat) (s : State) : State :=
  let mine := match q with | .mgmt _ => true | .page tid => engineOf s tid n
  if hasEngines s && mine && decide (n < 64 * stackCount s) then writeBankOwn n v s else s

/-- FE_BANK_OWN_WRITE. -/
def execFeBankOwnWrite (q : Requester) (eng : Nat) (v : BitVec 64) (e : Env) (s : State) : Host.Outcome State Fault Refusal :=
  .next (byRequester q e.t (bankOwnWrite q eng v.toNat) (applyEnv e s))

/-- Clear FE_ABFT_LAST.HELD (08 R354); a tenant page does not see the register (08 R355). -/
def abftClr (q : Requester) (s : State) : State :=
  match q with
  | .mgmt _ => if hasEngines s then setFe (fun c => { c with abftLast := c.abftLast &&& ~~~ (1#64 <<< 61) }) s else s
  | .page _ => s

/-- FE_ABFT_CLR with CLEAR_HOLD. -/
def execFeAbftClr (q : Requester) (e : Env) (s : State) : Host.Outcome State Fault Refusal :=
  .next (byRequester q e.t (abftClr q) (applyEnv e s))

end Sys2Proof.Machine
end

