-- ==== Sys2Proof/Machine/LinkOps.lean ====
section
/-! DEFINITION. The states of a port and what moves it between them (10_tythes_link R414 to R432, R679; 11_fabric_routing R454;
02_startup_and_loss R50, R55). -/

namespace Sys2Proof.Machine

/-- Reasons of 10 R441 that a port uses by name. -/
def rsLos : Nat := 0x01
def rsLaneFault : Nat := 0x02
def rsReplayLimit : Nat := 0x03
def rsHbLoss : Nat := 0x04
def rsPeerReset : Nat := 0x05
def rsLocalRetrain : Nat := 0x06
def rsProtocol : Nat := 0x07
def rsPeerLeave : Nat := 0x08
def rsKeepaliveLoss : Nat := 0x09
def rsAdminDown : Nat := 0x0A
def rsModuleHeld : Nat := 0x0B
def rsNbrChanged : Nat := 0x0C

/-- The image's entry of a port (03 R110); a port without one is unmapped. -/
def portCfg (s : State) (k : Nat) : PortCfg := s.img.ports.getD k {}

/-- Twelve counters at 0, in CRD_SEL order. -/
def zero12 : List Nat := List.replicate 12 0

/-- The module's own credit advertisement (10 R437). -/
def ownCredits : List Nat := [512, 0, 512, 0, 512, 4096, 512, 4096, 256, 2048, 32, 0]

/-- A LINK record of Cairn (10 R422, R431; 15 R623). -/
def linkRec (k reason node port : Nat) (s : State) : State := cairnAt 0x01 reason k (node + port * 2 ^ 20) 0 k 0xFFFF .ok s

/-- Set a bit of LNK_FLAGS (10 R442). -/
def linkFlag (k i : Nat) (s : State) : State :=
  modPort k (fun p => { p with flags := p.flags ||| 1#6 <<< i, flagsAt := setNow s.now p.flagsAt (1#6 <<< i) }) s

/-! Leaving a state -/

/-- A packet of a port that leaves ACTIVE goes to another port of its effective spray set, or ends by 11 R450 (11 R454). -/
def resprayOne (s : State) (e : EgPkt) : State :=
  match e.pkt with
  | none => s
  | some q =>
    let set := liveSet s q.epoch (groupOf q.dst)
    let set := match e.transit with
      | some a => set &&& ~~~ (1#64 <<< a)
      | none => set
    let plan := match e.owner with
      | some (.plan h) => some h
      | _ => none
    match choosePort e.tc e.slots plan set s with
    | (s, some j) => enqueue j e s
    | (s, none) => if e.transit.isSome then setRte (fun r => { r with noroute := satAdd 16 r.noroute 1 }) s else s

/-- A packet that waits at a shaper of the port goes to the shaper of another port (11 R454; 12 R499). -/
def resprayShaped (tid : Nat) (s : State) (q : Pkt) : State :=
  match choosePort q.tc (1 + q.pslots) none (liveSet s q.epoch (groupOf q.dst)) s with
  | (s, some j) => toPort j (some tid) none q s
  | (s, none) => s

/-- The LIVE bit of a port clears, and its egress queues and the shapers before it are empty (11 R454). -/
def unlive (k : Nat) (s : State) : State :=
  let bs := s.qos.buckets.filter fun b => b.port = k && !b.q.isEmpty
  let s := setRte (fun r => { r with live := r.live &&& ~~~ (1#64 <<< k) }) s
  let s := setBoot (fun b => { b with portPend :=
    if (portCfg s k).mapped then b.portPend ||| 1#64 <<< k else b.portPend }) s
  let s := modPort k (fun p => { p with eg := [], wtag := [] }) s
  bs.foldl (fun s b => putBucket { b with q := [] } s) s

/-- The LIVE bit of a port clears, and what was queued for it is sprayed anew (11 R454). -/
def prunePort (k : Nat) (s : State) : State :=
  let eg := (portAt s k).eg
  let bs := s.qos.buckets.filter fun b => b.port = k && !b.q.isEmpty
  bs.foldl (fun s b => b.q.foldl (resprayShaped b.tid) s) (eg.foldl resprayOne (unlive k s))

/-- The replay buffer, slots not yet in a flit, partly received packets and every credit counter go (10 R427). -/
def clearLink (p : LnkPort) : LnkPort :=
  { p with
    buf := [], txSlots := [], slotPos := 0, rxOpen := [], sent := zero12, ret := zero12, freed := zero12, freedSent := zero12
    crdNext := 0, txSeq := 0, rxExp := 0, rxReplayFrom := none, nak := false, unacked := 0, noAdvance := 0, replayTimes := [] }

/-- Packets received whole have passed the ingress crossing: they are delivered, and free no credit of the next training (10
R427). -/
def settleIngress (k : Nat) (s : State) : State :=
  setLnk (fun l => { l with ingress := mapIf (fun x => x.port = k) (fun x => { x with owes := false }) l.ingress }) s

/-- The length of the hold that begins now (10 R430). -/
def holdLen (now : Nat) (p : LnkPort) : Nat :=
  match p.lastHold with
  | some (l, e) => if now ≤ e + 600000000000 then min 320000000000 (2 * l) else 10000000000
  | none => 10000000000

/-- An exit from ACTIVE for a reason counts as a flap (10 R430). -/
def isFlap (reason : Nat) : Bool :=
  !(reason == rsLocalRetrain || reason == rsAdminDown || reason == rsPeerLeave || reason == rsModuleHeld)

/-- Count a flap: the record of the first of 60 s, and the hold at the eighth (10 R430, R431). -/
def countFlap (k reason : Nat) (s : State) : State :=
  let p := portAt s k
  let old := p.flapTimes.filter fun t => decide (s.now < t + 60000000000)
  let s := modPort k (fun p => { p with flaps := satAdd 16 p.flaps 1, flapTimes := old ++ [s.now] }) s
  let s := if old.isEmpty then linkRec k reason p.nbrNode p.nbrPort s else s
  if 8 ≤ old.length + 1 && p.holdUntil.isNone then
    let l := holdLen s.now p
    linkFlag k 3 (linkRec k reason p.nbrNode p.nbrPort
      (modPort k (fun p => { p with holdUntil := some (s.now + l), lastHold := some (l, s.now + l) }) s))
  else s

/-- A port leaves its state for DOWN or RESET with a reason (10 R414, R426, R427, R430). -/
def exitPort (k reason : Nat) (st : LinkState) (s : State) : State :=
  let active := (portAt s k).st == .active
  let s := modPort k (fun p => { clearLink p with
    st := st, reason := reason, since := s.now, signal := none, lpiTx := false, lpiPeer := false
    laneBad := List.replicate 8 0 }) (settleIngress k s)
  let s := if active && isFlap reason then countFlap k reason s else s
  if active then prunePort k s else modPort k (fun p => { p with eg := [], wtag := [] }) s

/-- Enter DOWN (10 R414). -/
def portDown (k reason : Nat) (s : State) : State := exitPort k reason .down s

/-- Enter RESET, in which only RESET flits are sent; from DOWN and RESET there is no way into it (10 R414, R426, R429). -/
def portReset (k reason : Nat) (s : State) : State :=
  match (portAt s k).st with
  | .train | .verify | .active => sendCtl k (.reset reason) (exitPort k reason .reset s)
  | _ => s

/-- A port island is held in reset: the port is DOWN without RESET, everything the island owns is at its reset value, and the packets
in its buffers are lost (10 R679). -/
def portIslandReset (k : Nat) (s : State) : State :=
  let s := if (portAt s k).st == .active then unlive k s else s
  modPort k (fun _ => {}) (setLnk (fun l => { l with ingress := l.ingress.filter fun x => !(x.port = k && x.owes) }) s)

/-! Training (10 R414, R417, R418, R432) -/

/-- A port may leave DOWN: mapped, its island locked, its transmitter lit, neither held nor in backoff nor administratively
down, and the signal seen since it came DOWN. -/
def mayTrain (s : State) (k : Nat) : Bool :=
  let p := portAt s k
  p.st == .down && p.signal.isSome && !p.losNeeded && !p.adminDown && p.holdUntil.isNone && decide (p.backoffUntil ≤ s.now)
    && (portCfg s k).mapped && s.isl.portLock.getLsbD k && !s.pwr.txDark

/-- A training attempt or a verification fails: DOWN, and the backoff (10 R432). -/
def trainFail (k reason : Nat) (s : State) : State :=
  let f := min 7 ((portAt s k).fails + 1)
  portDown k reason (modPort k (fun p => { p with fails := f, backoffUntil := s.now + 10000000 * 2 ^ f }) s)

/-- Lanes excluded from GOOD_MASK (10 R428). -/
def exclMask (p : LnkPort) : BitVec 8 := p.excl.foldl (fun m x => m ||| 1#8 <<< x.1) 0

/-- The aligned lane groups of a width code: 0 x8, 1 x4, 2 x2, 3 x1 (10 R418). -/
def laneGroups (w : Nat) : List (BitVec 8) :=
  match w with
  | 0 => [0xFF] | 1 => [0x0F, 0xF0] | 2 => [0x03, 0x0C, 0x30, 0xC0] | _ => (List.range 8).map fun i => 1#8 <<< i

/-- The width and lanes of two requests and two masks (10 R418). -/
def laneChoice (reqA reqB : Nat) (a b : BitVec 8) : Option (Nat × BitVec 8) :=
  ((List.range 4).filter fun w => decide (max reqA reqB ≤ w)).findSome? fun w =>
    ((laneGroups w).find? fun g => g &&& (a &&& b) == g).map fun g => (w, g)

/-- A credit advertisement that fails the attempt (10 R419). -/
def badCredits (c : List Nat) : Bool :=
  ((List.range 6).any fun t => nth 0 c (crdSel t false) == 0)
    || ([2, 3, 4].any fun t => decide (nth 0 c (crdSel t true) < 32)) || (c.any fun x => decide (32767 < x))

/-- The narrower of PORT_MAP MAX_WIDTH and LNK_CTL.REQ_WIDTH (10 R418). -/
def ownWidth (s : State) (k : Nat) : Nat := max (portCfg s k).maxWidth (portAt s k).reqWidth

/-- The module's TRAIN_PARAM of the attempt in progress (10 R417, R418). -/
def sendTrainParam (k : Nat) (s : State) : State :=
  let p := portAt s k
  sendCtl k (.trainParam 1 p.sentWidth p.lanesGood ownCredits) s

/-- Enter TRAIN when the port may: the lanes that lock and are not excluded are good, and TRAIN_PARAM goes out (10 R414, R417,
R418). -/
def tryTrain (k : Nat) (s : State) : State :=
  if mayTrain s k then
    sendTrainParam k (modPort k (fun p => { clearLink p with
      st := .train, since := s.now, peerParams := false, rttPairs := 0, lanesUsed := 0, frame := 0, frameAt := 0
      lanesGood := p.lock &&& ~~~ exclMask p, sentWidth := ownWidth s k }) s)
  else s

/-- Enter VERIFY: both directions restart at sequence 0, with a NONCE of this entry (10 R410, R417, R423; log entry 13). -/
def enterVerify (k : Nat) (s : State) : State :=
  let (s, i) := takeFree 1 s
  modPort k (fun p => { clearLink p with
    st := .verify, frameAt := 0, since := s.now, gotIdent := false, gotAck := false, nonce := Config.freeNat i % 2 ^ 32 }) s

/-! Verification (10 R420 to R422) -/

/-- A failure of verification: the record of the first since start, the flag and the count of the later ones; which field of
LNK_ERR counts is not stated (R422; log entry 29). -/
def verifyFail (k reason node port : Nat) (s : State) : State :=
  let s := if (portAt s k).everVerifyFailed then
      let (s, i) := takeFree 1 s
      let f := Config.freeNat i % 4
      linkFlag k 2 (modPort k (fun p => { p with
        flaps := if f = 0 then satAdd 16 p.flaps 1 else p.flaps
        fecUncorr := if f = 1 then satAdd 16 p.fecUncorr 1 else p.fecUncorr
        replays := if f = 2 then satAdd 16 p.replays 1 else p.replays
        crcErr := if f = 3 then satAdd 16 p.crcErr 1 else p.crcErr }) s)
    else linkRec k reason node port (modPort k (fun p => { p with everVerifyFailed := true }) s)
  trainFail k reason s

/-- Milliseconds from t0, saturating (02 R87). -/
def msFromT0 (s : State) : Nat := min 65535 ((s.now - s.boot.t0) / 1000000)

/-- Enter ACTIVE and finish step 7: the port is in LIVE (02 R48, R55; 10 R421; 11 R448). BOOT_TIME.PORT_MS is set when the last mapped
port gets here; where the image maps none it stays 0xFFFF: DESIGN CHOICE (02 R88; log entry 82). -/
def enterActive (k : Nat) (s : State) : State :=
  let s := modPort k (fun p => { p with st := .active, since := s.now, fails := 0, lastHb := s.now }) s
  let s := setRte (fun r => { r with live := r.live ||| 1#64 <<< k }) s
  setBoot (fun b =>
    let pend := b.portPend &&& ~~~ (1#64 <<< k)
    { b with portPend := pend, portMs := if pend = 0 && b.portMs = 65535 then msFromT0 s else b.portMs }) s

/-- Verification passes when the peer's IDENT and the IDENT_ACK are both there (10 R420). -/
def verifyPass (k : Nat) (s : State) : State :=
  let p := portAt s k
  if p.st = .verify && p.gotIdent && p.gotAck then enterActive k s else s

/-- A link-management packet of the module on a port (10 R423). OPEN is the heartbeat's of 02 R58; it is 0 in Bivouac, of which the
spec does not speak: DESIGN CHOICE (log entry 82). -/
def ownLm (s : State) (k type : Nat) : LinkMgmt :=
  { type := type, poolOpen := type == 3 && s.boot.st == .poolOpen && s.rte.live.getLsbD k, lpi := (portAt s k).lpiTx
    node := s.glb.node, port := k, inc := incarnation s, maxWidth := (portCfg s k).maxWidth, cluster := s.img.clusterId }

/-! Acknowledgements, replay and credits of a port (10 R433 to R439) -/

/-- The replay timeout in force; it is at least 12 us while the peer is in low-power idle (10 R433). -/
def replayTo (p : LnkPort) : Nat := if p.lpiPeer then max 12000 p.replayToNs else p.replayToNs

/-- Flits freed by an acknowledgement, or none where it falls outside the window (10 R435). -/
def ackCount (p : LnkPort) (ack : Nat) : Nat :=
  match p.buf with
  | [] => 0
  | f :: _ =>
    let n := (ack % 65536 + 65536 - f.seq % 65536) % 65536 + 1
    if n ≤ p.buf.length then n else 0

/-- An acknowledgement arrives at the sender (10 R433, R435). -/
def ackFlits (k ack : Nat) (s : State) : State :=
  let n := ackCount (portAt s k) ack
  if n = 0 then s
  else modPort k (fun p => { p with buf := p.buf.drop n, timer := s.now, noAdvance := 0 }) s

/-- A flit as it is replayed: RPL is 1 (10 R408). -/
def replayFlit (f : TxFlit) : List Byte :=
  flitBytes f.seq (field f.bytes 0 8 ||| 2 ^ 57) (slice f.bytes 8 256)

/-- Replay the buffer from its oldest flit, after REPLAY_START; too many replays reset the link (10 R433, R434). -/
def replay (k : Nat) (s : State) : State :=
  let p := portAt s k
  let times := (p.replayTimes.filter fun t => decide (s.now < t + 1000000)) ++ [s.now]
  let s := modPort k (fun p => { p with
    replays := satAdd 16 p.replays 1, noAdvance := p.noAdvance + 1, replayTimes := times, timer := s.now }) s
  let start := match p.buf with | f :: _ => f.seq | [] => p.txSeq
  let s := p.buf.foldl (fun s f => lineFlit k true (replayFlit f) s) (sendCtl k (.replayStart start) s)
  if 16 ≤ p.noAdvance + 1 || 1000 ≤ times.length then portReset k rsReplayLimit s else s

/-- A cumulative count of a counter returns. More than was sent resets the link; a count older than RET, as a replayed flit carries,
changes nothing (10 R438, R439; log entry 68). -/
def creditBack (k i c : Nat) (s : State) : State :=
  let p := portAt s k
  let out := (nth 0 p.sent i + 65536 - nth 0 p.ret i) % 65536
  let d := (c + 65536 - nth 0 p.ret i) % 65536
  if 12 ≤ i || 32768 ≤ d then s
  else if out < d then portReset k rsProtocol s
  else modPort k (fun p => { p with ret := setNthD 0 i (c % 65536) p.ret }) s

/-- The acknowledgement and the credit return that a flit's header carries (10 R408, R435, R439). -/
def flitReturns (k h : Nat) (s : State) : State :=
  let s := if bit h 3 then ackFlits k (bits h 19 4) s else s
  pumpPort k (if bit h 36 then creditBack k (bits h 40 37) (bits h 56 41) s else s)

end Sys2Proof.Machine
end

