-- ==== Sys2Proof/Machine/Sram.lean ====
section
/-! DEFINITION. Bad bytes of on-chip SRAM, and of the structures the module keeps in the system reserve of DRAM, that a command
brings (13_memory_integrity R524, R527, R534; 14_security_and_isolation R563; log entry 20). -/

namespace Sys2Proof.Machine

/-- A byte corrected on read: the count, and the SRAM bucket (13 R527, R534). -/
def sramCe (s : State) : State :=
  let s := setEcc (fun e => { e with sramCe := satAdd 16 e.sramCe 1 }) s
  let depth := s.img.bucketDepth * 1000
  if !s.img.ceBucket then s
  else if depth ≤ s.ecc.sramBucket then
    if ovfDue s.now s.ecc.sramOvf then
      cairnAlert 0x04 0x80 0 0 0 (setEcc (fun e => { e with sramOvf := some s.now }) s)
    else s
  else setEcc (fun e => { e with sramBucket := min depth (e.sramBucket + 1000) }) s

/-- An uncorrectable byte: the count, the structure code and a record (13 R527; 15 R623). -/
def sramUe (code a b : Nat) (s : State) : State :=
  cairnAt 0x04 code a b 0 0x40 0xFFFF .poisoned
    (setEcc (fun e => { e with sramUe := satAdd 16 e.sramUe 1, sramLast := code }) s)

/-- A scratch bank's byte: fault kind SCRATCH_UE, and the quarantine at the second within 1 h (07 R299). -/
def scratchUe (n : Nat) (s : State) : State :=
  let old := (engAt s n).ueTimes.filter fun t => decide (s.now < t + 3600000000000)
  let s := modEng n (fun e => { e with ueTimes := old ++ [s.now] }) s
  let tid := match runOf s n with | some (p, _) => p.tid | none => 0xFFFF
  let s := match runOf s n with
    | some (p, _) => engineFault p.idx n 0x06 .engineFault s
    | none => s
  if old.isEmpty then s else quarantine n 0x06 tid .engineFault s

/-- Units of an extent whose entry cannot be read are withheld (13 R527). -/
def withholdUnits (x : Extent) (s : State) : State :=
  if x.anchor.isSome then s
  else setPool (fun p => { p with
    withheld := p.withheld ++ (List.range x.len).map fun i => (x.stack, x.base + i) }) s

/-- An entry of a pool table is bad: tenant 0, region 1, window 2, grant 3, extent 4 or anchor 5; what reaches memory through
it completes with POISONED (13 R527). -/
def tableBad (kind i e : Nat) (s : State) : State :=
  let wins := fun (p : Window → Bool) => setPool (fun c => { c with windows := mapIf p (fun w => { w with bad := true }) c.windows }) s
  match kind with
  | 0 => wins fun w => w.owner == i
  | 1 => wins fun w => w.region == i
  | 2 => wins fun w => w.idx == i
  | 3 => wins fun w => w.idx == i
  | 4 => match (regionAt s i).bind fun g => g.exts[e]? with
    | some x => withholdUnits x (modRegion i (fun g => { g with exts := modNth e (fun x => { x with bad := true }) g.exts }) s)
    | none => s
  | _ => setPool (fun c => { c with regions := c.regions.map fun g => { g with
      exts := mapIf (fun x => x.anchor = some i) (fun x => { x with bad := true }) g.exts } }) s

/-- A packet of a buffer is discarded before delivery or transmission: the oldest of the ingress of a port, or of its egress
(13 R527). -/
def bufferUe (k side : Nat) (s : State) : State :=
  if side = 0 then (takeWhere (fun x => decide (x.port = k)) s).1
  else modPort k (fun p => match p.eg with
    | x :: _ => egDrop s x p
    | [] => p) s

/-- What is delivered in place of a packet of the reorder store that cannot be read: TC 6 stands for void, with the TAG where it
is readable (13 R527). -/
def voidPkt (tag : Bool) (p : Pkt) : Pkt :=
  match tag, p.body with
  | true, .req r => { p with body := .req { r with tc := 6, payload := [] } }
  | _, _ => { p with body := .ack {} }

/-- A held packet becomes void (13 R527). -/
def storeUe (node seq : Nat) (space tag : Bool) (s : State) : State :=
  modPeer node false (modSpace space fun sp => { sp with
    held := mapIf (fun x => x.1 = seq) (fun x => (x.1, voidPkt tag x.2)) sp.held }) s

/-- The TAG, the tenant and the opcode of a packet of the module's own, for its replacement (13 R527). -/
def copyOf (b : Body) : Resp :=
  match b with
  | .req r => { opcode := r.opcode, status := .internal, tid := r.tid.toNat % 4096, tag := r.tag }
  | .resp r => { opcode := r.opcode, status := .internal, evt := r.evt, tid := r.tid, tag := r.tag }
  | _ => { status := .internal }

/-- A retransmit copy is replaced by a control packet with INTERNAL and the TAG (13 R527). -/
def retransmitUe (node seq : Nat) (space : Bool) (s : State) : State :=
  modPeer node false (modSpace space fun sp => { sp with
    sent := mapIf (fun x => x.seq = seq) (fun x => { x with tc := 1, body := .resp (copyOf x.body) }) sp.sent }) s

/-- A tenant key's copy is bad: it is fetched or rewritten, or the slot becomes FAILED (14 R563). -/
def keySlotUe (tid : Nat) (both : Bool) (s : State) : State :=
  let s := setOnx (fun o => { o with keyUe := satAdd 16 o.keyUe 1 }) s
  if both && (s.onx.tkeys.any fun k => k.tid = tid) then
    cairnAlert 0x0D 3 tid 0 0
      (setOnx (fun o => { o with tkeys := mapIf (fun k => k.tid = tid) (fun k => { k with st := .failed }) o.tkeys }) s)
  else s

/-- A directory entry cannot be read: its line enters LM and every attached slot gets INVAL (13 R524). -/
def dirUe (i line : Nat) (s : State) : State :=
  match regionAt s i with
  | none => s
  | some g =>
    let s := setDir { dirAt s i line with st := .lostModified, sharers := 0, pend := 0, wbWait := false } s
    (g.slots.filter fun x => !x.dead).foldl (fun s x => cohSend 0 i line x.k true s) s

/-- A plan's store cannot be read: its run aborts, and it runs no more (13 R524). -/
def planStoreUe (i : Nat) (s : State) : State :=
  abortRun i .engineFault none (modPlan i (fun p => { p with storeBad := true }) s)

/-- Lines of the system reserve that a read finds UNCORRECTABLE: the record names a PA that the spec does not place (13 R522;
log entry 13). -/
def reserveUe (stack : Nat) (s : State) : State :=
  let (s, i) := takeFree 1 s
  cairnAt 0x03 1 (stack * 2 ^ 36 + Config.freeNat i % 2 ^ 36) 0 0 (0x70 + stack) 0xFFFF .poisoned
    (modStack stack (fun x => { x with ueLines := satAdd 16 x.ueLines 1, flags := x.flags ||| 4#5, flagsAt := setNow s.now x.flagsAt 4#5 }) s)

/-- A tile's record or checksum slot cannot be read (13 R524). -/
def tileUe (i t : Nat) (s : State) : State :=
  setWs (fun c => { c with sets := mapIf (fun x => x.idx = i) (fun x => { x with
    tiles := modNth t (fun y => { y with bad := true }) x.tiles }) c.sets }) s

/-- One bad byte: code 0 is a corrected one, codes 1 to 0x0C are the structures of 13 R527, 0x100 to 0x103 the structures in the
system reserve that 13 R524 names; of the codes that this function does not serve 0x08 and 0x0C have their own, and the rest
names no structure. -/
def applyBad (s : State) (x : Nat × Nat × Nat) : State :=
  let a := x.2.1
  let b := x.2.2
  match x.1 with
  | 0x00 => sramCe s
  | 0x01 => scratchUe a (sramUe 0x01 a b s)
  | 0x02 => tableBad (a / 2 ^ 16) (a % 2 ^ 16) b (sramUe 0x02 a b s)
  | 0x03 => setCoh (fun c => { c with cache := c.cache.filter fun y => y ≠ (a, b) }) (sramUe 0x03 a b s)
  | 0x04 => bufferUe (a % 64) b (sramUe 0x04 a b s)
  | 0x05 => portReset (a % 64) rsProtocol (sramUe 0x05 a b s)
  | 0x06 => storeUe a (b % 2 ^ 16) (bit b 16) (bit b 17) (sramUe 0x06 a b s)
  | 0x07 => retransmitUe a (b % 2 ^ 16) (bit b 16) (sramUe 0x07 a b s)
  | 0x09 => modDesc a b (fun y => if y.phase = .queued || y.phase = .running then
      { y with phase := .done, status := .poisoned, bytes := 0, tags := [], got := [], wr := [] } else y) (sramUe 0x09 a b s)
  | 0x0A => keySlotUe a (b = 1) (sramUe 0x0A a b s)
  | 0x0B => critFlip (a % 96) (b % 4) (w64 (b / 4)) (sramUe 0x0B a b s)
  | 0x100 => tileUe a (b / 32) (reserveUe (b % 32) s)
  | 0x101 => loseKv a (b % 32) 0 (reserveUe (b % 32) s)
  | 0x102 => dirUe a (b / 32) (reserveUe (b % 32) s)
  | 0x103 => planStoreUe a (reserveUe (b % 32) s)
  | _ => s

/-- The bad bytes that a command brings. -/
def applySram (e : Env) (s : State) : State := e.sram.foldl applyBad s

/-- The whole of the environment's part of a command: time, symbols of DRAM, and bytes of SRAM. -/
def applyAll (e : Env) (s : State) : State := applySram e (applyEnv e s)

end Sys2Proof.Machine
end

