-- ==== Sys2Proof/Machine/Engines.lean ====
section
/-! DEFINITION. The operations of a plan, one per command: an engine issues its next operation or goes on with the one in
execution on a port (07_facet_engines R266 to R269, R275, R276, R287 to R294; 08_narrow_arithmetic R322 to R349;
09_weights_and_kv R399; 11_fabric_routing R484, R485). -/

namespace Sys2Proof.Machine

/-- What an attempt at an operation comes to: it completes, stays in execution, faults on a page, or ends the run. -/
inductive OpRes
  | done | stay | park (stack page : Nat) | stop (st : Status)
deriving DecidableEq, Repr

/-- An operation on a port: the engine, its plan and run, the operation and its flight. -/
structure OpCtx where
  /-- Logical engine. -/
  n : Nat := 0
  /-- Plan. -/
  p : Plan := {}
  /-- Run. -/
  r : Run := {}
  /-- Operation. -/
  d : OpD := {}
  /-- Its flight. -/
  f : Flight := {}
deriving DecidableEq, Repr

/-- Change the flight of a port. -/
def modFlight (n : Nat) (mover : Bool) (g : Flight → Flight) (s : State) : State :=
  modEng n (fun e => if mover then { e with mov := e.mov.map g } else { e with comp := e.comp.map g }) s

/-- An operation on a port has completed (R287). -/
def opDone (n : Nat) (mover : Bool) (p : Plan) (d : OpD) (s : State) : State :=
  signal p d (noteWork p.idx (modEng n (fun e =>
    if mover then { e with mov := none } else { e with comp := none }) s))

/-- Act on what an attempt came to (R287, R291, R300). -/
def settleOp (c : OpCtx) (mover : Bool) (x : State × OpRes) : State :=
  match x.2 with
  | .done => opDone c.n mover c.p c.d x.1
  | .stay => x.1
  | .park k page => parkOn c.n k page x.1
  | .stop st => abortRun c.p.idx st (some c.n) x.1

/-- A command of a port operation: go on with the operation in execution, or issue the next one (R287). -/
def portOp (n : Nat) (is : OpD → Bool) (mover : Bool) (run : OpCtx → State → State × OpRes) (s : State) : State :=
  match runOf s n with
  | none => s
  | some (p, r) =>
    let s := setSvc 0 s
    let e := engAt s n
    let tryIt := fun (f : Flight) (s : State) =>
      let c : OpCtx := { n := n, p := p, r := r, d := opAt p n f.i, f := f }
      if (foreignBank (engAt s n) mover c.d).isSome then s else settleOp c mover (run c s)
    if e.st ≠ .running || e.ended then s
    else match if mover then e.mov else e.comp with
      | some f =>
        if is (opAt p n f.i) && f.tags.isEmpty && f.wr.isEmpty && !(s.fe.reexec.any fun x => x.eng = n && !mover)
        then tryIt f s else s
      | none =>
        let d := opAt p n e.pc
        if is d && waitMet e d then
          let f : Flight := { i := e.pc, since := s.now, ord := s.vrb.nextOrd }
          let s := noteWork p.idx (advance n d (modEng n (fun e =>
            if mover then { e with mov := some f } else { e with comp := some f }) s))
          tryIt f s
        else s

/-- A command of an operation that takes no port: NOP, BANK_OWN, END. -/
def streamOp (n : Nat) (opc : Nat) (idle : Bool) (run : Plan → Run → OpD → State → State) (s : State) : State :=
  match runOf s n with
  | none => s
  | some (p, r) =>
    let e := engAt s n
    let d := opAt p n e.pc
    if e.st = .running && !e.ended && d.opc = opc && waitMet e d && (!idle || portsIdle e) then
      run p r d (noteWork p.idx s)
    else s

/-! Operands (R276) -/

/-- What reading an operand yields. -/
inductive Got
  | ok (d : List Byte) | no (x : OpRes)
deriving DecidableEq, Repr

/-- The window argument of an operand as a span, where len bytes lie within the argument (R276, R284). -/
def argSpan (s : State) (c : OpCtx) (x len : Nat) : Option Span :=
  match c.r.args[bits x 59 56]? with
  | some a => if bits x 39 0 + len ≤ a.len then spanOf s (a.win % 2 ^ 24) (a.va.toNat + bits x 39 0) else none
  | none => none

/-- Where a range gave no data: a page to park on, or the status that ends the run (R300; 05 R207; 13 R524). -/
def argFault (s : State) (x : Span) (len : Nat) (st : Status) : OpRes :=
  let ps := partsOf x.g x.o len
  if st ≠ .poisoned then .stop st
  else match badPart s ps with
    | some pa => .park (pageOfPa pa).1 (pageOfPa pa).2
    | none =>
      match ((ps.map linesOf).flatten).find? fun p => x.g.mode == .coherent && lineLm s x.g.idx (p.o / 128) with
      | some p => match pieceAddr s p with
        | some pa => .park (pageOfPa pa).1 (pageOfPa pa).2
        | none => .stop st
      | none => .stop st

/-- The status of a region that a running plan may no longer use as it is (04 R157). -/
def spanStatus (x : Span) : Status := if x.g.st = .fenced then .nodeLost else .ok

/-- Read an argument range (R276; 04 R163; 05 R194). -/
def readArg (c : OpCtx) (mover : Bool) (base x len : Nat) (s : State) : State × Got :=
  match argSpan s c x len with
  | none => (s, .no (.stop .noMapping))
  | some sp =>
    let st := worse (spanStatus sp) (partsStatus s 0 sp.g.owner (partsOf sp.g sp.o len))
    if st ≠ .ok then (s, .no (argFault s sp len st))
    else
      let need := spanNeed s c.f.got base len sp
      if !need.isEmpty then
        let (s, tags) := anchorRds sp.g.owner base need s
        (modFlight c.n mover (fun f => { f with tags := tags }) s, .no .stay)
      else match descGate 0 len none [sp] s with
        | (s, .wait) => (s, .no .stay)
        | (s, .busy) => (s, .no .stay)
        | (s, .go) =>
          let (s, y) := spanWhole s c.f.got base len sp
          match spanRead y 0 len s with
          | (s, .ok, d) => (s, .ok d)
          | (s, st, _) => (s, .no (argFault s sp len st))

/-- The set of a reference, RESIDENT or LOST (09 R381, R382). -/
def refSet (s : State) (tid : Nat) (d : List Byte) : Option Wset :=
  match setByDigest s tid d with
  | some x => some x
  | none => s.ws.sets.find? fun x => x.tid = tid && x.st = .lost && x.digest = d

/-- The tile of an operand: one on the engine's own stack, since an engine works on no other (R290; 01 R12). -/
def opTile (s : State) (c : OpCtx) (x : Nat) : Option (Wset × Tile) :=
  (c.p.wsRefs[bits x 59 52]?).bind fun d => (refSet s c.p.tid d).bind fun y =>
    (y.tiles[bits x 31 0]?).bind fun t => if t.stack = c.n / 64 then some (y, t) else none

/-- Where a tile gave no data: the page of its bad line, or a free page for a bad checksum slot or tile record (R300; 13
R524; log entry 13). -/
def tileFault (x : Wset) (t : Tile) (s : State) : State × OpRes :=
  let a := t.stack * 2 ^ 36 + t.ofs
  let b := t.stack * 2 ^ 36 + t.resOfs
  match badLine s a (tileBytes (wfmtOf x.wfmt) t.rows t.cols) with
  | some pa => (s, .park (pageOfPa pa).1 (pageOfPa pa).2)
  | none =>
    match if x.residual then badLine s b (tileBytes {} t.rows t.cols) else none with
    | some pa => (s, .park (pageOfPa pa).1 (pageOfPa pa).2)
    | none =>
      let (s, i) := takeFree 1 s
      (s, .park t.stack (Config.freeNat i % 2 ^ 20))

/-- Read bytes of a tile's image; beyond its end free bytes (log entry 13). -/
def readImage (x : Wset) (t : Tile) (len : Nat) (s : State) : State × Got :=
  let n := min len (tileBytes (wfmtOf x.wfmt) t.rows t.cols)
  match readSched 0 (t.stack * 2 ^ 36 + t.ofs) n s with
  | (s, some d) =>
    let (s, f) := freeBytes (len - n) s
    (s, .ok (d ++ f))
  | (s, none) =>
    let (s, r) := tileFault x t s
    (s, .no r)

/-- Read a source operand of an operation (R276). -/
def readSrc (c : OpCtx) (mover : Bool) (base x len : Nat) (s : State) : State × Got :=
  match bits x 63 60 with
  | 0 => (s, .ok (scratchRead (engAt s c.n) (bits x 18 17) (bits x 16 0) len))
  | 1 => match opTile s c x with
    | some (y, t) => readImage y t len s
    | none => (s, .no (.stop .engineFault))
  | 2 => readArg c mover base x len s
  | _ => (s, .no (.stop .engineFault))

/-- Write pieces, each at its place from a destination operand on (R276, R289); len is where the last one ends. Messages to lenders
and mirror peers keep the operation in execution until they are answered. -/
def writeDsts (c : OpCtx) (mover : Bool) (x len : Nat) (ds : List (Nat × List Byte)) (s : State) : State × OpRes :=
  match bits x 63 60 with
  | 0 => (modEng c.n (fun e => ds.foldl (fun e d => scratchWrite (bits x 18 17) (bits x 16 0 + d.1) d.2 e) e) s, .done)
  | 2 => match argSpan s c x len with
    | none => (s, .stop .noMapping)
    | some sp =>
      if spanStatus sp ≠ .ok then (s, .stop (spanStatus sp))
      else match descGate 0 len (some sp) [] s with
        | (s, .wait) => (s, .stay)
        | (s, .busy) => (s, .stay)
        | (s, .go) =>
          let (s, st, tags) := writeOut sp.g sp.o ds s
          if st ≠ .ok then (s, .stop st)
          else if tags.isEmpty then (s, .done)
          else (modFlight c.n mover (fun f => { f with wr := tags }) s, .stay)
  | _ => (s, .stop .engineFault)

/-- Write a destination operand. -/
def writeDst (c : OpCtx) (mover : Bool) (x : Nat) (d : List Byte) (s : State) : State × OpRes :=
  writeDsts c mover x d.length [(0, d)] s

/-! NOP, BANK_OWN, BARRIER, END -/

/-- OP_NOP (R275, R287). -/
def execOpNop (eng : Nat) (e : Env) (s : State) : Host.Outcome State Fault Refusal :=
  .next (streamOp eng 0 false (fun p _ d s => signal p d (advance eng d s)) (applyAll e s))

/-- BANK_OWN: ownership passes in the handover cycle; a register write of the same cycle stands (R268, R269). -/
def bankOwnOp (n : Nat) (p : Plan) (d : OpD) (s : State) : State :=
  let b := bits d.param.toNat 1 0
  let old := ownerOf (engAt s n) b
  let o := bankOwnerOf (bits d.param.toNat 3 2)
  let hit := (engAt s n).ownReg = some s.now
  let s := modEng n (fun e => { handBank b o e with ownOp := some (s.now, b) }) s
  let s := if hit then
      setFe (fun c => { c with bankColl := satAdd 16 c.bankColl 1 }) (modEng n (handBank b old) s)
    else s
  signal p d (advance n d (landEngine n s))

/-- OP_BANK_OWN. -/
def execOpBankOwn (eng : Nat) (e : Env) (s : State) : Host.Outcome State Fault Refusal :=
  .next (streamOp eng 8 true (fun p _ d s => bankOwnOp eng p d s) (applyAll e s))

/-- BARRIER: the engine issues it to its free compute port, arrives and waits there for the phase (R275, R287, R294). -/
def barrierOp (n : Nat) (s : State) : State :=
  match runOf s n with
  | none => s
  | some (p, r) =>
    let e := engAt s n
    let d := opAt p n e.pc
    if e.st = .running && !e.ended && d.opc = 9 && e.comp.isNone && waitMet e d then
      let f : Flight := { i := e.pc, since := s.now, ord := s.vrb.nextOrd }
      let s := noteWork p.idx (advance n d (modEng n (fun e => { e with comp := some f }) s))
      match opBar s p r d with
      | none => s
      | some b =>
        barArrived b.idx (modBar b.idx (fun b => { b with
          arrived := if b.mask.contains n && !b.arrived.contains n then b.arrived ++ [n] else b.arrived }) s)
    else s

/-- OP_BARRIER. -/
def execOpBarrier (eng : Nat) (e : Env) (s : State) : Host.Outcome State Fault Refusal :=
  .next (barrierOp eng (applyAll e s))

/-- OP_END: the engine ends its stream once its earlier operations have completed (R288). -/
def execOpEnd (eng : Nat) (e : Env) (s : State) : Host.Outcome State Fault Refusal :=
  .next (streamOp eng 0x0F true (fun p _ d s =>
    signal p d (modEng eng (fun x => { x with ended := true, idleSince := s.now }) (advance eng d s))) (applyAll e s))

/-! MOVE, SEND, RECV -/

/-- MOVE (R275, R290). -/
def moveOp (c : OpCtx) (s : State) : State × OpRes :=
  match readSrc c true 0 c.d.src.toNat (moveLen c.d) s with
  | (s, .ok d) => writeDst c true c.d.dst.toNat d s
  | (s, .no r) => (s, r)

/-- OP_MOVE. -/
def execOpMove (eng : Nat) (e : Env) (s : State) : Host.Outcome State Fault Refusal :=
  .next (portOp eng (fun d => d.opc == 1) true moveOp (applyAll e s))

/-- STREAM packets of up to 2,048 B towards a node (R289; 11 R484, R485); n bounds their number. -/
def sendStream (p : Plan) (x : Nat) : Nat → List Byte → State → State
  | 0, _, s => s
  | n + 1, d, s =>
    if d.isEmpty then s
    else
      let k := d.take 2048
      let a : StreamArea := { tid := p.tid, dplan := bits x 51 36, engine := bits x 30 20, bank := bits x 32 31,
                              len := k.length, data := k }
      sendStream p x n (d.drop 2048)
        (sendMsg (bits x 19 0) true { tc := if 0 < p.tc4 then 4 else 2, tid := some p.tid, body := .stream a, plan := some (planHandle p) } s)

/-- SEND (R289). -/
def sendOp (c : OpCtx) (s : State) : State × OpRes :=
  let x := c.d.dst.toNat
  match readSrc c true 0 c.d.src.toNat (moveLen c.d) s with
  | (s, .ok d) =>
    if bits x 63 60 = 3 then (sendStream c.p x (d.length / 2048 + 1) d s, .done) else writeDst c true x d s
  | (s, .no r) => (s, r)

/-- OP_SEND. -/
def execOpSend (eng : Nat) (e : Env) (s : State) : Host.Outcome State Fault Refusal :=
  .next (portOp eng (fun d => d.opc == 6) true sendOp (applyAll e s))

/-- RECV: LEN bytes have landed in the bank (R275). -/
def recvOp (c : OpCtx) (s : State) : State × OpRes :=
  let b := bits c.d.param.toNat 21 20
  let have' := nth 0 (engAt s c.n).landed b
  if have' < moveLen c.d then (s, .stay)
  else (modEng c.n (fun e => { e with landed := e.landed.set b (have' - moveLen c.d) }) s, .done)

/-- OP_RECV. -/
def execOpRecv (eng : Nat) (e : Env) (s : State) : Host.Outcome State Fault Refusal :=
  .next (portOp eng (fun d => d.opc == 7) true recvOp (applyAll e s))

/-! GEMV (08 R322 to R349) -/

/-- The activation vectors of a GEMV (08 R319, R329). -/
def gemvVecs (e : Eng) (d : OpD) (k : Nat) : List ActVec :=
  let f := afmtOf (d.fmt % 4)
  let st := actStride f k
  (List.range (gemvBatch d)).map fun v =>
    actSub f k 0 k (slice (scratchRead e (bits d.param.toNat 18 17) (actOfs d + v * st) st) 0 st)

/-- The outputs of a vector: with ACCUM added to what the output location holds, otherwise in the output format; with the
flags of R327 (08 R324, R330). -/
def gemvOutput (e : Eng) (d : OpD) (v : Nat) (ys : List (BitVec 32)) : List Byte × Nat :=
  let x := d.dst.toNat
  if d.param.getLsbD 34 then
    let base := scratchRead e (bits x 18 17) (bits x 16 0 + v * outStride false ys.length) (4 * ys.length)
    let z := ((List.range ys.length).zip ys).map fun y => accAdd (BitVec.ofNat 32 (field base (4 * y.1) 4), 0) y.2
    ((z.map fun y => le 4 y.1.toNat).flatten, z.foldl (fun f y => f ||| y.2) 0)
  else outBytes (gemvBf d) ys

/-- The run of a plan counts the escalated blocks of a GEMV (08 R348, R349). -/
def noteRunEsc (c : OpCtx) (o : GemvOut) (s : State) : State :=
  noteEsc o.esc (modPlan c.p.idx (fun p => { p with run := p.run.map fun r => { r with
    esc := r.esc + o.esc, escAny := r.escAny || decide (0 < o.esc) } }) s)

/-- A GEMV whose checks have passed writes its outputs and its flag record (08 R324, R330, R331, R348, R349). -/
def gemvWrite (c : OpCtx) (o : GemvOut) (s : State) : State :=
  let e := engAt s c.n
  let x := c.d.dst.toNat
  let rows := match o.ys with | y :: _ => y.length | [] => 0
  let st := outStride (gemvBf c.d) rows
  let bs := ((List.range o.ys.length).zip o.ys).map fun y => gemvOutput e c.d y.1 y.2
  let fl := bs.foldl (fun f b => f ||| b.2) o.flags
  let e := ((List.range bs.length).zip bs).foldl (fun e b =>
    scratchWrite (bits x 18 17) (bits x 16 0 + b.1 * st) b.2.1 e) e
  let e := if c.d.param.getLsbD 33 then
      scratchWrite (bits x 18 17) (bits x 16 0 + o.ys.length * st)
        (le 1 fl ++ le 1 0 ++ le 2 o.skipped ++ le 4 o.esc) e
    else e
  noteRunEsc c o (noteFlags c.n fl (modEng c.n (fun _ => e) s))

/-- The outputs of a GEMV whose check has failed become undefined; its flags and its escalated blocks count (08 R342, R348, R353;
log entry 13). -/
def gemvUndef (c : OpCtx) (o : GemvOut) (s : State) : State :=
  let x := c.d.dst.toNat
  let rows := match o.ys with | y :: _ => y.length | [] => 0
  let (s, d) := freeBytes (o.ys.length * outStride (gemvBf c.d) rows) (noteRunEsc c o (noteFlags c.n o.flags s))
  modEng c.n (scratchWrite (bits x 18 17) (bits x 16 0) d) s

/-- One execution of a GEMV: its tile is read and its vectors are multiplied and checked (08 R322 to R339). -/
def gemvOnce (env : Env) (code : Nat) (c : OpCtx) (s : State) : State × Option GemvOut × OpRes :=
  match opTile s c c.d.src.toNat with
  | none => (s, none, .stop .engineFault)
  | some (x, t) =>
    let esc := let m := bits c.d.param.toNat 32 31; if m = 3 then 0 else m
    let tol := clampTo 6 20 (bits c.d.param.toNat 30 26)
    let vs := gemvVecs (engAt s c.n) c.d t.cols
    match readTile x t esc vs s with
    | (s, none) =>
      let (s, r) := tileFault x t s
      (s, none, r)
    | (s, some ti) => (s, some (gemvTile ti esc tol (macFaults env code (bits c.d.src.toNat 31 0)) vs), .done)

/-- GEMV: the first execution (08 R340 to R342). -/
def gemvOp (env : Env) (c : OpCtx) (s : State) : State × OpRes :=
  match gemvOnce env 0x200 c s with
  | (s, none, r) => (s, r)
  | (s, some o, _) => match o.miss with
    | none => (gemvWrite c o s, .done)
    | some ratio => match reexecPos s c.n with
      | none => (abftFailed c.n c.p.tid ratio none (gemvUndef c o s), .stay)
      | some pos => (setFe (fun x => { x with reexec := x.reexec ++ [{ eng := c.n, pos := pos, ratio := ratio }] }) s, .stay)

/-- OP_GEMV. -/
def execOpGemv (eng : Nat) (e : Env) (s : State) : Host.Outcome State Fault Refusal :=
  .next (portOp eng (fun d => d.opc == 2) false (gemvOp e) (applyAll e s))

/-- The second execution of a GEMV (08 R340 to R343). -/
def reexecRun (env : Env) (x : Reexec) (c : OpCtx) (s : State) : State :=
  match gemvOnce env 0x201 c s with
  | (s, none, r) => settleOp c false (s, r)
  | (s, some o, _) =>
    let s := setFe (fun y => { y with reexec := y.reexec.filter fun z => z.eng ≠ c.n }) s
    match o.miss with
    | none =>
      settleOp c false (gemvWrite c { o with flags := o.flags ||| flRetry } (abftRecovered c.n c.p.tid x.ratio x.pos s), .done)
    | some _ => abftFailed c.n c.p.tid x.ratio (some x.pos) (gemvUndef c o s)

/-- ABFT_REEXEC_DONE: the re-execution of an engine's GEMV has run (08 R341, R342). It waits while the compute port does not own
the operation's banks (07 R266 to R268). -/
def execAbftReexecDone (eng : Nat) (e : Env) (s : State) : Host.Outcome State Fault Refusal :=
  let s := applyAll e s
  .next (match s.fe.reexec.find? (fun x => x.eng = eng), runOf s eng, (engAt s eng).comp with
    | some x, some (p, r), some f =>
      if (engAt s eng).st = .running && (foreignBank (engAt s eng) false (opAt p eng f.i)).isNone then
        reexecRun e x { n := eng, p := p, r := r, d := opAt p eng f.i, f := f } s
      else s
    | _, _, _ => s)

/-! ATTEND (09 R395 to R397, R399) -/

/-- The pages of an ATTEND that lie on its engine's stack and hold attended tokens, with their partials' inputs. -/
def attendPages (o : KvObj) (l h stack n : Nat) : List Nat → State → State × Option (List (Nat × List (List Fp × List Fp))) × OpRes
  | [], s => (s, some [], .done)
  | p :: ps, s =>
    let t := kvT o
    if kvStack o l h p ≠ stack || n ≤ p * t then attendPages o l h stack n ps s
    else
      let f := match pageOf o l h p with | some x => x.frame | none => {}
      match readPage o f (min t (n - p * t)) s with
      | (s, none) => (s, none, .park (pageOfPa (framePa f)).1 (pageOfPa (framePa f)).2)
      | (s, some a) =>
        let (s, r, x) := attendPages o l h stack n ps s
        (s, r.map fun r => (p, a) :: r, x)

/-- The record of one query and head: m, l and o merged over the pages by the tree of R397. -/
def attendRecord (hd : Nat) (q : List Fp) (t n : Nat) (pages : List (Nat × List (List Fp × List Fp))) : List Byte × Bool :=
  let cut := pages.map fun p => (p.1, p.2.take (n - p.1 * t))
  let bad := q.any fpSpecial || cut.any fun p => p.2.any fun x => x.1.any fpSpecial || x.2.any fpSpecial
  let a : AttPart :=
    if bad then { m := f32Nan, l := f32Nan, o := List.replicate hd f32Nan }
    else
      let top := pages.foldl (fun k p => max k (p.1 + 1)) 0
      attTree 32 ((List.range top).map fun i => match assoc i cut with
        | some (x :: l) => attPage hd (headScale hd) q (x :: l)
        | _ => { o := List.replicate hd 0 })
  (le 4 a.m.toNat ++ le 4 a.l.toNat ++ (((a.o ++ List.replicate (hd - a.o.length) 0)).map fun (x : BitVec 32) => le 4 x.toNat).flatten, bad)

/-- ATTEND (09 R389, R399). -/
def attendOp (c : OpCtx) (s : State) : State × OpRes :=
  let x := c.d.src.toNat
  let y := c.d.param.toNat
  match (c.r.args[bits x 59 56]?).bind fun a => kvOf s a.win c.p.tid with
  | none => (s, .stop .noMapping)
  | some o =>
    let l := bits x 39 32
    let h := bits x 31 26
    let first := bits x 22 0
    if o.st = .lost then (s, .stop .poisoned)
    else if s.vrb.waiting.any fun w => w.op = 0x41 && decide (w.ord < c.f.ord) && reqTid w.req = o.tid
        && field w.req.payload 0 4 % 2 ^ 28 = kvHandle o
        && (let z := kvLayers o w; decide (z.1 ≤ l) && decide (l < z.1 + z.2)) then (s, .stay)
    else
      let nq := bits y 35 32 + 1
      let g := bits y 22 19 + 1
      let n := if l < o.layers && h < o.heads then nth 0 o.lens l else 0
      let count := min (clampTo 1 511 (bits y 31 23)) (ceilDiv n (kvT o) - first)
      match attendPages o l h (c.n / 64) n ((List.range count).map fun i => first + i) s with
      | (s, none, r) => (s, r)
      | (s, some pages, _) =>
        let f := afmtOf (c.d.fmt % 4)
        let qs := actStride f o.headDim
        let e := engAt s c.n
        let rs := (List.range (nq * g)).map fun k =>
          let q := scratchRead e (bits y 18 17) (bits y 16 0 + k * qs) qs
          attendRecord o.headDim (actValues (actSub f o.headDim 0 o.headDim q)) (kvT o) (n + k / g + 1 - nq) pages
        let st := ceilDiv (8 + 4 * o.headDim) 64 * 64
        let z := c.d.dst.toNat
        let ds := ((List.range rs.length).zip rs).map fun b => (b.1 * st, b.2.1)
        let s := if rs.any Prod.snd then noteFlags c.n flNonfinite s else s
        writeDsts c false z ((rs.length - 1) * st + 8 + 4 * o.headDim) ds s

/-- OP_ATTEND. -/
def execOpAttend (eng : Nat) (e : Env) (s : State) : Host.Outcome State Fault Refusal :=
  .next (portOp eng (fun d => d.opc == 3) false attendOp (applyAll e s))

/-! EWISE and REDUCE (R275; 08 R332) -/

/-- FUNC of an EWISE (R275). -/
def ewiseFunc (d : OpD) : Nat := let k := bits d.param.toNat 3 0; if 4 < k then 0 else k

/-- Elements of n bytes that fit in both banks from the operands on. -/
def ewiseCount (d : OpD) (src dst : Nat) : Nat :=
  min (Config.ewiseLen d.param)
    (min ((2 ^ 17 - bits d.src.toNat 16 0) / src) ((2 ^ 17 - bits d.dst.toNat 16 0) / dst))

/-- FP32 values of an operand in scratch. -/
def scratchF32 (e : Eng) (x n : Nat) : List (BitVec 32) :=
  let d := scratchRead e (bits x 18 17) (bits x 16 0) (4 * n)
  (List.range n).map fun i => BitVec.ofNat 32 (field d (4 * i) 4)

/-- An elementwise operation on FP32 values in scratch: DST := f DST SRC (log entry 28). -/
def ewiseOp (f : BitVec 32 → BitVec 32 → BitVec 32) (c : OpCtx) (s : State) : State × OpRes :=
  let e := engAt s c.n
  let n := ewiseCount c.d 4 4
  let a := scratchF32 e c.d.dst.toNat n
  let b := scratchF32 e c.d.src.toNat n
  writeDst c false c.d.dst.toNat ((List.zipWith f a b).map fun x => le 4 x.toNat).flatten s

/-- An EWISE of a function. -/
def ewiseIs (k : Nat) (d : OpD) : Bool := d.opc == 4 && ewiseFunc d == k

/-- OP_EWISE_ADD. -/
def execOpEwiseAdd (eng : Nat) (e : Env) (s : State) : Host.Outcome State Fault Refusal :=
  .next (portOp eng (ewiseIs 0) false (ewiseOp f32Add) (applyAll e s))

/-- OP_EWISE_MUL. -/
def execOpEwiseMul (eng : Nat) (e : Env) (s : State) : Host.Outcome State Fault Refusal :=
  .next (portOp eng (ewiseIs 1) false (ewiseOp f32Mul) (applyAll e s))

/-- OP_EWISE_MAX. -/
def execOpEwiseMax (eng : Nat) (e : Env) (s : State) : Host.Outcome State Fault Refusal :=
  .next (portOp eng (ewiseIs 2) false (ewiseOp f32Max) (applyAll e s))

/-- OP_EWISE_SCALE: DST := SRC times the factor of PARAM (log entry 28). -/
def execOpEwiseScale (eng : Nat) (e : Env) (s : State) : Host.Outcome State Fault Refusal :=
  .next (portOp eng (ewiseIs 3) false (fun c s =>
    ewiseOp (fun _ b => f32Mul b (Config.ewiseScale c.d.param)) c s) (applyAll e s))

/-- CONVERT (08 R328, R332). -/
def convertOp (c : OpCtx) (s : State) : State × OpRes :=
  let e := engAt s c.n
  let f := afmtOf (c.d.fmt % 4)
  let src16 := bit c.d.fmt 3
  let n0 := Config.ewiseLen c.d.param
  let n := if f = .bf16 then n0 else max 32 (n0 / 32 * 32)
  let x := c.d.src.toNat
  let d := scratchRead e (bits x 18 17) (bits x 16 0) ((if src16 then 2 else 4) * n)
  let xs := (List.range n).map fun i =>
    if src16 then bf16To32 (BitVec.ofNat 16 (field d (2 * i) 2)) else BitVec.ofNat 32 (field d (4 * i) 4)
  let (s, base) := takeFree n s
  writeDst c false c.d.dst.toNat (convertTo f base xs) s

/-- OP_EWISE_CONVERT. -/
def execOpEwiseConvert (eng : Nat) (e : Env) (s : State) : Host.Outcome State Fault Refusal :=
  .next (portOp eng (ewiseIs 4) false convertOp (applyAll e s))

/-- REDUCE: SRC into DST, with the functions and elements of 06 R245 (R275). -/
def reduceOp (c : OpCtx) (s : State) : State × OpRes :=
  let y := c.d.param.toNat
  let func := if 2 < bits y 3 0 then 0 else bits y 3 0
  let elem := if 3 < bits y 7 4 then 0 else bits y 7 4
  let w := elemBytes elem
  let len := min (Config.reduceLen c.d.param) (2 ^ 17) / w * w
  match readSrc c false 0 c.d.src.toNat len s with
  | (s, .no r) => (s, r)
  | (s, .ok a) => match readSrc c false (2 ^ 40) c.d.dst.toNat len s with
    | (s, .no r) => (s, r)
    | (s, .ok b) =>
      let n := min a.length b.length / w
      writeDst c false c.d.dst.toNat (reduceBytes func elem w n b a) s

/-- OP_REDUCE. -/
def execOpReduce (eng : Nat) (e : Env) (s : State) : Host.Outcome State Fault Refusal :=
  .next (portOp eng (fun d => d.opc == 5) false reduceOp (applyAll e s))

end Sys2Proof.Machine
end

