-- ==== Sys2Proof/Machine/Lenders.lean ====
section
/-! DEFINITION. The answers of lenders and mirror peers, and the loss of a lender (04_pool_memory R153 to R155, R163 to R165, R167,
R168; 06_pool_verbs R237). -/

namespace Sys2Proof.Machine

/-- An anchor enters LOST: its shadows go, a record is kept, and ANCHOR_LOST goes to the covered nodes (04 R164, R169). -/
def loseAnchor (i : Nat) (s : State) : State :=
  match anchorAt s i with
  | none => s
  | some a =>
    if a.st = .lost || anchorGone s a then s
    else
      let s := modAnchor i (fun a => { a with st := .lost }) s
      let s := setPool (fun p => { p with
        ancLosses := satAdd 16 p.ancLosses 1
        shadows := p.shadows.filter fun u => u.anchor ≠ i }) s
      match a.region with
      | some g => fanOut (regionGrants s g) 0x06 .nodeLost a.tid i g 0 0 (cairnAt 0x06 5 g i 0 0x40 a.tid .nodeLost s)
      | none =>
        let (s, f) := takeFree 1 s
        cairnAt 0x06 5 (Config.freeNat f) i 0 0x40 a.tid .nodeLost s

/-! What waits for a TAG -/

/-- A waiting request waits for the answer to a message. -/
def waitsTag (tag : Nat) (w : Waiting) : Bool :=
  match w.why with
  | .anchorRd tags _ => tags.any fun t => t.1 = tag
  | .anchorWr tags _ _ => tags.contains tag
  | .mirror tags _ => tags.contains tag
  | _ => false

/-- Take a waiting request out of the list. -/
def unwait (w : Waiting) (s : State) : State :=
  setVrb (fun v => { v with waiting := eraseFirst (fun x => x == w) v.waiting }) s

/-- A waiting request goes on with all the lenders' data it has asked for; an anchor written meanwhile is read again
(04 R167; 05 R187). -/
def withData (w : Waiting) (got : List (Nat × List Byte)) (s : State) : State :=
  let got := if w.dirty then [] else got
  let w := { w with dirty := false }
  if w.op = 8 || w.op = 9 then prefetchRun w got s
  else if 1 ≤ w.op && w.op ≤ 4 then memAttempt w got s
  else againLater { w with got := got } s

/-- What the peer's answer to a MIRROR_BIND changes (04 R153, R154): the answer that follows, or the undoing. -/
def bindAnswered (w : Waiting) (resp : Resp) (st : Status) (obj : Nat) (s : State) : State × Resp :=
  let i := resp.obj.toNat
  if w.op = 0x18 then
    if st = .ok then
      match regionAt s i with
      | some g => (sawMirror g.shadowNode (modRegion i (fun g => { g with otherIdx := obj, bound := true }) s),
          { resp with r2 := resp.r2 ||| w64 (obj * 2 ^ 32) })
      | none => (s, resp)
    else (dropRegions [i] s, mkResp s w.req (if st = .nodeLost then .nodeLost else .refused))
  else if w.op = 0x1B then
    if st = .ok then (modWindow (i % 2 ^ 16) (fun x => { x with peerWin := obj }) s, { resp with r1 := w64 obj })
    else match windowOf s i with
      | some x => (dropWindows [x] s, mkResp s w.req st)
      | none => (s, mkResp s w.req st)
  else if w.op = 0x1C then
    if st = .ok then (s, resp)
    else (modWindow (i % 2 ^ 16) (fun x => { x with grants := setNthD none resp.r0.toNat none x.grants }) s, mkResp s w.req st)
  else (s, { resp with status := worse resp.status st })

/-- The answer to a message that a waiting request waits for (04 R153 to R155, R163, R168). -/
def landWait (tag : Nat) (st : Status) (obj : Nat) (d : List Byte) (w : Waiting) (s : State) : State :=
  let again := fun (y : Wait) => setVrb (fun v => { v with waiting := mapIf (fun x => x == w) (fun x => { x with why := y }) v.waiting }) s
  match w.why with
  | .anchorRd tags got =>
    if st ≠ .ok then
      let (s, p) := failResp w st (undefOut w (unwait w s))
      finishMem w p (dropLoading w s)
    else
      let got := match assoc tag tags with
        | some key => setAssoc key d got
        | none => got
      let tags := tags.filter fun t => t.1 ≠ tag
      if tags.isEmpty then withData w got (unwait w s) else again (.anchorRd tags got)
  | .anchorWr tags st' old =>
    let tags := tags.filter (· ≠ tag)
    let st := worse st' st
    if tags.isEmpty then
      finishMem w { mkResp s w.req st with r0 := w64 (if w.op = 4 && st = .ok then ofLe old else 0) } (unwait w s)
    else again (.anchorWr tags st old)
  | .mirror tags resp =>
    let tags := tags.filter (· ≠ tag)
    let (s, resp) := if tags.isEmpty then bindAnswered w resp st obj (unwait w s)
      else (s, { resp with status := worse resp.status st })
    if tags.isEmpty then
      let (s, resp) := if w.outAt.isNone || resp.status = .ok || resp.status = .okEscalated then (s, resp)
        else failResp w resp.status (undefOut w s)
      finishMem w resp s
    else again (.mirror tags resp)
  | _ => s

/-- The descriptor that waits for the answer to a message. -/
def descOfTag (s : State) (tag : Nat) : Option (Nat × DescRec) :=
  s.bulk.qs.findSome? fun q => (q.descs.find? fun x => (x.tags.any fun t => t.1 = tag) || x.wr.any fun t => t.1 = tag).map fun x => (q.idx, x)

/-- The answer to a message that a descriptor waits for: a failure stops it (06 R247, R248). -/
def landDesc (tag : Nat) (st : Status) (d : List Byte) (q : Nat) (x : DescRec) (s : State) : State :=
  match assoc tag x.tags with
  | some key =>
    if st ≠ .ok then
      let (s, n, wr) := descStop x s
      modDesc q x.n (fun y => { y with phase := .done, status := st, bytes := n, tags := [], got := [], wr := wr }) s
    else modDesc q x.n (fun y => { y with
      tags := y.tags.filter fun t => t.1 ≠ tag
      got := setAssoc key d y.got }) s
  | none => modDesc q x.n (fun y => { y with
      wr := y.wr.filter fun t => t.1 ≠ tag
      bytes := if st = .ok then y.bytes else min y.bytes (assocD y.bytes tag y.wr)
      status := worse y.status st }) s

/-- The flight of a port waits for the answer to a message. -/
def flightHas (tag : Nat) (f : Option Flight) : Bool :=
  match f with
  | some f => (f.tags.any fun t => t.1 = tag) || f.wr.contains tag
  | none => false

/-- The answer to a message that an operation of an engine waits for (07 R287, R291). -/
def landFlight (tag : Nat) (st : Status) (d : List Byte) (n : Nat) (mover : Bool) (s : State) : State :=
  match runOf s n with
  | none => s
  | some (p, _) =>
    if st ≠ .ok then abortRun p.idx st (some n) s
    else
      let e := engAt s n
      let last := match if mover then e.mov else e.comp with
        | some f => f.wr == [tag]
        | none => false
      let s := modFlight n mover (fun f => match assoc tag f.tags with
        | some key => { f with tags := f.tags.filter (fun t => t.1 ≠ tag), got := setAssoc key d f.got }
        | none => { f with wr := f.wr.filter (· ≠ tag) }) (noteBreak p.idx s)
      let i := match if mover then e.mov else e.comp with
        | some f => f.i
        | none => 0
      if last then opDone n mover p (opAt p n i) s else s

/-- The answer to a message, or the loss of its receiver, reaches what waits for it. -/
def landTag (tag : Nat) (st : Status) (obj : Nat) (d : List Byte) (s : State) : State :=
  match s.vrb.waiting.find? (waitsTag tag) with
  | some w => landWait tag st obj d w s
  | none => match descOfTag s tag with
    | some (q, x) => landDesc tag st d q x s
    | none => match s.fe.engs.find? fun e => flightHas tag e.comp || flightHas tag e.mov with
      | some e => landFlight tag st d e.n (flightHas tag e.mov) s
      | none => s

/-- A lender answers: anything but OK is the loss of the anchor (04 R163, R164; 06 R237). -/
def lenderAnswer (node : Nat) (p : Resp) (s : State) : State :=
  let tag := p.tag.toNat
  match (assoc tag s.pool.ancTags).bind (anchorAt s) with
  | none => s
  | some a =>
    if a.lender ≠ node then s
    else
      let s := setPool (fun q => { q with ancTags := q.ancTags.filter fun t => t.1 ≠ tag }) s
      let s := if p.status = .ok then s else loseAnchor a.idx s
      revsAdvance (landTag tag (if p.status = .ok then .ok else .nodeLost) 0 p.payload s)

/-- ANCHOR_RESPONSE (04 R163). -/
def execAnchorResponse (node : Nat) (p : Resp) (e : Env) (s : State) : Host.Outcome State Fault Refusal :=
  .next (lenderAnswer node p (applyEnv e s))

/-- A mirror peer answers MIRROR_BIND or MIRROR_WRITE (04 R153 to R155). -/
def mirrorAnswer (node : Nat) (p : Resp) (s : State) : State :=
  let tag := p.tag.toNat
  if s.pool.mirTags.any fun t => t == (tag, node) then
    revsAdvance (landTag tag p.status p.obj.toNat []
      (setPool (fun q => { q with mirTags := q.mirTags.filter fun t => t.1 ≠ tag }) s))
  else s

/-- MIRROR_PEER_RESPONSE (04 R155). -/
def execMirrorPeerResponse (node : Nat) (p : Resp) (e : Env) (s : State) : Host.Outcome State Fault Refusal :=
  .next (mirrorAnswer node p (applyEnv e s))

/-! The loss of a node that owes an answer (11 R474) -/

/-- A lender is lost: its anchors enter LOST, and what waits for it completes with NODE_LOST (04 R164). -/
def lenderLost (node : Nat) (s : State) : State :=
  let ids := (s.pool.anchors.filter fun a => a.lender = node).map Anchor.idx
  let tags := (s.pool.ancTags.filter fun t => ids.contains t.2).map Prod.fst
  let s := ids.foldl (fun s i => loseAnchor i s)
    (setPool (fun q => { q with ancTags := q.ancTags.filter fun t => !ids.contains t.2 }) s)
  tags.foldl (fun s t => landTag t .nodeLost 0 [] s) s

/-- A mirror peer is lost: what waits for it completes with NODE_LOST (04 R153). -/
def mirrorLost (node : Nat) (s : State) : State :=
  let tags := (s.pool.mirTags.filter fun t => t.2 = node).map Prod.fst
  tags.foldl (fun s t => landTag t .nodeLost 0 [] s)
    (setPool (fun q => { q with mirTags := q.mirTags.filter fun t => t.2 ≠ node }) s)

end Sys2Proof.Machine
end

