-- ==== Sys2Proof/Machine/Link.lean ====
section
/-! DEFINITION. The commands of a port's link layer (10_tythes_link R408 to R443; 11_fabric_routing R482). -/

namespace Sys2Proof.Machine

/-! Training and verification -/

/-- SIGNAL_DETECT: signal on a lane for 1 ms in DOWN; the lanes lock whose marker shares are found (10 R407, R414, R417; log entry
68). -/
def execSignalDetect (port : Fin 64) (m : SignalIn) (s : State) : Host.Outcome State Fault Refusal :=
  let s := atTime m.t s
  .next (if (portAt s port).st = .down then
    tryTrain port (modPort port (fun p => { p with signal := some s.now, lock := lockOf m.marks }) s) else s)

/-- The peer's TRAIN_PARAM arrives: the width is set, and each end holds the other's; an end that did not hold it sends its own once
more (10 R417 to R419; log entry 68). -/
def trainParam (k reqWidth : Nat) (goodMask : Byte) (credits : List Nat) (s : State) : State :=
  let p := portAt s k
  if p.st ≠ .train || p.peerParams then s
  else
    match laneChoice p.sentWidth (min 3 reqWidth) p.lanesGood goodMask with
    | none => trainFail k 0x11 s
    | some (w, lanes) =>
      if badCredits credits then trainFail k 0x12 s
      else sendCtl k (.rttProbe (w64 s.now)) (sendTrainParam k (modPort k (fun p => { p with
        width := w, lanesUsed := lanes, peerParams := true
        crdPeer := (List.range 12).map fun i => nth 0 credits i }) s))

/-- An RTT sample; after 16 of them the replay timeout is set and VERIFY begins (10 R417, R433). -/
def rttEcho (k : Nat) (stamp : BitVec 64) (s : State) : State :=
  let p := portAt s k
  if p.st ≠ .train || !p.peerParams then s
  else
    let x := min 65535 (s.now - stamp.toNat)
    let rtt := if p.rttPairs = 0 then x else max x p.rttNs
    let s := modPort k (fun p => { p with rttNs := rtt, rttPairs := p.rttPairs + 1 }) s
    if p.rttPairs + 1 < 16 then sendCtl k (.rttProbe (w64 s.now)) s
    else enterVerify k (modPort k (fun p => { p with replayToNs := clampTo 1000 20000 (2 * rtt + 400) }) s)

/-- TRAIN_TIMEOUT: VERIFY has not been reached by 150 ms (10 R417). -/
def execTrainTimeout (port : Fin 64) (t : Nat) (s : State) : Host.Outcome State Fault Refusal :=
  let s := atTime t s
  let p := portAt s port
  .next (if p.st = .train && decide (p.since + 150000000 ≤ s.now) then trainFail port 0x10 s else s)

/-- IDENT_SEND: in VERIFY until IDENT_ACK has come (10 R420, R423). -/
def execIdentSend (port : Fin 64) (t : Nat) (s : State) : Host.Outcome State Fault Refusal :=
  let s := atTime t s
  let p := portAt s port
  .next (if p.st = .verify && !p.gotAck then sendLm port { ownLm s port 1 with nonce := p.nonce } s else s)

/-- The peer's IDENT is checked and answered (10 R420, R422). -/
def identCheck (k : Nat) (m : LinkMgmt) (s : State) : State :=
  let p := portAt s k
  let c := portCfg s k
  if p.st ≠ .verify then s
  else
    let s := modPort k (fun p => { p with
      nbrNode := m.node % 2 ^ 20, nbrPort := m.port % 64, nbrKind := min 2 m.kind, nbrInc := m.inc % 2 ^ 16 }) s
    let node := m.node % 2 ^ 20
    let port := m.port % 64
    if node = s.glb.node then verifyFail k 0x15 node port s
    else if c.verify && (node ≠ c.nbrNode || port ≠ c.nbrPort) then verifyFail k 0x13 node port s
    else if s.img.clusterId ≠ 0 && m.cluster ≠ 0 && s.img.clusterId ≠ m.cluster then verifyFail k 0x13 node port s
    else
      let s := sendLm k { ownLm s k 2 with echo := m.nonce } (modPort k (fun p => { p with gotIdent := true }) s)
      verifyPass k s

/-- The peer acknowledges the port's NONCE (10 R420). -/
def identAcked (k : Nat) (m : LinkMgmt) (s : State) : State :=
  let p := portAt s k
  if p.st = .verify && p.nonce = m.echo then verifyPass k (modPort k (fun p => { p with gotAck := true }) s) else s

/-- A HEARTBEAT names the neighbour of the IDENT, or the link resets (10 R424). -/
def heartbeat (k : Nat) (m : LinkMgmt) (s : State) : State :=
  let p := portAt s k
  if p.st ≠ .active then s
  else if m.node % 2 ^ 20 ≠ p.nbrNode || m.inc % 2 ^ 16 ≠ p.nbrInc then portReset k rsNbrChanged (linkFlag k 5 s)
  else modPort k (fun p => { p with lastHb := s.now }) s

/-- LEAVE: DOWN at once; the port trains again only after LOS has cleared (10 R425; 02 R81). -/
def peerLeaves (k : Nat) (s : State) : State :=
  match (portAt s k).st with
  | .verify | .active => modPort k (fun p => { p with losNeeded := true }) (portDown k rsPeerLeave s)
  | _ => s

/-- A link-management packet arrives, as its bytes spell it where a flit has brought them (10 R423, R424). -/
def lmIn (k : Nat) (m : LinkMgmt) (s : State) : State :=
  let (s, x) := takeIngress k 5 s
  let m := match x with
    | some x => lmOf x.bytes
    | none => m
  match m.type with
  | 1 => identCheck k m s
  | 2 => identAcked k m s
  | 4 => peerLeaves k s
  | _ => heartbeat k m s

/-- IDENT (10 R420). -/
def execIdent (port : Fin 64) (m : LinkMgmt) (t : Nat) (s : State) : Host.Outcome State Fault Refusal :=
  .next (lmIn port { m with type := 1 } (atTime t s))

/-- IDENT_ACK: it echoes the port's NONCE (10 R420). -/
def execIdentAck (port : Fin 64) (m : LinkMgmt) (t : Nat) (s : State) : Host.Outcome State Fault Refusal :=
  .next (lmIn port { m with type := 2 } (atTime t s))

/-- VERIFY_TIMEOUT: verification has not passed by 20 ms; a NODE and PORT not received are free (10 R420, R422; log
entry 13). -/
def execVerifyTimeout (port : Fin 64) (t : Nat) (s : State) : Host.Outcome State Fault Refusal :=
  let s := atTime t s
  let p := portAt s port
  .next (if p.st = .verify && decide (p.since + 20000000 ≤ s.now) then
      if p.gotIdent then verifyFail port 0x14 p.nbrNode p.nbrPort s
      else
        let (s, i) := takeFree 2 s
        verifyFail port 0x14 (Config.freeNat i % 2 ^ 20) (Config.freeNat (i + 1) % 64) s
    else s)

/-! Heartbeats -/

/-- HEARTBEAT_SEND: every 100 us in ACTIVE (10 R424; 02 R58). -/
def execHeartbeatSend (port : Fin 64) (t : Nat) (s : State) : Host.Outcome State Fault Refusal :=
  let s := atTime t s
  let p := portAt s port
  .next (if p.st = .active && decide (p.lastHbTx + 100000 ≤ s.now) then
      sendLm port (ownLm s port 3) (modPort port (fun p => { p with lastHbTx := s.now }) s)
    else s)

/-- HEARTBEAT; the reserved types stand for it (10 R423, R424). -/
def execHeartbeat (port : Fin 64) (m : LinkMgmt) (t : Nat) (s : State) : Host.Outcome State Fault Refusal :=
  .next (lmIn port { m with type := 3 } (atTime t s))

/-- HB_LOSS: 400 us without a HEARTBEAT (10 R424). -/
def execHbLoss (port : Fin 64) (t : Nat) (s : State) : Host.Outcome State Fault Refusal :=
  let s := atTime t s
  let p := portAt s port
  .next (if p.st = .active && decide (p.lastHb + 400000 ≤ s.now) then portReset port rsHbLoss s else s)

/-- LEAVE (10 R425). -/
def execLeave (port : Fin 64) (t : Nat) (s : State) : Host.Outcome State Fault Refusal :=
  .next (lmIn port { type := 4 } (atTime t s))

/-! Loss and reset -/

/-- LOS: DOWN from any state, without RESET (10 R415). -/
def execLos (port : Fin 64) (t : Nat) (s : State) : Host.Outcome State Fault Refusal :=
  let s := atTime t s
  .next (if (portAt s port).st = .down then modPort port (fun p => { p with signal := none, losNeeded := false }) s
    else portDown port rsLos (linkFlag port 0 s))

/-- The peer resets the link (10 R426, R429). -/
def peerResets (k : Nat) (s : State) : State :=
  match (portAt s k).st with
  | .train | .verify | .active => portReset k rsPeerReset (linkFlag k 4 s)
  | _ => s

/-- LINK_RESET_EXIT: DOWN 1 us after the entry to RESET (10 R426). -/
def execLinkResetExit (port : Fin 64) (t : Nat) (s : State) : Host.Outcome State Fault Refusal :=
  let s := atTime t s
  let p := portAt s port
  .next (if p.st = .reset && decide (p.since + 1000 ≤ s.now) then portDown port p.reason s else s)

/-- A 1 ms window of a lane ends with its corrected symbols and uncorrectable codewords (10 R406, R442). -/
def laneWindow (k lane corr uncorr : Nat) (s : State) : State :=
  modPort k (fun p => { p with
    laneCorr := setNthD 0 lane (min (2 ^ 32 - 1) corr) p.laneCorr
    laneUncorr := setNthD 0 lane (min 65535 uncorr) p.laneUncorr
    laneBad := setNthD 0 lane (if 42500 < corr then min 3 (nth 0 p.laneBad lane + 1) else 0) p.laneBad
    fecUncorr := satAdd 16 p.fecUncorr uncorr }) s

/-- A lane in use is faulty (10 R428): it has lost signal or FEC lock, three windows in a row show too many corrected symbols, or one
too many uncorrectable codewords. -/
def laneFaulty (p : LnkPort) (lane : Nat) (lost : Bool) : Bool :=
  p.lanesUsed.getLsbD lane && (lost || decide (3 ≤ nth 0 p.laneBad lane) || decide (8 ≤ nth 0 p.laneUncorr lane))

/-- LANE_FAULT: what a lane shows in a 1 ms window, or that it loses signal or FEC lock while another keeps it; a faulty lane in use
resets the link and is excluded for 60 s (10 R415, R428). -/
def execLaneFault (port : Fin 64) (lane : Fin 8) (w : LaneIn) (s : State) : Host.Outcome State Fault Refusal :=
  let s := laneWindow port lane w.corr w.uncorr (atTime w.t s)
  let p := portAt s port
  .next (if carries p && laneFaulty p lane w.lost then
      portReset port rsLaneFault (linkFlag port 1 (modPort port (fun p => { p with
        excl := (p.excl.filter fun x => x.1 ≠ lane.val) ++ [(lane.val, s.now + 60000000000)] }) s))
    else s)

/-- LANE_EXCLUSION_EXPIRY: the lane is tested again at the next TRAIN (10 R428). -/
def execLaneExclusionExpiry (port : Fin 64) (lane : Fin 8) (t : Nat) (s : State) : Host.Outcome State Fault Refusal :=
  let s := atTime t s
  .next (modPort port (fun p => { p with excl := p.excl.filter fun x => !(x.1 = lane.val && decide (x.2 ≤ s.now)) }) s)

/-- FLAP_HOLD_EXPIRY: the hold ends and the flap count is zeroed (10 R430). -/
def execFlapHoldExpiry (port : Fin 64) (t : Nat) (s : State) : Host.Outcome State Fault Refusal :=
  let s := atTime t s
  .next (match (portAt s port).holdUntil with
    | some u => if u ≤ s.now then tryTrain port (modPort port (fun p => { p with holdUntil := none, flapTimes := [] }) s) else s
    | none => s)

/-- TRAINING_BACKOFF_EXPIRY: the port may leave DOWN (10 R432). -/
def execTrainingBackoffExpiry (port : Fin 64) (t : Nat) (s : State) : Host.Outcome State Fault Refusal :=
  .next (tryTrain port (atTime t s))

/-! Flits -/

/-- TC4 slots of a port's 1 us window beyond which a TC4 packet is treated as TC2, by width code (11 R482). -/
def tc4Limit (w : Nat) : Nat := if w = 0 then 1470 else if w = 1 then 735 else if w = 2 then 367 else 183

/-- A slot of a TC4 packet is counted; a header slot beyond the limit demotes its packet (11 R482). -/
def tc4Count (k : Nat) (hdr : Bool) (s : State) : State × Bool :=
  let p := portAt s k
  let win := s.now / 1000 * 1000
  let c := if p.tc4Win = win then p.tc4Cnt else 0
  let demote := hdr && decide (tc4Limit p.width ≤ c)
  let s := modPort k (fun p => { p with tc4Win := win, tc4Cnt := min 2047 (c + 1) }) s
  (if demote then setRte (fun r => { r with tc4Demote := satAdd 16 r.tc4Demote 1 }) s else s, demote)

/-- A packet has arrived whole: it waits in the ingress buffer for the ingress crossing (10 R412, R439). -/
def packetIn (k tc : Nat) (demoted : Bool) (b : List Byte) (s : State) : State :=
  setLnk (fun l => { l with ingress := l.ingress ++ [{ port := k, demoted := demoted, tc := tc, bytes := b }] }) s

/-- One slot of an accepted flit (10 R412, R413; 11 R445); the second part says that the link goes on. -/
def slotIn (k tc : Nat) (hdr : Bool) (b : List Byte) (s : State) : State × Bool :=
  let p := portAt s k
  let bad := fun (s : State) => (portReset k rsProtocol s, false)
  if 6 ≤ tc then (s, true)
  else
    let (s, demote) := if tc = 4 then tc4Count k hdr s else (s, false)
    if hdr then
      let n := if tc = 5 then 0 else field b 1 1 % 64
      if (p.rxOpen.any fun x => x.1 % 8 = tc) || 32 < n then bad s
      else if n = 0 then (packetIn k tc demote b s, true)
      else (modPort k (fun p => { p with rxOpen := p.rxOpen ++ [(if demote then tc + 8 else tc, n, b)] }) s, true)
    else match p.rxOpen.find? fun x => x.1 % 8 = tc with
      | none => bad s
      | some x =>
        let rest := p.rxOpen.filter fun y => y.1 % 8 ≠ tc
        if x.2.1 ≤ 1 then
          (packetIn k tc (decide (8 ≤ x.1)) (x.2.2 ++ b) (modPort k (fun p => { p with rxOpen := rest }) s), true)
        else (modPort k (fun p => { p with rxOpen := rest ++ [(x.1, x.2.1 - 1, x.2.2 ++ b)] }) s, true)

/-- The slots of an accepted flit in order, until one resets the link. -/
def slotsIn (k : Nat) (info : Nat) (payload : List Byte) (s : State) : State :=
  ((List.range 4).foldl (fun (a : State × Bool) i =>
    if a.2 then slotIn k (bits info (4 * i + 2) (4 * i)) (bit info (4 * i + 3)) (slice payload (64 * i) 64) a.1 else a) (s, true)).1

/-- A PAYLOAD flit is accepted, discarded as a duplicate, or discarded with a NAK (10 R410, R434, R435). -/
def payloadIn (k : Nat) (flit : List Byte) (s : State) : State :=
  let p := portAt s k
  if !carries p || p.nak then s
  else
    let q := p.rxReplayFrom.getD p.rxExp
    if !crcHolds q flit then
      sendCtl k (.nak p.rxExp) (modPort k (fun p => { p with
        crcErr := satAdd 16 p.crcErr 1, nak := true, rxReplayFrom := none, unacked := 0 }) s)
    else
      let h := field flit 0 8
      let s := flitReturns k h s
      if !carries (portAt s k) then s
      else
        let q' := (q + 1) % 2 ^ 24
        if q ≠ p.rxExp then modPort k (fun p => { p with rxReplayFrom := if q' = p.rxExp then none else some q' }) s
        else
          let s := modPort k (fun p => { p with
            rxExp := q', rxReplayFrom := none
            unacked := p.unacked + 1, firstUnacked := if p.unacked = 0 then s.now else p.firstUnacked }) s
          payReturns k (slotsIn k (bits h 35 20) (slice flit 8 256) s)

/-- A NAK acknowledges EXP_SEQ - 1, and the sender replays from EXP_SEQ; one outside the window is ignored (10 R434, R435). -/
def nakIn (k seq : Nat) (s : State) : State :=
  let p := portAt s k
  if carries p && (decide (seq = p.txSeq) || p.buf.any fun f => f.seq = seq) then
    pumpPort k (replay k (ackFlits k ((seq + 65535) % 65536) s))
  else s

/-- START_SEQ is the expected sequence; what lies below the one expected before is discarded (10 R434). -/
def replayStartIn (k seq : Nat) (s : State) : State :=
  let q := seq % 2 ^ 24
  if carries (portAt s k) then
    modPort k (fun p =>
      if (p.rxExp + 2 ^ 24 - q) % 2 ^ 24 < 2 ^ 23 then
        { p with nak := false, rxReplayFrom := if q = p.rxExp then none else some q }
      else { p with nak := false, rxReplayFrom := none, rxExp := q }) s
  else s

/-- A full credit message (10 R411, R438, R439). -/
def creditIn (k : Nat) (counts : List Nat) (s : State) : State :=
  if carries (portAt s k) then
    pumpPort k (((List.range 12).zip counts).foldl (fun s x =>
      if carries (portAt s k) then creditBack k x.1 (x.2 % 65536) s else s) s)
  else s

/-- The peer enters low-power idle (10 R433, R440). -/
def lpiEnterIn (k : Nat) (s : State) : State :=
  if (portAt s k).st = .active then modPort k (fun p => { p with lpiPeer := true, lastBurst := s.now }) s else s

/-- A link control message takes effect (10 R411). -/
def ctlIn (k : Nat) (c : LinkCtl) (s : State) : State :=
  match c with
  | .nak q => nakIn k q s
  | .replayStart q => replayStartIn k q s
  | .reset _ => peerResets k s
  | .credit l => creditIn k l s
  | .trainParam _ w m l => trainParam k w m l s
  | .rttProbe x => sendCtl k (.rttEcho x) s
  | .rttEcho x => rttEcho k x s
  | .lpiEnter => lpiEnterIn k s
  | .lpiExit => modPort k (fun p => { p with lpiPeer := false }) s

/-- An IDLE or LINK_CTL flit that passes its CRC: what its header returns, then its message (10 R408, R411, R440). -/
def otherIn (k : Nat) (flit : List Byte) (s : State) : State :=
  let s := if carries (portAt s k) then
      flitReturns k (field flit 0 8) (if flitType flit = 1 then modPort k (fun p => { p with lastBurst := s.now }) s else s)
    else s
  if flitType flit = 2 then
    match ctlOf (slice flit 8 64) with
    | some c => ctlIn k c s
    | none => s
  else s

/-- A flit arrives (10 R408, R409): FTYPE says which kind it is; a port in DOWN or RESET receives none. -/
def flitIn (k : Nat) (flit : List Byte) (s : State) : State :=
  if flitType flit = 0 then payloadIn k flit s
  else match (portAt s k).st with
    | .down | .reset => s
    | _ =>
      if crcHolds 0xFFFFFF flit then otherIn k flit s
      else modPort k (fun p => { p with crcErr := satAdd 16 p.crcErr 1 }) s

/-- PAYLOAD (10 R434). -/
def execPayload (port : Fin 64) (flit : Bytes) (e : Env) (s : State) : Host.Outcome State Fault Refusal :=
  .next (flitIn port flit (applyAll e s))

/-- IDLE: an acknowledgement and a credit return; a burst of a peer in low-power idle (10 R411, R440). -/
def execIdle (port : Fin 64) (flit : Bytes) (t : Nat) (s : State) : Host.Outcome State Fault Refusal :=
  .next (flitIn port flit (atTime t s))

/-- TRAIN_PARAM (10 R411, R417, R418). The flit comes in its pieces: the header, the message up to the credit counts, the counts, and
what follows with the CRC; only their concatenation counts. -/
def execTrainParam (port : Fin 64) (head param counts tail : Bytes) (t : Nat) (s : State) : Host.Outcome State Fault Refusal :=
  .next (flitIn port (head ++ param ++ counts ++ tail) (atTime t s))

/-- RTT_PROBE: the stamp is echoed unchanged (10 R411, R417). -/
def execRttProbe (port : Fin 64) (flit : Bytes) (t : Nat) (s : State) : Host.Outcome State Fault Refusal :=
  .next (flitIn port flit (atTime t s))

/-- RTT_ECHO (10 R417). -/
def execRttEcho (port : Fin 64) (flit : Bytes) (t : Nat) (s : State) : Host.Outcome State Fault Refusal :=
  .next (flitIn port flit (atTime t s))

/-- RESET_FLIT (10 R426, R429). -/
def execResetFlit (port : Fin 64) (flit : Bytes) (t : Nat) (s : State) : Host.Outcome State Fault Refusal :=
  .next (flitIn port flit (atTime t s))

/-- LINK_ACK_SEND: after 16 flits or 200 ns, in the next flit (10 R435). -/
def execLinkAckSend (port : Fin 64) (t : Nat) (s : State) : Host.Outcome State Fault Refusal :=
  let s := atTime t s
  let p := portAt s port
  .next (if carries p && ackDue s.now p then sendIdle port s else s)

/-- NAK (10 R434, R435). -/
def execNak (port : Fin 64) (flit : Bytes) (t : Nat) (s : State) : Host.Outcome State Fault Refusal :=
  .next (flitIn port flit (atTime t s))

/-- REPLAY_START (10 R434). -/
def execReplayStart (port : Fin 64) (flit : Bytes) (t : Nat) (s : State) : Host.Outcome State Fault Refusal :=
  .next (flitIn port flit (atTime t s))

/-- REPLAY_TIMEOUT: the replay timer expires (10 R433). -/
def execReplayTimeout (port : Fin 64) (t : Nat) (s : State) : Host.Outcome State Fault Refusal :=
  let s := atTime t s
  let p := portAt s port
  .next (if carries p && !p.buf.isEmpty && decide (p.timer + replayTo p ≤ s.now) then replay port s else s)

/-- CREDIT: a full credit message (10 R411, R438, R439). -/
def execCredit (port : Fin 64) (flit : Bytes) (t : Nat) (s : State) : Host.Outcome State Fault Refusal :=
  .next (flitIn port flit (atTime t s))

/-- CREDIT_SEND: a full credit message, at least once every 1 us (10 R439). -/
def execCreditSend (port : Fin 64) (t : Nat) (s : State) : Host.Outcome State Fault Refusal :=
  let s := atTime t s
  let p := portAt s port
  .next (if carries p && !p.lpiTx then
      sendCtl port (.credit p.freed) (modPort port (fun p => { p with freedSent := p.freed }) s) else s)

/-! Low-power idle -/

/-- LPI_ENTER (10 R433, R440). -/
def execLpiEnter (port : Fin 64) (f : FlitIn) (s : State) : Host.Outcome State Fault Refusal :=
  .next (flitIn port f.flit (atTime f.t s))

/-- LPI_EXIT (10 R433, R440). -/
def execLpiExit (port : Fin 64) (f : FlitIn) (s : State) : Host.Outcome State Fault Refusal :=
  .next (flitIn port f.flit (atTime f.t s))

/-- The burst of a port in low-power idle: a marker block, then an IDLE flit with the current acknowledgement and a credit count,
due or not; the counts take turns (10 R408, R440; log entry 68). -/
def burst (k : Nat) (s : State) : State :=
  let p := portAt s k
  let (h, p) := headerWith p 1 (slotInfo []) (!p.nak) (some ((crdDue p).getD p.crdNext))
  lineFlit k false (flitBytes 0xFFFFFF h []) (modPort k (fun _ => { p with frameAt := 0 }) s)

/-- LPI_BURST: the keepalive burst of every 10 us (10 R440). -/
def execLpiBurst (port : Fin 64) (t : Nat) (s : State) : Host.Outcome State Fault Refusal :=
  let s := atTime t s
  let p := portAt s port
  .next (if p.st = .active && p.lpiTx then burst port s else s)

/-- KEEPALIVE_LOSS: 40 us without a burst of a peer in low-power idle (10 R440). -/
def execKeepaliveLoss (port : Fin 64) (t : Nat) (s : State) : Host.Outcome State Fault Refusal :=
  let s := atTime t s
  let p := portAt s port
  .next (if p.st = .active && p.lpiPeer && decide (p.lastBurst + 40000 ≤ s.now) then portReset port rsKeepaliveLoss s else s)

/-! Management (10 R430, R442, R443) -/

/-- RETRAIN: RESET with reason LOCAL_RETRAIN from TRAIN, VERIFY or ACTIVE (10 R443). -/
def execRetrain (sess : Nat) (port : Fin 64) (t : Nat) (s : State) : Host.Outcome State Fault Refusal :=
  .next (withWrite sess t (fun s => mgmtReply sess .ok [] (portReset port rsLocalRetrain s)) s)

/-- The hold ends, and the count and the doubling are zeroed (10 R430). -/
def clearHold (k : Nat) (s : State) : State :=
  tryTrain k (modPort k (fun p => { p with holdUntil := none, flapTimes := [], lastHold := none }) s)

/-- CLEAR_HOLD. -/
def execClearHold (sess : Nat) (port : Fin 64) (t : Nat) (s : State) : Host.Outcome State Fault Refusal :=
  .next (withWrite sess t (fun s => mgmtReply sess .ok [] (clearHold port s)) s)

/-- A write of LNK_CTL; on an unmapped port it has no effect (10 R442, R443). -/
def writeLnkCtl (k : Nat) (v : BitVec 64) (s : State) : State :=
  if !(portCfg s k).mapped then s
  else
    let down := v.getLsbD 8
    let s := modPort k (fun p => { p with adminDown := down, reqWidth := clampTo (portCfg s k).maxWidth 3 (v.toNat % 4) }) s
    if down then portReset k rsAdminDown s else tryTrain k s

/-- ADMIN_DOWN: a write of LNK_CTL (10 R443). -/
def execAdminDown (sess : Nat) (port : Fin 64) (v : BitVec 64) (t : Nat) (s : State) : Host.Outcome State Fault Refusal :=
  .next (withWrite sess t (fun s => mgmtReply sess .ok [] (writeLnkCtl port v s)) s)

end Sys2Proof.Machine
end

