-- ==== Sys2Proof/Machine/PeerOps.lean ====
section
/-! DEFINITION. What the end of a peer does: the end of a session, the loss of the peer's answers, its block, and its new
incarnation (11_fabric_routing R462, R465, R474; 14_security_and_isolation R566, R568, R574, R575, R577). -/

namespace Sys2Proof.Machine

/-- Entries of peers without a session, a failure or a block are not kept (14 R594). -/
def keepSec (p : SecPeer) : Bool := p.st != .none || p.fails != 0 || p.negotiated != 0

/-- A session or handshake ends and its keys are forgotten (14 R568). -/
def endSession (node : Nat) (s : State) : State :=
  setSec (fun c => { c with peers := (mapIf (fun p => p.node = node)
    (fun p => { node := node, fails := p.fails, st :=
      if p.st = .blockedAuth || p.st = .blockedMgmt then p.st else .none }) c.peers).filter keepSec }) s

/-- The messages that wait for a session with a node go: events are counted (14 R577). -/
def dropToOpen (node : Nat) (s : State) : State :=
  let isEvent := fun (x : Nat × QPkt) => match x.2.body with | .resp _ => decide (x.1 = node) | _ => false
  setSec (fun c => { c with
    noSession := satAdd 16 c.noSession (countIf isEvent c.toOpen)
    toOpen := c.toOpen.filter fun x => x.1 ≠ node }) s

/-- A handshake has failed (14 R577, R593). -/
def handshakeFailed (node : Nat) (s : State) : State :=
  match secOf s node with
  | some p =>
    if p.st = .handshake then endSession node (setSec (fun c => { c with hsFail := satAdd 16 c.hsFail 1 }) s)
    else if p.hsInc.isSome then
      modSec node (fun p => { p with hsInc := none }) (setSec (fun c => { c with hsFail := satAdd 16 c.hsFail 1 }) s)
    else s
  | none => s

/-- A packet of the module renews anchors. -/
def isRenew (b : Body) : Bool := match b with | .req r => r.opcode == 0x8A | _ => false

/-- Renewals of anchors that a node has not acknowledged (04 R162; ANC_EVT.RENEW_FAIL). -/
def renewalsLost (s : State) (node : Nat) : Nat :=
  sumBy (fun (p : Peer) => countIf (fun (x : SentPkt) => isRenew x.body) p.sp0.sent
      + countIf (fun (q : QPkt) => isRenew q.body) p.sp0.queue) (s.e2e.peers.filter fun p => p.node = node)
    + countIf (fun x => x.1 = node && isRenew x.2.body) s.sec.toOpen

/-- Every exchange that waits on a node completes with NODE_LOST (11 R474; 14 R575, R577). -/
def exchangesLost (node : Nat) (s : State) : State :=
  let n := renewalsLost s node
  let s := setPool (fun p => { p with ancRenewFail := satAdd 16 p.ancRenewFail n }) s
  dropToOpen node (mirrorLost node (lenderLost node s))

/-- All end-to-end state of a node goes, and what waits on it completes with NODE_LOST (02 R62; 11 R474). -/
def peerGone (node : Nat) (s : State) : State :=
  let n := renewalsLost s node
  let s := setPool (fun p => { p with ancRenewFail := satAdd 16 p.ancRenewFail n }) s
  let s := setE2e (fun e => { e with
    peers := e.peers.filter fun p => p.node ≠ node
    waitOut := e.waitOut.filter fun x => x.1 ≠ node }) s
  let s := dropToOpen node (mirrorLost node (lenderLost node s))
  pumpWaitOut (handshakeFailed node (leasesLost node s))

/-- The retransmit limit of a peer is reached (11 R474). -/
def peerLost (node : Nat) (s : State) : State :=
  peerGone node (setE2e (fun e => { e with nodeLost := satAdd 16 e.nodeLost 1 }) s)

/-- A peer is blocked (14 R575): the session ends, what waits on it completes with NODE_LOST, a record and an alert. -/
def blockPeer (node : Nat) (st : SecState) (s : State) : State :=
  if isBlocked s node then s
  else
    let s := exchangesLost node (endSession node s)
    let s := modSec node (fun p => { p with st := st }) (setSec (fun c => { c with blocks := satAdd 16 c.blocks 1 }) s)
    cairnAlert 0x0D 1 node 0 0 s

/-- An authentication failure of a peer; the 16th blocks it (14 R572, R574). -/
def authFailure (node : Nat) (s : State) : State :=
  let s := setSec (fun c => { c with authFail := satAdd 16 c.authFail 1 }) s
  let s := modSec node (fun p => { p with fails := min 16 (p.fails + 1) }) s
  match secOf s node with
  | some p => if 16 ≤ p.fails then blockPeer node .blockedAuth s else s
  | none => s

/-- A session is free to evict (14 R566). -/
def evictable (s : State) (node : Nat) : Bool :=
  !(s.e2e.peers.any fun p => p.node = node) && !contextOf s node
    && !(s.pool.regions.any fun g => (g.slots.any fun x => x.node = node && !x.dead)
      || (g.mode == .mirrored && g.bound && g.shadowNode == node))
    && !(s.pool.anchors.any fun a => a.lender = node)

/-- Room for one more session or handshake: the least recently used session that is free to evict goes (14 R566). -/
def makeSessionRoom (s : State) : State × Bool :=
  if handshakes s + countIf (fun p => p.hsInc.isSome) s.sec.peers < 256 && sessions s < 16384 then (s, true)
  else match leastBy SecPeer.last (s.sec.peers.filter fun p => p.st = .active && evictable s p.node) with
    | some p => (endSession p.node s, true)
    | none => (s, false)

/-- The provisional state of a node becomes the held one: the node has restarted (11 R465; 02 R62). -/
def promoteProv (node : Nat) (s : State) : State :=
  match peerOf s node true with
  | none => s
  | some p =>
    let s := exchangesLost node (setE2e (fun e => { e with peers := e.peers.filter fun x => x.node ≠ node }) s)
    leasesLost node (setE2e (fun e => { e with peers := e.peers ++ [{ p with prov := false }] }) s)

end Sys2Proof.Machine
end

