-- ==== Sys2Proof/Machine/PowerOps.lean ====
section
/-! DEFINITION. Soft start, the orderly leave and the shutdowns (02_startup_and_loss R44, R69, R70, R73, R80; 15_control_belay_faults
R614; 16_connectors_and_power R636, R637). -/

namespace Sys2Proof.Machine

/-- The main converter soft-starts the rails and PGOOD rises, where nothing holds it off (02 R44; 16 R636, R637). -/
def softStart (s : State) : State :=
  let p := s.pwr
  if p.standbyOk && p.en && !p.mainOn && !shutdownHold p.hold && p.hold != .restartLimit
      && decide (260000 ≤ p.busMv) && decide (p.busMv ≤ 410000) then
    setPwr (fun p => { p with mainOn := true, pgood := true }) s
  else s

/-! The orderly leave (02 R69, R70, R73, R80) -/

/-- What follows a leave. -/
def leaveEnds (l : Leave) (s : State) : State :=
  match l.what with
  | .thenReset => resetModule l.cause (if l.cause = 2 then .none else .module) s
  | .thenHold => resetModule 3 .orderly s
  | .thenEnOff =>
    let s := resetModule 8 .enLow s
    if s.pwr.en then alertPin (softStart (setPwr (fun p => { p with hold := .none }) s)) else s

/-- Descriptors still queued complete with NODE_LOST (02 R80). -/
def queuesLost (s : State) : State :=
  s.bulk.qs.foldl (fun s q =>
    let s := q.descs.foldl (fun s x =>
      let x := if descOver x then x else { x with status := .nodeLost }
      if x.d.cpl || x.status ≠ .ok then descRecord q x s else s) s
    destroyDone q.idx (modBq q.idx (fun b => { b with descs := [], head := b.tail }) s)) s

/-- Responses held until D_P go out with NODE_LOST (02 R80; 12 R505). -/
def heldLost (s : State) : State :=
  s.qos.held.foldl (fun s h => sendQ h.node false false { h.q with body := match h.q.body with
      | .resp p => .resp { opcode := p.opcode, status := .nodeLost, load := p.load, tid := p.tid, tag := p.tag }
      | b => b } s)
    (setQos (fun q => { q with held := [] }) s)

/-- Steps 2 to 5 of the leave: open contexts complete with NODE_LOST, the last mirror heartbeats, the HANDOFF of every
mirrored primary and LEAVE go out, and the transmitters go dark (02 R80; 04 R159). -/
def finishLeave (l : Leave) (s : State) : State :=
  let s := heldLost (queuesLost (completeAll (fun _ => true) .nodeLost s))
  let s := (((boundRegions s).map Region.shadowNode).eraseDups).foldl (fun s n => sendMirrorHb true n s) s
  let s := s.pool.regions.foldl (fun s g => handoffPrimary g s) s
  let s := (List.range 64).foldl (fun s k => if (portAt s k).st == .active then sendLm k (ownLm s k 4) s else s) s
  leaveEnds l s

/-- An orderly leave begins: admission stops, and with no context open the leave ends at once (02 R80; log entry 36). A module
that does not run has nothing to leave. A hold overrides a reset that a leave in progress would end with. -/
def beginLeave (what : LeaveThen) (cause : Nat) (s : State) : State :=
  let l : Leave := { since := s.now, what := what, cause := cause }
  if s.boot.st = .leaving then
    setBoot (fun b => { b with leave := b.leave.map fun x =>
      if x.what = .thenReset && what ≠ .thenReset then { x with what := what, cause := cause } else x }) s
  else if running s then
    let s := setBoot (fun b => { b with st := .leaving, leave := some l }) s
    if ctxAll s = 0 then finishLeave l s else s
  else leaveEnds l s

/-- LEAVE_CONTEXT_TIMEOUT: 1 ms into a leave (02 R80). -/
def leaveTimeout (s : State) : State :=
  match s.boot.leave with
  | some l => if s.boot.st = .leaving && decide (l.since + 1000000 ≤ s.now) then finishLeave l s else s
  | none => s

/-- An orderly shutdown that Belay decides for a channel (02 R69; 15 R614). A hold that needs more stays. -/
def orderlyShutdown (ch : Option Nat) (s : State) : State :=
  if s.pwr.hold = .emergency || s.pwr.hold = .orderly then s
  else beginLeave .thenHold 3 (setBel (fun b => { b with trigger := ch }) s)

/-- An emergency shutdown: at once, without a leave (02 R69; 15 R614). -/
def emergencyShutdown (ch : Nat) (v : Int) (s : State) : State :=
  resetModule 4 .emergency (setBel (fun b => { b with trigger := some ch }) (emergRecord ch v s))

/-- The channel that decided an orderly shutdown is back at its restart threshold (02 R70). -/
def triggerClear (s : State) : Bool :=
  match s.bel.trigger with
  | some ch => (chanAt s ch).level == .none
  | none => true

/-- A restart out of an orderly shutdown's hold: both of its conditions have come (02 R70). -/
def permitRestart (s : State) : State :=
  if s.pwr.hold = .orderly && s.pwr.permit && triggerClear s then
    alertPin (softStart (setPwr (fun p => { p with hold := .none, permit := false }) s))
  else s

/-- The whole module without power: flash and fuses stay (02 R66). -/
def powerLost (s : State) : State :=
  { ({} : State) with
    fuse := { s.fuse with pending := 0 }, flash := s.flash, onx := { keySeed := s.onx.keySeed }
    pending := s.pending, now := s.now, busyAt := s.now, free := s.free, out := s.out }

end Sys2Proof.Machine
end

