-- ==== Sys2Proof/Machine/Verbs.lean ====
section
/-! DEFINITION. Discovery, events that arrive, and the figures of each 1 ms interval (06_pool_verbs R226, R252, R257, R258;
05_coherence R218; 12 R515; 13 R535). -/

namespace Sys2Proof.Machine

/-- The code of BOOT_STATE.STATE (02 R90). -/
def bootCode : BootState → Nat
  | .held => 0 | .belayCheck => 1 | .imageVerify => 2 | .cpStart => 3 | .training => 4 | .backoff => 5 | .poolOpen => 6
  | .forwardOnly => 7 | .bivouac => 8 | .leaving => 9 | .noImage => 10 | .heldShutdown => 11

/-- Verbs whose unit the variant lacks (06 R258). -/
def absentVerbs (s : State) : List Nat :=
  (if hasEngines s then [] else [0x38, 0x39, 0x3A, 0x42, 0x50, 0x51, 0x48, 0x49, 0x4A])
    ++ (if hasAnchors s then [] else [0x20, 0x21])

/-- VERB_MASK (06 R257). -/
def verbMask (s : State) : Nat := 2 ^ 128 - 1 - sumBy (fun k => 2 ^ k) (absentVerbs s)

/-- A stack holds pool memory: IN_SERVICE or DRAINING (06 R257). -/
def stackServes (s : State) (k : Nat) : Bool :=
  decide (k < stackCount s) && (stackAt s k).fitted && ((stackAt s k).st == .inService || (stackAt s k).st == .draining)

/-- The payload of QUERY_CAPS (06 R257). -/
def capsPayload (s : State) (tid : Nat) : List Byte :=
  let l := limitOf s tid
  le 8 (critValue 0x1B s).toNat ++ le 1 (bootCode s.boot.st) ++ le 1 0 ++ le 2 (critValue 0x1A s).toNat
    ++ le 4 (sumBy (fun k => if stackServes s k then 2 ^ k else 0) (List.range 32))
    ++ le 4 (l TenantCfg.maxMemGib) ++ le 4 (l TenantCfg.maxContexts) ++ le 4 (l TenantCfg.maxWindows)
    ++ le 4 (l TenantCfg.maxKv) ++ le 2 (l TenantCfg.maxWs) ++ le 2 (l TenantCfg.maxCohGib) ++ le 2 (l TenantCfg.maxAnchors)
    ++ le 1 (l TenantCfg.level) ++ le 1 (l fun t => b2n t.partitioned) ++ le 2 s.img.leaseMs ++ le 2 0 ++ le 4 s.img.rtoUs
    ++ le 16 (verbMask s)

/-- QUERY_CAPS (06 R257); the answer travels under the state of the request (11 R465). -/
def queryCaps (w : Waiting) (s : State) : State :=
  let s := critRead 0x1A (critRead 0x1B (noteStep4 s))
  sendResp w.prov w.req { mkResp s w.req .ok with opcode := 0x7F, payload := capsPayload s (reqTid w.req) } s

/-- QUERY_CAPS; a reserved opcode executes as it (06 R226). -/
def execQueryCaps (r : Req) (e : Env) (s : State) : Host.Outcome State Fault Refusal :=
  let op := if effOpcode r.opcode = 0x7F then r.opcode else 0x7F
  .next (runVerb { r with opcode := op, subop := if r.subop = 1 then 0 else r.subop } e queryCaps s)

/-- EVENT_RECEIVED: an EVENT that arrives at the module is discarded (06 R226). -/
def execEventReceived (r : Req) (e : Env) (s : State) : Host.Outcome State Fault Refusal :=
  let s := applyEnv e s
  .next (match inboxOf s { r with opcode := 0x80 } with
    | some w => setVrb (fun v => { v with waiting := eraseFirst (fun x => x == w) v.waiting }) s
    | none => s)

/-- The tenant of a packet of the module's own. -/
def pktTid (p : Pkt) : Nat :=
  match p.body with
  | .req r => r.tid.toNat % 4096
  | .resp r => r.tid
  | .stream a => a.tid
  | .ack _ => 0xFFFF

/-- Bytes waiting at a tenant's shapers, or for a PARTITIONED tenant's own slots (06 R252; 12 R501). -/
def shaperBytes (s : State) (tid : Nat) : Nat :=
  if isPart s tid then
    sumBy (fun p => sumBy (fun e => match e.pkt with
      | some q => if e.rank = 0 && q.tc ≤ 3 && pktTid q = tid then 64 * e.slots else 0
      | none => 0) p.eg) s.lnk.ports
  else sumBy bucketBytes (s.qos.buckets.filter fun b => b.tid = tid)

/-- LOAD of a tenant (06 R252). -/
def loadNow (s : State) (t : TenantCfg) : Nat :=
  min 15 (max (16 * ctxOf s t.tid / t.maxContexts) (16 * shaperBytes s t.tid / ((shpOf s t.tid).burst * 1024)))

/-- The figures of a tenant for the interval that begins (06 R252, R261; 13 R535). -/
def loadRec (s : State) (t : TenantCfg) : LoadRec :=
  { tid := t.tid, load := loadNow s t, ctx := ctxOf s t.tid, ce := assocD 0 t.tid s.ecc.tntCe }

/-- LOAD_INTERVAL: a 1 ms interval begins (06 R252; 05 R218; 12 R515). -/
def loadInterval (s : State) : State :=
  let s := noteStep4 s
  let s := setVrb (fun v => { v with load := s.img.tenants.map (loadRec s) }) s
  let s := setCoh (fun c => { c with
    missPpm := c.misses * 1000000 / max 1 c.lookups, lookups := 0, misses := 0 }) s
  { s with stks := s.stks.map fun x => { x with
    wrMbps := x.wrBytes / 1000, rdMbps := x.rdBytes / 1000, wrBytes := 0, rdBytes := 0 } }

/-- LOAD_INTERVAL. -/
def execLoadInterval (t : Nat) (s : State) : Host.Outcome State Fault Refusal :=
  .next (loadInterval (atTime t s))

end Sys2Proof.Machine
end

