-- ==== Sys2Proof/Machine/Spdm.lean ====
section
/-! DEFINITION. SPDM: the messages, the module as responder, the attestation report, and the module as requester
(14_security_and_isolation R564 to R572, R577 to R582). The message codes and layouts are those of DMTF SPDM 1.3 (PRESUMED, log
entry 30). -/

namespace Sys2Proof.Machine

/-! Messages -/

/-- An SPDM message: version, code, two parameters, and what follows. -/
def spdmMsg (code p1 p2 : Nat) (b : List Byte) : List Byte := [0x13, BitVec.ofNat 8 code, BitVec.ofNat 8 p1, BitVec.ofNat 8 p2] ++ b

/-- The code of a message. -/
def spdmCode (l : List Byte) : Nat := field l 1 1

/-- An ERROR response. -/
def spdmError (err dat : Nat) : List Byte := spdmMsg 0x7F err dat []

/-- Error codes that the module uses. -/
def errInvalid : Nat := 0x01
def errBusy : Nat := 0x03
def errUnexpected : Nat := 0x04
def errUnspecified : Nat := 0x05
def errDecrypt : Nat := 0x06
def errUnsupported : Nat := 0x07
def errLarge : Nat := 0x0F

/-- A signature under the Alias key; it covers a transcript that the State does not hold, so its bytes are free (log
entries 13, 30). -/
def spdmSig (s : State) : State × List Byte := freeBytes 96 s

/-- The module's certificate chain: the DeviceID and the Alias certificate (14 R554). -/
def certChain (s : State) : List Byte :=
  let meas := s.boot.imgDigest ++ s.onx.patchDigest ++ le 4 s.boot.imgSvn
  Config.onyxCert 0 s.onx.romDigest ++ Config.onyxCert 1 meas

/-! The attestation report (14 R579, R580) -/

/-- One entry of the report. -/
def reportEntry (kind handle tid loads : Nat) (digest : List Byte) : List Byte :=
  le 1 kind ++ le 1 0 ++ le 2 handle ++ le 2 tid ++ le 2 0 ++ le 4 loads ++ le 4 0 ++ slice digest 0 48

/-- The entries of a scope: plans, then RESIDENT sets, each in ascending handle order. -/
def reportEntries (s : State) (scope : Nat) : List (List Byte) :=
  let mine := fun (t : Nat) => decide (scope = 0xFFFF) || decide (t = scope)
  let ps := sortBy (fun a b => planHandle a ≤ planHandle b) (s.fe.plans.filter fun p => mine p.tid)
  let ws := sortBy (fun (a b : Wset) => a.idx + 256 * a.gen ≤ b.idx + 256 * b.gen)
    (s.ws.sets.filter fun x => x.st = .resident && mine x.tid)
  (ps.map fun p => reportEntry 1 (planHandle p) p.tid 1 p.digest)
    ++ ws.map fun x => reportEntry 2 (x.idx + 256 * x.gen) x.tid x.loads x.digest

/-- The bit index of the variant in VARIANT_MASK (03 R100). -/
def variantBit (v : Variant) : Nat :=
  match v with | .c3240C => 0 | .c3240E => 1 | .c3240M => 2 | .c2440C => 3

/-- The attestation report of a scope (14 R579). -/
def attReport (s : State) (scope : Nat) : List Byte :=
  let es := reportEntries s scope
  le 8 0x3130545345545441 ++ le 2 1 ++ le 2 scope ++ le 4 es.length ++ le 4 s.glb.node ++ le 4 s.img.clusterId.toNat
    ++ le 2 (incarnation s) ++ le 1 (variantBit s.fuse.variant) ++ le 1 s.fuse.svnFloor ++ le 4 s.boot.imgSvn
    ++ slice s.onx.romDigest 0 48 ++ slice s.boot.imgDigest 0 48 ++ slice s.onx.patchDigest 0 48
    ++ slice (historyOf s scope) 0 48 ++ le 32 0 ++ es.flatten

/-- The measurement blocks of a scope: index, DMTF value type, content (14 R578). -/
def measBlocks (s : State) (scope : Nat) : List (Nat × Nat × List Byte) :=
  [(1, 0x00, slice s.onx.romDigest 0 48), (2, 0x03, slice s.boot.imgDigest 0 48), (3, 0x01, slice s.onx.patchDigest 0 48),
    (4, 0x84, attReport s scope)]

/-- The bytes of one measurement block. -/
def measBytes (x : Nat × Nat × List Byte) : List Byte :=
  let n := x.2.2.length
  le 1 x.1 ++ le 1 1 ++ le 2 (n + 3) ++ le 1 x.2.1 ++ le 2 n ++ x.2.2

/-! The module as responder -/

/-- The negotiation that a peer has reached; management negotiates nothing. -/
def negotiated (s : State) (m : SpdmIn) : Nat :=
  match m.sess, secOf s m.req.src with
  | some _, _ => 3
  | none, some p => p.negotiated
  | none, none => 0

/-- Note the negotiation that a peer has reached. -/
def setNeg (m : SpdmIn) (n : Nat) (s : State) : State :=
  match m.sess with
  | some _ => s
  | none => modSec m.req.src (fun p => { p with negotiated := n }) s

/-- GET_VERSION: SPDM 1.3. -/
def spdmVersion (m : SpdmIn) (s : State) : State × List Byte :=
  (setNeg m 1 s, [0x10, 0x04, 0, 0, 0, 1] ++ le 2 0x1300)

/-- GET_CAPABILITIES: the capabilities of 14 R564; the largest message it takes is not stated (log entry 13). -/
def spdmCaps (m : SpdmIn) (s : State) : State × List Byte :=
  if negotiated s m < 1 then (s, spdmError errUnexpected 0)
  else
    let (s, b) := freeBytes 4 s
    let flags := [1, 2, 4, 6, 7, 8, 9, 12, 14, 17]
    (setNeg m 2 s, spdmMsg 0x61 0 0 ([0, 0] ++ le 2 0 ++ le 4 (sumBy (fun i => 2 ^ i) flags) ++ le 4 2048 ++ b))

/-- NEGOTIATE_ALGORITHMS: those of 14 R564 that the peer offers. -/
def spdmAlgs (m : SpdmIn) (s : State) : State × List Byte :=
  let l := m.req.payload
  if negotiated s m < 2 then (s, spdmError errUnexpected 0)
  else
    let asym := Nat.land (field l 8 4) 0x80
    let hash := Nat.land (field l 12 4) 0x02
    (setNeg m 3 s, spdmMsg 0x63 4 0 (le 2 52 ++ le 1 1 ++ le 1 0 ++ le 4 4 ++ le 4 asym ++ le 4 hash ++ le 11 0 ++ le 1 0
      ++ le 1 0 ++ le 1 0 ++ le 2 0 ++ le 1 2 ++ le 1 0x20 ++ le 2 0x10 ++ le 1 3 ++ le 1 0x20 ++ le 2 0x02
      ++ le 1 4 ++ le 1 0x20 ++ le 2 0x80 ++ le 1 5 ++ le 1 0x20 ++ le 2 0x01))

/-- GET_DIGESTS: the digest of the chain in slot 0. -/
def spdmDigests (m : SpdmIn) (s : State) : State × List Byte :=
  if negotiated s m < 3 then (s, spdmError errUnexpected 0)
  else (s, spdmMsg 0x01 0 1 (sha384 (certChain s)))

/-- A portion of the module's certificate chain. -/
def certPortion (s : State) (ofs len : Nat) : List Byte :=
  let c := (certChain s).drop ofs
  let p := c.take (min len 2032)
  spdmMsg 0x02 0 0 (le 2 p.length ++ le 2 (c.length - p.length) ++ p)

/-- GET_CERTIFICATE: a portion of the chain in slot 0. -/
def spdmCert (m : SpdmIn) (s : State) : State × List Byte :=
  let l := m.req.payload
  if negotiated s m < 3 then (s, spdmError errUnexpected 0)
  else if field l 2 1 % 16 ≠ 0 then (s, spdmError errInvalid 0)
  else (s, certPortion s (field l 4 2) (field l 6 2))

/-- The measurement summary of KEY_EXCHANGE_RSP and CHALLENGE_AUTH. -/
def measSummary (s : State) : List Byte := sha384 ((measBlocks s 0xFFFF).map fun x => x.2.2).flatten

/-- CHALLENGE: an answer signed with the Alias key. -/
def spdmChallenge (m : SpdmIn) (s : State) : State × List Byte :=
  let l := m.req.payload
  if negotiated s m < 3 then (s, spdmError errUnexpected 0)
  else if field l 2 1 % 16 ≠ 0 then (s, spdmError errInvalid 0)
  else
    let (s, n) := draw 32 s
    let sum := if field l 3 1 = 0 then [] else measSummary s
    let (s, g) := spdmSig s
    (s, spdmMsg 0x03 0 1 (sha384 (certChain s) ++ n ++ sum ++ le 2 0 ++ slice l 36 8 ++ g))

/-- The scope of a GET_MEASUREMENTS, or none where the carrier may not ask for it (14 R582). -/
def measScope (s : State) (m : SpdmIn) : Option Nat :=
  match m.sess with
  | some _ => if m.req.tid = 0xFFFF then some 0xFFFF else some (reqTid m.req)
  | none => if authorised s (reqTid m.req) m.req.src then some (reqTid m.req) else none

/-- GET_MEASUREMENTS: the number of blocks, one block, or all of them, signed (14 R578, R582). -/
def spdmMeas (m : SpdmIn) (s : State) : State × List Byte :=
  let l := m.req.payload
  match measScope s m with
  | none => (s, spdmError errUnexpected 0)
  | some scope =>
    let bs := measBlocks s scope
    let op := field l 3 1
    let pick := if op = 0 then [] else if op = 0xFF then bs else bs.filter fun x => x.1 = op
    if op ≠ 0 && pick.isEmpty then (s, spdmError errInvalid 0)
    else
      let rec' := (pick.map measBytes).flatten
      let (s, n) := draw 32 s
      let (s, g) := spdmSig s
      (s, spdmMsg 0x60 (if op = 0 then bs.length else 0) 0
        (le 1 pick.length ++ le 3 rec'.length ++ rec' ++ n ++ le 2 0 ++ g))

/-- KEY_EXCHANGE: a handshake begins, or Busy; where both ends have sent one, the lower node ID's goes on (14 R556, R566). -/
def spdmKeyEx (m : SpdmIn) (prov : Bool) (s : State) : State × List Byte :=
  let node := m.req.src
  let p := (secOf s node).getD { node := node }
  let crossed := p.st = .handshake && p.requester && p.step = 0xE4
  if m.sess.isSome then (s, spdmError errUnsupported 0xE4)
  else if s.onx.drbgFail then (s, spdmError errUnspecified 0)
  else if p.negotiated < 3 || (p.st = .active && !prov) then (s, spdmError errUnexpected 0)
  else if crossed && decide (s.glb.node < node) then (s, spdmError errBusy 0)
  else
    let (s, room) := if p.st = .handshake then (s, true) else makeSessionRoom s
    if !room then (s, spdmError errBusy 0)
    else
      let s := modSec node (fun p =>
        if p.st = .active then { p with hsInc := some m.inc, cert := [], last := s.now }
        else { p with st := .handshake, requester := false, cert := [], inc := m.inc, last := s.now }) s
      let (s, r) := draw 80 s
      let (s, f) := freeBytes 242 s
      (s, spdmMsg 0x64 0 0 (f.take 2 ++ le 1 1 ++ le 1 0 ++ r.take 32 ++ (f.drop 2).take 96 ++ measSummary s ++ le 2 0
        ++ f.drop 98))

/-- A session opens at the end of a handshake (14 R566, R570, R571). -/
def openedSession (node : Nat) (requester : Bool) (root inc : Nat) (s : State) : State :=
  let p := (peerOf s node false).getD { node := node }
  let seq := match secOf s node with
    | some x => x.hsSeq.getD ((p.sp0.rcvExp + 65535) % 65536)
    | none => (p.sp0.rcvExp + 65535) % 65536
  let tx := [p.sp0.sndNext, p.sp1.sndNext]
  let rx := [p.sp0.rcvExp, p.sp1.rcvExp]
  let s := modSec node (fun x => { x with
    st := .active, requester := requester, root := root, inc := inc, last := s.now, swN := seq, hsInc := none, hsSeq := none
    step := 0, txN := tx, txK := tx, rxN := rx, rxK := rx, keyGen := 0 }) s
  let s := setSec (fun c => { c with peak := max c.peak (sessions s) }) s
  s

/-- FINISH: the handshake completes; under a provisional state that state becomes the held one (11 R465; 14 R567, R571). The
third part says that the answer is sent below the switch point. -/
def spdmFinish (m : SpdmIn) (prov : Bool) (s : State) : State × List Byte × Bool :=
  let node := m.req.src
  match secOf s node with
  | none => (s, spdmError errUnexpected 0, false)
  | some p =>
    if !((p.st = .handshake && !p.requester) || p.hsInc.isSome) then (s, spdmError errUnexpected 0, false)
    else match (if m.ok then m.root else none) with
      | none => (handshakeFailed node s, spdmError errDecrypt 0, false)
      | some root =>
        if !(8 ≤ root && root ≤ 11 && keyUsable s root) then (handshakeFailed node s, spdmError errDecrypt 0, false)
        else
          let s := if prov then promoteProv node s else s
          (openedSession node false root (p.hsInc.getD p.inc) s, spdmMsg 0x65 0 0 [], true)

/-- KEY_UPDATE: the new key's first N of space 1 and of space 0 (14 R571). -/
def spdmKeyUpdate (m : SpdmIn) (s : State) : State × List Byte :=
  let node := m.req.src
  let l := m.req.payload
  if m.sess.isSome || !hasSession s node then (s, spdmError errUnexpected 0)
  else
    let op := field l 2 1
    let s := if op = 1 || op = 2 then modSec node (fun p => { p with
        keyGen := wrapAdd 16 p.keyGen 1, rxK := [op1 m.req, op0 m.req]
        txK := if op = 2 then p.txN else p.txK, last := s.now }) s else s
    (s, spdmMsg 0x69 op (field l 3 1) [])

/-- END_SESSION: the answer, and then the end (14 R568). -/
def spdmEnd (m : SpdmIn) (s : State) : State × List Byte :=
  if m.sess.isSome || !hasSession s m.req.src then (s, spdmError errUnexpected 0) else (s, spdmMsg 0x6C 0 0 [])

/-- An answer of more than 2,048 B is kept for CHUNK_GET (14 R564). -/
def spdmLimit (m : SpdmIn) (x : State × List Byte) : State × List Byte :=
  if x.2.length ≤ 2048 || m.sess.isSome then x
  else (modSec m.req.src (fun p => { p with large := x.2 }) x.1, spdmError errLarge 0)

/-- A chunk of a long answer. -/
def spdmChunkGet (m : SpdmIn) (s : State) : State × List Byte :=
  let l := m.req.payload
  let p := (secOf s m.req.src).getD {}
  let n := field l 4 2
  let c := p.large.drop (if n = 0 then 0 else 2028 + (n - 1) * 2032)
  if c.isEmpty then (s, spdmError errUnexpected 0)
  else
    let k := c.take (if n = 0 then 2028 else 2032)
    let last := decide (c.length ≤ k.length)
    (if last then modSec m.req.src (fun p => { p with large := [] }) s else s,
      spdmMsg 0x06 (b2n last) (field l 3 1) (le 2 n ++ le 2 0 ++ le 4 k.length
        ++ (if n = 0 then le 4 p.large.length else []) ++ k))

/-- GET_ENCAPSULATED_REQUEST and DELIVER_ENCAPSULATED_RESPONSE: the module asks the peer for its chain (14 R564). -/
def spdmEncap (m : SpdmIn) (s : State) : State × List Byte :=
  let node := m.req.src
  let l := m.req.payload
  let ask := fun (n : Nat) => spdmMsg 0x82 0 0 (le 2 n ++ le 2 2000)
  match secOf s node with
  | none => (s, spdmError errUnexpected 0)
  | some p =>
    if spdmCode l = 0xEA then (s, spdmMsg 0x6A 1 0 (ask p.cert.length))
    else
      let c := l.drop 4
      let cert := p.cert ++ slice c 8 (field c 4 2)
      let s := modSec node (fun p => { p with cert := cert }) s
      if field c 6 2 = 0 then (s, spdmMsg 0x6B 1 0 []) else (s, spdmMsg 0x6B 1 1 (ask cert.length))

/-- Answer one SPDM request; chunks apart. -/
def spdmAnswer (m : SpdmIn) (prov : Bool) (s : State) : State × List Byte × Bool :=
  let plain := fun (x : State × List Byte) => (x.1, x.2, false)
  match spdmCode m.req.payload with
  | 0x84 => plain (spdmVersion m s)
  | 0xE1 => plain (spdmCaps m s)
  | 0xE3 => plain (spdmAlgs m s)
  | 0x81 => plain (spdmDigests m s)
  | 0x82 => plain (spdmCert m s)
  | 0x83 => plain (spdmChallenge m s)
  | 0xE0 => plain (spdmLimit m (spdmMeas m s))
  | 0xE4 => plain (spdmKeyEx m prov s)
  | 0xE5 => spdmFinish m prov s
  | 0xE9 => plain (spdmKeyUpdate m s)
  | 0xEC => plain (spdmEnd m s)
  | 0x86 => plain (spdmChunkGet m s)
  | 0xEA => plain (spdmEncap m s)
  | 0xEB => plain (spdmEncap m s)
  | c => (s, spdmError errUnsupported c, false)

/-- CHUNK_SEND: chunks are collected, and the last one has the whole message answered within its acknowledgement. -/
def spdmChunkSend (m : SpdmIn) (prov : Bool) (s : State) : State × List Byte × Bool :=
  let node := m.req.src
  let l := m.req.payload
  let n := field l 4 2
  let d := if n = 0 then slice l 16 (field l 8 4) else slice l 12 (field l 8 4)
  let p := (secOf s node).getD {}
  let all := (if n = 0 then [] else p.chunk) ++ d
  if bit (field l 2 1) 0 then
    let s := modSec node (fun p => { p with chunk := [] }) s
    let (s, r, below) := spdmAnswer { m with req := { m.req with payload := all } } prov s
    (s, spdmMsg 0x05 0 (field l 3 1) (le 2 n ++ r), below)
  else (modSec node (fun p => { p with chunk := all }) s, spdmMsg 0x05 0 (field l 3 1) (le 2 n), false)

/-- Send the answer of an SPDM_CARRY under the state of its request, and what follows it: the messages that waited for the
session, or the end of the session (11 R465; 14 R565, R568, R571). -/
def spdmReply (w : Waiting) (x : State × List Byte × Bool) : State :=
  let (s, msg, below) := x
  let r := w.req
  let p : Resp := { mkResp s r .ok with opcode := 0x7F, payload := msg, len := msg.length }
  let prov := w.prov && !below
  let s := sendQ r.src prov false { respPkt none p with plain := below } (countStatus .ok s)
  let s := modIfSession r.src s
  if below then flushToOpen r.src s
  else if spdmCode msg = 0x6C then endSession r.src s else s
where
  /-- An SPDM message of a session is a use of it (14 R566). -/
  modIfSession (node : Nat) (s : State) : State :=
    if hasSession s node then modSec node (fun p => { p with last := s.now }) s else s

/-- A second SPDM_CARRY of a peer while an earlier one is not answered (14 R565). -/
def carryBusy (s : State) (w : Waiting) : Bool :=
  s.vrb.waiting.any fun x => x.why = .inbox && effOpcode x.req.opcode = 0x7F && x.req.subop = 1 && x.req.src = w.req.src
    && decide (x.ord < w.ord)

/-- Serve an SPDM request that a packet or a management session carries (14 R565, R582). -/
def spdmServe (m : SpdmIn) (h : Bool → State → State × List Byte × Bool) (s : State) : State :=
  match m.sess with
  | some x => withSess x m.t .read (fun s =>
      let (s, msg, _) := h false s
      mgmtReply x .ok (words64 (ceilDiv msg.length 8) msg) s) s
  | none => runVerb { m.req with opcode := 0x7F, subop := 1 } { t := m.t } (fun w s =>
      if carryBusy s w then spdmReply w (s, spdmError errBusy 0, false) else spdmReply w (h w.prov s)) s

/-- The message of a command with the code of its row. -/
def asCode (m : SpdmIn) (c : Nat) : SpdmIn :=
  { m with req := { m.req with payload := setNthD 0 1 (BitVec.ofNat 8 c) m.req.payload } }

/-! The module as requester (14 R564, R577) -/

/-- Send the next request of a handshake. -/
def spdmNext (node code : Nat) (msg : List Byte) (s : State) : State :=
  sendSpdm node msg (modSec node (fun p => { p with step := code, last := s.now }) s)

/-- The request that follows a certificate chain: KEY_EXCHANGE with fresh values. -/
def spdmSendKeyEx (node : Nat) (s : State) : State :=
  let (s, r) := draw 80 s
  let (s, f) := freeBytes 98 s
  spdmNext node 0xE4 (spdmMsg 0xE4 0xFF 0 (f.take 2 ++ le 2 0 ++ r.take 32 ++ f.drop 2 ++ le 2 0)) s

/-- FINISH with its MAC. -/
def spdmSendFinish (node : Nat) (s : State) : State :=
  let (s, f) := freeBytes 48 s
  spdmNext node 0xE5 (spdmMsg 0xE5 0 0 f) s

/-- Ask for the next portion of the peer's chain. -/
def spdmAskCert (node n : Nat) (s : State) : State := spdmNext node 0x82 (spdmMsg 0x82 0 0 (le 2 n ++ le 2 2000)) s

/-- Deliver a portion of the module's chain that an encapsulated request asks for, or FINISH when none is asked for. -/
def spdmDeliver (node : Nat) (l : List Byte) (s : State) : State :=
  let q := l.drop 4
  if spdmCode q = 0x82 then
    spdmNext node 0xEB (spdmMsg 0xEB (field l 2 1) 0 (certPortion s (field q 4 2) (field q 6 2))) s
  else spdmSendFinish node s

/-- A handshake as requester comes to its end: what waited for the session goes out (14 R571, R577). -/
def spdmFinished (node root inc : Nat) (s : State) : State :=
  flushToOpen node (openedSession node true root inc s)

/-- The answer to a request of the module's own (14 R564, R577). -/
def spdmResponse (node inc : Nat) (l : List Byte) (s : State) : State :=
  match secOf s node with
  | none => s
  | some p =>
    if p.st = .active then
      if spdmCode l = 0x69 && p.step = 0xE9 then
        modSec node (fun p => { p with step := 0, keyGen := wrapAdd 16 p.keyGen 1, last := s.now }) s
      else s
    else if !(p.st = .handshake && p.requester) then s
    else match spdmCode l with
      | 0x04 => spdmNext node 0xE1 (spdmMsg 0xE1 0 0 ([0, 0] ++ le 2 0
          ++ le 4 (sumBy (fun i => 2 ^ i) [1, 2, 6, 7, 8, 9, 12, 14, 17]) ++ le 4 2048 ++ le 4 2048)) s
      | 0x61 => spdmNext node 0xE3 (spdmMsg 0xE3 4 0 (le 2 48 ++ le 1 1 ++ le 1 0 ++ le 4 0x80 ++ le 4 0x02 ++ le 12 0 ++ le 2 0
          ++ le 2 0 ++ le 1 2 ++ le 1 0x20 ++ le 2 0x10 ++ le 1 3 ++ le 1 0x20 ++ le 2 0x02
          ++ le 1 4 ++ le 1 0x20 ++ le 2 0x80 ++ le 1 5 ++ le 1 0x20 ++ le 2 0x01)) s
      | 0x63 => spdmAskCert node 0 (modSec node (fun p => { p with cert := [] }) s)
      | 0x02 =>
        let cert := p.cert ++ slice l 8 (field l 4 2)
        let s := modSec node (fun p => { p with cert := cert }) s
        if field l 6 2 = 0 then (if s.onx.drbgFail then exchangesLost node (handshakeFailed node s) else spdmSendKeyEx node s)
        else spdmAskCert node cert.length s
      | 0x64 =>
        match (if Config.spdmOk l then Config.spdmRoot node p.cert else none) with
        | some root =>
          if 8 ≤ root && root ≤ 11 && keyUsable s root then
            let s := modSec node (fun p => { p with root := root }) s
            if field l 6 1 = 0 then spdmSendFinish node s else spdmNext node 0xEA (spdmMsg 0xEA 0 0 []) s
          else exchangesLost node (handshakeFailed node s)
        | none => exchangesLost node (handshakeFailed node s)
      | 0x6A => spdmDeliver node l s
      | 0x6B => spdmDeliver node l s
      | 0x65 => if Config.spdmOk l then spdmFinished node p.root inc s else exchangesLost node (handshakeFailed node s)
      | 0x7F =>
        if p.step = 0xE4 && field l 2 1 = errBusy && decide (node < s.glb.node) then s
        else exchangesLost node (handshakeFailed node s)
      | _ => exchangesLost node (handshakeFailed node s)

/-- Ask for KEY_UPDATE when a direction's count under one key reaches 2^31 (14 R571). -/
def keyUpdates (s : State) : State :=
  (s.sec.peers.filter fun p => p.st = .active && p.step ≠ 0xE9
      && ((p.txN.zip p.txK) ++ (p.rxN.zip p.rxK)).any fun y => decide (y.2 + 2 ^ 31 ≤ y.1)).foldl
    (fun s p =>
      let k0 := nth 0 p.txN 0 + 1
      let k1 := nth 0 p.txN 1
      let (s, tag) := freshTag s
      let msg := spdmMsg 0xE9 2 0 []
      sendQ p.node false false { tc := 2, body := .req {
          tc := 2, opcode := 0x7F, subop := 1, len := BitVec.ofNat 16 msg.length, tag := BitVec.ofNat 32 tag, op0 := w64 k1
          op1 := w64 k0, payload := msg } }
        (modSec p.node (fun p => { p with step := 0xE9, txK := [k0, k1], rxK := p.rxN }) s)) s

end Sys2Proof.Machine
end

