-- ==== Sys2Proof/Machine/CtlOps.lean ====
section
/-! DEFINITION. The two control processors: the state copy, failure and switchover, repair (15_control_belay_faults R595 to R609),
and the uncorrectable SRAM bytes that act through them and through the peers' state (13_memory_integrity R527). -/

namespace Sys2Proof.Machine

/-- One control processor. -/
def cpAt (s : State) (k : Nat) : Cp := if k = 0 then s.cp.cp0 else s.cp.cp1

/-- Change one control processor. -/
def modCp (k : Nat) (f : Cp → Cp) (s : State) : State :=
  setCp (fun c => if k = 0 then { c with cp0 := f c.cp0 } else { c with cp1 := f c.cp1 }) s

/-- The code of a processor's state in CP_ROLE (15 R627). -/
def cpCode : CpState → Nat
  | .reset => 0 | .selftest => 1 | .lead => 2 | .second => 3 | .resync => 4 | .failed => 5 | .retired => 6

/-- CP_ROLE (15 R627). -/
def cpRole (s : State) : Nat := s.cp.lead.val + 2 ^ 8 * cpCode s.cp.cp0.st + 2 ^ 12 * cpCode s.cp.cp1.st

/-- The other processor than Lead. -/
def otherCp (s : State) : Nat := 1 - s.cp.lead.val

/-- The record of an event of a processor (15 R608, R623). -/
def cpRec (k code : Nat) (s : State) : State × CairnRec :=
  queueRec { mkRec 0x09 code k (cpRole s) 0 s with island := 0x90 + k } s

/-- Second is named Lead (15 R603): the count, the code and the duration, at most 30 us (log entry 13). -/
def switchTo (k : Fin 2) (code : Nat) (s : State) : State :=
  let (s, i) := takeFree 1 s
  setCp (fun c => { c with
    lead := k, switches := satAdd 16 c.switches 1, lastCode := code, gapUs := Config.freeNat i % 31
    awaiting := none, applied := c.ctlSeq, deltaAt := s.now })
    (modCp k.val (fun p => { p with st := .lead }) s)

/-- The processor that is not k. -/
def notCp (k : Nat) : Fin 2 := if k = 0 then 1 else 0

/-- A processor fails with a code (15 R601, R602, R607, R608): its third failure retires it with an alert; a failed Lead passes
its role to Second, or the module resets where no processor is in SECOND. Its island is held in reset (01 R42). -/
def failCp (k code : Nat) (s : State) : State :=
  let p := cpAt s k
  if !(p.st == .lead || p.st == .second || p.st == .resync) then s
  else
    let retired := decide (3 ≤ p.fails + 1)
    let s := modCp k (fun p => { p with
      fails := satAdd 8 p.fails 1, last := code, st := if retired then .retired else .failed })
      (setIsl (fun i => { i with miscLock := i.miscLock &&& ~~~ (1#12 <<< (9 + k)) }) s)
    let orphan := p.st == .lead && (cpAt s (notCp k).val).st != .second
    let s := if p.st == .lead && !orphan then switchTo (notCp k) code s else s
    let (s, r) := cpRec k code s
    let s := if retired then alertAll r s else s
    if orphan then resetModule 6 .module s else s

/-- The processors run: the end of step 3 has come, and the module is awake. -/
def cpsRun (s : State) : Bool := s.boot.step3Done && s.boot.st != .bivouac

/-- A switchover on command (15 R606): both processors healthy; otherwise it has no effect. -/
def forceSwitch (s : State) : State :=
  let k := s.cp.lead.val
  if (cpAt s k).st = .lead && (cpAt s (otherCp s)).st = .second then
    (cpRec k 0x0A (switchTo (notCp k) 0x0A (modCp k (fun p => { p with st := .second }) s))).1
  else s

/-- The other processor receives Lead's deltas. -/
def copies (s : State) : Bool := (cpAt s (otherCp s)).st == .second || (cpAt s (otherCp s)).st == .resync

/-- The control-crossing writes of a cycle, n of them, newest first (15 R600; log entry 13). -/
def crossingWrites (base i n : Nat) : List CpLogEntry :=
  (List.range n).reverse.map fun k =>
    { ctlSeq := base + k + 1, target := Config.freeNat (i + 3 * k), value := w64 (Config.freeNat (i + 3 * k + 1))
      req := Config.freeNat (i + 3 * k + 2), done := true }

/-- The end of a control cycle: Lead's writes of the cycle, the delta to Second, a failed processor goes on to RESYNC, split
critical words are rewritten, sessions due for it update their keys (15 R598, R600, R607; 13 R529; 14 R571). -/
def controlCycle (s : State) : State :=
  let (s, i) := takeFree 3074 s
  let n := Config.freeNat i % 1025
  let chk := w64 (Config.freeNat (i + 1))
  let s := setCp (fun c => { c with
    cycle := c.cycle + 1, chk := chk, ctlSeq := c.ctlSeq + n
    log := (crossingWrites c.ctlSeq (i + 2) n ++ c.log).take 4096 }) s
  let s := if copies s then
      emit (.delta s.cp.cycle chk) (setCp (fun c => { c with awaiting := some c.cycle, deltaAt := s.now }) s)
    else setCp (fun c => { c with awaiting := none, deltaAt := s.now }) s
  let s := if (cpAt s (otherCp s)).st = .failed then
      setIsl (fun i => { i with miscLock := i.miscLock ||| 1#12 <<< (9 + otherCp s) })
        (modCp (otherCp s) (fun p => { p with st := .resync }) s) else s
  keyUpdates (critRewrite s)

/-- The ACK of Second (15 R598, R599): past 5 us it is late and Second is failed; a CHK that differs fails Second. -/
def deltaAck (cycle : BitVec 32) (chk : BitVec 64) (s : State) : State :=
  if s.cp.awaiting = some cycle then
    let late := decide (s.cp.deltaAt + 5000 < s.now)
    let s := setCp (fun c => { c with awaiting := none, lastCycle := cycle }) s
    if late then failCp (otherCp s) 0x07 (setCp (fun c => { c with late := satAdd 16 c.late 1 }) s)
    else if (cpAt s (otherCp s)).st = .second && chk ≠ s.cp.chk then
      failCp (otherCp s) 0x06 (setCp (fun c => { c with mismatch := satAdd 16 c.mismatch 1 }) s)
    else setCp (fun c => { c with applied := c.ctlSeq }) s
  else s

/-- No ACK within 5 us (15 R599). -/
def secondHang (s : State) : State :=
  if s.cp.awaiting.isSome && decide (s.cp.deltaAt + 5000 ≤ s.now) then failCp (otherCp s) 0x07 s else s

/-- No delta for 20 us (15 R601, R602): Lead is failed; where Lead still waits for Second's ACK, each reports the other and
Lead is kept. -/
def noDelta (s : State) : State :=
  if (cpAt s (otherCp s)).st = .second && decide (s.cp.deltaAt + 20000 ≤ s.now) then
    if s.cp.awaiting.isSome then failCp (otherCp s) 0x07 s else failCp s.cp.lead.val 0x05 s
  else s

/-- The CHK after the full copy matches: RESYNC ends in SECOND (15 R607, R608). -/
def resyncDone (s : State) : State :=
  let k := otherCp s
  if (cpAt s k).st = .resync then (cpRec k 0x00 (modCp k (fun p => { p with st := .second }) s)).1 else s

/-- Uncorrectable bytes of end-to-end peer state and of a processor's SRAM (13 R527). -/
def applyLate (s : State) (x : Nat × Nat × Nat) : State :=
  if x.1 = 0x08 then peerGone x.2.1 (sramUe 0x08 x.2.1 x.2.2 s)
  else if x.1 = 0x0C then failCp (x.2.1 % 2) 0x03 (sramUe 0x0C x.2.1 x.2.2 s)
  else s

/-- The environment's part of a command with every structure of 13 R527. -/
def applyEvery (e : Env) (s : State) : State := e.sram.foldl applyLate (applyAll e s)

end Sys2Proof.Machine
end

