-- ==== Sys2Proof/Machine/Image.lean ====
section
/-! DEFINITION. The Salven configuration image: the checks of a slot, the choice of the slot, and the effective values with their
adjustments (03_salven_image R93 to R113, R677, R678; 12_service_and_dram R502). -/

namespace Sys2Proof.Machine

/-! Adjustments (03 R108, R678) -/

/-- An adjustment: kind 1 clamped, 2 defaulted, 3 dropped, with its place. -/
structure Adj where
  /-- KIND. -/
  kind : Nat := 1
  /-- SECT. -/
  sect : Nat := 0
  /-- ENTRY; 0xFFFFFF outside any entry. -/
  entry : Nat := 0xFFFFFF
  /-- FIELD_OFS. -/
  ofs : Nat := 0
deriving DecidableEq, Repr

/-- The ENTRY of a field outside any entry (03 R678). -/
def noEntry : Nat := 0xFFFFFF

/-- A value with the adjustments that gave it. -/
structure Adjd (α : Type) where
  /-- The effective value. -/
  val : α
  /-- Its adjustments in field order. -/
  adj : List Adj

/-- A number clamped to a range, with its clamp when it was outside. -/
def clampA (sect entry ofs lo hi x : Nat) : Adjd Nat :=
  { val := clampTo lo hi x, adj := if clampTo lo hi x = x then [] else [{ kind := 1, sect := sect, entry := entry, ofs := ofs }] }

/-- A dropped entry. -/
def dropA (sect entry ofs : Nat) : List Adj := [{ kind := 3, sect := sect, entry := entry, ofs := ofs }]

/-- A defaulted field. -/
def defaultA (sect entry ofs : Nat) : List Adj := [{ kind := 2, sect := sect, entry := entry, ofs := ofs }]

/-- The 64 bits that BOOT_IMG_FIRST_ADJ shows of an adjustment (03 R121). -/
def adjWord (a : Adj) : BitVec 64 := w64 (a.kind * 2 ^ 56 + a.sect % 65536 * 2 ^ 40 + a.entry % 2 ^ 24 * 65536 + a.ofs % 65536)

/-! The section table (03 R104) -/

/-- The size of a section type: bytes before the entries, bytes of an entry, and whether it has a COUNT; none for a reserved
type. -/
def sectSize (typ : Nat) : Option (Nat × Nat × Bool) :=
  match typ with
  | 0x01 => some (32, 0, false) | 0x02 => some (512, 0, false) | 0x03 => some (32768, 0, false)
  | 0x04 => some (8, 32, true) | 0x05 => some (8, 12, true) | 0x06 => some (64, 0, false)
  | 0x07 => some (24, 16, true) | 0x08 => some (16, 24, true) | 0x09 => some (16, 0, false)
  | 0x0A => some (8, 8, true) | 0x0B => some (8, 2056, true) | 0x0C => some (128, 0, false)
  | 0x0D => some (56, 32, true) | 0x0E => some (16, 0, false) | 0x0F => some (8, 0, false)
  | _ => none

/-- LEN agrees with the section's size; a section of reserved TYPE has none (03 R101, R104). -/
def sectLenOk (l : List Byte) (d : Sect) : Bool :=
  match sectSize d.typ with
  | none => true
  | some (p, w, counted) => d.len = p + (if counted then w * field l d.ofs 4 else 0)

/-- The mandatory section types (03 R104). -/
def mandatory : List Nat := [0x01, 0x02, 0x03, 0x04, 0x08, 0x0B]

/-- COUNT of a section after its clamp to the section's maximum (03 R677). -/
def countA (l : List Byte) (ds : List Sect) (typ most : Nat) : Adjd Nat :=
  clampA typ noEntry 0 0 most (sectCount l ds typ)

/-- The sections of an image. -/
def imageDir (l : List Byte) : List Sect := sectDir l 0x100 (field l 0x14 2)

/-! Step 2: the checks of a slot (03 R95, R96) -/

/-- The image bytes of a slot; beyond what was programmed a device reads 0xFF (03 R93, R94). -/
def flashRead (d : FlashDev) (ofs n : Nat) : List Byte :=
  let t := (d.image.drop ofs).take n
  t ++ List.replicate (n - t.length) 0xFF

/-- The whole image of a slot by its IMAGE_LEN. -/
def slotImage (d : FlashDev) : List Byte := flashRead d 0 (min 0x400000 (field (flashRead d 0 256) 0x10 4))

/-- NODE_BASE is denied (03 R110). -/
def identityDenied (l : List Byte) (ds : List Sect) : Bool :=
  decide (0xFFFFF < field (sectBytes l ds 0x01) 0 4 + 63)

/-- The usable trust anchors of the MGMT_TRUST section with the drops and defaults (03 R110). -/
def trustEntries (l : List Byte) (ds : List Sect) (n : Nat) : Adjd (List TrustCfg) :=
  ((List.range n).zip (sectEntries l ds 0x0B 8 2056 n)).foldl (fun a x =>
    let role := field x.2 0 1
    let len := field x.2 2 2
    let cert := slice x.2 8 len
    if 2048 < len then { a with adj := a.adj ++ dropA 0x0B x.1 2 }
    else if (Config.certKey cert).isNone then { a with adj := a.adj ++ dropA 0x0B x.1 8 }
    else { val := a.val ++ [{ role := if role = 0 then .operator else .auditor, cert := cert }]
           adj := a.adj ++ if 1 < role then defaultA 0x0B x.1 0 else [] }) { val := [], adj := [] }

/-- MGMT_TRUST (03 R110, R677). -/
def trustA (l : List Byte) (ds : List Sect) : Adjd (List TrustCfg) :=
  let c := countA l ds 0x0B 8
  let t := trustEntries l ds c.val
  { val := t.val, adj := c.adj ++ t.adj }

/-- The entries of PATCH_TABLE (03 R110). -/
def patchEntries (l : List Byte) (ds : List Sect) : List PatchEntry :=
  (sectEntries l ds 0x0D 56 32 (sectCount l ds 0x0D)).map fun b =>
    { target := field b 0 4, words := field b 4 1, data := slice b 8 24 }

/-- The patch table is defective or built for another ROM (03 R113). -/
def patchBad (s : State) (l : List Byte) (ds : List Sect) : Bool :=
  match sectOf ds 0x0D with
  | none => false
  | some _ =>
    let es := patchEntries l ds
    slice (sectBytes l ds 0x0D) 8 48 ≠ slice s.fuse.romDigest 0 48 || decide (64 < es.length)
      || (es.any fun e => e.target % 4 ≠ 0 || decide (0x40000 ≤ e.target) || decide (e.words < 1) || decide (6 < e.words))
      || !apart (es.map fun e => (e.target, 4 * e.words))

/-- The checks of R96 from 0x03 onward on an image, in order; 0 when it passes. -/
def imageReason (s : State) (d : FlashDev) : Nat :=
  let h := flashRead d 0 256
  let len := field h 0x10 4
  let n := field h 0x14 2
  let key := field h 0x16 1
  let svn := field h 0x18 4
  if field h 0 8 ≠ 0x31304E45564C4153 || field h 8 2 ≠ 1 || field h 0xA 2 ≠ 0x100 then 0x03
  else if len < 0x1000 || 0x400000 < len || len % 64 ≠ 0 || n < 1 || 32 < n then 0x04
  else if 3 < key || !keyUsable s key then 0x05
  else if 63 < svn || svn < s.fuse.svnFloor then 0x06
  else
    let l := slotImage d
    let ds := imageDir l
    if !signedBy (keyOf s key) l len then 0x07
    else if !(field h 0x1C 4).testBit (match s.fuse.variant with | .c3240C => 0 | .c3240E => 1 | .c3240M => 2 | .c2440C => 3)
      then 0x08
    else if !sectsPlaced 0x100 len ds || !ds.all (sectLenOk l) then 0x09
    else if mandatory.any fun t => (sectOf ds t).isNone then 0x0A
    else if identityDenied l ds then 0x0B
    else if (trustA l ds).val.isEmpty then 0x0C
    else if patchBad s l ds then 0x0D
    else 0

/-- The reason of a slot; a flash error comes before every other (03 R96). -/
def slotReason (s : State) (slotA : Bool) (d : FlashDev) : Nat :=
  if !d.fitted || !d.readOk then 0x0E
  else if d.commit ≠ 0 then 0x01
  else if slotA && d.supersede = 0 then 0x02
  else imageReason s d

/-- The slot chosen at step 2, with the reasons of slot A and slot B (03 R95, R96). -/
def chooseSlot (s : State) : SlotName × Nat × Nat :=
  let a := slotReason s true s.flash.a
  if a = 0 then (.slotA, 0, 0)
  else
    let b := slotReason s false s.flash.b
    (if b = 0 then .slotB else .noSlot, a, b)

/-! Step 3: the sections (03 R110) -/

/-- One PORT_MAP entry. -/
def portEntry (b : List Byte) : PortCfg :=
  let v := field b 0 8
  { nbrNode := bits v 19 0, nbrPort := bits v 25 20, mapped := bit v 26, maxWidth := bits v 28 27, verify := bit v 29 }

/-- PORT_MAP. -/
def portMap (l : List Byte) (ds : List Sect) : List PortCfg := (sectEntries l ds 0x02 0 8 64).map portEntry

/-- The mask of mapped ports. -/
def mappedMask (ps : List PortCfg) : BitVec 64 :=
  ((List.range 64).zip ps).foldl (fun m x => if x.2.mapped then m ||| 1#64 <<< x.1 else m) 0

/-- The lowest set bit of a word and the number of its set bits. -/
def setBits (m : BitVec 64) : List Nat := (List.range 64).filter fun i => m.getLsbD i

/-- ROUTE_TABLE: bits of unmapped ports are cleared, each a clamp (03 R110, R678). -/
def routeA (mapped : BitVec 64) (l : List Byte) (ds : List Sect) : Adjd (List (BitVec 64)) :=
  let es := (sectEntries l ds 0x03 0 8 4096).map fun b => w64 (field b 0 8)
  { val := es.map fun v => v &&& mapped
    adj := (((List.range 4096).zip es).map fun x =>
      match setBits (x.2 &&& ~~~ mapped) with
      | [] => []
      | b :: r => List.replicate (r.length + 1) { kind := 1, sect := 0x03, entry := x.1, ofs := b / 8 }).flatten }

/-- Usable capacity of the variant in GiB (03 R110). -/
def usableGib (v : Variant) : Nat := if v = .c2440C then 1488 else 1984

/-- A TENANT_SLOTS entry that is kept, at index i. -/
def tenantEntry (v : Variant) (i : Nat) (b : List Byte) : Adjd TenantCfg :=
  let fl := field b 2 2
  let mode := bits fl 2 1
  let lv := clampA 4 i 0x04 0 7 (field b 4 1)
  let mem := clampA 4 i 0x08 0 (usableGib v) (field b 8 4)
  let win := clampA 4 i 0x0C 0 65536 (field b 0xC 4)
  let ctx := clampA 4 i 0x10 0 262144 (field b 0x10 4)
  let kv := clampA 4 i 0x14 0 1048576 (field b 0x14 4)
  let ws := clampA 4 i 0x18 0 256 (field b 0x18 2)
  let coh := clampA 4 i 0x1A 0 256 (field b 0x1A 2)
  let anc := clampA 4 i 0x1C 0 16384 (field b 0x1C 2)
  { val := { tid := field b 0 2, enabled := bit fl 0, partitioned := mode = 1, ceReport := bit fl 3, level := lv.val
             maxMemGib := mem.val, maxWindows := win.val, maxContexts := ctx.val, maxKv := kv.val, maxWs := ws.val
             maxCohGib := coh.val, maxAnchors := anc.val }
    adj := (if 1 < mode then defaultA 4 i 2 else []) ++ lv.adj ++ mem.adj ++ win.adj ++ ctx.adj ++ kv.adj ++ ws.adj
      ++ coh.adj ++ anc.adj }

/-- TENANT_SLOTS: the entries kept, each with its index. -/
def tenantsA (v : Variant) (l : List Byte) (ds : List Sect) : Adjd (List (Nat × TenantCfg)) :=
  let c := countA l ds 0x04 4096
  ((List.range c.val).zip (sectEntries l ds 0x04 8 32 c.val)).foldl (fun a x =>
    let tid := field x.2 0 2
    if 0xFFF < tid || a.val.any fun y => y.2.tid = tid then { a with adj := a.adj ++ dropA 4 x.1 0 }
    else
      let e := tenantEntry v x.1 x.2
      { val := a.val ++ [(x.1, e.val)], adj := a.adj ++ e.adj }) { val := [], adj := c.adj }

/-- TENANT_HOSTS. -/
def hostsA (tenants : List TenantCfg) (l : List Byte) (ds : List Sect) : Adjd (List HostRange) :=
  let c := countA l ds 0x05 65536
  ((List.range c.val).zip (sectEntries l ds 0x05 8 12 c.val)).foldl (fun a x =>
    let h : HostRange := { tid := field x.2 0 2, first := field x.2 4 4, nodes := field x.2 8 4 }
    if !tenants.any fun t => t.tid = h.tid && t.enabled then { a with adj := a.adj ++ dropA 5 x.1 0 }
    else if 0xFFFFF < h.first + h.nodes - 1 then { a with adj := a.adj ++ dropA 5 x.1 4 }
    else if h.nodes = 0 then { a with adj := a.adj ++ dropA 5 x.1 8 }
    else { a with val := a.val ++ [h] }) { val := [], adj := c.adj }

/-- SERVICE_MAP: queues and weights per level. -/
def serviceA (l : List Byte) (ds : List Sect) : Adjd (List (Nat × Nat)) :=
  ((List.range 8).zip (sectEntries l ds 0x06 0 8 8)).foldl (fun a x =>
    let q := clampA 6 x.1 0 0 7 (field x.2 0 1)
    let w := clampA 6 x.1 2 1 1024 (field x.2 2 2)
    { val := a.val ++ [(q.val, w.val)], adj := a.adj ++ q.adj ++ w.adj }) { val := [], adj := [] }

/-- A record of SHAPER whose fields begin at an offset. -/
def shaperRec (entry base : Nat) (b : List Byte) : Adjd ShpCfg :=
  let r := clampA 7 entry (base + 4) 1 200000 (field b 4 4)
  let k := clampA 7 entry (base + 8) 4 4096 (field b 8 4)
  let o := clampA 7 entry (base + 12) 0 63 (field b 12 1)
  { val := { rate := r.val, burst := k.val, overhead := o.val }, adj := r.adj ++ k.adj ++ o.adj }

/-- SHAPER: the default record and the overrides by TID. -/
def shaperA (l : List Byte) (ds : List Sect) : Adjd (ShpCfg × List (Nat × ShpCfg)) :=
  let c := countA l ds 0x07 4096
  let d := shaperRec noEntry 8 (slice (sectBytes l ds 0x07) 8 16)
  ((List.range c.val).zip (sectEntries l ds 0x07 24 16 c.val)).foldl (fun a x =>
    let tid := field x.2 0 2
    if 0xFFF < tid || (assoc tid a.val.2).isSome then { a with adj := a.adj ++ dropA 7 x.1 0 }
    else
      let e := shaperRec x.1 0 x.2
      { val := (a.val.1, a.val.2 ++ [(tid, e.val)]), adj := a.adj ++ e.adj }) { val := (d.val, []), adj := c.adj ++ d.adj }

/-- The signed number of 32 bits. -/
def sint32 (n : Nat) : Int := if n < 2 ^ 31 then n else (n : Int) - 2 ^ 32

/-- A threshold between its ROM default and its absolute limit (03 R111); one that is disabled stays so. -/
def clampThr (g : BelGroup) (i ofs : Nat) (d : Option Int) (n : Nat) : Adjd (Option Int) :=
  match d, absLimit g d with
  | some x, some y =>
    let v := sint32 n
    let c := max (min x y) (min (max x y) v)
    { val := some c, adj := if c = v then [] else [{ kind := 1, sect := 8, entry := i, ofs := ofs }] }
  | _, _ => { val := none, adj := [] }

/-- A threshold no less severe than the one before it (03 R111). -/
def atLeast (g : BelGroup) (i ofs : Nat) (before : Option Int) (x : Option Int) : Adjd (Option Int) :=
  match before, x with
  | some b, some v =>
    let m := if g.low then min b v else max b v
    { val := some m, adj := if m = v then [] else [{ kind := 1, sect := 8, entry := i, ofs := ofs }] }
  | _, x => { val := x, adj := [] }

/-- A threshold no more severe than another (03 R111). -/
def atMost (g : BelGroup) (i ofs : Nat) (limit : Option Int) (x : Option Int) : Adjd (Option Int) :=
  match limit, x with
  | some b, some v =>
    let m := if g.low then max b v else min b v
    { val := some m, adj := if m = v then [] else [{ kind := 1, sect := 8, entry := i, ofs := ofs }] }
  | _, x => { val := x, adj := [] }

/-- The first of two thresholds that is there. -/
def lastThr (a b : Option Int) : Option Int := match b with | some x => some x | none => a

/-- A BELAY entry: five thresholds, clamped, then put in order (03 R111). -/
def belayEntry (i : Nat) (b : List Byte) : Adjd (Nat × BelChan) :=
  let ch := field b 0 1
  let g := chanGroup ch
  let a0 := clampThr g i 0x04 g.alert (field b 4 4)
  let c0 := clampThr g i 0x08 g.cap (field b 8 4)
  let o0 := clampThr g i 0x0C g.orderly (field b 0xC 4)
  let e0 := clampThr g i 0x10 g.emerg (field b 0x10 4)
  let r0 := clampThr g i 0x14 g.restart (field b 0x14 4)
  let c1 := atLeast g i 0x08 a0.val c0.val
  let o1 := atLeast g i 0x0C (lastThr a0.val c1.val) o0.val
  let e1 := atLeast g i 0x10 (lastThr (lastThr a0.val c1.val) o1.val) e0.val
  let r1 := atMost g i 0x14 a0.val r0.val
  { val := (ch, { alert := a0.val, cap := c1.val, orderly := o1.val, emerg := e1.val, restart := r1.val })
    adj := a0.adj ++ c0.adj ++ o0.adj ++ e0.adj ++ r0.adj ++ c1.adj ++ o1.adj ++ e1.adj ++ r1.adj }

/-- The header of BELAY: POWER_CAP_W and IIR_SHIFT. -/
def belayHead (b : List Byte) : Adjd (Nat × List Nat) :=
  let c := clampA 8 noEntry 4 1200 3300 (field b 4 2)
  (List.range 8).foldl (fun a k =>
    let x := clampA 8 noEntry (8 + k) 1 8 (field b (8 + k) 1)
    { val := (a.val.1, a.val.2 ++ [x.val]), adj := a.adj ++ x.adj }) { val := (c.val, []), adj := c.adj }

/-- BELAY: POWER_CAP_W, IIR_SHIFT and the channels with an entry. -/
def belayA (l : List Byte) (ds : List Sect) : Adjd ((Nat × List Nat) × List (Nat × BelChan)) :=
  let c := countA l ds 0x08 96
  let h := belayHead (sectBytes l ds 0x08)
  ((List.range c.val).zip (sectEntries l ds 0x08 16 24 c.val)).foldl (fun a x =>
    let ch := field x.2 0 1
    if 95 < ch || (assoc ch a.val.2).isSome then { a with adj := a.adj ++ dropA 8 x.1 0 }
    else
      let e := belayEntry x.1 x.2
      { val := (a.val.1, a.val.2 ++ [e.val]), adj := a.adj ++ e.adj }) { val := (h.val, []), adj := c.adj ++ h.adj }

/-- CE_POLICY: BUCKET mode, LEAK_PER_S, DEPTH. -/
def cePolicyA (l : List Byte) (ds : List Sect) : Adjd (Bool × Nat × Nat) :=
  let b := sectBytes l ds 0x09
  let m := field b 0 1
  let k := clampA 9 noEntry 4 1 1000000 (field b 4 4)
  let d := clampA 9 noEntry 8 1 65535 (field b 8 4)
  { val := (m = 1, k.val, d.val), adj := (if 1 < m then defaultA 9 noEntry 0 else []) ++ k.adj ++ d.adj }

/-- MIRROR_PEERS of a module with a node ID. -/
def mirrorPeersA (node : Nat) (l : List Byte) (ds : List Sect) : Adjd (List Nat) :=
  let c := countA l ds 0x0A 16
  ((List.range c.val).zip (sectEntries l ds 0x0A 8 8 c.val)).foldl (fun a x =>
    let p := field x.2 0 4
    if 0xFFFFF < p || p = node || a.val.contains p then { a with adj := a.adj ++ dropA 0x0A x.1 0 }
    else { a with val := a.val ++ [p] }) { val := [], adj := c.adj }

/-- An address that no port may hold: multicast, broadcast or unspecified (03 R112). Of the IPv4 addresses only 255.255.255.255
counts as broadcast, whatever PREFIX says: DESIGN CHOICE (log entry 37). -/
def badAddr (family : Nat) (a : List Byte) : Bool :=
  let x := field a 0 1
  if family = 1 then (224 ≤ x && x < 240) || (a.take 4).all (fun b => b == 0xFF) || (a.take 4).all (fun b => b == 0)
  else x = 0xFF || a.all fun b => b == 0

/-- One MGMT_NET entry; a forbidden ADDR or GATEWAY drops it whole, and its port has the link-local address alone (03 R106,
R110, R112; log entry 37). -/
def mgmtNetEntry (i : Nat) (b : List Byte) : Adjd NetCfg :=
  let f0 := field b 0 1
  let f := if 2 < f0 then 0 else f0
  let addr := slice b 4 16
  let gw := slice b 0x14 16
  if f ≠ 0 && badAddr f addr then { val := {}, adj := dropA 0xC i 4 }
  else if f ≠ 0 && badAddr f gw then { val := {}, adj := dropA 0xC i 0x14 }
  else
    let p := if f = 0 then { val := field b 1 1, adj := [] } else clampA 0xC i 1 0 (if f = 1 then 32 else 128) (field b 1 1)
    let v := clampA 0xC i 2 0 4094 (field b 2 2)
    { val := { family := f, pfx := p.val, vlan := v.val, addr := addr, gateway := gw }
      adj := (if 2 < f0 then defaultA 0xC i 0 else []) ++ p.adj ++ v.adj }

/-- MGMT_NET: the entries of both ports (03 R110). -/
def mgmtNetA (l : List Byte) (ds : List Sect) : Adjd (List NetCfg) :=
  let es := ((List.range 2).zip (sectEntries l ds 0x0C 0 64 2)).map fun x => mgmtNetEntry x.1 x.2
  { val := es.map Adjd.val, adj := (es.map Adjd.adj).flatten }

/-- POLICY_TIMERS: LEASE_MS, E2E_RTO_US, AGE_NS, DEADLOCK_US. -/
def timersA (l : List Byte) (ds : List Sect) : Adjd (Nat × Nat × Nat × Nat) :=
  let b := sectBytes l ds 0x0E
  let a := clampA 0xE noEntry 0 1 1000 (field b 0 2)
  let r := clampA 0xE noEntry 4 20 20000 (field b 4 4)
  let g := clampA 0xE noEntry 8 500 64000 (field b 8 4)
  let d := clampA 0xE noEntry 0xC 10 1000000 (field b 0xC 4)
  { val := (a.val, r.val, g.val, d.val), adj := a.adj ++ r.adj ++ g.adj ++ d.adj }

/-- BOOT_POLICY: BACKOFF_MS, BIV_IDLE_MS, BIV_AUTO. -/
def bootPolicyA (l : List Byte) (ds : List Sect) : Adjd (Nat × Nat × Bool) :=
  let b := sectBytes l ds 0x0F
  let k := clampA 0xF noEntry 0 100 2000 (field b 0 2)
  let i := clampA 0xF noEntry 2 10 60000 (field b 2 2)
  { val := (k.val, i.val, bit (field b 4 1) 0), adj := k.adj ++ i.adj }

/-! Partition slots (12 R502) -/

/-- Slots taken so far, and what has been given out. -/
structure PartAcc where
  /-- Highest slot not yet taken. -/
  top : Nat := 255
  /-- Tenants with their slots. -/
  parts : List PartRec := []
  /-- Clamps and defaults. -/
  adj : List Adj := []
deriving DecidableEq, Repr

/-- One PARTITIONED tenant takes its slots (12 R502). -/
def takePart (rate : Nat → Nat) (a : PartAcc) (x : Nat × TenantCfg) : PartAcc :=
  let n := max 1 (ceilDiv (256 * rate x.2.tid) 200000)
  let left := a.top - 143
  let m := min n left
  if left = 0 then { a with adj := a.adj ++ defaultA 4 x.1 2 }
  else { top := a.top - m
         parts := a.parts ++ [{ tid := x.2.tid, slots := (List.range m).map fun i => a.top - i, rate := rate x.2.tid }]
         adj := a.adj ++ if m < n then [{ kind := 1, sect := 4, entry := x.1, ofs := 2 }] else [] }

/-- The partition slots of every enabled PARTITIONED tenant in ascending TID order (12 R502). -/
def takeParts (rate : Nat → Nat) (ts : List (Nat × TenantCfg)) : PartAcc :=
  (sortBy (fun a b => a.2.tid ≤ b.2.tid) (ts.filter fun x => x.2.enabled && x.2.partitioned)).foldl (takePart rate) {}

/-! The whole image -/

/-- What step 3 loads of an image. -/
structure Loaded where
  /-- Effective values. -/
  img : Img := {}
  /-- Table copy 0. -/
  route : List (BitVec 64) := []
  /-- Belay channels with an entry. -/
  chans : List (Nat × BelChan) := []
  /-- BOOT_POLICY. -/
  policy : Nat × Nat × Bool := (2000, 60000, false)
  /-- PARTITIONED tenants. -/
  parts : List PartRec := []
  /-- Tenants clamped or defaulted under 12 R502. -/
  partClamps : Nat := 0
  /-- Every adjustment, in order. -/
  adj : List Adj := []

/-- The adjustments of a section by its type, when it is present at version 1. ROUTE_TABLE and TENANT_HOSTS are judged against
PORT_MAP and TENANT_SLOTS wherever in the directory these stand, after them too: DESIGN CHOICE (03 R108; log entry 80). -/
def sectAdj (v : Variant) (node : Nat) (l : List Byte) (ds : List Sect) (typ : Nat) : List Adj :=
  match typ with
  | 0x03 => (routeA (mappedMask (portMap l ds)) l ds).adj
  | 0x04 => (tenantsA v l ds).adj
  | 0x05 => (hostsA ((tenantsA v l ds).val.map Prod.snd) l ds).adj
  | 0x06 => (serviceA l ds).adj
  | 0x07 => (shaperA l ds).adj
  | 0x08 => (belayA l ds).adj
  | 0x09 => (cePolicyA l ds).adj
  | 0x0A => (mirrorPeersA node l ds).adj
  | 0x0B => (trustA l ds).adj
  | 0x0C => (mgmtNetA l ds).adj
  | 0x0E => (timersA l ds).adj
  | 0x0F => (bootPolicyA l ds).adj
  | _ => []

/-- Parse an image for a module with the SLOT_ID sampled (03 R98, R108 to R110). -/
def loadImage (v : Variant) (slotId : Nat) (l : List Byte) : Loaded :=
  let ds := imageDir l
  let has := fun t => (sectOf ds t).isSome
  let id := sectBytes l ds 0x01
  let base := field id 0 4
  let node := base + slotId
  let ports := portMap l ds
  let ts := (tenantsA v l ds).val
  let shp := if has 0x07 then (shaperA l ds).val else (({} : ShpCfg), [])
  let rate := fun t => ((assoc t shp.2).getD shp.1).rate
  let pa := takeParts rate ts
  let bel := (belayA l ds).val
  let svc := (serviceA l ds).val
  let ce := if has 0x09 then (cePolicyA l ds).val else (false, 0, 0)
  let tm := if has 0x0E then (timersA l ds).val else (10, 200, 4000, 1000)
  let d : Img := {}
  { img := {
      nodeBase := base, clusterId := BitVec.ofNat 32 (field id 4 4), moduleName := slice id 8 24
      ports := ports
      tenants := ts.map fun x => { x.2 with partitioned := pa.parts.any fun p => p.tid = x.2.tid }
      hosts := (hostsA (ts.map Prod.snd) l ds).val
      svcQueue := if has 0x06 then svc.map Prod.fst else d.svcQueue
      svcWeight := if has 0x06 then svc.map Prod.snd else d.svcWeight
      shpDefault := shp.1, shpOver := shp.2, powerCapW := bel.1.1, iirShift := bel.1.2
      ceBucket := ce.1, leakPerS := ce.2.1, bucketDepth := ce.2.2
      mirrorPeers := (mirrorPeersA node l ds).val, trust := (trustA l ds).val
      net := if has 0x0C then (mgmtNetA l ds).val else []
      patches := patchEntries l ds, patchSection := sectBytes l ds 0x0D
      leaseMs := tm.1, rtoUs := tm.2.1, ageNs := tm.2.2.1, deadlockUs := tm.2.2.2 }
    route := (routeA (mappedMask ports) l ds).val
    chans := bel.2
    policy := if has 0x0F then (bootPolicyA l ds).val else (2000, 60000, false)
    parts := pa.parts
    partClamps := pa.adj.length
    adj := ((ds.filter fun x => x.ver = 1).map fun x => sectAdj v node l ds x.typ).flatten ++ pa.adj }

end Sys2Proof.Machine
end

