-- ==== Sys2Proof/Machine/Fabric.lean ====
section
/-! DEFINITION. Packets that arrive: forwarding, the incarnation and seal tests, reorder, delivery and acknowledgement, retransmission,
and the routing epoch (11_fabric_routing R444 to R489; 14_security_and_isolation R570 to R573; 02_startup_and_loss R60). -/

namespace Sys2Proof.Machine

/-! Acknowledgements that the module sends (11 R471, R472) -/

/-- The SACK of a space: bit i for SEQ E + i held (11 R472). -/
def sackOf (sp : Space) : BitVec 256 :=
  (List.range 256).foldl (fun m i =>
    if (assoc ((sp.rcvExp + i) % 65536) sp.held).isSome then m ||| 1#256 <<< i else m) 0

/-- An E2E_ACK to a node of an incarnation, on any port of its spray set; its SEQ is ignored and so free (11 R472). -/
def sendAckPkt (node inc ack : Nat) (space ece : Bool) (a : AckArea) (s : State) : State :=
  let (s, i) := takeFree 1 s
  let s := critRead 0x00 s
  let (s, port) := choosePort 1 1 none (liveSet s s.rte.sel (groupOf node)) s
  let p : Pkt := { tc := 1, epoch := s.rte.sel, hops := 12, ackV := true, incV := true, space := space, ece := ece
                   dst := node, src := s.glb.node, srcInc := incarnation s, dstInc := inc, seq := Config.freeNat i % 65536
                   ack := ack, body := .ack a }
  match port with
  | some k => toPort k none none p s
  | none => s

/-- An E2E_ACK with STALE or RESYNC; without state there is nothing to acknowledge and its ACK is free (11 R464, R467). -/
def answerAck (node inc : Nat) (space : Bool) (a : AckArea) (s : State) : State :=
  match (peerOf s node false).bind fun p => if (spaceOf p space).rcvOn then some (spaceOf p space) else none with
  | some sp => sendAckPkt node inc ((sp.rcvExp + 65535) % 65536) space false { a with held := sp.held.length } s
  | none =>
    let (s, i) := takeFree 1 s
    sendAckPkt node inc (Config.freeNat i % 65536) space false a s

/-- The acknowledgement of a space: cumulative, and what is held (11 R471, R472). -/
def sendAck (node : Nat) (prov space : Bool) (s : State) : State :=
  match peerOf s node prov with
  | none => s
  | some p =>
    let sp := spaceOf p space
    if sp.rcvOn then
      let s := modPeer node prov (modSpace space fun sp => { sp with dlv := 0, ackNow := false, newHeld := false, ece := false }) s
      let s := modPeer node prov (fun p => { p with last := s.now }) s
      sendAckPkt node p.inc ((sp.rcvExp + 65535) % 65536) space sp.ece { sack := sackOf sp, held := sp.held.length } s
    else s

/-! Acknowledgements that arrive (11 R466, R470, R477, R478) -/

/-- CWND rises by 1 for every CWND packets acknowledged (11 R478). -/
def cwndRise : Nat → Peer → Peer
  | 0, p => p
  | n + 1, p => if p.cwnd ≤ p.acked then cwndRise n { p with acked := p.acked - p.cwnd, cwnd := min 512 (p.cwnd + 1) } else p

/-- CWND after n packets acknowledged, with or without ECE (11 R478). -/
def cwndAfter (now n : Nat) (ece : Bool) (p : Peer) : Peer :=
  if ece then
    if (match p.cutAt with | some t => decide (t + 10000 ≤ now) | none => true) then
      { p with cwnd := max 8 (3 * p.cwnd / 4), cutAt := some now, acked := 0 }
    else p
  else cwndRise 64 { p with acked := p.acked + n }

/-- The packets that a cumulative acknowledgement frees. -/
def ackedCount (sent : List SentPkt) (ack : Nat) : Nat :=
  match sent.findIdx? fun x => x.seq = ack % 65536 with
  | some i => i + 1
  | none => 0

/-- A cumulative acknowledgement of a space arrives (11 R466, R470). -/
def ackIn (node : Nat) (prov space : Bool) (ack : Nat) (ece : Bool) (s : State) : State :=
  match peerOf s node prov with
  | none => s
  | some p =>
    let n := ackedCount (spaceOf p space).sent ack
    let s := modPeer node prov (fun p =>
      let p := modSpace space (fun sp => { sp with sent := sp.sent.drop n, opening := false }) p
      if space then p else cwndAfter s.now n ece p) s
    pumpPeer node prov s

/-- A SACK reports packets received (11 R470, R472). -/
def sackIn (node : Nat) (prov space : Bool) (ack : Nat) (sack : BitVec 256) (s : State) : State :=
  modPeer node prov (modSpace space fun sp => { sp with
    sent := sp.sent.map fun x =>
      let i := (x.seq + 65536 - (ack + 1) % 65536) % 65536
      if decide (i < 256) && sack.getLsbD i then { x with reported := true } else x }) s

/-! Packet numbers and the seal (14 R570 to R573) -/

/-- The packet number that a sequence stands for: the value nearest the extended expected sequence (14 R570). -/
def nearN (rx seq : Nat) : Nat :=
  let d := (seq + 65536 - rx % 65536) % 65536
  if d < 32768 then rx + d else if 65536 ≤ rx + d then rx + d - 65536 else rx + d

/-- QUERY_CAPS by its opcode 0x7F, as a request or as a response (11 R464; 14 R572). -/
def isQcaps (b : Body) : Bool :=
  match b with
  | .req r => r.opcode == 0x7F
  | .resp r => r.opcode == 0x7F
  | _ => false

/-- What the check of a packet answers. -/
inductive Seal
  | pass | fail | noSession
deriving DecidableEq, Repr

/-- The check of a packet at arrival (14 R571, R572); under a provisional state there is no session yet. -/
def sealCheck (s : State) (prov : Bool) (p : Pkt) : Seal :=
  match (if prov then none else secOf s p.src) with
  | some x =>
    if x.st = .active then
      if p.sealed then (if p.sealOk then .pass else .fail)
      else if !p.space && isQcaps p.body && decide (nearN (nth 0 x.rxN 0) p.seq ≤ x.swN) then .pass
      else .fail
    else if isQcaps p.body && !p.sealed then .pass else .noSession
  | none => if isQcaps p.body && !p.sealed then .pass else .noSession

/-- The expected sequence of a space moves, and with it the extended one of the session (14 R570). -/
def setExp (node : Nat) (prov space : Bool) (e : Nat) (s : State) : State :=
  let s := modPeer node prov (modSpace space fun sp => { sp with rcvExp := e % 65536 }) s
  if !prov && hasSession s node then
    modSec node (fun x => { x with rxN := modNth (b2n space) (fun n => nearN n (e % 65536)) x.rxN }) s
  else s

/-! Delivery (11 R468, R469, R486) -/

/-- The engine of a running plan that a STREAM packet names, when its source is authorised (11 R486). -/
def streamEngine (s : State) (src : Nat) (a : StreamArea) : Option (Plan × Nat) :=
  let tid := a.tid % 4096
  if authorised s tid src then
    match planOf s (a.dplan % 65536) tid with
    | some p => if p.run.isSome then (p.engs[a.engine % 2048]?).map fun n => (p, n) else none
    | none => none
  else none

/-- The data of a STREAM packet: LEN within 1 to 64 x PSLOTS (11 R485). -/
def streamData (a : StreamArea) : List Byte :=
  let room := 64 * ceilDiv a.data.length 64
  if room = 0 then [] else slice a.data 0 (clampTo 1 room a.len)

/-- A STREAM packet whose inbound queue of 16 KiB is full stays in the store (07 R262, R267; 11 R469). -/
def streamFull (s : State) (p : Pkt) : Bool :=
  match p.body with
  | .stream a => match streamEngine s p.src a with
    | some (_, n) => decide (16384 < inqBytes (engAt s n) + (streamData a).length)
    | none => false
  | _ => false

/-- A STREAM packet is delivered: into its engine's inbound queue, or dropped (11 R486). -/
def streamIn (src : Nat) (a : StreamArea) (s : State) : State :=
  match streamEngine s src a with
  | some (p, n) =>
    noteBreak p.idx (landEngine n (modEng n (fun e => { e with inq := e.inq ++ [(a.bank % 4, streamData a)] }) s))
  | none => noteStreamDrop 1 s

/-- A response is delivered: to the exchange that waits for it (06 R236, R237; 14 R565). -/
def respIn (node inc : Nat) (prov : Bool) (p : Resp) (s : State) : State :=
  if p.opcode = 0x80 then s
  else if p.opcode = 0x7F then
    if prov then s else spdmResponse node inc (p.payload.take p.len) s
  else if (assoc p.tag.toNat s.pool.ancTags).isSome then lenderAnswer node p s
  else mirrorAnswer node p s

/-- The packet number of a packet that carries FINISH or answers it is noted (14 R571). -/
def noteFinish (p : Pkt) (s : State) : State :=
  let l := match p.body with | .req r => r.payload | .resp r => r.payload | _ => []
  if isQcaps p.body && (secOf s p.src).isSome && (field l 1 1 = 0xE5 || field l 1 1 = 0x65) then
    modSec p.src (fun x => { x with hsSeq := some p.seq }) s
  else s

/-- A packet in sequence is delivered; a void one with its TAG is answered with INTERNAL, where its request has an answer (06 R224; 11
R468, R469; 13 R527). -/
def deliver (prov : Bool) (p : Pkt) (s : State) : State :=
  let s := noteFinish p s
  match p.body with
  | .req r =>
    let r := { r with src := p.src }
    if r.tc = 6 then (if isAck r.opcode then s else sendResp prov r (mkResp s r .internal) s) else admitDelivered prov r s
  | .resp r => respIn p.src p.srcInc prov r s
  | .stream a => streamIn p.src a s
  | .ack _ => s

/-- Deliver what follows in sequence (11 R468, R471); n bounds the packets. -/
def deliverN (node : Nat) (prov space : Bool) : Nat → State → State
  | 0, s => s
  | n + 1, s =>
    match peerOf s node prov with
    | none => s
    | some q =>
      let sp := spaceOf q space
      match assoc sp.rcvExp sp.held with
      | none => s
      | some p =>
        if streamFull s p then s
        else
          let s := modPeer node prov (modSpace space fun sp => { sp with
            held := sp.held.filter fun x => x.1 ≠ sp.rcvExp
            dlv := sp.dlv + 1, dlvAt := if sp.dlv = 0 then s.now else sp.dlvAt
            ackNow := sp.ackNow || decide (64 ≤ sp.dlv + 1) }) s
          deliverN node prov space n (deliver prov p (setExp node prov space (sp.rcvExp + 1) s))

/-- Packets in the reorder store (11 R469). -/
def storeCount (s : State) : Nat := sumBy (fun (p : Peer) => p.sp0.held.length + p.sp1.held.length) s.e2e.peers

/-- The table of 11 R468. -/
def reorder (node : Nat) (prov space : Bool) (p : Pkt) (s : State) : State :=
  match peerOf s node prov with
  | none => s
  | some q =>
    let sp := spaceOf q space
    let d := (p.seq % 65536 + 65536 - sp.rcvExp) % 65536
    let dup := fun s => modPeer node prov (modSpace space fun sp => { sp with ackNow := true })
      (setE2e (fun e => { e with dup := satAdd 16 e.dup 1 }) s)
    if d < 512 then
      if (assoc (p.seq % 65536) sp.held).isSome then dup s
      else if 0 < d && 262144 ≤ storeCount s then setE2e (fun e => { e with storeFull := satAdd 16 e.storeFull 1 }) s
      else
        let s := modPeer node prov (modSpace space fun sp => { sp with held := sp.held ++ [(p.seq % 65536, p)] }) s
        let s := deliverN node prov space 513 s
        let stays := match peerOf s node prov with
          | some q => (assoc (p.seq % 65536) (spaceOf q space).held).isSome
          | none => false
        let s := if stays then modPeer node prov (modSpace space fun sp => { sp with newHeld := true }) s else s
        setE2e (fun e => { e with heldPeak := max e.heldPeak (storeCount s) }) s
    else if d < 32768 then setE2e (fun e => { e with winDrop := satAdd 16 e.winDrop 1 }) s
    else dup s

/-- An acknowledgement that is due at once goes out (11 R471). -/
def ackAtOnce (node : Nat) (prov space : Bool) (s : State) : State :=
  match peerOf s node prov with
  | some q => if (spaceOf q space).ackNow then sendAck node prov space s else s
  | none => s

/-- A sequenced packet of a peer that has state: BASE, the acknowledgement it carries, CE and ECE, and the reorder store
(11 R466, R468, R471, R477). -/
def sequenced (prov : Bool) (p : Pkt) (s : State) : State :=
  let node := p.src
  let space := p.space
  match peerOf s node prov with
  | none => s
  | some q =>
    let sp := spaceOf q space
    let s := modPeer node prov (fun x => { x with last := s.now }) s
    if !sp.rcvOn && !p.opening then answerAck node p.srcInc space { resync := true } s
    else
      let s := if p.opening && (!sp.rcvOn || (sp.held.isEmpty && sp.rcvExp ≠ p.ack % 65536)) then
          setExp node prov space p.ack (modPeer node prov (modSpace space fun sp => { sp with rcvOn := true }) s)
        else s
      let s := if p.ackV && !p.opening then ackIn node prov space p.ack p.ece s
        else if p.ece && !space then modPeer node prov (cwndAfter s.now 0 true) s else s
      let s := if p.ce then modPeer node prov (modSpace space fun sp => { sp with ece := true }) s else s
      ackAtOnce node prov space (reorder node prov space p s)

/-- An E2E_ACK of a peer (11 R464, R467, R470). -/
def ackPacket (prov : Bool) (p : Pkt) (a : AckArea) (s : State) : State :=
  let node := p.src
  if a.stale then peerGone node s
  else if a.resync then modPeer node prov (modSpace p.space fun sp => { sp with opening := true }) s
  else
    let s := modPeer node prov (fun x => { x with last := s.now }) s
    ackIn node prov p.space p.ack p.ece (sackIn node prov p.space p.ack a.sack s)

/-- State for a source that has none: a packet with OPEN creates it, any other is answered with RESYNC (11 R465 to R467). -/
def newSource (p : Pkt) (s : State) : State :=
  match p.body with
  | .ack _ => s
  | _ =>
    if p.opening then
      let (s, ok) := newPeer { node := p.src, inc := p.srcInc, incOk := true, last := s.now } s
      if ok then sequenced false p s else s
    else answerAck p.src p.srcInc p.space { resync := true } s

/-- A packet that passed the incarnation tests, under the held or the provisional state (14 R572). -/
def underState (prov : Bool) (p : Pkt) (s : State) : State :=
  match p.body with
  | .ack a => ackPacket prov p a s
  | _ =>
    match sealCheck s prov p with
    | .noSession => setSec (fun c => { c with noSession := satAdd 16 c.noSession 1 }) s
    | .fail => authFailure p.src s
    | .pass =>
      let s := if !prov && hasSession s p.src then modSec p.src (fun x => { x with last := s.now }) s else s
      if (peerOf s p.src prov).isSome then sequenced prov p s else newSource p s

/-- A packet is discarded by the rule of one incarnation per source (11 R465). -/
def staleDrop (s : State) : State := setE2e (fun e => { e with stale := satAdd 16 e.stale 1 }) s

/-- One incarnation per source (11 R465). -/
def incarnationTest (p : Pkt) (s : State) : State :=
  let node := p.src
  match peerOf s node false with
  | none => underState false p s
  | some h =>
    if !h.incOk then underState false p (modPeer node false (fun x => { x with inc := p.srcInc, incOk := true }) s)
    else if h.inc = p.srcInc then underState false p s
    else
      let fresh := fun (s : State) =>
        if isQcaps p.body && p.opening then
          let s := setE2e (fun e => { e with peers := e.peers.filter fun x => !(x.node == node && x.prov) }) s
          let (s, ok) := newPeer { node := node, inc := p.srcInc, incOk := true, prov := true, provAt := s.now, last := s.now } s
          if ok then underState true p s else s
        else staleDrop s
      match peerOf s node true with
      | some q =>
        if q.inc = p.srcInc then
          match p.body with
          | .ack _ => underState true p s
          | b => if isQcaps b then underState true p s else s
        else fresh s
      | none => fresh s

/-- An EVENT, by its opcode (06 R223, R226). -/
def isEvent (b : Body) : Bool :=
  match b with
  | .req r => r.opcode == 0x80
  | .resp r => r.opcode == 0x80
  | _ => false

/-- A request. -/
def isRequest (b : Body) : Bool :=
  match b with
  | .req _ => true
  | _ => false

/-- A packet for this module (11 R447, R464, R465; 14 R575): its incarnation is tested before the reachability of its source (02 R60,
R61; 06 R227, R260). -/
def localPacket (p : Pkt) (s : State) : State :=
  if isBlocked s p.src then s
  else if (p.incV && p.dstInc ≠ incarnation s) || (!p.incV && !isQcaps p.body) then
    answerAck p.src p.srcInc p.space { stale := true } (staleDrop s)
  else if liveSet (critRead 0x00 s) s.rte.sel (groupOf p.src) = 0 && (isEvent p.body || isRequest p.body) then
    if isEvent p.body then setVrb (fun v => { v with evtDrop := satAdd 16 v.evtDrop 1 }) s
    else setBoot (fun b => { b with unreachDrop := satAdd 32 b.unreachDrop 1 }) s
  else incarnationTest p s

/-! Forwarding (11 R448 to R452) -/

/-- A transit packet (11 R446, R448 to R451): its bytes go on as they came but for HOPS and CE; tc is its class here, TC2 where it
has been demoted. -/
def transit (k tc : Nat) (raw : List Byte) (p : Pkt) (s : State) : State :=
  let h := min 12 p.hops
  if h = 0 then setRte (fun r => { r with hopsDrop := satAdd 16 r.hopsDrop 1 }) s
  else
    let set := liveSet s p.epoch (groupOf p.dst) &&& ~~~ (1#64 <<< k)
    match choosePort tc (1 + p.pslots) none set s with
    | (s, none) => setRte (fun r => { r with noroute := satAdd 16 r.noroute 1 }) s
    | (s, some j) =>
      let e : EgPkt := { rank := if tc = 4 then 3 else if tc ≤ 1 then 2 else 4, queue := nth 0 s.img.svcQueue 0, tc := tc }
      enqueue j { e with
        slots := 1 + p.pslots, transit := some k, arrived := s.now, raw := forwarded (h - 1) raw
        pkt := some { p with hops := h - 1 } } s

/-- The slots of a TC4 packet that comes without its flits are counted here; the answer says that it is demoted (11 R482). -/
def tc4Slots (k n : Nat) (s : State) : State × Bool :=
  let (s, d) := tc4Count k true s
  ((List.range n).foldl (fun s _ => (tc4Count k false s).1) s, d)

/-- The packet with the class of its request as admission sees it (11 R482; 06 R221). -/
def withClass (tc : Nat) (p : Pkt) : Pkt :=
  match p.body with
  | .req r => { p with body := .req { r with tc := tc, src := p.src } }
  | _ => p

/-- A packet of an awake module leaves the ingress side of a port (11 R444, R447, R482), as its bytes spell it where its flits have
brought them; while the module is not reachable it goes. -/
def arriveNow (k : Nat) (p : Pkt) (s : State) : State :=
  if !reachable s then s
  else
    match takeIngress k p.tc s with
    | (s, some x) => go (if x.demoted then 2 else x.tc) x.bytes (arrived x.bytes p) s
    | (s, none) =>
      if (portAt s k).st ≠ .active then s
      else if p.tc = 4 then
        let (s, d) := tc4Slots k p.pslots s
        go (if d then 2 else 4) (pktBytes p) p s
      else go p.tc (pktBytes p) p s
where
  /-- The packet in its class. -/
  go (tc : Nat) (raw : List Byte) (p : Pkt) (s : State) : State :=
    let s := critRead 0x19 s
    if p.dst = s.glb.node then localPacket (withClass tc p) s else transit k tc raw p s

/-- Held packets are admitted in the order of their arrival (02 R78). -/
def admitHeld (s : State) : State :=
  let l := s.e2e.bivHeld
  l.foldl (fun s x => arriveNow x.1 x.2 s) (setE2e (fun e => { e with bivHeld := [] }) s)

/-- A packet of TC0 to TC4 arrives (02 R77, R78): in Bivouac it is held; after a wake it follows those that were held. -/
def arrive (k : Nat) (p : Pkt) (s : State) : State :=
  if s.boot.st = .bivouac then
    setE2e (fun e => { e with bivHeld := if e.bivHeld.contains (k, p) then e.bivHeld else e.bivHeld ++ [(k, p)] }) s
  else arriveNow k p (if s.e2e.bivHeld.isEmpty then s else admitHeld s)

/-- E2E (11 R468). -/
def execE2e (port : Fin 64) (p : Pkt) (e : Env) (s : State) : Host.Outcome State Fault Refusal :=
  .next (arrive port.val p (applyEvery e s))

/-- STREAM (11 R486). -/
def execStream (port : Fin 64) (p : Pkt) (t : Nat) (s : State) : Host.Outcome State Fault Refusal :=
  .next (arrive port.val p (atTime t s))

/-- E2E_ACK (11 R470). -/
def execE2eAck (port : Fin 64) (p : Pkt) (t : Nat) (s : State) : Host.Outcome State Fault Refusal :=
  .next (arrive port.val p (atTime t s))

/-- TRANSIT_FORWARD (11 R448). -/
def execTransitForward (port : Fin 64) (p : Pkt) (e : Env) (s : State) : Host.Outcome State Fault Refusal :=
  .next (arrive port.val p (applyEvery e s))

/-- The transit packets at egress, port by port. -/
def transitPkts (s : State) : List (Nat × EgPkt) :=
  ((List.range 64).map fun k => ((portAt s k).eg.filter fun e => e.transit.isSome).map fun e => (k, e)).flatten

/-- TRANSIT_AGE_DROP: the i-th transit packet, held more than 8 us (11 R452). -/
def execTransitAgeDrop (i t : Nat) (s : State) : Host.Outcome State Fault Refusal :=
  let s := atTime t s
  .next (match (transitPkts s)[i]? with
    | some (k, e) =>
      if e.arrived + 8000 < s.now then
        setRte (fun r => { r with ageDrop := satAdd 16 r.ageDrop 1 }) (modPort k (egDrop s e) s)
      else s
    | none => s)

/-! Routing epochs (11 R455 to R460) -/

/-- The _SEL registers of a requester (17 R668). -/
def selsOf (s : State) (q : Requester) : Sels :=
  match s.sels.find? fun x => x.1 = q with
  | some x => x.2
  | none => {}

/-- Change the _SEL registers of a requester. -/
def setSels (q : Requester) (f : Sels → Sels) (s : State) : State :=
  let v := f (selsOf s q)
  { s with sels := if (s.sels.any fun x => x.1 = q) then mapIf (fun x => x.1 = q) (fun _ => (q, v)) s.sels
      else s.sels ++ [(q, v)] }

/-- A rejected write of the router (11 R457, R458). -/
def stageRej (s : State) : State := setRte (fun r => { r with stageRej := satAdd 16 r.stageRej 1 }) s

/-- RTE_CMD.FLIP (11 R458). -/
def flip (s : State) : State :=
  let s := critRead 0x00 s
  if s.rte.draining then stageRej s
  else critWrite 0x00 (setRte (fun r => { r with
    sel := !r.sel, draining := true, flipAt := s.now, flips := wrapAdd 16 r.flips 1 }) s)

/-- FLIP. -/
def execFlip (sess t : Nat) (s : State) : Host.Outcome State Fault Refusal :=
  .next (withWrite sess t (fun s => mgmtReply sess .ok [] (flip s)) s)

/-- DRAINING_END: 100 us after a flip (11 R458). -/
def execDrainingEnd (t : Nat) (s : State) : Host.Outcome State Fault Refusal :=
  let s := atTime t s
  .next (if s.rte.draining && decide (s.rte.flipAt + 100000 ≤ s.now) then
      critWrite 0x00 (setRte (fun r => { r with draining := false }) (critRead 0x00 s))
    else s)

/-- A write of RTE_GRP_SET: the inactive copy, while DRAINING is 0; bits of unmapped ports are cleared (11 R457, R489). -/
def grpSetWrite (copy : Bool) (group : Nat) (v : BitVec 64) (s : State) : State :=
  let s := critRead 0x00 s
  if s.rte.draining || copy = s.rte.sel then stageRej s
  else
    let x := v &&& mappedMask s.img.ports
    setRte (fun r => if copy then { r with copy1 := setNthD 0 group x r.copy1 }
      else { r with copy0 := setNthD 0 group x r.copy0 }) s

/-- RTE_GRP_SET_WRITE. -/
def execRteGrpSetWrite (sess : Nat) (v : BitVec 64) (t : Nat) (s : State) : Host.Outcome State Fault Refusal :=
  .next (withWrite sess t (fun s =>
    let x := selsOf s (.mgmt sess)
    mgmtReply sess .ok [] (grpSetWrite (x.rteCopy % 2 = 1) (x.rteGrp % 4096) v s)) s)

/-! Acknowledgement and retransmission timers (11 R471, R473, R474), eviction (11 R462) -/

/-- E2E_ACK_SEND: an acknowledgement that is due, and what waits at the head of a space, under either state. -/
def execE2eAckSend (node : Nat) (space : Bool) (t : Nat) (s : State) : Host.Outcome State Fault Refusal :=
  let s := atTime t s
  .next (if !reachable s then s else [false, true].foldl (fun s prov =>
    let s := deliverN node prov space 513 s
    match peerOf s node prov with
    | some p =>
      let sp := spaceOf p space
      if 0 < sp.dlv || sp.newHeld || sp.ackNow || !sp.held.isEmpty then sendAck node prov space s else s
    | none => s) s)

/-- Retransmit a packet: a fresh port, the current epoch, the protected bytes of its first transmission (11 R456, R473;
14 R570); on the timer of a TC2 or TC3 packet CWND is halved (11 R478). -/
def retransmit (p : Peer) (space : Bool) (x : SentPkt) (s : State) : State :=
  let s := setE2e (fun e => { e with retx := satAdd 16 e.retx 1 }) s
  let s := modPeer p.node p.prov (fun p =>
    let p := modSpace space (fun sp => { sp with
      sent := mapIf (fun y => y.seq = x.seq) (fun y => { y with count := y.count + 1, sentAt := s.now }) sp.sent }) { p with last := s.now }
    if x.tc = 2 || x.tc = 3 then { p with cwnd := max 8 (p.cwnd / 2) } else p) s
  let s := critRead 0x00 s
  let (s, port) := choosePort x.tc (1 + bodySlots x.body) x.plan (liveSet s s.rte.sel (groupOf p.node)) s
  let h := { header s p space x.tc x.seq true x.body with sealed := x.sealed, sealOk := x.sealed, cipher := x.cipher }
  let s := modPeer p.node p.prov (acked space) s
  match port with
  | some k => toPort k x.tid x.plan h s
  | none => s

/-- The retransmit limit under a state (11 R465, R474). -/
def limitReached (node : Nat) (prov : Bool) (s : State) : State :=
  if prov then
    let s := setE2e (fun e => { e with peers := e.peers.filter fun x => !(x.node == node && x.prov) }) s
    if (match secOf s node with | some x => x.hsInc.isSome | none => false) then handshakeFailed node s else s
  else peerLost node s

/-- E2E_RETRANSMIT_TIMEOUT (11 R473, R474). -/
def execE2eRetransmitTimeout (node : Nat) (space : Bool) (seq t : Nat) (s : State) : Host.Outcome State Fault Refusal :=
  let s := atTime t s
  .next (if !reachable s then s else [false, true].foldl (fun s prov =>
    match peerOf s node prov with
    | none => s
    | some p =>
      match (spaceOf p space).sent.find? fun x => x.seq = seq with
      | none => s
      | some x =>
        if x.reported || decide (s.now < x.sentAt + s.img.rtoUs * 1000) then s
        else if x.count < 6 then retransmit p space x s
        else limitReached node prov s) s)

/-- DRAINING_PEER_EVICTION (11 R462). -/
def execDrainingPeerEviction (node t : Nat) (s : State) : Host.Outcome State Fault Refusal :=
  let s := atTime t s
  .next ((s.e2e.peers.filter fun p => p.node = node && p.draining).foldl (fun s p =>
    if peerIdle s p then pumpWaitOut (evictPeer p.node p.prov s) else s) s)

/-- Provisional states whose session has not completed within the retransmit limit go (11 R465). -/
def dropProvisional (s : State) : State :=
  (s.e2e.peers.filter fun p => p.prov && decide (p.provAt + 6 * s.img.rtoUs * 1000 ≤ s.now)).foldl
    (fun s p => limitReached p.node true s) s

end Sys2Proof.Machine
end

