-- ==== Sys2Proof/Machine/Control.lean ====
section
/-! DEFINITION. The commands of the control processors, of the fault queue and of the laser banks (15_control_belay_faults R598 to
R608, R624, R625; 16_connectors_and_power R646, R653). -/

namespace Sys2Proof.Machine

/-- An event of the control processors, which happens while they run. -/
def whenCps (t : Nat) (f : State → State) (s : State) : State :=
  let s := atTime t s
  if cpsRun s then f s else s

/-- CONTROL_CYCLE. -/
def execControlCycle (t : Nat) (s : State) : Host.Outcome State Fault Refusal :=
  .next (whenCps t (fun s => dropProvisional (controlCycle s)) s)

/-- DELTA_ACK. -/
def execDeltaAck (cycle : BitVec 32) (chk : BitVec 64) (t : Nat) (s : State) : Host.Outcome State Fault Refusal :=
  .next (whenCps t (deltaAck cycle chk) s)

/-- SECOND_HANG. -/
def execSecondHang (t : Nat) (s : State) : Host.Outcome State Fault Refusal := .next (whenCps t secondHang s)

/-- NO_DELTA. -/
def execNoDelta (t : Nat) (s : State) : Host.Outcome State Fault Refusal := .next (whenCps t noDelta s)

/-- WATCHDOG: a processor has not written its watchdog word for 20 us (15 R601). -/
def execWatchdog (cp : Fin 2) (t : Nat) (s : State) : Host.Outcome State Fault Refusal :=
  .next (whenCps t (failCp cp.val 0x04) s)

/-- CP_CMD.FORCE_SWITCH. -/
def execForceSwitch (sess t : Nat) (s : State) : Host.Outcome State Fault Refusal :=
  .next (withWrite sess t (fun s => mgmtReply sess .ok [] (if cpsRun s then forceSwitch s else s)) s)

/-- RESYNC_DONE. -/
def execResyncDone (t : Nat) (s : State) : Host.Outcome State Fault Refusal := .next (whenCps t resyncDone s)

/-! Cairn (15 R624, R625) -/

/-- A write of CRN_POP: the oldest record goes where its SEQ is written. -/
def crnPop (seq : BitVec 32) (s : State) : State :=
  match s.crn.q with
  | [] => s
  | r :: l => if r.seq = seq then setCrn (fun c => { c with q := l }) s else s

/-- CRN_POP. -/
def execCrnPop (sess : Nat) (seq : BitVec 32) (t : Nat) (s : State) : Host.Outcome State Fault Refusal :=
  .next (withWrite sess t (fun s => mgmtReply sess .ok [] (crnPop seq s)) s)

/-- CAIRN_MERGE_RELEASE. -/
def execCairnMergeRelease (t : Nat) (s : State) : Host.Outcome State Fault Refusal := .next (mergeRelease (atTime t s))

/-- CAIRN_CRIT_FULL_ALERT. -/
def execCairnCritFullAlert (t : Nat) (s : State) : Host.Outcome State Fault Refusal := .next (critFullAlert (atTime t s))

/-! Laser banks (16 R645 to R647, R653) -/

/-- The switch of the banks: the STANDBY bank becomes ACTIVE, the ACTIVE one takes a state. -/
def laserSwitch (old : LaserState) (p : Pwr) : Pwr :=
  match p.laserA, p.laserB with
  | .active, .standby => { p with laserA := old, laserB := .active, laserSw := satAdd 16 p.laserSw 1 }
  | .standby, .active => { p with laserB := old, laserA := .active, laserSw := satAdd 16 p.laserSw 1 }
  | _, _ => p

/-- The bias of bank A (0) or B (1) has reached ALERT: an ACTIVE bank gives way to the STANDBY one; with none, both have failed and
every transmitter is dark (16 R646, R647). -/
def laserFail (bank : Nat) (s : State) : State :=
  let p := s.pwr
  let (mine, other) := if bank = 0 then (p.laserA, p.laserB) else (p.laserB, p.laserA)
  if mine = .active && other = .standby then setPwr (laserSwitch .failed) s
  else if mine = .active && other = .failed then
    setPwr (fun p => { p with laserA := .failed, laserB := .failed, txDark := true }) s
  else s

/-- PWR_LASER_CMD.SWAP. -/
def execSwap (sess t : Nat) (s : State) : Host.Outcome State Fault Refusal :=
  .next (withWrite sess t (fun s => mgmtReply sess .ok [] (setPwr (laserSwitch .standby) s)) s)

end Sys2Proof.Machine
end

