-- ==== Sys2Proof/Machine/Belay.lean ====
section
/-! DEFINITION. Belay: its samples, filters and decisions, the throttle, and the status reply (15_control_belay_faults R610 to R621). -/

namespace Sys2Proof.Machine

/-! Samples (15 R610, R611) -/

/-- The order of the decision levels. -/
def lvl : BelLevel → Nat
  | .none => 0 | .alert => 1 | .cap => 2 | .orderly => 3 | .emerg => 4

/-- A port counts on its LOS channel: mapped, neither held nor administratively down, in DOWN with no signal. -/
def portLost (s : State) (k : Nat) : Bool :=
  let p := portAt s k
  (portCfg s k).mapped && !p.adminDown && p.holdUntil.isNone && p.st == .down && p.signal.isNone

/-- A channel of the rail that the electrical variant lacks (16 R634). -/
def railAbsent (s : State) (ch : Nat) : Bool := s.fuse.variant == .c3240E && (ch == 58 || ch == 73)

/-- The raw sample of a channel: what the sensors give, or what the module counts (15 R610). -/
def rawSample (s : State) (raw : List Int) (ch : Nat) : Option Int :=
  if 92 ≤ ch || railAbsent s ch then some 0
  else if 78 ≤ ch && ch ≤ 85 then some (countIf (portLost s) ((List.range 8).map fun i => 8 * (ch - 78) + i))
  else raw[ch]?

/-- The median of five samples. -/
def median5 (l : List Int) : Int := nth 0 (sortBy (fun a b => decide (a ≤ b)) l) 2

/-- The filter of a class: its image value once step 3 has loaded it (15 R611). -/
def iirOf (s : State) (cls : Nat) : Nat := if s.boot.step3Done then nth 1 s.img.iirShift cls else 1

/-- A sample enters a channel; the filtered value follows from the fifth on, or at once in class 7 (15 R611). -/
def takeSample (s : State) (ch : Nat) (x : Int) (c : BelChan) : BelChan :=
  let raw := (x :: c.raw).take 5
  let g := chanGroup ch
  let y := if g.cls = 7 then x
    else if raw.length < 5 then c.filt
    else if c.n < 5 then median5 raw
    else c.filt + (median5 raw - c.filt).fdiv (2 ^ iirOf s g.cls)
  { c with raw := raw, filt := y, n := c.n + 1 }

/-- A channel has a value that decides (15 R610, R611). -/
def decides (s : State) (ch : Nat) (c : BelChan) : Bool :=
  !(decide (92 ≤ ch) || railAbsent s ch) && (if (chanGroup ch).cls = 7 then decide (1 ≤ c.n) else decide (5 ≤ c.n))

/-! Levels (15 R612, R613) -/

/-- The number of a channel's group. -/
def groupNo (ch : Nat) : Nat := (belGroups.findIdx? fun g => decide (g.first ≤ ch) && decide (ch ≤ g.last)).getD 0

/-- The absolute limit that a critical word holds (15 R613). -/
def absWord (s : State) (g idx : Nat) : Option Int :=
  thrOf (belGroup g).low ((critValue (0x20 + 2 * g + idx) s).toNat / 2 ^ 32)

/-- The most severe threshold that a channel's value is at or beyond. -/
def levelNow (s : State) (ch : Nat) (c : BelChan) : BelLevel :=
  let g := groupNo ch
  let low := (chanGroup ch).low
  if reaches low c.filt c.emerg || reaches low c.filt (absWord s g 0) then .emerg
  else if reaches low c.filt c.orderly || reaches low c.filt (absWord s g 1) then .orderly
  else if reaches low c.filt c.cap then .cap
  else if reaches low c.filt c.alert then .alert
  else .none

/-- The level that a channel holds after a sample: it rises at once and falls only at RESTART. -/
def nextLevel (s : State) (ch : Nat) (c : BelChan) : BelLevel :=
  if !decides s ch c then c.level
  else
    let now := levelNow s ch c
    if lvl c.level < lvl now then now
    else if reaches (!(chanGroup ch).low) c.filt c.restart && now == .none then .none
    else c.level

/-! Actions (15 R614 to R619) -/

/-- A BELAY record, which needs the controller core; an alert with it where asked (15 R620, R623). -/
def belRec (kind ch : Nat) (v : Int) (alert : Bool) (s : State) : State :=
  if !coreOn s then s
  else if alert then cairnAlert 0x0A kind ch (v % 2 ^ 64).toNat 0 s
  else cairn 0x0A kind ch (v % 2 ^ 64).toNat 0 s

/-- L, the effective throttle level (15 R617). -/
def throttle (s : State) : Nat := max s.bel.lPower s.bel.lThermal

/-- The record of a change of L; the channel it names is a free value (15 R617, R623; log entry 13). -/
def noteL (old : Nat) (s : State) : State :=
  if throttle s = old then s
  else
    let (s, i) := takeFree 1 s
    belRec 6 (Config.freeNat i % 96) (throttle s) false s

/-- ALERT newly reached. -/
def onAlert (ch : Nat) (c : BelChan) (s : State) : State :=
  belRec 1 ch c.filt true (setBel (fun b => { b with alerts := satAdd 16 b.alerts 1 }) s)

/-- CAP newly reached: a power cap step (15 R614, R617). -/
def onCap (ch : Nat) (c : BelChan) (s : State) : State :=
  let old := throttle s
  noteL old (belRec 2 ch c.filt false (setBel (fun b => { b with
    lThermal := max 2 b.lThermal, capSteps := satAdd 16 b.capSteps 1 }) s))

/-- Belay fails a stack whose base die is too hot; the fourth within 1 s begins an orderly shutdown (15 R615). -/
def hotStack (k ch : Nat) (c : BelChan) (s : State) : State :=
  if !coreOn s || !(stackAt s k).fitted || (stackAt s k).st = .failed then s
  else
    let times := (s.bel.stkTimes.filter fun t => decide (s.now < t + 1000000000)) ++ [s.now]
    let s := setBel (fun b => { b with stkFail := satAdd 16 b.stkFail 1, stkTimes := times }) (stackFail k 5 s)
    let s := belRec 5 ch c.filt false s
    if 4 ≤ times.length then orderlyShutdown (some ch) s else s

/-- Belay declares a processor hung (15 R616). -/
def hungCp (k : Nat) (s : State) : State :=
  if cpsRun s then
    failCp k 0x08 (setBel (fun b => { b with hangDecl := satAdd 16 b.hangDecl 1 }) s)
  else s

/-- What a channel's rise from a level does below ORDERLY, with the exceptions of R615, R616 and 16 R646. -/
def onRise (s : State) (x : Nat × BelLevel) : State :=
  let (ch, was) := x
  let c := chanAt s ch
  let s := if was = .none then onAlert ch c s else s
  let s := if was = .none && (ch == 86 || ch == 87) then hungCp (ch - 86) s else s
  let s := if was = .none && (ch == 89 || ch == 90) then laserFail (ch - 89) s else s
  if lvl was < 2 && 2 ≤ lvl c.level then onCap ch c s else s

/-- A channel is at ORDERLY or beyond in this sample. -/
def atLevel (s : State) (n ch : Nat) : Bool :=
  let c := chanAt s ch
  decides s ch c && decide (n ≤ lvl (levelNow s ch c))

/-- Group 1, the base dies. -/
def isBase (ch : Nat) : Bool := decide (8 ≤ ch) && decide (ch ≤ 39)

/-- The module wakes from Bivouac and admits what it held. -/
def wakeAdmit (src : Nat) (s : State) : State := admitHeld (wakeUp src s)

/-- A whole wake of a module in Bivouac, with the comparison of the checksums (02 R77 to R79). -/
def wakeFull (src : Nat) (s : State) : State := if s.boot.st = .bivouac then admitHeld (wakeChecked src s) else s

/-- ORDERLY: the record, the leave and the hold (15 R614). -/
def onOrderly (s : State) (ch : Nat) : State :=
  if shutdownHold s.pwr.hold || s.boot.st = .leaving then s
  else orderlyShutdown (some ch) (belRec 3 ch (chanAt s ch).filt false s)

/-- Every channel takes its sample and holds its level; what has risen is answered with the level before. -/
def sampleAll (raw : List Int) (s : State) : State × List (Nat × BelLevel) :=
  let s := (List.range 32).foldl (fun s i => critRead (0x20 + i) s) s
  let cs := (List.range 96).map fun ch => match rawSample s raw ch with
    | some x => takeSample s ch x (chanAt s ch)
    | none => chanAt s ch
  let ls := ((List.range 96).zip cs).map fun x => nextLevel s x.1 x.2
  let up := (((List.range 96).zip (cs.zip ls)).filter fun x => lvl x.2.1.level < lvl x.2.2).map fun x => (x.1, x.2.1.level)
  (setBel (fun b => { b with chans := (cs.zip ls).map fun x => { x.1 with level := x.2 } }) s, up)

/-- Belay's decisions on a sample: EMERG at once; otherwise the wake from Bivouac and the lower levels, then ORDERLY (15 R614,
R615, R619). -/
def belayActs (up : List (Nat × BelLevel)) (s : State) : State :=
  let chs := List.range 96
  match chs.find? fun ch => !isBase ch && atLevel s 4 ch with
  | some ch =>
    let s := up.foldl onRise s
    if s.pwr.hold = .emergency then s else emergencyShutdown ch (chanAt s ch).filt s
  | none =>
    let s := if up.isEmpty then s else wakeFull 3 s
    let s := up.foldl onRise s
    let s := (chs.filter fun ch => isBase ch && atLevel s 3 ch).foldl (fun s ch => hotStack (ch - 8) ch (chanAt s ch) s) s
    (chs.filter fun ch => !isBase ch && atLevel s 3 ch).foldl onOrderly s

/-- BELAY_SAMPLE (15 R614). -/
def belaySample (raw : List Int) (s : State) : State :=
  let s := belayStops s
  if !s.isl.belayOn then s
  else
    let s := match raw[44]? with
      | some v => setPwr (fun p => { p with busMv := v.toNat }) s
      | none => s
    let (s, up) := sampleAll raw s
    permitRestart (alertPin (belayActs up s))

/-- BELAY_SAMPLE. -/
def execBelaySample (b : BelayIn) (s : State) : Host.Outcome State Fault Refusal := .next (belaySample b.raw (atTime b.t s))

/-! The throttle (15 R617) -/

/-- L_power against the cap. -/
def lPowerUpdate (s : State) : State :=
  let c := chanAt s 76
  let w : Int := s.bel.capW
  if !s.isl.belayOn || !decides s 76 c then s
  else if w < c.filt then setBel (fun b => { b with lPower := min 6 (b.lPower + 1), lowMs := 0 }) s
  else if 10 * c.filt < 9 * w then
    if 10 ≤ s.bel.lowMs + 1 then setBel (fun b => { b with lPower := b.lPower - 1, lowMs := 0 }) s
    else setBel (fun b => { b with lowMs := b.lowMs + 1 }) s
  else setBel (fun b => { b with lowMs := 0 }) s

/-- L_POWER_UPDATE. -/
def execLPowerUpdate (t : Nat) (s : State) : Host.Outcome State Fault Refusal :=
  let s := belayStops (atTime t s)
  .next (noteL (throttle s) (lPowerUpdate s))

/-- L_thermal against the channels at CAP or beyond. -/
def lThermalUpdate (s : State) : State :=
  if !s.isl.belayOn then s
  else if s.bel.chans.any fun c => decide (2 ≤ lvl c.level) then
    setBel (fun b => { b with lThermal := min 6 (b.lThermal + 1) }) s
  else setBel (fun b => { b with lThermal := b.lThermal - 1 }) s

/-- L_THERMAL_UPDATE. -/
def execLThermalUpdate (t : Nat) (s : State) : Host.Outcome State Fault Refusal :=
  let s := belayStops (atTime t s)
  .next (noteL (throttle s) (lThermalUpdate s))

/-! Belay's registers that its status reply carries (15 R621, R627; 02 R87) -/

/-- MODULE of BEL_STATE, by 02 R90. -/
def belState (s : State) : BitVec 64 :=
  w64 (bootCode s.boot.st + 2 ^ 4 * b2n (shutdownHold s.pwr.hold)
    + 2 ^ 5 * b2n s.bel.pinLow + 2 ^ 8 * throttle s + 2 ^ 12 * s.bel.lPower + 2 ^ 16 * s.bel.lThermal
    + 2 ^ 32 * countIf (fun c => c.level != .none) s.bel.chans)

/-- Automatic restarts of the last 600 s (02 R71, R87). -/
def recentRestarts (s : State) : List Nat := s.boot.restarts.filter fun t => decide (s.now < t + 600000000000)

/-- BOOT_CAUSE. -/
def bootCause (s : State) : BitVec 64 := w64 (s.boot.cause + 2 ^ 8 * min 255 (recentRestarts s).length)

/-- BEL_RET_STATUS. -/
def belRetStatus (s : State) : BitVec 64 := w64 (s.crn.ret.length + 2 ^ 16 * s.crn.retBoot.toNat)

/-- The 256 B status reply (15 R621). -/
def statusReply (s : State) : List Byte :=
  let rec' := fun i => match s.crn.ret[i]? with | some r => cairnBytes r | none => le 64 0
  le 8 (belState s).toNat ++ le 8 (bootCause s).toNat ++ le 8 s.boot.count.toNat ++ le 8 (belRetStatus s).toNat
    ++ rec' 0 ++ rec' 1 ++ le 96 0

/-- BELAY_STATUS_REQUEST: Belay answers while the controller core is held in reset; otherwise the datagram has no other effect
than the wake of a module in Bivouac (02 R77). -/
def execBelayStatusRequest (port : Fin 2) (_req : Bytes) (t : Nat) (s : State) : Host.Outcome State Fault Refusal :=
  let s := wakeFull 2 (belayStops (atTime t s))
  .next (if s.isl.belayOn && !coreOn s then emit (.udp port.val (statusReply s)) s else s)

end Sys2Proof.Machine
end

