-- ==== Sys2Proof/Machine/Bulk.lean ====
section
/-! DEFINITION. The commands of the bulk queues (06_pool_verbs R238 to R250). -/

namespace Sys2Proof.Machine

/-- A tenant's node: authorised for the TID apart from its session (06 R238; 14 R576). -/
def nodeListed (s : State) (tid node : Nat) : Bool := tenantEnabled s tid && listedHost s tid node

/-- DEPTH of a new queue: clamped, then rounded up to a power of two (06 R238). -/
def bqDepth (x : Nat) : Nat :=
  let d := clampTo 16 4096 x
  if 2 ^ Nat.log2 d = d then d else 2 ^ (Nat.log2 d + 1)

/-- Descriptor slots in use by the queues that exist (06 R238). -/
def descSlots (s : State) : Nat := sumBy Bq.depth s.bulk.qs

/-- BQ_CREATE (06 R238). -/
def bqCreate (pick : Nat) (w : Waiting) (s : State) : State :=
  let r := w.req
  let tid := reqTid r
  let depth := bqDepth (op0 r % 65536)
  let node := op1 r % 2 ^ 20
  if !nodeListed s tid node then replySt w .denied s
  else if 65536 < descSlots s + depth || 64 ≤ countIf (fun q => q.owner = tid) s.bulk.qs then replySt w .refused s
  else match findFree (fun i => (bqAt s i).isNone && indexRested s 1 i) 4096 pick with
    | none => replySt w .refused s
    | some i =>
      let q : Bq := { idx := i, gen := nextGen s 1 i, owner := tid, cqNode := node, depth := depth }
      let s := useIndex 1 i q.gen (setBulk (fun b => { b with qs := b.qs ++ [q] }) s)
      reply w { mkResp s r .ok with r0 := w64 (bqHandle q), r1 := w64 depth } s

/-- BQ_CREATE. -/
def execBqCreate (r : Req) (e : Env) (s : State) : Host.Outcome State Fault Refusal :=
  .next (runVerb { r with opcode := 0x10 } e (bqCreate e.pick) s)

/-- BQ_DESTROY (06 R249). -/
def bqDestroy (w : Waiting) (s : State) : State :=
  match bqOf s (op0 w.req) (reqTid w.req) with
  | none => replySt w .noMapping s
  | some q =>
    let w' := { w with why := .never }
    let s := setVrb (fun v => { v with waiting := v.waiting ++ [w'] }) s
    let run := (q.run + 65536 - q.head) % 65536
    let s := modBq q.idx (fun b => { b with
      destroy := some w'
      descs := b.descs.map fun x =>
        if run ≤ (x.n + 65536 - q.head) % 65536 && x.phase = .queued then
          { x with phase := .aborted, status := .revoked, bytes := 0 } else x }) s
    destroyDone q.idx s

/-- BQ_DESTROY. -/
def execBqDestroy (r : Req) (e : Env) (s : State) : Host.Outcome State Fault Refusal :=
  .next (runVerb { r with opcode := 0x11 } e bqDestroy s)

/-- The descriptors of a submission: LEN of 64 B from payload byte 0 (06 R240). -/
def submitted (r : Req) : List Desc :=
  (List.range (clampTo 1 (reqSlots r) (reqLen r))).map fun i => parseDesc (slice r.payload (64 * i) 64)

/-- The contexts of the descriptors beside that of the BULK_SUBMIT itself would pass a limit of a tenant that they count against
(06 R228; 04 R151). -/
def bulkFull (s : State) (ord tid : Nat) (ds : List Desc) : Bool :=
  let ts := ds.map (descTid s ord tid)
  decide (262144 < ctxAll s + ds.length + 1) || (tid :: ts).eraseDups.any fun t => ctxFull s t (countIf (fun x => x = t) ts + b2n (t == tid))

/-- BULK_SUBMIT (06 R240, R241, R243). -/
def bulkSubmit (w : Waiting) (s : State) : State :=
  let r := w.req
  let tid := reqTid r
  if reqSlots r = 0 then replySt w .denied s
  else match bqOf s (op0 r) tid with
    | none => replySt w .noMapping s
    | some q =>
      let ds := submitted r
      if q.depth < q.descs.length + ds.length then replySt w .busy s
      else if bulkFull s w.ord tid ds then
        replySt w .busy (setVrb (fun v => { v with busyCtx := satAdd 16 v.busyCtx 1 }) s)
      else
        let st := ds.map (checkDesc s w.ord tid r.src)
        match (List.range ds.length).find? fun i => st[i]? ≠ some .ok with
        | some i => reply w { mkResp s r (st.getD i .ok) with r1 := w64 i } s
        | none =>
          let tail := (q.tail + ds.length) % 65536
          let recs := ((List.range ds.length).zip ds).map fun p =>
            { n := (q.tail + p.1) % 65536, d := p.2, node := r.src, ord := w.ord : DescRec }
          let s := modBq q.idx (fun b => { b with
            descs := b.descs ++ recs, tail := tail, run := if reqDoorbell r then tail else b.run }) s
          reply w { mkResp s r .ok with r0 := w64 tail, r1 := 0xFFFF } (notePeak s)

/-- BULK_SUBMIT. -/
def execBulkSubmit (r : Req) (e : Env) (s : State) : Host.Outcome State Fault Refusal :=
  .next (runVerb { r with opcode := 0x12 } e bulkSubmit s)

/-- BULK_DOORBELL (06 R243): the value is clamped to RUN ... TAIL, measured forward from RUN. -/
def bulkDoorbell (w : Waiting) (s : State) : State :=
  let r := w.req
  match bqOf s (op0 r) (reqTid r) with
  | none => replySt w .noMapping s
  | some q =>
    let d := min ((op1 r % 65536 + 65536 - q.run) % 65536) ((q.tail + 65536 - q.run) % 65536)
    let run := (q.run + d) % 65536
    reply w { mkResp s r .ok with r0 := w64 run } (modBq q.idx (fun b => { b with run := run }) s)

/-- BULK_DOORBELL. -/
def execBulkDoorbell (r : Req) (e : Env) (s : State) : Host.Outcome State Fault Refusal :=
  .next (runVerb { r with opcode := 0x13 } e bulkDoorbell s)

/-- The next descriptor of a queue that may start (06 R243, R244). -/
def startable (q : Bq) : Option DescRec :=
  match q.descs.find? fun x => x.phase = .queued with
  | none => none
  | some x =>
    let before := q.descs.takeWhile fun y => y.n ≠ x.n
    let run := (q.run + 65536 - q.head) % 65536
    let released := decide ((x.n + 65536 - q.head) % 65536 < run)
    if released && decide (countIf (fun y => y.phase = .running) q.descs < 8) && (!x.d.fence || before.all descOver)
    then some x else none

/-- DESCRIPTOR_START (06 R244). -/
def execDescriptorStart (q : Nat) (e : Env) (s : State) : Host.Outcome State Fault Refusal :=
  let s := applyEnv e s
  .next (match (bqAt s q).bind startable with
    | some x => modDesc q x.n (fun y => { y with phase := .running }) s
    | none => s)

/-- DESC_NOP (06 R246). -/
def execDescNop (q : Nat) (e : Env) (s : State) : Host.Outcome State Fault Refusal := .next (descRun q 0 (applyEnv e s))

/-- DESC_FILL (06 R246). -/
def execDescFill (q : Nat) (e : Env) (s : State) : Host.Outcome State Fault Refusal := .next (descRun q 1 (applyEnv e s))

/-- DESC_COPY (06 R246). -/
def execDescCopy (q : Nat) (e : Env) (s : State) : Host.Outcome State Fault Refusal := .next (descRun q 2 (applyEnv e s))

/-- DESC_COMPARE (06 R246). -/
def execDescCompare (q : Nat) (e : Env) (s : State) : Host.Outcome State Fault Refusal :=
  .next (descRun q 3 (applyEnv e s))

/-- DESC_REDUCE (06 R246). -/
def execDescReduce (q : Nat) (e : Env) (s : State) : Host.Outcome State Fault Refusal :=
  .next (descRun q 4 (applyEnv e s))

end Sys2Proof.Machine
end

