-- ==== Sys2Proof/Machine/Integrity.lean ====
section
/-! DEFINITION. Management's side of memory integrity: buckets, page retirement, scrub passes, error injection and the CE log
(13_memory_integrity R533 to R548). -/

namespace Sys2Proof.Machine

/-! Buckets and the CE log -/

/-- CE_BUCKET_LEAK: every bucket loses LEAK_PER_S / 1,000 of an event (13 R534). -/
def execCeBucketLeak (t : Nat) (s : State) : Host.Outcome State Fault Refusal :=
  let s := atTime t s
  .next (if s.img.ceBucket then
      setEcc (fun e => { e with sramBucket := e.sramBucket - s.img.leakPerS })
        { s with stks := s.stks.map fun x => { x with bucket := x.bucket - s.img.leakPerS } }
    else s)

/-- ECC_LOG_E0 of an entry; 0 where the log has none (13 R547). -/
def logWord0 (x : Option CeLog) : BitVec 64 :=
  match x with
  | some x => w64 (2 ^ 63 + x.src * 2 ^ 61 + x.maxSym * 2 ^ 58 + x.pa)
  | none => 0

/-- ECC_LOG_E1 of an entry; 0 where the log has none (13 R547). -/
def logWord1 (x : Option CeLog) : BitVec 64 :=
  match x with
  | some x => w64 (x.lastMs * 2 ^ 16 + x.hits)
  | none => 0

/-- Select and latch an entry of the CE log (13 R533). -/
def latchLog (sess v : Nat) (s : State) : State :=
  let i := v % 64
  setSels (.mgmt sess) (fun x => { x with eccLog := i, logE0 := logWord0 s.ecc.log[i]?, logE1 := logWord1 s.ecc.log[i]? }) s

/-- ECC_LOG_SEL_WRITE. -/
def execEccLogSelWrite (sess : Nat) (v : BitVec 64) (t : Nat) (s : State) : Host.Outcome State Fault Refusal :=
  .next (withWrite sess t (fun s => mgmtReply sess .ok [] (latchLog sess v.toNat s)) s)

/-- ECC_LOG_CLR with CLEAR: the log is empty (13 R533). -/
def execEccLogClr (sess t : Nat) (s : State) : Host.Outcome State Fault Refusal :=
  .next (withWrite sess t (fun s => mgmtReply sess .ok [] (setEcc (fun e => { e with log := [] }) s)) s)

/-! Page retirement (13 R536 to R540) -/

/-- Pages of a stack below its spare pages (13 R538). -/
def spareBase : Nat := 0xFFF00

/-- MEM_RETIRE of a page: a spare is taken and the copy begins; a page whose copy runs is retired already (13 R537, R539). -/
def memRetire (sess k page : Nat) (s : State) : State :=
  let x := stackAt s k
  if !stackServes s k || decide (spareBase ≤ page) then mgmtReply sess .denied [] s
  else if x.remapping.any fun r => r.1 = page then mgmtReply sess .ok [] s
  else if 256 ≤ x.spareUsed then
    mgmtReply sess .refused [] (modStack k (fun x => { x with flags := x.flags ||| 8#5, flagsAt := setNow s.now x.flagsAt 8#5 }) s)
  else mgmtReply sess .ok [] (modStack k (fun x => { x with
    spareUsed := x.spareUsed + 1, remapping := x.remapping ++ [(page, spareBase + x.spareUsed, 0)] }) s)

/-- MEM_RETIRE; the stack and the page are given by a PA of the page. -/
def execMemRetire (sess : Nat) (pa : BitVec 64) (e : Env) (s : State) : Host.Outcome State Fault Refusal :=
  .next (withSess sess e.t .operator (memRetire sess (pa.toNat / 2 ^ 36) (pa.toNat / 2 ^ 16 % 2 ^ 20)) (applyEnv e s))

/-- The copy of one line of a page to its spare: it carries on corrected or poisoned (13 R539). Memory is kept by PA, which the
remap does not change. -/
def remapLine (s : State) (line : Nat) : State :=
  let s := (readLine 4 (line * 128) s).1
  setPat line (copiedPat (linePat s line) (erasedLane s (paStack (line * 128)) (line % 64))) s

/-- The copy of a page completes and its entry becomes active (13 R539). -/
def remapDone (k page : Nat) (s : State) : State :=
  match (stackAt s k).remapping.find? fun r => r.1 = page with
  | none => s
  | some (_, spare, _) =>
    let first := (k * 2 ^ 36 + page * 2 ^ 16) / 128
    let lines := (s.ecc.errs.map Prod.fst).filter fun l => decide (first ≤ l) && decide (l < first + 512)
    let s := lines.foldl remapLine s
    modStack k (fun x => if x.st = .failed then x else { x with
      remapping := x.remapping.filter fun r => r.1 ≠ page, remap := setAssoc page spare x.remap }) s

/-- PAGE_REMAP_DONE. -/
def execPageRemapDone (stk : Fin 32) (page : Nat) (e : Env) (s : State) : Host.Outcome State Fault Refusal :=
  .next (remapDone stk.val page (applyEnv e s))

/-! Scrub passes (13 R541 to R545) -/

/-- The status of a tenant's range at START: R135 with right R over the whole length (13 R541). -/
def trvCheck (s : State) (tid node h va len : Nat) : Status :=
  match checkAccess s s.vrb.nextOrd h tid node va len rightR with
  | .bad st => st
  | .ok _ g o => (((List.range g.exts.length).zip g.exts).filter fun i => decide (0 < bytesIn g i.1 o len)).foldl
      (fun st i => worse st (partStatus s s.vrb.nextOrd g.owner { x := i.2 })) .ok

/-- A pass starts: its counts are zero (13 R541, R545). -/
def trvBegin (tid addr len lines : Nat) (s : State) : State :=
  modTrv tid (fun p => { p with
    st := .running, result := 0, linesDone := 0, pass := wrapAdd 32 p.pass 1, since := s.now, pStart := w64 addr, pLen := len
    pTgt := p.tgt, pLines := lines, ceLines := 0, ceSyms := 0, ueLines := 0, poison := 0
    firstBad := 0xFFFFFFFFFFFFFFFF, maxSym := 0, stackLost := false }) s

/-- A START sets a result other than OK. -/
def trvRefuse (tid : Nat) (st : Status) (s : State) : State := modTrv tid (fun p => { p with result := st.code }) s

/-- TRV_CMD.START on a page; node is the node whose write it is (13 R541, R542). Lines beyond the end of a stack do not exist. -/
def trvStart (tid node : Nat) (s : State) : State :=
  let p := trvPage s tid
  let addr := p.addr.toNat / 128 * 128
  let len := ceilDiv p.len 128 * 128
  if p.st = .running || decide (8 ≤ countIf (fun q => q.st == .running) s.trv.pages) then trvRefuse tid .busy s
  else if tid = 0xFFFF then
    let len := min len (2 ^ 36 - addr)
    trvBegin tid addr len (len / 128 * (passStacks s { p with pTgt := p.tgt }).length) s
  else match trvCheck s tid node (p.tgt.toNat % 2 ^ 24) addr len with
    | .ok => trvBegin tid addr len (len / 128) s
    | st => trvRefuse tid st s

/-- TRV_START; the node that a tenant page's write comes from is the event's pick. -/
def execTrvStart (q : Requester) (e : Env) (s : State) : Host.Outcome State Fault Refusal :=
  .next (byRequester q e.t (trvStart (trvPageOf q) (e.pick % 2 ^ 20)) (applyEnv e s))

/-- TRV_ABORT. -/
def execTrvAbort (q : Requester) (e : Env) (s : State) : Host.Outcome State Fault Refusal :=
  .next (byRequester q e.t (trvStop (trvPageOf q) 1) (applyEnv e s))

/-- TRAVERSE_DONE. -/
def execTraverseDone (q : Requester) (e : Env) (s : State) : Host.Outcome State Fault Refusal :=
  .next (trvFinish (trvPageOf q) (applyEnv e s))

/-! Error injection (13 R546) -/

/-- OP of ECC_INJ_CTL. -/
def injOp (v : Nat) : Nat := v / 2 ^ 60
/-- COPY, clamped (13 R547). -/
def injCopy (v : Nat) : Nat := min 2 (bits v 59 58)
/-- CRIT_IDX, clamped. -/
def injIdx (v : Nat) : Nat := min 95 (bits v 56 50)
/-- STACK, clamped. -/
def injStack (s : State) (v : Nat) : Nat := min (stackCount s - 1) (bits v 33 29)
/-- UNIT, clamped. -/
def injUnit (v : Nat) : Nat := min 31743 (bits v 28 14)
/-- LINE. -/
def injLine (v : Nat) : Nat := v % 2 ^ 14
/-- The PA of the line. -/
def injPa (s : State) (v : Nat) : Nat := injStack s v * 2 ^ 36 + injUnit v * unit2M + injLine v * 128

/-- ECC_INJ_CTL as it reads back: clamped, with OP NONE (13 R546, R547). -/
def injBack (s : State) (v : Nat) : BitVec 64 :=
  w64 (injCopy v * 2 ^ 58 + injIdx v * 2 ^ 50 + injStack s v * 2 ^ 29 + injUnit v * 2 ^ 14 + injLine v)

/-- RESULT of the operation. -/
def injDone (st : Status) (s : State) : State := setEcc (fun e => { e with injResult := st.code }) s

/-- A unit of a stack is free (13 R546). -/
def unitIsFree (s : State) (k u : Nat) : Bool :=
  inService s k && (freeRuns s k).any fun r => decide (r.1 ≤ u) && decide (u < r.1 + r.2)

/-- ECC_INJ_DATA as the bytes of a line. -/
def injBytes (s : State) : List Byte := (s.ecc.injData.map fun w => le 8 w.toNat).flatten
/-- ECC_INJ_CHK as check symbols. -/
def injChecks (s : State) : List Byte := (s.ecc.injChk.map fun w => le 8 w.toNat).flatten

/-- ARM. -/
def injArm (v : Nat) (s : State) : State :=
  let k := injStack s v
  let u := injUnit v
  if s.ecc.injArmed.isSome then injDone .busy s
  else if !unitIsFree s k u then injDone .denied s
  else injDone .ok (setEcc (fun e => { e with injArmed := some (k, u) }) s)

/-- DISARM. -/
def injDisarm (s : State) : State :=
  match s.ecc.injArmed with
  | none => injDone .ok s
  | some (k, u) => injDone .ok (setEcc (fun e => { e with injArmed := none }) (zeroDram (k * 2 ^ 36 + u * unit2M) unit2M s))

/-- An operation on a line of the armed unit; DENIED on any other line. -/
def onArmed (v : Nat) (f : Nat → State → State) (s : State) : State :=
  if armedAt s (injPa s v) then injDone .ok (f (injPa s v) s) else injDone .denied s

/-- WRITE_RAW: data and check symbols as given. -/
def injWriteRaw (pa : Nat) (s : State) : State :=
  let d := injBytes s
  let diff := List.zipWith (fun a b => a ^^^ b) (injChecks s) (rsCheck d)
  let pat := ((List.range 16).zip diff).filterMap fun x => if x.2 = 0 then none else some (128 + x.1, x.2)
  writeQueue pa (setPat (pa / 128) pat (setMem (fun m => memWriteL m pa d) s))

/-- WRITE_ENC: data encoded, the check symbols to ECC_INJ_CHK. -/
def injWriteEnc (pa : Nat) (s : State) : State :=
  let d := injBytes s
  setEcc (fun e => { e with injChk := words64 2 (rsCheck d) })
    (writeQueue pa (setPat (pa / 128) [] (setMem (fun m => memWriteL m pa d) s)))

/-- READ_RAW: the stored symbols, with no decode and no count. -/
def injReadRaw (pa : Nat) (s : State) : State :=
  let s := readQueue pa s
  let d := memReadL s.mem pa 128
  let sym := (linePat s (pa / 128)).foldl (fun l x => modNth x.1 (fun b => b ^^^ x.2) l) (d ++ rsCheck d)
  setEcc (fun e => { e with injData := words64 16 (sym.take 128), injChk := words64 2 (sym.drop 128) }) s

/-- READ_DEC: a demand read of source 3. -/
def injReadDec (pa : Nat) (s : State) : State :=
  let (s, r) := readLine 3 pa s
  match r with
  | .data d n => setEcc (fun e => { e with
      injOutcome := if n = 0 then 0 else 1, injSyms := n, injData := words64 16 d }) s
  | .poison => setEcc (fun e => { e with injOutcome := 2, injSyms := 0 }) s
  | .ue => setEcc (fun e => { e with injOutcome := 3, injSyms := 0 }) s

/-- FLIP_CRIT. -/
def injFlip (v : Nat) (s : State) : State :=
  injDone .ok (critFlip (injIdx v) (injCopy v) (nth 0 s.ecc.injData 0) s)

/-- A write of ECC_INJ_CTL (13 R546). -/
def injWrite (op v : Nat) (s : State) : State :=
  let s := setEcc (fun e => { e with injCtl := injBack s v }) s
  if op = 1 then injArm v s
  else if op = 2 then injDisarm s
  else if op = 3 then onArmed v injWriteRaw s
  else if op = 4 then onArmed v injWriteEnc s
  else if op = 5 then onArmed v injReadRaw s
  else if op = 6 then onArmed v injReadDec s
  else if op = 7 then injFlip v s
  else s

/-- A row of ECC_INJ_CTL with its OP. -/
def injRow (op sess v : Nat) (e : Env) (s : State) : State :=
  withWrite sess e.t (fun s => mgmtReply sess .ok [] (injWrite op v s)) (applyEnv e s)

/-- ECC_INJ_ARM. -/
def execEccInjArm (sess : Nat) (v : BitVec 64) (e : Env) (s : State) : Host.Outcome State Fault Refusal :=
  .next (injRow 1 sess v.toNat e s)
/-- ECC_INJ_DISARM. -/
def execEccInjDisarm (sess : Nat) (v : BitVec 64) (e : Env) (s : State) : Host.Outcome State Fault Refusal :=
  .next (injRow 2 sess v.toNat e s)
/-- ECC_INJ_WRITE_RAW. -/
def execEccInjWriteRaw (sess : Nat) (v : BitVec 64) (e : Env) (s : State) : Host.Outcome State Fault Refusal :=
  .next (injRow 3 sess v.toNat e s)
/-- ECC_INJ_WRITE_ENC. -/
def execEccInjWriteEnc (sess : Nat) (v : BitVec 64) (e : Env) (s : State) : Host.Outcome State Fault Refusal :=
  .next (injRow 4 sess v.toNat e s)
/-- ECC_INJ_READ_RAW. -/
def execEccInjReadRaw (sess : Nat) (v : BitVec 64) (e : Env) (s : State) : Host.Outcome State Fault Refusal :=
  .next (injRow 5 sess v.toNat e s)
/-- ECC_INJ_READ_DEC. -/
def execEccInjReadDec (sess : Nat) (v : BitVec 64) (e : Env) (s : State) : Host.Outcome State Fault Refusal :=
  .next (injRow 6 sess v.toNat e s)
/-- ECC_INJ_FLIP_CRIT. -/
def execEccInjFlipCrit (sess : Nat) (v : BitVec 64) (e : Env) (s : State) : Host.Outcome State Fault Refusal :=
  .next (injRow 7 sess v.toNat e s)

end Sys2Proof.Machine
end

