-- ==== Sys2Proof/Machine/Qos.lean ====
section
/-! DEFINITION. Shapers, PARTITIONED tenants and the periodic work of the DRAM schedulers (12_service_and_dram R498 to R516; 13 R528). -/

namespace Sys2Proof.Machine

/-- Packets that waited in the controller core for a shaper or a window try again (11 R478; 12 R501). -/
def pumpAll (s : State) : State :=
  (s.e2e.peers.filter fun p => !p.sp0.queue.isEmpty || !p.sp1.queue.isEmpty).foldl
    (fun s p => pumpPeer p.node p.prov s) s

/-- One bucket's refill: RATE bytes, at most BURST KiB, and what has become eligible leaves (12 R499, R500). -/
def refillBucket (s : State) (b : Bucket) : State :=
  let b := bucketAt s b.port b.tid
  let v := shpOf s b.tid
  drainBucket b.port b.tid b.q.length (putBucket { b with tokens := min (v.burst * 1024) (b.tokens + v.rate) } s)

/-- The refill of every bucket; changed values take effect at it (12 R500). -/
def shaperRefill (s : State) : State :=
  let s := setQos (fun q => { q with shp := q.shp.map fun x => { x with now := x.next } }) s
  pumpAll (s.qos.buckets.foldl refillBucket s)

/-- SHAPER_REFILL. -/
def execShaperRefill (t : Nat) (s : State) : Host.Outcome State Fault Refusal := .next (shaperRefill (atTime t s))

/-- The shaper values that a write of QOS_SHP asks for, within the image's (12 R515). -/
def shpClamped (i : ShpCfg) (v : Nat) : ShpCfg :=
  { rate := clampTo 1 i.rate (bits v 17 0), burst := clampTo 4 i.burst (bits v 44 32), overhead := clampTo i.overhead 63 (bits v 53 48) }

/-- A write of QOS_SHP for a tenant; a disabled or PARTITIONED one has none (12 R515, R516). -/
def writeShp (tid v : Nat) (s : State) : State :=
  if (match tenantOf s tid with | some t => t.enabled | none => false) && !isPart s tid then
    let x : ShpEff := { tid := tid, now := shpOf s tid, next := shpClamped (imgShp s tid) v }
    setQos (fun q => { q with shp := q.shp.filter (fun y => y.tid ≠ tid) ++ [x] }) s
  else s

/-- QOS_SHP_WRITE. -/
def execQosShpWrite (sess : Nat) (v : BitVec 64) (t : Nat) (s : State) : Host.Outcome State Fault Refusal :=
  .next (withWrite sess t (fun s =>
    mgmtReply sess .ok [] (writeShp ((selsOf s (.mgmt sess)).qosTid % 4096) v.toNat s)) s)

/-- PARTITION_BUDGET_REFILL: the budgets are full again, and accesses that waited go on (12 R504). -/
def execPartitionBudgetRefill (t : Nat) (s : State) : Host.Outcome State Fault Refusal :=
  .next (retryBudget (setQos (fun q => { q with parts := q.parts.map fun p => { p with budget := [] } }) (atTime t s)))

/-- PARTITION_RESPONSE_RELEASE: responses whose D_P has come go to egress (12 R505). -/
def execPartitionResponseRelease (t : Nat) (s : State) : Host.Outcome State Fault Refusal :=
  let s := atTime t s
  let out := s.qos.held.filter fun h => decide (h.due ≤ s.now)
  .next (out.foldl (fun s h => sendQ h.node false false h.q s)
    (setQos (fun q => { q with held := q.held.filter fun h => !decide (h.due ≤ s.now) }) s))

/-- DRAM_AGE_PROMOTION: an access of a stack moves up one class, a queued write where one has waited long enough (12 R508). -/
def execDramAgePromotion (stk : Fin 32) (t : Nat) (s : State) : Host.Outcome State Fault Refusal :=
  let s := atTime t s
  .next (if stackServes s stk.val then
      modStack stk.val (fun x => promote s.now s.img.ageNs { x with promoted := satAdd 32 x.promoted 1 }) s
    else s)

/-- DRAM_REFRESH: one bank of a pseudo-channel (12 R511). -/
def execDramRefresh (stk : Fin 32) (pch : Fin 64) (bank t : Nat) (s : State) : Host.Outcome State Fault Refusal :=
  let s := atTime t s
  .next (if stackServes s stk.val then
      modStack stk.val (fun x => { x with refreshed := setAssoc pch.val (bank % 64) x.refreshed }) s
    else s)

/-- A channel's periodic retraining, once every 100 ms; two successive failures fail the stack (12 R512; 13 R528). -/
def retrainChannel (k ch : Nat) (pass : Bool) (s : State) : State :=
  let x := stackAt s k
  if stackServes s k && (match assoc ch x.lastTrain with | some t => decide (t + 100000000 ≤ s.now) | none => true) then
    let s := modStack k (fun x => { x with trainCh := some ch, lastTrain := setAssoc ch s.now x.lastTrain }) s
    if pass then modStack k (fun x => { x with chFails := x.chFails.filter fun y => y.1 ≠ ch }) s
    else if 1 ≤ assocD 0 ch x.chFails then stackFail k 4 s
    else modStack k (fun x => { x with chFails := setAssoc ch 1 x.chFails }) s
  else s

/-- CHANNEL_RETRAINING. -/
def execChannelRetraining (stk : Fin 32) (ch : Fin 32) (pass : Bool) (e : Env) (s : State) : Host.Outcome State Fault Refusal :=
  .next (retrainChannel stk.val ch.val pass (applyEnv e s))

/-- An operation of an engine of a stack is in progress. -/
def enginesBusy (s : State) (k : Nat) : Bool := s.fe.engs.any fun e => e.n / 64 = k && (e.comp.isSome || e.mov.isSome)

/-- A stack enters self-refresh after 50 us without an access, in which its write queue has drained (12 R510, R513). -/
def selfRefresh (k : Nat) (s : State) : State :=
  let x := stackAt s k
  if stackServes s k && !x.selfRef && decide (x.lastUse + 50000 ≤ s.now) && !enginesBusy s k && !passRuns s then
    modStack k (fun x => { drained x with selfRef := true, srEntries := satAdd 16 x.srEntries 1 }) s
  else s

/-- SELF_REFRESH_ENTRY. -/
def execSelfRefreshEntry (stk : Fin 32) (t : Nat) (s : State) : Host.Outcome State Fault Refusal :=
  .next (selfRefresh stk.val (atTime t s))

end Sys2Proof.Machine
end

