-- ==== Sys2Proof/Machine/Start.lean ====
section
/-! DEFINITION. The start sequence from t0 to the opening of the pool (02_startup_and_loss R44 to R61; 03_salven_image R95, R120,
R122; 14_security_and_isolation R554 to R557; 15 R595; 16 R645, R650). -/

namespace Sys2Proof.Machine

/-! Step 2: the image, the slot and the incarnation -/

/-- A header of a flash device is valid: its DeviceID key is the one that Onyx derives (16 R650). -/
def headerOk (s : State) (d : FlashDev) : Bool := d.fitted && d.readOk && slice d.hdrKey 0 97 == slice s.fuse.deviceKey 0 97

/-- The headers are read: B's only where A's is invalid; the serial number is that of a valid one, and 0 where both are invalid
(16 R649, R650; 17 R672). -/
def readHeaders (s : State) : State :=
  let a := headerOk s s.flash.a
  let b := headerOk s s.flash.b
  let serial := if a then s.flash.a.hdrSerial else if b then s.flash.b.hdrSerial else 0
  { s with
    glb := { s.glb with serial := serial }
    pwr := { s.pwr with
      presentA := s.flash.a.fitted, presentB := s.flash.b.fitted, sfdpA := s.flash.a.fitted, sfdpB := s.flash.b.fitted
      hdrA := if a then 1 else 2, hdrB := if a then 0 else if b then 1 else 2 } }

/-- The start counter: drawn at a power-on start, from Belay's counter where nothing can be drawn, one more later (02 R61). -/
def countStart (counter : BitVec 16) (s : State) : State :=
  if s.boot.powerOnStart then
    if s.onx.drbgFail then setBoot (fun b => { b with count := counter.setWidth 32, powerOnStart := false }) s
    else
      let (s, d) := draw 2 s
      setBoot (fun b => { b with count := BitVec.ofNat 32 (ofLe d), powerOnStart := false }) s
  else setBoot (fun b => { b with count := b.count + 1 }) s

/-- The flash device of a slot. -/
def slotDev (s : State) (x : SlotName) : FlashDev := if x = .slotB then s.flash.b else s.flash.a

/-- The slot that staging writes: the one not chosen, slot A where none was (03 R114). -/
def idleSlot (s : State) : SlotName := if s.boot.slot = .slotA then .slotB else .slotA

/-- BOOT_STAGE at a start (03 R122). -/
def stageAtStart (s : State) : State :=
  let committed := (slotDev s (idleSlot s)).commit = 0
  setBoot (fun b => { b with
    stage := if committed then .committed else .idle, stageTarget := if committed then idleSlot s else .noSlot }) s

/-- The image registers of the chosen image (03 R103, R121). -/
def imageRegs (l : List Byte) (s : State) : State :=
  setBoot (fun b => { b with
    imgKeyIdx := field l 0x16 1, imgFmtVer := field l 8 2, imgSvn := field l 0x18 4, imgId := w64 (field l 0x20 8)
    imgDigest := regionDigest l (field l 0x10 4), raiseSvn := bit (field l 0xC 4) 0 }) s

/-- Step 2 (02 R48; 03 R95). -/
def startStep2 (b : StartIn) (s : State) : State :=
  let s := readHeaders (setPwr (fun p => { p with slotPins := b.slotPins, slotId := b.slotPins }) s)
  let (slot, fa, fb) := chooseSlot s
  let s := countStart b.counter (setBoot (fun x => { x with
    slot := slot, failA := fa, failB := fb, imgMs := min 65535 b.imgMs }) s)
  let s := stageAtStart (setOnx (fun o => { o with romDigest := slice s.fuse.romDigest 0 48, layer := 1 }) s)
  if slot = .noSlot then s else imageRegs (slotImage (slotDev s slot)) s

/-! Step 3: roles, tables, keys -/

/-- A processor after its self-test (15 R595, R597): the code of a failure is a free value of 0x01 to 0x03 (log entry 13). -/
def cpStart (k : Nat) (ok : Bool) (st : CpState) (s : State) : State :=
  if ok then modCp k (fun p => { p with st := st }) s
  else
    let (s, i) := takeFree 1 s
    let code := 1 + Config.freeNat i % 3
    (cpRec k code (modCp k (fun p => { p with st := .failed, fails := 1, last := code }) s)).1

/-- The roles (15 R595). -/
def roles (a b : Bool) (s : State) : State :=
  let s := setCp (fun c => { c with lead := if a then 0 else 1, deltaAt := s.now }) s
  cpStart 1 b (if a then .second else .lead) (cpStart 0 a .lead s)

/-- The tenant keys of step 3; where the random source fails no key is drawn and the tenants are disabled (14 R556, R557). -/
def drawKeys (s : State) : State :=
  if s.onx.drbgFail then
    { s with img := { s.img with tenants := s.img.tenants.map fun t => { t with enabled := false } } }
  else
    let on := s.img.tenants.filter fun t => t.enabled
    let s := on.foldl (fun s t =>
      let (s, k) := draw 64 s
      setOnx (fun o => { o with tkeys := o.tkeys ++ [{ tid := t.tid, st := .active, gen := 1, key := k }] }) s)
      (setOnx (fun o => { o with tkeys := [] }) s)
    let (s, sys) := draw 64 s
    let (s, kek) := draw 32 s
    loadKeys (setOnx (fun o => { o with sysKey := sys, kek := kek }) s)

/-- The identity of layer 1, and the locks after it (14 R554, R555, R578). -/
def identity (s : State) : State :=
  setOnx (fun o => { o with
    layer := 2, udsLocked := true, aliasReady := true
    patchDigest := if s.img.patchSection.isEmpty then List.replicate 48 0 else sha384 s.img.patchSection }) s

/-- The values of the image take effect (03 R98, R108, R110). -/
def loadTables (x : Loaded) (s : State) : State :=
  let s := { s with
    img := x.img
    glb := { s.glb with node := (x.img.nodeBase + s.pwr.slotId.toNat) % 2 ^ 20 }
    rte := { s.rte with copy0 := x.route, copy1 := x.route }
    qos := { s.qos with parts := x.parts, partClamp := min 65535 x.partClamps } }
  let s := x.chans.foldl (fun s c => modChan c.1 (fun y => { y with
    alert := c.2.alert, cap := c.2.cap, orderly := c.2.orderly, emerg := c.2.emerg, restart := c.2.restart }) s) s
  setCp (fun c => { c with patches := x.img.patches.length }) (setBel (fun b => { b with capW := x.img.powerCapW })
    (setBoot (fun b => { b with
      backoffMs := x.policy.1, bivIdleMs := x.policy.2.1, bivAuto := x.policy.2.2
      adjClamped := min (2 ^ 32 - 1) (countIf (fun a => a.kind == 1) x.adj)
      adjDefaulted := min 65535 (countIf (fun a => a.kind == 2) x.adj)
      adjDropped := min 65535 (countIf (fun a => a.kind == 3) x.adj)
      firstAdj := match x.adj with | a :: _ => adjWord a | [] => 0 }) s))

/-- BOOT_IMG_ADJ (03 R121). -/
def imgAdjWord (s : State) : Nat := s.boot.adjClamped + 2 ^ 32 * s.boot.adjDefaulted + 2 ^ 48 * s.boot.adjDropped

/-- One IMAGE record where anything was adjusted (03 R108). -/
def imageRecord (s : State) : State :=
  if imgAdjWord s = 0 then s else cairn 0x0E 1 (imgAdjWord s) s.boot.firstAdj.toNat 0 s

/-- The islands that are locked once step 3 has ended (01 R40, R42): not those of a failed stack or processor. -/
def islandsLocked (stkOk : BitVec 32) (s : State) : State :=
  let stks := BitVec.ofNat 32 (2 ^ stackCount s - 1) &&& stkOk
  setIsl (fun i => { i with
    portLock := 0xFFFFFFFFFFFFFFFF, baseLock := stks, sifLock := stks
    miscLock := 0x9FF + (if s.cp.cp0.st = .failed then 0 else 0x200) + (if s.cp.cp1.st = .failed then 0 else 0x400) }) s

/-- Step 3, and the training of steps 4 and 5 begins; stacks that do not train fail (02 R50, R53). -/
def startStep3 (b : StartIn) (s : State) : State :=
  let x := loadImage s.fuse.variant s.pwr.slotId.toNat (slotImage (slotDev s s.boot.slot))
  let s := roles b.cp0Ok b.cp1Ok s
  let s := imageRecord (identity (drawKeys (loadTables x s)))
  let s := islandsLocked b.stkOk s
  let s := { s with stks := ((List.range 32).zip s.stks).map fun y =>
    if y.2.fitted && !b.stkOk.getLsbD y.1 then { y.2 with st := .failed } else y.2 }
  let s := ((List.range 32).filter fun k => (stackAt s k).fitted && !b.stkOk.getLsbD k).foldl (fun s k => enginesLeave k s) s
  let s := setPwr (fun p => { p with
    stackSw := p.stackSw &&& (b.stkOk ||| ~~~ (BitVec.ofNat 32 (2 ^ stackCount s - 1))) }) s
  setPwr (fun p => { p with txDark := false }) (setBoot (fun y => { y with
    st := .training, step3Done := true, step3End := s.now, stkDue := y.t0 + b.stkMs * 1000000
    portPend := mappedMask s.img.ports }) s)

/-- The rails that step 1 checks: the channels of their deviations and currents (15 R610). -/
def isRail (ch : Nat) : Bool := decide (45 ≤ ch) && decide (ch ≤ 75)

/-- Step 1: no rail is at or beyond its ORDERLY or EMERG threshold of the ROM, as far as Belay has sampled it (02 R48, R51; log
entry 79). -/
def railsOk (s : State) : Bool := (List.range 96).all fun ch => !isRail ch || !atLevel s 3 ch

/-- A start up to the end of step 2 (02 R48). After a module reset the thresholds of the image before are in force until here,
where the ROM defaults come back: DESIGN CHOICE (02 R51; log entry 79). -/
def startTo2 (b : StartIn) (s : State) : State :=
  let t0 := max s.now b.t
  let s := setPwr (fun p => { p with resetN := true, pgood := true }) (romThresholds { s with now := t0 })
  let s := setBoot (fun x => { x with t0 := t0 }) (setCrn (fun c => { c with retOwn := false }) s)
  startStep2 b (setIsl (fun i => { i with miscLock := 0x9FF }) (setBel (fun c => { c with capW := 3300 }) s))

/-- START_SEQUENCE: steps 1 to 3, and the beginning of steps 4 and 5 (02 R48). The module is in reset with its main converter on
and nothing holds it; rails that fail step 1 keep the controller core in reset. -/
def startSequence (b : StartIn) (s : State) : State :=
  if s.boot.st = .held && s.pwr.standbyOk && s.pwr.en && s.pwr.mainOn && s.pwr.hold = .none then
    let t0 := max s.now b.t
    if !railsOk (romThresholds s) then romThresholds (atTime t0 s) else
    let s := startTo2 b s
    if s.boot.slot = .noSlot then alertPin (setBoot (fun x => { x with st := .noImage }) { s with now := t0 + b.imgMs * 1000000 })
    else if !b.cp0Ok && !b.cp1Ok then resetModule 6 .module { s with now := t0 + max b.imgMs b.cpMs * 1000000 }
    else alertPin (startStep3 b { s with now := t0 + max b.imgMs b.cpMs * 1000000 })
  else s

/-- START_SEQUENCE. -/
def execStartSequence (b : StartIn) (s : State) : Host.Outcome State Fault Refusal := .next (startSequence b s)

/-! Opening (02 R54 to R58) -/

/-- The backoff window has expired (02 R56). -/
def backoffOver (s : State) : Bool := decide (s.boot.step3End + s.boot.backoffMs * 1000000 ≤ s.now)

/-- Some stack has trained. -/
def someStack (s : State) : Bool := (List.range 32).any fun k => inService s k

/-- The module opens: POOL_OPEN, or FORWARD_ONLY where every stack has failed and step 8 never comes (02 R54, R56, R88); Onyx
raises the floor (03 R120). -/
def openPool (s : State) : State :=
  let s := setBoot (fun b => { b with
    st := if someStack s then .poolOpen else .forwardOnly, openAt := s.now
    openMs := if someStack s then min 65535 ((s.now - b.t0) / 1000000) else b.openMs }) (setPool (fun p => { p with tables := someStack s }) s)
  if s.boot.st = .poolOpen && s.boot.raiseSvn && decide (s.fuse.svnFloor < s.boot.imgSvn) then
    critWrite 0x1C { s with fuse := { s.fuse with svnFloor := s.boot.imgSvn } }
  else s

/-- Step 4 has finished and the module waits, and one of the conditions of R56 holds. -/
def mayOpen (s : State) : Bool := s.boot.st == .backoff && (s.boot.portPend == 0 || backoffOver s)

/-- The module opens when it may. -/
def tryOpen (t : Nat) (s : State) : State :=
  let s := noteStep4 (atTime t s)
  if mayOpen s then openPool s else s

/-- POOL_OPEN. -/
def execPoolOpen (t : Nat) (s : State) : Host.Outcome State Fault Refusal := .next (tryOpen t s)

/-- BACKOFF_EXPIRY: the module opens though ports are still pending (02 R57). -/
def execBackoffExpiry (t : Nat) (s : State) : Host.Outcome State Fault Refusal :=
  let s := noteStep4 (atTime t s)
  .next (if backoffOver s then tryOpen t s else s)

end Sys2Proof.Machine
end

