-- ==== Sys2Proof/Machine/RegView.lean ====
section
/-! DEFINITION. What every register of the control window reads, block by block (17_register_map R654 to R674, and the register
tables of the block chapters). A reserved bit reads 0 (R662). -/

namespace Sys2Proof.Machine

/-- Fields of a register: high bit, low bit, value. -/
def pk (l : List (Nat × Nat × Nat)) : Nat := sumBy (fun f => f.2.2 % 2 ^ (f.1 + 1 - f.2.1) * 2 ^ f.2.1) l

/-- A reader: who reads and its _SEL registers (17 R667, R668). -/
structure View where
  /-- The requester. -/
  q : Requester
  /-- Its selections. -/
  x : Sels
deriving DecidableEq, Repr

/-- The view of a requester. -/
def viewOf (s : State) (q : Requester) : View := { q := q, x := selsOf s q }

/-- The requester may see what belongs to a tenant (17 R660). -/
def sees (v : View) (tid : Nat) : Bool := match v.q with | .mgmt _ => true | .page t => t == tid

/-- The tenant that a register reports: the page's, or the one that TNT_SEL selects (06 R260; 17 R659). -/
def viewTid (v : View) : Nat := match v.q with | .mgmt _ => v.x.tnt % 4096 | .page t => t

/-- A selector reads 0 in a tenant page while it names nothing of the tenant (07 R309; 17 R660). -/
def selShown (v : View) (own : Bool) (n : Nat) : Nat := match v.q with | .mgmt _ => n | .page _ => if own then n else 0

/-- A bit set over the numbers below n. -/
def bitSet (n : Nat) (f : Nat → Bool) : Nat := maskWord ((List.range n).filter f)

/-- Word k of a digest, first byte in the low bits. -/
def digestWord (d : List Byte) (k : Nat) : Nat := field d (8 * k) 8

/-! GLB, BOOT (01 R40; 02 R87; 03 R121; 17 R672) -/

/-- GLB registers. -/
def readGlb (s : State) (o : Nat) : Nat :=
  assocD 0 o [
    (0x000, (critValue 0x1B s).toNat),
    (0x008, pk [(63, 32, s.img.clusterId.toNat), (19, 0, (critValue 0x19 s).toNat)]),
    (0x010, s.glb.serial.toNat),
    (0x018, (s.now - s.boot.t0) / 1000),
    (0x020, pk [(31, 16, s.glb.mgmtDenied), (15, 0, s.glb.tntDenied)]),
    (0x028, s.glb.scratch.toNat),
    (0x030, s.glb.scratch.toNat),
    (0x200, s.isl.portLock.toNat),
    (0x208, pk [(63, 32, s.isl.baseLock.toNat), (31, 0, s.isl.sifLock.toNat)]),
    (0x210, s.isl.miscLock.toNat),
    (0x218, pk [(23, 16, s.isl.lolLast), (15, 0, s.isl.lolCount)])]

/-- The code of a slot name (02 R87). -/
def slotCode : SlotName → Nat
  | .noSlot => 0 | .slotA => 1 | .slotB => 2

/-- The code of a staging state (03 R121). -/
def stageCode : StageState → Nat
  | .idle => 0 | .writing => 1 | .verified => 2 | .committed => 3 | .failed => 4

/-- BOOT registers. -/
def readBoot (s : State) (o : Nat) : Nat :=
  let b := s.boot
  if 0x130 ≤ o && o ≤ 0x158 then digestWord b.imgDigest ((o - 0x130) / 8)
  else assocD 0 o [
    (0x000, pk [(15, 15, b2n (b.failB != 0)), (14, 14, b2n (b.failA != 0)), (11, 10, slotCode b.slot), (3, 0, bootCode b.st)]),
    (0x008, (bootCause s).toNat),
    (0x010, b.count.toNat),
    (0x018, pk [(63, 48, b.openMs), (47, 32, b.stkMs), (31, 16, b.portMs), (15, 0, b.imgMs)]),
    (0x020, b.portPend.toNat),
    (0x028, b.stkFail.toNat),
    (0x030, pk [(32, 32, b2n b.bivAuto), (31, 16, b.backoffMs), (15, 0, b.bivIdleMs)]),
    (0x038, pk [(31, 0, b.unreachDrop)]),
    (0x040, pk [(23, 16, b.wakeSrc), (15, 0, b.bivEntries)]),
    (0x100, pk [(49, 48, b.imgKeyIdx), (47, 32, b.imgFmtVer), (31, 0, b.imgSvn)]),
    (0x108, b.imgId.toNat),
    (0x110, pk [(15, 8, b.failB), (7, 0, b.failA)]),
    (0x118, pk [(63, 48, b.adjDropped), (47, 32, b.adjDefaulted), (31, 0, b.adjClamped)]),
    (0x120, b.firstAdj.toNat % 2 ^ 58),
    (0x128, pk [(47, 16, b.stageWritten), (15, 8, b.stageReason), (5, 4, slotCode b.stageTarget), (3, 0, stageCode b.stage)]),
    (0x160, pk [(5, 0, s.fuse.svnFloor)])]

/-! LNK, RTE, E2E (10 R442; 11 R489) -/

/-- The code of a link state (10 R442). -/
def linkCode : LinkState → Nat
  | .down => 0 | .train => 1 | .verify => 2 | .active => 3 | .reset => 4

/-- A credit register: data and header counters of two classes (10 R442). -/
def creditWord (f : Nat → Nat) (k : Nat) : Nat :=
  pk [(63, 48, f (crdSel (2 * k + 1) true)), (47, 32, f (crdSel (2 * k + 1) false)),
    (31, 16, f (crdSel (2 * k) true)), (15, 0, f (crdSel (2 * k) false))]

/-- LNK registers. -/
def readLnk (s : State) (v : View) (o : Nat) : Nat :=
  let k := v.x.lnk % 64
  let p := portAt s k
  if 0x048 ≤ o && o ≤ 0x058 then creditWord (fun i => nth 0 p.crdPeer i) ((o - 0x048) / 8)
  else if 0x060 ≤ o && o ≤ 0x070 then creditWord (crdAvail p) ((o - 0x060) / 8)
  else if 0x080 ≤ o && o ≤ 0x0B8 then
    let i := (o - 0x080) / 8
    pk [(63, 48, nth 0 p.laneUncorr i), (32, 32, b2n (p.excl.any fun x => x.1 = i && decide (s.now < x.2))),
      (31, 0, nth 0 p.laneCorr i)]
  else assocD 0 o [
    (0x000, k),
    (0x008, bitSet 64 fun i => (portAt s i).st == .active),
    (0x010, pk [(47, 40, p.reason), (27, 27, b2n p.holdUntil.isSome), (26, 26, b2n p.lpiPeer), (25, 25, b2n p.lpiTx),
      (23, 16, p.lanesUsed.toNat), (15, 8, p.lanesGood.toNat), (5, 4, p.width), (2, 0, linkCode p.st)]),
    (0x018, pk [(47, 32, p.nbrInc), (29, 28, p.nbrKind), (25, 20, p.nbrPort), (19, 0, p.nbrNode)]),
    (0x020, pk [(8, 8, b2n p.adminDown), (1, 0, p.reqWidth)]),
    (0x030, pk [(31, 16, p.replayToNs), (15, 0, p.rttNs)]),
    (0x038, pk [(63, 48, p.flaps), (47, 32, p.fecUncorr), (31, 16, p.replays), (15, 0, p.crcErr)]),
    (0x040, p.flags.toNat)]

/-- RTE registers. -/
def readRte (s : State) (v : View) (o : Nat) : Nat :=
  let r := s.rte
  assocD 0 o [
    (0x00, pk [(47, 32, r.stageRej), (31, 16, r.flips), (1, 1, b2n r.draining), (0, 0, b2n r.sel)]),
    (0x08, pk [(12, 12, v.x.rteCopy), (11, 0, v.x.rteGrp)]),
    (0x10, (nth 0 (if v.x.rteCopy % 2 = 1 then r.copy1 else r.copy0) (v.x.rteGrp % 4096)).toNat),
    (0x20, r.live.toNat),
    (0x28, pk [(63, 48, r.tc4Demote), (47, 32, r.hopsDrop), (31, 16, r.ageDrop), (15, 0, r.noroute)]),
    (0x30, pk [(7, 0, r.tc4Slots.length)])]

/-- The state of a selected node: the held one, else the provisional one (11 R490). -/
def shownPeer (s : State) (node : Nat) : Option Peer :=
  match peerOf s node false with
  | some p => some p
  | none => peerOf s node true

/-- E2E registers. -/
def readE2e (s : State) (v : View) (o : Nat) : Nat :=
  let e := s.e2e
  assocD 0 o [
    (0x00, pk [(46, 32, e.peersPeak), (14, 0, e.peers.length)]),
    (0x08, pk [(50, 32, e.heldPeak), (18, 0, storeCount s)]),
    (0x10, v.x.e2e % 2 ^ 20),
    (0x18, match shownPeer s (v.x.e2e % 2 ^ 20) with
      | some p => pk [(63, 63, 1), (62, 62, b2n p.draining), (57, 48, p.cwnd), (47, 32, p.inc), (25, 16, p.sp0.sent.length),
          (9, 0, p.sp0.held.length)]
      | none => 0),
    (0x20, match shownPeer s (v.x.e2e % 2 ^ 20) with
      | some p => pk [(63, 48, p.sp1.rcvExp), (47, 32, p.sp1.sndNext), (31, 16, p.sp0.rcvExp), (15, 0, p.sp0.sndNext)]
      | none => 0),
    (0x28, pk [(63, 48, e.nodeLost), (47, 32, e.evict), (31, 16, e.retx), (15, 0, e.stale)]),
    (0x30, pk [(63, 48, e.streamDrop), (47, 32, e.winDrop), (31, 16, e.storeFull), (15, 0, e.dup)]),
    (0x38, pk [(31, 0, s.img.rtoUs)])]

/-! TNT, WIN, XT, ANC, COH, VRB (04 R182; 05 R218; 06 R260) -/

/-- TNT registers. -/
def readTnt (s : State) (v : View) (o : Nat) : Nat :=
  let tid := viewTid v
  assocD 0 o [
    (0x00, v.x.tnt % 4096),
    (0x08, match tenantOf s tid with
      | some t => pk [(10, 8, t.level), (2, 1, b2n t.partitioned), (0, 0, b2n t.enabled)]
      | none => 0),
    (0x10, pk [(51, 32, cohUnits s tid), (19, 0, memUnits s tid)]),
    (0x18, pk [(63, 49, anchorCount s tid), (47, 31, regionCount s tid), (16, 0, windowCount s tid)])]

/-- WIN registers. -/
def readWin (s : State) (o : Nat) : Nat :=
  assocD 0 o [
    (0x00, pk [(48, 32, countIf (fun w => w.revoking) s.pool.windows), (16, 0, 65536 - s.pool.windows.length)]),
    (0x08, pk [(31, 0, s.pool.revokeAbort)])]

/-- The code of a stack state (04 R182). -/
def stackCode : StackState → Nat
  | .inService => 0 | .draining => 1 | .retired => 2 | .failed => 3

/-- The stacks in service. -/
def servingStacks (s : State) : List Nat := (List.range 32).filter fun k => inService s k

/-- XT registers; the free counts read 0 until POOL_OPEN (04 R183). -/
def readXt (s : State) (v : View) (o : Nat) : Nat :=
  let k := v.x.xtStk % 32
  assocD 0 o [
    (0x00, if s.pool.tables then pk [(50, 32, 262144 - xtUsed s), (19, 0, sumBy (freeUnits s) (servingStacks s))] else 0),
    (0x08, k),
    (0x10, if s.pool.tables then pk [(49, 32, (stackAt s k).migrated), (17, 16, stackCode (stackAt s k).st),
        (14, 0, if inService s k then freeUnits s k else 0)] else 0)]

/-- ANC registers; the variant without anchors has none (17 R663). -/
def readAnc (s : State) (o : Nat) : Nat :=
  let p := s.pool
  if !hasAnchors s then 0
  else assocD 0 o [
    (0x00, pk [(46, 32, countIf (fun a => a.st == .lost) p.anchors),
      (14, 0, countIf (fun a => a.st == .lent || a.st == .inRegion) p.anchors)]),
    (0x08, pk [(47, 32, p.ancRenewFail), (31, 16, p.ancReclaims), (15, 0, p.ancLosses)])]

/-- The region that COH_REG_SEL names, if the requester may see it (05 R218). -/
def shownRegion (s : State) (v : View) : Option Region :=
  (regionAt s (v.x.coh % 65536)).bind fun g => if sees v g.owner then some g else none

/-- COH registers. -/
def readCoh (s : State) (v : View) (o : Nat) : Nat :=
  let c := s.coh
  let g := shownRegion s v
  let slots := match g with | some g => g.slots | none => []
  assocD 0 o [
    (0x00, pk [(49, 32, sumBy (cohUsed s) (servingStacks s)),
      (17, 0, if s.pool.tables then 4096 * (servingStacks s).length else 0)]),
    (0x08, selShown v g.isSome (v.x.coh % 65536)),
    (0x10, bitSet 64 fun k => slots.any fun x => x.k = k && !x.dead),
    (0x18, bitSet 64 fun k => slots.any fun x => x.k = k && x.dead),
    (0x20, match g with
      | some g => min (2 ^ 32 - 1) (countIf (fun d => d.region = g.idx && d.st = .lostModified) c.dir)
      | none => 0),
    (0x28, pk [(14, 0, waitingLines s)]),
    (0x30, pk [(63, 48, c.leaseEnd), (47, 32, c.busyFull), (31, 16, c.recalls), (15, 0, c.invals)]),
    (0x38, pk [(31, 0, c.missPpm)])]

/-- The queue that VRB_BQ_SEL names, if the requester may see it (06 R260). -/
def shownBq (s : State) (v : View) : Option Bq :=
  (bqAt s (v.x.bq % 4096)).bind fun q => if sees v q.owner then some q else none

/-- VRB_TNT.CTX as the requester sees it (14 R591). -/
def shownCtx (s : State) (v : View) (ctx : Nat) : Nat :=
  match v.q with
  | .mgmt _ => ctx
  | .page tid => let m := max 1 (ceilDiv (limitOf s tid TenantCfg.maxContexts) 16); ctx / m * m

/-- VRB registers. -/
def readVrb (s : State) (v : View) (o : Nat) : Nat :=
  let r := match s.vrb.load.find? fun r => r.tid = viewTid v with | some r => r | none => {}
  assocD 0 o [
    (0x00, pk [(50, 32, s.vrb.peak), (18, 0, ctxAll s)]),
    (0x08, pk [(35, 32, r.load), (18, 0, shownCtx s v r.ctx)]),
    (0x10, pk [(48, 32, 65536 - descSlots s), (12, 0, 4096 - s.bulk.qs.length)]),
    (0x18, selShown v (shownBq s v).isSome (v.x.bq % 4096)),
    (0x20, match shownBq s v with
      | some q => pk [(63, 63, 1), (59, 48, q.owner), (44, 40, Nat.log2 q.depth), (39, 32, q.gen), (19, 0, q.cqNode)]
      | none => 0),
    (0x28, match shownBq s v with
      | some q => pk [(47, 32, q.head), (31, 16, q.run), (15, 0, q.tail)]
      | none => 0),
    (0x30, pk [(63, 48, s.vrb.busyCtx), (47, 32, s.vrb.absent), (31, 16, s.vrb.denied), (15, 0, s.vrb.evtDrop)])]

/-! FE, BAR (07 R308, R309; 08 R353) -/

/-- The code of an engine state (07 R308). -/
def engCode : EngState → Nat
  | .free => 0 | .reserved => 1 | .running => 2 | .parked => 3 | .substituting => 4 | .out => 5

/-- The code of a spare engine's state. -/
def spareCode : SpareState → Nat
  | .free => 0 | .substituted => 1 | .quarantined => 2

/-- The engine that FE_SEL names is shown: to management, or to a page whose plans reserve it (07 R309). -/
def engShown (s : State) (q : Requester) (n : Nat) : Bool :=
  match q with | .mgmt _ => true | .page tid => engineOf s tid n

/-- Engines of a stack in the states that a test names. -/
def countEngs (s : State) (k : Nat) (p : EngState → Bool) : Nat :=
  countIf (fun i => p (engAt s (64 * k + i)).st) (List.range 64)

/-- FE_STK_ENG (07 R308). -/
def stkEng (s : State) (k : Nat) : Nat :=
  let x := stackAt s k
  if s.pool.tables then
    pk [(39, 38, spareCode x.spare1), (37, 36, spareCode x.spare0), (22, 16, countEngs s k fun e => e == .out),
      (14, 8, countEngs s k fun e => e != .out && e != .free), (6, 0, countEngs s k fun e => e == .free)]
  else pk [(39, 38, spareCode x.spare1), (37, 36, spareCode x.spare0)]

/-- The park record that FE_PARK_SEL names, if the requester may see it (07 R309). -/
def shownPark (s : State) (v : View) : Option Park :=
  (s.fe.parks.find? fun k => k.idx = v.x.park % 64).bind fun k => if sees v k.tid then some k else none

/-- FE registers of the engine that FE_SEL names. -/
def readEng (s : State) (v : View) (o : Nat) : Nat :=
  let n := v.x.fe % 2048
  let e := engAt s n
  if engShown s v.q n then assocD 0 o [
    (0x00, n),
    (0x08, pk [(43, 32, e.tid), (31, 24, e.plan), (14, 8, e.phys), (2, 0, engCode e.st)]),
    (0x10, pk [(7, 6, bankCode (ownerOf e 3)), (5, 4, bankCode (ownerOf e 2)), (3, 2, bankCode (ownerOf e 1)),
      (1, 0, bankCode (ownerOf e 0))]),
    (0x18, v.x.sync % 32),
    (0x20, pk [(15, 0, slotVal e (v.x.sync % 32))]),
    (0x60, e.aflags.toNat)]
  else 0

/-- FE registers; the variant without engines has none (07 R309). -/
def readFe (s : State) (v : View) (o : Nat) : Nat :=
  let c := s.fe
  if !hasEngines s then 0
  else if o ≤ 0x20 || o = 0x60 then readEng s v o
  else assocD 0 o [
    (0x28, stkEng s (v.x.fe % 2048 / 64)),
    (0x30, pk [(56, 48, c.plans.length),
      (43, 32, if s.pool.tables then sumBy (fun k => countEngs s k fun e => e == .free) (servingStacks s) else 0),
      (8, 0, 256 - c.bars.length)]),
    (0x38, selShown v (shownPark s v).isSome (v.x.park % 64)),
    (0x40, match shownPark s v with
      | some k => pk [(63, 63, 1), (59, 48, k.tid), (40, 36, k.stack), (35, 16, k.page), (15, 8, k.plan), (7, 0, k.kind)]
      | none => 0),
    (0x48, match shownPark s v with | some k => k.mask.toNat | none => 0),
    (0x58, pk [(63, 48, c.bankColl), (47, 32, c.parkFull), (31, 16, c.deadlock), (15, 0, c.quarantine)]),
    (0x68, pk [(63, 32, c.escalated), (31, 16, c.abftFail), (15, 0, c.abftRetry)]),
    (0x70, c.abftLast.toNat)]

/-- The barrier context that BAR_SEL names, if the requester may see it (07 R309). -/
def shownBar (s : State) (v : View) : Option Bar :=
  (barAt s (v.x.bar % 256)).bind fun b => if sees v b.tid then some b else none

/-- BAR registers. -/
def readBar (s : State) (v : View) (o : Nat) : Nat :=
  if !hasEngines s then 0
  else if o = 0x000 then selShown v (shownBar s v).isSome (v.x.bar % 256)
  else match shownBar s v with
    | none => 0
    | some b =>
      if 0x100 ≤ o && o ≤ 0x1F8 && o % 8 = 0 then bitSet 64 fun i => b.mask.contains (64 * ((o - 0x100) / 8) + i)
      else assocD 0 o [
        (0x008, pk [(63, 63, 1), (59, 48, b.tid), (47, 32, b.phase), (31, 16, b.ext), (15, 0, b.extArr)]),
        (0x010, pk [(11, 0, b.arrived.length)])]

/-! WS, KV (09 R403, R404) -/

/-- The set that WS_SEL names, if the requester may see it (09 R404). -/
def shownSet (s : State) (v : View) : Option Wset :=
  (s.ws.sets.find? fun x => x.idx = v.x.ws % 256).bind fun x => if sees v x.tid then some x else none

/-- The code of a set's state (09 R403). -/
def wsCode : WsState → Nat
  | .loading => 0 | .resident => 1 | .lost => 2

/-- Plans that refer to a set (09 R373, R403). -/
def setPlanRefs (s : State) (x : Wset) : Nat := countIf (fun p => p.tid = x.tid && p.wsRefs.contains x.digest) s.fe.plans

/-- WS registers of the selected set. -/
def readSet (s : State) (x : Wset) (o : Nat) : Nat :=
  if 0x20 ≤ o && o ≤ 0x48 then digestWord x.digest ((o - 0x20) / 8)
  else assocD 0 o [
    (0x10, pk [(63, 63, 1), (59, 48, x.tid), (47, 46, wsCode x.st), (45, 45, b2n x.residual), (44, 41, x.wfmt), (39, 32, x.gen),
      (31, 16, x.loads), (12, 0, x.mats.length)]),
    (0x18, pk [(63, 32, maskWord x.stks), (31, 23, setPlanRefs s x), (22, 0, x.tiles.length)])]

/-- WS registers; the variant without engines has none (09 R404). -/
def readWs (s : State) (v : View) (o : Nat) : Nat :=
  let w := s.ws
  let k := v.x.wsStk % 32
  if !hasEngines s then 0
  else if o = 0x08 then selShown v (shownSet s v).isSome (v.x.ws % 256)
  else if 0x10 ≤ o && o ≤ 0x48 then (match shownSet s v with | some x => readSet s x o | none => 0)
  else assocD 0 o [
    (0x00, pk [(63, 40, sumBy (fun x => if x.st = .resident then x.tiles.length else 0) w.sets), (8, 0, w.sets.length)]),
    (0x50, k),
    (0x58, if s.pool.tables && inService s k then
        pk [(49, 32, 196608 - (metaUsed s k).1), (17, 0, 196608 - (metaUsed s k).2)] else 0),
    (0x60, pk [(63, 48, w.lost), (47, 32, w.poisoned), (31, 16, w.refused), (15, 0, w.dedup)])]

/-- The KV object that KV_SEL names, if the requester may see it (09 R404). -/
def shownObj (s : State) (v : View) : Option KvObj :=
  (kvAt s (v.x.kv % 2 ^ 20)).bind fun x => if sees v x.tid then some x else none

/-- Frames that more than one object references (09 R403). -/
def sharedFrames (s : State) : Nat :=
  let fs := s.kv.objs.map fun x => (x.pages.map fun p => (p.frame.stack, p.frame.ofs)).eraseDups
  countIf (fun f => decide (1 < countIf (fun l => l.contains f) fs)) fs.flatten.eraseDups

/-- KV registers of the selected object. -/
def readObj (v : View) (x : KvObj) (o : Nat) : Nat :=
  let l := v.x.kvLayer % 256
  assocD 0 o [
    (0x10, pk [(63, 63, 1), (62, 61, b2n (x.st == .lost)), (59, 48, x.tid), (47, 40, x.gen), (39, 39, b2n x.mx),
      (38, 38, b2n (x.headDim == 128)), (37, 32, x.heads - 1), (31, 24, x.layers - 1), (8, 0, kvT x)]),
    (0x18, pk [(52, 32, x.maxTok), (20, 0, x.sharedLen)]),
    (0x20, l),
    (0x28, if l < x.layers then pk [(20, 0, nth 0 x.lens l)] else 0),
    (0x30, pk [(56, 32, countIf (fun p => p.frame.maker = x.idx) x.pages), (24, 0, sumBy Prod.snd x.resv)])]

/-- KV registers. -/
def readKv (s : State) (v : View) (o : Nat) : Nat :=
  let c := s.kv
  if o = 0x08 then selShown v (shownObj s v).isSome (v.x.kv % 2 ^ 20)
  else if 0x10 ≤ o && o ≤ 0x30 then
    match shownObj s v with
    | some x => readObj v x o
    | none => if o = 0x20 then selShown v false (v.x.kvLayer % 256) else 0
  else assocD 0 o [
    (0x00, pk [(56, 32, sharedFrames s), (20, 0, c.objs.length)]),
    (0x38, pk [(63, 48, c.expired), (47, 32, c.lost), (31, 16, c.cow), (15, 0, c.immutable)])]

/-! QOS, DRC (12 R515, R516) -/

/-- The shaper values that QOS_SHP reads: those set last. -/
def shownShp (s : State) (tid : Nat) : ShpCfg :=
  match s.qos.shp.find? fun x => x.tid = tid with
  | some x => x.next
  | none => imgShp s tid

/-- A shaper runs for a tenant: enabled and not PARTITIONED (12 R498, R502). -/
def shaped (s : State) (tid : Nat) : Bool :=
  (match tenantOf s tid with | some t => t.enabled | none => false) && !isPart s tid

/-- QOS registers. -/
def readQos (s : State) (v : View) (o : Nat) : Nat :=
  let tid := v.x.qosTid % 4096
  let k := v.x.qosPort % 64
  let c := shownShp s tid
  let b := bucketAt s k tid
  let slots := match s.qos.parts.find? fun p => p.tid = tid with | some p => p.slots | none => []
  assocD 0 o [
    (0x00, pk [(21, 16, k), (11, 0, tid)]),
    (0x08, pk [(53, 48, c.overhead), (44, 32, c.burst), (17, 0, c.rate)]),
    (0x10, if shaped s tid then pk [(54, 32, bucketBytes b), (22, 0, b.tokens)] else 0),
    (0x18, pk [(16, 16, b2n (isPart s tid)), (15, 8, leastOf slots), (7, 0, slots.length)]),
    (0x20, pk [(47, 0, (portAt s k).vt)]),
    (0x28, pk [(63, 48, queueWeight s 3), (47, 32, queueWeight s 2), (31, 16, queueWeight s 1), (15, 0, queueWeight s 0)]),
    (0x30, pk [(63, 48, queueWeight s 7), (47, 32, queueWeight s 6), (31, 16, queueWeight s 5), (15, 0, queueWeight s 4)]),
    (0x38, pk [(63, 48, s.qos.partLate), (47, 32, s.qos.shpFull), (31, 16, s.qos.partClamp)])]

/-- The channel of a stack that pauses for its retraining (12 R512, R515). -/
def trainNow (s : State) (x : Stk) : Option Nat :=
  x.trainCh.bind fun c => if s.now < assocD 0 c x.lastTrain + 1000 then some c else none

/-- DRC registers; those of a stack not in service read 0 (12 R516). -/
def readDrc (s : State) (v : View) (o : Nat) : Nat :=
  let k := v.x.drcStk % 32
  let x := stackAt s k
  if o = 0x00 then k
  else if o = 0x08 then s.img.ageNs % 2 ^ 32
  else if !stackServes s k then 0
  else assocD 0 o [
    (0x10, pk [(37, 37, b2n (trainNow s x).isSome), (36, 32, (trainNow s x).getD 0), (28, 16, x.wq.length),
      (0, 0, b2n x.selfRef)]),
    (0x18, pk [(63, 32, x.wrMbps), (31, 0, x.rdMbps)]),
    (0x20, pk [(63, 32, x.promoted), (31, 16, x.rawWait), (15, 0, x.srEntries)])]

/-! ECC, TRV (13 R547) -/

/-- ECC_TNT_CE as the requester sees it (13 R535; 14 R591). -/
def shownCe (s : State) (v : View) : Nat :=
  let ce := match s.vrb.load.find? fun r => r.tid = viewTid v with | some r => r.ce | none => 0
  match v.q with
  | .mgmt _ => ce
  | .page tid => if ceShown s tid then ce / 16 * 16 else 0

/-- ECC registers. -/
def readEcc (s : State) (v : View) (o : Nat) : Nat :=
  let e := s.ecc
  let k := v.x.eccStk % 32
  let x := stackAt s k
  if 0x110 ≤ o && o ≤ 0x188 then (nth 0 e.injData ((o - 0x110) / 8)).toNat
  else if o = 0x190 || o = 0x198 then (nth 0 e.injChk ((o - 0x190) / 8)).toNat
  else assocD 0 o [
    (0x00, pk [(56, 56, b2n s.img.ceBucket), (55, 40, s.img.bucketDepth), (19, 0, s.img.leakPerS)]),
    (0x08, k),
    (0x10, pk [(63, 48, x.ovf), (47, 32, x.ueLines), (31, 0, x.ceLines)]),
    (0x18, pk [(40, 32, x.spareUsed), (15, 0, x.bucket / 1000)]),
    (0x20, bitSet 64 fun c => (assoc c x.erase).isSome),
    (0x28, x.flags.toNat),
    (0x30, pk [(47, 32, e.replaced), (6, 0, e.log.length)]),
    (0x38, v.x.eccLog % 64),
    (0x40, v.x.logE0.toNat),
    (0x48, v.x.logE1.toNat),
    (0x58, pk [(55, 48, e.sramLast), (47, 32, e.sramUe), (31, 0, e.sramCe)]),
    (0x60, pk [(15, 0, e.sramBucket / 1000)]),
    (0x68, pk [(55, 48, e.lastIdx), (47, 32, e.splits), (31, 0, e.repairs)]),
    (0x70, pk [(31, 0, shownCe s v)]),
    (0x100, e.injCtl.toNat),
    (0x108, pk [(63, 63, b2n e.injArmed.isSome), (52, 48, match e.injArmed with | some a => a.1 | none => 0),
      (46, 32, match e.injArmed with | some a => a.2 | none => 0), (15, 8, e.injResult), (7, 6, e.injOutcome),
      (2, 0, e.injSyms)])]

/-- The code of a pass's state (13 R547). -/
def trvCode : TrvState → Nat
  | .idle => 0 | .running => 1 | .done => 2

/-- TRV registers of the requester's page. -/
def readTrv (s : State) (v : View) (o : Nat) : Nat :=
  let p := trvPage s (trvPageOf v.q)
  if 0x40 ≤ o && o ≤ 0x78 then digestWord p.sum ((o - 0x40) / 8)
  else assocD 0 o [
    (0x00, p.tgt.toNat),
    (0x08, p.addr.toNat),
    (0x10, p.len),
    (0x20, pk [(55, 48, p.result), (41, 40, trvCode p.st), (39, 0, p.linesDone)])]

/-! CRN, SEC, ONX (14 R593; 15 R627) -/

/-- CRN registers. -/
def readCrn (s : State) (o : Nat) : Nat :=
  let c := s.crn
  if 0x20 ≤ o && o ≤ 0x38 then
    let k := 4 * ((o - 0x20) / 8)
    pk [(63, 48, nth 0 c.merge (k + 3)), (47, 32, nth 0 c.merge (k + 2)), (31, 16, nth 0 c.merge (k + 1)), (15, 0, nth 0 c.merge k)]
  else if 0x40 ≤ o && o ≤ 0x78 then (match c.q with | r :: _ => digestWord (cairnBytes r) ((o - 0x40) / 8) | [] => 0)
  else assocD 0 o [
    (0x00, pk [(63, 63, b2n c.overflow), (62, 62, b2n c.critFull), (26, 16, countIf (fun r => critical r.cls r.kind) c.q),
      (10, 0, c.q.length)]),
    (0x08, pk [(31, 0, c.dropped)]),
    (0x10, c.nextSeq.toNat)]

/-- The code of a peer's security state (14 R593). -/
def secCode : SecState → Nat
  | .none => 0 | .handshake => 1 | .active => 2 | .blockedAuth => 3 | .blockedMgmt => 4

/-- SEC_PEER_STATE (14 R593, R594). -/
def peerState (p : SecPeer) : Nat :=
  if p.st = .none && p.fails = 0 then 0
  else pk [(63, 63, 1), (58, 56, secCode p.st), (55, 55, b2n p.requester), (52, 48, p.fails), (47, 32, p.keyGen), (31, 16, p.inc)]

/-- SEC registers. -/
def readSec (s : State) (v : View) (o : Nat) : Nat :=
  let c := s.sec
  let open' := fun r => countIf (fun (x : Sess) => x.role == r) s.mgmt.sess
  assocD 0 o [
    (0x00, pk [(46, 32, c.peak), (24, 16, handshakes s), (14, 0, sessions s)]),
    (0x08, v.x.sec % 2 ^ 20),
    (0x10, match secOf s (v.x.sec % 2 ^ 20) with | some p => peerState p | none => 0),
    (0x20, pk [(63, 48, c.hsFail), (47, 32, c.blocks), (31, 16, c.noSession), (15, 0, c.authFail)]),
    (0x28, pk [(39, 24, s.mgmt.hsFail), (7, 4, open' .auditor), (3, 0, open' .operator)])]

/-- The code of a tenant key slot's state (14 R593). -/
def tkeyCode : TkeyState → Nat
  | .empty => 0 | .active => 1 | .failed => 2

/-- ONX registers, but for the nonce, which each read draws afresh. -/
def readOnx (s : State) (v : View) (o : Nat) : Nat :=
  let x := s.onx
  if 0x30 ≤ o && o ≤ 0x58 then digestWord x.romDigest ((o - 0x30) / 8)
  else if 0x60 ≤ o && o ≤ 0x88 then digestWord x.patchDigest ((o - 0x60) / 8)
  else assocD 0 o [
    (0x00, pk [(7, 7, b2n x.drbgFail), (3, 3, b2n x.aliasReady), (2, 2, b2n x.udsLocked), (1, 0, x.layer)]),
    (0x08, pk [(47, 32, s.fuse.pending.toNat), (31, 16, s.fuse.revoked.toNat), (15, 0, s.fuse.prog.toNat)]),
    (0x18, v.x.tkey % 4096),
    (0x20, match x.tkeys.find? fun k => k.tid = v.x.tkey % 4096 with
      | some k => pk [(23, 8, k.gen), (1, 0, tkeyCode k.st)]
      | none => 0),
    (0x28, pk [(40, 32, countIf (fun w => w.st == .resident) s.ws.sets), (8, 0, s.fe.plans.length)]),
    (0x90, pk [(63, 48, x.reseed), (47, 32, x.keyUe), (31, 16, x.unwrapFail), (15, 0, x.sysDenied)])]

/-! BEL, CP, PWR (15 R627; 16 R652, R653) -/

/-- A threshold of a channel; channels without a class have none (15 R610). -/
def shownThr (ch : Nat) (x : Option Int) : Nat := if 92 ≤ ch then 0 else thrBits (chanGroup ch).low x

/-- 32-bit two's complement. -/
def int32 (x : Int) : Nat := (x % 2 ^ 32).toNat

/-- BEL registers. -/
def readBel (s : State) (v : View) (o : Nat) : Nat :=
  let b := s.bel
  let ch := min 95 (v.x.belCh % 128)
  let c := chanAt s ch
  let g := chanGroup ch
  if 0x80 ≤ o && o ≤ 0xB8 then
    (match s.crn.ret[v.x.belRet % 64]? with | some r => digestWord (cairnBytes r) ((o - 0x80) / 8) | none => 0)
  else assocD 0 o [
    (0x00, (belState s).toNat),
    (0x08, ch),
    (0x10, pk [(63, 32, int32 c.filt), (31, 0, int32 (c.raw.headD 0))]),
    (0x18, pk [(63, 32, shownThr ch c.cap), (31, 0, shownThr ch c.alert)]),
    (0x20, pk [(63, 32, shownThr ch c.emerg), (31, 0, shownThr ch c.orderly)]),
    (0x28, pk [(39, 37, lvl c.level), (36, 36, b2n g.low), (35, 33, g.cls), (31, 0, shownThr ch c.restart)]),
    (0x30, pk [(63, 48, b.capW), (31, 16, int32 (chanAt s 76).filt)]),
    (0x38, pk [(63, 48, b.stkFail), (47, 32, b.capSteps), (31, 16, b.alerts), (15, 0, b.hangDecl)]),
    (0x40, (belRetStatus s).toNat),
    (0x48, v.x.belRet % 64)]

/-- CP registers. -/
def readCp (s : State) (o : Nat) : Nat :=
  let c := s.cp
  assocD 0 o [
    (0x00, cpRole s),
    (0x08, pk [(47, 40, c.lastCode), (39, 24, c.gapUs), (15, 0, c.switches)]),
    (0x10, pk [(63, 56, c.cp1.fails), (55, 48, c.cp0.fails), (31, 24, c.cp1.last), (23, 16, c.cp0.last)]),
    (0x18, pk [(63, 32, c.lastCycle.toNat), (31, 16, c.mismatch), (15, 0, c.late)]),
    (0x20, pk [(6, 0, c.patches)])]

/-- The code of a laser bank's state (16 R652). -/
def laserCode : LaserState → Nat
  | .off => 0 | .active => 1 | .standby => 2 | .failed => 3

/-- PWR registers. -/
def readPwr (s : State) (o : Nat) : Nat :=
  let p := s.pwr
  assocD 0 o [
    (0x00, pk [(21, 16, p.slotId.toNat), (5, 5, b2n p.ovp), (4, 4, b2n p.pgood), (3, 3, b2n p.resetN), (2, 2, b2n p.en),
      (1, 1, b2n p.inrushDone), (0, 0, b2n p.standbyOk)]),
    (0x08, if s.fuse.variant = .c3240E then 0
      else pk [(31, 16, p.laserSw), (3, 2, laserCode p.laserB), (1, 0, laserCode p.laserA)]),
    (0x18, pk [(19, 18, p.hdrB), (17, 16, p.hdrA), (3, 3, b2n p.sfdpB), (2, 2, b2n p.sfdpA), (1, 1, b2n p.presentB),
      (0, 0, b2n p.presentA)]),
    (0x20, pk [(49, 49, b2n p.link1), (48, 48, b2n p.link0), (47, 0, s.fuse.mac0.toNat)])]

/-! The window (17 R654, R655) -/

/-- The block of an offset of the control window. -/
def blockOf (a : Nat) : Nat := a / 2 ^ 20

/-- What an offset of the control window reads; one that holds no register, 0 (17 R654). -/
def readAt (s : State) (v : View) (a : Nat) : Nat :=
  let o := a % 2 ^ 20
  match blockOf a with
  | 0x00 => readGlb s o | 0x01 => readBoot s o | 0x02 => readLnk s v o | 0x03 => readRte s v o | 0x04 => readE2e s v o
  | 0x05 => readTnt s v o | 0x06 => readWin s o | 0x07 => readXt s v o | 0x08 => readAnc s o | 0x09 => readCoh s v o
  | 0x0A => readVrb s v o | 0x0B => readFe s v o | 0x0C => readBar s v o | 0x0D => readWs s v o | 0x0E => readKv s v o
  | 0x0F => readQos s v o | 0x10 => readDrc s v o | 0x11 => readEcc s v o | 0x12 => readTrv s v o | 0x13 => readCrn s o
  | 0x14 => readSec s v o | 0x15 => readOnx s v o | 0x16 => readBel s v o | 0x17 => readCp s o | 0x18 => readPwr s o
  | _ => 0

end Sys2Proof.Machine
end

