-- ==== Sys2Proof/Machine/Security.lean ====
section
/-! DEFINITION. The commands of the root of trust and of the fabric sessions (14_security_and_isolation R552 to R582). -/

namespace Sys2Proof.Machine

/-! System keys (14 R552, R553) -/

/-- SLOT of a SYSKEY_PROGRAM or SYSKEY_REVOKE; the order of the parts of the request is the model's (log entry 31). -/
def sysSlot (req : List Byte) : Nat := field req 0 1
/-- SIGNER. -/
def sysSigner (req : List Byte) : Nat := field req 1 1

/-- The signature of a system key verb verifies under the challenge now valid: serial number, challenge, SLOT, and the key
of a PROGRAM. -/
def sysSigned (s : State) (req key sig : List Byte) : Bool :=
  match s.onx.nonce with
  | none => false
  | some n => Config.ecdsaVerify (keyOf s (sysSigner req))
      (sha384 (le 8 s.glb.serial.toNat ++ le 8 n.toNat ++ le 1 (sysSlot req) ++ key)) sig

/-- The signer of a system key verb is a usable slot of 0 to 3. -/
def sysSignerOk (s : State) (req : List Byte) : Bool := decide (sysSigner req < 4) && keyUsable s (sysSigner req)

/-- A system key verb is denied. -/
def sysDeny (sess : Nat) (s : State) : State :=
  mgmtReply sess .denied [] (setOnx (fun o => { o with sysDenied := satAdd 16 o.sysDenied 1 }) s)

/-- A slot that SYSKEY_PROGRAM may program: 1 to 11, not programmed yet. -/
def sysFree (s : State) (slot : Nat) : Bool := decide (1 ≤ slot) && decide (slot ≤ 11) && !s.fuse.prog.getLsbD slot

/-- Program a slot: its fuse is blown at once, and it is usable from the next module reset. -/
def sysProgram (sess : Nat) (req : List Byte) (s : State) : State :=
  let slot := sysSlot req
  let key := slice req 2 97
  if !(sysSignerOk s req && sysSigned s req key (slice req 99 96) && sysFree s slot) then sysDeny sess s
  else mgmtReply sess .ok [] { s with fuse := { s.fuse with
    prog := s.fuse.prog ||| 1#16 <<< slot, pending := s.fuse.pending ||| 1#16 <<< slot
    keys := setAssoc slot key s.fuse.keys } }

/-- SYSKEY_PROGRAM. -/
def execSyskeyProgram (sess : Nat) (req : Bytes) (t : Nat) (s : State) : Host.Outcome State Fault Refusal :=
  .next (withSess sess t .operator (sysProgram sess req) s)

/-- Some slot of 0 to 3 stays usable without a slot. -/
def imageKeyLeft (s : State) (slot : Nat) : Bool := (List.range 4).any fun k => k ≠ slot && keyUsable s k

/-- Revoke a slot; with a fabric root every session under it ends (14 R553, R568). -/
def sysRevoke (sess : Nat) (req : List Byte) (s : State) : State :=
  let slot := sysSlot req
  if !(sysSignerOk s req && sysSigned s req [] (slice req 2 96) && decide (slot < 16) && imageKeyLeft s slot) then sysDeny sess s
  else
    let s := { s with fuse := { s.fuse with revoked := s.fuse.revoked ||| 1#16 <<< slot } }
    let gone := if 8 ≤ slot && slot ≤ 11 then s.sec.peers.filter fun p => p.st = .active && p.root = slot else []
    mgmtReply sess .ok [] (gone.foldl (fun s p => endSession p.node s) s)

/-- SYSKEY_REVOKE. -/
def execSyskeyRevoke (sess : Nat) (req : Bytes) (t : Nat) (s : State) : Host.Outcome State Fault Refusal :=
  .next (withSess sess t .operator (sysRevoke sess req) s)

/-- ONX_SYSKEY_NONCE_READ: a fresh challenge. -/
def execOnxSyskeyNonceRead (sess t : Nat) (s : State) : Host.Outcome State Fault Refusal :=
  .next (withSess sess t .read (fun s =>
    let (s, b) := draw 8 s
    let n := w64 (ofLe b)
    mgmtReply sess .ok [n] (setOnx (fun o => { o with nonce := some n }) s)) s)

/-- DRBG_FAIL: the first failure has a record and an alert (14 R556; 15 R623). -/
def execDrbgFail (t : Nat) (s : State) : Host.Outcome State Fault Refusal :=
  let s := atTime t s
  let first := !s.onx.drbgEver
  let s := setOnx (fun o => { o with drbgFail := true, drbgEver := true }) s
  .next (if first then cairnAlert 0x0D 2 0 0 0 s else s)

/-! SPDM (14 R564 to R571, R578) -/

/-- An answer that is sent as the state of its request says. -/
def plainAnswer (f : SpdmIn → State → State × List Byte) (m : SpdmIn) (_prov : Bool) (s : State) : State × List Byte × Bool :=
  let x := f m s
  (x.1, x.2, false)

/-- GET_VERSION. -/
def execGetVersion (m : SpdmIn) (s : State) : Host.Outcome State Fault Refusal :=
  .next (spdmServe (asCode m 0x84) (plainAnswer spdmVersion (asCode m 0x84)) s)

/-- GET_CAPABILITIES. -/
def execGetCapabilities (m : SpdmIn) (s : State) : Host.Outcome State Fault Refusal :=
  .next (spdmServe (asCode m 0xE1) (plainAnswer spdmCaps (asCode m 0xE1)) s)

/-- NEGOTIATE_ALGORITHMS. -/
def execNegotiateAlgorithms (m : SpdmIn) (s : State) : Host.Outcome State Fault Refusal :=
  .next (spdmServe (asCode m 0xE3) (plainAnswer spdmAlgs (asCode m 0xE3)) s)

/-- GET_DIGESTS. -/
def execGetDigests (m : SpdmIn) (s : State) : Host.Outcome State Fault Refusal :=
  .next (spdmServe (asCode m 0x81) (plainAnswer spdmDigests (asCode m 0x81)) s)

/-- GET_CERTIFICATE. -/
def execGetCertificate (m : SpdmIn) (s : State) : Host.Outcome State Fault Refusal :=
  .next (spdmServe (asCode m 0x82) (plainAnswer spdmCert (asCode m 0x82)) s)

/-- CHALLENGE. -/
def execChallenge (m : SpdmIn) (s : State) : Host.Outcome State Fault Refusal :=
  .next (spdmServe (asCode m 0x83) (plainAnswer spdmChallenge (asCode m 0x83)) s)

/-- GET_MEASUREMENTS. -/
def execGetMeasurements (m : SpdmIn) (s : State) : Host.Outcome State Fault Refusal :=
  .next (spdmServe (asCode m 0xE0) (plainAnswer (fun m s => spdmLimit m (spdmMeas m s)) (asCode m 0xE0)) s)

/-- KEY_EXCHANGE. -/
def execKeyExchange (m : SpdmIn) (s : State) : Host.Outcome State Fault Refusal :=
  .next (spdmServe (asCode m 0xE4) (fun prov s => plainAnswer (fun m s => spdmKeyEx m prov s) (asCode m 0xE4) prov s) s)

/-- FINISH. -/
def execFinish (m : SpdmIn) (s : State) : Host.Outcome State Fault Refusal :=
  .next (spdmServe (asCode m 0xE5) (spdmFinish (asCode m 0xE5)) s)

/-- KEY_UPDATE. -/
def execKeyUpdate (m : SpdmIn) (s : State) : Host.Outcome State Fault Refusal :=
  .next (spdmServe (asCode m 0xE9) (plainAnswer spdmKeyUpdate (asCode m 0xE9)) s)

/-- END_SESSION. -/
def execEndSession (m : SpdmIn) (s : State) : Host.Outcome State Fault Refusal :=
  .next (spdmServe (asCode m 0xEC) (plainAnswer spdmEnd (asCode m 0xEC)) s)

/-- CHUNK_SEND. -/
def execChunkSend (m : SpdmIn) (s : State) : Host.Outcome State Fault Refusal :=
  .next (spdmServe (asCode m 0x85) (spdmChunkSend (asCode m 0x85)) s)

/-- CHUNK_GET. -/
def execChunkGet (m : SpdmIn) (s : State) : Host.Outcome State Fault Refusal :=
  .next (spdmServe (asCode m 0x86) (plainAnswer spdmChunkGet (asCode m 0x86)) s)

/-- The message that an SPDM_CARRY brings: what its checks answer stands in functions without a body (log entry 14). -/
def carried (r : Req) (prov : Bool) (s : State) : SpdmIn :=
  { req := { r with opcode := 0x7F, subop := 1 }, ok := Config.spdmOk r.payload
    root := Config.spdmRoot r.src (match secOf s r.src with | some p => p.cert | none => [])
    inc := match peerOf s r.src prov with | some p => p.inc | none => 0 }

/-- Any SPDM request. -/
def spdmAny (m : SpdmIn) (prov : Bool) (s : State) : State × List Byte × Bool :=
  if spdmCode m.req.payload = 0x85 then spdmChunkSend m prov s else spdmAnswer m prov s

/-- SPDM_CARRY (14 R565). -/
def execSpdmCarry (r : Req) (e : Env) (s : State) : Host.Outcome State Fault Refusal :=
  .next (spdmServe { req := r, t := e.t } (fun prov s => spdmAny (carried r prov s) prov s) (applyAll e s))

/-! Blocks (14 R574, R575, R594) -/

/-- BLOCK. -/
def execBlock (sess node t : Nat) (s : State) : Host.Outcome State Fault Refusal :=
  .next (withWrite sess t (fun s => mgmtReply sess .ok [] (blockPeer (node % 2 ^ 20) .blockedMgmt s)) s)

/-- End a block and zero the failure count of a node. -/
def unblockPeer (node : Nat) (s : State) : State :=
  setSec (fun c => { c with peers := (mapIf (fun p => p.node = node) (fun p => { p with
    fails := 0, st := if p.st = .blockedAuth || p.st = .blockedMgmt then .none else p.st }) c.peers).filter keepSec }) s

/-- UNBLOCK. -/
def execUnblock (sess node t : Nat) (s : State) : Host.Outcome State Fault Refusal :=
  .next (withWrite sess t (fun s => mgmtReply sess .ok [] (unblockPeer (node % 2 ^ 20) s)) s)

end Sys2Proof.Machine
end

