-- ==== Sys2Proof/Machine/RegWrite.lean ====
section
/-! DEFINITION. What reads and writes of the control window do (17_register_map R656 to R671): the counts that a read clears, the
fields that a write sets or acts on, and the register page of a tenant. -/

namespace Sys2Proof.Machine

/-! Reads with an effect (17 R661; 01 R41; 14 R553) -/

/-- The address of a register: its block and its offset. -/
def regAt (blk o : Nat) : Nat := blk * 2 ^ 20 + o

/-- Clear the counts of the register that an address names, if it is a read-to-clear one; its other fields keep their value (17
R661). -/
def clearCounts (v : View) (a : Nat) (s : State) : State :=
  let k := v.x.eccStk % 32
  let d := v.x.drcStk % 32
  if a = regAt 0x00 0x020 then { s with glb := { s.glb with mgmtDenied := 0, tntDenied := 0 } }
  else if a = regAt 0x00 0x218 then setIsl (fun i => { i with lolCount := 0 }) s
  else if a = regAt 0x01 0x038 then setBoot (fun b => { b with unreachDrop := 0 }) s
  else if a = regAt 0x02 0x038 then
    modPort (v.x.lnk % 64) (fun p => { p with flaps := 0, fecUncorr := 0, replays := 0, crcErr := 0 }) s
  else if a = regAt 0x03 0x028 then setRte (fun r => { r with tc4Demote := 0, hopsDrop := 0, ageDrop := 0, noroute := 0 }) s
  else if a = regAt 0x04 0x028 then setE2e (fun e => { e with nodeLost := 0, evict := 0, retx := 0, stale := 0 }) s
  else if a = regAt 0x04 0x030 then setE2e (fun e => { e with streamDrop := 0, winDrop := 0, storeFull := 0, dup := 0 }) s
  else if a = regAt 0x06 0x008 then setPool (fun p => { p with revokeAbort := 0 }) s
  else if a = regAt 0x08 0x008 then
    if hasAnchors s then setPool (fun p => { p with ancRenewFail := 0, ancReclaims := 0, ancLosses := 0 }) s else s
  else if a = regAt 0x09 0x030 then setCoh (fun c => { c with leaseEnd := 0, busyFull := 0, recalls := 0, invals := 0 }) s
  else if a = regAt 0x0A 0x030 then setVrb (fun c => { c with busyCtx := 0, absent := 0, denied := 0, evtDrop := 0 }) s
  else if a = regAt 0x0B 0x058 then
    if hasEngines s then setFe (fun c => { c with bankColl := 0, parkFull := 0, deadlock := 0, quarantine := 0 }) s else s
  else if a = regAt 0x0B 0x068 then
    if hasEngines s then setFe (fun c => { c with escalated := 0, abftFail := 0, abftRetry := 0 }) s else s
  else if a = regAt 0x0D 0x060 then
    if hasEngines s then setWs (fun w => { w with lost := 0, poisoned := 0, refused := 0, dedup := 0 }) s else s
  else if a = regAt 0x0E 0x038 then setKv (fun c => { c with expired := 0, lost := 0, cow := 0, immutable := 0 }) s
  else if a = regAt 0x0F 0x038 then setQos (fun q => { q with partLate := 0, shpFull := 0, partClamp := 0 }) s
  else if a = regAt 0x10 0x020 then
    if stackServes s d then modStack d (fun x => { x with promoted := 0, rawWait := 0, srEntries := 0 }) s else s
  else if a = regAt 0x11 0x010 then modStack k (fun x => { x with ovf := 0, ueLines := 0, ceLines := 0 }) s
  else if a = regAt 0x11 0x058 then setEcc (fun e => { e with sramUe := 0, sramCe := 0 }) s
  else if a = regAt 0x11 0x068 then setEcc (fun e => { e with splits := 0, repairs := 0 }) s
  else if a = regAt 0x13 0x008 then setCrn (fun c => { c with dropped := 0, overflow := false }) s
  else if regAt 0x13 0x020 ≤ a && a ≤ regAt 0x13 0x038 then
    let i := 4 * ((a - regAt 0x13 0x020) / 8)
    setCrn (fun c => { c with merge := [i, i + 1, i + 2, i + 3].foldl (fun m j => modNth j (fun _ => 0) m) c.merge }) s
  else if a = regAt 0x14 0x020 then setSec (fun c => { c with hsFail := 0, blocks := 0, noSession := 0, authFail := 0 }) s
  else if a = regAt 0x15 0x090 then setOnx (fun x => { x with reseed := 0, keyUe := 0, unwrapFail := 0, sysDenied := 0 }) s
  else if a = regAt 0x16 0x038 then setBel (fun b => { b with stkFail := 0, capSteps := 0, alerts := 0, hangDecl := 0 }) s
  else s

/-- A register that is, or shows, a critical word reads it with the vote (13 R529). -/
def critOfReg (a : Nat) (s : State) : State :=
  if a = regAt 0x00 0x000 then critRead 0x1B s
  else if a = regAt 0x00 0x008 then critRead 0x19 s
  else if a = regAt 0x03 0x000 then critRead 0x00 s
  else s

/-- A fresh challenge (14 R553). -/
def readNonce (s : State) : State × BitVec 64 :=
  let (s, b) := draw 8 s
  let n := w64 (ofLe b)
  (setOnx (fun o => { o with nonce := some n }) s, n)

/-- One requester reads one register. -/
def readReg (q : Requester) (a : Nat) (s : State) : State × BitVec 64 :=
  if a = regAt 0x15 0x010 then readNonce s
  else
    let s := critOfReg a s
    let v := viewOf s q
    (clearCounts v a s, w64 (readAt s v a))

/-- Read n consecutive registers in rising order (17 R656). -/
def readRegs (q : Requester) : Nat → Nat → State → State × List (BitVec 64)
  | 0, _, s => (s, [])
  | n + 1, a, s =>
    let (s, x) := readReg q a s
    let (s, l) := readRegs q n (a + 8) s
    (s, x :: l)

/-- An offset that holds a register, or could: aligned and within the window, with a run of n (17 R656). -/
def inWindow (a n : Nat) : Bool := a % 8 == 0 && decide (a + 8 * (n - 1) ≤ 0x03FFFFF8)

/-! Writes (17 R661 to R664) -/

/-- A write of a _SEL register. -/
def sel (q : Requester) (ok : Bool) (f : Sels → Sels) (s : State) : State := if ok then setSels q f s else s

/-- The owner of an object may select it; management may select anything (17 R660). -/
def mayUse (q : Requester) (tid : Option Nat) : Bool :=
  match q, tid with | .mgmt _, _ => true | .page t, some x => t == x | .page _, none => false

/-- Writes of management to the blocks of the link and the router (10 R442, R443; 11 R489). -/
def writeFabric (q : Requester) (a v : Nat) (s : State) : State :=
  let x := selsOf s q
  let k := x.lnk % 64
  if a = regAt 0x02 0x00 then setSels q (fun x => { x with lnk := v % 64 }) s
  else if a = regAt 0x02 0x20 then writeLnkCtl k (w64 v) s
  else if a = regAt 0x02 0x28 then
    let s := if bit v 1 then clearHold k s else s
    if bit v 0 then portReset k rsLocalRetrain s else s
  else if a = regAt 0x02 0x40 then modPort k (fun p => { p with flags := writeW1c s.now p.flagsAt p.flags (BitVec.ofNat 6 v) }) s
  else if a = regAt 0x03 0x08 then setSels q (fun x => { x with rteCopy := bits v 12 12, rteGrp := bits v 11 0 }) s
  else if a = regAt 0x03 0x10 then grpSetWrite (x.rteCopy % 2 = 1) (x.rteGrp % 4096) (w64 v) s
  else if a = regAt 0x03 0x18 then if bit v 0 then flip s else s
  else if a = regAt 0x04 0x10 then setSels q (fun x => { x with e2e := v % 2 ^ 20 }) s
  else s

/-- The owner of the region, queue, barrier context, set, object or park record that an index names. -/
def ownerOfRegion (s : State) (i : Nat) : Option Nat := (regionAt s i).map Region.owner

/-- Writes to the engine registers (07 R308, R309; 08 R353 to R355). -/
def writeFe (q : Requester) (o v : Nat) (s : State) : State :=
  let x := selsOf s q
  let n := x.fe % 2048
  if !hasEngines s then s
  else if o = 0x00 then
    let m := min (v % 2048) (64 * stackCount s - 1)
    sel q (engShown s q m) (fun x => { x with fe := m }) s
  else if o = 0x10 then if engShown s q n then bankOwnWrite q n v s else s
  else if o = 0x18 then sel q (engShown s q n) (fun x => { x with sync := v % 32 }) s
  else if o = 0x38 then
    let i := v % 64
    sel q (mayUse q ((s.fe.parks.find? fun k => k.idx = i).map Park.tid)) (fun x => { x with park := i }) s
  else if o = 0x50 then
    if bits v 9 8 = 1 then parkAct q (v % 64) parkRetry s else if bits v 9 8 = 2 then parkAct q (v % 64) parkAbort s else s
  else if o = 0x60 then
    if engShown s q n then modEng n (fun e => { e with aflags := writeW1c s.now e.aflagsAt e.aflags (BitVec.ofNat 8 v) }) s else s
  else if o = 0x78 then if bit v 0 then abftClr q s else s
  else s

/-- LAYER as a write of KV_LAYER_SEL sets it: clamped to the layers of the selected object (09 R403; 17 R666). -/
def layerSel (s : State) (q : Requester) (v : Nat) : Nat :=
  match shownObj s (viewOf s q) with
  | some x => min (v % 256) (x.layers - 1)
  | none => v % 256

/-- Writes to the registers of pool objects, sets and KV objects (04 R182; 05 R218; 06 R260; 07 R308; 09 R403, R404). -/
def writeObjects (q : Requester) (a v : Nat) (s : State) : State :=
  if a = regAt 0x05 0x00 then setSels q (fun x => { x with tnt := v % 4096 }) s
  else if a = regAt 0x07 0x08 then setSels q (fun x => { x with xtStk := min (v % 32) (stackCount s - 1) }) s
  else if a = regAt 0x09 0x08 then
    sel q (mayUse q (ownerOfRegion s (v % 65536))) (fun x => { x with coh := v % 65536 }) s
  else if a = regAt 0x0A 0x18 then
    sel q (mayUse q ((bqAt s (v % 4096)).map Bq.owner)) (fun x => { x with bq := v % 4096 }) s
  else if blockOf a = 0x0B then writeFe q (a % 2 ^ 20) v s
  else if a = regAt 0x0C 0x00 then
    sel q (hasEngines s && mayUse q ((barAt s (v % 256)).map Bar.tid)) (fun x => { x with bar := v % 256 }) s
  else if a = regAt 0x0D 0x08 then
    sel q (hasEngines s && mayUse q ((s.ws.sets.find? fun x => x.idx = v % 256).map Wset.tid)) (fun x => { x with ws := v % 256 }) s
  else if a = regAt 0x0D 0x50 then
    sel q (hasEngines s) (fun x => { x with wsStk := min (v % 32) (stackCount s - 1) }) s
  else if a = regAt 0x0E 0x08 then
    sel q (mayUse q ((kvAt s (v % 2 ^ 20)).map KvObj.tid)) (fun x => { x with kv := v % 2 ^ 20 }) s
  else if a = regAt 0x0E 0x20 then
    sel q (mayUse q ((shownObj s (viewOf s q)).map KvObj.tid)) (fun x => { x with kvLayer := layerSel s q v }) s
  else s

/-- Writes to the TRV registers of the requester's page; a page's pass is started by the node that writes (13 R541, R547). -/
def writeTrv (q : Requester) (node o v : Nat) (s : State) : State :=
  let p := trvPageOf q
  if o = 0x00 then modTrv p (fun x => { x with tgt := BitVec.ofNat 32 v }) s
  else if o = 0x08 then modTrv p (fun x => { x with addr := w64 v }) s
  else if o = 0x10 then modTrv p (fun x => { x with len := clampTo 128 (2 ^ 36) v }) s
  else if o = 0x18 then
    let s := if bit v 0 then trvStart p node s else s
    if bit v 1 then trvStop p 1 s else s
  else s

/-- Writes of management to the shapers, the stacks, memory integrity and the control plane (12 R515; 13 R547; 14 R593; 15 R627; 16
R652). -/
def writeService (sess a v : Nat) (s : State) : State :=
  let q := Requester.mgmt sess
  let x := selsOf s q
  let stk := min (v % 32) (stackCount s - 1)
  let o := a % 2 ^ 20
  if a = regAt 0x00 0x28 then { s with glb := { s.glb with scratch := w64 v } }
  else if a = regAt 0x00 0x30 then { s with glb := { s.glb with scratch := s.glb.scratch ||| w64 v } }
  else if a = regAt 0x0F 0x00 then setSels q (fun x => { x with qosPort := bits v 21 16, qosTid := bits v 11 0 }) s
  else if a = regAt 0x0F 0x08 then writeShp (x.qosTid % 4096) v s
  else if a = regAt 0x10 0x00 then setSels q (fun x => { x with drcStk := stk }) s
  else if a = regAt 0x11 0x08 then setSels q (fun x => { x with eccStk := stk }) s
  else if a = regAt 0x11 0x28 then
    modStack (x.eccStk % 32) (fun x => { x with flags := writeW1c s.now x.flagsAt x.flags (BitVec.ofNat 5 v) }) s
  else if a = regAt 0x11 0x38 then latchLog sess v s
  else if a = regAt 0x11 0x50 then if bit v 0 then setEcc (fun e => { e with log := [] }) s else s
  else if a = regAt 0x11 0x100 then injWrite (injOp v) v s
  else if blockOf a = 0x11 && 0x110 ≤ o && o ≤ 0x188 then
    setEcc (fun e => { e with injData := modNth ((o - 0x110) / 8) (fun _ => w64 v) e.injData }) s
  else if blockOf a = 0x11 && (o = 0x190 || o = 0x198) then
    setEcc (fun e => { e with injChk := modNth ((o - 0x190) / 8) (fun _ => w64 v) e.injChk }) s
  else if a = regAt 0x13 0x18 then crnPop (BitVec.ofNat 32 v) s
  else if a = regAt 0x14 0x08 then setSels q (fun x => { x with sec := v % 2 ^ 20 }) s
  else if a = regAt 0x14 0x18 then
    if bit v 0 && bit v 1 then s
    else if bit v 0 then blockPeer (x.sec % 2 ^ 20) .blockedMgmt s
    else if bit v 1 then unblockPeer (x.sec % 2 ^ 20) s
    else s
  else if a = regAt 0x15 0x18 then setSels q (fun x => { x with tkey := v % 4096 }) s
  else if a = regAt 0x16 0x08 then setSels q (fun x => { x with belCh := min 95 (v % 128) }) s
  else if a = regAt 0x16 0x48 then setSels q (fun x => { x with belRet := v % 64 }) s
  else if a = regAt 0x17 0x28 then if bit v 0 && cpsRun s then forceSwitch s else s
  else if a = regAt 0x18 0x10 then if bit v 0 then setPwr (laserSwitch .standby) s else s
  else s

/-- A write to an offset of the control window; read-only registers and offsets without a register have no effect (17 R654,
R661). -/
def writeReg (q : Requester) (node a v : Nat) (s : State) : State :=
  if blockOf a = 0x12 then writeTrv q node (a % 2 ^ 20) v s
  else if (0x05 ≤ blockOf a && blockOf a ≤ 0x0E) then writeObjects q a v s
  else match q with
    | .page _ => s
    | .mgmt sess =>
      if 0x02 ≤ blockOf a && blockOf a ≤ 0x04 then writeFabric q a v s else writeService sess a v s

/-! The tenant page (17 R657 to R660) -/

/-- The sections of a tenant page: first offset, last offset, block (17 R658). -/
def pageSections : List (Nat × Nat × Nat) := [
  (0x000, 0x0FF, 0x00), (0x100, 0x17F, 0x05), (0x180, 0x1FF, 0x09), (0x200, 0x27F, 0x0A), (0x280, 0x2FF, 0x11),
  (0x300, 0x3FF, 0x0B), (0x400, 0x5FF, 0x0C), (0x600, 0x67F, 0x0D), (0x680, 0x6FF, 0x0E), (0x700, 0x77F, 0x12)]

/-- Offsets of a block that its chapter shows in tenant pages (17 R659; 04 R182; 05 R218; 06 R260; 07 R309; 08 R355; 09 R404;
13 R547). -/
def pageShows (blk o : Nat) : Bool :=
  match blk with
  | 0x00 => o ≤ 0x08
  | 0x05 => o = 0x10 || o = 0x18
  | 0x09 => 0x08 ≤ o && o ≤ 0x20
  | 0x0A => o = 0x08 || (0x18 ≤ o && o ≤ 0x28)
  | 0x11 => o = 0x70
  | 0x0B => o ≤ 0x20 || (0x38 ≤ o && o ≤ 0x50) || o = 0x60
  | 0x0C => o ≤ 0x10 || 0x100 ≤ o
  | 0x0D => 0x08 ≤ o && o ≤ 0x48
  | 0x0E => 0x08 ≤ o && o ≤ 0x30
  | 0x12 => true
  | _ => false

/-- The register that a page offset reaches, if the page shows it (17 R658, R659). -/
def pageReg (p : Nat) : Option Nat :=
  (pageSections.find? fun x => decide (x.1 ≤ p) && decide (p ≤ x.2.1)).bind fun x =>
    if pageShows x.2.2 (p - x.1) then some (regAt x.2.2 (p - x.1)) else none

/-- A tenant reads its page; what the page does not show reads 0. -/
def pageRead (tid p : Nat) (s : State) : State × BitVec 64 :=
  match pageReg p with
  | some a => readReg (.page tid) a s
  | none => (s, 0)

/-- A tenant writes its page. -/
def pageWrite (tid node p v : Nat) (s : State) : State :=
  match pageReg p with
  | some a => writeReg (.page tid) node a v s
  | none => s

/-- A LOAD or STORE with CTL set (17 R657, R672; 06 R230). -/
def pageAccess (w : Waiting) (s : State) : State :=
  let r := w.req
  let load := r.opcode = 1
  if 4096 ≤ reqVa r || reqVa r % 8 ≠ 0 || reqLen r ≠ 8 || reqCached r || (!load && r.opcode ≠ 2) || (!load && reqSlots r = 0) then
    ctlDenied w s
  else if load then
    let (s, x) := pageRead (reqTid r) (reqVa r) s
    reply w { mkResp s r .ok with payload := le 8 x.toNat } s
  else replySt w .ok (pageWrite (reqTid r) r.src (reqVa r) (field r.payload 0 8) s)

end Sys2Proof.Machine
end

