-- ==== Sys2Proof/Machine/MemVerbs.lean ====
section
/-! DEFINITION. The memory verbs: LOAD, STORE, STORE_NOTIFY and ATOMIC (06_pool_verbs R230 to R235). -/

namespace Sys2Proof.Machine

/-- A memory verb: with CTL set it reaches the tenant page (17 R657), else its window, after the earlier STORE and ATOMIC verbs to
its lines (06 R255). -/
def memVerb (w : Waiting) (s : State) : State :=
  if reqCtl w.req then pageAccess w s else if overtakes s w then waitFor w .inbox s else memAttempt w [] s

/-- A request with CACHED as a row says. -/
def withCached (c : Bool) (r : Req) : Req := { r with flags := if c then r.flags ||| 1 else r.flags &&& 0xFFFE }

/-- LOAD, uncached. -/
def execLoad (r : Req) (e : Env) (s : State) : Host.Outcome State Fault Refusal :=
  .next (runVerb (withCached false { r with opcode := 0x01 }) e memVerb (applySram e (atTime e.t s)))

/-- LOAD, cached, with intent S or M. -/
def execLoadCached (r : Req) (e : Env) (s : State) : Host.Outcome State Fault Refusal :=
  .next (runVerb (withCached true { r with opcode := 0x01 }) e memVerb (applySram e (atTime e.t s)))

/-- STORE. -/
def execStore (r : Req) (e : Env) (s : State) : Host.Outcome State Fault Refusal :=
  .next (runVerb { r with opcode := 0x02 } e memVerb (applySram e (atTime e.t s)))

/-- STORE_NOTIFY: it waits for the earlier writes of its source to its window (06 R235). -/
def execStoreNotify (r : Req) (e : Env) (s : State) : Host.Outcome State Fault Refusal :=
  .next (runVerb { r with opcode := 0x03 } e memVerb (applySram e (atTime e.t s)))

/-- The STORE_NOTIFY of a source that waits, by its TAG. -/
def notifyOf (s : State) (src tag : Nat) : Option Waiting :=
  s.vrb.waiting.find? fun w => w.why = .notify && w.req.src = src && w.req.tag.toNat = tag

/-- STORE_NOTIFY_RELEASE: the earlier writes have completed, so the held data commits (06 R235). -/
def execStoreNotifyRelease (src tag : Nat) (e : Env) (s : State) : Host.Outcome State Fault Refusal :=
  let s := applySram e (applyEnv e s)
  .next (match notifyOf s src tag with
    | some w => if earlierWrites s w then s else retryOne w [] s
    | none => s)

/-- An ATOMIC with its OP (06 R233). -/
def atomicReq (op : Byte) (r : Req) : Req := { r with opcode := 0x04, subop := r.subop &&& 0xF8 ||| op }

/-- The SUBOP of FETCH: OP 0 and the reserved codes (06 R233). -/
def fetchSubop (b : Byte) : Byte := if b &&& 7 = 6 || b &&& 7 = 7 then b else b &&& 0xF8

/-- ATOMIC FETCH. -/
def execAtomicFetch (r : Req) (e : Env) (s : State) : Host.Outcome State Fault Refusal :=
  .next (runVerb { r with opcode := 0x04, subop := fetchSubop r.subop } e memVerb (applySram e (atTime e.t s)))

/-- ATOMIC ADD. -/
def execAtomicAdd (r : Req) (e : Env) (s : State) : Host.Outcome State Fault Refusal :=
  .next (runVerb (atomicReq 1 r) e memVerb (applySram e (atTime e.t s)))

/-- ATOMIC SWAP. -/
def execAtomicSwap (r : Req) (e : Env) (s : State) : Host.Outcome State Fault Refusal :=
  .next (runVerb (atomicReq 2 r) e memVerb (applySram e (atTime e.t s)))

/-- ATOMIC CAS. -/
def execAtomicCas (r : Req) (e : Env) (s : State) : Host.Outcome State Fault Refusal :=
  .next (runVerb (atomicReq 3 r) e memVerb (applySram e (atTime e.t s)))

/-- ATOMIC MIN. -/
def execAtomicMin (r : Req) (e : Env) (s : State) : Host.Outcome State Fault Refusal :=
  .next (runVerb (atomicReq 4 r) e memVerb (applySram e (atTime e.t s)))

/-- ATOMIC MAX. -/
def execAtomicMax (r : Req) (e : Env) (s : State) : Host.Outcome State Fault Refusal :=
  .next (runVerb (atomicReq 5 r) e memVerb (applySram e (atTime e.t s)))

end Sys2Proof.Machine
end

