-- ==== Sys2Proof/Machine/Stage.lean ====
section
/-! DEFINITION. Staging of an image into the idle slot (03_salven_image R114 to R119). -/

namespace Sys2Proof.Machine

/-- Change the flash device of a slot. -/
def modDev (x : SlotName) (f : FlashDev → FlashDev) (s : State) : State :=
  { s with flash := if x = .slotB then { s.flash with b := f s.flash.b } else { s.flash with a := f s.flash.a } }

/-- Another session stages (03 R117). -/
def otherStages (sess : Nat) (s : State) : Bool :=
  match s.boot.stageSess with
  | some x => x ≠ sess
  | none => false

/-- A staging verb: BUSY while another session stages. -/
def staging (sess t : Nat) (f : State → State) (s : State) : State :=
  withSess sess t .stage (fun s => if otherStages sess s then mgmtReply sess .busy [] s else f s) s

/-- BEGIN: the idle slot is erased, markers included (03 R115, R119). -/
def stageBegin (sess : Nat) (s : State) : State :=
  if s.boot.st = .leaving then mgmtReply sess .busy [] s
  else
    let x := idleSlot s
    mgmtReply sess .ok [] (setBoot (fun b => { b with
      stage := .writing, stageTarget := x, stageReason := 0, stageWritten := 0, stageEnd := 0, stageSess := some sess })
      (modDev x (fun d => { d with commit := 0xFF, supersede := 0xFF, image := [] }) s))

/-- IMAGE_STAGE_BEGIN. -/
def execImageStageBegin (sess t : Nat) (s : State) : Host.Outcome State Fault Refusal :=
  .next (staging sess t (stageBegin sess) s)

/-- Program bytes of an erased slot. -/
def programAt (ofs : Nat) (data image : List Byte) : List Byte :=
  let l := image.take ofs
  l ++ List.replicate (ofs - l.length) 0xFF ++ data

/-- WRITE: at or above the end of the previous write and within the slot (03 R115, R116). -/
def stageWrite (sess ofs : Nat) (data : List Byte) (s : State) : State :=
  let (s, data) := if data.isEmpty then freeBytes 1 s else (s, data.take 65536)
  if s.boot.stage ≠ .writing || 0x400000 < ofs + data.length || ofs < s.boot.stageEnd then mgmtReply sess .denied [] s
  else
    mgmtReply sess .ok [] (setBoot (fun b => { b with
      stageWritten := b.stageWritten + data.length, stageEnd := ofs + data.length })
      (modDev s.boot.stageTarget (fun d => { d with image := programAt ofs data d.image }) s))

/-- IMAGE_STAGE_WRITE. -/
def execImageStageWrite (sess ofs : Nat) (data : Bytes) (t : Nat) (s : State) : Host.Outcome State Fault Refusal :=
  .next (staging sess t (stageWrite sess ofs data) s)

/-- The checks of R96 from 0x03 onward on the present contents of a slot. -/
def stageReasonOf (s : State) (d : FlashDev) : Nat := if !d.fitted || !d.readOk then 0x0E else imageReason s d

/-- VERIFY (03 R115, R117). -/
def stageVerify (sess : Nat) (s : State) : State :=
  if s.boot.stage = .idle then mgmtReply sess .denied [] s
  else
    let x := idleSlot s
    let r := stageReasonOf s (slotDev s x)
    mgmtReply sess (if r = 0 then .ok else .denied) [] (setBoot (fun b => { b with
      stage := if r = 0 then .verified else .failed, stageTarget := x, stageReason := r, stageSess := some sess }) s)

/-- IMAGE_STAGE_VERIFY. -/
def execImageStageVerify (sess t : Nat) (s : State) : Host.Outcome State Fault Refusal :=
  .next (staging sess t (stageVerify sess) s)

/-- COMMIT: the marker of the idle slot, and SUPERSEDE of slot A where that slot is B (03 R115). -/
def stageCommit (sess : Nat) (s : State) : State :=
  if s.boot.stage ≠ .verified then mgmtReply sess .denied [] s
  else
    let x := s.boot.stageTarget
    let s := modDev x (fun d => { d with commit := 0 }) s
    let s := if x = .slotB then modDev .slotA (fun d => { d with supersede := 0 }) s else s
    mgmtReply sess .ok [] (setBoot (fun b => { b with stage := .committed }) s)

/-- IMAGE_STAGE_COMMIT. -/
def execImageStageCommit (sess t : Nat) (s : State) : Host.Outcome State Fault Refusal :=
  .next (staging sess t (stageCommit sess) s)

/-- Staging is aborted (03 R115, R117). -/
def stageAbort (s : State) : State := setBoot (fun b => { b with stage := .idle, stageSess := none }) s

/-- IMAGE_STAGE_ABORT. -/
def execImageStageAbort (sess t : Nat) (s : State) : Host.Outcome State Fault Refusal :=
  .next (staging sess t (fun s => mgmtReply sess .ok [] (stageAbort s)) s)

end Sys2Proof.Machine
end

