-- ==== Sys2Proof/Machine/Mgmt.lean ====
section
/-! DEFINITION. Management sessions (14_security_and_isolation R583 to R586; 02_startup_and_loss R52; 03 R117). -/

namespace Sys2Proof.Machine

/-- A session closes; a staging that has not been committed is aborted with it (03 R117). -/
def closeSess (sess : Nat) (s : State) : State :=
  let s := setMgmt (fun m => { m with sess := m.sess.filter fun x => x.id ≠ sess }) s
  let s := { s with sels := s.sels.filter fun x => x.1 ≠ .mgmt sess }
  if s.boot.stageSess = some sess then
    if s.boot.stage = .committed then setBoot (fun b => { b with stageSess := none }) s else stageAbort s
  else s

/-- MGMT_SESSION_CLOSE. -/
def execMgmtSessionClose (sess t : Nat) (s : State) : Host.Outcome State Fault Refusal :=
  .next (withSess sess t .read (closeSess sess) s)

/-- MGMT_SESSION_IDLE_TIMEOUT: a session idle for 300 s (14 R586). -/
def idleClose (sess : Nat) (s : State) : State :=
  match sessAt s sess with
  | some x => if s.boot.st ≠ .bivouac && decide (x.lastUse + 300000000000 ≤ s.now) then closeSess sess s else s
  | none => s

/-- MGMT_SESSION_IDLE_TIMEOUT. -/
def execMgmtSessionIdleTimeout (sess t : Nat) (s : State) : Host.Outcome State Fault Refusal :=
  .next (idleClose sess (atTime t s))

/-- The handshakes of a port in the last second. -/
def recentHs (s : State) (port : Fin 2) : List Nat :=
  (if port = 0 then s.mgmt.hs0 else s.mgmt.hs1).filter fun t => decide (s.now < t + 1000000000)

/-- Note a handshake of a port. -/
def noteHs (port : Fin 2) (s : State) : State :=
  let l := recentHs s port ++ [s.now]
  setMgmt (fun m => if port = 0 then { m with hs0 := l } else { m with hs1 := l }) s

/-- A handshake is refused or fails. -/
def hsFails (s : State) : State := setMgmt (fun m => { m with hsFail := satAdd 16 m.hsFail 1 }) s

/-- The role of a client whose chain ends at an anchor (14 R584); with the factory anchor only in NO_IMAGE (02 R52). -/
def roleOf (h : TlsIn) (s : State) : Option (MgmtRole × Bool) :=
  if s.boot.st = .noImage then (if h.factory then some (.auditor, true) else none)
  else if h.factory then none
  else (s.img.trust.find? fun x => x.cert == h.anchor).map fun x => (x.role, false)

/-- A TLS handshake (14 R583 to R586); its packets wake a module in Bivouac (02 R77). -/
def tlsHandshake (h : TlsIn) (s : State) : State :=
  let s := mgmtWake s
  if !coreOn s || (sessAt s h.sess).isSome then s
  else if 10 ≤ (recentHs s h.port).length || 4 ≤ countIf (fun x => x.port = h.port) s.mgmt.sess then hsFails s
  else
    let s := noteHs h.port s
    match roleOf h s with
    | none => hsFails s
    | some (role, factory) =>
      if h.ok then setMgmt (fun m => { m with sess := m.sess ++
        [{ id := h.sess, port := h.port, role := role, factory := factory, lastUse := s.now }] }) s
      else hsFails s

/-- MGMT_TLS_HANDSHAKE. -/
def execMgmtTlsHandshake (h : TlsIn) (s : State) : Host.Outcome State Fault Refusal := .next (tlsHandshake h (atTime h.t s))

end Sys2Proof.Machine
end

