-- ==== Sys2Proof/Machine/Power.lean ====
section
/-! DEFINITION. Power, pins, clocks, resets and deep idle (01_architecture R37 to R41; 02_startup_and_loss R66 to R80;
16_connectors_and_power R629 to R640). -/

namespace Sys2Proof.Machine

/-! The input and the pins -/

/-- POWER_ON: the busbar enters the operating range; Belay starts, and the main converter too where EN is high (02 R45, R66;
16 R629, R636, R645). -/
def powerOn (b : BusIn) (s : State) : State :=
  if s.pwr.standbyOk || b.mv < 260000 || 410000 < b.mv then atTime b.t s
  else
    let s := powerLost (atTime b.t s)
    let optical := s.fuse.variant ≠ .c3240E
    let n := stackCount s
    softStart { s with
      pwr := { busMv := b.mv, standbyOk := true, inrushDone := true, en := b.en, resetN := b.resetN, slotPins := b.slotPins
               hold := .none, link0 := b.link0, link1 := b.link1
               laserA := if !optical then .off else if b.laserAOk then .active else .failed
               laserB := if !optical then .off else if b.laserAOk then .standby else .active
               stackSw := BitVec.ofNat 32 (2 ^ n - 1) }
      isl := { belayOn := true }
      stks := freshStacks s }

/-- POWER_ON. -/
def execPowerOn (b : BusIn) (s : State) : Host.Outcome State Fault Refusal := .next (powerOn b s)

/-- What a cycle of EN ends of the holds (02 R70, R71, R73). -/
def cycleEnds (s : State) : State :=
  match s.pwr.hold with
  | .enLow => setPwr (fun p => { p with hold := .none }) s
  | .emergency => if s.pwr.offSeen then setPwr (fun p => { p with hold := .none }) s else s
  | .restartLimit => if s.pwr.offSeen then
      setBoot (fun b => { b with st := .held }) (setPwr (fun p => { p with hold := .none }) s) else s
  | .orderly => if s.pwr.offSeen then setPwr (fun p => { p with permit := true }) s else s
  | _ => s

/-- EN_RISE. Where Belay has stopped only the pin follows (01 R38). -/
def enRise (s : State) : State :=
  let s := belayStops s
  if !s.pwr.standbyOk || s.pwr.en then s
  else if !s.isl.belayOn then setPwr (fun p => { p with en := true }) s
  else
    let s := setPwr (fun p => { p with offSeen := false }) (cycleEnds (setPwr (fun p => { p with en := true }) s))
    alertPin (permitRestart (softStart s))

/-- EN_RISE. -/
def execEnRise (t : Nat) (s : State) : Host.Outcome State Fault Refusal := .next (enRise (atTime t s))

/-- The main converter goes off. -/
def mainOff (s : State) : State := setPwr (fun p => { p with mainOn := false, pgood := false, txDark := true }) s

/-- EN_FALL: a running module leaves first; otherwise the rails discharge at once (02 R73; 16 R637). -/
def enFall (s : State) : State :=
  let s := belayStops s
  if !s.pwr.standbyOk || !s.pwr.en then s
  else if !s.isl.belayOn then mainOff (setPwr (fun p => { p with en := false }) s)
  else
    let s := setPwr (fun p => { p with en := false, offSeen := true }) s
    if running s || s.boot.st = .leaving then beginLeave .thenEnOff 8 (wakeFull 3 s)
    else if s.pwr.hold = .restartLimit then mainOff s
    else if s.pwr.mainOn then resetModule 8 .enLow s
    else s

/-- EN_FALL. -/
def execEnFall (t : Nat) (s : State) : Host.Outcome State Fault Refusal := .next (enFall (atTime t s))

/-- The hold that stands after RESET_N has risen (02 R70 to R72). -/
def holdAfterReset (h : Hold) : Hold :=
  match h with
  | .module | .restartLimit => .none
  | h => h

/-- RESET_N low for dur ns from t on, and its rise: a module reset without a leave (02 R44, R69). A module whose Belay has
stopped stays held (01 R38). -/
def resetN (dur t : Nat) (s : State) : State :=
  let s := belayStops (atTime t s)
  if dur < 1000 || !s.pwr.standbyOk || !s.isl.belayOn then s
  else
    let h := holdAfterReset s.pwr.hold
    let s := resetModule 1 h s
    let s := setPwr (fun p => { p with resetN := true, permit := h == .orderly }) (atTime (s.now + max dur 10000) s)
    alertPin (permitRestart (softStart s))

/-- RESET_N_ASSERT. -/
def execResetNAssert (dur t : Nat) (s : State) : Host.Outcome State Fault Refusal := .next (resetN dur t s)

/-- INPUT_OVERVOLTAGE above 420 V: the main converter is disconnected, and Belay decides an emergency shutdown (16 R630). -/
def overVoltage (mv : Nat) (s : State) : State :=
  if s.pwr.standbyOk && decide (420000 < mv) then
    emergencyShutdown 44 mv (setPwr (fun p => { p with busMv := mv, ovp := true }) s)
  else s

/-- INPUT_OVERVOLTAGE. -/
def execInputOvervoltage (mv t : Nat) (s : State) : Host.Outcome State Fault Refusal := .next (overVoltage mv (atTime t s))

/-- INPUT_DROPOUT: below 200 us it has no effect; a longer one is an abrupt loss (16 R631; 02 R69). -/
def execInputDropout (durUs t : Nat) (s : State) : Host.Outcome State Fault Refusal :=
  let s := atTime t s
  .next (if durUs < 200 then s else powerLost s)

/-- MAIN_RAIL_LOSS: the gate darkens the transmitters and the module is lost abruptly (02 R47, R69, R82). The cause that it
records is a free value among those of R91 (log entry 13). A module that is already held stays held for its own reason. -/
def mainRailLoss (s : State) : State :=
  if !s.pwr.mainOn then s
  else if s.pwr.hold = .none then
    let (s, i) := takeFree 1 s
    setPwr (fun p => { p with pgood := false }) (resetModule (Config.freeNat i % 9) .none s)
  else setPwr (fun p => { p with pgood := false, txDark := true }) s

/-- MAIN_RAIL_LOSS. -/
def execMainRailLoss (t : Nat) (s : State) : Host.Outcome State Fault Refusal := .next (mainRailLoss (atTime t s))

/-! Resets -/

/-- AUTO_RESTART: at most 3 restarts in 600 s, then HELD_SHUTDOWN (02 R71); after a loss of Belay's heartbeats it comes within
10 ms or not at all (01 R38). -/
def autoRestart (s : State) : State :=
  let s := belayStops s
  if s.boot.st = .held && s.pwr.hold = .module && s.isl.belayOn && decide (5 ≤ s.boot.cause) && decide (s.boot.cause ≤ 7) then
    if (recentRestarts s).length < 3 then
      setPwr (fun p => { p with hold := .none }) (setBoot (fun b => { b with restarts := recentRestarts s ++ [s.now] }) s)
    else alertPin (setPwr (fun p => { p with hold := .restartLimit }) (setBoot (fun b => { b with st := .heldShutdown }) s))
  else s

/-- AUTO_RESTART. -/
def execAutoRestart (t : Nat) (s : State) : Host.Outcome State Fault Refusal := .next (autoRestart (atTime t s))

/-- BELAY_HEARTBEAT_LOSS, wherever the controller core runs (01 R38). -/
def belayLoss (s : State) : State :=
  if coreOn s then beginLeave .thenReset 7 (setIsl (fun i => { i with coreHb := false }) s) else s

/-- BELAY_HEARTBEAT_LOSS. -/
def execBelayHeartbeatLoss (t : Nat) (s : State) : Host.Outcome State Fault Refusal := .next (belayLoss (atTime t s))

/-- MODULE_RESET. -/
def execModuleReset (sess t : Nat) (s : State) : Host.Outcome State Fault Refusal :=
  .next (withSess sess t .operator (fun s => beginLeave .thenReset 2 (mgmtReply sess .ok [] s)) s)

/-- LEAVE_CONTEXT_TIMEOUT. -/
def execLeaveContextTimeout (t : Nat) (s : State) : Host.Outcome State Fault Refusal := .next (leaveTimeout (atTime t s))

/-! Loss of lock (01 R37, R39) -/

/-- The index of an island (01 R43). -/
def islandIdx : Island → Nat
  | .port k => k.val
  | .core => 0x40
  | .crypto k => 0x41 + k.val
  | .sif k => 0x50 + k.val
  | .base k => 0x70 + k.val
  | .cp k => 0x90 + k.val

/-- The lock bit of an island (01 R40). -/
def islandLock (s : State) : Island → Bool
  | .port k => s.isl.portLock.getLsbD k.val
  | .core => s.isl.miscLock.getLsbD 0
  | .crypto k => s.isl.miscLock.getLsbD (1 + k.val)
  | .sif k => s.isl.sifLock.getLsbD k.val
  | .base k => s.isl.baseLock.getLsbD k.val
  | .cp k => s.isl.miscLock.getLsbD (9 + k.val)

/-- Clear the lock bit of an island. -/
def islandDown (x : Island) (i : Isl) : Isl :=
  match x with
  | .port k => { i with portLock := i.portLock &&& ~~~ (1#64 <<< k.val) }
  | .core => { i with miscLock := i.miscLock &&& ~~~ 1#12 }
  | .crypto k => { i with miscLock := i.miscLock &&& ~~~ (1#12 <<< (1 + k.val)) }
  | .sif k => { i with sifLock := i.sifLock &&& ~~~ (1#32 <<< k.val) }
  | .base k => { i with baseLock := i.baseLock &&& ~~~ (1#32 <<< k.val) }
  | .cp k => { i with miscLock := i.miscLock &&& ~~~ (1#12 <<< (9 + k.val)) }

/-- What the module does about an island that has lost lock (01 R37; 10 R679). With both crypto islands of a pair out of lock the rules
name no action: the ports and stacks of the pair go on being served, DESIGN CHOICE (log entry 82). -/
def islandLost (x : Island) (s : State) : State :=
  match x with
  | .port k => portIslandReset k.val s
  | .core => resetModule 5 .module s
  | .crypto _ => s
  | .sif k => stackFail k.val 2 s
  | .base k => stackFail k.val 2 s
  | .cp k => failCp k.val 0x09 s

/-- PLL_LOSS_OF_LOCK: the count, the record and the action (01 R37, R39). -/
def lossOfLock (x : Island) (s : State) : State :=
  if islandLock s x then
    let n := islandIdx x
    let s := setIsl (fun i => { islandDown x i with lolCount := satAdd 16 i.lolCount 1, lolLast := n }) s
    islandLost x (cairnAt 0x0C 1 n 0 0 n 0xFFFF .ok s)
  else s

/-- PLL_LOSS_OF_LOCK. -/
def execPllLossOfLock (island : Island) (t : Nat) (s : State) : Host.Outcome State Fault Refusal :=
  .next (lossOfLock island (atTime t s))

/-- PORT_PLL_RELOCK: the island leaves reset and its port goes on from DOWN (10 R679). -/
def execPortPllRelock (port : Fin 64) (t : Nat) (s : State) : Host.Outcome State Fault Refusal :=
  let s := atTime t s
  .next (if s.boot.step3Done && !s.isl.portLock.getLsbD port.val then
      setIsl (fun i => { i with portLock := i.portLock ||| 1#64 <<< port.val }) s
    else s)

/-! Deep idle (02 R74 to R79) -/

/-- The module enters Bivouac (02 R76). -/
def enterBivouac (s : State) : State :=
  let s := { s with stks := ((List.range 32).zip s.stks).map fun x => if stackServes s x.1 then { drained x.2 with
    selfRef := true, srEntries := if x.2.selfRef then x.2.srEntries else satAdd 16 x.2.srEntries 1 } else x.2 }
  let s := (List.range 64).foldl (fun s k => if (portAt s k).st == .active then
      modPort k (fun p => { p with lpiTx := true }) (sendCtl k .lpiEnter s) else s) s
  setBoot (fun b => { b with st := .bivouac, bivEntries := satAdd 16 b.bivEntries 1 }) s

/-- Conditions 1 and 3 of 02 R74, over BIV_IDLE_MS (log entry 41). -/
def bivIdle (s : State) : Bool :=
  let idle := s.boot.bivIdleMs * 1000000
  decide (s.boot.t0 + idle ≤ s.now) && decide (s.vrb.lastAdmit + idle ≤ s.now) && decide (s.lnk.lastPkt + idle ≤ s.now)

/-- BIVOUAC_ENTER (02 R74, R75). -/
def execBivouacEnter (sess t : Nat) (s : State) : Host.Outcome State Fault Refusal :=
  .next (withSess sess t .operator (fun s =>
    if s.boot.st = .poolOpen && bivReady s && bivIdle s then enterBivouac (mgmtReply sess .ok [] s)
    else mgmtReply sess .busy [] s) s)

/-- BIVOUAC_AUTO_ENTRY (02 R74). -/
def execBivouacAutoEntry (t : Nat) (s : State) : Host.Outcome State Fault Refusal :=
  let s := atTime t s
  .next (if s.boot.st = .poolOpen && s.boot.bivAuto && bivReady s && bivIdle s
      && decide (s.busyAt + s.boot.bivIdleMs * 1000000 ≤ s.now) then enterBivouac s else s)

/-- WAKE_SRC (02 R92). -/
def wakeCode : WakeSrc → Nat
  | .fabric _ _ => 1
  | .mgmt => 2
  | .belay => 3

/-- BIVOUAC_WAKE: the packet that wakes the module is held, the checksums are compared, and the held packets are admitted (02
R77 to R79). A module that something else has woken admits what it holds. -/
def bivWake (w : WakeIn) (s : State) : State :=
  if s.boot.st ≠ .bivouac then admitHeld s
  else
    let s := match w.src with
      | .fabric k p => arrive k.val p s
      | _ => s
    if w.chkOk then wakeAdmit (wakeCode w.src) s else resetModule 6 .module s

/-- BIVOUAC_WAKE. -/
def execBivouacWake (w : WakeIn) (s : State) : Host.Outcome State Fault Refusal := .next (bivWake w (atTime w.t s))

end Sys2Proof.Machine
end

