-- ==== Sys2Proof/Machine/Regs.lean ====
section
/-! DEFINITION. Register accesses: REG_READ, REG_WRITE and the tenant page (17_register_map R656, R657). -/

namespace Sys2Proof.Machine

/-- Management reads n registers from an offset, and gets their values. -/
def mgmtRead (sess a n : Nat) (s : State) : State :=
  let (s, l) := readRegs (.mgmt sess) n a s
  mgmtReply sess .ok l s

/-- REG_READ (17 R656). -/
def execRegRead (sess addr count t : Nat) (s : State) : Host.Outcome State Fault Refusal :=
  let n := clampTo 1 64 count
  .next (withSess sess t .read (fun s => if inWindow addr n then mgmtRead sess addr n s else mgmtDenied sess s) s)

/-- REG_WRITE (17 R656). -/
def execRegWrite (sess addr : Nat) (v : BitVec 64) (e : Env) (s : State) : Host.Outcome State Fault Refusal :=
  .next (withWrite sess e.t (fun s =>
    if inWindow addr 1 then mgmtReply sess .ok [] (writeReg (.mgmt sess) 0 addr v.toNat s) else mgmtDenied sess s)
    (applyEnv e s))

/-- A request with CTL set: bit 31 of WIN (17 R657). -/
def withCtl (r : Req) : Req := { r with win := r.win ||| 0x80000000 }

/-- TENANT_PAGE_ACCESS (17 R657). -/
def execTenantPageAccess (r : Req) (e : Env) (s : State) : Host.Outcome State Fault Refusal :=
  .next (runVerb (withCtl r) e pageAccess s)

end Sys2Proof.Machine
end

