-- ==== Sys2Proof/Machine/RegRead.lean ====
section
/-! DEFINITION. Reads of the registers that a read clears (17_register_map R661; 01_architecture R41). -/

namespace Sys2Proof.Machine

/-- GLB_ISL_LOL_EVT_READ. -/
def execGlbIslLolEvtRead (sess t : Nat) (s : State) : Host.Outcome State Fault Refusal :=
  .next (withSess sess t .read (mgmtRead sess (regAt 0x00 0x218) 1) s)

/-- BOOT_UNREACH_DROP_READ. -/
def execBootUnreachDropRead (sess t : Nat) (s : State) : Host.Outcome State Fault Refusal :=
  .next (withSess sess t .read (mgmtRead sess (regAt 0x01 0x038) 1) s)

/-- WIN_REVOKE_ABORT_READ. -/
def execWinRevokeAbortRead (sess t : Nat) (s : State) : Host.Outcome State Fault Refusal :=
  .next (withSess sess t .read (mgmtRead sess (regAt 0x06 0x008) 1) s)

/-- ANC_EVT_READ. -/
def execAncEvtRead (sess t : Nat) (s : State) : Host.Outcome State Fault Refusal :=
  .next (withSess sess t .read (mgmtRead sess (regAt 0x08 0x008) 1) s)

/-- COH_EVT_READ. -/
def execCohEvtRead (sess t : Nat) (s : State) : Host.Outcome State Fault Refusal :=
  .next (withSess sess t .read (mgmtRead sess (regAt 0x09 0x030) 1) s)

/-- VRB_EVT_READ. -/
def execVrbEvtRead (sess t : Nat) (s : State) : Host.Outcome State Fault Refusal :=
  .next (withSess sess t .read (mgmtRead sess (regAt 0x0A 0x030) 1) s)

/-- FE_EVT_READ. -/
def execFeEvtRead (sess t : Nat) (s : State) : Host.Outcome State Fault Refusal :=
  .next (withSess sess t .read (mgmtRead sess (regAt 0x0B 0x058) 1) s)

/-- FE_ARITH_EVT_READ. -/
def execFeArithEvtRead (sess t : Nat) (s : State) : Host.Outcome State Fault Refusal :=
  .next (withSess sess t .read (mgmtRead sess (regAt 0x0B 0x068) 1) s)

/-- WS_EVT_READ. -/
def execWsEvtRead (sess t : Nat) (s : State) : Host.Outcome State Fault Refusal :=
  .next (withSess sess t .read (mgmtRead sess (regAt 0x0D 0x060) 1) s)

/-- KV_EVT_READ. -/
def execKvEvtRead (sess t : Nat) (s : State) : Host.Outcome State Fault Refusal :=
  .next (withSess sess t .read (mgmtRead sess (regAt 0x0E 0x038) 1) s)

/-- LNK_ERR_READ. -/
def execLnkErrRead (sess t : Nat) (s : State) : Host.Outcome State Fault Refusal :=
  .next (withSess sess t .read (mgmtRead sess (regAt 0x02 0x038) 1) s)

/-- RTE_EVT_READ. -/
def execRteEvtRead (sess t : Nat) (s : State) : Host.Outcome State Fault Refusal :=
  .next (withSess sess t .read (mgmtRead sess (regAt 0x03 0x028) 1) s)

/-- E2E_EVT_READ. -/
def execE2eEvtRead (sess t : Nat) (s : State) : Host.Outcome State Fault Refusal :=
  .next (withSess sess t .read (mgmtRead sess (regAt 0x04 0x028) 1) s)

/-- E2E_DROP_READ. -/
def execE2eDropRead (sess t : Nat) (s : State) : Host.Outcome State Fault Refusal :=
  .next (withSess sess t .read (mgmtRead sess (regAt 0x04 0x030) 1) s)

/-- QOS_EVT_READ. -/
def execQosEvtRead (sess t : Nat) (s : State) : Host.Outcome State Fault Refusal :=
  .next (withSess sess t .read (mgmtRead sess (regAt 0x0F 0x038) 1) s)

/-- DRC_EVT_READ. -/
def execDrcEvtRead (sess t : Nat) (s : State) : Host.Outcome State Fault Refusal :=
  .next (withSess sess t .read (mgmtRead sess (regAt 0x10 0x020) 1) s)

/-- ECC_STK_CNT_READ. -/
def execEccStkCntRead (sess t : Nat) (s : State) : Host.Outcome State Fault Refusal :=
  .next (withSess sess t .read (mgmtRead sess (regAt 0x11 0x010) 1) s)

/-- ECC_SRAM_READ. -/
def execEccSramRead (sess t : Nat) (s : State) : Host.Outcome State Fault Refusal :=
  .next (withSess sess t .read (mgmtRead sess (regAt 0x11 0x058) 1) s)

/-- ECC_CRIT_READ. -/
def execEccCritRead (sess t : Nat) (s : State) : Host.Outcome State Fault Refusal :=
  .next (withSess sess t .read (mgmtRead sess (regAt 0x11 0x068) 1) s)

/-- ONX_EVT_READ. -/
def execOnxEvtRead (sess t : Nat) (s : State) : Host.Outcome State Fault Refusal :=
  .next (withSess sess t .read (mgmtRead sess (regAt 0x15 0x090) 1) s)

/-- SEC_EVT_READ. -/
def execSecEvtRead (sess t : Nat) (s : State) : Host.Outcome State Fault Refusal :=
  .next (withSess sess t .read (mgmtRead sess (regAt 0x14 0x020) 1) s)

/-- CRN_DROP_READ. -/
def execCrnDropRead (sess t : Nat) (s : State) : Host.Outcome State Fault Refusal :=
  .next (withSess sess t .read (mgmtRead sess (regAt 0x13 0x008) 1) s)

/-- CRN_MERGE_READ. -/
def execCrnMergeRead (sess t : Nat) (s : State) : Host.Outcome State Fault Refusal :=
  .next (withSess sess t .read (mgmtRead sess (regAt 0x13 0x020) 4) s)

/-- BEL_EVT_READ. -/
def execBelEvtRead (sess t : Nat) (s : State) : Host.Outcome State Fault Refusal :=
  .next (withSess sess t .read (mgmtRead sess (regAt 0x16 0x038) 1) s)

/-- GLB_ACC_ERR_READ. -/
def execGlbAccErrRead (sess t : Nat) (s : State) : Host.Outcome State Fault Refusal :=
  .next (withSess sess t .read (mgmtRead sess (regAt 0x00 0x020) 1) s)

end Sys2Proof.Machine
end

