-- ==== Sys2Proof/Machine/Dispatch.lean ====
section
/-! DEFINITION. The dispatch: one arm per command, each a call of the command's meaning. -/

namespace Sys2Proof.Machine

open Sys2Proof

/-- The effect of a command on everything but the queue of waiting commands. -/
def exec (i : Instr) (s : State) : Host.Outcome State Fault Refusal :=
  match i with
  | .powerOn b => Sys2Proof.Machine.execPowerOn b s
  | .enRise t => Sys2Proof.Machine.execEnRise t s
  | .enFall t => Sys2Proof.Machine.execEnFall t s
  | .resetNAssert dur t => Sys2Proof.Machine.execResetNAssert dur t s
  | .startSequence b => Sys2Proof.Machine.execStartSequence b s
  | .poolOpen t => Sys2Proof.Machine.execPoolOpen t s
  | .backoffExpiry t => Sys2Proof.Machine.execBackoffExpiry t s
  | .autoRestart t => Sys2Proof.Machine.execAutoRestart t s
  | .belayHeartbeatLoss t => Sys2Proof.Machine.execBelayHeartbeatLoss t s
  | .pllLossOfLock island t => Sys2Proof.Machine.execPllLossOfLock island t s
  | .portPllRelock port t => Sys2Proof.Machine.execPortPllRelock port t s
  | .moduleReset sess t => Sys2Proof.Machine.execModuleReset sess t s
  | .leaveContextTimeout t => Sys2Proof.Machine.execLeaveContextTimeout t s
  | .bivouacEnter sess t => Sys2Proof.Machine.execBivouacEnter sess t s
  | .bivouacAutoEntry t => Sys2Proof.Machine.execBivouacAutoEntry t s
  | .bivouacWake w => Sys2Proof.Machine.execBivouacWake w s
  | .inputOvervoltage mv t => Sys2Proof.Machine.execInputOvervoltage mv t s
  | .inputDropout durUs t => Sys2Proof.Machine.execInputDropout durUs t s
  | .imageStageBegin sess t => Sys2Proof.Machine.execImageStageBegin sess t s
  | .imageStageWrite sess ofs data t => Sys2Proof.Machine.execImageStageWrite sess ofs data t s
  | .imageStageVerify sess t => Sys2Proof.Machine.execImageStageVerify sess t s
  | .imageStageCommit sess t => Sys2Proof.Machine.execImageStageCommit sess t s
  | .imageStageAbort sess t => Sys2Proof.Machine.execImageStageAbort sess t s
  | .mgmtSessionClose sess t => Sys2Proof.Machine.execMgmtSessionClose sess t s
  | .mgmtTlsHandshake h => Sys2Proof.Machine.execMgmtTlsHandshake h s
  | .mgmtSessionIdleTimeout sess t => Sys2Proof.Machine.execMgmtSessionIdleTimeout sess t s
  | .regRead sess addr count t => Sys2Proof.Machine.execRegRead sess addr count t s
  | .regWrite sess addr v e => Sys2Proof.Machine.execRegWrite sess addr v e s
  | .tenantPageAccess r e => Sys2Proof.Machine.execTenantPageAccess r e s
  | .regionCreate r e => Sys2Proof.Machine.execRegionCreate r e s
  | .regionRepair r e => Sys2Proof.Machine.execRegionRepair r e s
  | .regionDegrade r e => Sys2Proof.Machine.execRegionDegrade r e s
  | .windowCreate r e => Sys2Proof.Machine.execWindowCreate r e s
  | .windowGrant r e => Sys2Proof.Machine.execWindowGrant r e s
  | .revokeGrant r e => Sys2Proof.Machine.execRevokeGrant r e s
  | .revokeWindow r e => Sys2Proof.Machine.execRevokeWindow r e s
  | .revokeRegion r e => Sys2Proof.Machine.execRevokeRegion r e s
  | .revokeTenant sess tid e => Sys2Proof.Machine.execRevokeTenant sess tid e s
  | .revokeDrainDone idx e => Sys2Proof.Machine.execRevokeDrainDone idx e s
  | .revokePinTimeout idx e => Sys2Proof.Machine.execRevokePinTimeout idx e s
  | .revokeOverwriteDone idx e => Sys2Proof.Machine.execRevokeOverwriteDone idx e s
  | .mirrorBind r e => Sys2Proof.Machine.execMirrorBind r e s
  | .mirrorWrite r e => Sys2Proof.Machine.execMirrorWrite r e s
  | .mirrorHbSend e => Sys2Proof.Machine.execMirrorHbSend e s
  | .mirrorHb r e => Sys2Proof.Machine.execMirrorHb r e s
  | .mirrorFence region e => Sys2Proof.Machine.execMirrorFence region e s
  | .shadowOpen region e => Sys2Proof.Machine.execShadowOpen region e s
  | .handoff r e => Sys2Proof.Machine.execHandoff r e s
  | .mirrorBreak r e => Sys2Proof.Machine.execMirrorBreak r e s
  | .anchorLend r e => Sys2Proof.Machine.execAnchorLend r e s
  | .anchorRenew t => Sys2Proof.Machine.execAnchorRenew t s
  | .anchorResponse node p e => Sys2Proof.Machine.execAnchorResponse node p e s
  | .anchorReclaim r e => Sys2Proof.Machine.execAnchorReclaim r e s
  | .prefetch r e => Sys2Proof.Machine.execPrefetch r e s
  | .adviseWillNeed r e => Sys2Proof.Machine.execAdviseWillNeed r e s
  | .adviseDontNeed r e => Sys2Proof.Machine.execAdviseDontNeed r e s
  | .adviseReadMostly r e => Sys2Proof.Machine.execAdviseReadMostly r e s
  | .advisePin r e => Sys2Proof.Machine.execAdvisePin r e s
  | .stackRetire sess stk e => Sys2Proof.Machine.execStackRetire sess stk e s
  | .extentMigrationDone region ext e => Sys2Proof.Machine.execExtentMigrationDone region ext e s
  | .stackFail stk e => Sys2Proof.Machine.execStackFail stk e s
  | .dieToDieModuleOut stk m e => Sys2Proof.Machine.execDieToDieModuleOut stk m e s
  | .load r e => Sys2Proof.Machine.execLoad r e s
  | .loadCached r e => Sys2Proof.Machine.execLoadCached r e s
  | .store r e => Sys2Proof.Machine.execStore r e s
  | .storeNotify r e => Sys2Proof.Machine.execStoreNotify r e s
  | .storeNotifyRelease src tag e => Sys2Proof.Machine.execStoreNotifyRelease src tag e s
  | .atomicFetch r e => Sys2Proof.Machine.execAtomicFetch r e s
  | .atomicAdd r e => Sys2Proof.Machine.execAtomicAdd r e s
  | .atomicSwap r e => Sys2Proof.Machine.execAtomicSwap r e s
  | .atomicCas r e => Sys2Proof.Machine.execAtomicCas r e s
  | .atomicMin r e => Sys2Proof.Machine.execAtomicMin r e s
  | .atomicMax r e => Sys2Proof.Machine.execAtomicMax r e s
  | .cohAttach r e => Sys2Proof.Machine.execCohAttach r e s
  | .cohDetach r e => Sys2Proof.Machine.execCohDetach r e s
  | .cohRenew r e => Sys2Proof.Machine.execCohRenew r e s
  | .writeback r e => Sys2Proof.Machine.execWriteback r e s
  | .invalAck r e => Sys2Proof.Machine.execInvalAck r e s
  | .recallAckNodata r e => Sys2Proof.Machine.execRecallAckNodata r e s
  | .recallAckData r e => Sys2Proof.Machine.execRecallAckData r e s
  | .recallAckWbSent r e => Sys2Proof.Machine.execRecallAckWbSent r e s
  | .cohRevokeAck r e => Sys2Proof.Machine.execCohRevokeAck r e s
  | .cohDeclareLostZero r e => Sys2Proof.Machine.execCohDeclareLostZero r e s
  | .cohDeclareLostStale r e => Sys2Proof.Machine.execCohDeclareLostStale r e s
  | .cohLmQuery r e => Sys2Proof.Machine.execCohLmQuery r e s
  | .leaseExpiry region slot e => Sys2Proof.Machine.execLeaseExpiry region slot e s
  | .cohSweepDone region slot e => Sys2Proof.Machine.execCohSweepDone region slot e s
  | .bqCreate r e => Sys2Proof.Machine.execBqCreate r e s
  | .bqDestroy r e => Sys2Proof.Machine.execBqDestroy r e s
  | .bulkSubmit r e => Sys2Proof.Machine.execBulkSubmit r e s
  | .bulkDoorbell r e => Sys2Proof.Machine.execBulkDoorbell r e s
  | .descriptorStart q e => Sys2Proof.Machine.execDescriptorStart q e s
  | .descNop q e => Sys2Proof.Machine.execDescNop q e s
  | .descFill q e => Sys2Proof.Machine.execDescFill q e s
  | .descCopy q e => Sys2Proof.Machine.execDescCopy q e s
  | .descCompare q e => Sys2Proof.Machine.execDescCompare q e s
  | .descReduce q e => Sys2Proof.Machine.execDescReduce q e s
  | .descriptorComplete q e => Sys2Proof.Machine.execDescriptorComplete q e s
  | .queryCaps r e => Sys2Proof.Machine.execQueryCaps r e s
  | .spdmCarry r e => Sys2Proof.Machine.execSpdmCarry r e s
  | .eventReceived r e => Sys2Proof.Machine.execEventReceived r e s
  | .loadInterval t => Sys2Proof.Machine.execLoadInterval t s
  | .planLoad r e => Sys2Proof.Machine.execPlanLoad r e s
  | .planUnload r e => Sys2Proof.Machine.execPlanUnload r e s
  | .planRun r e => Sys2Proof.Machine.execPlanRun r e s
  | .planRunEnd plan e => Sys2Proof.Machine.execPlanRunEnd plan e s
  | .opNop eng e => Sys2Proof.Machine.execOpNop eng e s
  | .opMove eng e => Sys2Proof.Machine.execOpMove eng e s
  | .opGemv eng e => Sys2Proof.Machine.execOpGemv eng e s
  | .opAttend eng e => Sys2Proof.Machine.execOpAttend eng e s
  | .opEwiseAdd eng e => Sys2Proof.Machine.execOpEwiseAdd eng e s
  | .opEwiseMul eng e => Sys2Proof.Machine.execOpEwiseMul eng e s
  | .opEwiseMax eng e => Sys2Proof.Machine.execOpEwiseMax eng e s
  | .opEwiseScale eng e => Sys2Proof.Machine.execOpEwiseScale eng e s
  | .opEwiseConvert eng e => Sys2Proof.Machine.execOpEwiseConvert eng e s
  | .opReduce eng e => Sys2Proof.Machine.execOpReduce eng e s
  | .opSend eng e => Sys2Proof.Machine.execOpSend eng e s
  | .opRecv eng e => Sys2Proof.Machine.execOpRecv eng e s
  | .opBankOwn eng e => Sys2Proof.Machine.execOpBankOwn eng e s
  | .opBarrier eng e => Sys2Proof.Machine.execOpBarrier eng e s
  | .opEnd eng e => Sys2Proof.Machine.execOpEnd eng e s
  | .barrierDefine r e => Sys2Proof.Machine.execBarrierDefine r e s
  | .barrierFree r e => Sys2Proof.Machine.execBarrierFree r e s
  | .syncArrive r e => Sys2Proof.Machine.execSyncArrive r e s
  | .syncWait r e => Sys2Proof.Machine.execSyncWait r e s
  | .syncWaitTimeout src tag e => Sys2Proof.Machine.execSyncWaitTimeout src tag e s
  | .deadlockDetect plan e => Sys2Proof.Machine.execDeadlockDetect plan e s
  | .feParkActRetry q rec e => Sys2Proof.Machine.execFeParkActRetry q rec e s
  | .feParkActAbort q rec e => Sys2Proof.Machine.execFeParkActAbort q rec e s
  | .engineHang eng e => Sys2Proof.Machine.execEngineHang eng e s
  | .engineSelftest stk pos pass e => Sys2Proof.Machine.execEngineSelftest stk pos pass e s
  | .spareRemapDone eng e => Sys2Proof.Machine.execSpareRemapDone eng e s
  | .abftReexecDone eng e => Sys2Proof.Machine.execAbftReexecDone eng e s
  | .feBankOwnWrite q eng v e => Sys2Proof.Machine.execFeBankOwnWrite q eng v e s
  | .feAbftClr q e => Sys2Proof.Machine.execFeAbftClr q e s
  | .wsLoad r e => Sys2Proof.Machine.execWsLoad r e s
  | .wsGemv r e => Sys2Proof.Machine.execWsGemv r e s
  | .wsRelease r e => Sys2Proof.Machine.execWsRelease r e s
  | .kvCreate r e => Sys2Proof.Machine.execKvCreate r e s
  | .kvAppend r e => Sys2Proof.Machine.execKvAppend r e s
  | .kvAttend r e => Sys2Proof.Machine.execKvAttend r e s
  | .kvSharePrefix r e => Sys2Proof.Machine.execKvSharePrefix r e s
  | .kvRelease r e => Sys2Proof.Machine.execKvRelease r e s
  | .kvExpired obj e => Sys2Proof.Machine.execKvExpired obj e s
  | .signalDetect port m => Sys2Proof.Machine.execSignalDetect port m s
  | .trainParam port head param counts tail t => Sys2Proof.Machine.execTrainParam port head param counts tail t s
  | .rttProbe port flit t => Sys2Proof.Machine.execRttProbe port flit t s
  | .rttEcho port flit t => Sys2Proof.Machine.execRttEcho port flit t s
  | .trainTimeout port t => Sys2Proof.Machine.execTrainTimeout port t s
  | .identSend port t => Sys2Proof.Machine.execIdentSend port t s
  | .ident port m t => Sys2Proof.Machine.execIdent port m t s
  | .identAck port m t => Sys2Proof.Machine.execIdentAck port m t s
  | .verifyTimeout port t => Sys2Proof.Machine.execVerifyTimeout port t s
  | .heartbeatSend port t => Sys2Proof.Machine.execHeartbeatSend port t s
  | .heartbeat port m t => Sys2Proof.Machine.execHeartbeat port m t s
  | .hbLoss port t => Sys2Proof.Machine.execHbLoss port t s
  | .leave port t => Sys2Proof.Machine.execLeave port t s
  | .los port t => Sys2Proof.Machine.execLos port t s
  | .resetFlit port flit t => Sys2Proof.Machine.execResetFlit port flit t s
  | .linkResetExit port t => Sys2Proof.Machine.execLinkResetExit port t s
  | .laneFault port lane w => Sys2Proof.Machine.execLaneFault port lane w s
  | .laneExclusionExpiry port lane t => Sys2Proof.Machine.execLaneExclusionExpiry port lane t s
  | .flapHoldExpiry port t => Sys2Proof.Machine.execFlapHoldExpiry port t s
  | .trainingBackoffExpiry port t => Sys2Proof.Machine.execTrainingBackoffExpiry port t s
  | .payload port flit e => Sys2Proof.Machine.execPayload port flit e s
  | .idle port flit t => Sys2Proof.Machine.execIdle port flit t s
  | .linkAckSend port t => Sys2Proof.Machine.execLinkAckSend port t s
  | .nak port flit t => Sys2Proof.Machine.execNak port flit t s
  | .replayStart port flit t => Sys2Proof.Machine.execReplayStart port flit t s
  | .replayTimeout port t => Sys2Proof.Machine.execReplayTimeout port t s
  | .credit port flit t => Sys2Proof.Machine.execCredit port flit t s
  | .creditSend port t => Sys2Proof.Machine.execCreditSend port t s
  | .lpiEnter port f => Sys2Proof.Machine.execLpiEnter port f s
  | .lpiExit port f => Sys2Proof.Machine.execLpiExit port f s
  | .lpiBurst port t => Sys2Proof.Machine.execLpiBurst port t s
  | .keepaliveLoss port t => Sys2Proof.Machine.execKeepaliveLoss port t s
  | .retrain sess port t => Sys2Proof.Machine.execRetrain sess port t s
  | .clearHold sess port t => Sys2Proof.Machine.execClearHold sess port t s
  | .adminDown sess port v t => Sys2Proof.Machine.execAdminDown sess port v t s
  | .transitForward port p e => Sys2Proof.Machine.execTransitForward port p e s
  | .transitAgeDrop n t => Sys2Proof.Machine.execTransitAgeDrop n t s
  | .flip sess t => Sys2Proof.Machine.execFlip sess t s
  | .drainingEnd t => Sys2Proof.Machine.execDrainingEnd t s
  | .rteGrpSetWrite sess v t => Sys2Proof.Machine.execRteGrpSetWrite sess v t s
  | .e2e port p e => Sys2Proof.Machine.execE2e port p e s
  | .stream port p t => Sys2Proof.Machine.execStream port p t s
  | .e2eAck port p t => Sys2Proof.Machine.execE2eAck port p t s
  | .e2eAckSend node space t => Sys2Proof.Machine.execE2eAckSend node space t s
  | .e2eRetransmitTimeout node space seq t => Sys2Proof.Machine.execE2eRetransmitTimeout node space seq t s
  | .shaperRefill t => Sys2Proof.Machine.execShaperRefill t s
  | .qosShpWrite sess v t => Sys2Proof.Machine.execQosShpWrite sess v t s
  | .partitionBudgetRefill t => Sys2Proof.Machine.execPartitionBudgetRefill t s
  | .partitionResponseRelease t => Sys2Proof.Machine.execPartitionResponseRelease t s
  | .dramAgePromotion stk t => Sys2Proof.Machine.execDramAgePromotion stk t s
  | .dramRefresh stk pch bank t => Sys2Proof.Machine.execDramRefresh stk pch bank t s
  | .channelRetraining stk ch pass e => Sys2Proof.Machine.execChannelRetraining stk ch pass e s
  | .selfRefreshEntry stk t => Sys2Proof.Machine.execSelfRefreshEntry stk t s
  | .ceBucketLeak t => Sys2Proof.Machine.execCeBucketLeak t s
  | .memRetire sess pa e => Sys2Proof.Machine.execMemRetire sess pa e s
  | .pageRemapDone stk page e => Sys2Proof.Machine.execPageRemapDone stk page e s
  | .trvStart q e => Sys2Proof.Machine.execTrvStart q e s
  | .trvAbort q e => Sys2Proof.Machine.execTrvAbort q e s
  | .traverseDone q e => Sys2Proof.Machine.execTraverseDone q e s
  | .eccInjArm sess v e => Sys2Proof.Machine.execEccInjArm sess v e s
  | .eccInjDisarm sess v e => Sys2Proof.Machine.execEccInjDisarm sess v e s
  | .eccInjWriteRaw sess v e => Sys2Proof.Machine.execEccInjWriteRaw sess v e s
  | .eccInjWriteEnc sess v e => Sys2Proof.Machine.execEccInjWriteEnc sess v e s
  | .eccInjReadRaw sess v e => Sys2Proof.Machine.execEccInjReadRaw sess v e s
  | .eccInjReadDec sess v e => Sys2Proof.Machine.execEccInjReadDec sess v e s
  | .eccInjFlipCrit sess v e => Sys2Proof.Machine.execEccInjFlipCrit sess v e s
  | .eccLogSelWrite sess v t => Sys2Proof.Machine.execEccLogSelWrite sess v t s
  | .eccLogClr sess t => Sys2Proof.Machine.execEccLogClr sess t s
  | .syskeyProgram sess req t => Sys2Proof.Machine.execSyskeyProgram sess req t s
  | .syskeyRevoke sess req t => Sys2Proof.Machine.execSyskeyRevoke sess req t s
  | .onxSyskeyNonceRead sess t => Sys2Proof.Machine.execOnxSyskeyNonceRead sess t s
  | .drbgFail t => Sys2Proof.Machine.execDrbgFail t s
  | .getVersion m => Sys2Proof.Machine.execGetVersion m s
  | .getCapabilities m => Sys2Proof.Machine.execGetCapabilities m s
  | .negotiateAlgorithms m => Sys2Proof.Machine.execNegotiateAlgorithms m s
  | .getDigests m => Sys2Proof.Machine.execGetDigests m s
  | .getCertificate m => Sys2Proof.Machine.execGetCertificate m s
  | .challenge m => Sys2Proof.Machine.execChallenge m s
  | .getMeasurements m => Sys2Proof.Machine.execGetMeasurements m s
  | .keyExchange m => Sys2Proof.Machine.execKeyExchange m s
  | .finish m => Sys2Proof.Machine.execFinish m s
  | .keyUpdate m => Sys2Proof.Machine.execKeyUpdate m s
  | .endSession m => Sys2Proof.Machine.execEndSession m s
  | .chunkSend m => Sys2Proof.Machine.execChunkSend m s
  | .chunkGet m => Sys2Proof.Machine.execChunkGet m s
  | .block sess node t => Sys2Proof.Machine.execBlock sess node t s
  | .unblock sess node t => Sys2Proof.Machine.execUnblock sess node t s
  | .controlCycle t => Sys2Proof.Machine.execControlCycle t s
  | .deltaAck cycle chk t => Sys2Proof.Machine.execDeltaAck cycle chk t s
  | .secondHang t => Sys2Proof.Machine.execSecondHang t s
  | .noDelta t => Sys2Proof.Machine.execNoDelta t s
  | .watchdog cp t => Sys2Proof.Machine.execWatchdog cp t s
  | .forceSwitch sess t => Sys2Proof.Machine.execForceSwitch sess t s
  | .resyncDone t => Sys2Proof.Machine.execResyncDone t s
  | .belaySample b => Sys2Proof.Machine.execBelaySample b s
  | .lPowerUpdate t => Sys2Proof.Machine.execLPowerUpdate t s
  | .lThermalUpdate t => Sys2Proof.Machine.execLThermalUpdate t s
  | .belayStatusRequest port req t => Sys2Proof.Machine.execBelayStatusRequest port req t s
  | .swap sess t => Sys2Proof.Machine.execSwap sess t s
  | .crnPop sess seq t => Sys2Proof.Machine.execCrnPop sess seq t s
  | .cairnMergeRelease t => Sys2Proof.Machine.execCairnMergeRelease t s
  | .cairnCritFullAlert t => Sys2Proof.Machine.execCairnCritFullAlert t s
  | .glbIslLolEvtRead sess t => Sys2Proof.Machine.execGlbIslLolEvtRead sess t s
  | .bootUnreachDropRead sess t => Sys2Proof.Machine.execBootUnreachDropRead sess t s
  | .winRevokeAbortRead sess t => Sys2Proof.Machine.execWinRevokeAbortRead sess t s
  | .ancEvtRead sess t => Sys2Proof.Machine.execAncEvtRead sess t s
  | .cohEvtRead sess t => Sys2Proof.Machine.execCohEvtRead sess t s
  | .vrbEvtRead sess t => Sys2Proof.Machine.execVrbEvtRead sess t s
  | .feEvtRead sess t => Sys2Proof.Machine.execFeEvtRead sess t s
  | .feArithEvtRead sess t => Sys2Proof.Machine.execFeArithEvtRead sess t s
  | .wsEvtRead sess t => Sys2Proof.Machine.execWsEvtRead sess t s
  | .kvEvtRead sess t => Sys2Proof.Machine.execKvEvtRead sess t s
  | .lnkErrRead sess t => Sys2Proof.Machine.execLnkErrRead sess t s
  | .rteEvtRead sess t => Sys2Proof.Machine.execRteEvtRead sess t s
  | .e2eEvtRead sess t => Sys2Proof.Machine.execE2eEvtRead sess t s
  | .e2eDropRead sess t => Sys2Proof.Machine.execE2eDropRead sess t s
  | .qosEvtRead sess t => Sys2Proof.Machine.execQosEvtRead sess t s
  | .drcEvtRead sess t => Sys2Proof.Machine.execDrcEvtRead sess t s
  | .eccStkCntRead sess t => Sys2Proof.Machine.execEccStkCntRead sess t s
  | .eccSramRead sess t => Sys2Proof.Machine.execEccSramRead sess t s
  | .eccCritRead sess t => Sys2Proof.Machine.execEccCritRead sess t s
  | .onxEvtRead sess t => Sys2Proof.Machine.execOnxEvtRead sess t s
  | .secEvtRead sess t => Sys2Proof.Machine.execSecEvtRead sess t s
  | .crnDropRead sess t => Sys2Proof.Machine.execCrnDropRead sess t s
  | .crnMergeRead sess t => Sys2Proof.Machine.execCrnMergeRead sess t s
  | .belEvtRead sess t => Sys2Proof.Machine.execBelEvtRead sess t s
  | .glbAccErrRead sess t => Sys2Proof.Machine.execGlbAccErrRead sess t s
  | .mainRailLoss t => Sys2Proof.Machine.execMainRailLoss t s
  | .mirrorPeerResponse node p e => Sys2Proof.Machine.execMirrorPeerResponse node p e s
  | .drainingPeerEviction node t => Sys2Proof.Machine.execDrainingPeerEviction node t s

end Sys2Proof.Machine
end

