-- ==== Sys2Proof/Safety.lean ====
section
/-! DEFINITION. What claims about the module are stated in: the pieces of the state and what it means that they are
unchanged, the invariant that every step keeps, and what never goes back. -/

namespace Sys2Proof.Machine

/-- A piece of the state: one for each field of State. -/
inductive Piece
  | pwr | fuse | flash | boot | img | isl | crn | cp | bel | mgmt | glb | pool | vrb | bulk | coh | fe | ws | kv | lnk | rte
  | e2e | qos | ecc | trv | onx | sec | pending | now | busyAt | svc | free | out | sels | mem | stks
deriving DecidableEq, Repr

/-- A piece is the same in two states. -/
def Piece.same (p : Piece) (s t : State) : Prop :=
  match p with
  | .pwr => t.pwr = s.pwr
  | .fuse => t.fuse = s.fuse
  | .flash => t.flash = s.flash
  | .boot => t.boot = s.boot
  | .img => t.img = s.img
  | .isl => t.isl = s.isl
  | .crn => t.crn = s.crn
  | .cp => t.cp = s.cp
  | .bel => t.bel = s.bel
  | .mgmt => t.mgmt = s.mgmt
  | .glb => t.glb = s.glb
  | .pool => t.pool = s.pool
  | .vrb => t.vrb = s.vrb
  | .bulk => t.bulk = s.bulk
  | .coh => t.coh = s.coh
  | .fe => t.fe = s.fe
  | .ws => t.ws = s.ws
  | .kv => t.kv = s.kv
  | .lnk => t.lnk = s.lnk
  | .rte => t.rte = s.rte
  | .e2e => t.e2e = s.e2e
  | .qos => t.qos = s.qos
  | .ecc => t.ecc = s.ecc
  | .trv => t.trv = s.trv
  | .onx => t.onx = s.onx
  | .sec => t.sec = s.sec
  | .pending => t.pending = s.pending
  | .now => t.now = s.now
  | .busyAt => t.busyAt = s.busyAt
  | .svc => t.svc = s.svc
  | .free => t.free = s.free
  | .out => t.out = s.out
  | .sels => t.sels = s.sels
  | .mem => t.mem = s.mem
  | .stks => t.stks = s.stks

/-- Two states agree on every piece outside a list. -/
def AgreeOff (l : List Piece) (s t : State) : Prop := ∀ p : Piece, p ∉ l → p.same s t

/-- The invariant: pool memory is canonical, the fault queue holds at most 1,024 records and the retention memory at most 64
(15 R624, R626), and there are 32 stack positions (01 R31). -/
structure Inv (s : State) : Prop where
  /-- Pool memory is in its canonical form. -/
  memory : Memory.wf s.mem = true
  /-- Cairn holds at most 1,024 records (15 R624). -/
  cairn : s.crn.q.length ≤ 1024
  /-- The retention memory holds at most 64 records (15 R626). -/
  retained : s.crn.ret.length ≤ 64
  /-- There are 32 stack positions. -/
  positions : s.stks.length = 32

/-- What never goes back: time, the free values taken and the random draws made, what has left the module, the variant, and
the fuses that are blown (14 R552, R553; 00 R2). -/
structure Onward (s t : State) : Prop where
  /-- Time does not go back. -/
  time : s.now ≤ t.now
  /-- Free values are not taken twice. -/
  free : s.free ≤ t.free
  /-- Random values are not drawn twice. -/
  seed : s.onx.keySeed ≤ t.onx.keySeed
  /-- What has left the module stays as it left. -/
  sent : s.out <+: t.out
  /-- The variant is the module's for good. -/
  variant : t.fuse.variant = s.fuse.variant
  /-- A programmed slot stays programmed. -/
  programmed : s.fuse.prog &&& t.fuse.prog = s.fuse.prog
  /-- A revoked slot stays revoked. -/
  revoked : s.fuse.revoked &&& t.fuse.revoked = s.fuse.revoked

/-! What a command may touch: claims about what it leaves alone start from here. -/

/-- The pieces a command may touch: what every unit's chapter gives the command to write, time and the free values it takes, and
what its embedded service work (log, records, posted completions) writes. Every other piece stays as it is. -/
def footprint : Instr → List Piece
  | .powerOn _ | .inputDropout _ _ =>
    [.pwr, .fuse, .flash, .boot, .img, .isl, .crn, .cp, .bel, .mgmt, .glb, .pool, .vrb, .bulk, .coh, .fe, .ws, .kv,
     .lnk, .rte, .e2e, .qos, .ecc, .trv, .onx, .sec, .now, .busyAt, .svc, .sels, .mem, .stks]
  | .enRise _ | .autoRestart _ =>
    [.pwr, .boot, .isl, .bel, .now, .busyAt, .svc, .out]
  | .enFall _ | .startSequence _ | .belayHeartbeatLoss _ | .pllLossOfLock _ _ | .moduleReset _ _
  | .leaveContextTimeout _ | .bivouacEnter _ _ | .bivouacWake _ | .imageStageBegin _ _ | .imageStageWrite _ _ _ _
  | .imageStageVerify _ _ | .imageStageCommit _ _ | .imageStageAbort _ _ | .mgmtSessionClose _ _ | .mgmtTlsHandshake _
  | .regRead _ _ _ _ | .regWrite _ _ _ _ | .revokeTenant _ _ _ | .stackRetire _ _ _ | .spdmCarry _ _
  | .feParkActRetry _ _ _ | .feParkActAbort _ _ _ | .feBankOwnWrite _ _ _ _ | .feAbftClr _ _ | .retrain _ _ _
  | .clearHold _ _ _ | .adminDown _ _ _ _ | .transitForward _ _ _ | .flip _ _ | .rteGrpSetWrite _ _ _ | .e2e _ _ _
  | .qosShpWrite _ _ _ | .memRetire _ _ _ | .trvStart _ _ | .trvAbort _ _ | .eccInjArm _ _ _ | .eccInjDisarm _ _ _
  | .eccInjWriteRaw _ _ _ | .eccInjWriteEnc _ _ _ | .eccInjReadRaw _ _ _ | .eccInjReadDec _ _ _
  | .eccInjFlipCrit _ _ _ | .eccLogSelWrite _ _ _ | .eccLogClr _ _ | .syskeyProgram _ _ _ | .syskeyRevoke _ _ _
  | .onxSyskeyNonceRead _ _ | .getVersion _ | .getCapabilities _ | .negotiateAlgorithms _ | .getDigests _
  | .getCertificate _ | .challenge _ | .getMeasurements _ | .keyExchange _ | .finish _ | .keyUpdate _ | .endSession _
  | .chunkSend _ | .chunkGet _ | .block _ _ _ | .unblock _ _ _ | .deltaAck _ _ _ | .secondHang _ | .noDelta _
  | .watchdog _ _ | .forceSwitch _ _ | .belaySample _ | .belayStatusRequest _ _ _ | .swap _ _ | .crnPop _ _ _
  | .glbIslLolEvtRead _ _ | .bootUnreachDropRead _ _ | .winRevokeAbortRead _ _ | .ancEvtRead _ _ | .cohEvtRead _ _
  | .vrbEvtRead _ _ | .feEvtRead _ _ | .feArithEvtRead _ _ | .wsEvtRead _ _ | .kvEvtRead _ _ | .lnkErrRead _ _
  | .rteEvtRead _ _ | .e2eEvtRead _ _ | .e2eDropRead _ _ | .qosEvtRead _ _ | .drcEvtRead _ _ | .eccStkCntRead _ _
  | .eccSramRead _ _ | .eccCritRead _ _ | .onxEvtRead _ _ | .secEvtRead _ _ | .crnDropRead _ _ | .crnMergeRead _ _
  | .belEvtRead _ _ | .glbAccErrRead _ _ | .mainRailLoss _ =>
    [.pwr, .fuse, .flash, .boot, .img, .isl, .crn, .cp, .bel, .mgmt, .glb, .pool, .vrb, .bulk, .coh, .fe, .ws, .kv,
     .lnk, .rte, .e2e, .qos, .ecc, .trv, .onx, .sec, .now, .busyAt, .svc, .free, .out, .sels, .mem, .stks]
  | .resetNAssert _ _ | .inputOvervoltage _ _ =>
    [.pwr, .fuse, .flash, .boot, .img, .isl, .crn, .cp, .bel, .mgmt, .glb, .pool, .vrb, .bulk, .coh, .fe, .ws, .kv,
     .lnk, .rte, .e2e, .qos, .ecc, .trv, .onx, .sec, .now, .busyAt, .svc, .out, .sels, .mem, .stks]
  | .poolOpen _ | .backoffExpiry _ =>
    [.fuse, .boot, .pool, .ecc, .now, .busyAt, .svc]
  | .portPllRelock _ _ =>
    [.isl, .now, .busyAt, .svc]
  | .bivouacAutoEntry _ =>
    [.boot, .lnk, .now, .busyAt, .svc, .out, .stks]
  | .mgmtSessionIdleTimeout _ _ =>
    [.boot, .mgmt, .now, .busyAt, .svc, .sels]
  | .tenantPageAccess _ _ | .load _ _ | .loadCached _ _ | .store _ _ | .storeNotify _ _ | .atomicFetch _ _
  | .atomicAdd _ _ | .atomicSwap _ _ | .atomicCas _ _ | .atomicMin _ _ | .atomicMax _ _ =>
    [.pwr, .boot, .isl, .crn, .cp, .bel, .glb, .pool, .vrb, .bulk, .coh, .fe, .ws, .kv, .lnk, .rte, .e2e, .qos, .ecc,
     .trv, .onx, .sec, .now, .busyAt, .svc, .free, .out, .sels, .mem, .stks]
  | .regionCreate _ _ =>
    [.crn, .glb, .pool, .vrb, .coh, .lnk, .rte, .e2e, .qos, .ecc, .sec, .now, .busyAt, .svc, .free, .out, .mem, .stks]
  | .regionRepair _ _ | .mirrorBind _ _ =>
    [.crn, .glb, .pool, .vrb, .lnk, .rte, .e2e, .qos, .ecc, .sec, .now, .busyAt, .svc, .free, .out, .mem, .stks]
  | .regionDegrade _ _ | .revokeGrant _ _ | .anchorLend _ _ | .adviseDontNeed _ _ | .adviseReadMostly _ _
  | .advisePin _ _ | .cohAttach _ _ | .cohRenew _ _ | .cohLmQuery _ _ | .syncWait _ _ =>
    [.crn, .glb, .pool, .vrb, .lnk, .rte, .e2e, .qos, .ecc, .sec, .now, .busyAt, .svc, .free, .out]
  | .windowCreate _ _ | .windowGrant _ _ | .mirrorHb _ _ | .handoff _ _ | .mirrorBreak _ _ =>
    [.crn, .glb, .pool, .vrb, .coh, .lnk, .rte, .e2e, .qos, .ecc, .sec, .now, .busyAt, .svc, .free, .out]
  | .revokeWindow _ _ | .revokeRegion _ _ | .anchorReclaim _ _ | .cohDetach _ _ | .writeback _ _ | .invalAck _ _
  | .recallAckNodata _ _ | .recallAckData _ _ | .recallAckWbSent _ _ | .cohDeclareLostZero _ _
  | .cohDeclareLostStale _ _ | .planLoad _ _ | .wsLoad _ _ =>
    [.pwr, .isl, .crn, .glb, .pool, .vrb, .bulk, .coh, .fe, .ws, .kv, .lnk, .rte, .e2e, .qos, .ecc, .trv, .onx, .sec,
     .now, .busyAt, .svc, .free, .out, .mem, .stks]
  | .revokeDrainDone _ _ =>
    [.crn, .pool, .vrb, .coh, .ws, .lnk, .rte, .e2e, .qos, .ecc, .onx, .sec, .now, .busyAt, .svc, .free, .out]
  | .revokePinTimeout _ _ | .anchorResponse _ _ _ | .leaseExpiry _ _ _ | .e2eAckSend _ _ _
  | .e2eRetransmitTimeout _ _ _ _ | .mirrorPeerResponse _ _ _ =>
    [.pwr, .isl, .crn, .pool, .vrb, .bulk, .coh, .fe, .ws, .kv, .lnk, .rte, .e2e, .qos, .ecc, .trv, .onx, .sec, .now,
     .busyAt, .svc, .free, .out, .mem, .stks]
  | .revokeOverwriteDone _ _ =>
    [.crn, .pool, .vrb, .coh, .ws, .lnk, .rte, .e2e, .qos, .ecc, .onx, .sec, .now, .busyAt, .svc, .free, .out, .mem,
     .stks]
  | .mirrorWrite _ _ | .prefetch _ _ | .adviseWillNeed _ _ | .wsGemv _ _ | .kvAppend _ _ | .kvAttend _ _ =>
    [.pwr, .isl, .crn, .glb, .pool, .vrb, .bulk, .coh, .fe, .ws, .kv, .lnk, .rte, .e2e, .qos, .ecc, .trv, .sec, .now,
     .busyAt, .svc, .free, .out, .mem, .stks]
  | .mirrorHbSend _ | .shadowOpen _ _ | .anchorRenew _ | .cohSweepDone _ _ _ =>
    [.crn, .pool, .coh, .lnk, .rte, .e2e, .qos, .ecc, .sec, .now, .busyAt, .svc, .free, .out]
  | .mirrorFence _ _ =>
    [.crn, .pool, .vrb, .bulk, .ws, .lnk, .rte, .e2e, .qos, .ecc, .sec, .now, .busyAt, .svc, .free, .out, .mem]
  | .extentMigrationDone _ _ _ | .descNop _ _ | .descFill _ _ | .descCopy _ _ | .descCompare _ _ | .descReduce _ _
  | .deadlockDetect _ _ | .partitionBudgetRefill _ | .pageRemapDone _ _ _ | .traverseDone _ _ =>
    [.pwr, .isl, .crn, .pool, .vrb, .bulk, .coh, .fe, .ws, .kv, .lnk, .rte, .e2e, .qos, .ecc, .trv, .sec, .now,
     .busyAt, .svc, .free, .out, .mem, .stks]
  | .stackFail _ _ | .dieToDieModuleOut _ _ _ | .channelRetraining _ _ _ _ =>
    [.pwr, .isl, .crn, .pool, .vrb, .bulk, .coh, .fe, .ws, .kv, .lnk, .rte, .e2e, .qos, .ecc, .trv, .sec, .now,
     .busyAt, .svc, .free, .out, .stks]
  | .storeNotifyRelease _ _ _ | .opMove _ _ | .opGemv _ _ | .opAttend _ _ | .opEwiseAdd _ _ | .opEwiseMul _ _
  | .opEwiseMax _ _ | .opEwiseScale _ _ | .opEwiseConvert _ _ | .opReduce _ _ | .opSend _ _ | .abftReexecDone _ _ =>
    [.pwr, .boot, .isl, .crn, .pool, .vrb, .bulk, .coh, .fe, .ws, .kv, .lnk, .rte, .e2e, .qos, .ecc, .trv, .onx,
     .sec, .now, .busyAt, .svc, .free, .out, .mem, .stks]
  | .cohRevokeAck _ _ =>
    [.crn, .glb, .pool, .vrb, .coh, .ws, .lnk, .rte, .e2e, .qos, .ecc, .onx, .sec, .now, .busyAt, .svc, .free, .out]
  | .bqCreate _ _ | .bulkSubmit _ _ | .bulkDoorbell _ _ =>
    [.crn, .glb, .pool, .vrb, .bulk, .lnk, .rte, .e2e, .qos, .ecc, .sec, .now, .busyAt, .svc, .free, .out]
  | .bqDestroy _ _ =>
    [.crn, .glb, .pool, .vrb, .bulk, .ws, .lnk, .rte, .e2e, .qos, .ecc, .sec, .now, .busyAt, .svc, .free, .out]
  | .descriptorStart _ _ =>
    [.bulk, .ecc, .now, .busyAt, .svc]
  | .descriptorComplete _ _ =>
    [.crn, .pool, .vrb, .bulk, .coh, .ws, .lnk, .rte, .e2e, .qos, .ecc, .onx, .sec, .now, .busyAt, .svc, .free, .out]
  | .queryCaps _ _ =>
    [.boot, .crn, .glb, .pool, .vrb, .lnk, .rte, .e2e, .qos, .ecc, .sec, .now, .busyAt, .svc, .free, .out]
  | .eventReceived _ _ =>
    [.vrb, .ecc, .now, .busyAt, .svc]
  | .loadInterval _ =>
    [.boot, .vrb, .coh, .now, .busyAt, .svc, .stks]
  | .planUnload _ _ =>
    [.crn, .glb, .pool, .vrb, .fe, .lnk, .rte, .e2e, .qos, .ecc, .onx, .sec, .now, .busyAt, .svc, .free, .out]
  | .planRun _ _ =>
    [.crn, .glb, .pool, .vrb, .fe, .ws, .kv, .lnk, .rte, .e2e, .qos, .ecc, .sec, .now, .busyAt, .svc, .free, .out]
  | .planRunEnd _ _ =>
    [.crn, .vrb, .fe, .ws, .lnk, .rte, .e2e, .qos, .ecc, .sec, .now, .busyAt, .svc, .free, .out]
  | .opNop _ _ | .opRecv _ _ | .opBankOwn _ _ | .opBarrier _ _ | .opEnd _ _ | .payload _ _ _ =>
    [.boot, .crn, .pool, .vrb, .bulk, .coh, .fe, .ws, .kv, .lnk, .rte, .e2e, .qos, .ecc, .onx, .sec, .now, .busyAt,
     .svc, .free, .out, .stks]
  | .barrierDefine _ _ | .barrierFree _ _ =>
    [.crn, .glb, .pool, .vrb, .fe, .lnk, .rte, .e2e, .qos, .ecc, .sec, .now, .busyAt, .svc, .free, .out]
  | .syncArrive _ _ =>
    [.crn, .glb, .pool, .vrb, .fe, .ws, .lnk, .rte, .e2e, .qos, .ecc, .sec, .now, .busyAt, .svc, .free, .out]
  | .syncWaitTimeout _ _ _ =>
    [.crn, .vrb, .ws, .lnk, .rte, .e2e, .qos, .ecc, .sec, .now, .busyAt, .svc, .free, .out]
  | .engineHang _ _ | .engineSelftest _ _ _ _ =>
    [.crn, .vrb, .coh, .fe, .ws, .lnk, .rte, .e2e, .qos, .ecc, .sec, .now, .busyAt, .svc, .free, .out, .stks]
  | .spareRemapDone _ _ =>
    [.fe, .ecc, .now, .busyAt, .svc]
  | .wsRelease _ _ =>
    [.crn, .glb, .pool, .vrb, .ws, .lnk, .rte, .e2e, .qos, .ecc, .onx, .sec, .now, .busyAt, .svc, .free, .out]
  | .kvCreate _ _ | .kvSharePrefix _ _ | .kvRelease _ _ =>
    [.crn, .glb, .pool, .vrb, .kv, .lnk, .rte, .e2e, .qos, .ecc, .sec, .now, .busyAt, .svc, .free, .out]
  | .kvExpired _ _ =>
    [.crn, .pool, .coh, .kv, .lnk, .rte, .e2e, .qos, .ecc, .sec, .now, .busyAt, .svc, .free, .out]
  | .signalDetect _ _ | .identSend _ _ | .heartbeatSend _ _ | .flapHoldExpiry _ _ | .trainingBackoffExpiry _ _
  | .linkAckSend _ _ | .creditSend _ _ | .lpiBurst _ _ =>
    [.lnk, .now, .busyAt, .svc, .out]
  | .trainParam _ _ _ _ _ _ | .rttProbe _ _ _ | .rttEcho _ _ _ | .trainTimeout _ _ | .ident _ _ _ | .identAck _ _ _
  | .verifyTimeout _ _ | .heartbeat _ _ _ | .hbLoss _ _ | .leave _ _ | .los _ _ | .resetFlit _ _ _
  | .linkResetExit _ _ | .laneFault _ _ _ | .idle _ _ _ | .nak _ _ _ | .replayStart _ _ _ | .replayTimeout _ _
  | .credit _ _ _ | .lpiEnter _ _ | .lpiExit _ _ | .keepaliveLoss _ _ =>
    [.boot, .crn, .lnk, .rte, .qos, .now, .busyAt, .svc, .free, .out]
  | .laneExclusionExpiry _ _ _ =>
    [.lnk, .now, .busyAt, .svc]
  | .transitAgeDrop _ _ =>
    [.lnk, .rte, .now, .busyAt, .svc]
  | .drainingEnd _ =>
    [.crn, .rte, .ecc, .now, .busyAt, .svc, .out]
  | .stream _ _ _ | .e2eAck _ _ _ =>
    [.pwr, .boot, .isl, .crn, .glb, .pool, .vrb, .bulk, .coh, .fe, .ws, .kv, .lnk, .rte, .e2e, .qos, .ecc, .trv,
     .onx, .sec, .now, .busyAt, .svc, .free, .out, .mem, .stks]
  | .shaperRefill _ | .partitionResponseRelease _ | .drainingPeerEviction _ _ =>
    [.crn, .lnk, .rte, .e2e, .qos, .ecc, .sec, .now, .busyAt, .svc, .free, .out]
  | .dramAgePromotion _ _ | .dramRefresh _ _ _ _ | .selfRefreshEntry _ _ =>
    [.now, .busyAt, .svc, .stks]
  | .ceBucketLeak _ =>
    [.ecc, .now, .busyAt, .svc, .stks]
  | .drbgFail _ =>
    [.crn, .onx, .now, .busyAt, .svc, .out]
  | .controlCycle _ =>
    [.pwr, .fuse, .boot, .isl, .crn, .cp, .glb, .pool, .vrb, .bulk, .coh, .fe, .ws, .kv, .lnk, .rte, .e2e, .qos,
     .ecc, .trv, .onx, .sec, .now, .busyAt, .svc, .free, .out, .mem, .stks]
  | .resyncDone _ =>
    [.crn, .cp, .now, .busyAt, .svc, .out]
  | .lPowerUpdate _ | .lThermalUpdate _ =>
    [.isl, .crn, .bel, .now, .busyAt, .svc, .free, .out]
  | .cairnMergeRelease _ | .cairnCritFullAlert _ =>
    [.crn, .now, .busyAt, .svc, .out]

/-- Where the bytes of one piece of a write of region i land in DRAM: in its local extent or in every shadow of its anchor's unit, and in
the new run of an extent on its way (04 R167, R178). -/
def landings (s : State) (i : Nat) (p : Part) : List Nat :=
  match p.x.anchor with
  | none =>
    let x := extentNow s i p.x
    partPa p :: (if x.migrating then [x.newStack * 2 ^ 36 + x.newBase * unit2M + p.ofs] else [])
  | some a => (s.pool.shadows.filter fun u => u.anchor = a && u.unit = p.ofs / unit2M).map fun u =>
      u.stack * 2 ^ 36 + u.base * unit2M + p.ofs % unit2M

/-- The byte at a is one of the n bytes at pa. -/
def inBytes (pa n a : Nat) : Prop := pa ≤ a ∧ a < pa + n

/-- The byte at a lies in a line that holds one of the n bytes at pa. -/
def inLines (pa n a : Nat) : Prop := pa / 128 ≤ a / 128 ∧ a / 128 ≤ (pa + n - 1) / 128

/-- The copy of the extent of a piece of region i, which goes on at a write, may change the byte at a: the extent is on its way, and the
byte lies in its new run, or in its old run in a line with an error pattern (04 R178). -/
def inCopy (s : State) (i : Nat) (p : Part) (a : Nat) : Prop :=
  let x := extentNow s i p.x
  p.x.anchor = none ∧ x.migrating = true ∧
    (inBytes (x.newStack * 2 ^ 36 + x.newBase * unit2M) (x.len * unit2M) a ∨
      (inBytes (x.stack * 2 ^ 36 + x.base * unit2M) (x.len * unit2M) a ∧ linePat s (a / 128) ≠ []))

/-- The lines that hold the n bytes at pa have no error pattern. -/
def soundAt (s : State) (pa n : Nat) : Prop := ∀ l, pa / 128 ≤ l → l ≤ (pa + n - 1) / 128 → linePat s l = []

/-! What a command meets: claims about verb commands and management commands start from here. -/

/-- The request of a verb command as the command finds it (06 R227): the delivered request that waits for it, taken out of the
waiting requests, or the command's own request after admission. None while requests reach no admission, and for a
request that admission refuses. -/
def taken (r : Req) (e : Env) (s : State) : Option (Waiting × State) :=
  if !reachable (applyEnv e s) then none else
  match inboxOf (applyEnv e s) r with
  | some w => some (w, setSvc (verbClass (applyEnv e s) r)
      (setVrb (fun v => { v with waiting := eraseFirst (fun x => x == w) v.waiting }) (applyEnv e s)))
  | none =>
    match admission false r (applyEnv e s) with
    | (s1, true) =>
      some (admitted false r s1, setSvc (verbClass s1 r) (setVrb (fun v => { v with
        peak := max v.peak (ctxAll s1 + (if noContext r.opcode then 0 else 1)), nextOrd := v.nextOrd + 1
        lastAdmit := s1.now }) (leaseArrival r s1)))
    | (_, false) => none

/-- CTL is clear, or the verb does not read WIN as a window, or it is LOAD or STORE (17 R657). -/
def ctlFits (r : Req) : Bool := !(reqCtl r && usesWin r && r.opcode ≠ 1 && r.opcode ≠ 2)

/-- The open session of a management command and the state it is served in: time has come to the command, and the session's
idle time starts anew (14 R585, R586); a module in Bivouac wakes first (02 R77). None for a name of no open session. -/
def served (sess t : Nat) (s : State) : Option (Sess × State) :=
  let s1 := mgmtWake (noteStep4 (atTime t s))
  match sessAt s1 sess with
  | none => none
  | some x => some (x, setMgmt (fun m => { m with
      sess := mapIf (fun y => y.id = sess) (fun y => { y with lastUse := s1.now }) m.sess }) s1)

/-- The operation that a command of an engine's port finds (07 R287): the one in execution on the port, while it waits for no answer
and no second execution, or the next one of the stream, issued now; its engine runs and its banks are its own. None
where the port has nothing to do. -/
def opNow (n : Nat) (mover : Bool) (s : State) : Option (OpCtx × State) :=
  match runOf s n with
  | none => none
  | some (p, r) =>
    let s := setSvc 0 s
    if (engAt s n).st ≠ .running || (engAt s n).ended then none
    else match if mover then (engAt s n).mov else (engAt s n).comp with
      | some f =>
        if f.tags.isEmpty && f.wr.isEmpty && !(s.fe.reexec.any fun x => x.eng = n && !mover)
            && (foreignBank (engAt s n) mover (opAt p n f.i)).isNone then
          some ({ n := n, p := p, r := r, d := opAt p n f.i, f := f }, s)
        else none
      | none =>
        let d := opAt p n (engAt s n).pc
        let f : Flight := { i := (engAt s n).pc, since := s.now, ord := s.vrb.nextOrd }
        let s1 := noteWork p.idx (advance n d (modEng n (fun e =>
          if mover then { e with mov := some f } else { e with comp := some f }) s))
        if waitMet (engAt s n) d && (foreignBank (engAt s1 n) mover d).isNone then
          some ({ n := n, p := p, r := r, d := d, f := f }, s1)
        else none

end Sys2Proof.Machine
end

