-- ==== Sys2Proof/Certificates/Slice0/Obligations.lean ====
section
/-! DEFINITION. The statements for the provers. Each docstring says in words what its statement says. -/

open Sys2Proof Sys2Proof.Machine

/-- With a command at the front of its queue the block runs exactly that command on the state with the queue's rest.
On an empty queue it idles (the model's choice, log entry 12): only the time, the time the block was last busy, and the write queues of
the stacks move on. -/
def Obligations.StepRunsTheFrontCommand : Prop :=
  (∀ (c : Instr) (l : List Instr) (s : State), step { s with pending := c :: l } = exec c { s with pending := l }) ∧
  (∀ s : State, s.pending = [] → ∃ t, step s = .next t ∧ t.now = s.now + 1000 ∧
    AgreeOff [.now, .busyAt, .stks] s t ∧ t.stks = s.stks.map drained)

/-- In every state every command ends in a next state: what a rule refuses is answered with its status or has no effect, and
nothing stops the block. -/
def Obligations.EveryCommandAnswers : Prop := ∀ (c : Instr) (s : State), ∃ t, exec c s = .next t

/-- Before power is first applied: no rail is up, the start has not begun, the transmitters are dark, no session, tenant key, region,
window, plan, weight set or KV object exists, pool memory lists nothing, no command waits, the fault queue is empty, and
BEL_PWR.CAP_W reads its reset value of 3,300 W. -/
def Obligations.ResetState : Prop :=
  State.reset.pwr.standbyOk = false ∧ State.reset.pwr.mainOn = false ∧ State.reset.boot.st = .held ∧
  State.reset.pwr.txDark = true ∧ State.reset.bel.capW = 3300 ∧ State.reset.pending = [] ∧ State.reset.mem = [] ∧
  State.reset.mgmt.sess = [] ∧ State.reset.onx.tkeys = [] ∧ State.reset.pool.regions = [] ∧ State.reset.pool.windows = [] ∧
  State.reset.fe.plans = [] ∧ State.reset.ws.sets = [] ∧ State.reset.kv.objs = [] ∧ State.reset.crn.q = [] ∧
  State.reset.vrb.waiting = [] ∧ State.reset.e2e.peers = []

/-- Before power is first applied pool memory is canonical, the fault queue holds at most 1,024 records and the retention memory at most
64, and there are 32 stack positions. -/
def Obligations.ResetMeetsTheInvariant : Prop := Inv State.reset

/-- From every state that meets the invariant, whatever command stands at the front of the queue, a step leads to a state that meets it:
pool memory stays canonical, the fault queue never holds more than 1,024 records, the retention memory never more than 64,
and there are 32 stack positions. -/
def Obligations.StepsKeepTheInvariant : Prop := ∀ s t : State, step s = .next t → Inv s → Inv t

/-- Whatever the command, a step never takes time back, never takes a free value or a random draw twice, never unsends what has left the
module, never changes the variant, and never clears the fuse of a programmed or of a revoked system key slot. -/
def Obligations.StepsGoOnward : Prop := ∀ s t : State, step s = .next t → Onward s t

/-- Whatever the state, a command leaves every piece of the state outside its footprint as it was: every unit's registers and tables, pool
memory, the fuses, the flash, the queue of commands. -/
def Obligations.CommandsStayInTheirFootprint : Prop :=
  ∀ (c : Instr) (s t : State), exec c s = .next t → AgreeOff (footprint c) s t

/-- POWER_ON of an unpowered module within 260 V to 410 V runs Belay and, where EN is high, the main converter, with the cause
POWER_ON and empty pool memory; flash stays.
EN_RISE starts the main converter where nothing but an EN-low hold stood.
EN_FALL of an open module with contexts begins the leave with cause 0x08; of a module in reset with its rails up it turns the
converter off.
RESET_N low for 1 us or longer resets with cause 0x01, dark transmitters and empty pool memory.
A module whose Belay has stopped, 10 ms after a loss of Belay's heartbeats, stays held: EN_RISE moves the pin alone, and RESET_N
changes neither the supply nor the boot state.
An input above 420 V turns the main converter off and resets with cause 0x04 under the emergency hold.
A dropout of less than 200 us changes nothing but the time; a longer one leaves the module without power (the model's
choice, log entry 39), with flash and fuses as they were.
Loss of the main rails darkens the transmitters at once and loses the module's state; the cause is a free value among the causes of
R91 (log entry 13). A module that is already held keeps its hold and its cause. -/
def Obligations.PinsAndPowerComplete : Prop :=
  ((∀ (b : BusIn) (s : State), s.pwr.standbyOk = false → 260000 ≤ b.mv → b.mv ≤ 410000 →
    ∃ t, exec (.powerOn b) s = .next t ∧ t.isl.belayOn = true ∧ t.pwr.standbyOk = true ∧ t.pwr.busMv = b.mv
      ∧ t.pwr.mainOn = b.en ∧ t.pwr.pgood = b.en ∧ t.pwr.hold = .none ∧ t.boot.st = .held ∧ t.boot.cause = 0
      ∧ t.mem = [] ∧ t.flash = s.flash) ∧
  (∀ (t0 : Nat) (s : State), s.pwr.standbyOk = true → s.isl.belayOn = true → s.pwr.en = false → s.pwr.hold = .none ∨ s.pwr.hold = .enLow →
    s.pwr.mainOn = false → 260000 ≤ s.pwr.busMv → s.pwr.busMv ≤ 410000 →
    ∃ t, exec (.enRise t0) s = .next t ∧ t.pwr.en = true ∧ t.pwr.mainOn = true ∧ t.pwr.pgood = true
      ∧ t.pwr.hold = .none ∧ t.boot = s.boot) ∧
  (∀ (t0 : Nat) (s : State), s.pwr.standbyOk = true → s.isl.belayOn = true → s.pwr.en = true → s.pwr.hold = .none →
    s.boot.st = .poolOpen → 0 < ctxAll s →
    ∃ t, exec (.enFall t0) s = .next t ∧ t.pwr.en = false ∧ t.boot.st = .leaving
      ∧ t.boot.leave = some { since := max s.now t0, what := .thenEnOff, cause := 8 }) ∧
  (∀ (t0 : Nat) (s : State), s.pwr.standbyOk = true → s.isl.belayOn = true → s.pwr.en = true → s.boot.st = .held →
    s.pwr.hold ≠ .restartLimit → (s.boot.cause = 7 → max s.now t0 ≤ s.pwr.heldAt + 10000000) → s.pwr.mainOn = true →
    ∃ t, exec (.enFall t0) s = .next t ∧ t.pwr.en = false ∧ t.pwr.mainOn = false ∧ t.pwr.pgood = false
      ∧ t.pwr.hold = .enLow ∧ t.boot.cause = 8) ∧
  (∀ (dur t0 : Nat) (s : State), 1000 ≤ dur → s.pwr.standbyOk = true → s.isl.belayOn = true →
    (s.boot.cause = 7 → max s.now t0 ≤ s.pwr.heldAt + 10000000) →
    ∃ t, exec (.resetNAssert dur t0) s = .next t ∧ t.boot.st = .held ∧ t.boot.cause = 1 ∧ t.pwr.txDark = true
      ∧ t.pwr.resetN = true ∧ t.mem = [] ∧ t.vrb = ({} : State).vrb ∧ t.pool = ({} : State).pool ∧ t.flash = s.flash) ∧
  (∀ (dur t0 : Nat) (s : State), s.pwr.hold = .module → s.boot.cause = 7 → s.pwr.heldAt + 10000000 < max s.now t0 →
    (∃ t, exec (.resetNAssert dur t0) s = .next t ∧ t.boot = s.boot ∧ t.pwr = s.pwr ∧ t.isl.belayOn = false) ∧
    (s.pwr.standbyOk = true → s.pwr.en = false → ∃ t, exec (.enRise t0) s = .next t ∧ t.boot = s.boot
      ∧ t.pwr = { s.pwr with en := true } ∧ t.isl.belayOn = false))) ∧
  ((∀ (mv t0 : Nat) (s : State), s.pwr.standbyOk = true → 420000 < mv →
    ∃ t, exec (.inputOvervoltage mv t0) s = .next t ∧ t.pwr.mainOn = false ∧ t.pwr.pgood = false ∧ t.pwr.ovp = true
      ∧ t.pwr.hold = .emergency ∧ t.pwr.txDark = true ∧ t.boot.st = .held ∧ t.boot.cause = 4 ∧ t.mem = []) ∧
  (∀ (durUs t0 : Nat) (s : State), durUs < 200 → exec (.inputDropout durUs t0) s = .next (atTime t0 s)) ∧
  (∀ (durUs t0 : Nat) (s : State), 200 ≤ durUs →
    ∃ t, exec (.inputDropout durUs t0) s = .next t ∧ t.pwr.standbyOk = false ∧ t.pwr.mainOn = false ∧ t.boot.st = .held
      ∧ t.mem = [] ∧ t.flash = s.flash ∧ t.fuse.prog = s.fuse.prog) ∧
  (∀ (t0 : Nat) (s : State), s.pwr.mainOn = true → s.pwr.hold = .none →
    ∃ t, exec (.mainRailLoss t0) s = .next t ∧ t.pwr.pgood = false ∧ t.pwr.txDark = true ∧ t.boot.st = .held
      ∧ t.boot.cause ≤ 8 ∧ t.mem = [] ∧ t.flash = s.flash) ∧
  (∀ (t0 : Nat) (s : State), s.pwr.mainOn = true → s.pwr.hold ≠ .none →
    ∃ t, exec (.mainRailLoss t0) s = .next t ∧ t.pwr = { s.pwr with pgood := false, txDark := true } ∧ t.boot = s.boot))

/-- START_SEQUENCE with a rail beyond the ROM's thresholds stops at step 1, with those thresholds in force.
START_SEQUENCE with good rails and no hold ends in NO_IMAGE where no slot is chosen; with an image and a working control
processor it trains, with step 3 done and the transmitters lit.
POOL_OPEN and BACKOFF_EXPIRY open the module when step 4 has finished and a condition of R56 holds: into POOL_OPEN with a
trained stack, into FORWARD_ONLY with none. -/
def Obligations.StartAndOpenComplete : Prop :=
  (∀ (b : StartIn) (s : State), s.boot.st = .held → s.pwr.standbyOk = true → s.pwr.en = true → s.pwr.mainOn = true →
    s.pwr.hold = .none → railsOk (romThresholds s) = false →
    exec (.startSequence b) s = .next (romThresholds (atTime (max s.now b.t) s))) ∧
  (∀ (b : StartIn) (s : State), s.boot.st = .held → s.pwr.standbyOk = true → s.pwr.en = true → s.pwr.mainOn = true →
    s.pwr.hold = .none → railsOk (romThresholds s) = true →
    ∃ t, exec (.startSequence b) s = .next t ∧
      ((startTo2 b s).boot.slot = .noSlot → t.boot.st = .noImage ∧ t.now = max s.now b.t + b.imgMs * 1000000) ∧
      ((startTo2 b s).boot.slot ≠ .noSlot → b.cp0Ok = true ∨ b.cp1Ok = true → t.boot.st = .training ∧ t.boot.step3Done = true
        ∧ t.pwr.txDark = false ∧ t.onx.udsLocked = true ∧ t.now = max s.now b.t + max b.imgMs b.cpMs * 1000000)) ∧
  (∀ (t0 : Nat) (s : State), mayOpen (noteStep4 (atTime t0 s)) = true →
    ∃ t, exec (.poolOpen t0) s = .next t ∧ t.boot.openAt = max s.now t0
      ∧ t.boot.st = (if someStack (noteStep4 (atTime t0 s)) then .poolOpen else .forwardOnly)) ∧
  (∀ (t0 : Nat) (s : State), s.boot.st = .backoff → s.boot.step3End + s.boot.backoffMs * 1000000 ≤ max s.now t0 →
    ∃ t, exec (.backoffExpiry t0) s = .next t ∧ t.boot.openAt = max s.now t0
      ∧ t.boot.st = (if someStack (noteStep4 (atTime t0 s)) then .poolOpen else .forwardOnly))

/-- AUTO_RESTART after a cause of 0x05 to 0x07 restarts below 3 restarts in 600 s and else holds the module in HELD_SHUTDOWN;
more than 10 ms after a loss of Belay's heartbeats Belay has stopped and the module stays held.
BELAY_HEARTBEAT_LOSS of a module with open contexts begins the leave with cause 0x07; of one in NO_IMAGE, whose core runs, it resets
with that cause.
MODULE_RESET of an OPERATOR answers OK and begins the leave with cause 0x02.
LEAVE_CONTEXT_TIMEOUT, 1 ms into a leave, ends it with its reset.
A loss of lock of any island but the core is counted, named and has its lock bit cleared before the island's own action; the
core's resets the module with cause 0x05.
PORT_PLL_RELOCK sets the port's lock bit again. -/
def Obligations.RestartsAndLocksComplete : Prop :=
  (∀ (t0 : Nat) (s : State), s.boot.st = .held → s.pwr.hold = .module → s.isl.belayOn = true → 5 ≤ s.boot.cause →
    s.boot.cause ≤ 7 → (s.boot.cause = 7 → max s.now t0 ≤ s.pwr.heldAt + 10000000) →
    ∃ t, exec (.autoRestart t0) s = .next t ∧
      ((recentRestarts (atTime t0 s)).length < 3 → t.pwr.hold = .none
        ∧ t.boot.restarts = recentRestarts (atTime t0 s) ++ [max s.now t0]) ∧
      (3 ≤ (recentRestarts (atTime t0 s)).length → t.pwr.hold = .restartLimit ∧ t.boot.st = .heldShutdown)) ∧
  (∀ (t0 : Nat) (s : State), s.pwr.hold = .module → s.boot.cause = 7 → s.pwr.heldAt + 10000000 < max s.now t0 →
    ∃ t, exec (.autoRestart t0) s = .next t ∧ t.isl.belayOn = false ∧ t.pwr = s.pwr ∧ t.boot = s.boot) ∧
  (∀ (t0 : Nat) (s : State), s.boot.st = .noImage → coreOn s = true →
    ∃ t, exec (.belayHeartbeatLoss t0) s = .next t ∧ t.boot.st = .held ∧ t.boot.cause = 7 ∧ t.pwr.hold = .module) ∧
  (∀ (t0 : Nat) (s : State), running s = true → 0 < ctxAll s →
    ∃ t, exec (.belayHeartbeatLoss t0) s = .next t ∧ t.boot.st = .leaving
      ∧ t.boot.leave = some { since := max s.now t0, what := .thenReset, cause := 7 } ∧ t.isl.coreHb = false) ∧
  (∀ (sess t0 : Nat) (s s0 : State) (x : Sess), served sess t0 s = some (x, s0) → mayRun x .operator = true →
    running s0 = true → 0 < ctxAll s0 →
    ∃ t, exec (.moduleReset sess t0) s = .next t ∧ t.out = s0.out ++ [.mgmt sess .ok []] ∧ t.boot.st = .leaving
      ∧ t.boot.leave = some { since := s0.now, what := .thenReset, cause := 2 }) ∧
  (∀ (t0 : Nat) (s : State) (l : Leave), s.boot.st = .leaving → s.boot.leave = some l → l.what = .thenReset →
    l.since + 1000000 ≤ max s.now t0 →
    ∃ t, exec (.leaveContextTimeout t0) s = .next t ∧ t.boot.st = .held ∧ t.boot.cause = l.cause ∧ t.vrb.waiting = []
      ∧ t.mem = [] ∧ t.pwr.txDark = true) ∧
  (∀ (x : Island) (t0 : Nat) (s : State), islandLock s x = true →
    exec (.pllLossOfLock x t0) s = .next (islandLost x (cairnAt 0x0C 1 (islandIdx x) 0 0 (islandIdx x) 0xFFFF .ok
      (setIsl (fun i => { islandDown x i with lolCount := satAdd 16 i.lolCount 1, lolLast := islandIdx x })
        (atTime t0 s))))) ∧
  (∀ (t0 : Nat) (s : State), islandLock s .core = true →
    ∃ t, exec (.pllLossOfLock .core t0) s = .next t ∧ t.boot.cause = 5 ∧ t.boot.st = .held ∧ t.pwr.txDark = true) ∧
  (∀ (k : Fin 64) (t0 : Nat) (s : State), s.boot.step3Done = true → s.isl.portLock.getLsbD k.val = false →
    ∃ t, exec (.portPllRelock k t0) s = .next t ∧ t.isl.portLock = s.isl.portLock ||| 1#64 <<< k.val
      ∧ t.lnk = s.lnk)

/-- BIVOUAC_ENTER of an OPERATOR enters Bivouac when R74 holds, and answers BUSY, awake, when it does not.
BIVOUAC_AUTO_ENTRY enters when BIV_AUTO is set and R74 has held for BIV_IDLE_MS.
A command of a management session wakes the module first, with the wake source of management, or resets it where the checksums
differ (a free value, log entry 41).
BIVOUAC_WAKE of a management or Belay source with agreeing checksums leaves Bivouac into POOL_OPEN; with disagreeing ones it
resets with cause 0x06. -/
def Obligations.BivouacComplete : Prop :=
  (∀ (sess t0 : Nat) (s s0 : State) (x : Sess), served sess t0 s = some (x, s0) → mayRun x .operator = true →
    s0.boot.st = .poolOpen → bivReady s0 = true → bivIdle s0 = true →
    ∃ t, exec (.bivouacEnter sess t0) s = .next t ∧ t.boot.st = .bivouac
      ∧ t.boot.bivEntries = satAdd 16 s0.boot.bivEntries 1 ∧ t.mem = s0.mem) ∧
  (∀ (sess t0 : Nat) (s s0 : State) (x : Sess), served sess t0 s = some (x, s0) → mayRun x .operator = true →
    (bivReady s0 && bivIdle s0) = false → exec (.bivouacEnter sess t0) s = .next (mgmtReply sess .busy [] s0)) ∧
  (∀ (t0 : Nat) (s s0 : State), s0 = atTime t0 s → s.boot.st = .poolOpen → s.boot.bivAuto = true → bivReady s0 = true →
    bivIdle s0 = true → s0.busyAt + s.boot.bivIdleMs * 1000000 ≤ max s.now t0 →
    ∃ t, exec (.bivouacAutoEntry t0) s = .next t ∧ t.boot.st = .bivouac
      ∧ t.boot.bivEntries = satAdd 16 s.boot.bivEntries 1 ∧ t.mem = s.mem) ∧
  (∀ (sess t0 : Nat) (s s0 : State), s0 = noteStep4 (atTime t0 s) → s0.boot.st = .bivouac → sessAt s0 sess = none →
    exec (.bivouacEnter sess t0) s =
      .next (if (wakeDiffers s0).2 then resetModule 6 .module (wakeDiffers s0).1 else wakeUp 2 (wakeDiffers s0).1)) ∧
  (∀ (w : WakeIn) (s : State), s.boot.st = .bivouac → w.src = .mgmt ∨ w.src = .belay → w.chkOk = true →
    exec (.bivouacWake w) s = .next (wakeAdmit (wakeCode w.src) (atTime w.t s))) ∧
  (∀ (w : WakeIn) (s : State), s.boot.st = .bivouac → w.chkOk = false →
    ∃ t, exec (.bivouacWake w) s = .next t ∧ t.boot.st = .held ∧ t.boot.cause = 6 ∧ t.mem = [])

/-- GLB_ISL_LOL_EVT_READ on an open session answers OK with LAST in bits 23 to 16 and COUNT in bits 15 to 0, clears COUNT and keeps LAST. -/
def Obligations.LolEventReadClears : Prop :=
  (∀ (sess t0 : Nat) (s s0 : State) (x : Sess), served sess t0 s = some (x, s0) →
    ∃ t, exec (.glbIslLolEvtRead sess t0) s = .next t ∧ t.out = s0.out ++ [.mgmt sess .ok [w64 (pk [(23, 16, s0.isl.lolLast), (15, 0, s0.isl.lolCount)])]]
      ∧ t.isl.lolCount = 0
      ∧ t.isl.lolLast = s0.isl.lolLast)

/-- A read of GLB_ACC_ERR, BOOT_UNREACH_DROP, WIN_REVOKE_ABORT, ANC_EVT, COH_EVT, VRB_EVT, FE_EVT, FE_ARITH_EVT, WS_EVT, KV_EVT,
LNK_ERR, RTE_EVT, E2E_EVT, E2E_DROP, QOS_EVT or DRC_EVT on an open session answers OK with its
counts in their fields, of the selected port or stack where the register selects one, and then clears them and nothing else
(where the variant has the unit, and for DRC_EVT where the stack serves). -/
def Obligations.EventReadsClear : Prop :=
  ∀ (sess t0 k d : Nat) (s s0 : State) (x : Sess) (ok : List (Nat × Nat × Nat) → State → State), served sess t0 s = some (x, s0) →
    k = (selsOf s0 (.mgmt sess)).lnk % 64 → d = (selsOf s0 (.mgmt sess)).drcStk % 32 →
    ok = (fun l u => mgmtReply sess .ok [w64 (pk l)] u) →
    (exec (.glbAccErrRead sess t0) s = .next (ok [(31, 16, s0.glb.mgmtDenied), (15, 0, s0.glb.tntDenied)]
      { s0 with glb := { s0.glb with mgmtDenied := 0, tntDenied := 0 } })) ∧
    (exec (.bootUnreachDropRead sess t0) s = .next (ok [(31, 0, s0.boot.unreachDrop)]
      (setBoot (fun y => { y with unreachDrop := 0 }) s0))) ∧
    (exec (.winRevokeAbortRead sess t0) s = .next (ok [(31, 0, s0.pool.revokeAbort)]
      (setPool (fun y => { y with revokeAbort := 0 }) s0))) ∧
    (hasAnchors s0 = true → exec (.ancEvtRead sess t0) s = .next (ok
      [(47, 32, s0.pool.ancRenewFail), (31, 16, s0.pool.ancReclaims), (15, 0, s0.pool.ancLosses)]
      (setPool (fun y => { y with ancRenewFail := 0, ancReclaims := 0, ancLosses := 0 }) s0))) ∧
    (exec (.cohEvtRead sess t0) s = .next (ok
      [(63, 48, s0.coh.leaseEnd), (47, 32, s0.coh.busyFull), (31, 16, s0.coh.recalls), (15, 0, s0.coh.invals)]
      (setCoh (fun y => { y with leaseEnd := 0, busyFull := 0, recalls := 0, invals := 0 }) s0))) ∧
    (exec (.vrbEvtRead sess t0) s = .next (ok
      [(63, 48, s0.vrb.busyCtx), (47, 32, s0.vrb.absent), (31, 16, s0.vrb.denied), (15, 0, s0.vrb.evtDrop)]
      (setVrb (fun y => { y with busyCtx := 0, absent := 0, denied := 0, evtDrop := 0 }) s0))) ∧
    (hasEngines s0 = true → exec (.feEvtRead sess t0) s = .next (ok
      [(63, 48, s0.fe.bankColl), (47, 32, s0.fe.parkFull), (31, 16, s0.fe.deadlock), (15, 0, s0.fe.quarantine)]
      (setFe (fun y => { y with bankColl := 0, parkFull := 0, deadlock := 0, quarantine := 0 }) s0))) ∧
    (hasEngines s0 = true → exec (.feArithEvtRead sess t0) s = .next (ok
      [(63, 32, s0.fe.escalated), (31, 16, s0.fe.abftFail), (15, 0, s0.fe.abftRetry)]
      (setFe (fun y => { y with escalated := 0, abftFail := 0, abftRetry := 0 }) s0))) ∧
    (hasEngines s0 = true → exec (.wsEvtRead sess t0) s = .next (ok
      [(63, 48, s0.ws.lost), (47, 32, s0.ws.poisoned), (31, 16, s0.ws.refused), (15, 0, s0.ws.dedup)]
      (setWs (fun y => { y with lost := 0, poisoned := 0, refused := 0, dedup := 0 }) s0))) ∧
    (exec (.kvEvtRead sess t0) s = .next (ok
      [(63, 48, s0.kv.expired), (47, 32, s0.kv.lost), (31, 16, s0.kv.cow), (15, 0, s0.kv.immutable)]
      (setKv (fun y => { y with expired := 0, lost := 0, cow := 0, immutable := 0 }) s0))) ∧
    (exec (.lnkErrRead sess t0) s = .next (ok
      [(63, 48, (portAt s0 k).flaps), (47, 32, (portAt s0 k).fecUncorr), (31, 16, (portAt s0 k).replays), (15, 0, (portAt s0 k).crcErr)]
      (modPort k (fun y => { y with flaps := 0, fecUncorr := 0, replays := 0, crcErr := 0 }) s0))) ∧
    (exec (.rteEvtRead sess t0) s = .next (ok
      [(63, 48, s0.rte.tc4Demote), (47, 32, s0.rte.hopsDrop), (31, 16, s0.rte.ageDrop), (15, 0, s0.rte.noroute)]
      (setRte (fun y => { y with tc4Demote := 0, hopsDrop := 0, ageDrop := 0, noroute := 0 }) s0))) ∧
    (exec (.e2eEvtRead sess t0) s = .next (ok
      [(63, 48, s0.e2e.nodeLost), (47, 32, s0.e2e.evict), (31, 16, s0.e2e.retx), (15, 0, s0.e2e.stale)]
      (setE2e (fun y => { y with nodeLost := 0, evict := 0, retx := 0, stale := 0 }) s0))) ∧
    (exec (.e2eDropRead sess t0) s = .next (ok
      [(63, 48, s0.e2e.streamDrop), (47, 32, s0.e2e.winDrop), (31, 16, s0.e2e.storeFull), (15, 0, s0.e2e.dup)]
      (setE2e (fun y => { y with streamDrop := 0, winDrop := 0, storeFull := 0, dup := 0 }) s0))) ∧
    (exec (.qosEvtRead sess t0) s = .next (ok
      [(63, 48, s0.qos.partLate), (47, 32, s0.qos.shpFull), (31, 16, s0.qos.partClamp)]
      (setQos (fun y => { y with partLate := 0, shpFull := 0, partClamp := 0 }) s0))) ∧
    (stackServes s0 d = true → exec (.drcEvtRead sess t0) s = .next (ok
      [(63, 32, (stackAt s0 d).promoted), (31, 16, (stackAt s0 d).rawWait), (15, 0, (stackAt s0 d).srEntries)]
      (modStack d (fun y => { y with promoted := 0, rawWait := 0, srEntries := 0 }) s0)))

/-- REG_READ of 1 to 64 registers within the window answers OK with the values read in rising order; REG_WRITE of an OPERATOR
answers OK after the write, of which GLB_SCRATCH_SET's is spelled out: it sets bits of GLB_SCRATCH; a read outside the window is
denied and counted.
TENANT_PAGE_ACCESS: a LOAD of 8 aligned bytes of the page answers OK with the register's bytes, a STORE with a payload slot
writes it and answers OK; any other access is denied and counted.
A read of ONX_EVT, SEC_EVT, BEL_EVT, CRN_DROP or the four CRN_MERGE registers on an open session answers OK with the counts and
clears them; the fault queue stays. -/
def Obligations.RegisterAccessCompletes : Prop :=
  (∀ (sess a n t0 : Nat) (s s0 : State) (x : Sess), served sess t0 s = some (x, s0) → inWindow a (clampTo 1 64 n) = true →
    exec (.regRead sess a n t0) s = .next (mgmtReply sess .ok (readRegs (.mgmt sess) (clampTo 1 64 n) a s0).2
      (readRegs (.mgmt sess) (clampTo 1 64 n) a s0).1)) ∧
  (∀ (sess a n t0 : Nat) (s s0 : State) (x : Sess), served sess t0 s = some (x, s0) → inWindow a (clampTo 1 64 n) = false →
    exec (.regRead sess a n t0) s = .next (mgmtDenied sess s0)) ∧
  (∀ (sess a : Nat) (v : BitVec 64) (e : Env) (s s0 : State) (x : Sess), served sess e.t (applyEnv e s) = some (x, s0) →
    mayRun x .operator = true → inWindow a 1 = true →
    exec (.regWrite sess a v e) s = .next (mgmtReply sess .ok [] (writeReg (.mgmt sess) 0 a v.toNat s0))) ∧
  (∀ (sess : Nat) (v : BitVec 64) (e : Env) (s s0 : State) (x : Sess), served sess e.t (applyEnv e s) = some (x, s0) →
    mayRun x .operator = true →
    ∃ t, exec (.regWrite sess 0x30 v e) s = .next t ∧ t.glb.scratch = s0.glb.scratch ||| v ∧ t.out = s0.out ++ [.mgmt sess .ok []]) ∧
  (∀ (r : Req) (e : Env) (s s0 : State) (w : Waiting), taken (withCtl r) e s = some (w, s0) → r.opcode = 1 →
    reqVa r < 4096 → reqVa r % 8 = 0 → reqLen r = 8 → reqCached r = false →
    exec (.tenantPageAccess r e) s = .next (reply w { mkResp (pageRead (reqTid r) (reqVa r) s0).1 w.req .ok with
      payload := le 8 (pageRead (reqTid r) (reqVa r) s0).2.toNat } (pageRead (reqTid r) (reqVa r) s0).1)) ∧
  (∀ (r : Req) (e : Env) (s s0 : State) (w : Waiting), taken (withCtl r) e s = some (w, s0) → r.opcode = 2 →
    reqVa r < 4096 → reqVa r % 8 = 0 → reqLen r = 8 → reqCached r = false → 0 < reqSlots r →
    exec (.tenantPageAccess r e) s =
      .next (replySt w .ok (pageWrite (reqTid r) r.src (reqVa r) (field r.payload 0 8) s0))) ∧
  (∀ (r : Req) (e : Env) (s s0 : State) (w : Waiting), taken (withCtl r) e s = some (w, s0) →
    4096 ≤ reqVa r ∨ reqVa r % 8 ≠ 0 ∨ reqLen r ≠ 8 → exec (.tenantPageAccess r e) s = .next (ctlDenied w s0)) ∧
  (∀ (sess t0 : Nat) (s s0 : State) (x : Sess) (ok : List (Nat × Nat × Nat) → State → State), served sess t0 s = some (x, s0) →
    ok = (fun l u => mgmtReply sess .ok [w64 (pk l)] u) →
    (exec (.onxEvtRead sess t0) s = .next (ok
      [(63, 48, s0.onx.reseed), (47, 32, s0.onx.keyUe), (31, 16, s0.onx.unwrapFail), (15, 0, s0.onx.sysDenied)]
      (setOnx (fun y => { y with reseed := 0, keyUe := 0, unwrapFail := 0, sysDenied := 0 }) s0))) ∧
    (exec (.secEvtRead sess t0) s = .next (ok
      [(63, 48, s0.sec.hsFail), (47, 32, s0.sec.blocks), (31, 16, s0.sec.noSession), (15, 0, s0.sec.authFail)]
      (setSec (fun y => { y with hsFail := 0, blocks := 0, noSession := 0, authFail := 0 }) s0))) ∧
    (exec (.belEvtRead sess t0) s = .next (ok
      [(63, 48, s0.bel.stkFail), (47, 32, s0.bel.capSteps), (31, 16, s0.bel.alerts), (15, 0, s0.bel.hangDecl)]
      (setBel (fun y => { y with stkFail := 0, capSteps := 0, alerts := 0, hangDecl := 0 }) s0))) ∧
    (exec (.crnDropRead sess t0) s = .next (ok [(31, 0, s0.crn.dropped)]
      (setCrn (fun y => { y with dropped := 0, overflow := false }) s0)))) ∧
  (∀ (sess t0 : Nat) (s s0 : State) (x : Sess), served sess t0 s = some (x, s0) →
    ∃ t, exec (.crnMergeRead sess t0) s = .next t ∧ t.crn.q = s0.crn.q ∧ (∀ i, i < 16 → nth 0 t.crn.merge i = 0)
      ∧ t.out = s0.out ++ [.mgmt sess .ok ((List.range 4).map fun i => w64 (pk [(63, 48, nth 0 s0.crn.merge (4 * i + 3)),
        (47, 32, nth 0 s0.crn.merge (4 * i + 2)), (31, 16, nth 0 s0.crn.merge (4 * i + 1)), (15, 0, nth 0 s0.crn.merge (4 * i))]))])

/-- Of an open OPERATOR or factory session, with no other session staging: BEGIN outside a leave erases the idle slot with its
markers and stages in WRITING; WRITE in WRITING, at or above the end of the last write and within 4 MiB, programs its data there
(at most 65,536 bytes; of an empty write one free byte); VERIFY outside IDLE answers OK with VERIFIED when the slot passes every
check and DENIED with FAILED and the reason when not; COMMIT in VERIFIED sets the slot's commit marker, and slot A's SUPERSEDE where
it committed slot B; ABORT stages nothing. While another session stages, each completes with BUSY.
MGMT_SESSION_CLOSE ends its session and, where it staged without a commit, the staging.
A handshake of a running core opens a session of the role of its chain's anchor, within 10 handshakes per second and 4
sessions of its port; one over these limits is counted as failed and opens none.
A session idle for 300 s closes. -/
def Obligations.StagingAndSessionsComplete : Prop :=
  (∀ (sess t0 : Nat) (s s0 : State) (x : Sess), served sess t0 s = some (x, s0) → mayRun x .stage = true →
    (otherStages sess s0 = false →
      (s0.boot.st ≠ .leaving →
        ∃ t, exec (.imageStageBegin sess t0) s = .next t ∧ t.out = s0.out ++ [.mgmt sess .ok []] ∧ t.boot.stage = .writing
          ∧ t.boot.stageTarget = idleSlot s0 ∧ t.boot.stageSess = some sess ∧ t.boot.stageEnd = 0
          ∧ (slotDev t (idleSlot s0)).image = [] ∧ (slotDev t (idleSlot s0)).commit = 0xFF
          ∧ (slotDev t (idleSlot s0)).supersede = 0xFF) ∧
      (∀ (ofs : Nat) (data d : Bytes) (s1 : State), (s1, d) = (if data.isEmpty then freeBytes 1 s0 else (s0, data.take 65536)) →
        s0.boot.stage = .writing → ofs + d.length ≤ 0x400000 → s0.boot.stageEnd ≤ ofs →
        ∃ t, exec (.imageStageWrite sess ofs data t0) s = .next t ∧ t.out = s0.out ++ [.mgmt sess .ok []]
          ∧ t.boot.stageEnd = ofs + d.length ∧ t.boot.stageWritten = s0.boot.stageWritten + d.length
          ∧ (slotDev t s0.boot.stageTarget).image = programAt ofs d (slotDev s0 s0.boot.stageTarget).image) ∧
      (∀ r, s0.boot.stage ≠ .idle → r = stageReasonOf s0 (slotDev s0 (idleSlot s0)) →
        exec (.imageStageVerify sess t0) s = .next (mgmtReply sess (if r = 0 then .ok else .denied) [] (setBoot (fun b => { b with
          stage := if r = 0 then .verified else .failed, stageTarget := idleSlot s0, stageReason := r, stageSess := some sess }) s0))) ∧
      (s0.boot.stage = .verified →
        ∃ t, exec (.imageStageCommit sess t0) s = .next t ∧ t.out = s0.out ++ [.mgmt sess .ok []] ∧ t.boot.stage = .committed
          ∧ (slotDev t s0.boot.stageTarget).commit = 0
          ∧ t.flash.a.supersede = (if s0.boot.stageTarget = .slotB then 0 else s0.flash.a.supersede)) ∧
      exec (.imageStageAbort sess t0) s = .next (mgmtReply sess .ok [] (setBoot (fun b => { b with stage := .idle, stageSess := none }) s0))) ∧
    (∀ i, otherStages sess s0 = true → i = .imageStageBegin sess t0 ∨ i = .imageStageVerify sess t0 ∨ i = .imageStageCommit sess t0
      ∨ i = .imageStageAbort sess t0 → exec i s = .next (mgmtReply sess .busy [] s0))) ∧
  (∀ (sess t0 : Nat) (s s0 : State) (x : Sess), served sess t0 s = some (x, s0) →
    ∃ t, exec (.mgmtSessionClose sess t0) s = .next t ∧ sessAt t sess = none
      ∧ t.mgmt.sess = s0.mgmt.sess.filter (fun y => y.id ≠ sess)
      ∧ (s0.boot.stageSess = some sess → s0.boot.stage ≠ .committed → t.boot.stage = .idle ∧ t.boot.stageSess = none)) ∧
  (∀ (h : TlsIn) (s : State), coreOn s = true → s.boot.st ≠ .bivouac → sessAt s h.sess = none →
    ((recentHs (atTime h.t s) h.port).length < 10 → countIf (fun x => x.port = h.port) s.mgmt.sess < 4 → ∀ role f,
      roleOf h s = some (role, f) → h.ok = true →
      ∃ t, exec (.mgmtTlsHandshake h) s = .next t ∧ t.mgmt.hsFail = s.mgmt.hsFail ∧ t.mgmt.sess = s.mgmt.sess ++
        [{ id := h.sess, port := h.port, role := role, factory := f, lastUse := max s.now h.t }]) ∧
    (10 ≤ (recentHs (atTime h.t s) h.port).length ∨ 4 ≤ countIf (fun x => x.port = h.port) s.mgmt.sess →
      exec (.mgmtTlsHandshake h) s = .next (setMgmt (fun m => { m with hsFail := satAdd 16 m.hsFail 1 }) (atTime h.t s)))) ∧
  (∀ (sess t0 : Nat) (s : State) (x : Sess), sessAt s sess = some x → s.boot.st ≠ .bivouac →
    x.lastUse + 300000000000 ≤ max s.now t0 →
    ∃ t, exec (.mgmtSessionIdleTimeout sess t0) s = .next t ∧ sessAt t sess = none
      ∧ t.mgmt.sess = s.mgmt.sess.filter (fun y => y.id ≠ sess))

/-- A request taken by REGION_CREATE with local placement and no mirror gets the region that newRegion enters in the tables with
zeroed extents, and the response OK with its index, its effective size and its extents; a MIRRORED one waits for the answer of
its peer to the message 0x90; with PLACE ANCHOR it is made of the named lent anchors of the tenant in list order.
REGION_REPAIR places the lost local extents anew, zeroed, and answers OK with their number.
REGION_DEGRADE of a FENCED region makes it DEGRADED and answers OK.
WINDOW_CREATE over an own region that is not being revoked, without a live mirror, gets the window that newWindow enters, and the
response OK with its handle, offset and length. -/
def Obligations.RegionCommandsComplete : Prop :=
  (∀ (r : Req) (e : Env) (s s0 s1 : State) (w : Waiting) (g : Region), taken { r with opcode := 0x18 } e s = some (w, s0) →
    ctlFits w.req = true → (regParams s0 w.req).place ≠ 2 → (regParams s0 w.req).mode ≠ .mirrored →
    newRegion (reqTid w.req) e.pick (regParams s0 w.req) s0 = (s1, some g) →
    exec (.regionCreate r e) s = .next (reply w (regionResp s1 w.req g (regParams s0 w.req)
      (maskWord (maskStacks s0 (regParams s0 w.req).mask))) s1)) ∧
  (∀ (r : Req) (e : Env) (s s0 s1 : State) (w : Waiting), taken { r with opcode := 0x18 } e s = some (w, s0) →
    ctlFits w.req = true → (regParams s0 w.req).place ≠ 2 → (regParams s0 w.req).mode ≠ .mirrored →
    newRegion (reqTid w.req) e.pick (regParams s0 w.req) s0 = (s1, none) →
    exec (.regionCreate r e) s = .next (replySt w .refused s1)) ∧
  (∀ (r : Req) (e : Env) (s s0 s1 : State) (w : Waiting) (g : Region) (node : Nat),
    taken { r with opcode := 0x18 } e s = some (w, s0) → ctlFits w.req = true → (regParams s0 w.req).place ≠ 2 →
    (regParams s0 w.req).mode = .mirrored → s0.img.mirrorPeers[(regParams s0 w.req).peer]? = some node →
    newRegion (reqTid w.req) e.pick (regParams s0 w.req) s0 = (s1, some g) →
    ∃ tag s2 s3, exec (.regionCreate r e) s = .next (waitFor w (.mirror [tag] (regionResp s3 w.req g (regParams s0 w.req)
        (maskWord (maskStacks s0 (regParams s0 w.req).mask)))) s3)
      ∧ s3 = mirrorMsg node 0x90 g.owner tag 0 g.idx (g.size + 2 ^ 20 * (regParams s0 w.req).ilv) 0 0 [] s2) ∧
  (∀ (r : Req) (e : Env) (s s0 : State) (w : Waiting) (p : RegParams) (ids : List Nat) (as : List Anchor) (i xt : Nat),
    taken { r with opcode := 0x18 } e s = some (w, s0) → ctlFits w.req = true → p = regParams s0 w.req → p.place = 2 →
    p.mode ≠ .coherent → p.mode ≠ .mirrored → 2 * p.anchors ≤ 64 * reqSlots w.req →
    ids = (List.range p.anchors).map (fun i => field w.req.payload (2 * i) 2 % 2 ^ 14) → as = ids.filterMap (anchorAt s0) →
    as.length = ids.length → ids.eraseDups.length = ids.length → (∀ a ∈ as, a.tid = reqTid w.req ∧ a.st = .lent) →
    sumBy Anchor.len as ≤ maxUnits s0 → regionCount s0 (reqTid w.req) < limitOf s0 (reqTid w.req) TenantCfg.maxWindows →
    freeRegion s0 e.pick = some i → xtBase s0 as.length = some xt →
    ∃ s1 g, exec (.regionCreate r e) s = .next (reply w (regionResp s1 w.req g p (maskWord (maskStacks s1 p.mask))) s1)
      ∧ s1.pool.anchors = mapIf (fun a => ids.contains a.idx)
        (fun a => { a with st := .inRegion, region := some i }) (addRegion g s0).pool.anchors
      ∧ s1.pool.regions = (addRegion g s0).pool.regions ∧ g.idx = i ∧ g.owner = reqTid w.req ∧ g.exts = anchorExtents 0 as ∧ g.size = sumBy Anchor.len as) ∧
  (∀ (r : Req) (e : Env) (s s0 s1 : State) (w : Waiting) (g : Region), taken { r with opcode := 0x19 } e s = some (w, s0) →
    ctlFits w.req = true → ownRegion s0 (reqTid w.req) (op0 w.req % 65536) = some g → g.st ≠ .revoking →
    repairN g.idx (g.mode = .coherent) (lostExts g) s0 = some s1 →
    exec (.regionRepair r e) s = .next (reply w { mkResp s1 w.req .ok with
      obj := BitVec.ofNat 32 g.idx, r0 := w64 (lostExts g).length } s1)) ∧
  (∀ (r : Req) (e : Env) (s s0 : State) (w : Waiting) (g : Region), taken { r with opcode := 0x1A } e s = some (w, s0) →
    ctlFits w.req = true → tenantRegion s0 (reqTid w.req) (op0 w.req % 65536) = some g → g.st = .fenced →
    exec (.regionDegrade r e) s = .next (reply w { mkResp s0 w.req .ok with obj := BitVec.ofNat 32 g.idx, r0 := 1 }
      (modRegion g.idx (fun x => { x with st := .degraded, bound := false }) s0))) ∧
  (∀ (r : Req) (e : Env) (s s0 s1 : State) (w : Waiting) (g : Region) (x : Window),
    taken { r with opcode := 0x1B } e s = some (w, s0) → ctlFits w.req = true →
    ownRegion s0 (reqTid w.req) (op0 w.req % 65536) = some g → g.st ≠ .revoking → mirrorLive g = false →
    newWindow (reqTid w.req) e.pick (reqVa w.req) (bits (op1 w.req) 19 0) (bits (op1 w.req) 51 32) g s0 = (s1, .ok, x) →
    exec (.windowCreate r e) s = .next (reply w { mkResp s1 w.req .ok with
      obj := BitVec.ofNat 32 (handleOf x), r0 := w64 (x.regOfs + 2 ^ 32 * x.len) } s1))

/-- WINDOW_GRANT of an own window, on a region without a live mirror, enters the grant in the first unused slot and answers OK with its
index and its effective number of nodes.
REVOKE of a GRANT in use empties its slot at once and answers OK; what was admitted before keeps the grant.
REVOKE of a WINDOW, of a REGION that holds no object and (management) of a TENANT answer and begin the sequence of R171 for
their target; the tenant's plans, weight sets and objects go first and management's OK comes with REVOKE_DONE.
REVOKE_DRAIN_DONE lets the sequence go on, REVOKE_PIN_TIMEOUT at 1 ms ends the descriptors, runs and verbs that still pin
the target and lets it go on; REVOKE_OVERWRITE_DONE of a sequence of a region or window in its overwrite zeroes the extents and lets it
end once the records of its descriptors are out. -/
def Obligations.WindowsAndRevocationsComplete : Prop :=
  ((∀ (r : Req) (e : Env) (s s0 : State) (w : Waiting) (g : Region) (x : Window) (y : Grant) (i : Nat),
    taken { r with opcode := 0x1C } e s = some (w, s0) → ctlFits w.req = true → windowOf s0 (reqWin w.req) = some x →
    ownRegion s0 (reqTid w.req) x.region = some g → x.owner = reqTid w.req → x.revoking = false → g.st ≠ .revoking →
    mirrorLive g = false →
    y = { tid := bits (op1 w.req) 11 0, first := bits (op0 w.req) 19 0, nodes := clampTo 1 1048576 (bits (op0 w.req) 52 32),
          rights := BitVec.ofNat 3 (bits (op1 w.req) 18 16) } →
    y.first + y.nodes ≤ 1048576 → secondNode s0 g y = false →
    (List.range 8).find? (fun i => (x.grants.getD i none).isNone) = some i →
    exec (.windowGrant r e) s = .next (reply w { mkResp s0 w.req .ok with
      obj := BitVec.ofNat 32 (handleOf x), r0 := w64 i, r1 := w64 y.nodes }
      (modWindow x.idx (fun x => { x with grants := setNthD none i (some y) x.grants }) s0))) ∧
  (∀ (r : Req) (e : Env) (s s0 : State) (w : Waiting) (g : Region) (x : Window) (y : Grant),
    taken { r with opcode := 0x1D, subop := grantSubop r.subop } e s = some (w, s0) → ctlFits w.req = true →
    windowOf s0 (reqWin w.req) = some x → ownRegion s0 (reqTid w.req) x.region = some g → x.owner = reqTid w.req →
    x.grants.getD (bits (op0 w.req) 2 0) none = some y →
    ∃ f, exec (.revokeGrant r e) s =
      .next (reply w { mkResp s0 w.req .ok with obj := BitVec.ofNat 32 (handleOf x) }
        (modWindow x.idx (fun x => { x with
          grants := setNthD none (bits (op0 w.req) 2 0) none x.grants, gone := (x.gone ++ [(y, s0.vrb.nextOrd)]).filter f }) s0)))) ∧
  ((∀ (r : Req) (e : Env) (s s0 : State) (w : Waiting) (g : Region) (x : Window),
    taken { r with opcode := 0x1D, subop := 1 } e s = some (w, s0) → ctlFits w.req = true →
    windowOf s0 (reqWin w.req) = some x → ownRegion s0 (reqTid w.req) x.region = some g → x.owner = reqTid w.req →
    x.revoking = false → g.st ≠ .revoking →
    exec (.revokeWindow r e) s = .next (revBegin { kind := 1, id := handleOf x, node := some w.req.src, since := w.since }
      (reply w { mkResp s0 w.req .ok with obj := BitVec.ofNat 32 (handleOf x) } s0))) ∧
  (∀ (r : Req) (e : Env) (s s0 : State) (w : Waiting) (g : Region), r.subop ≠ 3 →
    taken { r with opcode := 0x1D, subop := 2 } e s = some (w, s0) → ctlFits w.req = true →
    ownRegion s0 (reqTid w.req) (op0 w.req % 65536) = some g → g.st ≠ .revoking → sealedRegion s0 g.idx = false → loadsOn s0 g.idx = false →
    exec (.revokeRegion r e) s = .next (revBegin { kind := 2, id := g.idx, node := some w.req.src, since := w.since }
      (reply w { mkResp s0 w.req .ok with obj := BitVec.ofNat 32 g.idx } s0))) ∧
  (∀ (sess tid : Nat) (e : Env) (s s0 : State) (x : Sess), served sess e.t (applyEnv e s) = some (x, s0) →
    mayRun x .operator = true → hasRev s0 3 (tid % 4096) = false →
    exec (.revokeTenant sess tid e) s = .next (revBegin { kind := 3, id := tid % 4096, sess := some sess, since := s0.now }
      (releaseTenant (tid % 4096) s0))) ∧
  (∀ (i : Nat) (e : Env) (s : State) (v : Rev), s.pool.revs[i]? = some v →
    exec (.revokeDrainDone i e) s = .next (revAdvance 5 v.kind v.id (applyEnv e s))) ∧
  (∀ (i : Nat) (e : Env) (s : State) (v : Rev), s.pool.revs[i]? = some v → v.phase = .pins →
    v.since + 1000000 ≤ (applyEnv e s).now →
    exec (.revokePinTimeout i e) s = .next (revAdvance 5 v.kind v.id (endPins v (applyEnv e s)))) ∧
  (∀ (i : Nat) (e : Env) (s : State) (v : Rev), s.pool.revs[i]? = some v → v.phase = .overwrite → v.kind ≠ 3 →
    exec (.revokeOverwriteDone i e) s = .next (revAdvance 5 v.kind v.id (modRev v.kind v.id (fun r => { r with phase := .finish })
      ((revRegions (applyEnv e s) v).foldl (fun s g => zeroExtents g.exts s) (applyEnv e s))))))

/-- ANCHOR_LEND below the tenant's limit with a free index answers OK with the anchor's index and enters it.
ANCHOR_RECLAIM by its lender waits for the sequence of R171 that it begins.
PREFETCH and ADVISE WILL_NEED of an accessible range that touches no anchor unit without a shadow answer OK.
ADVISE DONT_NEED drops the shadows of the range and its READ_MOSTLY marks; READ_MOSTLY marks the lines of a COHERENT region's range;
PIN pins the shadows; each answers OK. -/
def Obligations.AnchorsAndHintsComplete : Prop :=
  (∀ (r : Req) (e : Env) (s s0 : State) (w : Waiting) (i : Nat), taken { r with opcode := 0x20 } e s = some (w, s0) →
    ctlFits w.req = true → anchorCount s0 (reqTid w.req) < limitOf s0 (reqTid w.req) TenantCfg.maxAnchors →
    findFree (fun i => (anchorAt s0 i).isNone) 16384 e.pick = some i →
    exec (.anchorLend r e) s = .next (reply w { mkResp s0 w.req .ok with
      obj := BitVec.ofNat 32 i, r0 := w64 (clampTo 1 32768 (bits (op0 w.req) 47 32)) }
      (setPool (fun p => { p with anchors := p.anchors ++ [
        { idx := i, tid := reqTid w.req, lender := w.req.src, rwin := bits (op0 w.req) 15 0,
          len := clampTo 1 32768 (bits (op0 w.req) 47 32) }] }) s0))) ∧
  (∀ (r : Req) (e : Env) (s s0 : State) (w : Waiting) (a : Anchor), taken { r with opcode := 0x21 } e s = some (w, s0) →
    ctlFits w.req = true → anchorAt s0 (bits (op0 w.req) 13 0) = some a → a.lender = w.req.src → a.tid = reqTid w.req →
    anchorGone s0 a = false → a.st ≠ .revoking →
    exec (.anchorReclaim r e) s = .next (revBegin { kind := 4, id := a.idx, node := some w.req.src, since := w.since }
      (waitFor w (.revoke a.idx) s0))) ∧
  (∀ (r : Req) (e : Env) (s s0 : State) (w : Waiting) (i : Instr) (x : Window) (g : Region) (o : Nat),
    (i = .prefetch r e ∧ taken { r with opcode := 0x08 } e s = some (w, s0)) ∨
      (i = .adviseWillNeed r e ∧ taken { r with opcode := 0x09, subop := grantSubop r.subop } e s = some (w, s0)) →
    ctlFits w.req = true →
    checkAccess s0 w.ord (reqWin w.req) (reqTid w.req) w.req.src (reqVa w.req) (hintLen w.req) rightR = .ok x g o →
    partsStatus s0 w.ord g.owner (partsOf g o (hintLen w.req)) = .ok →
    (anchorUnits (partsOf g o (hintLen w.req))).filter (fun u => (shadowOf s0 u.1 (u.2 * unit2M)).isNone) = [] →
    exec i s = .next (reply w (mkResp s0 w.req .ok) s0)) ∧
  (∀ (r : Req) (e : Env) (s s0 : State) (w : Waiting) (x : Window) (g : Region) (o : Nat),
    taken { r with opcode := 0x09, subop := 1 } e s = some (w, s0) → ctlFits w.req = true →
    checkAccess s0 w.ord (reqWin w.req) (reqTid w.req) w.req.src (reqVa w.req) (hintLen w.req) rightR = .ok x g o →
    partsStatus s0 w.ord g.owner (partsOf g o (hintLen w.req)) = .ok →
    ∃ s1, exec (.adviseDontNeed r e) s = .next (reply w { mkResp s1 w.req .ok with
        r0 := w64 (countIf (fun u => (anchorUnits (partsOf g o (hintLen w.req))).contains (u.anchor, u.unit)) s0.pool.shadows) } s1)
      ∧ s1.pool.shadows = s0.pool.shadows.filter (fun u => !(anchorUnits (partsOf g o (hintLen w.req))).contains (u.anchor, u.unit))
      ∧ s1.mem = s0.mem) ∧
  (∀ (r : Req) (e : Env) (s s0 : State) (w : Waiting) (x : Window) (g : Region) (o : Nat),
    taken { r with opcode := 0x09, subop := 2 } e s = some (w, s0) → ctlFits w.req = true →
    checkAccess s0 w.ord (reqWin w.req) (reqTid w.req) w.req.src (reqVa w.req) (hintLen w.req) rightR = .ok x g o →
    partsStatus s0 w.ord g.owner (partsOf g o (hintLen w.req)) = .ok → g.mode = .coherent →
    ∃ s1, exec (.adviseReadMostly r e) s = .next (reply w (mkResp s1 w.req .ok) s1)
      ∧ s1 = modRegion g.idx (fun g => { g with
        readMostly := cutRange (lineRange o (hintLen w.req)) g.readMostly ++ [lineRange o (hintLen w.req)] }) s0) ∧
  (∀ (r : Req) (e : Env) (s s0 : State) (w : Waiting) (x : Window) (g : Region) (o : Nat),
    taken { r with opcode := 0x09, subop := 3 } e s = some (w, s0) → ctlFits w.req = true →
    checkAccess s0 w.ord (reqWin w.req) (reqTid w.req) w.req.src (reqVa w.req) (hintLen w.req) rightR = .ok x g o →
    partsStatus s0 w.ord g.owner (partsOf g o (hintLen w.req)) = .ok →
    ∃ s1, exec (.advisePin r e) s = .next (reply w { mkResp s1 w.req .ok with
        r0 := w64 (countIf (fun u => (anchorUnits (partsOf g o (hintLen w.req))).contains (u.anchor, u.unit)) s0.pool.shadows) } s1)
      ∧ s1.pool.shadows = mapIf (fun u => (anchorUnits (partsOf g o (hintLen w.req))).contains (u.anchor, u.unit))
        (fun u => { u with pinned := true }) s0.pool.shadows)

/-- MIRROR_BIND with SUBOP 0 makes a shadow region and answers OK with its index, with SUBOP 1 a window of the shadow of the
sender's region, with SUBOP 2 a grant on it.
MIRROR_WRITE into an unopened shadow stores its bytes and answers with the status of the store.
MIRROR_HB notes the partner's heartbeat, opens its unopened shadows where LEAVING is set, and answers OK.
MIRROR_HB_SEND sends a heartbeat to each bound partner whose last is 1 ms old.
MIRROR_FENCE fences a region with a live mirror that has been silent for 2 ms; SHADOW_OPEN opens a shadow silent for 3 ms; HANDOFF
opens the sender's shadow at once; MIRROR_BREAK by the peer makes an active region DEGRADED without fencing.
STACK_FAIL fails the stack for the cause the event brings; DIE_TO_DIE_MODULE_OUT takes the module out and, with the last one, the
stack. -/
def Obligations.MirrorAndStackCommandsComplete : Prop :=
  (∀ (r : Req) (e : Env) (s s0 s1 s2 : State) (w : Waiting) (g : Region) (x : Window) (y : Grant), ctlFits w.req = true →
    taken { r with opcode := 0x90 } e s = some (w, s0) →
    (w.req.subop ≠ 1 → w.req.subop ≠ 2 → newRegion (reqTid w.req) e.pick
        { mode := .mirrored, size := clampTo 1 (maxUnits s0) (bits (op1 w.req) 19 0), ilv := min 2 (bits (op1 w.req) 21 20) } s0
        = (s1, some g) →
      s2 = modRegion g.idx (fun g => { g with
        st := .shadow, isShadow := true, bound := true, shadowNode := w.req.src, otherIdx := op0 w.req % 65536 }) s1 →
      exec (.mirrorBind r e) s = .next (reply w { mkResp s2 w.req .ok with obj := BitVec.ofNat 32 g.idx }
        (sawMirror w.req.src s2))) ∧
    (w.req.subop = 1 → shadowRegion s0 w.req.src (op0 w.req % 65536) = some g →
      newWindow (reqTid w.req) e.pick (reqVa w.req) (bits (op1 w.req) 19 0) (bits (op1 w.req) 51 32) g s0 = (s1, .ok, x) →
      exec (.mirrorBind r e) s = .next (reply w { mkResp s1 w.req .ok with obj := BitVec.ofNat 32 (handleOf x) } s1)) ∧
    (w.req.subop = 2 → shadowRegion s0 w.req.src (op0 w.req % 65536) = some g →
      windowOf s0 (reqVa w.req / 2 ^ 32 % 2 ^ 24) = some x → x.region = g.idx →
      y = { tid := bits (reqVa w.req) 11 0, first := bits (op1 w.req) 19 0, nodes := clampTo 1 1048576 (bits (op1 w.req) 52 32),
            rights := BitVec.ofNat 3 (bits (reqVa w.req) 18 16) } →
      exec (.mirrorBind r e) s = .next (replySt w (addGrant x g y s0).2.1 (addGrant x g y s0).1))) ∧
  (∀ (r : Req) (e : Env) (s s0 s1 : State) (w : Waiting) (g : Region) (len : Nat), ctlFits w.req = true →
    (taken { r with opcode := 0x91 } e s = some (w, s0) → len = min (reqLen w.req) (64 * reqSlots w.req) →
      shadowRegion s0 w.req.src (op0 w.req % 65536) = some g → g.st = .shadow → reqVa w.req + len ≤ g.size * unit2M →
      ∀ st, (storePieces w.ord g w.req.payload (partsOf g (reqVa w.req) len) s0).1 = s1 →
        (storePieces w.ord g w.req.payload (partsOf g (reqVa w.req) len) s0).2.1 = st →
        exec (.mirrorWrite r e) s = .next (replySt w st s1)) ∧
    (taken { r with opcode := 0x92 } e s = some (w, s0) → s1 = sawMirror w.req.src s0 →
      exec (.mirrorHb r e) s = .next (replySt w .ok (if w.req.flags.getLsbD 5
        then (shadowsOf s1 w.req.src).foldl (fun s g => openShadow g s) s1 else s1))) ∧
    (taken { r with opcode := 0x93 } e s = some (w, s0) → shadowRegion s0 w.req.src (op0 w.req % 65536) = some g →
      g.st = .shadow → exec (.handoff r e) s = .next (replySt w .ok (openShadow g s0))) ∧
    (taken { r with opcode := 0x94 } e s = some (w, s0) → regionAt s0 (op0 w.req % 65536) = some g → g.mode = .mirrored →
      g.bound = true → g.isShadow = false → g.shadowNode = w.req.src → g.st = .active →
      exec (.mirrorBreak r e) s = .next (replySt w .ok (mirrorGiveUp (op0 w.req % 65536)
        (modRegion (op0 w.req % 65536) (fun g => { g with st := .degraded, bound := false }) s0))))) ∧
  (∀ (i : Nat) (k : Fin 32) (m : Fin 4) (e : Env) (s s0 : State) (g : Region), s0 = applyEnv e s →
    exec (.mirrorHbSend e) s = .next ((((boundRegions s0).map Region.shadowNode).eraseDups.filter (hbDue s0)).foldl
      (fun s n => sendMirrorHb (s.boot.st = .leaving) n s) s0) ∧
    (regionAt s0 i = some g → mirrorLive g = true → mirrorSilent s0 g.shadowNode 2000000 = true →
      exec (.mirrorFence i e) s = .next (fenceRegion i (undefAll (fun w => waitsMirror w && inRegion s0 i w) s0))) ∧
    (regionAt s0 i = some g → g.isShadow = true → g.bound = true → g.st = .shadow →
      mirrorSilent s0 g.shadowNode 3000000 = true → exec (.shadowOpen i e) s = .next (openShadow g s0)) ∧
    exec (.stackFail k e) s = .next (stackFail k (clampTo 1 5 e.pick) s0) ∧
    (∀ s1, (stackAt s0 k).d2d.getLsbD m = true → (stackAt s0 k).fitted = true →
      s1 = cairnAt 0x0B 2 k 1 0 (0x50 + k) 0xFFFF .ok (modStack k (fun x => { x with d2d := x.d2d &&& ~~~ (1#4 <<< m.val) }) s0) →
      exec (.dieToDieModuleOut k m e) s = .next (if (stackAt s1 k).d2d = 0 then stackFail k 1 s1 else s1)))

/-- ANCHOR_RENEW at a quarter of the lease renews the anchors held of each lender.
STACK_RETIRE of a stack in service with no plan and no object on it, and room elsewhere, answers OK and drains the stack; with no
room it answers REFUSED; with a plan or an object on it BUSY.
EXTENT_MIGRATION_DONE of a moving, stable extent copies what is left of it to its new run and zeroes the old one. -/
def Obligations.StacksRetireComplete : Prop :=
  (∀ (t0 : Nat) (s : State), s.pool.lastRenew + leaseNs s / 4 ≤ max s.now t0 →
    exec (.anchorRenew t0) s = .next (renewAnchors (atTime t0 s))) ∧
  (∀ (sess : Nat) (k : Fin 32) (e : Env) (s s0 s1 : State) (x : Sess), served sess e.t (applyEnv e s) = some (x, s0) →
    mayRun x .operator = true → inService s0 k = true → planOnStack s0 k = false → holdsObject s0 k = false →
    (((reserveRuns k (movers s0 k) s0).bind fun s' =>
      moveShadows k (s0.pool.shadows.filter fun u => u.stack = k) s') = some s1 →
      exec (.stackRetire sess k e) s = .next (retireDone k (mgmtReply sess .ok []
        (modStack k (fun x => { x with st := .draining }) s1)))) ∧
    (((reserveRuns k (movers s0 k) s0).bind fun s' =>
      moveShadows k (s0.pool.shadows.filter fun u => u.stack = k) s') = none →
      exec (.stackRetire sess k e) s = .next (mgmtReply sess .refused [] s0))) ∧
  (∀ (sess : Nat) (k : Fin 32) (e : Env) (s s0 : State) (x : Sess), served sess e.t (applyEnv e s) = some (x, s0) →
    mayRun x .operator = true → planOnStack s0 k = true ∨ holdsObject s0 k = true →
    exec (.stackRetire sess k e) s = .next (mgmtReply sess .busy [] s0)) ∧
  (∀ (gi n src dst done : Nat) (e : Env) (s s0 : State) (g : Region) (x : Extent), s0 = applyEnv e s →
    regionAt s0 gi = some g → g.exts[n]? = some x → x.migrating = true → extentStable s0 g n = true →
    src = x.stack * 2 ^ 36 + x.base * unit2M → dst = x.newStack * 2 ^ 36 + x.newBase * unit2M → done = x.copyPtr * 2 ^ 20 →
    (regionAt (copyDram (src + done) (dst + done) (x.len * unit2M - done) s0) gi).bind (fun g => g.exts[n]?) = some x →
    exec (.extentMigrationDone gi n e) s = .next (retireDone x.stack
      (modStack x.stack (fun k => { k with migrated := (k.migrated + 1) % 2 ^ 18 }) (zeroDram src (x.len * unit2M)
        (modRegion gi (fun g => { g with exts := g.exts.set n { x with
          stack := x.newStack, base := x.newBase, migrating := false, copyPtr := 0 } })
          (copyDram (src + done) (dst + done) (x.len * unit2M - done) s0))))))

/-- A taken LOAD of an accessible range whose parts are sound, with no earlier STORE or ATOMIC to its lines unserved: uncached of a region that is not COHERENT, it answers OK with the
bytes its pieces hold and no grant; cached of a PRIVATE region with grant code 3; of a COHERENT region, once the directory lets
it through and no line is LOST_MODIFIED, with the lines' next states and the data; all with room in the tenant's budget and no
piece that only a lender holds.
With CTL set it reaches the tenant's register page.
A taken cached LOAD of an aligned line of a COHERENT region by an attached node, once the directory
lets it through (with right W too for intent M) and the line is not LOST_MODIFIED, the line takes its next state, and the data
goes out with that state's grant code. -/
def Obligations.LoadsComplete : Prop :=
  ((∀ (r : Req) (e : Env) (s s0 s1 s2 : State) (w : Waiting) (x : Window) (g : Region) (o len : Nat) (d : List Byte),
    taken (withCached false { r with opcode := 0x01 }) e (applySram e (atTime e.t s)) = some (w, s0) → reqCtl w.req = false → overtakes s0 w = false →
    len = clampTo 1 2048 (reqLen w.req) →
    checkAccess s0 w.ord (reqWin w.req) (reqTid w.req) w.req.src (reqVa w.req) len rightR = .ok x g o → g.mode ≠ .coherent →
    partsStatus s0 w.ord g.owner (partsOf g o len) = .ok → needRd s0 [] (pieces false (partsOf g o len)) = [] →
    useBudget (ctxTid s0 w.ord w.req) (pieces false (partsOf g o len)) s0 = some s1 →
    readPieces 0 [] (pieces false (partsOf g o len)) s1 = (s2, some d) →
    exec (.load r e) s = .next (finishMem w { mkResp s2 w.req .ok with payload := d, r0 := 0 } s2)) ∧
  (∀ (r : Req) (e : Env) (s s0 s1 s2 : State) (w : Waiting) (x : Window) (g : Region) (o : Nat) (d : List Byte),
    taken (withCached true { r with opcode := 0x01 }) e (applySram e (atTime e.t s)) = some (w, s0) → reqCtl w.req = false → overtakes s0 w = false →
    reqVa w.req % 128 = 0 →
    checkAccess s0 w.ord (reqWin w.req) (reqTid w.req) w.req.src (reqVa w.req) 128 rightR = .ok x g o → g.mode = .priv →
    partsStatus s0 w.ord g.owner (partsOf g o 128) = .ok → needRd s0 [] (pieces false (partsOf g o 128)) = [] →
    useBudget (ctxTid s0 w.ord w.req) (pieces false (partsOf g o 128)) s0 = some s1 →
    readPieces 0 [] (pieces false (partsOf g o 128)) s1 = (s2, some d) →
    exec (.loadCached r e) s = .next (finishMem w { mkResp s2 w.req .ok with payload := d, r0 := 3 } s2)) ∧
  (∀ (r : Req) (e : Env) (s s0 s1 : State) (w : Waiting) (x : Window) (g : Region) (o len : Nat),
    taken (withCached false { r with opcode := 0x01 }) e (applySram e (atTime e.t s)) = some (w, s0) → reqCtl w.req = false → overtakes s0 w = false →
    len = clampTo 1 2048 (reqLen w.req) →
    checkAccess s0 w.ord (reqWin w.req) (reqTid w.req) w.req.src (reqVa w.req) len rightR = .ok x g o → g.mode = .coherent →
    partsStatus s0 w.ord g.owner (partsOf g o len) = .ok →
    cohGate w.ord g.idx (linesOfParts (partsOf g o len)) .loadU ((slotOf g w.req.src).map Slot.k) s0 = (s1, .go) →
    (linesOfParts (partsOf g o len)).any (lineLm s1 g.idx) = false →
    (useBudget (ctxTid s1 w.ord w.req) (partsOf g o len) s1).isSome = true →
    exec (.load r e) s = .next (loadData w g (partsOf g o len) [] 0 (((linesOfParts (partsOf g o len)).map fun l =>
      lineAfter g (dirAt s1 g.idx l) .loadU ((slotOf g w.req.src).map Slot.k)).foldl (fun s d => setDir d s) s1))) ∧
  (∀ (r : Req) (e : Env) (s s0 : State) (w : Waiting), reqCtl r = true →
    taken (withCached false { r with opcode := 0x01 }) e (applySram e (atTime e.t s)) = some (w, s0) →
    exec (.load r e) s = .next (pageAccess w s0))) ∧
  (∀ (r : Req) (e : Env) (s s0 s1 : State) (w : Waiting) (x : Window) (g : Region) (k : Slot) (o l : Nat) (u : LineUse),
    taken (withCached true { r with opcode := 0x01 }) e (applySram e (atTime e.t s)) = some (w, s0) → reqCtl w.req = false → overtakes s0 w = false →
    reqVa w.req % 128 = 0 →
    checkAccess s0 w.ord (reqWin w.req) (reqTid w.req) w.req.src (reqVa w.req) 128 rightR = .ok x g o → g.mode = .coherent →
    slotOf g w.req.src = some k → u = (if reqIntentM w.req then .loadM else .loadS) →
    (u = .loadM → ∃ x' g' o', checkAccess s0 w.ord (reqWin w.req) (reqTid w.req) w.req.src
      (reqVa w.req) 128 (rightR + rightW) = .ok x' g' o') →
    partsStatus s0 w.ord g.owner (partsOf g o 128) = .ok → linesOfParts (partsOf g o 128) = [l] →
    cohGate w.ord g.idx [l] u (some k.k) s0 = (s1, .go) → lineLm s1 g.idx l = false →
    (useBudget (ctxTid s1 w.ord w.req) (partsOf g o 128) s1).isSome = true →
    exec (.loadCached r e) s = .next (loadData w g (partsOf g o 128) []
      (grantCode (lineAfter g (dirAt s1 g.idx l) u (some k.k))) (setDir (lineAfter g (dirAt s1 g.idx l) u (some k.k)) s1)))

/-- A taken STORE or STORE_NOTIFY (with no earlier STORE or ATOMIC to its lines unserved; of a STORE_NOTIFY with no earlier write of
its source to its window, and its notified node covered by a grant) of
an accessible range of a region that is not COHERENT, with room in the budget, writes its pieces and completes with the worst
status of its parts, at once or after the lenders and the mirror peer it wrote to.
In a COHERENT region it does so once the directory lets it through.
STORE_NOTIFY_RELEASE runs a waiting STORE_NOTIFY again once no earlier write is left. -/
def Obligations.StoresComplete : Prop :=
  (∀ (r : Req) (e : Env) (s s0 s1 s2 s3 : State) (w : Waiting) (x : Window) (g : Region) (o len : Nat) (i : Instr)
      (st : Status) (tags : List Nat),
    (i = .store r e ∧ taken { r with opcode := 0x02 } e (applySram e (atTime e.t s)) = some (w, s0)) ∨
      (i = .storeNotify r e ∧ taken { r with opcode := 0x03 } e (applySram e (atTime e.t s)) = some (w, s0)
        ∧ earlierWrites s0 w = false
        ∧ (reqSendEvt w.req = true → covered (grantsOf x) (op0 w.req % 2 ^ 20) = true)) →
    reqCtl w.req = false → overtakes s0 w = false → reqSlots w.req ≠ 0 → len = clampTo 1 (64 * reqSlots w.req) (reqLen w.req) →
    checkAccess s0 w.ord (reqWin w.req) (reqTid w.req) w.req.src (reqVa w.req) len rightW = .ok x g o →
    (if g.mode = .coherent then cohGate w.ord g.idx
      (linesOfParts ((partsOf g o len).filter fun p => partStatus s0 w.ord g.owner p = .ok)) .write
      ((slotOf g w.req.src).map Slot.k) s0 else (s0, .go)) = (s1, .go) →
    useBudget (ctxTid s1 w.ord w.req) ((partsOf g o len).filter fun p => partStatus s0 w.ord g.owner p = .ok) s1 = some s2 →
    storePieces w.ord g w.req.payload (pieces (g.mode = .coherent) (partsOf g o len)) s2 = (s3, st, tags) →
    exec i s = .next (finishWrite w (mkResp s3 w.req st) (g.mode ≠ .mirrored) tags [] s3)) ∧
  (∀ (src tag : Nat) (e : Env) (s : State) (w : Waiting), notifyOf (applySram e (applyEnv e s)) src tag = some w →
    earlierWrites (applySram e (applyEnv e s)) w = false →
    exec (.storeNotifyRelease src tag e) s = .next (retryOne w [] (applySram e (applyEnv e s))))

/-- A taken ATOMIC, aligned, of an accessible operand of a region that is not COHERENT, which reads as old: FETCH, and CAS where old
is not OPERAND0, answer OK with old and write nothing; ADD writes old + OPERAND0 modulo 2^(8 width), SWAP OPERAND0, CAS
OPERAND1 where old is OPERAND0, MIN and MAX the lesser and the greater of old and OPERAND0 by the SIGNED bit; the answer
carries old where the write succeeds.
An ATOMIC of a COHERENT region does the same once the directory lets it through and its line is not LOST_MODIFIED; its line goes to
I. -/
def Obligations.AtomicsComplete : Prop :=
  (∀ (r : Req) (e : Env) (s s0 s1 s2 : State) (w : Waiting) (x : Window) (g : Region) (o width old a b : Nat) (q : Req)
      (d : List Byte) (i : Instr), taken q e (applySram e (atTime e.t s)) = some (w, s0) →
    reqCtl w.req = false → overtakes s0 w = false → width = atomicWidth w.req → reqVa w.req % width = 0 →
    checkAccess s0 w.ord (reqWin w.req) (reqTid w.req) w.req.src (reqVa w.req) width rightA = .ok x g o → g.mode ≠ .coherent →
    partsStatus s0 w.ord g.owner (partsOf g o width) = .ok →
    needRd s0 [] (pieces false (partsOf g o width)) = [] →
    useBudget (ctxTid s0 w.ord w.req) (partsOf g o width) s0 = some s1 →
    readPieces 0 [] (pieces false (partsOf g o width)) s1 = (s2, some d) → old = ofLe d →
    a = op0 w.req % 2 ^ (8 * width) → b = op1 w.req % 2 ^ (8 * width) →
    ((i = .atomicFetch r e ∧ q = { r with opcode := 0x04, subop := fetchSubop r.subop }) ∨
        (i = .atomicCas r e ∧ q = atomicReq 3 r ∧ old ≠ a) →
      exec i s = .next (finishMem w { mkResp s2 w.req .ok with r0 := w64 old } s2)) ∧
    (∀ (v : Nat) (s3 : State) (st : Status) (tags : List Nat),
      (i = .atomicAdd r e ∧ q = atomicReq 1 r ∧ v = (old + a) % 2 ^ (8 * width)) ∨
        (i = .atomicSwap r e ∧ q = atomicReq 2 r ∧ v = a) ∨ (i = .atomicCas r e ∧ q = atomicReq 3 r ∧ old = a ∧ v = b) ∨
        (i = .atomicMin r e ∧ q = atomicReq 4 r ∧ v = if atomicLess width (w.req.subop.getLsbD 4) a old then a else old) ∨
        (i = .atomicMax r e ∧ q = atomicReq 5 r ∧ v = if atomicLess width (w.req.subop.getLsbD 4) old a then a else old) →
      storePieces w.ord g (le width v) (pieces false (partsOf g o width)) s2 = (s3, st, tags) →
      exec i s = .next (finishWrite w { mkResp s3 w.req st with r0 := w64 (if st = .ok then old else 0) }
        (g.mode ≠ .mirrored) tags d s3))) ∧
  (∀ (r q : Req) (e : Env) (s s0 s1 : State) (w : Waiting) (x : Window) (g : Region) (o : Nat) (i : Instr),
    taken q e (applySram e (atTime e.t s)) = some (w, s0) → reqCtl w.req = false → overtakes s0 w = false →
    (i = .atomicFetch r e ∧ q = { r with opcode := 0x04, subop := fetchSubop r.subop }) ∨ (i = .atomicAdd r e ∧ q = atomicReq 1 r)
      ∨ (i = .atomicSwap r e ∧ q = atomicReq 2 r) ∨ (i = .atomicCas r e ∧ q = atomicReq 3 r)
      ∨ (i = .atomicMin r e ∧ q = atomicReq 4 r) ∨ (i = .atomicMax r e ∧ q = atomicReq 5 r) →
    reqVa w.req % atomicWidth w.req = 0 →
    checkAccess s0 w.ord (reqWin w.req) (reqTid w.req) w.req.src (reqVa w.req) (atomicWidth w.req) rightA = .ok x g o →
    g.mode = .coherent → partsStatus s0 w.ord g.owner (partsOf g o (atomicWidth w.req)) = .ok →
    cohGate w.ord g.idx [o / 128] .write ((slotOf g w.req.src).map Slot.k) s0 = (s1, .go) → lineLm s1 g.idx (o / 128) = false →
    exec i s = .next (atomicDo w g (partsOf g o (atomicWidth w.req)) [] (setDir { region := g.idx, line := o / 128 } s1)))

/-- COH_ATTACH through a window with right R over a COHERENT region: a node with a live slot gets its slot's number; another one with
a free slot gets it with a lease from the request's arrival on, and OK.
COH_DETACH of a slot that owns no line in M or WAIT_RCL drops its lines, frees it and answers OK; one that owes answers BUSY.
COH_RENEW of an attached node answers OK with the lease's length.
COH_DECLARE_LOST by the window's owner within the window puts each lost line of the range, after zeroing it for ZERO and as it is for
STALE, into I, and answers OK.
COH_LM_QUERY answers OK with the addresses of at most 256 lost lines from VA on, ascending, and where to go on.
Every request of an attached node renews its lease when it arrives. -/
def Obligations.CoherenceSlotsComplete : Prop :=
  (∀ (r : Req) (e : Env) (s s0 : State) (w : Waiting) (x : Window) (g : Region) (o k : Nat) (y : Slot), ctlFits w.req = true →
    cohWin s0 w = .ok x g o →
    (taken { r with opcode := 0x28 } e s = some (w, s0) → g.mode = .coherent →
      (grantsFor x w.ord).any (grantFits (reqTid w.req) w.req.src rightR) = true →
      (slotOf g w.req.src = some y → exec (.cohAttach r e) s = .next (reply w (leaseResp s0 w.req y.k) s0)) ∧
      (slotOf g w.req.src = none → findFree (fun k => (slotAt g k).isNone) 64 e.pick = some k →
        exec (.cohAttach r e) s = .next (reply w (leaseResp s0 w.req k) (modRegion g.idx (fun g => { g with
          slots := g.slots ++ [{ k := k, node := w.req.src, deadline := w.since + leaseNs s0, win := handleOf x }] }) s0)))) ∧
    (taken { r with opcode := 0x29 } e s = some (w, s0) → slotOf g w.req.src = some y →
      exec (.cohDetach r e) s = .next (if slotOwes s0 g.idx y.k then replySt w .busy s0
        else cohSettled (replySt w .ok (freeSlot g.idx y.k (dropSlotLines g.idx y.k false s0))))) ∧
    (taken { r with opcode := 0x2A } e s = some (w, s0) → slotOf g w.req.src = some y →
      exec (.cohRenew r e) s = .next (reply w (leaseResp s0 w.req 0) s0))) ∧
  (∀ (r : Req) (e : Env) (s s0 : State) (w : Waiting) (x : Window) (g : Region) (o lo hi : Nat) (zero : Bool) (i : Instr),
    (i = .cohDeclareLostZero r e ∧ zero = true
        ∧ taken { r with opcode := 0x2F, subop := if r.subop = 1 then 0 else r.subop } e s = some (w, s0)) ∨
      (i = .cohDeclareLostStale r e ∧ zero = false ∧ taken { r with opcode := 0x2F, subop := 1 } e s = some (w, s0)) →
    ctlFits w.req = true → cohWin s0 w = .ok x g o → x.owner = reqTid w.req → lo = reqVa w.req / 128 * 128 →
    hi = ceilDiv (reqVa w.req + clampTo 1 (2 ^ 40) (op0 w.req)) 128 * 128 → x.vaBase * unit2M ≤ lo →
    hi ≤ (x.vaBase + x.len) * unit2M →
    exec i s = .next (cohSettled (replySt w .ok ((lostLines s0 g.idx
      ((lo - x.vaBase * unit2M + x.regOfs * unit2M) / 128) ((hi - x.vaBase * unit2M + x.regOfs * unit2M) / 128)).foldl
      (fun s l => setDir { dirAt (if zero then (lineBack g l (List.replicate 128 0) s).1 else s) g.idx l with st := .inv }
        (if zero then (lineBack g l (List.replicate 128 0) s).1 else s)) s0)))) ∧
  (∀ (r : Req) (e : Env) (s s0 : State) (w : Waiting) (x : Window) (g : Region) (o : Nat) (all vas : List Nat),
    taken { r with opcode := 0x30 } e s = some (w, s0) → ctlFits w.req = true →
    checkAccess s0 w.ord (reqWin w.req) (reqTid w.req) w.req.src (reqVa w.req) 1 rightR = .ok x g o →
    all = lostLines s0 g.idx (ceilDiv o 128) ((x.regOfs + x.len) * unit2M / 128) →
    vas = (all.take 256).map (fun l => l * 128 + x.vaBase * unit2M - x.regOfs * unit2M) →
    exec (.cohLmQuery r e) s = .next (reply w { mkResp s0 w.req .ok with
      r0 := w64 vas.length
      r1 := w64 (if 256 < all.length then (vas.getLast?).getD 0 + 128 else (x.vaBase + x.len) * unit2M)
      payload := (vas.map fun v => le 8 v).flatten } s0)) ∧
  (∀ (r : Req) (s : State) (g : Nat), cohRegionOf s r = some g → leaseArrival r s = renewLease g r.src s)

/-- WRITEBACK of an aligned line by its owner, to a sound extent of a COHERENT region, stores its 128 bytes, ends the recall or leaves
the line in I, and answers OK; to a PRIVATE region it is a STORE of 128 bytes.
INVAL_ACK of an outstanding invalidation takes its sharer off the line and counts the pending ones down.
RECALL_ACK of an outstanding recall of the line's owner whose data has not come back: NODATA ends the recall, DATA stores the line's
bytes first, WB_SENT waits for the write-back.
COH_REVOKE_ACK takes its slot off the revocations that wait for it.
LEASE_EXPIRY ends the lease of a live slot that is over; COH_SWEEP_DONE frees a dead slot and tells the covered nodes where lines
were lost. -/
def Obligations.LinesAndLeasesComplete : Prop :=
  (∀ (r : Req) (e : Env) (s s0 s2 : State) (w : Waiting) (x : Window) (g : Region) (o : Nat) (y : Slot) (d : DirEnt),
    taken { r with opcode := 0x2B } e s = some (w, s0) → ctlFits w.req = true → reqVa w.req % 128 = 0 →
    2 ≤ reqSlots w.req → writebackAccess s0 w = .ok x g o →
    (g.mode = .coherent → slotOf g w.req.src = some y → partsStatus s0 0 g.owner (partsOf g (o / 128 * 128) 128) = .ok →
      d = dirAt (dirLookup g.idx (o / 128) s0) g.idx (o / 128) → d.owner = y.k →
      d.st = .excl ∨ d.st = .modified ∨ d.st = .waitRcl → lineBack g (o / 128) w.req.payload s0 = (s2, .ok) →
      exec (.writeback r e) s = .next (cohSettled (replySt w .ok
        (setDir (if d.st = .waitRcl then recallEnd d else { d with st := .inv })
          (setCoh (fun c => { c with msgs := mapIf (fun m =>
            m.kind == 1 && m.region == g.idx && m.line == o / 128 && m.slot == y.k) (fun m => { m with done := true }) c.msgs })
            s2))))) ∧
    (g.mode = .priv → exec (.writeback r e) s = .next (storeRun w s0))) ∧
  (∀ (r : Req) (e : Env) (s s0 s1 : State) (w : Waiting) (m : CohMsg) (d : DirEnt), ctlFits w.req = true →
    d = dirAt s1 m.region m.line →
    (taken { r with opcode := 0x2C } e s = some (w, s0) → takeMsg 0 w.req s0 = (s1, some m) → d.st = .waitInv →
      exec (.invalAck r e) s = .next (cohSettled (setDir (settle { d with
        pend := d.pend - 1, sharers := d.sharers &&& ~~~ (1#64 <<< m.slot) }) s1))) ∧
    (takeMsg 1 w.req s0 = (s1, some m) → m.done = false → d.st = .waitRcl → d.owner = m.slot →
      (r.subop ≠ 1 → r.subop ≠ 2 → taken { r with opcode := 0x2D } e s = some (w, s0) →
        exec (.recallAckNodata r e) s = .next (cohSettled (setDir (recallEnd d) s1))) ∧
      (∀ g, taken { r with opcode := 0x2D, subop := 1 } e s = some (w, s0) → regionAt s1 m.region = some g →
        2 ≤ reqSlots w.req →
        exec (.recallAckData r e) s = .next (cohSettled (setDir (recallEnd d) (lineBack g m.line w.req.payload s1).1))) ∧
      (taken { r with opcode := 0x2D, subop := 2 } e s = some (w, s0) →
        exec (.recallAckWbSent r e) s = .next (cohSettled (setDir { d with wbWait := true } s1)))) ∧
    (taken { r with opcode := 0x2E } e s = some (w, s0) → takeMsg 2 w.req s0 = (s1, some m) →
      exec (.cohRevokeAck r e) s = .next (revsAdvance (setPool (fun p => { p with revs := p.revs.map fun v =>
        if v.kind = 1 then v else { v with slots := v.slots.filter fun x => x ≠ (m.region, m.slot) } }) s1)))) ∧
  (∀ (g k : Nat) (e : Env) (s s0 : State) (y : Region) (x : Slot), s0 = applyEnv e s → regionAt s0 g = some y →
    slotAt y k = some x →
    (x.dead = false → leaseOver s0 x = true → exec (.leaseExpiry g k e) s = .next (cohSettled (leaseEnd g k s0))) ∧
    (x.dead = true → exec (.cohSweepDone g k e) s = .next (if x.lmMade = 0 then freeSlot g k s0 else
      fanOut (regionGrants (freeSlot g k s0) g) 0x04 .lostModified y.owner g k x.lmMade 0
        (cairnAt 0x06 1 g k 0 0x40 y.owner .lostModified (freeSlot g k s0)))))

/-- BQ_CREATE for a listed completion node, with descriptor slots and a free index left, answers OK with the new queue's handle and
depth. BQ_DESTROY of an own queue waits for it, with its unreleased descriptors aborted, and ends at once where none is left.
BULK_SUBMIT with room answers OK when every descriptor passes its check and enters them behind TAIL, released where DOORBELL is set;
otherwise it enters none and answers with the first one's status and index. BULK_DOORBELL moves RUN forward, no further than TAIL.
QUERY_CAPS of a listed source answers OK with the 64 bytes of its payload. An EVENT that was delivered is discarded.
LOAD_INTERVAL takes the figures of every tenant's interval, the miss rate of the directory and the stacks' bandwidths, and starts
their counts anew. -/
def Obligations.BulkQueuesAndCapsComplete : Prop :=
  (∀ (r : Req) (e : Env) (s s0 : State) (w : Waiting) (i d : Nat) (q : Bq), ctlFits w.req = true →
    (taken { r with opcode := 0x10 } e s = some (w, s0) → nodeListed s0 (reqTid w.req) (op1 w.req % 2 ^ 20) = true →
      d = bqDepth (op0 w.req % 65536) → descSlots s0 + d ≤ 65536 → countIf (fun q => q.owner = reqTid w.req) s0.bulk.qs < 64 →
      findFree (fun i => (bqAt s0 i).isNone && indexRested s0 1 i) 4096 e.pick = some i →
      q = { idx := i, gen := nextGen s0 1 i, owner := reqTid w.req, cqNode := op1 w.req % 2 ^ 20, depth := d } →
      ∃ s1, exec (.bqCreate r e) s = .next (reply w { mkResp s1 w.req .ok with r0 := w64 (bqHandle q), r1 := w64 d } s1)
        ∧ s1 = useIndex 1 i q.gen (setBulk (fun b => { b with qs := b.qs ++ [q] }) s0)) ∧
    (taken { r with opcode := 0x11 } e s = some (w, s0) → bqOf s0 (op0 w.req) (reqTid w.req) = some q →
      exec (.bqDestroy r e) s = .next (destroyDone q.idx (modBq q.idx (fun b => { b with
        destroy := some { w with why := .never }
        descs := b.descs.map fun x =>
          if (q.run + 65536 - q.head) % 65536 ≤ (x.n + 65536 - q.head) % 65536 && x.phase = .queued then
            { x with phase := .aborted, status := .revoked, bytes := 0 } else x })
        (setVrb (fun v => { v with waiting := v.waiting ++ [{ w with why := .never }] }) s0)))) ∧
    (∀ run, taken { r with opcode := 0x13 } e s = some (w, s0) → bqOf s0 (op0 w.req) (reqTid w.req) = some q →
      run = (q.run + min ((op1 w.req % 65536 + 65536 - q.run) % 65536) ((q.tail + 65536 - q.run) % 65536)) % 65536 →
      exec (.bulkDoorbell r e) s = .next (reply w { mkResp s0 w.req .ok with r0 := w64 run }
        (modBq q.idx (fun b => { b with run := run }) s0)))) ∧
  (∀ (r : Req) (e : Env) (s s0 : State) (w : Waiting) (q : Bq) (ds : List Desc) (st : List Status),
    taken { r with opcode := 0x12 } e s = some (w, s0) → ctlFits w.req = true → reqSlots w.req ≠ 0 →
    bqOf s0 (op0 w.req) (reqTid w.req) = some q → ds = submitted w.req → q.descs.length + ds.length ≤ q.depth →
    bulkFull s0 w.ord (reqTid w.req) ds = false → st = ds.map (checkDesc s0 w.ord (reqTid w.req) w.req.src) →
    ((List.range ds.length).find? (fun i => st[i]? ≠ some .ok) = none →
      ∃ s1, exec (.bulkSubmit r e) s = .next (reply w { mkResp s1 w.req .ok with
          r0 := w64 ((q.tail + ds.length) % 65536), r1 := 0xFFFF } (notePeak s1))
        ∧ s1 = modBq q.idx (fun b => { b with
          descs := b.descs ++ ((List.range ds.length).zip ds).map fun p =>
            { n := (q.tail + p.1) % 65536, d := p.2, node := w.req.src, ord := w.ord : DescRec }
          tail := (q.tail + ds.length) % 65536
          run := if reqDoorbell w.req then (q.tail + ds.length) % 65536 else b.run }) s0) ∧
    (∀ i, (List.range ds.length).find? (fun i => st[i]? ≠ some .ok) = some i →
      exec (.bulkSubmit r e) s = .next (reply w { mkResp s0 w.req (st.getD i .ok) with r1 := w64 i } s0))) ∧
  (∀ (r : Req) (e : Env) (s s0 s1 : State) (w : Waiting),
    (taken { r with opcode := if effOpcode r.opcode = 0x7F then r.opcode else 0x7F
                    subop := if r.subop = 1 then 0 else r.subop } e s = some (w, s0) → ctlFits w.req = true →
      s1 = critRead 0x1A (critRead 0x1B (noteStep4 s0)) →
      exec (.queryCaps r e) s = .next (sendResp w.prov w.req { mkResp s1 w.req .ok with
        opcode := 0x7F, payload := capsPayload s1 (reqTid w.req) } s1)) ∧
    (inboxOf (applyEnv e s) { r with opcode := 0x80 } = some w → exec (.eventReceived r e) s =
      .next (setVrb (fun v => { v with waiting := eraseFirst (fun x => x == w) v.waiting }) (applyEnv e s)))) ∧
  (∀ (t0 : Nat) (s s1 : State), s1 = noteStep4 (atTime t0 s) →
    ∃ t, exec (.loadInterval t0) s = .next t ∧ t.vrb.load = s1.img.tenants.map (loadRec s1)
      ∧ t.coh.missPpm = s1.coh.misses * 1000000 / max 1 s1.coh.lookups ∧ t.coh.lookups = 0 ∧ t.coh.misses = 0
      ∧ t.stks = s1.stks.map (fun x => { x with
        wrMbps := x.wrBytes / 1000, rdMbps := x.rdBytes / 1000, wrBytes := 0, rdBytes := 0 }))

/-- DESCRIPTOR_START runs the next startable descriptor. DESCRIPTOR_COMPLETE takes a finished head descriptor off its queue and sends
its record where it was asked for or is not OK; revocations that waited for its pins go on.
A running descriptor, in its class, whose lenders' data has come and whose lines the directory lets through: NOP ends OK; FILL
writes the bytes of its pattern, least significant first, by their position; COPY writes its source; REDUCE writes the elements of
FUNC over both sources; COMPARE finds the first difference, or 2^64 - 1; each ends with the bytes done and the status of its pieces.
One whose region is fenced ends with NODE_LOST, and one that would pass the limit of waiting lines with BUSY. -/
def Obligations.DescriptorsExecute : Prop :=
  (∀ (q : Nat) (e : Env) (s s0 : State) (x : DescRec), s0 = applyEnv e s →
    ((bqAt s0 q).bind startable = some x →
      exec (.descriptorStart q e) s = .next (modDesc q x.n (fun y => { y with phase := .running }) s0)) ∧
    (∀ b rest s1, bqAt s0 q = some b → b.descs = x :: rest → descOver x = true →
      s1 = modBq q (fun b => { b with descs := rest, head := (b.head + 1) % 65536 }) s0 →
      exec (.descriptorComplete q e) s = .next (revsAdvance (destroyDone q
        (if x.d.cpl || x.status ≠ .ok then descRecord b x s1 else s1))))) ∧
  (∀ (q op tid : Nat) (e : Env) (s s0 s1 s2 : State) (b : Bq) (x : DescRec) (srcs srcs' : List Span) (dst : Option Span)
      (i : Instr), bqAt (applyEnv e s) q = some b → tid = b.owner →
    (i, op) ∈ [(.descNop q e, 0), (.descFill q e, 1), (.descCopy q e, 2), (.descCompare q e, 3), (.descReduce q e, 4)] →
    runningDesc (applyEnv e s) q op = some x → x.tags = [] →
    s0 = setSvc (if isPart (applyEnv e s) tid then 1 else 3) (applyEnv e s) →
    srcs = descSrcs s0 x.d → dst = descDst s0 x.d →
    (((dst.toList ++ srcs).any fun y => y.g.st = .fenced) = true →
      exec i s = .next (descEnd q x.n .nodeLost 0 0 [] s0)) ∧
    (((dst.toList ++ srcs).any fun y => y.g.st = .fenced) = false →
      (∀ y ∈ ([0, 2 ^ 40] : List Nat).zip srcs, spanNeed s0 x.got y.1 x.d.len y.2 = []) →
      (descGate x.ord x.d.len dst srcs s0 = (s1, .busy) → exec i s = .next (descEnd q x.n .busy 0 0 [] s1)) ∧
      (descGate x.ord x.d.len dst srcs s0 = (s1, .go) →
        (s2, srcs') = (([0, 2 ^ 40] : List Nat).zip srcs).foldl (fun (a : State × List Span) y =>
          ((spanWhole a.1 x.got y.1 x.d.len y.2).1, a.2 ++ [(spanWhole a.1 x.got y.1 x.d.len y.2).2]))
          (serveParts tid x.d srcs dst s1, []) → (bqAt s1 q = bqAt s0 q) →
        (op = 0 → exec i s = .next (descEnd q x.n .ok 0 0 [] s2)) ∧
        (∀ t s3 n st wr, op ≠ 0 → op ≠ 3 → dst = some t → descWrite x.d t.g srcs' (descPieces x.d t) s2 = (s3, n, st, wr) →
          exec i s = .next (descEnd q x.n st n 0 wr s3)) ∧
        (∀ a c s3 n st res, op = 3 → srcs' = [a, c] →
          descCompare a c x.d.len (x.d.len / 128 + 2) 0 s2 = (s3, n, st, res) →
          exec i s = .next (descEnd q x.n st n (if st = .ok then res else 0) [] s3))))) ∧
  (∀ (d : Desc) (pos len : Nat) (s : State), d.op = 1 → descData d [] pos len s =
    (s, .ok, (List.range len).map fun i => BitVec.ofNat 8 (d.pattern.toNat / 256 ^ ((pos + i) % 8))))

/-- PLAN_LOAD whose bundle has come and passes every check, with a free handle, enters the plan and answers OK with its handle and
its clamps; the first failed check gives DENIED or REFUSED with its class.
PLAN_UNLOAD of an own plan without a run unloads it and answers OK; with a run it answers BUSY.
PLAN_RUN of an own, idle plan with sound stores, engines in service and OK arguments starts a run; the first argument that is not
OK gives its status and index.
PLAN_RUN_END, when every engine has executed END, frees the engines and answers the run with its time. -/
def Obligations.PlansComplete : Prop :=
  (∀ (r : Req) (e : Env) (s s0 s1 s2 : State) (w : Waiting) (hd d : List Byte),
    taken { r with opcode := 0x50, subop := if r.subop = 1 then 0 else r.subop } e s = some (w, s0) →
    ctlFits w.req = true → fetchRange w (2 ^ 50) (reqWin w.req) (reqVa w.req) 0x80 s0 = .ok s1 hd →
    planHeadOk hd = true →
    (rangeParts s1 w.ord (reqTid w.req) w.req.src (max 128 (field hd 0x10 4)) (reqWin w.req, reqVa w.req, rightR)).1 = .ok →
    fetchRange w 0 (reqWin w.req) (reqVa w.req) (field hd 0x10 4) s1 = .ok s2 d →
    exec (.planLoad r e) s = .next (planCheck e.pick w d s2)) ∧
  (∀ (w : Waiting) (d : List Byte) (s : State) (pick : Nat) (p : PlanIn), p = parsePlan d →
    (planDenied s (reqTid w.req) d p ≠ 0 →
      planCheck pick w d s = reply12 w .denied (planDenied s (reqTid w.req) d p) 0 s) ∧
    (∀ c n, planDenied s (reqTid w.req) d p = 0 → planRefused pick s (reqTid w.req) p (placeGroups s p) = some (c, n) →
      planCheck pick w d s = reply12 w .refused c n s)) ∧
  (∀ (w : Waiting) (d : List Byte) (s s1 : State) (pick i : Nat) (p : PlanIn) (a : Placing),
    p = parsePlan d → planDenied s (reqTid w.req) d p = 0 → a = placeGroups s p →
    planRefused pick s (reqTid w.req) p a = none → planShape s (reqTid w.req) p (placedEngines p a) = 0 →
    freeHandle s 2 256 pick (fun i => s.fe.plans.any fun x => x.idx = i) = some i →
    s1 = enterPlan i (reqTid w.req) w.req.src (regionDigest d (field d 0x10 4)) p (placedEngines p a) s →
    ∃ h, planCheck pick w d s = reply w { mkResp s1 w.req .ok with r0 := h, r2 := w64 p.clamps } s1) ∧
  (∀ (r : Req) (e : Env) (s s0 : State) (w : Waiting) (p : Plan),
    taken { r with opcode := 0x50, subop := 1 } e s = some (w, s0) → ctlFits w.req = true →
    planOf s0 (op0 w.req % 2 ^ 16) (reqTid w.req) = some p →
    exec (.planUnload r e) s = .next (if p.run.isSome then replySt w .busy s0 else replySt w .ok (unloadPlan p.idx s0))) ∧
  (∀ (r : Req) (e : Env) (s s0 : State) (w : Waiting) (p : Plan), taken { r with opcode := 0x51 } e s = some (w, s0) →
    ctlFits w.req = true → planOf s0 (op0 w.req % 2 ^ 16) (reqTid w.req) = some p → p.run = none → p.storeBad = false →
    p.engs.any (engOut s0) = false → (p.engs.any fun n => (engAt s0 n).st = .substituting) = false →
    (((List.range p.args.length).zip p.args).map fun x => argValue s0 w x.2 x.1).findIdx? (fun v => v.1 ≠ .ok) = none →
    exec (.planRun r e) s = .next (startRun w p
      ((((List.range p.args.length).zip p.args).map fun x => argValue s0 w x.2 x.1).map Prod.snd) s0)) ∧
  (∀ (i : Nat) (e : Env) (s : State) (p : Plan) (r : Run), planAt (applyEnv e s) i = some p →
    p.run = some r → (p.engs.any fun n => !(engAt (applyEnv e s) n).ended) = false →
    ∃ s1, exec (.planRunEnd i e) s = .next ((s1.vrb.waiting.filter fun w => w.why = .run i).foldl (fun s w =>
        complete w { mkResp s w.req (if r.escAny then .okEscalated else .ok) with
          r0 := w64 (min (2 ^ 64 - 1) (s.now - r.since)), r1 := w64 0xFFFFFFFFFFFFFFFF, r2 := w64 r.esc } s) s1)
      ∧ s1 = p.engs.foldl (fun s n => modEng n (fun e => if e.st = .running then { e with st := .reserved } else e) s)
        (modPlan i (fun p => { p with run := none }) (applyEnv e s)))

/-- BARRIER_DEFINE of a new barrier over the tenant's own engines, with a free index, enters it and answers OK with its handle; of an
own idle barrier it sets its members. BARRIER_FREE of an own barrier on which nothing waits frees it and answers OK.
SYNC_ARRIVE adds its count to the slot of a running plan's engine, or to a barrier's external arrivals, and answers OK.
SYNC_WAIT answers OK at once where the slot has reached the count, and else waits; SYNC_WAIT_TIMEOUT completes a late one with
TIMEOUT. -/
def Obligations.SyncVerbsComplete : Prop :=
  (∀ (r : Req) (e : Env) (s s0 : State) (w : Waiting) (i : Nat) (b : Bar),
    taken { r with opcode := 0x4A, subop := if r.subop = 1 then 0 else r.subop } e s = some (w, s0) →
    ctlFits w.req = true → op1 w.req % 2 ^ 16 = 0xFFFF →
    ((maskBits (slice w.req.payload 0 256)).any fun n => !engineOf s0 (reqTid w.req) n) = false →
    findFree (fun i => !(s0.fe.bars.any fun b => b.idx = i)) 256 e.pick = some i →
    b = { idx := i, gen := nextGen s0 3 i, tid := reqTid w.req, mask := maskBits (slice w.req.payload 0 256),
          ext := op0 w.req % 2 ^ 16 } →
    exec (.barrierDefine r e) s = .next (reply w { mkResp s0 w.req .ok with r0 := w64 (barHandle b) }
      (useIndex 3 i b.gen (setFe (fun c => { c with bars := c.bars ++ [b] }) s0)))) ∧
  (∀ (r : Req) (e : Env) (s s0 : State) (w : Waiting) (b : Bar),
    taken { r with opcode := 0x4A, subop := if r.subop = 1 then 0 else r.subop } e s = some (w, s0) →
    ctlFits w.req = true → op1 w.req % 2 ^ 16 ≠ 0xFFFF → barOf s0 (op1 w.req % 2 ^ 16) (reqTid w.req) = some b →
    ((maskBits (slice w.req.payload 0 256)).any fun n => !engineOf s0 (reqTid w.req) n) = false → b.arrived = [] →
    b.extArr = 0 →
    exec (.barrierDefine r e) s = .next (reply w { mkResp s0 w.req .ok with r0 := w64 (barHandle b) }
      (modBar b.idx (fun b => { b with mask := maskBits (slice w.req.payload 0 256), ext := op0 w.req % 2 ^ 16 }) s0))) ∧
  (∀ (r : Req) (e : Env) (s s0 : State) (w : Waiting) (b : Bar),
    taken { r with opcode := 0x4A, subop := 1 } e s = some (w, s0) → ctlFits w.req = true →
    barOf s0 (op1 w.req % 2 ^ 16) (reqTid w.req) = some b → barAwaited s0 b = false →
    exec (.barrierFree r e) s = .next (replySt w .ok (freeIndex 3 b.idx
      (setFe (fun c => { c with bars := c.bars.filter fun x => x.idx ≠ b.idx }) s0)))) ∧
  (∀ (r : Req) (e : Env) (s s0 : State) (w : Waiting) (p : Plan) (n k : Nat),
    taken { r with opcode := 0x48 } e s = some (w, s0) → ctlFits w.req = true →
    syncTarget s0 (reqTid w.req) (op0 w.req) = some (.slot p n k) → p.run.isSome = true →
    exec (.syncArrive r e) s = .next (replySt w .ok (noteBreak p.idx
      (addSlot p n k (clampTo 1 65535 (op1 w.req % 2 ^ 16)) (noteBreak p.idx s0))))) ∧
  (∀ (r : Req) (e : Env) (s s0 : State) (w : Waiting) (b : Bar), taken { r with opcode := 0x48 } e s = some (w, s0) →
    ctlFits w.req = true → syncTarget s0 (reqTid w.req) (op0 w.req) = some (.barrier b) →
    exec (.syncArrive r e) s = .next (replySt w .ok (barArrived b.idx (modBar b.idx (fun b => { b with
      extArr := min 65535 (b.extArr + clampTo 1 65535 (op1 w.req % 2 ^ 16)) }) s0)))) ∧
  (∀ (r : Req) (e : Env) (s s0 : State) (w : Waiting) (p : Plan) (n k : Nat),
    taken { r with opcode := 0x49 } e s = some (w, s0) → ctlFits w.req = true →
    syncTarget s0 (reqTid w.req) (op0 w.req) = some (.slot p n k) → op1 w.req % 2 ^ 16 ≤ slotVal (engAt s0 n) k →
    exec (.syncWait r e) s = .next (reply w { mkResp s0 w.req .ok with r0 := w64 (slotVal (engAt s0 n) k) } s0)) ∧
  (∀ (r : Req) (e : Env) (s s0 : State) (w : Waiting) (p : Plan) (n k : Nat),
    taken { r with opcode := 0x49 } e s = some (w, s0) → ctlFits w.req = true →
    syncTarget s0 (reqTid w.req) (op0 w.req) = some (.slot p n k) → slotVal (engAt s0 n) k < op1 w.req % 2 ^ 16 →
    exec (.syncWait r e) s = .next (waitFor w (.slot (planHandle p) n k (op1 w.req % 2 ^ 16)
      (w.since + clampTo 1 1000000 (bits (op1 w.req) 63 32) * 1000)) s0)) ∧
  (∀ (src tag : Nat) (e : Env) (s : State) (w : Waiting), ((applyEnv e s).vrb.waiting.find? fun w =>
      w.req.src = src && w.req.tag.toNat = tag && syncLate (applyEnv e s) w) = some w →
    exec (.syncWaitTimeout src tag e) s = .next (completeSt w .timeout (applyEnv e s)))

/-- DEADLOCK_DETECT of a run that has been blocked for DEADLOCK_US counts, records and writes the wait graph, and aborts the run with
ENGINE_FAULT. FE_PARK_ACT by one who may resolve the record: RETRY resumes its engines, ABORT aborts their runs.
ENGINE_HANG takes an engine out whose operation has run for 100 ms; ENGINE_SELFTEST that fails takes out the engine that was due.
SPARE_REMAP_DONE, after the spare's self-test, gives the substituted engine the state it had.
FE_BANK_OWN_WRITE hands banks over as written, for those who may; FE_ABFT_CLR clears HELD. -/
def Obligations.EngineServiceCompletes : Prop :=
  (∀ (i : Nat) (e : Env) (s s0 s1 : State) (p : Plan) (r : Run) (n : Nat), s0 = applyEnv e s → planAt s0 i = some p →
    p.run = some r → runBlocked s0 p = true → r.progress + s0.img.deadlockUs * 1000 ≤ s0.now →
    s1 = writeGraph p r s0 → n = (p.engs.find? fun n => !(engAt s0 n).ended).getD 0 →
    ∃ s2, exec (.deadlockDetect i e) s = .next (abortRun i .engineFault none
        (cairnAt 0x07 0x02 n (n / 64 * 2 ^ 32) 0 (0x70 + n / 64) p.tid .engineFault s2))
      ∧ s2 = setFe (fun c => { c with deadlock := satAdd 16 c.deadlock 1 }) s1) ∧
  (∀ (sess k : Nat) (e : Env) (s s0 : State) (x : Sess) (p : Park), served sess e.t (applyEnv e s) = some (x, s0) →
    mayRun x .operator = true → hasEngines s0 = true → (s0.fe.parks.find? fun p => p.idx = k % 64) = some p →
    exec (.feParkActRetry (.mgmt sess) k e) s = .next (mgmtReply sess .ok [] (parkRetry p s0)) ∧
    exec (.feParkActAbort (.mgmt sess) k e) s = .next (mgmtReply sess .ok [] (parkAbort p s0))) ∧
  (∀ (tid k : Nat) (e : Env) (s s0 : State) (p : Park), reachable (applyEnv e s) = true →
    s0 = atTime e.t (applyEnv e s) → hasEngines s0 = true → (s0.fe.parks.find? fun p => p.idx = k % 64) = some p →
    p.tid = tid →
    exec (.feParkActRetry (.page tid) k e) s = .next (parkRetry p s0) ∧
    exec (.feParkActAbort (.page tid) k e) s = .next (parkAbort p s0)) ∧
  (∀ (n : Nat) (e : Env) (s s0 : State), s0 = applyEnv e s → hangs s0 (engAt s0 n) = true →
    exec (.engineHang n e) s = .next (quarantine n 0x05 (engAt s0 n).tid .engineFault s0)) ∧
  (∀ (k : Fin 32) (pos : Fin 66) (pass : Bool) (e : Env) (s s0 : State) (n : Nat), s0 = applyEnv e s →
    hasEngines s0 = true → k.val < stackCount s0 → engineAtPos s0 k.val pos.val = some n → (engAt s0 n).st = .substituting →
    ∃ s1, exec (.engineSelftest k pos pass e) s =
        .next (if pass then s1 else quarantine n 0x04 (engAt s1 n).tid .engineFault s1)
      ∧ s1 = modEng n (fun x => { x with lastTest := s0.now }) s0) ∧
  (∀ (n : Nat) (e : Env) (s s0 : State), s0 = applyEnv e s → (engAt s0 n).st = .substituting →
    (engAt s0 n).lastTest ≠ none →
    exec (.spareRemapDone n e) s = .next (modEng n (fun x => { x with
      st := x.saved, saved := .free, idleSince := s0.now }) s0)) ∧
  (∀ (sess n : Nat) (v : BitVec 64) (e : Env) (s s0 : State) (x : Sess), served sess e.t (applyEnv e s) = some (x, s0) →
    mayRun x .operator = true → hasEngines s0 = true → n < 64 * stackCount s0 →
    exec (.feBankOwnWrite (.mgmt sess) n v e) s = .next (mgmtReply sess .ok [] (writeBankOwn n v.toNat s0))) ∧
  (∀ (tid n : Nat) (v : BitVec 64) (e : Env) (s s0 : State), reachable (applyEnv e s) = true →
    s0 = atTime e.t (applyEnv e s) → hasEngines s0 = true → engineOf s0 tid n = true → n < 64 * stackCount s0 →
    exec (.feBankOwnWrite (.page tid) n v e) s = .next (writeBankOwn n v.toNat s0)) ∧
  (∀ (sess : Nat) (e : Env) (s s0 : State) (x : Sess), served sess e.t (applyEnv e s) = some (x, s0) →
    mayRun x .operator = true → hasEngines s0 = true →
    ∃ t, exec (.feAbftClr (.mgmt sess) e) s = .next t ∧ t.out = s0.out ++ [.mgmt sess .ok []]
      ∧ t.fe.abftLast = s0.fe.abftLast &&& ~~~ (1#64 <<< 61))

/-- An engine that runs and whose wait is met executes the operation it stands at: NOP signals and moves on; BANK_OWN, with both
ports idle, hands its bank over; BARRIER, with the compute port free, takes that port, arrives at its barrier where it is a member
and waits there; END, with both ports idle, ends the stream.
The operation of an engine's mover port: MOVE whose source has been read and whose destination takes it completes; SEND to a node
sends its source in STREAM packets and completes, SEND to a destination of the module is a MOVE; RECV completes when its length has
landed in its bank, and takes it off. -/
def Obligations.StreamAndMoverOperationsComplete : Prop :=
  (∀ (n : Nat) (e : Env) (s s0 : State) (p : Plan) (r : Run) (d : OpD), s0 = applyAll e s → runOf s0 n = some (p, r) →
    d = opAt p n (engAt s0 n).pc → (engAt s0 n).st = .running → (engAt s0 n).ended = false →
    waitMet (engAt s0 n) d = true →
    (d.opc = 0 → exec (.opNop n e) s = .next (signal p d (advance n d (noteWork p.idx s0)))) ∧
    (d.opc = 8 → portsIdle (engAt s0 n) = true →
      exec (.opBankOwn n e) s = .next (bankOwnOp n p d (noteWork p.idx s0))) ∧
    (∀ (s1 : State) (b : Bar), d.opc = 9 → (engAt s0 n).comp = none →
      s1 = noteWork p.idx (advance n d (modEng n (fun x => { x with
        comp := some { i := (engAt s0 n).pc, since := s0.now, ord := s0.vrb.nextOrd } }) s0)) → opBar s1 p r d = some b →
      exec (.opBarrier n e) s = .next (barArrived b.idx (modBar b.idx (fun b => { b with
        arrived := if b.mask.contains n && !b.arrived.contains n then b.arrived ++ [n] else b.arrived }) s1))) ∧
    (d.opc = 0x0F → portsIdle (engAt s0 n) = true →
      exec (.opEnd n e) s = .next (signal p d (modEng n (fun x => { x with
        ended := true, idleSince := (noteWork p.idx s0).now }) (advance n d (noteWork p.idx s0)))))) ∧
  (∀ (n : Nat) (e : Env) (s s1 : State) (c : OpCtx), opNow n true (applyAll e s) = some (c, s1) →
    (∀ (s2 s3 : State) (d : List Byte), c.d.opc = 1 → readSrc c true 0 c.d.src.toNat (moveLen c.d) s1 = (s2, .ok d) →
      writeDst c true c.d.dst.toNat d s2 = (s3, .done) →
      exec (.opMove n e) s = .next (opDone c.n true c.p c.d s3)) ∧
    (∀ (s2 : State) (d : List Byte), c.d.opc = 6 → readSrc c true 0 c.d.src.toNat (moveLen c.d) s1 = (s2, .ok d) →
      bits c.d.dst.toNat 63 60 = 3 →
      exec (.opSend n e) s = .next (opDone c.n true c.p c.d (sendStream c.p c.d.dst.toNat (d.length / 2048 + 1) d s2))) ∧
    (∀ (s2 s3 : State) (d : List Byte), c.d.opc = 6 → readSrc c true 0 c.d.src.toNat (moveLen c.d) s1 = (s2, .ok d) →
      bits c.d.dst.toNat 63 60 ≠ 3 → writeDst c true c.d.dst.toNat d s2 = (s3, .done) →
      exec (.opSend n e) s = .next (opDone c.n true c.p c.d s3)) ∧
    (∀ (b : Nat), c.d.opc = 7 → b = bits c.d.param.toNat 21 20 → moveLen c.d ≤ nth 0 (engAt s1 c.n).landed b →
      exec (.opRecv n e) s = .next (opDone c.n true c.p c.d (modEng c.n (fun x => { x with
        landed := x.landed.set b (nth 0 (engAt s1 c.n).landed b - moveLen c.d) }) s1))))

/-- The operation of an engine's compute port: GEMV whose checks pass writes its outputs and completes, one whose check misses is
executed again where another engine can; ATTEND that has read its pages completes; EWISE ADD, MUL, MAX and SCALE write
f(DST, SRC) element by element in FP32, CONVERT its converted source, REDUCE f(DST, SRC), and complete when their destination
takes it; a second execution ends as ABFT_REEXEC_DONE decides. -/
def Obligations.ComputeOperationsComplete : Prop :=
  (∀ (n : Nat) (e : Env) (s s1 : State) (c : OpCtx), opNow n false (applyAll e s) = some (c, s1) →
    (∀ (s2 : State) (o : GemvOut) (y : OpRes), c.d.opc = 2 → gemvOnce e 0x200 c s1 = (s2, some o, y) → o.miss = none →
      exec (.opGemv n e) s = .next (opDone c.n false c.p c.d (gemvWrite c o s2))) ∧
    (∀ (s2 : State) (o : GemvOut) (y : OpRes) (ratio : Int) (pos : Nat), c.d.opc = 2 →
      gemvOnce e 0x200 c s1 = (s2, some o, y) → o.miss = some ratio → reexecPos s2 c.n = some pos →
      exec (.opGemv n e) s = .next (setFe (fun x => { x with
        reexec := x.reexec ++ [{ eng := c.n, pos := pos, ratio := ratio }] }) s2)) ∧
    (∀ (s2 : State), c.d.opc = 3 → attendOp c s1 = (s2, .done) →
      exec (.opAttend n e) s = .next (opDone c.n false c.p c.d s2)) ∧
    (∀ (f : BitVec 32 → BitVec 32 → BitVec 32) (i : Instr) (s2 : State) (m : Nat), c.d.opc = 4 →
      (i = .opEwiseAdd n e ∧ ewiseFunc c.d = 0 ∧ f = f32Add) ∨ (i = .opEwiseMul n e ∧ ewiseFunc c.d = 1 ∧ f = f32Mul) ∨
        (i = .opEwiseMax n e ∧ ewiseFunc c.d = 2 ∧ f = f32Max) ∨
        (i = .opEwiseScale n e ∧ ewiseFunc c.d = 3 ∧ f = fun _ b => f32Mul b (Config.ewiseScale c.d.param)) →
      m = ewiseCount c.d 4 4 →
      writeDst c false c.d.dst.toNat ((List.zipWith f (scratchF32 (engAt s1 c.n) c.d.dst.toNat m)
        (scratchF32 (engAt s1 c.n) c.d.src.toNat m)).map fun x => le 4 x.toNat).flatten s1 = (s2, .done) →
      exec i s = .next (opDone c.n false c.p c.d s2)) ∧
    (∀ (s2 : State), c.d.opc = 4 → ewiseFunc c.d = 4 → convertOp c s1 = (s2, .done) →
      exec (.opEwiseConvert n e) s = .next (opDone c.n false c.p c.d s2)) ∧
    (∀ (s2 : State), c.d.opc = 5 → reduceOp c s1 = (s2, .done) →
      exec (.opReduce n e) s = .next (opDone c.n false c.p c.d s2))) ∧
  (∀ (n : Nat) (e : Env) (s s0 : State) (x : Reexec) (p : Plan) (r : Run) (f : Flight), s0 = applyAll e s →
    (s0.fe.reexec.find? fun x => x.eng = n) = some x → runOf s0 n = some (p, r) → (engAt s0 n).comp = some f →
    (engAt s0 n).st = .running → foreignBank (engAt s0 n) false (opAt p n f.i) = none →
    exec (.abftReexecDone n e) s = .next (reexecRun e x { n := n, p := p, r := r, d := opAt p n f.i, f := f } s0))

/-- WS_LOAD into an own object region that nothing may still write to, behind no earlier WS_LOAD without a place, whose range passes
and whose directory has been read and parses, places its set, or goes on with the set it has placed. A bundle that passes the
checks of R369 up to 0x09 gets a LOADING set with a run on each stack it uses. One whose images have been read, behind no equal
set that loads since before, with no tile to reject, is written to its runs, and where no resident set of the tenant has its
digest becomes a resident set of one load, answered OK with its handle and number of tiles.
WS_RELEASE of a set of more than one load takes one load off; of the last load, with no plan or call on the set, frees it; both OK. -/
def Obligations.WeightSetsComplete : Prop :=
  (∀ (r : Req) (e : Env) (s s0 s1 s2 : State) (w : Waiting) (g : Region) (b : Bundle) (hd d : List Byte) (h va n : Nat),
    taken { r with opcode := 0x38 } e s = some (w, s0) → ctlFits w.req = true →
    objRegion s0 (reqTid w.req) (objField w) = some g → g.st ≠ .revoking → w.sealLate = false →
    writesPending s0 g.idx w.ord = false → loadsEarlier s0 w = false → h = field w.req.payload 0 3 →
    va = field w.req.payload 8 8 → fetchRange w (2 ^ 50) h va 0x80 s0 = .ok s1 hd → n = 0x80 + 32 * field hd 0x0E 2 →
    (rangeParts s1 w.ord (reqTid w.req) w.req.src (max 0x80 (field hd 0x10 8)) (h, va, rightR)).1 = .ok →
    n ≤ field hd 0x10 8 → fetchRange w (2 ^ 51) h va n s1 = .ok s2 d → parseBundle d = some b →
    ((loadingOf s2 w).filter (sameShape b) = none →
      exec (.wsLoad r e) s = .next (wsPlace e.pick w g b d (dropLoading w s2))) ∧
    (∀ x, (loadingOf s2 w).filter (sameShape b) = some x → exec (.wsLoad r e) s = .next (wsRead w x b d s2))) ∧
  (∀ (pick i : Nat) (w : Waiting) (g : Region) (b : Bundle) (d : List Byte) (s : State) (ks used : List Nat)
      (ts : List TilePlan) (bytes : Nat → Nat), (b.dir.any fun x => decide (x.m.cols % 64 ≠ 0)) = false →
    (b.residual && b.wfmt ≠ 0) = false → setCount s w (fun _ => true) < 256 →
    setCount s w (· == reqTid w.req) < limitOf s (reqTid w.req) TenantCfg.maxWs →
    freeHandle s 4 256 pick (fun i => s.ws.sets.any fun x => x.idx = i) = some i →
    ks = stackList s g (field w.req.payload 0x10 4) → ks ≠ [] → ts = tileOrder b ks →
    bytes = runBytes (wfmtOf b.wfmt) b.residual ts → used = ks.filter (fun k => ts.any fun x => x.t.stack = k) →
    (∀ k ∈ used, (arenaFit s g k (bytes k)).1.isSome = true) → firstShort (metaShort s b.residual ts) used = none →
    ∃ x, wsPlace pick w g b d s = wsRead w x b d (setWs (fun c => { c with sets := c.sets ++ [x] }) s) ∧ x.idx = i ∧
      x.st = .loading ∧ x.tid = reqTid w.req ∧ x.region = g.idx ∧ x.runs.map Prod.fst = used ∧ x.loader = some w.ord) ∧
  (∀ (w : Waiting) (x : Wset) (b : Bundle) (ts : List TilePlan) (hd d dig : List Byte) (s s0 s1 : State),
    fetchSpans w (field w.req.payload 0 3) (field w.req.payload 8 8) (bundleSpans b) [] s0 = .ok s d →
    ts = tileOrder b x.stks → tilesReject (wfmtOf b.wfmt) b.residual d ts = 0 →
    equalLoads w x b s = false →
    s1 = x.runs.foldl (fun s r => writeBulk (r.1 * 2 ^ 36 + r.2.1)
      (runImage (wfmtOf b.wfmt) b.residual d (ts.filter fun t => t.t.stack = r.1)) s) s →
    dig = setDigest (wfmtOf b.wfmt) b.residual hd d ts →
    (s1.ws.sets.find? fun y => y.tid = x.tid && y.st = .resident && y.digest = dig) = none →
    ∃ s2 z, wsRead w x b hd s0 = reply w { mkResp s2 w.req .ok with
        obj := BitVec.ofNat 32 (x.idx + 256 * x.gen), r0 := w64 ts.length, r2 := w64 1 } s2
      ∧ s2.ws.sets = mapIf (fun y => y.loader = some w.ord) (fun _ => z) s1.ws.sets ∧ z.idx = x.idx ∧ z.tid = x.tid
      ∧ z.st = .resident ∧ z.loads = x.loads ∧ z.region = x.region ∧ z.digest = dig ∧ s2.mem = s1.mem) ∧
  (∀ (r : Req) (e : Env) (s s0 : State) (w : Waiting) (x : Wset), taken { r with opcode := 0x3A } e s = some (w, s0) →
    ctlFits w.req = true → setOf s0 (field w.req.payload 0 2) (reqTid w.req) = some x → x.st ≠ .lost → 1 < x.loads →
    ∃ s1, exec (.wsRelease r e) s = .next (reply w { mkResp s0 w.req .ok with r0 := w64 (x.loads - 1) } s1)
      ∧ s1.ws.sets.map Wset.idx = s0.ws.sets.map Wset.idx ∧ s1.mem = s0.mem) ∧
  (∀ (r : Req) (e : Env) (s s0 : State) (w : Waiting) (x : Wset), taken { r with opcode := 0x3A } e s = some (w, s0) →
    ctlFits w.req = true → setOf s0 (field w.req.payload 0 2) (reqTid w.req) = some x →
    x.st = .lost ∨ (x.loads ≤ 1 ∧ planRefs s0 x.tid x.digest = false ∧ gemvRuns s0 x = false) →
    exec (.wsRelease r e) s = .next (reply w (mkResp s0 w.req .ok) (freeSet x.idx s0)))

/-- WS_GEMV on a resident set with matrices of one width, accessible ranges that do not overlap, engines for its tiles, and its input
read, does the call's work; where every tile succeeds and the output can be written, it answers OK, or OK_ESCALATED where sums
escalated, with the flags, the skipped and the escalated counts.
KV_ATTEND on an own object and layer, with no earlier append, does likewise for its attention.
The run time in RESULT0 is a free value. -/
def Obligations.GemvAndAttendComplete : Prop :=
  (∀ (r : Req) (e : Env) (s s0 s1 s2 : State) (w w' : Waiting) (b d : List Byte) (x : Wset) (p : GemvP) (k ilen olen : Nat)
      (a : Nat × Nat) (tiles : List (Nat × Nat × Nat × Tile)) (t : Span),
    taken { r with opcode := 0x39 } e s = some (w, s0) → ctlFits w.req = true → b = slice w.req.payload 0 64 →
    setOf s0 (field b 0 2) (reqTid w.req) = some x → p = gemvParams x b → x.st ≠ .lost → p.first < x.mats.length →
    k = (nth {} x.mats p.first).cols → (((x.mats.drop p.first).take p.count).any fun m => m.cols ≠ k) = false →
    ilen = p.batch * actStride p.af k →
    olen = p.batch * outStride p.bf (sumBy Mat.rows ((x.mats.drop p.first).take p.count)) →
    (rangeParts s0 w.ord (reqTid w.req) w.req.src ilen (field b 0x0C 3, field b 0x18 8, rightR)).1 = .ok →
    (rangeParts s0 w.ord (reqTid w.req) w.req.src olen (field b 0x10 3, field b 0x20 8, rightW)).1 = .ok →
    rangesOverlap (physRanges (rangeParts s0 w.ord (reqTid w.req) w.req.src ilen (field b 0x0C 3, field b 0x18 8, rightR)).2)
      (physRanges (rangeParts s0 w.ord (reqTid w.req) w.req.src olen (field b 0x10 3, field b 0x20 8, rightW)).2) = false →
    callEngines s0 x p = (.ok, a, tiles) → earlierTo s0 w (field b 0x0C 3) = false →
    spanOf s0 (field b 0x10 3) (field b 0x20 8) = some t → descGate w.ord olen (some t) [] s0 = (s1, .go) →
    w' = { w with outAt := some (t.g.idx, t.o, olen, 0) } →
    fetchRange w' 0 (field b 0x0C 3) (field b 0x18 8) ilen s1 = .ok s2 d →
    exec (.wsGemv r e) s = .next (gemvWork e w' x p k tiles t.g t.o d s2)) ∧
  (∀ (r : Req) (e : Env) (s s0 s1 s2 s3 : State) (w w' : Waiting) (b d : List Byte) (o : KvObj) (p : AttP) (n qlen olen : Nat)
      (engs : List Nat) (t : Span), taken { r with opcode := 0x42 } e s = some (w, s0) → ctlFits w.req = true →
    b = slice w.req.payload 0 64 → kvOf s0 (field b 0 4) (reqTid w.req) = some o → s1 = touchKv o.idx s0 →
    o.st ≠ .lost → field b 4 2 < o.layers → earlierKv s1 w o [0x41] (field b 4 2) 1 = false → p = attParams o b →
    n = p.nq * p.heads → qlen = n * actStride p.qf o.headDim → olen = n * outStride p.bf o.headDim + 4 * n →
    (rangeParts s1 w.ord (reqTid w.req) w.req.src qlen (field b 0x10 3, field b 0x18 8, rightR)).1 = .ok →
    (rangeParts s1 w.ord (reqTid w.req) w.req.src olen (field b 0x14 3, field b 0x20 8, rightW)).1 = .ok →
    rangesOverlap (physRanges (rangeParts s1 w.ord (reqTid w.req) w.req.src qlen (field b 0x10 3, field b 0x18 8, rightR)).2)
      (physRanges (rangeParts s1 w.ord (reqTid w.req) w.req.src olen (field b 0x14 3, field b 0x20 8, rightW)).2) = false →
    attEngines s1 o p.layer p.ctx = (.ok, engs) → spanOf s1 (field b 0x14 3) (field b 0x20 8) = some t →
    descGate w.ord olen (some t) [] s1 = (s2, .go) → w' = { w with outAt := some (t.g.idx, t.o, olen, p.ctx) } →
    fetchRange w' 0 (field b 0x10 3) (field b 0x18 8) qlen s2 = .ok s3 d →
    exec (.kvAttend r e) s = .next (attWork w' o p engs t.g t.o olen d s3)) ∧
  (∀ (e : Env) (w : Waiting) (x : Wset) (p : GemvP) (k oo fl : Nat) (tiles : List (Nat × Nat × Nat × Tile)) (g : Region)
      (input : List Byte) (ms : List Mat) (vecs : List (List Byte)) (row : Nat → Nat) (a : CallAcc) (tags : List Nat)
      (s s1 s2 s3 : State), ms = (x.mats.drop p.first).take p.count → row = (fun i => sumBy Mat.rows (ms.take (i - p.first))) →
    vecs = (List.range p.batch).map (fun v => slice input (v * actStride p.af k) (actStride p.af k)) →
    s1 = ((tiles.map fun t => t.2.1).eraseDups).foldl (fun s n => clearFlags n (serveTenant n x.tid s)) s →
    callTiles e x p vecs row k tiles { out := vecs.map fun _ => List.replicate (sumBy Mat.rows ms) 0 } s1 = (s2, a) →
    a.st = .ok → fl = (a.out.map (outBytes p.bf)).foldl (fun f b => f ||| b.2) a.flags →
    writeOut g oo (((List.range p.batch).zip (a.out.map (outBytes p.bf))).map fun b =>
      (b.1 * outStride p.bf (sumBy Mat.rows ms), b.2.1)) (noteRounding p row tiles a.out s2) = (s3, .ok, tags) →
    gemvWork e w x p k tiles g oo input s =
      replyAfter w { mkResp (runTime s3).1 w.req (if a.esc = 0 then .ok else .okEscalated) with
        obj := BitVec.ofNat 32 (fl % 256), r0 := (runTime s3).2, r1 := w64 a.skipped, r2 := w64 a.esc } tags (runTime s3).1) ∧
  (∀ (w : Waiting) (o : KvObj) (p : AttP) (engs : List Nat) (g : Region) (oo len fl : Nat) (q : List Byte) (tags : List Nat)
      (s s1 s2 s3 : State) (kv : List (List (Option (List (List Fp × List Fp)))))
      (ys : List (List Byte × BitVec 32 × Nat)), readHeads o p.layer p.ctx (List.range o.heads)
        (engs.foldl (fun s n => serveTenant n o.tid s) s) = (s1, kv) → ys = attOutputs o p q kv →
    fl = ys.foldl (fun f y => f ||| y.2.2) 0 → s2 = (if fl = 0 then s1 else engs.foldl (fun s n => noteFlags n fl s) s1) →
    kv.any (fun c => c.any Option.isNone) = false →
    writeOut g oo ((((List.range ys.length).zip ys).map fun y => (y.1 * outStride p.bf o.headDim, y.2.1)) ++
      [(p.nq * p.heads * outStride p.bf o.headDim, (ys.map fun y => le 4 y.2.1.toNat).flatten)]) s2 = (s3, .ok, tags) →
    attWork w o p engs g oo len q s = replyAfter w { mkResp (runTime s3).1 w.req .ok with
      obj := BitVec.ofNat 32 fl, r0 := (runTime s3).2, r1 := w64 p.ctx, r2 := w64 (pagesRead kv) } tags (runTime s3).1)

/-- KV_CREATE in an own object region that nothing may still write to, with room, enters the object with its reservation and answers
OK with its handle; KV_SHARE_PREFIX of a sound object does so for the child that shares its prefix.
KV_APPEND at or below the length of every layer, within MAX_TOKENS, to no immutable page, writes its tokens page by page and sets
the layers' lengths to POS + COUNT.
KV_RELEASE of an object that nothing holds frees it and answers OK; KV_EXPIRED releases one idle for IDLE_MS and tells its node. -/
def Obligations.KvObjectsComplete : Prop :=
  (∀ (r : Req) (e : Env) (s s0 : State) (w : Waiting) (g : Region) (o : KvObj), taken { r with opcode := 0x40 } e s = some (w, s0) →
    ctlFits w.req = true → objRegion s0 (reqTid w.req) (objField w) = some g → g.st ≠ .revoking →
    w.sealLate = false → writesPending s0 g.idx w.ord = false →
    o = { tid := reqTid w.req, region := g.idx, layers := clampTo 1 256 (field w.req.payload 2 2),
          heads := clampTo 1 64 (field w.req.payload 4 1), headDim := if field w.req.payload 5 1 = 0 then 64 else 128,
          mx := field w.req.payload 6 1 = 1, maxTok := clampTo 1 (2 ^ 20) (field w.req.payload 8 4),
          idleMs := idleMsOf (field w.req.payload 0x0C 4), stks := stackList s0 g (field w.req.payload 0x10 4),
          lens := List.replicate (clampTo 1 256 (field w.req.payload 2 2)) 0 } →
    exec (.kvCreate r e) s = .next (kvAdd e.pick 0 (kvT o) w g o s0)) ∧
  (∀ (pick lo r1 i : Nat) (w : Waiting) (g : Region) (o o' : KvObj) (s : State), kvRefuse s g o lo = none →
    freeHandle s 5 (2 ^ 20) pick (fun i => s.kv.objs.any fun x => x.idx = i) = some i →
    o' = { o with idx := i, gen := nextGen s 5 i, resv := kvNeed o lo (kvN o), lastUse := s.now, node := w.req.src } →
    ∃ s1, kvAdd pick lo r1 w g o s = reply w { mkResp s1 w.req .ok with
        obj := BitVec.ofNat 32 (kvHandle o'), r0 := w64 (sumBy Prod.snd (kvNeed o lo (kvN o))), r1 := w64 r1 } s1
      ∧ s1.kv.objs = s.kv.objs ++ [o'] ∧ s1.mem = s.mem) ∧
  (∀ (r : Req) (e : Env) (s s0 s1 s2 s3 : State) (w : Waiting) (b d : List Byte) (o : KvObj) (l0 ln pos count len fr cp : Nat),
    taken { r with opcode := 0x41 } e s = some (w, s0) → ctlFits w.req = true → b = slice w.req.payload 0 64 →
    kvOf s0 (field b 0 4) (reqTid w.req) = some o → s1 = touchKv o.idx s0 → o.st ≠ .lost → l0 = field b 4 2 →
    l0 < o.layers → ln = clampTo 1 (o.layers - l0) (field b 6 2) → pos = field b 8 4 →
    count = clampTo 0 65536 (field b 0x0C 4) → count ≠ 0 →
    len = ln * count * o.heads * 2 * headBytes o.mx o.headDim →
    earlierKv s1 w o [0x41, 0x42] l0 ln = false → attendFlies s1 o l0 ln w.ord = false →
    (rangeParts s1 w.ord (reqTid w.req) w.req.src len (field b 0x10 3, field b 0x18 8, rightR)).1 = .ok →
    (((List.range ln).map fun i => l0 + i).any fun l => decide (nth 0 o.lens l < pos)) = false →
    ((touchedPages o l0 ln pos count).any fun x => pageImmutable s1 o x.1 x.2.1 x.2.2) = false → pos + count ≤ o.maxTok →
    fetchRange w 0 (field b 0x10 3) (field b 0x18 8) len s1 = .ok s2 d →
    (touchedPages o l0 ln pos count).foldl (appendPage o.idx l0 pos count d) (s2, .ok, 0, 0) = (s3, .ok, fr, cp) →
    exec (.kvAppend r e) s = .next (reply w { mkResp s3 w.req .ok with
      r0 := w64 (pos + count), r1 := w64 fr, r2 := w64 cp }
      (modKv o.idx (fun y => { y with
        lens := ((List.range ln).map fun i => l0 + i).foldl (fun m l => m.set l (pos + count)) y.lens }) s3))) ∧
  (∀ (r : Req) (e : Env) (s s0 s1 : State) (w : Waiting) (b : List Byte) (o : KvObj) (g : Region) (t p : Nat),
    taken { r with opcode := 0x43 } e s = some (w, s0) → ctlFits w.req = true → b = slice w.req.payload 0 64 →
    kvOf s0 (field b 0 4) (reqTid w.req) = some o → s1 = touchKv o.idx s0 → o.st ≠ .lost →
    earlierKv s1 w o [0x41] 0 o.layers = false → regionAt s1 o.region = some g → g.st ≠ .revoking → t = kvT o →
    p = clampTo 0 (leastOf o.lens) (field b 4 4) →
    exec (.kvSharePrefix r e) s = .next (kvAdd e.pick (p / t) (p / t * t) w g { o with
      st := .active, maxTok := clampTo (max p 1) (2 ^ 20) (field b 8 4), idleMs := idleMsOf (field b 0x0C 4)
      lens := List.replicate o.layers p, sharedLen := p / t * t
      pages := o.pages.filter fun x => decide (x.p < ceilDiv p t) } s1)) ∧
  (∀ (r : Req) (e : Env) (s s0 : State) (w : Waiting) (o : KvObj), taken { r with opcode := 0x44 } e s = some (w, s0) →
    ctlFits w.req = true → kvOf s0 (field w.req.payload 0 4) (reqTid w.req) = some o → kvBusy s0 o = false →
    exec (.kvRelease r e) s = .next (replySt w .ok (freeObj o.idx s0))) ∧
  (∀ (i : Nat) (e : Env) (s s0 : State) (o : KvObj), s0 = applyEnv e s → kvAt s0 i = some o → o.idleMs ≠ 0 →
    o.lastUse + o.idleMs * 1000000 ≤ s0.now → kvBusy s0 o = false →
    exec (.kvExpired i e) s = .next (event o.node 0x0C .ok o.tid (kvHandle o) o.idleMs 0 0
      (setKv (fun c => { c with expired := satAdd 16 c.expired 1 }) (freeObj i s0))))

/-- A port that may leave DOWN on the signal enters TRAIN with its link counters clear, takes for good the lanes that lock and are not
excluded, and sends TRAIN_PARAM.
In TRAIN, a TRAIN_PARAM flit with a common width and sound credits is answered, sets the width, the lanes and the peer's credits, and
begins the RTT samples; the stamp of an RTT_PROBE flit is echoed; the 16th RTT_ECHO sets the replay timeout to 2 * RTT + 400 ns
within 1 to 20 us and enters VERIFY, an earlier one sends the next probe; 150 ms in TRAIN fail the attempt with reason 0x10.
In VERIFY, IDENT_SEND sends the module's identity with its nonce; an IDENT of another node that no rule of verification refuses is
answered and noted; an IDENT_ACK that echoes the nonce after that makes the port ACTIVE; 20 ms in VERIFY fail with reason 0x14. -/
def Obligations.LinkTrains : Prop :=
  ∀ (port : Fin 64) (t : Nat) (s s0 : State) (p : LnkPort), s0 = atTime t s → p = portAt s0 port →
    (∀ marks s1, p.st = .down → s1 = modPort port (fun p => { p with signal := some s0.now, lock := lockOf marks }) s0 →
      mayTrain s1 port = true →
      exec (.signalDetect port ⟨marks, t⟩) s = .next (sendTrainParam port (modPort port (fun p => { clearLink p with
        st := .train, since := s1.now, peerParams := false, rttPairs := 0, lanesUsed := 0, frame := 0, frameAt := 0
        lanesGood := p.lock &&& ~~~ exclMask p, sentWidth := ownWidth s1 port }) s1))) ∧
    (∀ flit : Bytes, p.st = .train → flitType flit = 2 → crcHolds 0xFFFFFF flit = true →
      (∀ (v reqWidth w : Nat) (goodMask lanes : Byte) (credits : List Nat), p.peerParams = false →
        ctlOf (slice flit 8 64) = some (.trainParam v reqWidth goodMask credits) →
        laneChoice p.sentWidth (min 3 reqWidth) p.lanesGood goodMask = some (w, lanes) → badCredits credits = false →
        ∀ head param counts tail, flit = head ++ param ++ counts ++ tail →
        exec (.trainParam port head param counts tail t) s = .next (sendCtl port (.rttProbe (w64 s0.now)) (sendTrainParam port
          (modPort port (fun p => { p with
            width := w, lanesUsed := lanes, peerParams := true
            crdPeer := (List.range 12).map fun i => nth 0 credits i }) s0)))) ∧
      (∀ stamp, ctlOf (slice flit 8 64) = some (.rttProbe stamp) →
        exec (.rttProbe port flit t) s = .next (sendCtl port (.rttEcho stamp) s0)) ∧
      (∀ (stamp : BitVec 64) (x rtt : Nat) (s1 : State), p.peerParams = true →
        ctlOf (slice flit 8 64) = some (.rttEcho stamp) →
        x = min 65535 (s0.now - stamp.toNat) → rtt = (if p.rttPairs = 0 then x else max x p.rttNs) →
        s1 = modPort port (fun p => { p with rttNs := rtt, rttPairs := p.rttPairs + 1 }) s0 →
        (p.rttPairs + 1 < 16 → exec (.rttEcho port flit t) s = .next (sendCtl port (.rttProbe (w64 s1.now)) s1)) ∧
        (16 ≤ p.rttPairs + 1 → exec (.rttEcho port flit t) s = .next (enterVerify port
          (modPort port (fun p => { p with replayToNs := clampTo 1000 20000 (2 * rtt + 400) }) s1))))) ∧
    (p.st = .train → p.since + 150000000 ≤ s0.now → exec (.trainTimeout port t) s = .next (trainFail port 0x10 s0)) ∧
    (p.st = .verify → p.gotAck = false →
      exec (.identSend port t) s = .next (sendLm port { ownLm s0 port 1 with nonce := p.nonce } s0)) ∧
    (∀ (m0 m : LinkMgmt) (x : Option InPkt) (s1 s2 : State), takeIngress port 5 s0 = (s1, x) →
      (portAt s1 port).st = .verify →
      (m = (x.map fun x => lmOf x.bytes).getD { m0 with type := 1 } → m.type = 1 →
        s2 = modPort port (fun p => { p with
          nbrNode := m.node % 2 ^ 20, nbrPort := m.port % 64, nbrKind := min 2 m.kind, nbrInc := m.inc % 2 ^ 16 }) s1 →
        m.node % 2 ^ 20 ≠ s2.glb.node →
        (portCfg s1 port).verify = false ∨
          (m.node % 2 ^ 20 = (portCfg s1 port).nbrNode ∧ m.port % 64 = (portCfg s1 port).nbrPort) →
        s2.img.clusterId = 0 ∨ m.cluster = 0 ∨ s2.img.clusterId = m.cluster →
        exec (.ident port m0 t) s = .next (verifyPass port (sendLm port { ownLm s2 port 2 with echo := m.nonce }
          (modPort port (fun p => { p with gotIdent := true }) s2)))) ∧
      (m = (x.map fun x => lmOf x.bytes).getD { m0 with type := 2 } → m.type = 2 → (portAt s1 port).nonce = m.echo →
        exec (.identAck port m0 t) s = .next (verifyPass port (modPort port (fun p => { p with gotAck := true }) s1)))) ∧
    (p.st = .verify → p.since + 20000000 ≤ s0.now →
      (p.gotIdent = true → exec (.verifyTimeout port t) s = .next (verifyFail port 0x14 p.nbrNode p.nbrPort s0)) ∧
      (p.gotIdent = false → exec (.verifyTimeout port t) s = .next (verifyFail port 0x14
        (Config.freeNat (takeFree 2 s0).2 % 2 ^ 20) (Config.freeNat ((takeFree 2 s0).2 + 1) % 64) (takeFree 2 s0).1)))

/-- In ACTIVE, HEARTBEAT_SEND after 100 us sends a heartbeat; a HEARTBEAT of the known neighbour renews the time of the last, one of
another node or incarnation resets the link; 400 us without one reset it with HB_LOSS; LEAVE takes the port DOWN with
PEER_LEAVE; a window of a lane in use that makes it faulty excludes it for 60 s and resets with LANE_FAULT, another is noted.
LOS takes any port but one DOWN to DOWN; a RESET flit resets with PEER_RESET; 1 us after it entered RESET the port is DOWN.
An exclusion, a hold and a backoff that have ended leave nothing that keeps the port from training.
Of a session that may write: RETRAIN resets the port with LOCAL_RETRAIN, CLEAR_HOLD ends the hold with its count and its doubling
and lets the port train, a write of LNK_CTL of a mapped port sets the administrative state and the requested width and takes the
port out of service or lets it train; each is answered OK. -/
def Obligations.LinkLossAndManagementComplete : Prop :=
  (∀ (port : Fin 64) (t : Nat) (s s0 : State) (p : LnkPort), s0 = atTime t s → p = portAt s0 port →
    (p.st = .active → p.lastHbTx + 100000 ≤ s0.now → exec (.heartbeatSend port t) s =
      .next (sendLm port (ownLm s0 port 3) (modPort port (fun p => { p with lastHbTx := s0.now }) s0))) ∧
    (∀ (m0 m : LinkMgmt) (x : Option InPkt) (s1 : State), takeIngress port 5 s0 = (s1, x) →
      m = (x.map fun x => lmOf x.bytes).getD { m0 with type := 3 } → m.type = 3 → (portAt s1 port).st = .active →
      (m.node % 2 ^ 20 = (portAt s1 port).nbrNode → m.inc % 2 ^ 16 = (portAt s1 port).nbrInc →
        exec (.heartbeat port m0 t) s = .next (modPort port (fun p => { p with lastHb := s1.now }) s1)) ∧
      (m.node % 2 ^ 20 ≠ (portAt s1 port).nbrNode ∨ m.inc % 2 ^ 16 ≠ (portAt s1 port).nbrInc →
        exec (.heartbeat port m0 t) s = .next (portReset port rsNbrChanged (linkFlag port 5 s1)))) ∧
    (p.st = .active → p.lastHb + 400000 ≤ s0.now → exec (.hbLoss port t) s = .next (portReset port rsHbLoss s0)) ∧
    (∀ s1 x, takeIngress port 5 s0 = (s1, x) → (x.map fun x => (lmOf x.bytes).type).getD 4 = 4 →
      (portAt s1 port).st = .active ∨ (portAt s1 port).st = .verify →
      exec (.leave port t) s = .next (modPort port (fun p => { p with losNeeded := true }) (portDown port rsPeerLeave s1))) ∧
    (p.st ≠ .down → exec (.los port t) s = .next (portDown port rsLos (linkFlag port 0 s0))) ∧
    (p.st = .down → exec (.los port t) s = .next (modPort port (fun p => { p with signal := none, losNeeded := false }) s0)) ∧
    (∀ (flit : Bytes) (reason : Nat) (s1 : State), flitType flit = 2 → crcHolds 0xFFFFFF flit = true →
      ctlOf (slice flit 8 64) = some (.reset reason) → p.st = .train ∨ p.st = .verify ∨ p.st = .active →
      s1 = (if carries p then flitReturns port (field flit 0 8) s0 else s0) →
      (portAt s1 port).st = .train ∨ (portAt s1 port).st = .verify ∨ (portAt s1 port).st = .active →
      exec (.resetFlit port flit t) s = .next (portReset port rsPeerReset (linkFlag port 4 s1))) ∧
    (p.st = .reset → p.since + 1000 ≤ s0.now → exec (.linkResetExit port t) s = .next (portDown port p.reason s0)) ∧
    (∀ (lane : Fin 8) (lost : Bool) (corr uncorr : Nat) (s1 : State), s1 = laneWindow port lane corr uncorr s0 →
      exec (.laneFault port lane ⟨lost, corr, uncorr, t⟩) s = .next
        (if carries (portAt s1 port) && laneFaulty (portAt s1 port) lane lost then
          portReset port rsLaneFault (linkFlag port 1 (modPort port (fun p => { p with
            excl := (p.excl.filter fun x => x.1 ≠ lane.val) ++ [(lane.val, s0.now + 60000000000)] }) s1))
        else s1)) ∧
    (∀ lane : Fin 8, exec (.laneExclusionExpiry port lane t) s = .next (modPort port (fun p => { p with
      excl := p.excl.filter fun x => !(x.1 = lane.val && decide (x.2 ≤ s0.now)) }) s0)) ∧
    (∀ u, p.holdUntil = some u → u ≤ s0.now → exec (.flapHoldExpiry port t) s =
      .next (tryTrain port (modPort port (fun p => { p with holdUntil := none, flapTimes := [] }) s0))) ∧
    (mayTrain s0 port = true → exec (.trainingBackoffExpiry port t) s = .next (sendTrainParam port
      (modPort port (fun p => { clearLink p with
        st := .train, since := s0.now, peerParams := false, rttPairs := 0, lanesUsed := 0, frame := 0, frameAt := 0
        lanesGood := p.lock &&& ~~~ exclMask p, sentWidth := ownWidth s0 port }) s0)))) ∧
  (∀ (sess : Nat) (port : Fin 64) (t : Nat) (s s0 : State) (x : Sess), served sess t s = some (x, s0) →
    mayRun x .operator = true →
    exec (.retrain sess port t) s = .next (mgmtReply sess .ok [] (portReset port rsLocalRetrain s0)) ∧
    exec (.clearHold sess port t) s = .next (mgmtReply sess .ok [] (tryTrain port (modPort port (fun p => { p with
      holdUntil := none, flapTimes := [], lastHold := none }) s0))) ∧
    (∀ (v : BitVec 64) (s1 : State), (portCfg s0 port).mapped = true → s1 = modPort port (fun p => { p with
        adminDown := v.getLsbD 8, reqWidth := clampTo (portCfg s0 port).maxWidth 3 (v.toNat % 4) }) s0 →
      (v.getLsbD 8 = true →
        exec (.adminDown sess port v t) s = .next (mgmtReply sess .ok [] (portReset port rsAdminDown s1))) ∧
      (v.getLsbD 8 = false → exec (.adminDown sess port v t) s = .next (mgmtReply sess .ok [] (tryTrain port s1)))))

/-- On a port in VERIFY or ACTIVE: a PAYLOAD flit in sequence whose CRC holds, and whose returns do not reset the link, moves the
expected sequence on by one, its slots are taken in order, and what is owed to the peer goes out; one whose CRC does not hold is
discarded, counted, and a NAK of the expected sequence goes out; an IDLE flit renews the last burst and brings its returns; due
acknowledgements go out in an IDLE flit, a full CREDIT on its own.
A LINK_CTL flit brings its returns, then: a NAK of a flit in the window or of the next one acknowledges what is before it and
replays; REPLAY_START at the expected sequence ends the wait; CREDIT returns each count; LPI_ENTER in ACTIVE notes the peer's idle,
LPI_EXIT ends it. The replay timer replays.
In ACTIVE, the keepalive burst carries acknowledgement and a count, and 40 us without a burst of a peer in idle reset the link. -/
def Obligations.LinkFlitsComplete : Prop :=
  ∀ (port : Fin 64) (t : Nat) (s s0 : State) (p : LnkPort), s0 = atTime t s → p = portAt s0 port → carries p = true →
    (∀ (flit : Bytes) (e : Env) (s1 s2 : State) (q : LnkPort), s1 = applyAll e s → q = portAt s1 port → carries q = true →
      flitType flit = 0 → q.nak = false →
      (q.rxReplayFrom = none → crcHolds q.rxExp flit = true →
        s2 = flitReturns port (field flit 0 8) s1 → carries (portAt s2 port) = true →
        exec (.payload port flit e) s = .next (payReturns port (slotsIn port (bits (field flit 0 8) 35 20) (slice flit 8 256)
          (modPort port (fun p => { p with
            rxExp := (q.rxExp + 1) % 2 ^ 24, rxReplayFrom := none, unacked := p.unacked + 1
            firstUnacked := if p.unacked = 0 then s2.now else p.firstUnacked }) s2)))) ∧
      (crcHolds (q.rxReplayFrom.getD q.rxExp) flit = false →
        exec (.payload port flit e) s = .next (sendCtl port (.nak q.rxExp) (modPort port (fun p => { p with
          crcErr := satAdd 16 p.crcErr 1, nak := true, rxReplayFrom := none, unacked := 0 }) s1)))) ∧
    (∀ flit : Bytes, flitType flit = 1 → crcHolds 0xFFFFFF flit = true → exec (.idle port flit t) s =
      .next (flitReturns port (field flit 0 8) (modPort port (fun p => { p with lastBurst := s0.now }) s0))) ∧
    (ackDue s0.now p = true → exec (.linkAckSend port t) s = .next (sendIdle port s0)) ∧
    (p.lpiTx = false → exec (.creditSend port t) s =
      .next (sendCtl port (.credit p.freed) (modPort port (fun p => { p with freedSent := p.freed }) s0))) ∧
    (∀ (flit : Bytes) (c : LinkCtl) (s1 : State) (q : LnkPort), flitType flit = 2 → crcHolds 0xFFFFFF flit = true →
      ctlOf (slice flit 8 64) = some c → s1 = flitReturns port (field flit 0 8) s0 → q = portAt s1 port → carries q = true →
      (∀ seq, c = .nak seq → seq = q.txSeq ∨ q.buf.any (fun f => f.seq = seq) = true → exec (.nak port flit t) s =
        .next (pumpPort port (replay port (ackFlits port ((seq + 65535) % 65536) s1)))) ∧
      (c = .replayStart q.rxExp → q.rxExp < 2 ^ 24 → exec (.replayStart port flit t) s =
        .next (modPort port (fun p => { p with nak := false, rxReplayFrom := none }) s1)) ∧
      (∀ counts, c = .credit counts → exec (.credit port flit t) s =
        .next (pumpPort port (((List.range 12).zip counts).foldl (fun s x =>
          if carries (portAt s port) then creditBack port x.1 (x.2 % 65536) s else s) s1))) ∧
      (c = .lpiExit → exec (.lpiExit port ⟨flit, t⟩) s = .next (modPort port (fun p => { p with lpiPeer := false }) s1)) ∧
      (c = .lpiEnter → q.st = .active → exec (.lpiEnter port ⟨flit, t⟩) s =
        .next (modPort port (fun p => { p with lpiPeer := true, lastBurst := s1.now }) s1))) ∧
    (p.buf ≠ [] → p.timer + replayTo p ≤ s0.now → exec (.replayTimeout port t) s = .next (replay port s0)) ∧
    (p.st = .active →
      (∀ h q, p.lpiTx = true → headerWith p 1 (slotInfo []) (!p.nak) (some ((crdDue p).getD p.crdNext)) = (h, q) →
        exec (.lpiBurst port t) s = .next (lineFlit port false (flitBytes 0xFFFFFF h [])
          (modPort port (fun _ => { q with frameAt := 0 }) s0))) ∧
      (p.lpiPeer = true → p.lastBurst + 40000 ≤ s0.now →
        exec (.keepaliveLoss port t) s = .next (portReset port rsKeepaliveLoss s0)))

/-- A packet that has come in through the flits of its port, on a reachable module that is not its destination, goes on: with hops left
to a port of the routing set of its epoch and group, other than the one it came by, with one hop less, in its class (TC2 where it
has been demoted) and its bytes otherwise as they came; with none left it is dropped and counted in the hop count, and without such a port in the unroutable count.
Of the transit packets at egress, one held longer than 8 us is dropped and counted.
A packet for the module from a source that is not blocked, under the module's incarnation, from a peer whose held state has the
packet's own: one whose seal passes goes to the sequence rules of its space (E2E and STREAM, a request or an event only
where its source has a live port); an E2E_ACK that is neither STALE nor RESYNC acknowledges, SACK first, then the cumulative part. -/
def Obligations.PacketsComplete : Prop :=
  ((∀ (port : Fin 64) (p0 p : Pkt) (a : InPkt) (e : Env) (s s0 s1 s2 : State) (tc : Nat) (set : BitVec 64),
    s0 = applyEvery e s → s0.boot.st ≠ .bivouac → s0.e2e.bivHeld = [] → reachable s0 = true →
    takeIngress port p0.tc s0 = (s1, some a) → tc = (if a.demoted then 2 else a.tc) → p = arrived a.bytes p0 →
    s2 = critRead 0x19 s1 → p.dst ≠ s2.glb.node →
    set = liveSet s2 p.epoch (groupOf p.dst) &&& ~~~ (1#64 <<< port.val) →
    (min 12 p.hops = 0 →
      exec (.transitForward port p0 e) s = .next (setRte (fun r => { r with hopsDrop := satAdd 16 r.hopsDrop 1 }) s2)) ∧
    (∀ s3, min 12 p.hops ≠ 0 → choosePort tc (1 + p.pslots) none set s2 = (s3, none) →
      exec (.transitForward port p0 e) s = .next (setRte (fun r => { r with noroute := satAdd 16 r.noroute 1 }) s3)) ∧
    (∀ s3 j, min 12 p.hops ≠ 0 → choosePort tc (1 + p.pslots) none set s2 = (s3, some j) →
      exec (.transitForward port p0 e) s = .next (enqueue j
        { rank := if tc = 4 then 3 else if tc ≤ 1 then 2 else 4, queue := nth 0 s3.img.svcQueue 0, tc := tc, slots := 1 + p.pslots
          transit := some port.val, arrived := s3.now, raw := forwarded (min 12 p.hops - 1) a.bytes, pkt := some { p with hops := min 12 p.hops - 1 } } s3))) ∧
  (∀ (i t k : Nat) (s s0 : State) (x : EgPkt), s0 = atTime t s → (transitPkts s0)[i]? = some (k, x) →
    x.arrived + 8000 < s0.now → exec (.transitAgeDrop i t) s =
      .next (setRte (fun r => { r with ageDrop := satAdd 16 r.ageDrop 1 }) (modPort k (egDrop s0 x) s0)))) ∧
  (∀ (port : Fin 64) (p p0 q : Pkt) (a : InPkt) (s s0 s1 s2 : State) (h : Peer), s0.boot.st ≠ .bivouac → s0.e2e.bivHeld = [] →
    reachable s0 = true → takeIngress port p.tc s0 = (s1, some a) → p0 = arrived a.bytes p →
    q = withClass (if a.demoted then 2 else a.tc) p0 → s2 = critRead 0x19 s1 → p0.dst = s2.glb.node → isBlocked s2 q.src = false → q.incV = true → q.dstInc = incarnation s2 →
    peerOf s2 q.src false = some h → h.incOk = true → h.inc = q.srcInc →
    (∀ (e : Env), s0 = applyEvery e s →
      ((isEvent q.body || isRequest q.body) = true → liveSet (critRead 0x00 s2) s2.rte.sel (groupOf q.src) ≠ 0) → (∀ k, q.body ≠ .ack k) →
      sealCheck s2 false q = .pass → ∀ s3,
      s3 = (if hasSession s2 q.src then modSec q.src (fun x => { x with last := s2.now }) s2 else s2) →
      (peerOf s3 q.src false).isSome = true → exec (.e2e port p e) s = .next (sequenced false q s3)) ∧
    (∀ (t : Nat) (x : StreamArea), s0 = atTime t s → q.body = .stream x → sealCheck s2 false q = .pass → ∀ s3,
      s3 = (if hasSession s2 q.src then modSec q.src (fun x => { x with last := s2.now }) s2 else s2) →
      (peerOf s3 q.src false).isSome = true → exec (.stream port p t) s = .next (sequenced false q s3)) ∧
    (∀ (t : Nat) (k : AckArea) (s3 : State), s0 = atTime t s → q.body = .ack k → k.stale = false → k.resync = false →
      s3 = modPeer q.src false (fun x => { x with last := s2.now }) s2 →
      exec (.e2eAck port p t) s = .next (ackIn q.src false q.space q.ack q.ece (sackIn q.src false q.space q.ack k.sack s3))))

/-- On a reachable module with no provisional state of the node: E2E_ACK_SEND of a space with nothing held acknowledges what has been
delivered since the last; E2E_RETRANSMIT_TIMEOUT of a packet that no SACK has reported, RTO_US after it was sent, retransmits it
up to six times, then the peer is lost.
A draining peer that is idle is evicted and what waited for its state goes on.
Of a session that may write: FLIP while no flip drains changes the active copy, and a write of RTE_GRP_SET of the inactive copy then
sets the group's ports of those that are mapped; 100 us after the flip DRAINING ends. -/
def Obligations.EndToEndTimersComplete : Prop :=
  (∀ (node seq t : Nat) (space : Bool) (s s0 : State) (p : Peer), s0 = atTime t s → reachable s0 = true →
    peerOf s0 node false = some p →
    ((spaceOf p space).held = [] → 0 < (spaceOf p space).dlv → peerOf (sendAck node false space s0) node true = none →
      exec (.e2eAckSend node space t) s = .next (sendAck node false space s0)) ∧
    (∀ x, ((spaceOf p space).sent.find? fun x => x.seq = seq) = some x → x.reported = false →
      x.sentAt + s0.img.rtoUs * 1000 ≤ s0.now →
      (x.count < 6 → peerOf (retransmit p space x s0) node true = none →
        exec (.e2eRetransmitTimeout node space seq t) s = .next (retransmit p space x s0)) ∧
      (6 ≤ x.count → peerOf (peerLost node s0) node true = none →
        exec (.e2eRetransmitTimeout node space seq t) s = .next (peerLost node s0)))) ∧
  (∀ (node t : Nat) (s s0 : State) (p : Peer), s0 = atTime t s →
    (s0.e2e.peers.filter fun p => p.node = node && p.draining) = [p] → peerIdle s0 p = true →
    exec (.drainingPeerEviction node t) s = .next (pumpWaitOut (evictPeer p.node p.prov s0))) ∧
  (∀ (t : Nat) (s s0 : State), s0 = atTime t s → s0.rte.draining = true → s0.rte.flipAt + 100000 ≤ s0.now →
    exec (.drainingEnd t) s = .next (critWrite 0x00 (setRte (fun r => { r with draining := false }) (critRead 0x00 s0)))) ∧
  (∀ (sess t : Nat) (s s0 s1 : State) (x : Sess), served sess t s = some (x, s0) → mayRun x .operator = true →
    s1 = critRead 0x00 s0 → s1.rte.draining = false →
    exec (.flip sess t) s = .next (mgmtReply sess .ok [] (critWrite 0x00 (setRte (fun r => { r with
      sel := !r.sel, draining := true, flipAt := s1.now, flips := wrapAdd 16 r.flips 1 }) s1))) ∧
    (∀ (v : BitVec 64) (copy : Bool) (g : Nat), copy = decide ((selsOf s0 (.mgmt sess)).rteCopy % 2 = 1) →
      g = (selsOf s0 (.mgmt sess)).rteGrp % 4096 → copy ≠ s1.rte.sel →
      exec (.rteGrpSetWrite sess v t) s = .next (mgmtReply sess .ok [] (setRte (fun r =>
        if copy then { r with copy1 := setNthD 0 g (v &&& mappedMask s1.img.ports) r.copy1 }
        else { r with copy0 := setNthD 0 g (v &&& mappedMask s1.img.ports) r.copy0 }) s1))))

/-- ANCHOR_RESPONSE with status OK from the lender of the anchor that its TAG asked: the STORE or ATOMIC that waits for that TAG alone
completes with the worst status so far, an ATOMIC with the value it read; the LOAD that waits for that TAG alone, not written
meanwhile, goes on with all the data it has asked for.
Any other status is the loss of the anchor, and what waits ends with NODE_LOST.
MIRROR_PEER_RESPONSE from the node that owes it completes the STORE that waits for its TAG alone with the worst of both statuses (a
STORE has begun no output of 09 R379). -/
def Obligations.LenderAnswersComplete : Prop :=
  (∀ (node a tag : Nat) (p : Resp) (e : Env) (s s0 s1 : State) (x : Anchor), s0 = applyEnv e s → tag = p.tag.toNat →
    assoc tag s0.pool.ancTags = some a → anchorAt s0 a = some x → x.lender = node →
    s1 = setPool (fun q => { q with ancTags := q.ancTags.filter fun t => t.1 ≠ tag }) s0 →
    (p.status = .ok → ∀ (w : Waiting) (st : Status) (old : List Byte),
      (s1.vrb.waiting.find? (waitsTag tag)) = some w → w.why = .anchorWr [tag] st old → st ≠ .nodeLost →
      exec (.anchorResponse node p e) s = .next (revsAdvance (finishMem w { mkResp s1 w.req (worse st .ok) with
        r0 := w64 (if w.op = 4 && worse st .ok = .ok then ofLe old else 0) } (unwait w s1)))) ∧
    (p.status = .ok → ∀ (w : Waiting) (key : Nat) (got : List (Nat × List Byte)),
      (s1.vrb.waiting.find? (waitsTag tag)) = some w → w.why = .anchorRd [(tag, key)] got → w.op = 1 → w.dirty = false →
      exec (.anchorResponse node p e) s = .next (revsAdvance (memAttempt w (setAssoc key p.payload got) (unwait w s1)))) ∧
    (p.status ≠ .ok → exec (.anchorResponse node p e) s =
      .next (revsAdvance (landTag tag .nodeLost 0 p.payload (loseAnchor x.idx s1))))) ∧
  (∀ (node tag : Nat) (p resp : Resp) (e : Env) (s s0 s1 : State) (w : Waiting), s0 = applyEnv e s → tag = p.tag.toNat →
    (s0.pool.mirTags.any fun t => t == (tag, node)) = true →
    s1 = setPool (fun q => { q with mirTags := q.mirTags.filter fun t => t.1 ≠ tag }) s0 →
    (s1.vrb.waiting.find? (waitsTag tag)) = some w → w.why = .mirror [tag] resp → w.op = 2 ∨ w.op = 3 → w.outAt = none →
    exec (.mirrorPeerResponse node p e) s = .next (revsAdvance (finishMem w
      { resp with status := worse resp.status p.status } (unwait w s1))))

/-- SHAPER_REFILL puts the values that were set into effect, refills each bucket and lets go what waits; QOS_SHP_WRITE for an enabled
tenant that is not PARTITIONED sets its next values, clamped to the image's; PARTITION_BUDGET_REFILL empties every use of a budget
and tries what waits for one again; PARTITION_RESPONSE_RELEASE sends the responses whose time has come.
On a serving stack, DRAM_AGE_PROMOTION counts a promotion and raises the oldest queued write that has waited its time, DRAM_REFRESH
notes the bank, CHANNEL_RETRAINING of a channel not trained within 100 ms notes the training, clears the channel's failure or notes the first, and a second in a row fails the stack;
SELF_REFRESH_ENTRY of a stack unused for 50 us, no pass running and no engine busy, enters it with the write queue drained. -/
def Obligations.ServiceCompletes : Prop :=
  (∀ (t : Nat) (s s0 s1 : State), s0 = atTime t s →
    s1 = setQos (fun q => { q with shp := q.shp.map fun x => { x with now := x.next } }) s0 →
    exec (.shaperRefill t) s = .next (pumpAll (s1.qos.buckets.foldl refillBucket s1))) ∧
  (∀ (sess t tid : Nat) (v : BitVec 64) (s s0 : State) (x : Sess) (y : TenantCfg), served sess t s = some (x, s0) →
    mayRun x .operator = true → tid = (selsOf s0 (.mgmt sess)).qosTid % 4096 → tenantOf s0 tid = some y → y.enabled = true →
    isPart s0 tid = false → exec (.qosShpWrite sess v t) s = .next (mgmtReply sess .ok [] (setQos (fun q => { q with
      shp := q.shp.filter (fun z => z.tid ≠ tid) ++
        [{ tid := tid, now := shpOf s0 tid, next := shpClamped (imgShp s0 tid) v.toNat }] }) s0))) ∧
  (∀ (t : Nat) (s : State), exec (.partitionBudgetRefill t) s = .next (retryBudget (setQos (fun q => { q with
    parts := q.parts.map fun p => { p with budget := [] } }) (atTime t s)))) ∧
  (∀ (t : Nat) (s s0 : State), s0 = atTime t s → exec (.partitionResponseRelease t) s =
    .next ((s0.qos.held.filter fun h => decide (h.due ≤ s0.now)).foldl (fun s h => sendQ h.node false false h.q s)
      (setQos (fun q => { q with held := q.held.filter fun h => !decide (h.due ≤ s0.now) }) s0))) ∧
  (∀ (stk : Fin 32) (t : Nat) (s s0 : State), s0 = atTime t s → stackServes s0 stk.val = true →
    exec (.dramAgePromotion stk t) s = .next (modStack stk.val (fun x =>
      promote s0.now s0.img.ageNs { x with promoted := satAdd 32 x.promoted 1 }) s0) ∧
    (∀ (pch : Fin 64) (bank : Nat), exec (.dramRefresh stk pch bank t) s =
      .next (modStack stk.val (fun x => { x with refreshed := setAssoc pch.val (bank % 64) x.refreshed }) s0)) ∧
    ((stackAt s0 stk.val).selfRef = false → (stackAt s0 stk.val).lastUse + 50000 ≤ s0.now → enginesBusy s0 stk.val = false →
      passRuns s0 = false → exec (.selfRefreshEntry stk t) s = .next (modStack stk.val (fun x => { drained x with
        selfRef := true, srEntries := satAdd 16 x.srEntries 1 }) s0))) ∧
  (∀ (stk ch : Fin 32) (e : Env) (s s0 s1 : State), s0 = applyEnv e s → stackServes s0 stk.val = true →
    assoc ch.val (stackAt s0 stk.val).lastTrain = none ∨
      (∃ u, assoc ch.val (stackAt s0 stk.val).lastTrain = some u ∧ u + 100000000 ≤ s0.now) →
    s1 = modStack stk.val (fun x => { x with trainCh := some ch.val, lastTrain := setAssoc ch.val s0.now x.lastTrain }) s0 →
    exec (.channelRetraining stk ch true e) s =
      .next (modStack stk.val (fun x => { x with chFails := x.chFails.filter fun y => y.1 ≠ ch.val }) s1) ∧
    (assocD 0 ch.val (stackAt s0 stk.val).chFails = 0 → exec (.channelRetraining stk ch false e) s =
      .next (modStack stk.val (fun x => { x with chFails := setAssoc ch.val 1 x.chFails }) s1)) ∧
    (1 ≤ assocD 0 ch.val (stackAt s0 stk.val).chFails →
      exec (.channelRetraining stk ch false e) s = .next (stackFail stk.val 4 s1)))

/-- MEM_RETIRE by an operator of a page below the spares of a serving stack, whose copy does not run, with a spare left takes the next
spare and begins the copy, answered OK; with all 256 used it sets the flag and answers REFUSED.
PAGE_REMAP_DONE of a page whose copy runs reads and rewrites its lines that hold errors and makes the entry active, where the stack
has not failed.
TRV_START on the TRV registers of a page, with fewer than eight passes running and none on it, begins a pass over the range
rounded to lines: management's over at most the end of the stack for each stack of its mask, a tenant's where its range passes the
checks; where it does not, the check's status is the result.
TRAVERSE_DONE of a running pass reads its lines and ends it, with result 3 where a stack of it has been lost, else 0; TRV_ABORT ends
it with result 1, having read a number of lines that the specification leaves open (a free value). -/
def Obligations.RetirementAndScrubComplete : Prop :=
  ((∀ (sess k page : Nat) (pa : BitVec 64) (e : Env) (s s0 : State) (x : Sess), served sess e.t (applyEnv e s) = some (x, s0) →
    mayRun x .operator = true → k = pa.toNat / 2 ^ 36 → page = pa.toNat / 2 ^ 16 % 2 ^ 20 → stackServes s0 k = true →
    page < spareBase → ((stackAt s0 k).remapping.any fun r => r.1 = page) = false →
    ((stackAt s0 k).spareUsed < 256 → exec (.memRetire sess pa e) s = .next (mgmtReply sess .ok [] (modStack k (fun y => { y with
      spareUsed := y.spareUsed + 1, remapping := y.remapping ++ [(page, spareBase + y.spareUsed, 0)] }) s0))) ∧
    (256 ≤ (stackAt s0 k).spareUsed → exec (.memRetire sess pa e) s =
      .next (mgmtReply sess .refused [] (modStack k (fun y => { y with
        flags := y.flags ||| 8#5, flagsAt := setNow s0.now y.flagsAt 8#5 }) s0)))) ∧
  (∀ (stk : Fin 32) (page spare n first : Nat) (e : Env) (s s0 s1 : State), s0 = applyEnv e s →
    ((stackAt s0 stk.val).remapping.find? fun r => r.1 = page) = some (page, spare, n) →
    first = (stk.val * 2 ^ 36 + page * 2 ^ 16) / 128 →
    s1 = ((s0.ecc.errs.map Prod.fst).filter fun l => decide (first ≤ l) && decide (l < first + 512)).foldl remapLine s0 →
    exec (.pageRemapDone stk page e) s = .next (modStack stk.val (fun x => if x.st = .failed then x else { x with
      remapping := x.remapping.filter fun r => r.1 ≠ page, remap := setAssoc page spare x.remap }) s1))) ∧
  ((∀ (q : Requester) (e : Env) (s s0 : State) (wrap : State → State),
    (∃ sess x, q = .mgmt sess ∧ served sess e.t (applyEnv e s) = some (x, s0) ∧ mayRun x .operator = true ∧
      wrap = mgmtReply sess .ok []) ∨
      (∃ tid, q = .page tid ∧ reachable (applyEnv e s) = true ∧ s0 = atTime e.t (applyEnv e s) ∧ wrap = id) →
    (∀ (p : TrvPage) (addr len : Nat), p = trvPage s0 (trvPageOf q) → p.st ≠ .running →
      countIf (fun q => q.st == .running) s0.trv.pages < 8 → addr = p.addr.toNat / 128 * 128 → len = ceilDiv p.len 128 * 128 →
      (trvPageOf q = 0xFFFF → exec (.trvStart q e) s = .next (wrap (trvBegin 0xFFFF addr (min len (2 ^ 36 - addr))
        (min len (2 ^ 36 - addr) / 128 * (passStacks s0 { p with pTgt := p.tgt }).length) s0))) ∧
      (trvPageOf q ≠ 0xFFFF → trvCheck s0 (trvPageOf q) (e.pick % 2 ^ 20) (p.tgt.toNat % 2 ^ 24) addr len = .ok →
        exec (.trvStart q e) s = .next (wrap (trvBegin (trvPageOf q) addr len (len / 128) s0))) ∧
      (∀ st, trvPageOf q ≠ 0xFFFF → trvCheck s0 (trvPageOf q) (e.pick % 2 ^ 20) (p.tgt.toNat % 2 ^ 24) addr len = st → st ≠ .ok →
        exec (.trvStart q e) s = .next (wrap (trvRefuse (trvPageOf q) st s0)))) ∧
    (∀ p : TrvPage, p = trvPage s0 (trvPageOf q) → p.st = .running →
      exec (.trvAbort q e) s = .next (wrap (trvEnd (trvPageOf q) 1 (passRead (trvPageOf q)
        (Config.freeNat (takeFree 1 s0).2 % (p.pLen / 128 + 1)) (takeFree 1 s0).1))))) ∧
  (∀ (q : Requester) (e : Env) (s s0 : State) (p : TrvPage), s0 = applyEnv e s → p = trvPage s0 (trvPageOf q) → p.st = .running →
    (p.stackLost = true → exec (.traverseDone q e) s =
      .next (trvEnd (trvPageOf q) 3 (passRead (trvPageOf q) (p.pLen / 128) s0))) ∧
    (p.tid = 0xFFFF → p.stackLost = false → exec (.traverseDone q e) s =
      .next (trvEnd (trvPageOf q) 0 (passRead (trvPageOf q) (p.pLen / 128) s0))) ∧
    (∀ x g o, p.tid ≠ 0xFFFF → p.stackLost = false → passRegion s0 p = some (x, g, o) → (g.exts.any fun y => y.lost) = false →
      exec (.traverseDone q e) s = .next (trvEnd (trvPageOf q) 0 (passRead (trvPageOf q) (p.pLen / 128) s0)))))

/-- Of a session that may write, each operation of ECC_INJ_CTL keeps the clamped fields and answers OK: ARM of a free unit with none
armed arms it; DISARM zeroes and frees the armed unit; on a line of the armed unit WRITE_RAW stores data and check symbols as given,
WRITE_ENC stores the data with its check symbols and gives them back, READ_RAW reads the stored symbols without a decode, READ_DEC
reads as a demand read and reports the outcome; elsewhere their result is DENIED; FLIP_CRIT flips bits of one copy of a word.
A read of ECC_STK_CNT of the selected stack, ECC_SRAM or ECC_CRIT on an open session answers OK with its counts in their fields and
then clears them; the names of the last event stay.
With the bucket rule in force, CE_BUCKET_LEAK takes LEAK_PER_S thousandths of an event off every bucket, not below 0.
Of a session that may write, ECC_LOG_SEL_WRITE selects and latches an entry of the CE log, ECC_LOG_CLR empties the log. -/
def Obligations.InjectionCompletes : Prop :=
  (∀ (sess : Nat) (v : BitVec 64) (e : Env) (s s0 s1 : State) (x : Sess), served sess e.t (applyEnv e s) = some (x, s0) →
    mayRun x .operator = true → s1 = setEcc (fun e => { e with injCtl := injBack s0 v.toNat }) s0 →
    (s1.ecc.injArmed = none → unitIsFree s1 (injStack s1 v.toNat) (injUnit v.toNat) = true →
      exec (.eccInjArm sess v e) s = .next (mgmtReply sess .ok [] (setEcc (fun e => { e with injResult := Status.ok.code })
        (setEcc (fun e => { e with injArmed := some (injStack s1 v.toNat, injUnit v.toNat) }) s1)))) ∧
    (∀ k u, s1.ecc.injArmed = some (k, u) → exec (.eccInjDisarm sess v e) s =
      .next (mgmtReply sess .ok [] (setEcc (fun e => { e with injResult := Status.ok.code })
        (setEcc (fun e => { e with injArmed := none }) (zeroDram (k * 2 ^ 36 + u * unit2M) unit2M s1))))) ∧
    (∀ (i : Instr) (f : Nat → State → State), (i = .eccInjWriteRaw sess v e ∧ f = injWriteRaw) ∨
        (i = .eccInjWriteEnc sess v e ∧ f = injWriteEnc) ∨ (i = .eccInjReadRaw sess v e ∧ f = injReadRaw) ∨
        (i = .eccInjReadDec sess v e ∧ f = injReadDec) →
      (armedAt s1 (injPa s1 v.toNat) = true → exec i s =
        .next (mgmtReply sess .ok [] (setEcc (fun e => { e with injResult := Status.ok.code }) (f (injPa s1 v.toNat) s1)))) ∧
      (armedAt s1 (injPa s1 v.toNat) = false → exec i s =
        .next (mgmtReply sess .ok [] (setEcc (fun e => { e with injResult := Status.denied.code }) s1)))) ∧
    exec (.eccInjFlipCrit sess v e) s = .next (mgmtReply sess .ok [] (setEcc (fun e => { e with injResult := Status.ok.code })
      (critFlip (injIdx v.toNat) (injCopy v.toNat) (nth 0 s1.ecc.injData 0) s1)))) ∧
  (∀ (sess t0 e : Nat) (s s0 : State) (x : Sess) (ok : List (Nat × Nat × Nat) → State → State), served sess t0 s = some (x, s0) →
    e = (selsOf s0 (.mgmt sess)).eccStk % 32 → ok = (fun l u => mgmtReply sess .ok [w64 (pk l)] u) →
    (exec (.eccStkCntRead sess t0) s = .next (ok
      [(63, 48, (stackAt s0 e).ovf), (47, 32, (stackAt s0 e).ueLines), (31, 0, (stackAt s0 e).ceLines)]
      (modStack e (fun y => { y with ovf := 0, ueLines := 0, ceLines := 0 }) s0))) ∧
    (exec (.eccSramRead sess t0) s = .next (ok
      [(55, 48, s0.ecc.sramLast), (47, 32, s0.ecc.sramUe), (31, 0, s0.ecc.sramCe)]
      (setEcc (fun y => { y with sramUe := 0, sramCe := 0 }) s0))) ∧
    (exec (.eccCritRead sess t0) s = .next (ok
      [(55, 48, s0.ecc.lastIdx), (47, 32, s0.ecc.splits), (31, 0, s0.ecc.repairs)]
      (setEcc (fun y => { y with splits := 0, repairs := 0 }) s0)))) ∧
  (∀ (t : Nat) (s s0 : State), s0 = atTime t s → s0.img.ceBucket = true →
    exec (.ceBucketLeak t) s = .next (setEcc (fun e => { e with sramBucket := e.sramBucket - s0.img.leakPerS })
      { s0 with stks := s0.stks.map fun x => { x with bucket := x.bucket - s0.img.leakPerS } })) ∧
  (∀ (sess t : Nat) (v : BitVec 64) (s s0 : State) (x : Sess), served sess t s = some (x, s0) → mayRun x .operator = true →
    exec (.eccLogSelWrite sess v t) s = .next (mgmtReply sess .ok [] (setSels (.mgmt sess) (fun y => { y with
      eccLog := v.toNat % 64, logE0 := logWord0 s0.ecc.log[v.toNat % 64]?, logE1 := logWord1 s0.ecc.log[v.toNat % 64]? }) s0)) ∧
    exec (.eccLogClr sess t) s = .next (mgmtReply sess .ok [] (setEcc (fun e => { e with log := [] }) s0)))

/-- Of an operator's session: a SYSKEY_PROGRAM that a usable slot 0 to 3 signs under the valid challenge, for a slot 1 to 11 not
programmed, programs the slot, usable from the next module reset; a SYSKEY_REVOKE so signed that leaves an image slot usable
revokes the slot and ends the sessions under a fabric root; other than these are DENIED and counted.
ONX_SYSKEY_NONCE_READ draws a challenge and makes it the valid one; the first failure of the DRBG is recorded with an alert, a later
one only noted; BLOCK and UNBLOCK set and end a block of a node. -/
def Obligations.RootOfTrustCompletes : Prop :=
  ∀ (sess t : Nat) (s s0 : State) (x : Sess), served sess t s = some (x, s0) → mayRun x .operator = true →
    (∀ (req key : List Byte) (slot : Nat), slot = sysSlot req → key = slice req 2 97 →
      (sysSignerOk s0 req = true → sysSigned s0 req key (slice req 99 96) = true → sysFree s0 slot = true →
        exec (.syskeyProgram sess req t) s = .next (mgmtReply sess .ok [] { s0 with fuse := { s0.fuse with
          prog := s0.fuse.prog ||| 1#16 <<< slot, pending := s0.fuse.pending ||| 1#16 <<< slot
          keys := setAssoc slot key s0.fuse.keys } })) ∧
      (sysSignerOk s0 req = false ∨ sysSigned s0 req key (slice req 99 96) = false ∨ sysFree s0 slot = false →
        exec (.syskeyProgram sess req t) s =
          .next (mgmtReply sess .denied [] (setOnx (fun o => { o with sysDenied := satAdd 16 o.sysDenied 1 }) s0)))) ∧
    (∀ (req : List Byte) (slot : Nat) (s1 : State), slot = sysSlot req → sysSignerOk s0 req = true →
      sysSigned s0 req [] (slice req 2 96) = true → slot < 16 → imageKeyLeft s0 slot = true →
      s1 = { s0 with fuse := { s0.fuse with revoked := s0.fuse.revoked ||| 1#16 <<< slot } } →
      exec (.syskeyRevoke sess req t) s = .next (mgmtReply sess .ok []
        ((if 8 ≤ slot && slot ≤ 11 then s1.sec.peers.filter fun p => p.st = .active && p.root = slot else []).foldl
          (fun s p => endSession p.node s) s1))) ∧
    (∀ (s1 : State) (b : List Byte), draw 8 s0 = (s1, b) → exec (.onxSyskeyNonceRead sess t) s =
      .next (mgmtReply sess .ok [w64 (ofLe b)] (setOnx (fun o => { o with nonce := some (w64 (ofLe b)) }) s1))) ∧
    (∀ node, exec (.block sess node t) s = .next (mgmtReply sess .ok [] (blockPeer (node % 2 ^ 20) .blockedMgmt s0)) ∧
      exec (.unblock sess node t) s = .next (mgmtReply sess .ok [] (setSec (fun c => { c with
        peers := (mapIf (fun p => p.node = node % 2 ^ 20) (fun p => { p with
          fails := 0, st := if p.st = .blockedAuth || p.st = .blockedMgmt then .none else p.st }) c.peers).filter keepSec }) s0))) ∧
    (∀ (u : Nat) (z z0 : State), z0 = setOnx (fun o => { o with drbgFail := true, drbgEver := true }) (atTime u z) →
      exec (.drbgFail u) z = .next (if (atTime u z).onx.drbgEver then z0 else cairnAlert 0x0D 2 0 0 0 z0))

/-- An SPDM request that a packet carries, taken while no earlier one of its node waits, is answered with the message its row makes
of it, and a request of a management session with the same in the response of the session; SPDM_CARRY serves any of them by the
code of the message; while an earlier one waits the answer is Busy.
Where a packet's SPDM request is served (no earlier one of its node waiting): GET_VERSION answers SPDM 1.3; KEY_EXCHANGE after the
negotiation, by a node without a session or a handshake, with room and a sound DRBG, puts it in its handshake and answers with
drawn values; FINISH of that handshake whose check holds under a usable fabric root makes the session ACTIVE and goes out below
the switch point; KEY_UPDATE of a session counts the key generation; END_SESSION of a session is answered. -/
def Obligations.SpdmCompletes : Prop :=
  ((∀ (m q : SpdmIn) (i : Instr) (h : Bool → State → State × List Byte × Bool) (s : State),
    (i = .getVersion m ∧ q = asCode m 0x84 ∧ h = plainAnswer spdmVersion q) ∨
      (i = .getCapabilities m ∧ q = asCode m 0xE1 ∧ h = plainAnswer spdmCaps q) ∨
      (i = .negotiateAlgorithms m ∧ q = asCode m 0xE3 ∧ h = plainAnswer spdmAlgs q) ∨
      (i = .getDigests m ∧ q = asCode m 0x81 ∧ h = plainAnswer spdmDigests q) ∨
      (i = .getCertificate m ∧ q = asCode m 0x82 ∧ h = plainAnswer spdmCert q) ∨
      (i = .challenge m ∧ q = asCode m 0x83 ∧ h = plainAnswer spdmChallenge q) ∨
      (i = .getMeasurements m ∧ q = asCode m 0xE0 ∧ h = plainAnswer (fun m s => spdmLimit m (spdmMeas m s)) q) ∨
      (i = .keyExchange m ∧ q = asCode m 0xE4 ∧ h = fun prov s => plainAnswer (fun m s => spdmKeyEx m prov s) q prov s) ∨
      (i = .finish m ∧ q = asCode m 0xE5 ∧ h = spdmFinish q) ∨
      (i = .keyUpdate m ∧ q = asCode m 0xE9 ∧ h = plainAnswer spdmKeyUpdate q) ∨
      (i = .endSession m ∧ q = asCode m 0xEC ∧ h = plainAnswer spdmEnd q) ∨
      (i = .chunkSend m ∧ q = asCode m 0x85 ∧ h = spdmChunkSend q) ∨
      (i = .chunkGet m ∧ q = asCode m 0x86 ∧ h = plainAnswer spdmChunkGet q) →
    (∀ (w : Waiting) (s0 : State), m.sess = none →
      taken { q.req with opcode := 0x7F, subop := 1 } { t := m.t } s = some (w, s0) → ctlFits w.req = true →
      (carryBusy s0 w = false → exec i s = .next (spdmReply w (h w.prov s0))) ∧
      (carryBusy s0 w = true → exec i s = .next (spdmReply w (s0, spdmError errBusy 0, false)))) ∧
    (∀ (k : Nat) (x : Sess) (s0 s1 : State) (msg : List Byte) (b : Bool), m.sess = some k → served k m.t s = some (x, s0) →
      mayRun x .read = true → h false s0 = (s1, msg, b) →
      exec i s = .next (mgmtReply k .ok (words64 (ceilDiv msg.length 8) msg) s1))) ∧
  (∀ (r : Req) (e : Env) (s s0 : State) (w : Waiting),
    taken { r with opcode := 0x7F, subop := 1 } { t := e.t } (applyAll e s) = some (w, s0) → ctlFits w.req = true →
    carryBusy s0 w = false →
    exec (.spdmCarry r e) s = .next (spdmReply w (spdmAny (carried r w.prov s0) w.prov s0)))) ∧
  (∀ (m q : SpdmIn) (s s0 : State) (w : Waiting) (c : Nat), m.sess = none → q = asCode m c →
    taken { q.req with opcode := 0x7F, subop := 1 } { t := m.t } s = some (w, s0) → ctlFits w.req = true →
    carryBusy s0 w = false →
    (c = 0x84 → exec (.getVersion m) s = .next (spdmReply w
      (modSec q.req.src (fun p => { p with negotiated := 1 }) s0, [0x10, 0x04, 0, 0, 0, 1] ++ le 2 0x1300, false))) ∧
    (∀ (p : SecPeer) (s1 s2 s3 s4 : State) (r f : List Byte), c = 0xE4 → secOf s0 q.req.src = some p → p.st ≠ .active →
      p.st ≠ .handshake → p.negotiated = 3 → s0.onx.drbgFail = false → makeSessionRoom s0 = (s1, true) →
      s2 = modSec q.req.src (fun p => if p.st = .active then { p with hsInc := some q.inc, cert := [], last := s1.now }
        else { p with st := .handshake, requester := false, cert := [], inc := q.inc, last := s1.now }) s1 →
      draw 80 s2 = (s3, r) → freeBytes 242 s3 = (s4, f) →
      exec (.keyExchange m) s = .next (spdmReply w (s4, spdmMsg 0x64 0 0 (f.take 2 ++ le 1 1 ++ le 1 0 ++ r.take 32 ++
        (f.drop 2).take 96 ++ measSummary s4 ++ le 2 0 ++ f.drop 98), false))) ∧
    (∀ (p : SecPeer) (root : Nat), c = 0xE5 → secOf s0 q.req.src = some p → p.st = .handshake → p.requester = false →
      q.ok = true → q.root = some root → 8 ≤ root → root ≤ 11 → keyUsable s0 root = true → w.prov = false →
      exec (.finish m) s = .next (spdmReply w
        (openedSession q.req.src false root (p.hsInc.getD p.inc) s0, spdmMsg 0x65 0 0 [], true))) ∧
    (∀ op, c = 0xE9 → hasSession s0 q.req.src = true → op = field q.req.payload 2 1 → op = 1 ∨ op = 2 →
      exec (.keyUpdate m) s = .next (spdmReply w (modSec q.req.src (fun p => { p with
        keyGen := wrapAdd 16 p.keyGen 1, rxK := [op1 q.req, op0 q.req]
        txK := if op = 2 then p.txN else p.txK, last := s0.now }) s0, spdmMsg 0x69 op (field q.req.payload 3 1) [], false))) ∧
    (c = 0xEC → hasSession s0 q.req.src = true →
      exec (.endSession m) s = .next (spdmReply w (s0, spdmMsg 0x6C 0 0 [], false))))

/-- While the processors run: CONTROL_CYCLE ends the cycle, its delta going to a processor in SECOND or RESYNC, and drops provisional
states that are due; DELTA_ACK of the awaited cycle within 5 us with the right CHK ends the wait, and a SECOND whose CHK differs
fails with 0x06; without one by 5 us the other processor fails with 0x07, and 20 us after the last delta Lead fails with 0x05, or
the SECOND it still waits for with 0x07; WATCHDOG fails its processor with 0x04; RESYNC_DONE takes RESYNC to SECOND, recorded.
Of a session that may write, FORCE_SWITCH with both processors healthy makes SECOND Lead; CRN_POP with the SEQ of the oldest record
takes it off.
With room again, CAIRN_MERGE_RELEASE queues the merged total and zeroes the counts; CAIRN_CRIT_FULL_ALERT alerts at most once a
second while critical records are merged. -/
def Obligations.ControlCompletes : Prop :=
  (∀ (t : Nat) (s s0 : State), s0 = atTime t s → cpsRun s0 = true →
    (copies s0 = true → ∃ s1, exec (.controlCycle t) s = .next (dropProvisional s1) ∧ s1 = controlCycle s0 ∧
      s1.cp.cycle = s0.cp.cycle + 1 ∧ s1.cp.awaiting = some (s0.cp.cycle + 1)) ∧
    (∀ (cycle : BitVec 32) (chk : BitVec 64), s0.cp.awaiting = some cycle → s0.now ≤ s0.cp.deltaAt + 5000 →
      ((cpAt s0 (otherCp s0)).st ≠ .second ∨ chk = s0.cp.chk → exec (.deltaAck cycle chk t) s =
        .next (setCp (fun c => { c with awaiting := none, lastCycle := cycle, applied := c.ctlSeq }) s0)) ∧
      ((cpAt s0 (otherCp s0)).st = .second → chk ≠ s0.cp.chk → exec (.deltaAck cycle chk t) s =
        .next (failCp (otherCp s0) 0x06 (setCp (fun c => { c with
          awaiting := none, lastCycle := cycle, mismatch := satAdd 16 c.mismatch 1 }) s0)))) ∧
    (∀ cycle, s0.cp.awaiting = some cycle → s0.cp.deltaAt + 5000 ≤ s0.now →
      exec (.secondHang t) s = .next (failCp (otherCp s0) 0x07 s0)) ∧
    ((cpAt s0 (otherCp s0)).st = .second → s0.cp.deltaAt + 20000 ≤ s0.now →
      (s0.cp.awaiting = none → exec (.noDelta t) s = .next (failCp s0.cp.lead.val 0x05 s0)) ∧
      (∀ cycle, s0.cp.awaiting = some cycle → exec (.noDelta t) s = .next (failCp (otherCp s0) 0x07 s0))) ∧
    (∀ cp : Fin 2, exec (.watchdog cp t) s = .next (failCp cp.val 0x04 s0)) ∧
    ((cpAt s0 (otherCp s0)).st = .resync → exec (.resyncDone t) s =
      .next (cpRec (otherCp s0) 0x00 (modCp (otherCp s0) (fun p => { p with st := .second }) s0)).1)) ∧
  (∀ (sess t : Nat) (s s0 : State) (x : Sess), served sess t s = some (x, s0) → mayRun x .operator = true →
    (cpsRun s0 = true → (cpAt s0 s0.cp.lead.val).st = .lead → (cpAt s0 (otherCp s0)).st = .second →
      exec (.forceSwitch sess t) s = .next (mgmtReply sess .ok [] (cpRec s0.cp.lead.val 0x0A (switchTo (notCp s0.cp.lead.val) 0x0A
        (modCp s0.cp.lead.val (fun p => { p with st := .second }) s0))).1)) ∧
    (∀ r l, s0.crn.q = r :: l →
      exec (.crnPop sess r.seq t) s = .next (mgmtReply sess .ok [] (setCrn (fun c => { c with q := l }) s0)))) ∧
  (∀ (t : Nat) (s s0 : State), s0 = atTime t s → s0.crn.critFull = true →
    (s0.crn.q.length < 1024 → exec (.cairnMergeRelease t) s = .next (setCrn (fun c => { c with
      merge := List.replicate 16 0, critFull := false })
        (queueRec { mkRec 0x0F 1 (mergedTotal s0) 0 0 s0 with count := mergedTotal s0 } s0).1)) ∧
    (s0.crn.lastFullAlert = none ∨ (∃ u, s0.crn.lastFullAlert = some u ∧ u + 1000000000 ≤ s0.now) →
      exec (.cairnCritFullAlert t) s = .next (setCrn (fun c => { c with lastFullAlert := some s0.now })
        (alertAll { mkRec 0x0F 1 (mergedTotal s0) 0 0 s0 with count := mergedTotal s0 } s0))))

/-- BELAY_SAMPLE while Belay runs takes a sample of every channel, acts on the levels reached, sets the alert pin, and restarts after an
orderly shutdown where that is permitted.
L_POWER_UPDATE, from the fifth sample of the module power on, raises L_power by one above the cap, at most to 6, and lowers it by one at the
tenth update in a row below nine tenths of it; L_THERMAL_UPDATE raises L_thermal by one while a channel is at CAP or beyond, at most
to 6, else lowers it by one; a change of the greater of the two is recorded.
While the core is held and Belay runs, a status request is answered with the 256 bytes of the status reply.
SWAP of a session that may write makes the STANDBY bank ACTIVE and the ACTIVE one STANDBY, and counts it. -/
def Obligations.BelayCompletes : Prop :=
  (∀ (b : BelayIn) (s s0 s1 s2 : State) (up : List (Nat × BelLevel)), s0 = atTime b.t s → s0.isl.belayOn = true →
    s1 = (match b.raw[44]? with | some v => setPwr (fun p => { p with busMv := v.toNat }) s0 | none => s0) →
    sampleAll b.raw s1 = (s2, up) → exec (.belaySample b) s = .next (permitRestart (alertPin (belayActs up s2)))) ∧
  (∀ (t : Nat) (s s0 : State), s0 = atTime t s → s0.isl.belayOn = true →
    (decides s0 76 (chanAt s0 76) = true →
      ((s0.bel.capW : Int) < (chanAt s0 76).filt → exec (.lPowerUpdate t) s = .next (noteL (throttle s0)
        (setBel (fun b => { b with lPower := min 6 (b.lPower + 1), lowMs := 0 }) s0))) ∧
      (10 * (chanAt s0 76).filt < 9 * (s0.bel.capW : Int) → (chanAt s0 76).filt ≤ (s0.bel.capW : Int) → 9 ≤ s0.bel.lowMs →
        exec (.lPowerUpdate t) s = .next (noteL (throttle s0)
          (setBel (fun b => { b with lPower := b.lPower - 1, lowMs := 0 }) s0)))) ∧
    ((∃ c ∈ s0.bel.chans, 2 ≤ lvl c.level) → exec (.lThermalUpdate t) s = .next (noteL (throttle s0)
      (setBel (fun b => { b with lThermal := min 6 (b.lThermal + 1) }) s0))) ∧
    ((∀ c ∈ s0.bel.chans, lvl c.level < 2) → exec (.lThermalUpdate t) s = .next (noteL (throttle s0)
      (setBel (fun b => { b with lThermal := b.lThermal - 1 }) s0))) ∧
    (∀ (port : Fin 2) (req : List Byte), coreOn s0 = false →
      exec (.belayStatusRequest port req t) s = .next (emit (.udp port.val (statusReply s0)) s0))) ∧
  (∀ (sess t : Nat) (s s0 : State) (x : Sess), served sess t s = some (x, s0) → mayRun x .operator = true →
    (s0.pwr.laserA = .active → s0.pwr.laserB = .standby → exec (.swap sess t) s = .next (mgmtReply sess .ok []
      (setPwr (fun p => { p with laserA := .standby, laserB := .active, laserSw := satAdd 16 p.laserSw 1 }) s0))) ∧
    (s0.pwr.laserA = .standby → s0.pwr.laserB = .active → exec (.swap sess t) s = .next (mgmtReply sess .ok []
      (setPwr (fun p => { p with laserA := .active, laserB := .standby, laserSw := satAdd 16 p.laserSw 1 }) s0))))

/-- A STORE, a STORE_NOTIFY or an ATOMIC that is taken and whose access check answers a range of a region leaves every byte of pool memory
outside the lines where the pieces of that range land, and outside what the copy of an extent on its way may change, as it was, and,
where these lines have no error pattern, every byte but those of the pieces and of such a copy; one that its access check refuses
changes no byte. -/
def Obligations.MemoryVerbsWriteTheirOperand : Prop :=
  ∀ (r q : Req) (e : Env) (s s0 t : State) (w : Waiting) (i : Instr) (len : Nat) (rt : Nat),
    Memory.wf s.mem = true → taken q e (applySram e (atTime e.t s)) = some (w, s0) → reqCtl w.req = false →
    (i = .store r e ∧ q = { r with opcode := 0x02 } ∧ rt = rightW ∧ len = clampTo 1 (64 * reqSlots w.req) (reqLen w.req)) ∨
      (i = .storeNotify r e ∧ q = { r with opcode := 0x03 } ∧ rt = rightW
        ∧ len = clampTo 1 (64 * reqSlots w.req) (reqLen w.req)) ∨
      ((i = .atomicFetch r e ∧ q = { r with opcode := 0x04, subop := fetchSubop r.subop }
          ∨ i = .atomicAdd r e ∧ q = atomicReq 1 r ∨ i = .atomicSwap r e ∧ q = atomicReq 2 r
          ∨ i = .atomicCas r e ∧ q = atomicReq 3 r ∨ i = .atomicMin r e ∧ q = atomicReq 4 r
          ∨ i = .atomicMax r e ∧ q = atomicReq 5 r) ∧ rt = rightA ∧ len = atomicWidth w.req) →
    exec i s = .next t →
    (∀ (x : Window) (g : Region) (o : Nat) (ps : List Part),
      checkAccess s0 w.ord (reqWin w.req) (reqTid w.req) w.req.src (reqVa w.req) len rt = .ok x g o →
      ps = pieces (g.mode = .coherent) (partsOf g o len) ++ pieces false (partsOf g o len) →
      (∀ a, (∀ p ∈ ps, ¬ inCopy s0 g.idx p a ∧ ∀ pa ∈ landings s0 g.idx p, ¬ inLines pa p.len a) →
        memRead t.mem a = memRead s.mem a) ∧
      ((∀ p ∈ ps, ∀ pa ∈ landings s0 g.idx p, soundAt s0 pa p.len) →
        ∀ a, (∀ p ∈ ps, ¬ inCopy s0 g.idx p a ∧ ∀ pa ∈ landings s0 g.idx p, ¬ inBytes pa p.len a) →
          memRead t.mem a = memRead s.mem a)) ∧
    (∀ st, checkAccess s0 w.ord (reqWin w.req) (reqTid w.req) w.req.src (reqVa w.req) len rt = .bad st → t.mem = s.mem)

/-- Writing a whole aligned line, whatever error pattern the line had, answers OK, leaves it without one and it then reads as the bytes
written.
Zeroing whole lines leaves them without an error pattern and reading as zeros.
Writing a part of a line that decodes as poison answers POISONED, and neither the line's bytes nor its pattern change. -/
def Obligations.WholeLinesClearPoison : Prop :=
  (∀ (pa : Nat) (d : List Byte) (s : State), Memory.wf s.mem = true → pa % 128 = 0 → d.length = 128 →
    (writeLine pa d s).2 = .ok ∧ linePat (writeLine pa d s).1 (pa / 128) = [] ∧
    ∀ src, (readLine src pa (writeLine pa d s).1).2 = .data d 0) ∧
  (∀ (pa len a : Nat) (s : State), pa % 128 = 0 → len % 128 = 0 → pa ≤ a → a < pa + len →
    memRead (zeroDram pa len s).mem a = 0 ∧ linePat (zeroDram pa len s) (a / 128) = []) ∧
  (∀ (pa : Nat) (d : List Byte) (s : State), ¬(d.length = 128 ∧ pa % 128 = 0) → linePat s (pa / 128) ≠ [] →
    decodeLine (linePat s (pa / 128)) (erasedLane s (paStack pa) (paPch pa)) = .poison →
    (writeLine pa d s).2 = .poisoned ∧ (writeLine pa d s).1.mem = s.mem ∧
    linePat (writeLine pa d s).1 (pa / 128) = linePat s (pa / 128))

/-- Bytes written at any address and of any length into lines without an error pattern: the write answers OK, a read of the same bytes
answers them, whatever its source, and every byte outside them stays as it was. -/
def Obligations.BytesReadBack : Prop :=
  ∀ (pa : Nat) (d : List Byte) (s : State), Memory.wf s.mem = true →
    soundAt s pa d.length →
    (writeDram pa d s).2 = .ok ∧
    (∀ src, (readDram src pa d.length (writeDram pa d s).1).2 = some d) ∧
    (∀ a, ¬ inBytes pa d.length a → memRead (writeDram pa d s).1.mem a = memRead s.mem a)

/-- While requests reach admission, and no delivered request waits for the command: a LOAD, a STORE, a REGION_CREATE, a BQ_CREATE,
a PLAN_LOAD, a KV_CREATE or an ANCHOR_LEND that fails step 3, 4, 5 or 6 is answered with that step's status and changes
neither pool memory nor a table of the pool, of the engines, of sets or of objects. -/
def Obligations.AdmissionRefuses : Prop :=
  ∀ (r q : Req) (e : Env) (s s0 : State) (i : Instr) (st : Status),
    (i = .load r e ∧ q = withCached false { r with opcode := 0x01 } ∧ s0 = applyEnv e (applySram e (atTime e.t s))) ∨
      (i = .store r e ∧ q = { r with opcode := 0x02 } ∧ s0 = applyEnv e (applySram e (atTime e.t s))) ∨
      (i = .regionCreate r e ∧ q = { r with opcode := 0x18 } ∧ s0 = applyEnv e s) ∨
      (i = .bqCreate r e ∧ q = { r with opcode := 0x10 } ∧ s0 = applyEnv e s) ∨
      (i = .planLoad r e ∧ q = { r with opcode := 0x50, subop := if r.subop = 1 then 0 else r.subop } ∧ s0 = applyEnv e s) ∨
      (i = .kvCreate r e ∧ q = { r with opcode := 0x40 } ∧ s0 = applyEnv e s) ∨
      (i = .anchorLend r e ∧ q = { r with opcode := 0x20 } ∧ s0 = applyEnv e s) →
    reachable s0 = true → inboxOf s0 q = none → admissionStatus s0 q = some st →
    exec i s = .next (refuse false q st s0) ∧
    (refuse false q st s0).mem = s0.mem ∧ (refuse false q st s0).pool = s0.pool ∧ (refuse false q st s0).fe = s0.fe ∧
    (refuse false q st s0).ws = s0.ws ∧ (refuse false q st s0).kv = s0.kv

/-- A taken cached LOAD or WRITEBACK whose VA is no multiple of 128, and a taken ATOMIC of any operation whose VA is no multiple of its
width, completes with DENIED, and no byte of pool memory changes.
(With CTL set the access to the register page is denied and counted, which R657 asks; without it the answer is all.) -/
def Obligations.MisalignedIsDenied : Prop :=
  ∀ (r q : Req) (e : Env) (s s1 s0 : State) (w : Waiting) (i : Instr), taken q e s1 = some (w, s0) →
    (i = .loadCached r e ∧ q = withCached true { r with opcode := 0x01 } ∧ s1 = applySram e (atTime e.t s)
        ∧ reqVa w.req % 128 ≠ 0) ∨
      (i = .writeback r e ∧ q = { r with opcode := 0x2B } ∧ s1 = s ∧ reqVa w.req % 128 ≠ 0) ∨
      ((i = .atomicFetch r e ∧ q = { r with opcode := 0x04, subop := fetchSubop r.subop }
          ∨ i = .atomicAdd r e ∧ q = atomicReq 1 r ∨ i = .atomicSwap r e ∧ q = atomicReq 2 r
          ∨ i = .atomicCas r e ∧ q = atomicReq 3 r ∨ i = .atomicMin r e ∧ q = atomicReq 4 r
          ∨ i = .atomicMax r e ∧ q = atomicReq 5 r) ∧ s1 = applySram e (atTime e.t s)
        ∧ reqVa w.req % (if w.req.subop.getLsbD 3 then 8 else 4) ≠ 0) →
    ∃ t, exec i s = .next t ∧ t.mem = s0.mem ∧
      t = (if reqCtl w.req then replySt w .denied { s0 with glb := { s0.glb with tntDenied := satAdd 16 s0.glb.tntDenied 1 } }
        else replySt w .denied s0)

/-- On a port that trains, verifies or is ACTIVE: a header slot of a class that has an open packet, or a payload slot of a class that has
none, leaves the port in RESET with reason PROTOCOL (code 0x07), and no later slot of the flit is taken. -/
def Obligations.SlotOutOfPlaceResetsTheLink : Prop :=
  ∀ (k : Fin 64) (tc : Nat) (hdr : Bool) (b : List Byte) (s : State), tc < 6 →
    (portAt s k).st = .train ∨ (portAt s k).st = .verify ∨ (portAt s k).st = .active →
    (hdr = true ∧ ∃ x ∈ (portAt s k).rxOpen, x.1 % 8 = tc) ∨ (hdr = false ∧ ∀ x ∈ (portAt s k).rxOpen, x.1 % 8 ≠ tc) →
    (slotIn k tc hdr b s).2 = false ∧ (portAt (slotIn k tc hdr b s).1 k).st = .reset ∧
    (portAt (slotIn k tc hdr b s).1 k).reason = 0x07

/-- Where a port trains or verifies, a failed attempt or verification counts one more consecutive failure, at most seven, puts the
port DOWN with the reason given, and the port does not leave DOWN until 10 ms times two to that count have passed.
Entry to ACTIVE zeroes the count. -/
def Obligations.PortsBackOff : Prop :=
  (∀ (k : Fin 64) (reason : Nat) (s : State), (portAt s k).st = .train ∨ (portAt s k).st = .verify →
    (portAt (trainFail k reason s) k).st = .down ∧ (portAt (trainFail k reason s) k).reason = reason ∧
    (portAt (trainFail k reason s) k).fails = min 7 ((portAt s k).fails + 1) ∧
    (portAt (trainFail k reason s) k).backoffUntil = s.now + 10000000 * 2 ^ min 7 ((portAt s k).fails + 1)) ∧
  (∀ (k : Fin 64) (s : State), s.now < (portAt s k).backoffUntil → mayTrain s k = false ∧ tryTrain k s = s) ∧
  (∀ (k : Fin 64) (s : State),
    (portAt (enterActive k s) k).st = .active ∧ (portAt (enterActive k s) k).fails = 0)

/-- Of a session that may run it, STACK_RETIRE of a stack that holds a run of a weight set's tiles or the frame of a KV page answers BUSY
and does nothing else, whatever the state of the stack. -/
def Obligations.StacksWithObjectsAreBusy : Prop :=
  ∀ (sess : Nat) (k : Fin 32) (e : Env) (s s0 : State) (x : Sess), served sess e.t (applyEnv e s) = some (x, s0) →
    mayRun x .operator = true →
    (∃ w ∈ s0.ws.sets, ∃ r ∈ w.runs, r.1 = k.val) ∨ (∃ o ∈ s0.kv.objs, ∃ p ∈ o.pages, p.frame.stack = k.val) →
    exec (.stackRetire sess k e) s = .next (mgmtReply sess .busy [] s0)

/-- A packet that has come in through the flits of its port, on a reachable module out of Bivouac, goes to the end-to-end layer where its
DST is the module's node ID, and to forwarding otherwise, in its class (TC2 where it has been demoted), whatever it carries. -/
def Obligations.PacketsAreLocalOrForwarded : Prop :=
  ∀ (port : Fin 64) (p q : Pkt) (a : InPkt) (i : Instr) (s s0 s1 s2 : State) (tc : Nat),
    (∃ e : Env, s0 = applyEvery e s ∧ (i = .e2e port p e ∨ i = .transitForward port p e)) ∨
      (∃ t : Nat, s0 = atTime t s ∧ (i = .stream port p t ∨ i = .e2eAck port p t)) →
    s0.boot.st ≠ .bivouac → s0.e2e.bivHeld = [] → reachable s0 = true → takeIngress port p.tc s0 = (s1, some a) →
    q = arrived a.bytes p → tc = (if a.demoted then 2 else a.tc) → s2 = critRead 0x19 s1 →
    exec i s = .next (if q.dst = s2.glb.node then localPacket (withClass tc q) s2 else transit port.val tc a.bytes q s2)

/-- A session reads word k of the oldest record in CRN_HEAD k, and 0 with no record queued.
Of a session that may write, CRN_POP with the SEQ of the oldest record takes it off and nothing else changes; with any other SEQ, or
with no record queued, it has no effect but its answer. -/
def Obligations.TheOldestRecordIsPopped : Prop :=
  (∀ (sess t : Nat) (k : Fin 8) (s s0 : State) (x : Sess), served sess t s = some (x, s0) →
    exec (.regRead sess (regAt 0x13 (0x40 + 8 * k)) 1 t) s = .next (mgmtReply sess .ok
      [match s0.crn.q with | r :: _ => w64 (field (cairnBytes r) (8 * k) 8) | [] => 0] s0)) ∧
  (∀ (sess t : Nat) (seq : BitVec 32) (s s0 : State) (x : Sess), served sess t s = some (x, s0) → mayRun x .operator = true →
    (∀ r l, s0.crn.q = r :: l → r.seq = seq →
      exec (.crnPop sess seq t) s = .next (mgmtReply sess .ok [] { s0 with crn := { s0.crn with q := l } })) ∧
    ((∀ r l, s0.crn.q = r :: l → r.seq ≠ seq) → exec (.crnPop sess seq t) s = .next (mgmtReply sess .ok [] s0)))

/-- Of a session that may write, a write of SEC_CMD with BLOCK and UNBLOCK set has no effect but its answer, and so has BLOCK of a node that
is blocked already, by management or for its failures.
A session that selects a node of which nothing is held, or only a state of no session, no failures and no block, reads 0 in
SEC_PEER_STATE. -/
def Obligations.BlocksOfANode : Prop :=
  (∀ (sess : Nat) (v : BitVec 64) (e : Env) (s s0 : State) (x : Sess), served sess e.t (applyEnv e s) = some (x, s0) →
    mayRun x .operator = true → v.getLsbD 0 = true → v.getLsbD 1 = true →
    exec (.regWrite sess (regAt 0x14 0x18) v e) s = .next (mgmtReply sess .ok [] s0)) ∧
  (∀ (sess node t : Nat) (s s0 : State) (x : Sess), served sess t s = some (x, s0) → mayRun x .operator = true →
    isBlocked s0 (node % 2 ^ 20) = true → exec (.block sess node t) s = .next (mgmtReply sess .ok [] s0)) ∧
  (∀ (sess t : Nat) (s s0 : State) (x : Sess), served sess t s = some (x, s0) →
    (∀ p, secOf s0 ((selsOf s0 (.mgmt sess)).sec % 2 ^ 20) = some p → p.st = .none ∧ p.fails = 0) →
    exec (.regRead sess (regAt 0x14 0x10) 1 t) s = .next (mgmtReply sess .ok [0] s0))

/-- An MXINT8 code is its two's-complement integer times 2 to the -6: 0x80 is -128 of 64ths, and the largest is 127 of them.
In the 2-bit layout of BNT element i of a block is bits 2i+1 and 2i of its 16 bytes; 0 is 0, 1 is +1, 3 is -1, and a block is
invalid where one of its elements is 2. -/
def Obligations.IntegerAndTernaryElements : Prop :=
  (∀ q : BitVec 8, efmtDec .int8 q.toNat = .fin (decide (q.toInt < 0)) { m := q.toInt, e := -6 }) ∧
  efmtDec .int8 0x80 = .fin true { m := -128, e := -6 } ∧ efmtDec .int8 0x7F = .fin false { m := 127, e := -6 } ∧
  (∀ (l : List Byte) (i : Fin 64), l.length = 16 → (blockCodes (wfmtOf 3) l).getD i 0 = ofLe l / 4 ^ i.val % 4) ∧
  efmtDec .trit 0 = .fin false { m := 0, e := 0 } ∧ efmtDec .trit 1 = .fin false { m := 1, e := 0 } ∧
  efmtDec .trit 3 = .fin true { m := -1, e := 0 } ∧
  (∀ l : List Byte, l.length = 16 → (blockInvalid (wfmtOf 3) l = true ↔ ∃ i : Fin 64, ofLe l / 4 ^ i.val % 4 = 2))
end

