-- ==== Sys2Proof/Laws/Memory.lean ====
section
/-! SUPPORT. Pool memory: every operation keeps the canonical form, a read after a write to the same address answers the byte
written, and a write leaves every other address alone. -/

namespace Sys2Proof.Machine

theorem memWfFrom_mono {lo hi : Nat} {m : List (Nat × BitVec 8)} (h : memWfFrom hi m = true) (le : lo ≤ hi) :
    memWfFrom lo m = true := by
  cases m with
  | nil => rfl
  | cons c m =>
    simp only [memWfFrom, Bool.and_eq_true, decide_eq_true_eq] at *
    exact ⟨⟨by omega, h.1.2⟩, h.2⟩

/-- What memWfFrom says of a first entry and the rest. -/
theorem memWfFrom_cons {lo k : Nat} {v : Byte} {m : List (Nat × BitVec 8)} :
    memWfFrom lo ((k, v) :: m) = true ↔ lo ≤ k ∧ v ≠ 0 ∧ memWfFrom (k + 1) m = true := by
  simp [memWfFrom, and_assoc]

theorem memWrite_wfFrom {m : List (Nat × BitVec 8)} {lo a : Nat} {v : Byte} (h : memWfFrom lo m = true) (ha : lo ≤ a) :
    memWfFrom lo (memWrite m a v) = true := by
  induction m generalizing lo with
  | nil =>
    simp only [memWrite]
    split
    · rfl
    · rename_i hv
      exact memWfFrom_cons.2 ⟨ha, hv, rfl⟩
  | cons c m ih =>
    obtain ⟨k, w⟩ := c
    have h' := memWfFrom_cons.1 h
    simp only [memWrite]
    split
    · split
      · exact h
      · rename_i hlt hv
        exact memWfFrom_cons.2 ⟨ha, hv, memWfFrom_cons.2 ⟨hlt, h'.2.1, h'.2.2⟩⟩
    · split
      · rename_i hlt heq
        subst heq
        split
        · exact memWfFrom_mono h'.2.2 (by omega)
        · rename_i hv
          exact memWfFrom_cons.2 ⟨ha, hv, h'.2.2⟩
      · rename_i hlt hne
        exact memWfFrom_cons.2 ⟨h'.1, h'.2.1, ih h'.2.2 (by omega)⟩

/-- A write of one byte keeps the canonical form. -/
theorem memWrite_wf {m : List (Nat × BitVec 8)} (a : Nat) (v : Byte) (h : Memory.wf m = true) :
    Memory.wf (memWrite m a v) = true := memWrite_wfFrom h (Nat.zero_le a)

/-- A write of bytes keeps the canonical form. -/
theorem memWriteL_wf {m : List (Nat × BitVec 8)} (a : Nat) (l : List Byte) (h : Memory.wf m = true) :
    Memory.wf (memWriteL m a l) = true := by
  induction l generalizing m a with
  | nil => exact h
  | cons b l ih => exact ih (a + 1) (memWrite_wf a b h)

theorem memFilter_wfFrom {m : List (Nat × BitVec 8)} (p : Nat × BitVec 8 → Bool) {lo : Nat} (h : memWfFrom lo m = true) :
    memWfFrom lo (m.filter p) = true := by
  induction m generalizing lo with
  | nil => rfl
  | cons c m ih =>
    obtain ⟨k, w⟩ := c
    have h' := memWfFrom_cons.1 h
    rw [List.filter_cons]
    split
    · exact memWfFrom_cons.2 ⟨h'.1, h'.2.1, ih h'.2.2⟩
    · exact memWfFrom_mono (ih h'.2.2) (by omega)

/-- A zero-fill keeps the canonical form. -/
theorem memZero_wf {m : List (Nat × BitVec 8)} (a n : Nat) (h : Memory.wf m = true) : Memory.wf (memZero m a n) = true :=
  memFilter_wfFrom _ h

/-- A copy keeps the canonical form. -/
theorem memCopy_wf {m : List (Nat × BitVec 8)} (src dst n : Nat) (h : Memory.wf m = true) :
    Memory.wf (memCopy m src dst n) = true := by
  unfold memCopy
  have key : ∀ (l : List (Nat × BitVec 8)) (m' : List (Nat × BitVec 8)), Memory.wf m' = true →
      Memory.wf (l.foldl (fun m' c => memWrite m' (c.1 - src + dst) c.2) m') = true := by
    intro l
    induction l with
    | nil => exact fun _ h => h
    | cons c l ih => exact fun m' h => ih _ (memWrite_wf _ _ h)
  exact key _ _ (memZero_wf dst n h)

/-- Below the first address a canonical memory reads 0. -/
theorem memRead_below {m : List (Nat × BitVec 8)} {lo a : Nat} (h : memWfFrom lo m = true) (ha : a < lo) : memRead m a = 0 := by
  cases m with
  | nil => rfl
  | cons c m =>
    obtain ⟨k, w⟩ := c
    have h' := memWfFrom_cons.1 h
    simp only [memRead]
    rw [if_neg (by omega), if_pos (by omega)]

theorem memRead_memWriteFrom {m : List (Nat × BitVec 8)} {lo a b : Nat} {v : Byte} (h : memWfFrom lo m = true) :
    memRead (memWrite m a v) b = if b = a then v else memRead m b := by
  induction m generalizing lo with
  | nil =>
    simp only [memWrite]
    split
    · rename_i hv; subst hv; simp [memRead]
    · simp only [memRead]
      by_cases hb : b = a
      · subst hb; simp
      · rw [if_neg hb, if_neg (Ne.symm hb)]; split <;> rfl
  | cons c m ih =>
    obtain ⟨k, w⟩ := c
    have h' := memWfFrom_cons.1 h
    simp only [memWrite]
    split
    · rename_i hlt
      split
      · rename_i hv; subst hv
        by_cases hb : b = a
        · subst hb; rw [if_pos rfl]; simp only [memRead]; rw [if_neg (by omega), if_pos hlt]
        · rw [if_neg hb]
      · by_cases hb : b = a
        · subst hb; simp [memRead]
        · rw [if_neg hb]
          conv_lhs => rw [memRead]
          rw [if_neg (Ne.symm hb)]
          split
          · simp only [memRead]; rw [if_neg (by omega), if_pos (by omega)]
          · rfl
    · split
      · rename_i hlt heq
        subst heq
        split
        · rename_i hv; subst hv
          by_cases hb : b = a
          · subst hb; rw [if_pos rfl]; exact memRead_below h'.2.2 (by omega)
          · rw [if_neg hb]
            conv_rhs => rw [memRead]
            rw [if_neg (Ne.symm hb)]
            split
            · exact memRead_below h'.2.2 (by omega)
            · rfl
        · by_cases hb : b = a
          · subst hb; simp [memRead]
          · rw [if_neg hb]; simp only [memRead]; rw [if_neg (Ne.symm hb), if_neg (Ne.symm hb)]
      · rename_i hlt hne
        by_cases hb : b = k
        · subst hb; rw [if_neg (Ne.symm hne)]; simp [memRead]
        · simp only [memRead]
          rw [if_neg (Ne.symm hb), if_neg (Ne.symm hb)]
          split
          · rw [if_neg (by omega)]
          · exact ih h'.2.2

/-- A read after a write of one byte: the byte written at its address, what stood there everywhere else. -/
theorem memRead_memWrite {m : List (Nat × BitVec 8)} (h : Memory.wf m = true) (a b : Nat) (v : Byte) :
    memRead (memWrite m a v) b = if b = a then v else memRead m b := memRead_memWriteFrom h

/-- A read after a write of bytes: the byte written inside the range, what stood there outside it. -/
theorem memRead_memWriteL {m : List (Nat × BitVec 8)} (h : Memory.wf m = true) (a b : Nat) (l : List Byte) :
    memRead (memWriteL m a l) b = if a ≤ b ∧ b < a + l.length then l.getD (b - a) 0 else memRead m b := by
  induction l generalizing m a with
  | nil => simp [memWriteL]
  | cons x l ih =>
    rw [memWriteL, ih (memWrite_wf a x h), memRead_memWrite h]
    by_cases hb : b = a
    · subst hb
      simp
    · by_cases hc : a + 1 ≤ b ∧ b < a + 1 + l.length
      · rw [if_pos hc, if_pos (by simp; omega), show b - a = (b - (a + 1)) + 1 by omega]; simp
      · rw [if_neg hc, if_neg hb, if_neg (by simp; omega)]

end Sys2Proof.Machine
end

