-- ==== Sys2Proof/Laws/Keeps.lean ====
section
/-! SUPPORT. One relation between the state before and after an operation, that every operation of the model keeps: which
pieces it leaves alone, that it goes onward, and that it keeps the invariant. A set of pieces is a number, bit k for the k-th
field of State. The lemma of an operation f is f_keeps; it says once what f can touch. -/

namespace Sys2Proof.Machine

/-- The bit of a piece. -/
def Piece.idx (p : Piece) : Nat :=
  match p with
  | .pwr => 0
  | .fuse => 1
  | .flash => 2
  | .boot => 3
  | .img => 4
  | .isl => 5
  | .crn => 6
  | .cp => 7
  | .bel => 8
  | .mgmt => 9
  | .glb => 10
  | .pool => 11
  | .vrb => 12
  | .bulk => 13
  | .coh => 14
  | .fe => 15
  | .ws => 16
  | .kv => 17
  | .lnk => 18
  | .rte => 19
  | .e2e => 20
  | .qos => 21
  | .ecc => 22
  | .trv => 23
  | .onx => 24
  | .sec => 25
  | .pending => 26
  | .now => 27
  | .busyAt => 28
  | .svc => 29
  | .free => 30
  | .out => 31
  | .sels => 32
  | .mem => 33
  | .stks => 34

/-- From s the operation has come to t, touching pieces of the set M alone. -/
structure Keeps (M : Nat) (s t : State) : Prop where
  /-- Pieces outside the set are the same. -/
  agree : ∀ p : Piece, M.testBit p.idx = false → p.same s t
  /-- It goes onward. -/
  onward : Onward s t
  /-- It keeps the invariant. -/
  inv : Inv s → Inv t

theorem Piece.same_refl (p : Piece) (s : State) : p.same s s := by cases p <;> rfl

theorem Piece.same_trans (p : Piece) {s t u : State} (h : p.same s t) (k : p.same t u) : p.same s u := by
  cases p <;> exact Eq.trans k h

theorem and_keeps_trans {n : Nat} {a b c : BitVec n} (h : a &&& b = a) (k : b &&& c = b) : a &&& c = a := by
  rw [← h, BitVec.and_assoc, k]

theorem Onward.refl (s : State) : Onward s s :=
  ⟨Nat.le_refl _, Nat.le_refl _, Nat.le_refl _, List.prefix_refl _, rfl, BitVec.and_self, BitVec.and_self⟩

theorem Onward.trans {s t u : State} (h : Onward s t) (k : Onward t u) : Onward s u :=
  ⟨Nat.le_trans h.time k.time, Nat.le_trans h.free k.free, Nat.le_trans h.seed k.seed, List.IsPrefix.trans h.sent k.sent,
    k.variant.trans h.variant, and_keeps_trans h.programmed k.programmed, and_keeps_trans h.revoked k.revoked⟩

theorem Keeps.refl {M : Nat} {s : State} : Keeps M s s := ⟨fun p _ => p.same_refl s, Onward.refl s, id⟩

theorem Keeps.mono {T M : Nat} {s t : State} (h : Keeps T s t) (hm : T ||| M = M) : Keeps M s t :=
  ⟨fun p hp => h.agree p (by
    rw [← hm, Nat.testBit_or, Bool.or_eq_false_iff] at hp; exact hp.1), h.onward, h.inv⟩

theorem mask_trans {T A M : Nat} (h : T ||| A = A) (k : A ||| M = M) : T ||| M = M := by
  rw [← k, ← Nat.or_assoc, h]

theorem Keeps.trans {M : Nat} {s t u : State} (h : Keeps M s t) (k : Keeps M t u) : Keeps M s u :=
  ⟨fun p hp => p.same_trans (h.agree p hp) (k.agree p hp), h.onward.trans k.onward, fun i => k.inv (h.inv i)⟩

/-- One more operation, which touches no more than the set. -/
theorem Keeps.step {T M : Nat} {s t u : State} (h : Keeps T t u) (hm : T ||| M = M) (k : Keeps M s t) : Keeps M s u :=
  k.trans (h.mono hm)

/-- The state of a pair that an operation answers. -/
def KeepsP {α : Type} (M : Nat) (s : State) (p : State × α) : Prop := Keeps M s p.1

theorem KeepsP.mk {α : Type} {M : Nat} {s t : State} {a : α} (h : Keeps M s t) : KeepsP M s (t, a) := h

theorem KeepsP.fst {α : Type} {M : Nat} {s : State} {p : State × α} (h : KeepsP M s p) : Keeps M s p.1 := h

theorem KeepsP.ofFst {α : Type} {M : Nat} {s : State} {p : State × α} (h : Keeps M s p.1) : KeepsP M s p := h

theorem KeepsP.ofEq {α : Type} {M : Nat} {s t : State} {p : State × α} {a : α} (h : KeepsP M s p) (e : p = (t, a)) :
    Keeps M s t := by subst e; exact h

theorem KeepsP.step {α : Type} {T M : Nat} {s t : State} {p : State × α} (h : KeepsP T t p) (hm : T ||| M = M)
    (k : Keeps M s t) : KeepsP M s p := Keeps.step h hm k

/-- The state that an operation answers, where it answers one. -/
def KeepsO (M : Nat) (s : State) (o : Option State) : Prop := ∀ t, o = some t → Keeps M s t

theorem KeepsO.none {M : Nat} {s : State} : KeepsO M s Option.none := fun _ h => nomatch h

theorem KeepsO.some {M : Nat} {s t : State} (h : Keeps M s t) : KeepsO M s (Option.some t) := by
  intro u e; cases e; exact h

theorem KeepsO.ofEq {M : Nat} {s t : State} {o : Option State} (h : KeepsO M s o) (e : o = Option.some t) : Keeps M s t := h t e

theorem KeepsO.bind {M : Nat} {s : State} {o : Option State} {f : State → Option State} (h : KeepsO M s o)
    (k : ∀ t, KeepsO M t (f t)) : KeepsO M s (o.bind f) := by
  intro u e
  cases o with
  | none => exact nomatch e
  | some t => exact (h t rfl).trans (k t u e)

theorem KeepsO.step {T M : Nat} {s t : State} {o : Option State} (h : KeepsO T t o) (hm : T ||| M = M)
    (k : Keeps M s t) : KeepsO M s o := fun u e => Keeps.step (h u e) hm k

theorem Keeps.ite {c : Prop} [Decidable c] {M : Nat} {s a b : State} (h : Keeps M s a) (k : Keeps M s b) :
    Keeps M s (if c then a else b) := by split <;> assumption

theorem KeepsP.ite {α : Type} {c : Prop} [Decidable c] {M : Nat} {s : State} {a b : State × α} (h : KeepsP M s a)
    (k : KeepsP M s b) : KeepsP M s (if c then a else b) := by split <;> assumption

theorem KeepsO.ite {c : Prop} [Decidable c] {M : Nat} {s : State} {a b : Option State} (h : KeepsO M s a)
    (k : KeepsO M s b) : KeepsO M s (if c then a else b) := by split <;> assumption

/-- The next state that a meaning answers. -/
def KeepsX (M : Nat) (s : State) (o : Host.Outcome State Fault Refusal) : Prop := ∀ t, o = .next t → Keeps M s t

theorem KeepsX.next {M : Nat} {s t : State} (h : Keeps M s t) : KeepsX M s (.next t) := by
  intro u e; cases e; exact h

theorem KeepsX.ite {c : Prop} [Decidable c] {M : Nat} {s : State} {a b : Host.Outcome State Fault Refusal}
    (h : KeepsX M s a) (k : KeepsX M s b) : KeepsX M s (if c then a else b) := by split <;> assumption

/-- Take a fact on the way. -/
theorem Keeps.cut {p q : Prop} (h : p) (k : p → q) : q := k h

/-- An operation repeated over a list. -/
theorem Keeps.foldl {α : Type} {M : Nat} {s b : State} {f : State → α → State} {l : List α}
    (h : ∀ x a, Keeps M x (f x a)) (k : Keeps M s b) : Keeps M s (l.foldl f b) := by
  induction l generalizing b with
  | nil => exact k
  | cons a l ih => exact ih (k.trans (h b a))

/-- An operation with an accumulator repeated over a list. -/
theorem KeepsP.foldl {α β : Type} {M : Nat} {s : State} {b : State × β} {f : State × β → α → State × β} {l : List α}
    (h : ∀ p a, KeepsP M p.1 (f p a)) (k : KeepsP M s b) : KeepsP M s (l.foldl f b) := by
  induction l generalizing b with
  | nil => exact k
  | cons a l ih => exact ih (Keeps.trans k (h b a))

/-- An update of pieces that neither the invariant nor what goes onward reads. -/
theorem Keeps.plain {T : Nat} {s t : State} (h : ∀ p : Piece, T.testBit p.idx = false → p.same s t)
    (hn : t.now = s.now) (hf : t.free = s.free) (ho : t.out = s.out) (hx : t.onx.keySeed = s.onx.keySeed)
    (hu : t.fuse = s.fuse) (hm : t.mem = s.mem) (hq : t.crn.q = s.crn.q) (hr : t.crn.ret = s.crn.ret)
    (hk : t.stks.length = s.stks.length) : Keeps T s t :=
  ⟨h, ⟨by rw [hn], by rw [hf], by rw [hx], by rw [ho], by rw [hu], by rw [hu, BitVec.and_self], by rw [hu, BitVec.and_self]⟩,
    fun i => ⟨by rw [hm]; exact i.memory, by rw [hq]; exact i.cairn, by rw [hr]; exact i.retained, by rw [hk]; exact i.positions⟩⟩

/-! Each unit's record -/

theorem upd_pwr_keeps (v : Pwr) (s : State) : Keeps 1 s { s with pwr := v } :=
  Keeps.plain (fun p => by cases p <;> first | exact fun _ => rfl | exact fun h => (nomatch h)) rfl rfl rfl rfl rfl rfl rfl rfl rfl

theorem upd_flash_keeps (v : Flash) (s : State) : Keeps 4 s { s with flash := v } :=
  Keeps.plain (fun p => by cases p <;> first | exact fun _ => rfl | exact fun h => (nomatch h)) rfl rfl rfl rfl rfl rfl rfl rfl rfl

theorem upd_boot_keeps (v : Boot) (s : State) : Keeps 8 s { s with boot := v } :=
  Keeps.plain (fun p => by cases p <;> first | exact fun _ => rfl | exact fun h => (nomatch h)) rfl rfl rfl rfl rfl rfl rfl rfl rfl

theorem upd_img_keeps (v : Img) (s : State) : Keeps 16 s { s with img := v } :=
  Keeps.plain (fun p => by cases p <;> first | exact fun _ => rfl | exact fun h => (nomatch h)) rfl rfl rfl rfl rfl rfl rfl rfl rfl

theorem upd_isl_keeps (v : Isl) (s : State) : Keeps 32 s { s with isl := v } :=
  Keeps.plain (fun p => by cases p <;> first | exact fun _ => rfl | exact fun h => (nomatch h)) rfl rfl rfl rfl rfl rfl rfl rfl rfl

theorem upd_cp_keeps (v : Ctl) (s : State) : Keeps 128 s { s with cp := v } :=
  Keeps.plain (fun p => by cases p <;> first | exact fun _ => rfl | exact fun h => (nomatch h)) rfl rfl rfl rfl rfl rfl rfl rfl rfl

theorem upd_bel_keeps (v : Bel) (s : State) : Keeps 256 s { s with bel := v } :=
  Keeps.plain (fun p => by cases p <;> first | exact fun _ => rfl | exact fun h => (nomatch h)) rfl rfl rfl rfl rfl rfl rfl rfl rfl

theorem upd_mgmt_keeps (v : Mgmt) (s : State) : Keeps 512 s { s with mgmt := v } :=
  Keeps.plain (fun p => by cases p <;> first | exact fun _ => rfl | exact fun h => (nomatch h)) rfl rfl rfl rfl rfl rfl rfl rfl rfl

theorem upd_glb_keeps (v : Glb) (s : State) : Keeps 1024 s { s with glb := v } :=
  Keeps.plain (fun p => by cases p <;> first | exact fun _ => rfl | exact fun h => (nomatch h)) rfl rfl rfl rfl rfl rfl rfl rfl rfl

theorem upd_pool_keeps (v : Pool) (s : State) : Keeps 2048 s { s with pool := v } :=
  Keeps.plain (fun p => by cases p <;> first | exact fun _ => rfl | exact fun h => (nomatch h)) rfl rfl rfl rfl rfl rfl rfl rfl rfl

theorem upd_vrb_keeps (v : Vrb) (s : State) : Keeps 4096 s { s with vrb := v } :=
  Keeps.plain (fun p => by cases p <;> first | exact fun _ => rfl | exact fun h => (nomatch h)) rfl rfl rfl rfl rfl rfl rfl rfl rfl

theorem upd_bulk_keeps (v : Bulk) (s : State) : Keeps 8192 s { s with bulk := v } :=
  Keeps.plain (fun p => by cases p <;> first | exact fun _ => rfl | exact fun h => (nomatch h)) rfl rfl rfl rfl rfl rfl rfl rfl rfl

theorem upd_coh_keeps (v : Coh) (s : State) : Keeps 16384 s { s with coh := v } :=
  Keeps.plain (fun p => by cases p <;> first | exact fun _ => rfl | exact fun h => (nomatch h)) rfl rfl rfl rfl rfl rfl rfl rfl rfl

theorem upd_fe_keeps (v : Fe) (s : State) : Keeps 32768 s { s with fe := v } :=
  Keeps.plain (fun p => by cases p <;> first | exact fun _ => rfl | exact fun h => (nomatch h)) rfl rfl rfl rfl rfl rfl rfl rfl rfl

theorem upd_ws_keeps (v : Ws) (s : State) : Keeps 65536 s { s with ws := v } :=
  Keeps.plain (fun p => by cases p <;> first | exact fun _ => rfl | exact fun h => (nomatch h)) rfl rfl rfl rfl rfl rfl rfl rfl rfl

theorem upd_kv_keeps (v : Kv) (s : State) : Keeps 131072 s { s with kv := v } :=
  Keeps.plain (fun p => by cases p <;> first | exact fun _ => rfl | exact fun h => (nomatch h)) rfl rfl rfl rfl rfl rfl rfl rfl rfl

theorem upd_lnk_keeps (v : Lnk) (s : State) : Keeps 262144 s { s with lnk := v } :=
  Keeps.plain (fun p => by cases p <;> first | exact fun _ => rfl | exact fun h => (nomatch h)) rfl rfl rfl rfl rfl rfl rfl rfl rfl

theorem upd_rte_keeps (v : Rte) (s : State) : Keeps 524288 s { s with rte := v } :=
  Keeps.plain (fun p => by cases p <;> first | exact fun _ => rfl | exact fun h => (nomatch h)) rfl rfl rfl rfl rfl rfl rfl rfl rfl

theorem upd_e2e_keeps (v : E2e) (s : State) : Keeps 1048576 s { s with e2e := v } :=
  Keeps.plain (fun p => by cases p <;> first | exact fun _ => rfl | exact fun h => (nomatch h)) rfl rfl rfl rfl rfl rfl rfl rfl rfl

theorem upd_qos_keeps (v : Qos) (s : State) : Keeps 2097152 s { s with qos := v } :=
  Keeps.plain (fun p => by cases p <;> first | exact fun _ => rfl | exact fun h => (nomatch h)) rfl rfl rfl rfl rfl rfl rfl rfl rfl

theorem upd_ecc_keeps (v : Ecc) (s : State) : Keeps 4194304 s { s with ecc := v } :=
  Keeps.plain (fun p => by cases p <;> first | exact fun _ => rfl | exact fun h => (nomatch h)) rfl rfl rfl rfl rfl rfl rfl rfl rfl

theorem upd_trv_keeps (v : Trv) (s : State) : Keeps 8388608 s { s with trv := v } :=
  Keeps.plain (fun p => by cases p <;> first | exact fun _ => rfl | exact fun h => (nomatch h)) rfl rfl rfl rfl rfl rfl rfl rfl rfl

theorem upd_sec_keeps (v : Sec) (s : State) : Keeps 33554432 s { s with sec := v } :=
  Keeps.plain (fun p => by cases p <;> first | exact fun _ => rfl | exact fun h => (nomatch h)) rfl rfl rfl rfl rfl rfl rfl rfl rfl

theorem upd_busyAt_keeps (v : Nat) (s : State) : Keeps 268435456 s { s with busyAt := v } :=
  Keeps.plain (fun p => by cases p <;> first | exact fun _ => rfl | exact fun h => (nomatch h)) rfl rfl rfl rfl rfl rfl rfl rfl rfl

theorem upd_svc_keeps (v : Nat) (s : State) : Keeps 536870912 s { s with svc := v } :=
  Keeps.plain (fun p => by cases p <;> first | exact fun _ => rfl | exact fun h => (nomatch h)) rfl rfl rfl rfl rfl rfl rfl rfl rfl

theorem upd_sels_keeps (v : List (Requester × Sels)) (s : State) : Keeps 4294967296 s { s with sels := v } :=
  Keeps.plain (fun p => by cases p <;> first | exact fun _ => rfl | exact fun h => (nomatch h)) rfl rfl rfl rfl rfl rfl rfl rfl rfl

theorem upd_onx_keeps (v : Onx) (s : State) (h : v.keySeed = s.onx.keySeed) : Keeps 16777216 s { s with onx := v } :=
  Keeps.plain (fun p => by cases p <;> first | exact fun _ => rfl | exact fun h => (nomatch h)) rfl rfl rfl h rfl rfl rfl rfl rfl

theorem upd_stks_keeps (v : List Stk) (s : State) (h : s.stks.length = 32 → v.length = 32) :
    Keeps 17179869184 s { s with stks := v } :=
  ⟨fun p => by cases p <;> first | exact fun _ => rfl | exact fun h => (nomatch h),
    ⟨Nat.le_refl _, Nat.le_refl _, Nat.le_refl _, List.prefix_refl _, rfl, BitVec.and_self, BitVec.and_self⟩,
    fun i => ⟨i.memory, i.cairn, i.retained, h i.positions⟩⟩

theorem upd_crn_keeps (v : Cairn) (s : State) (h : s.crn.q.length ≤ 1024 → v.q.length ≤ 1024)
    (k : s.crn.ret.length ≤ 64 → v.ret.length ≤ 64) : Keeps 64 s { s with crn := v } :=
  ⟨fun p => by cases p <;> first | exact fun _ => rfl | exact fun h => (nomatch h),
    ⟨Nat.le_refl _, Nat.le_refl _, Nat.le_refl _, List.prefix_refl _, rfl, BitVec.and_self, BitVec.and_self⟩,
    fun i => ⟨i.memory, h i.cairn, k i.retained, i.positions⟩⟩

theorem upd_mem_keeps (v : List (Nat × BitVec 8)) (s : State) (h : Memory.wf s.mem = true → Memory.wf v = true) :
    Keeps 8589934592 s { s with mem := v } :=
  ⟨fun p => by cases p <;> first | exact fun _ => rfl | exact fun h => (nomatch h),
    ⟨Nat.le_refl _, Nat.le_refl _, Nat.le_refl _, List.prefix_refl _, rfl, BitVec.and_self, BitVec.and_self⟩,
    fun i => ⟨h i.memory, i.cairn, i.retained, i.positions⟩⟩

theorem upd_fuse_keeps (v : Fuses) (s : State) (hv : v.variant = s.fuse.variant) (hp : s.fuse.prog &&& v.prog = s.fuse.prog)
    (hr : s.fuse.revoked &&& v.revoked = s.fuse.revoked) : Keeps 2 s { s with fuse := v } :=
  ⟨fun p => by cases p <;> first | exact fun _ => rfl | exact fun h => (nomatch h),
    ⟨Nat.le_refl _, Nat.le_refl _, Nat.le_refl _, List.prefix_refl _, hv, hp, hr⟩,
    fun i => ⟨i.memory, i.cairn, i.retained, i.positions⟩⟩

theorem upd_now_keeps (t : Nat) (s : State) (h : s.now ≤ t) : Keeps 134217728 s { s with now := t } :=
  ⟨fun p => by cases p <;> first | exact fun _ => rfl | exact fun h => (nomatch h),
    ⟨h, Nat.le_refl _, Nat.le_refl _, List.prefix_refl _, rfl, BitVec.and_self, BitVec.and_self⟩,
    fun i => ⟨i.memory, i.cairn, i.retained, i.positions⟩⟩

theorem setPwr_keeps (f : Pwr → Pwr) (s : State) : Keeps 1 s (setPwr f s) := upd_pwr_keeps _ s

theorem setBoot_keeps (f : Boot → Boot) (s : State) : Keeps 8 s (setBoot f s) := upd_boot_keeps _ s

theorem setIsl_keeps (f : Isl → Isl) (s : State) : Keeps 32 s (setIsl f s) := upd_isl_keeps _ s

theorem setCp_keeps (f : Ctl → Ctl) (s : State) : Keeps 128 s (setCp f s) := upd_cp_keeps _ s

theorem setBel_keeps (f : Bel → Bel) (s : State) : Keeps 256 s (setBel f s) := upd_bel_keeps _ s

theorem setMgmt_keeps (f : Mgmt → Mgmt) (s : State) : Keeps 512 s (setMgmt f s) := upd_mgmt_keeps _ s

theorem setPool_keeps (f : Pool → Pool) (s : State) : Keeps 2048 s (setPool f s) := upd_pool_keeps _ s

theorem setVrb_keeps (f : Vrb → Vrb) (s : State) : Keeps 4096 s (setVrb f s) := upd_vrb_keeps _ s

theorem setBulk_keeps (f : Bulk → Bulk) (s : State) : Keeps 8192 s (setBulk f s) := upd_bulk_keeps _ s

theorem setCoh_keeps (f : Coh → Coh) (s : State) : Keeps 16384 s (setCoh f s) := upd_coh_keeps _ s

theorem setFe_keeps (f : Fe → Fe) (s : State) : Keeps 32768 s (setFe f s) := upd_fe_keeps _ s

theorem setWs_keeps (f : Ws → Ws) (s : State) : Keeps 65536 s (setWs f s) := upd_ws_keeps _ s

theorem setKv_keeps (f : Kv → Kv) (s : State) : Keeps 131072 s (setKv f s) := upd_kv_keeps _ s

theorem setLnk_keeps (f : Lnk → Lnk) (s : State) : Keeps 262144 s (setLnk f s) := upd_lnk_keeps _ s

theorem setRte_keeps (f : Rte → Rte) (s : State) : Keeps 524288 s (setRte f s) := upd_rte_keeps _ s

theorem setE2e_keeps (f : E2e → E2e) (s : State) : Keeps 1048576 s (setE2e f s) := upd_e2e_keeps _ s

theorem setQos_keeps (f : Qos → Qos) (s : State) : Keeps 2097152 s (setQos f s) := upd_qos_keeps _ s

theorem setEcc_keeps (f : Ecc → Ecc) (s : State) : Keeps 4194304 s (setEcc f s) := upd_ecc_keeps _ s

theorem setTrv_keeps (f : Trv → Trv) (s : State) : Keeps 8388608 s (setTrv f s) := upd_trv_keeps _ s

theorem setSec_keeps (f : Sec → Sec) (s : State) : Keeps 33554432 s (setSec f s) := upd_sec_keeps _ s

theorem setOnx_keeps (f : Onx → Onx) (s : State) (h : ∀ o, (f o).keySeed = o.keySeed) : Keeps 16777216 s (setOnx f s) :=
  upd_onx_keeps _ s (h _)

theorem setCrn_keeps (f : Cairn → Cairn) (s : State) (h : ∀ c, c.q.length ≤ 1024 → (f c).q.length ≤ 1024)
    (k : ∀ c, c.ret.length ≤ 64 → (f c).ret.length ≤ 64) : Keeps 64 s (setCrn f s) := upd_crn_keeps _ s (h _) (k _)

theorem setMem_keeps (f : List (Nat × BitVec 8) → List (Nat × BitVec 8)) (s : State)
    (h : ∀ m, Memory.wf m = true → Memory.wf (f m) = true) : Keeps 8589934592 s (setMem f s) := upd_mem_keeps _ s (h _)

theorem modNth_length {α : Type} (n : Nat) (f : α → α) (l : List α) : (modNth n f l).length = l.length := by
  induction l generalizing n with
  | nil => simp [modNth]
  | cons x l ih => cases n with
    | zero => rfl
    | succ n => simp [modNth, ih]

theorem modStack_keeps (k : Nat) (f : Stk → Stk) (s : State) : Keeps 17179869184 s (modStack k f s) :=
  upd_stks_keeps _ s (fun h => (modNth_length k f s.stks).trans h)

theorem atTime_keeps (t : Nat) (s : State) :
    Keeps 939524096 s (atTime t s) :=
  ⟨fun p => by cases p <;> first | exact fun _ => rfl | exact fun h => (nomatch h),
    ⟨Nat.le_max_left _ _, Nat.le_refl _, Nat.le_refl _, List.prefix_refl _, rfl, BitVec.and_self, BitVec.and_self⟩,
    fun i => ⟨i.memory, i.cairn, i.retained, i.positions⟩⟩

theorem setSvc_keeps (c : Nat) (s : State) : Keeps 536870912 s (setSvc c s) := upd_svc_keeps _ s

theorem takeFree_keeps (n : Nat) (s : State) : KeepsP 1073741824 s (takeFree n s) :=
  ⟨fun p => by cases p <;> first | exact fun _ => rfl | exact fun h => (nomatch h),
    ⟨Nat.le_refl _, Nat.le_add_right _ _, Nat.le_refl _, List.prefix_refl _, rfl, BitVec.and_self, BitVec.and_self⟩,
    fun i => ⟨i.memory, i.cairn, i.retained, i.positions⟩⟩

theorem freeBytes_keeps (n : Nat) (s : State) : KeepsP 1073741824 s (freeBytes n s) := takeFree_keeps n s

theorem emit_keeps (o : Out) (s : State) : Keeps 2147483648 s (emit o s) :=
  ⟨fun p => by cases p <;> first | exact fun _ => rfl | exact fun h => (nomatch h),
    ⟨Nat.le_refl _, Nat.le_refl _, Nat.le_refl _, List.prefix_append _ _, rfl, BitVec.and_self, BitVec.and_self⟩,
    fun i => ⟨i.memory, i.cairn, i.retained, i.positions⟩⟩

theorem draw_keeps (n : Nat) (s : State) : KeepsP 16777216 s (draw n s) :=
  ⟨fun p => by cases p <;> first | exact fun _ => rfl | exact fun h => (nomatch h),
    ⟨Nat.le_refl _, Nat.le_refl _, Nat.le_succ _, List.prefix_refl _, rfl, BitVec.and_self, BitVec.and_self⟩,
    fun i => ⟨i.memory, i.cairn, i.retained, i.positions⟩⟩

theorem idleTick_keeps (s : State) : Keeps 17582522368 s (idleTick s) :=
  ⟨fun p => by cases p <;> first | exact fun _ => rfl | exact fun h => (nomatch h),
    ⟨Nat.le_add_right _ _, Nat.le_refl _, Nat.le_refl _, List.prefix_refl _, rfl, BitVec.and_self, BitVec.and_self⟩,
    fun i => ⟨i.memory, i.cairn, i.retained, by simpa [idleTick] using i.positions⟩⟩

end Sys2Proof.Machine
end

