-- ==== Sys2Proof/Laws/KeepsOps.lean ====
section
/-! SUPPORT. What each operation of Machine/Ops.lean can touch, that it goes onward and that it keeps the invariant. -/

namespace Sys2Proof.Machine

theorem noteStep4_keeps (s : State) : Keeps 8 s (noteStep4 s) := by
  unfold noteStep4
  refine Keeps.ite ?_ ?_
  · refine Keeps.step (setBoot_keeps ..) rfl ?_
    exact Keeps.refl
  · exact Keeps.refl

theorem loadKeys_keeps (s : State) : Keeps 16777216 s (loadKeys s) := by
  unfold loadKeys
  extract_lets +onlyGivenNames x1
  clear_value x1
  refine Keeps.step (setOnx_keeps _ _ (fun _ => rfl)) rfl ?_
  exact Keeps.refl

theorem alertAll_keeps (r) (s : State) : Keeps 2147483648 s (alertAll r s) := by
  unfold alertAll
  refine Keeps.foldl (fun x1 a2 => ?_) ?_
  · refine Keeps.step (emit_keeps ..) rfl ?_
    exact Keeps.refl
  · exact Keeps.refl

theorem critFullAlert_keeps (s : State) : Keeps 2147483712 s (critFullAlert s) := by
  unfold critFullAlert
  extract_lets +onlyGivenNames x1
  clear_value x1
  refine Keeps.ite ?_ ?_
  · refine Keeps.step (setCrn_keeps _ _ (fun _ h => h) (fun _ h => h)) rfl ?_
    refine Keeps.step (alertAll_keeps ..) rfl ?_
    exact Keeps.refl
  · exact Keeps.refl

theorem queueRec_keeps (r : CairnRec) (s : State) : KeepsP 2147483712 s (queueRec r s) := by
  unfold queueRec
  by_cases h1 : critical r.cls r.kind
  · by_cases h2 : s.crn.q.length < 1024
    · simp only [h1, h2, if_true]
      refine KeepsP.mk (Keeps.step (upd_crn_keeps _ _ ?_ ?_) rfl Keeps.refl)
      · intro _; simp; omega
      · exact id
    · simp only [h1, h2, if_true]
      refine KeepsP.mk (Keeps.step (critFullAlert_keeps _) rfl ?_)
      exact Keeps.step (setCrn_keeps _ _ (fun _ h => h) (fun _ h => h)) rfl Keeps.refl
  · by_cases h2 : s.crn.q.length < 960
    · simp only [h1, h2]
      refine KeepsP.mk (Keeps.step (upd_crn_keeps _ _ ?_ ?_) rfl Keeps.refl)
      · intro _; simp; omega
      · exact id
    · simp only [h1, h2]
      exact KeepsP.mk (Keeps.step (setCrn_keeps _ _ (fun _ h => h) (fun _ h => h)) rfl Keeps.refl)

theorem mergeRelease_keeps (s : State) : Keeps 2147483712 s (mergeRelease s) := by
  unfold mergeRelease
  refine Keeps.ite ?_ ?_
  · extract_lets +onlyGivenNames x1
    clear_value x1
    extract_lets +onlyGivenNames x2
    clear_value x2
    extract_lets +onlyGivenNames x3
    refine Keeps.cut (p := Keeps 2147483712 s x3) ?_ (fun k4 => ?_)
    · dsimp -zeta only [x3]
      refine KeepsP.fst ?_
      refine KeepsP.step (queueRec_keeps ..) rfl ?_
      exact Keeps.refl
    clear_value x3
    refine Keeps.step (setCrn_keeps _ _ (fun _ h => h) (fun _ h => h)) rfl ?_
    exact k4
  · exact Keeps.refl

theorem cairn_keeps (cls) (kind) (a0) (a1) (a2) (s : State) : Keeps 2147483712 s (cairn cls kind a0 a1 a2 s) := by
  unfold cairn
  refine KeepsP.fst ?_
  refine KeepsP.step (queueRec_keeps ..) rfl ?_
  exact Keeps.refl

theorem cairnAt_keeps (cls) (kind) (a0) (a1) (a2) (island) (tid) (st) (s : State) : Keeps 2147483712 s (cairnAt cls kind a0 a1 a2 island tid st s) := by
  unfold cairnAt
  refine KeepsP.fst ?_
  refine KeepsP.step (queueRec_keeps ..) rfl ?_
  exact Keeps.refl

theorem cairnAlert_keeps (cls) (kind) (a0) (a1) (a2) (s : State) : Keeps 2147483712 s (cairnAlert cls kind a0 a1 a2 s) := by
  unfold cairnAlert
  split
  rename_i v1 v2 v3 v4
  refine Keeps.cut (p := Keeps 2147483712 s v2) (KeepsP.ofEq ?_ v4) (fun k5 => ?_)
  · clear v4
    refine KeepsP.step (queueRec_keeps ..) rfl ?_
    exact Keeps.refl
  clear v4
  refine Keeps.step (alertAll_keeps ..) rfl ?_
  exact k5

end Sys2Proof.Machine
end

