-- ==== Sys2Proof/Laws/KeepsBelTable.lean ====
section
/-! SUPPORT. What each operation of Machine/BelTable.lean can touch, that it goes onward and that it keeps the invariant. -/

namespace Sys2Proof.Machine

theorem modChan_keeps (ch) (f) (s : State) : Keeps 256 s (modChan ch f s) := by
  unfold modChan
  refine Keeps.step (setBel_keeps ..) rfl ?_
  exact Keeps.refl

theorem romThresholds_keeps (s : State) : Keeps 256 s (romThresholds s) := by
  unfold romThresholds
  refine Keeps.step (setBel_keeps ..) rfl ?_
  exact Keeps.refl

end Sys2Proof.Machine
end

