-- ==== Sys2Proof/Laws/KeepsEgress.lean ====
section
/-! SUPPORT. What each operation of Machine/Egress.lean can touch, that it goes onward and that it keeps the invariant. -/

namespace Sys2Proof.Machine

theorem modPort_keeps (k) (f) (s : State) : Keeps 262144 s (modPort k f s) := by
  unfold modPort
  refine Keeps.step (setLnk_keeps ..) rfl ?_
  exact Keeps.refl

theorem lineFlit_keeps (k) (rpl) (b) (s : State) : Keeps 2147745792 s (lineFlit k rpl b s) := by
  unfold lineFlit
  extract_lets +onlyGivenNames x1
  clear_value x1
  extract_lets +onlyGivenNames x2
  refine Keeps.cut (p := Keeps 2147745792 s x2) ?_ (fun k3 => ?_)
  · dsimp -zeta only [x2]
    refine Keeps.ite ?_ ?_
    · refine Keeps.step (emit_keeps ..) rfl ?_
      exact Keeps.refl
    · exact Keeps.refl
  clear_value x2
  refine Keeps.step (emit_keeps ..) rfl ?_
  refine Keeps.step (modPort_keeps ..) rfl ?_
  exact k3

theorem sendFlit_keeps (k) (sl) (s : State) : Keeps 2147745792 s (sendFlit k sl s) := by
  unfold sendFlit
  extract_lets +onlyGivenNames x1
  clear_value x1
  split
  rename_i v2 v3 v4 v5
  extract_lets +onlyGivenNames x6
  clear_value x6
  extract_lets +onlyGivenNames x7
  clear_value x7
  refine Keeps.step (lineFlit_keeps ..) rfl ?_
  refine Keeps.step (modPort_keeps ..) rfl ?_
  exact Keeps.refl

theorem sendOther_keeps (k) (ftype) (payload) (s : State) : Keeps 2147745792 s (sendOther k ftype payload s) := by
  unfold sendOther
  split
  rename_i v1 v2 v3 v4
  refine Keeps.step (lineFlit_keeps ..) rfl ?_
  refine Keeps.step (modPort_keeps ..) rfl ?_
  exact Keeps.refl

theorem sendIdle_keeps (k) (s : State) : Keeps 2147745792 s (sendIdle k s) := by
  unfold sendIdle
  refine Keeps.step (sendOther_keeps ..) rfl ?_
  exact Keeps.refl

theorem sendCtl_keeps (k) (c) (s : State) : Keeps 2147745792 s (sendCtl k c s) := by
  unfold sendCtl
  refine Keeps.step (sendOther_keeps ..) rfl ?_
  exact Keeps.refl

theorem sendReturns_keeps (k) (a) (s : State) : Keeps 2147745792 s (sendReturns k a s) := by
  induction a generalizing k s
  · unfold sendReturns
    exact Keeps.refl
  · rename_i v1 v2
    unfold sendReturns
    extract_lets +onlyGivenNames x3
    clear_value x3
    refine Keeps.ite ?_ ?_
    · refine Keeps.step (v2 _ _) (Nat.or_self _) ?_
      refine Keeps.step (sendIdle_keeps ..) rfl ?_
      exact Keeps.refl
    · exact Keeps.refl

theorem payReturns_keeps (k) (s : State) : Keeps 2147745792 s (payReturns k s) := by
  unfold payReturns
  refine Keeps.step (sendReturns_keeps ..) rfl ?_
  exact Keeps.refl

theorem startPkt_keeps (k) (pos) (e) (s : State) : Keeps 2147745792 s (startPkt k pos e s) := by
  unfold startPkt
  extract_lets +onlyGivenNames x1
  refine Keeps.cut (p := Keeps 2147745792 s x1) ?_ (fun k2 => ?_)
  · dsimp -zeta only [x1]
    refine Keeps.step (modPort_keeps ..) rfl ?_
    exact Keeps.refl
  clear_value x1
  split
  · rename_i v3 v4 v5 v6 v7
    refine Keeps.step (emit_keeps ..) rfl ?_
    exact k2
  · rename_i v8 v9 v10 v11 v12 v13
    refine Keeps.step (emit_keeps ..) rfl ?_
    exact k2
  · rename_i v14 v15 v16
    refine Keeps.step (emit_keeps ..) rfl ?_
    exact k2

theorem startPkts_keeps (k) (a) (s : State) : Keeps 2147745792 s (startPkts k a s) := by
  induction a generalizing k s
  · unfold startPkts
    exact Keeps.refl
  · rename_i v1 v2
    unfold startPkts
    extract_lets +onlyGivenNames x3
    clear_value x3
    refine Keeps.ite ?_ ?_
    · exact Keeps.refl
    · split
      · rename_i v4 v5 v6 v7
        refine Keeps.step (v2 _ _) (Nat.or_self _) ?_
        refine Keeps.step (startPkt_keeps ..) rfl ?_
        exact Keeps.refl
      · rename_i v8 v9
        exact Keeps.refl

theorem sendSlots_keeps (k) (a) (s : State) : Keeps 2147745792 s (sendSlots k a s) := by
  induction a generalizing k s
  · unfold sendSlots
    exact Keeps.refl
  · rename_i v1 v2
    unfold sendSlots
    extract_lets +onlyGivenNames x3
    clear_value x3
    refine Keeps.ite ?_ ?_
    · exact Keeps.refl
    · extract_lets +onlyGivenNames x4
      clear_value x4
      refine Keeps.step (v2 _ _) (Nat.or_self _) ?_
      refine Keeps.step (sendFlit_keeps ..) rfl ?_
      refine Keeps.step (modPort_keeps ..) rfl ?_
      exact Keeps.refl

theorem pumpPort_keeps (k) (s : State) : Keeps 2147745792 s (pumpPort k s) := by
  unfold pumpPort
  refine Keeps.step (sendSlots_keeps ..) rfl ?_
  refine Keeps.step (startPkts_keeps ..) rfl ?_
  exact Keeps.refl

theorem enqueue_keeps (k) (e) (s : State) : Keeps 2147745792 s (enqueue k e s) := by
  unfold enqueue
  extract_lets +onlyGivenNames x1
  clear_value x1
  extract_lets +onlyGivenNames x2
  clear_value x2
  extract_lets +onlyGivenNames x3
  clear_value x3
  extract_lets +onlyGivenNames x4
  clear_value x4
  extract_lets +onlyGivenNames x5
  clear_value x5
  extract_lets +onlyGivenNames x6
  refine Keeps.cut (p := Keeps 2147745792 s x6) ?_ (fun k7 => ?_)
  · dsimp -zeta only [x6]
    refine Keeps.step (modPort_keeps ..) rfl ?_
    exact Keeps.refl
  clear_value x6
  refine Keeps.step (pumpPort_keeps ..) rfl ?_
  refine Keeps.ite ?_ ?_
  · refine Keeps.step (setLnk_keeps ..) rfl ?_
    exact k7
  · exact k7

theorem sendLm_keeps (k) (m) (s : State) : Keeps 2147745792 s (sendLm k m s) := by
  unfold sendLm
  refine Keeps.step (enqueue_keeps ..) rfl ?_
  exact Keeps.refl

theorem freeSlots_keeps (x) (s : State) : Keeps 2147745792 s (freeSlots x s) := by
  unfold freeSlots
  refine Keeps.ite ?_ ?_
  · refine Keeps.step (payReturns_keeps ..) rfl ?_
    refine Keeps.step (modPort_keeps ..) rfl ?_
    exact Keeps.refl
  · exact Keeps.refl

theorem takeWhere_keeps (hit) (s : State) : KeepsP 2147745792 s (takeWhere hit s) := by
  unfold takeWhere
  split
  · rename_i v1 v2 v3
    refine KeepsP.mk ?_
    refine Keeps.step (freeSlots_keeps ..) rfl ?_
    refine Keeps.step (setLnk_keeps ..) rfl ?_
    exact Keeps.refl
  · rename_i v4 v5
    refine KeepsP.mk ?_
    exact Keeps.refl

theorem takeIngress_keeps (k) (tc) (s : State) : KeepsP 2147745792 s (takeIngress k tc s) := by
  unfold takeIngress
  refine KeepsP.step (takeWhere_keeps ..) rfl ?_
  exact Keeps.refl

end Sys2Proof.Machine
end

