-- ==== Sys2Proof/Laws/KeepsSend.lean ====
section
/-! SUPPORT. What each operation of Machine/Send.lean can touch, that it goes onward and that it keeps the invariant. -/

namespace Sys2Proof.Machine

theorem critApply_keeps (idx) (v) (s : State) : Keeps 525322 s (critApply idx v s) := by
  unfold critApply
  extract_lets +onlyGivenNames x1
  clear_value x1
  refine Keeps.ite ?_ ?_
  · refine Keeps.step (setRte_keeps ..) rfl ?_
    exact Keeps.refl
  · refine Keeps.ite ?_ ?_
    · refine Keeps.step (upd_glb_keeps _ _) rfl ?_
      exact Keeps.refl
    · refine Keeps.ite ?_ ?_
      · refine Keeps.step (setBoot_keeps ..) rfl ?_
        exact Keeps.refl
      · refine Keeps.ite ?_ ?_
        · refine Keeps.step (upd_fuse_keeps _ _ rfl BitVec.and_self BitVec.and_self) rfl ?_
          exact Keeps.refl
        · exact Keeps.refl

theorem critRead_keeps (idx) (s : State) : Keeps 2152203338 s (critRead idx s) := by
  unfold critRead
  split
  · exact Keeps.refl
  · refine Keeps.ite Keeps.refl (Keeps.ite Keeps.refl (Keeps.ite ?_ ?_))
    · extract_lets +onlyGivenNames x6 x7
      exact Keeps.step (critApply_keeps ..) rfl (Keeps.step (setEcc_keeps ..) rfl Keeps.refl)
    · exact Keeps.step (cairn_keeps ..) rfl (Keeps.step (setEcc_keeps ..) rfl Keeps.refl)

theorem critApply00_keeps (v : BitVec 64) (s : State) : Keeps 524288 s (critApply 0x00 v s) := by
  unfold critApply; extract_lets n
  rw [if_pos rfl]; exact setRte_keeps _ s

theorem critApply19_keeps (v : BitVec 64) (s : State) : Keeps 1024 s (critApply 0x19 v s) := by
  unfold critApply; extract_lets n
  rw [if_neg (by decide), if_pos rfl]; exact upd_glb_keeps _ s

theorem critApply1A_keeps (v : BitVec 64) (s : State) : Keeps 8 s (critApply 0x1A v s) := by
  unfold critApply; extract_lets n
  rw [if_neg (by decide), if_neg (by decide), if_pos rfl]; exact setBoot_keeps _ s

/-- A read of the configuration word touches the router's copy of it. -/
theorem critRead00_keeps (s : State) : Keeps 2152202304 s (critRead 0x00 s) := by
  unfold critRead
  split
  · exact Keeps.refl
  · refine Keeps.ite Keeps.refl (Keeps.ite Keeps.refl (Keeps.ite ?_ ?_))
    · extract_lets +onlyGivenNames x6 x7
      exact Keeps.step (critApply00_keeps ..) rfl (Keeps.step (setEcc_keeps ..) rfl Keeps.refl)
    · exact Keeps.step (cairn_keeps ..) rfl (Keeps.step (setEcc_keeps ..) rfl Keeps.refl)

/-- A read of the identity word. -/
theorem critRead19_keeps (s : State) : Keeps 2151679040 s (critRead 0x19 s) := by
  unfold critRead
  split
  · exact Keeps.refl
  · refine Keeps.ite Keeps.refl (Keeps.ite Keeps.refl (Keeps.ite ?_ ?_))
    · extract_lets +onlyGivenNames x6 x7
      exact Keeps.step (critApply19_keeps ..) rfl (Keeps.step (setEcc_keeps ..) rfl Keeps.refl)
    · exact Keeps.step (cairn_keeps ..) rfl (Keeps.step (setEcc_keeps ..) rfl Keeps.refl)

/-- A read of the incarnation word. -/
theorem critRead1A_keeps (s : State) : Keeps 2151678024 s (critRead 0x1A s) := by
  unfold critRead
  split
  · exact Keeps.refl
  · refine Keeps.ite Keeps.refl (Keeps.ite Keeps.refl (Keeps.ite ?_ ?_))
    · extract_lets +onlyGivenNames x6 x7
      exact Keeps.step (critApply1A_keeps ..) rfl (Keeps.step (setEcc_keeps ..) rfl Keeps.refl)
    · exact Keeps.step (cairn_keeps ..) rfl (Keeps.step (setEcc_keeps ..) rfl Keeps.refl)

theorem critApplyHi_keeps (idx : Nat) (v : BitVec 64) (s : State) (h : idx = 0x1B ∨ 0x20 ≤ idx) : Keeps 0 s (critApply idx v s) := by
  unfold critApply
  extract_lets n
  rw [if_neg (by omega), if_neg (by omega), if_neg (by omega), if_neg (by omega)]
  exact Keeps.refl

/-- A read of a word whose users hold nothing. -/
theorem critReadHi_keeps (idx : Nat) (s : State) (h : idx = 0x1B ∨ 0x20 ≤ idx) : Keeps 2151678016 s (critRead idx s) := by
  unfold critRead
  split
  · exact Keeps.refl
  · refine Keeps.ite Keeps.refl (Keeps.ite Keeps.refl (Keeps.ite ?_ ?_))
    · extract_lets +onlyGivenNames x6 x7
      exact Keeps.step (critApplyHi_keeps _ _ _ h) rfl (Keeps.step (setEcc_keeps ..) rfl Keeps.refl)
    · exact Keeps.step (cairn_keeps ..) rfl (Keeps.step (setEcc_keeps ..) rfl Keeps.refl)

theorem critWrite_keeps (idx) (s : State) : Keeps 4194304 s (critWrite idx s) := by
  unfold critWrite
  refine Keeps.step (setEcc_keeps ..) rfl ?_
  exact Keeps.refl

theorem critFlip_keeps (idx) (copy) (x) (s : State) : Keeps 4194304 s (critFlip idx copy x s) := by
  unfold critFlip
  extract_lets +onlyGivenNames x1
  clear_value x1
  extract_lets +onlyGivenNames x2
  clear_value x2
  extract_lets +onlyGivenNames x3
  clear_value x3
  refine Keeps.step (setEcc_keeps ..) rfl ?_
  exact Keeps.refl

theorem critRewrite_keeps (s : State) : Keeps 4719626 s (critRewrite s) := by
  unfold critRewrite
  refine Keeps.foldl (fun x1 a2 => ?_) ?_
  · refine Keeps.step (critWrite_keeps ..) rfl ?_
    refine Keeps.step (critApply_keeps ..) rfl ?_
    exact Keeps.refl
  · exact Keeps.refl

theorem choosePort_keeps (tc) (slots) (plan) (set) (s : State) : KeepsP 1074266112 s (choosePort tc slots plan set s) := by
  unfold choosePort
  extract_lets +onlyGivenNames x1
  clear_value x1
  refine KeepsP.ite ?_ ?_
  · split
    rename_i v2 v3 v4 v5
    refine Keeps.cut (p := Keeps 1074266112 s v3) (KeepsP.ofEq ?_ v5) (fun k6 => ?_)
    · clear v5
      refine KeepsP.step (takeFree_keeps ..) rfl ?_
      exact Keeps.refl
    clear v5
    extract_lets +onlyGivenNames x7
    clear_value x7
    refine KeepsP.mk ?_
    exact k6
  · split
    · rename_i v8 v9
      refine KeepsP.mk ?_
      exact Keeps.refl
    · rename_i v10 v11 v12
      refine KeepsP.mk ?_
      refine Keeps.step (setRte_keeps ..) rfl ?_
      exact Keeps.refl

theorem putBucket_keeps (b) (s : State) : Keeps 2097152 s (putBucket b s) := by
  unfold putBucket
  extract_lets +onlyGivenNames x1
  clear_value x1
  refine Keeps.ite ?_ ?_
  · refine Keeps.step (setQos_keeps ..) rfl ?_
    exact Keeps.refl
  · refine Keeps.step (setQos_keeps ..) rfl ?_
    exact Keeps.refl

theorem drainBucket_keeps (k) (tid) (a) (s : State) : Keeps 2149842944 s (drainBucket k tid a s) := by
  induction a generalizing k tid s
  · unfold drainBucket
    exact Keeps.refl
  · rename_i v1 v2
    unfold drainBucket
    extract_lets +onlyGivenNames x3
    clear_value x3
    split
    · rename_i v4 v5
      exact Keeps.refl
    · rename_i v6 v7 v8 v9
      extract_lets +onlyGivenNames x10
      clear_value x10
      refine Keeps.ite ?_ ?_
      · refine Keeps.step (v2 _ _ _) (Nat.or_self _) ?_
        refine Keeps.step (enqueue_keeps ..) rfl ?_
        refine Keeps.step (putBucket_keeps ..) rfl ?_
        exact Keeps.refl
      · exact Keeps.refl

theorem toPort_keeps (k) (tid) (plan) (p) (s : State) : Keeps 2149842944 s (toPort k tid plan p s) := by
  unfold toPort
  split
  · rename_i v1 v2
    refine Keeps.ite ?_ ?_
    · refine Keeps.step (enqueue_keeps ..) rfl ?_
      exact Keeps.refl
    · refine Keeps.ite ?_ ?_
      · extract_lets +onlyGivenNames x3
        clear_value x3
        refine Keeps.step (drainBucket_keeps ..) rfl ?_
        refine Keeps.step (putBucket_keeps ..) rfl ?_
        exact Keeps.refl
      · refine Keeps.step (enqueue_keeps ..) rfl ?_
        exact Keeps.refl
  · rename_i v4
    refine Keeps.step (enqueue_keeps ..) rfl ?_
    exact Keeps.refl

theorem modPeer_keeps (node) (prov) (f) (s : State) : Keeps 1048576 s (modPeer node prov f s) := by
  unfold modPeer
  refine Keeps.step (setE2e_keeps ..) rfl ?_
  exact Keeps.refl

theorem evictPeer_keeps (node) (prov) (s : State) : Keeps 1048576 s (evictPeer node prov s) := by
  unfold evictPeer
  refine Keeps.step (setE2e_keeps ..) rfl ?_
  exact Keeps.refl

theorem addPeer_keeps (p) (s : State) : Keeps 1048576 s (addPeer p s) := by
  unfold addPeer
  refine Keeps.step (setE2e_keeps ..) rfl ?_
  exact Keeps.refl

theorem newPeer_keeps (p) (s : State) : KeepsP 1048576 s (newPeer p s) := by
  unfold newPeer
  refine KeepsP.ite ?_ ?_
  · refine KeepsP.mk ?_
    refine Keeps.step (addPeer_keeps ..) rfl ?_
    exact Keeps.refl
  · split
    · rename_i v1 v2 v3
      refine KeepsP.mk ?_
      refine Keeps.step (addPeer_keeps ..) rfl ?_
      refine Keeps.step (evictPeer_keeps ..) rfl ?_
      exact Keeps.refl
    · rename_i v4 v5
      split
      · rename_i v6 v7 v8
        refine KeepsP.mk ?_
        refine Keeps.step (modPeer_keeps ..) rfl ?_
        exact Keeps.refl
      · rename_i v9 v10
        refine KeepsP.mk ?_
        exact Keeps.refl

theorem modSec_keeps (node) (f) (s : State) : Keeps 33554432 s (modSec node f s) := by
  unfold modSec
  refine Keeps.step (setSec_keeps ..) rfl ?_
  exact Keeps.refl

theorem transmit_keeps (p) (space) (q) (port) (s : State) : Keeps 3258187776 s (transmit p space q port s) := by
  unfold transmit
  extract_lets +onlyGivenNames x1
  clear_value x1
  extract_lets +onlyGivenNames x2
  clear_value x2
  extract_lets +onlyGivenNames x3
  clear_value x3
  split
  rename_i v4 v5 v6 v7
  refine Keeps.cut (p := Keeps 3258187776 s v5) (KeepsP.ofEq ?_ v7) (fun k8 => ?_)
  · clear v7
    refine KeepsP.ite ?_ ?_
    · refine KeepsP.step (takeFree_keeps ..) rfl ?_
      exact Keeps.refl
    · refine KeepsP.mk ?_
      exact Keeps.refl
  clear v7
  extract_lets +onlyGivenNames x9
  clear_value x9
  extract_lets +onlyGivenNames x10
  clear_value x10
  extract_lets +onlyGivenNames x11
  clear_value x11
  extract_lets +onlyGivenNames x12
  refine Keeps.cut (p := Keeps 3258187776 s x12) ?_ (fun k13 => ?_)
  · dsimp -zeta only [x12]
    refine Keeps.step (modPeer_keeps ..) rfl ?_
    exact k8
  clear_value x12
  extract_lets +onlyGivenNames x14
  refine Keeps.cut (p := Keeps 3258187776 s x14) ?_ (fun k15 => ?_)
  · dsimp -zeta only [x14]
    refine Keeps.ite ?_ ?_
    · refine Keeps.step (modSec_keeps ..) rfl ?_
      exact k13
    · exact k13
  clear_value x14
  split
  · rename_i v16 v17
    refine Keeps.step (toPort_keeps ..) rfl ?_
    exact k15
  · rename_i v18
    exact k15

theorem pumpSpaceN_keeps (node) (prov) (space) (a) (a1) (s : State) : Keeps 3262906432 s (pumpSpaceN node prov space a a1 s) := by
  induction a generalizing node prov space a1 s
  · unfold pumpSpaceN
    exact Keeps.refl
  · rename_i v1 v2
    unfold pumpSpaceN
    dsimp -zeta only
    split
    · rename_i v3 v4 v5 v6 v7 v8
      exact Keeps.refl
    · rename_i v9 v10 v11 v12 v13
      exact Keeps.refl
    · rename_i v14 v15 v16 v17 v18 v19 v20 v21
      subst_eqs
      split
      · rename_i v22 v23
        exact Keeps.refl
      · rename_i v24 v25 v26
        refine Keeps.ite ?_ ?_
        · refine Keeps.step (v2 _ _ _ _ _) (Nat.or_self _) ?_
          exact Keeps.refl
        · extract_lets +onlyGivenNames x27
          refine Keeps.cut (p := Keeps 3262906432 v14 x27) ?_ (fun k28 => ?_)
          · dsimp -zeta only [x27]
            refine Keeps.step (critRead00_keeps _) rfl ?_
            exact Keeps.refl
          clear_value x27
          refine Keeps.ite ?_ ?_
          · extract_lets +onlyGivenNames x29
            refine Keeps.cut (p := Keeps 3262906432 v14 x29) ?_ (fun k30 => ?_)
            · dsimp -zeta only [x29]
              refine Keeps.step (modPeer_keeps ..) rfl ?_
              refine KeepsP.fst ?_
              refine KeepsP.step (choosePort_keeps ..) rfl ?_
              exact k28
            clear_value x29
            refine Keeps.step (v2 _ _ _ _ _) (Nat.or_self _) ?_
            refine Keeps.step (transmit_keeps ..) rfl ?_
            exact k30
          · extract_lets +onlyGivenNames x31
            refine Keeps.cut (p := Keeps 3262906432 v14 x31) ?_ (fun k32 => ?_)
            · dsimp -zeta only [x31]
              refine Keeps.ite ?_ ?_
              · refine KeepsP.fst ?_
                refine KeepsP.step (choosePort_keeps ..) rfl ?_
                exact k28
              · refine Keeps.step (setQos_keeps ..) rfl ?_
                refine Keeps.step (modPeer_keeps ..) rfl ?_
                refine KeepsP.fst ?_
                refine KeepsP.step (choosePort_keeps ..) rfl ?_
                exact k28
            clear_value x31
            refine Keeps.step (v2 _ _ _ _ _) (Nat.or_self _) ?_
            exact k32

theorem pumpSpace_keeps (node) (prov) (space) (s : State) : Keeps 3262906432 s (pumpSpace node prov space s) := by
  unfold pumpSpace
  split
  · rename_i v1 v2
    exact Keeps.refl
  · rename_i v3 v4 v5
    refine Keeps.step (pumpSpaceN_keeps ..) rfl ?_
    exact Keeps.refl

theorem pumpPeer_keeps (node) (prov) (s : State) : Keeps 3262906432 s (pumpPeer node prov s) := by
  unfold pumpPeer
  extract_lets +onlyGivenNames x1
  refine Keeps.cut (p := Keeps 3262906432 s x1) ?_ (fun k2 => ?_)
  · dsimp -zeta only [x1]
    refine Keeps.step (pumpSpace_keeps ..) rfl ?_
    exact Keeps.refl
  clear_value x1
  refine Keeps.step (pumpSpace_keeps ..) rfl ?_
  refine Keeps.ite ?_ ?_
  · refine Keeps.step (pumpSpace_keeps ..) rfl ?_
    exact k2
  · exact k2

theorem sendQ_keeps (node) (prov) (space) (q) (s : State) : Keeps 3262906432 s (sendQ node prov space q s) := by
  unfold sendQ
  split
  rename_i v1 v2 v3 v4
  refine Keeps.cut (p := Keeps 3262906432 s v2) (KeepsP.ofEq ?_ v4) (fun k5 => ?_)
  · clear v4
    split
    · rename_i v6 v7 v8
      refine KeepsP.mk ?_
      exact Keeps.refl
    · rename_i v9 v10
      refine KeepsP.step (newPeer_keeps ..) rfl ?_
      exact Keeps.refl
  clear v4
  refine Keeps.ite ?_ ?_
  · refine Keeps.step (pumpPeer_keeps ..) rfl ?_
    refine Keeps.step (modPeer_keeps ..) rfl ?_
    exact k5
  · refine Keeps.step (setE2e_keeps ..) rfl ?_
    exact k5

theorem pumpWaitOut_keeps (s : State) : Keeps 3262906432 s (pumpWaitOut s) := by
  unfold pumpWaitOut
  refine Keeps.foldl (fun x1 a2 => ?_) ?_
  · refine Keeps.step (sendQ_keeps ..) rfl ?_
    exact Keeps.refl
  · refine Keeps.step (setE2e_keeps ..) rfl ?_
    exact Keeps.refl

theorem freshTag_keeps (s : State) : KeepsP 16384 s (freshTag s) := by
  unfold freshTag
  refine KeepsP.mk ?_
  refine Keeps.step (setCoh_keeps ..) rfl ?_
  exact Keeps.refl

theorem sendSpdm_keeps (node) (msg) (s : State) : Keeps 3262922816 s (sendSpdm node msg s) := by
  unfold sendSpdm
  split
  rename_i v1 v2 v3 v4
  refine Keeps.cut (p := Keeps 3262922816 s v2) (KeepsP.ofEq ?_ v4) (fun k5 => ?_)
  · clear v4
    refine KeepsP.step (freshTag_keeps ..) rfl ?_
    exact Keeps.refl
  clear v4
  refine Keeps.step (sendQ_keeps ..) rfl ?_
  exact k5

theorem openSession_keeps (node) (s : State) : Keeps 3262922816 s (openSession node s) := by
  unfold openSession
  split
  · rename_i v1 v2 v3
    refine Keeps.ite ?_ ?_
    · refine Keeps.step (sendSpdm_keeps ..) rfl ?_
      refine Keeps.step (modSec_keeps ..) rfl ?_
      exact Keeps.refl
    · exact Keeps.refl
  · rename_i v4 v5
    refine Keeps.ite ?_ ?_
    · refine Keeps.step (sendSpdm_keeps ..) rfl ?_
      refine Keeps.step (modSec_keeps ..) rfl ?_
      exact Keeps.refl
    · exact Keeps.refl

theorem sendMsg_keeps (node) (space) (q) (s : State) : Keeps 3262922816 s (sendMsg node space q s) := by
  unfold sendMsg
  refine Keeps.ite ?_ ?_
  · refine Keeps.step (sendQ_keeps ..) rfl ?_
    exact Keeps.refl
  · refine Keeps.ite ?_ ?_
    · refine Keeps.step (setSec_keeps ..) rfl ?_
      exact Keeps.refl
    · refine Keeps.step (openSession_keeps ..) rfl ?_
      refine Keeps.step (setSec_keeps ..) rfl ?_
      exact Keeps.refl

theorem flushToOpen_keeps (node) (s : State) : Keeps 3262906432 s (flushToOpen node s) := by
  unfold flushToOpen
  refine Keeps.foldl (fun x1 a2 => ?_) ?_
  · refine Keeps.step (sendQ_keeps ..) rfl ?_
    exact Keeps.refl
  · refine Keeps.step (setSec_keeps ..) rfl ?_
    exact Keeps.refl

theorem event_keeps (node) (evt) (st) (tid) (obj) (r0) (r1) (r2) (s : State) : Keeps 3262922816 s (event node evt st tid obj r0 r1 r2 s) := by
  unfold event
  refine Keeps.step (sendMsg_keeps ..) rfl ?_
  exact Keeps.refl

theorem fanOut_keeps (grants) (evt) (st) (tid) (obj) (r0) (r1) (r2) (s : State) : Keeps 3262922816 s (fanOut grants evt st tid obj r0 r1 r2 s) := by
  unfold fanOut
  refine Keeps.foldl (fun x1 a2 => ?_) ?_
  · refine Keeps.step (event_keeps ..) rfl ?_
    exact Keeps.refl
  · exact Keeps.refl

end Sys2Proof.Machine
end

