-- ==== Sys2Proof/Laws/KeepsOperands.lean ====
section
/-! SUPPORT. What each operation of Machine/Operands.lean can touch, that it goes onward and that it keeps the invariant. -/

namespace Sys2Proof.Machine

theorem modRegion_keeps (i) (f) (s : State) : Keeps 2048 s (modRegion i f s) := by
  unfold modRegion
  refine Keeps.step (setPool_keeps ..) rfl ?_
  exact Keeps.refl

theorem modWindow_keeps (i) (f) (s : State) : Keeps 2048 s (modWindow i f s) := by
  unfold modWindow
  refine Keeps.step (setPool_keeps ..) rfl ?_
  exact Keeps.refl

theorem modAnchor_keeps (i) (f) (s : State) : Keeps 2048 s (modAnchor i f s) := by
  unfold modAnchor
  refine Keeps.step (setPool_keeps ..) rfl ?_
  exact Keeps.refl

theorem modSlot_keeps (g) (k) (f) (s : State) : Keeps 2048 s (modSlot g k f s) := by
  unfold modSlot
  refine Keeps.step (modRegion_keeps ..) rfl ?_
  exact Keeps.refl

theorem renewLease_keeps (g) (node) (s : State) : Keeps 2048 s (renewLease g node s) := by
  unfold renewLease
  split
  · rename_i v1 v2 v3
    refine Keeps.step (modSlot_keeps ..) rfl ?_
    exact Keeps.refl
  · rename_i v4 v5
    exact Keeps.refl

theorem leaseArrival_keeps (r) (s : State) : Keeps 2048 s (leaseArrival r s) := by
  unfold leaseArrival
  split
  · rename_i v1 v2 v3
    refine Keeps.step (renewLease_keeps ..) rfl ?_
    exact Keeps.refl
  · rename_i v4 v5
    exact Keeps.refl

theorem useIndex_keeps (tab) (idx) (gen) (s : State) : Keeps 2048 s (useIndex tab idx gen s) := by
  unfold useIndex
  extract_lets +onlyGivenNames x1
  clear_value x1
  refine Keeps.step (setPool_keeps ..) rfl ?_
  exact Keeps.refl

theorem freeIndex_keeps (tab) (idx) (s : State) : Keeps 2048 s (freeIndex tab idx s) := by
  unfold freeIndex
  refine Keeps.step (setPool_keeps ..) rfl ?_
  exact Keeps.refl

end Sys2Proof.Machine
end

