-- ==== Sys2Proof/Laws/KeepsFail.lean ====
section
/-! SUPPORT. What each operation of Machine/Fail.lean can touch, that it goes onward and that it keeps the invariant. -/

namespace Sys2Proof.Machine

theorem countStatus_keeps (st) (s : State) : Keeps 4096 s (countStatus st s) := by
  unfold countStatus
  split
  · rename_i v1
    refine Keeps.step (setVrb_keeps ..) rfl ?_
    exact Keeps.refl
  · rename_i v2
    refine Keeps.step (setVrb_keeps ..) rfl ?_
    exact Keeps.refl
  · rename_i v3 v4 v5
    exact Keeps.refl

theorem sendRespAs_keeps (ctx) (prov) (r) (p) (s : State) : Keeps 3262910528 s (sendRespAs ctx prov r p s) := by
  unfold sendRespAs
  refine Keeps.step (sendQ_keeps ..) rfl ?_
  refine Keeps.step (countStatus_keeps ..) rfl ?_
  exact Keeps.refl

theorem sendResp_keeps (prov) (r) (p) (s : State) : Keeps 3262910528 s (sendResp prov r p s) := by
  unfold sendResp
  refine Keeps.step (sendRespAs_keeps ..) rfl ?_
  exact Keeps.refl

theorem answerAt_keeps (since) (r) (p) (s : State) : Keeps 3262910528 s (answerAt since r p s) := by
  unfold answerAt
  refine Keeps.ite ?_ ?_
  · extract_lets +onlyGivenNames x1
    clear_value x1
    refine Keeps.ite ?_ ?_
    · refine Keeps.step (sendResp_keeps ..) rfl ?_
      refine Keeps.step (setQos_keeps ..) rfl ?_
      exact Keeps.refl
    · refine Keeps.step (setQos_keeps ..) rfl ?_
      refine Keeps.step (countStatus_keeps ..) rfl ?_
      exact Keeps.refl
  · refine Keeps.step (sendResp_keeps ..) rfl ?_
    exact Keeps.refl

theorem answer_keeps (since) (r) (st) (s : State) : Keeps 3262910528 s (answer since r st s) := by
  unfold answer
  refine Keeps.step (answerAt_keeps ..) rfl ?_
  exact Keeps.refl

theorem dropLoading_keeps (w) (s : State) : Keeps 65536 s (dropLoading w s) := by
  unfold dropLoading
  refine Keeps.step (setWs_keeps ..) rfl ?_
  exact Keeps.refl

theorem complete_keeps (w) (p) (s : State) : Keeps 3262976064 s (complete w p s) := by
  unfold complete
  refine Keeps.step (answerAt_keeps ..) rfl ?_
  refine Keeps.step (dropLoading_keeps ..) rfl ?_
  refine Keeps.step (setVrb_keeps ..) rfl ?_
  exact Keeps.refl

theorem completeSt_keeps (w) (st) (s : State) : Keeps 3262976064 s (completeSt w st s) := by
  unfold completeSt
  refine Keeps.step (complete_keeps ..) rfl ?_
  exact Keeps.refl

theorem completeAll_keeps (p) (st) (s : State) : Keeps 3262976064 s (completeAll p st s) := by
  unfold completeAll
  refine Keeps.foldl (fun x1 a2 => ?_) ?_
  · refine Keeps.step (completeSt_keeps ..) rfl ?_
    exact Keeps.refl
  · exact Keeps.refl

theorem undefBytes_keeps (pa) (d) (s : State) : Keeps 8589934592 s (undefBytes pa d s) := by
  unfold undefBytes
  refine Keeps.step (setMem_keeps _ _ (fun _ h => memWriteL_wf _ _ h)) rfl ?_
  exact Keeps.refl

theorem undefAt_keeps (g) (o) (len) (s : State) : Keeps 9663676416 s (undefAt g o len s) := by
  unfold undefAt
  refine Keeps.foldl (fun x1 a2 => ?_) ?_
  · refine Keeps.ite ?_ ?_
    · exact Keeps.refl
    · split
      · rename_i v3 v4 v5
        split
        rename_i v6 v7 v8 v9
        refine Keeps.cut (p := Keeps 9663676416 x1 v7) (KeepsP.ofEq ?_ v9) (fun k10 => ?_)
        · clear v9
          refine KeepsP.step (freeBytes_keeps ..) rfl ?_
          exact Keeps.refl
        clear v9
        extract_lets +onlyGivenNames x11
        refine Keeps.cut (p := Keeps 9663676416 x1 x11) ?_ (fun k12 => ?_)
        · dsimp -zeta only [x11]
          refine Keeps.step (undefBytes_keeps ..) rfl ?_
          exact k10
        clear_value x11
        refine Keeps.ite ?_ ?_
        · refine Keeps.step (undefBytes_keeps ..) rfl ?_
          exact k12
        · exact k12
      · rename_i v13 v14
        exact Keeps.refl
  · exact Keeps.refl

theorem undefOut_keeps (w) (s : State) : Keeps 9663676416 s (undefOut w s) := by
  unfold undefOut
  split
  · rename_i v1 v2
    exact Keeps.refl
  · rename_i v3 v4 v5 v6 v7 v8
    split
    · rename_i v9 v10 v11
      refine Keeps.step (undefAt_keeps ..) rfl ?_
      exact Keeps.refl
    · rename_i v12 v13
      exact Keeps.refl

theorem failResp_keeps (w) (st) (s : State) : KeepsP 1073741824 s (failResp w st s) := by
  unfold failResp
  split
  · rename_i v1 v2
    refine KeepsP.mk ?_
    exact Keeps.refl
  · rename_i v3 v4 v5 v6 v7 v8
    split
    · rename_i v9 v10 v11 v12
      refine KeepsP.mk ?_
      exact Keeps.refl
    · rename_i v13 v14
      split
      rename_i v15 v16 v17 v18
      refine Keeps.cut (p := Keeps 1073741824 s v16) (KeepsP.ofEq ?_ v18) (fun k19 => ?_)
      · clear v18
        refine KeepsP.step (takeFree_keeps ..) rfl ?_
        exact Keeps.refl
      clear v18
      refine KeepsP.mk ?_
      exact k19

theorem failAll_keeps (p) (st) (s : State) : Keeps 3262976064 s (failAll p st s) := by
  unfold failAll
  refine Keeps.foldl (fun x1 a2 => ?_) ?_
  · split
    rename_i v3 v4 v5 v6
    refine Keeps.cut (p := Keeps 3262976064 x1 v4) (KeepsP.ofEq ?_ v6) (fun k7 => ?_)
    · clear v6
      refine KeepsP.step (failResp_keeps ..) rfl ?_
      exact Keeps.refl
    clear v6
    refine Keeps.step (complete_keeps ..) rfl ?_
    exact k7
  · exact Keeps.refl

theorem undefAll_keeps (p) (s : State) : Keeps 9663676416 s (undefAll p s) := by
  unfold undefAll
  refine Keeps.foldl (fun x1 a2 => ?_) ?_
  · refine Keeps.step (undefOut_keeps ..) rfl ?_
    exact Keeps.refl
  · exact Keeps.refl

theorem modEng_keeps (n) (f) (s : State) : Keeps 32768 s (modEng n f s) := by
  unfold modEng
  extract_lets +onlyGivenNames x1
  clear_value x1
  refine Keeps.step (setFe_keeps ..) rfl ?_
  exact Keeps.refl

theorem modPlan_keeps (i) (f) (s : State) : Keeps 32768 s (modPlan i f s) := by
  unfold modPlan
  refine Keeps.step (setFe_keeps ..) rfl ?_
  exact Keeps.refl

theorem abortRun_keeps (i) (st) (eng) (s : State) : Keeps 3263008832 s (abortRun i st eng s) := by
  unfold abortRun
  split
  · rename_i v1 v2
    exact Keeps.refl
  · rename_i v3 v4 v5
    split
    · rename_i v6 v7
      exact Keeps.refl
    · rename_i v8 v9 v10
      extract_lets +onlyGivenNames x11
      refine Keeps.cut (p := Keeps 3263008832 s x11) ?_ (fun k12 => ?_)
      · dsimp -zeta only [x11]
        refine Keeps.foldl (fun x13 a14 => ?_) ?_
        · refine Keeps.step (modEng_keeps ..) rfl ?_
          exact Keeps.refl
        · exact Keeps.refl
      clear_value x11
      extract_lets +onlyGivenNames x15
      refine Keeps.cut (p := Keeps 3263008832 s x15) ?_ (fun k16 => ?_)
      · dsimp -zeta only [x15]
        refine Keeps.step (setFe_keeps ..) rfl ?_
        refine Keeps.step (modPlan_keeps ..) rfl ?_
        exact k12
      clear_value x15
      extract_lets +onlyGivenNames x17
      clear_value x17
      refine Keeps.foldl (fun x18 a19 => ?_) ?_
      · refine Keeps.step (complete_keeps ..) rfl ?_
        exact Keeps.refl
      · exact k16

theorem engineLeaves_keeps (n) (kind) (s : State) : Keeps 3263025216 s (engineLeaves n kind s) := by
  unfold engineLeaves
  refine Keeps.ite ?_ ?_
  · exact Keeps.refl
  · refine Keeps.foldl (fun x1 a2 => ?_) ?_
    · refine Keeps.step (abortRun_keeps ..) rfl ?_
      refine Keeps.step (event_keeps ..) rfl ?_
      exact Keeps.refl
    · refine Keeps.step (modEng_keeps ..) rfl ?_
      exact Keeps.refl

theorem engineRec_keeps (n) (kind) (tid) (s : State) : Keeps 2147483712 s (engineRec n kind tid s) := by
  unfold engineRec
  refine Keeps.step (cairnAt_keeps ..) rfl ?_
  exact Keeps.refl

theorem engineOut_keeps (n) (kind) (s : State) : Keeps 3263025216 s (engineOut n kind s) := by
  unfold engineOut
  refine Keeps.ite ?_ ?_
  · exact Keeps.refl
  · extract_lets +onlyGivenNames x1
    clear_value x1
    refine Keeps.step (engineLeaves_keeps ..) rfl ?_
    refine Keeps.step (engineRec_keeps ..) rfl ?_
    exact Keeps.refl

theorem mirrorMsg_keeps (node) (opcode) (tid) (tag) (flags) (op0) (op1) (va) (subop) (payload) (s : State) : Keeps 3262924864 s (mirrorMsg node opcode tid tag flags op0 op1 va subop payload s) := by
  unfold mirrorMsg
  refine Keeps.step (sendMsg_keeps ..) rfl ?_
  refine Keeps.ite ?_ ?_
  · refine Keeps.step (setPool_keeps ..) rfl ?_
    exact Keeps.refl
  · exact Keeps.refl

theorem fenceRegion_keeps (i) (s : State) : Keeps 3262986304 s (fenceRegion i s) := by
  unfold fenceRegion
  extract_lets +onlyGivenNames x1
  clear_value x1
  extract_lets +onlyGivenNames x2
  refine Keeps.cut (p := Keeps 3262986304 s x2) ?_ (fun k3 => ?_)
  · dsimp -zeta only [x2]
    refine Keeps.step (modRegion_keeps ..) rfl ?_
    exact Keeps.refl
  clear_value x2
  extract_lets +onlyGivenNames x4
  refine Keeps.cut (p := Keeps 3262986304 s x4) ?_ (fun k5 => ?_)
  · dsimp -zeta only [x4]
    refine Keeps.step (cairnAt_keeps ..) rfl ?_
    exact k3
  clear_value x4
  extract_lets +onlyGivenNames x6
  refine Keeps.cut (p := Keeps 3262986304 s x6) ?_ (fun k7 => ?_)
  · dsimp -zeta only [x6]
    refine Keeps.step (setBulk_keeps ..) rfl ?_
    exact k5
  clear_value x6
  refine Keeps.step (failAll_keeps ..) rfl ?_
  exact k7

theorem handoffPrimary_keeps (g) (s : State) : Keeps 3263002688 s (handoffPrimary g s) := by
  unfold handoffPrimary
  refine Keeps.ite ?_ ?_
  · refine Keeps.step (fenceRegion_keeps ..) rfl ?_
    refine Keeps.step (modRegion_keeps ..) rfl ?_
    refine Keeps.step (mirrorMsg_keeps ..) rfl ?_
    exact Keeps.refl
  · exact Keeps.refl

theorem handoffRegion_keeps (g) (s : State) : Keeps 3263002688 s (handoffRegion g s) := by
  unfold handoffRegion
  refine Keeps.ite ?_ ?_
  · refine Keeps.step (modRegion_keeps ..) rfl ?_
    refine Keeps.step (mirrorMsg_keeps ..) rfl ?_
    exact Keeps.refl
  · refine Keeps.step (handoffPrimary_keeps ..) rfl ?_
    exact Keeps.refl

theorem loseExtents_keeps (k) (g) (s : State) : Keeps 3262924864 s (loseExtents k g s) := by
  unfold loseExtents
  refine Keeps.foldl (fun x1 a2 => ?_) ?_
  · split
    rename_i v3 v4 v5
    refine Keeps.ite ?_ ?_
    · extract_lets +onlyGivenNames x6
      refine Keeps.cut (p := Keeps 3262924864 x1 x6) ?_ (fun k7 => ?_)
      · dsimp -zeta only [x6]
        refine Keeps.step (modRegion_keeps ..) rfl ?_
        exact Keeps.refl
      clear_value x6
      refine Keeps.step (fanOut_keeps ..) rfl ?_
      refine Keeps.step (cairnAt_keeps ..) rfl ?_
      exact k7
    · refine Keeps.ite ?_ ?_
      · refine Keeps.step (modRegion_keeps ..) rfl ?_
        exact Keeps.refl
      · exact Keeps.refl
  · exact Keeps.refl

theorem loseLines_keeps (s : State) : Keeps 3262992448 s (loseLines s) := by
  unfold loseLines
  extract_lets +onlyGivenNames x1
  extract_lets +onlyGivenNames x2
  refine Keeps.cut (p := Keeps 3262992448 s x2) ?_ (fun k3 => ?_)
  · dsimp -zeta only [x2]
    refine Keeps.step (setCoh_keeps ..) rfl ?_
    exact Keeps.refl
  clear_value x2
  refine Keeps.step (completeAll_keeps ..) rfl ?_
  exact k3

theorem loseSets_keeps (k) (s : State) : Keeps 3262988352 s (loseSets k s) := by
  unfold loseSets
  refine Keeps.foldl (fun x1 a2 => ?_) ?_
  · extract_lets +onlyGivenNames x3
    refine Keeps.cut (p := Keeps 3262988352 x1 x3) ?_ (fun k4 => ?_)
    · dsimp -zeta only [x3]
      refine Keeps.step (setWs_keeps ..) rfl ?_
      exact Keeps.refl
    clear_value x3
    refine Keeps.foldl (fun x5 a6 => ?_) ?_
    · refine Keeps.step (event_keeps ..) rfl ?_
      exact Keeps.refl
    · exact k4
  · exact Keeps.refl

theorem loseKv_keeps (idx) (stack) (pages) (s : State) : Keeps 3263053888 s (loseKv idx stack pages s) := by
  unfold loseKv
  split
  · rename_i v1 v2
    exact Keeps.refl
  · rename_i v3 v4 v5
    refine Keeps.ite ?_ ?_
    · exact Keeps.refl
    · refine Keeps.step (event_keeps ..) rfl ?_
      refine Keeps.step (setKv_keeps ..) rfl ?_
      exact Keeps.refl

theorem loseObjs_keeps (k) (s : State) : Keeps 3263053888 s (loseObjs k s) := by
  unfold loseObjs
  refine Keeps.foldl (fun x1 a2 => ?_) ?_
  · refine Keeps.step (loseKv_keeps ..) rfl ?_
    exact Keeps.refl
  · exact Keeps.refl

theorem enginesLeave_keeps (k) (s : State) : Keeps 20442894400 s (enginesLeave k s) := by
  unfold enginesLeave
  refine Keeps.ite ?_ ?_
  · extract_lets +onlyGivenNames x1
    refine Keeps.cut (p := Keeps 20442894400 s x1) ?_ (fun k2 => ?_)
    · dsimp -zeta only [x1]
      refine Keeps.foldl (fun x3 a4 => ?_) ?_
      · refine Keeps.step (engineLeaves_keeps ..) rfl ?_
        exact Keeps.refl
      · refine Keeps.step (engineRec_keeps ..) rfl ?_
        exact Keeps.refl
    clear_value x1
    refine Keeps.step (modStack_keeps ..) rfl ?_
    exact k2
  · exact Keeps.refl

theorem stackFail_keeps (k) (row) (s : State) : Keeps 20451424353 s (stackFail k row s) := by
  unfold stackFail
  extract_lets +onlyGivenNames x1
  clear_value x1
  refine Keeps.ite ?_ ?_
  · exact Keeps.refl
  · extract_lets +onlyGivenNames x2
    refine Keeps.cut (p := Keeps 20451424353 s x2) ?_ (fun k3 => ?_)
    · dsimp -zeta only [x2]
      refine Keeps.step (completeAll_keeps ..) rfl ?_
      exact Keeps.refl
    clear_value x2
    extract_lets +onlyGivenNames x4
    refine Keeps.cut (p := Keeps 20451424353 s x4) ?_ (fun k5 => ?_)
    · dsimp -zeta only [x4]
      refine Keeps.step (modStack_keeps ..) rfl ?_
      exact k3
    clear_value x4
    extract_lets +onlyGivenNames x6
    refine Keeps.cut (p := Keeps 20451424353 s x6) ?_ (fun k7 => ?_)
    · dsimp -zeta only [x6]
      refine Keeps.step (setPwr_keeps ..) rfl ?_
      exact k5
    clear_value x6
    extract_lets +onlyGivenNames x8
    refine Keeps.cut (p := Keeps 20451424353 s x8) ?_ (fun k9 => ?_)
    · dsimp -zeta only [x8]
      refine Keeps.step (setIsl_keeps ..) rfl ?_
      exact k7
    clear_value x8
    extract_lets +onlyGivenNames x10
    refine Keeps.cut (p := Keeps 20451424353 s x10) ?_ (fun k11 => ?_)
    · dsimp -zeta only [x10]
      refine Keeps.step (cairnAt_keeps ..) rfl ?_
      exact k9
    clear_value x10
    extract_lets +onlyGivenNames x12
    clear_value x12
    extract_lets +onlyGivenNames x13
    refine Keeps.cut (p := Keeps 20451424353 s x13) ?_ (fun k14 => ?_)
    · dsimp -zeta only [x13]
      refine Keeps.foldl (fun x15 a16 => ?_) ?_
      · refine Keeps.step (loseExtents_keeps ..) rfl ?_
        exact Keeps.refl
      · exact k11
    clear_value x13
    extract_lets +onlyGivenNames x17
    refine Keeps.cut (p := Keeps 20451424353 s x17) ?_ (fun k18 => ?_)
    · dsimp -zeta only [x17]
      refine Keeps.foldl (fun x19 a20 => ?_) ?_
      · refine Keeps.step (handoffRegion_keeps ..) rfl ?_
        exact Keeps.refl
      · exact k14
    clear_value x17
    extract_lets +onlyGivenNames x21
    refine Keeps.cut (p := Keeps 20451424353 s x21) ?_ (fun k22 => ?_)
    · dsimp -zeta only [x21]
      refine Keeps.step (setPool_keeps ..) rfl ?_
      exact k18
    clear_value x21
    extract_lets +onlyGivenNames x23
    refine Keeps.cut (p := Keeps 20451424353 s x23) ?_ (fun k24 => ?_)
    · dsimp -zeta only [x23]
      refine Keeps.step (loseLines_keeps ..) rfl ?_
      exact k22
    clear_value x23
    extract_lets +onlyGivenNames x25
    refine Keeps.cut (p := Keeps 20451424353 s x25) ?_ (fun k26 => ?_)
    · dsimp -zeta only [x25]
      refine Keeps.step (enginesLeave_keeps ..) rfl ?_
      exact k24
    clear_value x25
    extract_lets +onlyGivenNames x27
    refine Keeps.cut (p := Keeps 20451424353 s x27) ?_ (fun k28 => ?_)
    · dsimp -zeta only [x27]
      refine Keeps.step (loseObjs_keeps ..) rfl ?_
      refine Keeps.step (loseSets_keeps ..) rfl ?_
      exact k26
    clear_value x27
    refine Keeps.step (setTrv_keeps ..) rfl ?_
    exact k28

end Sys2Proof.Machine
end

