-- ==== Sys2Proof/Laws/KeepsDram.lean ====
section
/-! SUPPORT. What each operation of Machine/Dram.lean can touch, that it goes onward and that it keeps the invariant. -/

namespace Sys2Proof.Machine

theorem setPat_keeps (line) (p) (s : State) : Keeps 4194304 s (setPat line p s) := by
  unfold setPat
  refine Keeps.step (setEcc_keeps ..) rfl ?_
  exact Keeps.refl

theorem applyUpsets_keeps (u) (s : State) : Keeps 4194304 s (applyUpsets u s) := by
  unfold applyUpsets
  refine Keeps.foldl (fun x1 a2 => ?_) ?_
  · refine Keeps.ite ?_ ?_
    · refine Keeps.step (setPat_keeps ..) rfl ?_
      exact Keeps.refl
    · exact Keeps.refl
  · exact Keeps.refl

theorem applyEnv_keeps (e) (s : State) : Keeps 943718400 s (applyEnv e s) := by
  unfold applyEnv
  refine Keeps.step (applyUpsets_keeps ..) rfl ?_
  refine Keeps.step (atTime_keeps ..) rfl ?_
  exact Keeps.refl

theorem eraseLane_keeps (stack) (pch) (lane) (s : State) : Keeps 20451424353 s (eraseLane stack pch lane s) := by
  unfold eraseLane
  split
  · rename_i v1 v2 v3
    refine Keeps.ite ?_ ?_
    · exact Keeps.refl
    · refine Keeps.step (stackFail_keeps ..) rfl ?_
      exact Keeps.refl
  · rename_i v4 v5
    refine Keeps.step (cairnAt_keeps ..) rfl ?_
    refine Keeps.step (modStack_keeps ..) rfl ?_
    exact Keeps.refl

theorem laneHit_keeps (stack) (pch) (syms) (s : State) : Keeps 20451424353 s (laneHit stack pch syms s) := by
  unfold laneHit
  refine Keeps.foldl (fun x1 a2 => ?_) ?_
  · extract_lets +onlyGivenNames x3
    clear_value x3
    extract_lets +onlyGivenNames x4
    clear_value x4
    extract_lets +onlyGivenNames x5
    refine Keeps.cut (p := Keeps 20451424353 x1 x5) ?_ (fun k6 => ?_)
    · dsimp -zeta only [x5]
      refine Keeps.step (modStack_keeps ..) rfl ?_
      exact Keeps.refl
    clear_value x5
    refine Keeps.ite ?_ ?_
    · refine Keeps.step (eraseLane_keeps ..) rfl ?_
      exact k6
    · exact k6
  · exact Keeps.refl

theorem logCe_keeps (pa) (src) (n) (s : State) : Keeps 4194304 s (logCe pa src n s) := by
  unfold logCe
  extract_lets +onlyGivenNames x1
  clear_value x1
  extract_lets +onlyGivenNames x2
  clear_value x2
  split
  · rename_i v3 v4 v5
    refine Keeps.step (setEcc_keeps ..) rfl ?_
    exact Keeps.refl
  · rename_i v6 v7
    extract_lets +onlyGivenNames x8
    clear_value x8
    refine Keeps.ite ?_ ?_
    · refine Keeps.step (setEcc_keeps ..) rfl ?_
      exact Keeps.refl
    · split
      · rename_i v9 v10 v11
        refine Keeps.step (setEcc_keeps ..) rfl ?_
        exact Keeps.refl
      · rename_i v12 v13
        exact Keeps.refl

theorem stackBucket_keeps (stack) (s : State) : Keeps 19327352896 s (stackBucket stack s) := by
  unfold stackBucket
  refine Keeps.ite ?_ ?_
  · exact Keeps.refl
  · extract_lets +onlyGivenNames x1
    clear_value x1
    extract_lets +onlyGivenNames x2
    clear_value x2
    refine Keeps.ite ?_ ?_
    · extract_lets +onlyGivenNames x3
      refine Keeps.cut (p := Keeps 19327352896 s x3) ?_ (fun k4 => ?_)
      · dsimp -zeta only [x3]
        refine Keeps.step (modStack_keeps ..) rfl ?_
        exact Keeps.refl
      clear_value x3
      refine Keeps.ite ?_ ?_
      · refine Keeps.step (cairnAlert_keeps ..) rfl ?_
        refine Keeps.step (modStack_keeps ..) rfl ?_
        exact k4
      · exact k4
    · refine Keeps.step (modStack_keeps ..) rfl ?_
      exact Keeps.refl

theorem attributeCe_keeps (pa) (s : State) : Keeps 4194304 s (attributeCe pa s) := by
  unfold attributeCe
  split
  · rename_i v1 v2 v3 v4 v5
    refine Keeps.step (setEcc_keeps ..) rfl ?_
    exact Keeps.refl
  · rename_i v6 v7
    exact Keeps.refl

theorem ceEvent_keeps (src) (pa) (syms) (s : State) : Keeps 20451424353 s (ceEvent src pa syms s) := by
  unfold ceEvent
  extract_lets +onlyGivenNames x1
  clear_value x1
  extract_lets +onlyGivenNames x2
  clear_value x2
  extract_lets +onlyGivenNames x3
  refine Keeps.cut (p := Keeps 20451424353 s x3) ?_ (fun k4 => ?_)
  · dsimp -zeta only [x3]
    refine Keeps.step (modStack_keeps ..) rfl ?_
    exact Keeps.refl
  clear_value x3
  refine Keeps.step (laneHit_keeps ..) rfl ?_
  refine Keeps.step (attributeCe_keeps ..) rfl ?_
  refine Keeps.step (stackBucket_keeps ..) rfl ?_
  refine Keeps.step (logCe_keeps ..) rfl ?_
  exact k4

theorem lineData_keeps (pa) (left) (s : State) : KeepsP 1073741824 s (lineData pa left s) := by
  unfold lineData
  extract_lets +onlyGivenNames x1
  clear_value x1
  extract_lets +onlyGivenNames x2
  clear_value x2
  extract_lets +onlyGivenNames x3
  clear_value x3
  refine KeepsP.ite ?_ ?_
  · refine KeepsP.mk ?_
    exact Keeps.refl
  · refine KeepsP.ite ?_ ?_
    · refine KeepsP.mk ?_
      exact Keeps.refl
    · split
      rename_i v4 v5 v6 v7
      refine Keeps.cut (p := Keeps 1073741824 s v5) (KeepsP.ofEq ?_ v7) (fun k8 => ?_)
      · clear v7
        refine KeepsP.step (freeBytes_keeps ..) rfl ?_
        exact Keeps.refl
      clear v7
      refine KeepsP.mk ?_
      exact k8

theorem touchStack_keeps (k) (s : State) : Keeps 17179869184 s (touchStack k s) := by
  unfold touchStack
  refine Keeps.step (modStack_keeps ..) rfl ?_
  exact Keeps.refl

theorem readQueue_keeps (pa) (s : State) : Keeps 17179869184 s (readQueue pa s) := by
  unfold readQueue
  extract_lets +onlyGivenNames x1
  clear_value x1
  extract_lets +onlyGivenNames x2
  refine Keeps.cut (p := Keeps 17179869184 s x2) ?_ (fun k3 => ?_)
  · dsimp -zeta only [x2]
    refine Keeps.step (touchStack_keeps ..) rfl ?_
    exact Keeps.refl
  clear_value x2
  refine Keeps.step (modStack_keeps ..) rfl ?_
  exact k3

theorem writeQueue_keeps (pa) (s : State) : Keeps 17179869184 s (writeQueue pa s) := by
  unfold writeQueue
  extract_lets +onlyGivenNames x1
  clear_value x1
  extract_lets +onlyGivenNames x2
  refine Keeps.cut (p := Keeps 17179869184 s x2) ?_ (fun k3 => ?_)
  · dsimp -zeta only [x2]
    refine Keeps.step (touchStack_keeps ..) rfl ?_
    exact Keeps.refl
  clear_value x2
  refine Keeps.step (modStack_keeps ..) rfl ?_
  exact k3

theorem readLine_keeps (src) (pa) (s : State) : KeepsP 29041358945 s (readLine src pa s) := by
  unfold readLine
  extract_lets +onlyGivenNames x1
  clear_value x1
  extract_lets +onlyGivenNames x2
  clear_value x2
  extract_lets +onlyGivenNames x3
  clear_value x3
  extract_lets +onlyGivenNames x4
  refine Keeps.cut (p := Keeps 29041358945 s x4) ?_ (fun k5 => ?_)
  · dsimp -zeta only [x4]
    refine Keeps.step (readQueue_keeps ..) rfl ?_
    exact Keeps.refl
  clear_value x4
  extract_lets +onlyGivenNames x6
  clear_value x6
  split
  · rename_i v7 v8 v9
    split
    rename_i v10 v11 v12 v13
    refine Keeps.cut (p := Keeps 29041358945 s v11) (KeepsP.ofEq ?_ v13) (fun k14 => ?_)
    · clear v13
      refine KeepsP.step (lineData_keeps ..) rfl ?_
      exact k5
    clear v13
    refine KeepsP.mk ?_
    exact k14
  · rename_i v15 v16 v17 v18
    split
    rename_i v19 v20 v21 v22
    refine Keeps.cut (p := Keeps 29041358945 s v20) (KeepsP.ofEq ?_ v22) (fun k23 => ?_)
    · clear v22
      refine KeepsP.step (lineData_keeps ..) rfl ?_
      exact k5
    clear v22
    extract_lets +onlyGivenNames x24
    refine Keeps.cut (p := Keeps 29041358945 s x24) ?_ (fun k25 => ?_)
    · dsimp -zeta only [x24]
      refine Keeps.step (ceEvent_keeps ..) rfl ?_
      exact k23
    clear_value x24
    extract_lets +onlyGivenNames x26
    clear_value x26
    extract_lets +onlyGivenNames x27
    refine Keeps.cut (p := Keeps 29041358945 s x27) ?_ (fun k28 => ?_)
    · dsimp -zeta only [x27]
      refine Keeps.ite ?_ ?_
      · refine Keeps.step (setPat_keeps ..) rfl ?_
        refine Keeps.step (setMem_keeps _ _ (fun _ h => memWriteL_wf _ _ h)) rfl ?_
        exact k25
      · exact k25
    clear_value x27
    refine KeepsP.mk ?_
    exact k28
  · rename_i v29 v30
    refine KeepsP.mk ?_
    refine Keeps.step (modStack_keeps ..) rfl ?_
    exact k5
  · rename_i v31 v32
    split
    rename_i v33 v34 v35 v36
    refine Keeps.cut (p := Keeps 29041358945 s v34) (KeepsP.ofEq ?_ v36) (fun k37 => ?_)
    · clear v36
      refine KeepsP.step (lineData_keeps ..) rfl ?_
      exact k5
    clear v36
    extract_lets +onlyGivenNames x38
    refine Keeps.cut (p := Keeps 29041358945 s x38) ?_ (fun k39 => ?_)
    · dsimp -zeta only [x38]
      refine Keeps.step (setPat_keeps ..) rfl ?_
      refine Keeps.step (setMem_keeps _ _ (fun _ h => memWriteL_wf _ _ h)) rfl ?_
      exact k37
    clear_value x38
    extract_lets +onlyGivenNames x40
    refine Keeps.cut (p := Keeps 29041358945 s x40) ?_ (fun k41 => ?_)
    · dsimp -zeta only [x40]
      refine Keeps.step (modStack_keeps ..) rfl ?_
      exact k39
    clear_value x40
    refine KeepsP.mk ?_
    refine Keeps.step (cairnAt_keeps ..) rfl ?_
    exact k41

theorem readSpan_keeps (src) (a) (a1) (a2) (s : State) : KeepsP 29041358945 s (readSpan src a a1 a2 s) := by
  induction a generalizing src a1 a2 s
  · unfold readSpan
    refine KeepsP.mk ?_
    exact Keeps.refl
  · rename_i v1 v2
    unfold readSpan
    dsimp -zeta only
    refine KeepsP.ite ?_ ?_
    · refine KeepsP.mk ?_
      exact Keeps.refl
    · extract_lets +onlyGivenNames x3
      clear_value x3
      split
      · rename_i v4 v5 v6 v7 v8 v9 v10
        refine KeepsP.mk ?_
        refine KeepsP.fst ?_
        refine KeepsP.step (v2 _ _ _ _) (Nat.or_self _) ?_
        refine KeepsP.fst ?_
        refine KeepsP.step (readLine_keeps ..) rfl ?_
        exact Keeps.refl
      · rename_i v11 v12 v13
        refine KeepsP.mk ?_
        refine KeepsP.fst ?_
        refine KeepsP.step (v2 _ _ _ _) (Nat.or_self _) ?_
        refine KeepsP.fst ?_
        refine KeepsP.step (readLine_keeps ..) rfl ?_
        exact Keeps.refl

theorem readDram_keeps (src) (pa) (len) (s : State) : KeepsP 29041358945 s (readDram src pa len s) := by
  unfold readDram
  refine KeepsP.step (readSpan_keeps ..) rfl ?_
  exact Keeps.refl

theorem writeLine_keeps (pa) (d) (s : State) : KeepsP 29041358945 s (writeLine pa d s) := by
  unfold writeLine
  extract_lets +onlyGivenNames x1
  clear_value x1
  refine KeepsP.ite ?_ ?_
  · refine KeepsP.mk ?_
    refine Keeps.step (writeQueue_keeps ..) rfl ?_
    refine Keeps.step (setPat_keeps ..) rfl ?_
    refine Keeps.step (setMem_keeps _ _ (fun _ h => memWriteL_wf _ _ h)) rfl ?_
    exact Keeps.refl
  · refine KeepsP.ite ?_ ?_
    · refine KeepsP.mk ?_
      refine Keeps.step (writeQueue_keeps ..) rfl ?_
      refine Keeps.step (setMem_keeps _ _ (fun _ h => memWriteL_wf _ _ h)) rfl ?_
      exact Keeps.refl
    · split
      rename_i v2 v3 v4 v5
      refine Keeps.cut (p := Keeps 29041358945 s v3) (KeepsP.ofEq ?_ v5) (fun k6 => ?_)
      · clear v5
        refine KeepsP.step (readLine_keeps ..) rfl ?_
        exact Keeps.refl
      clear v5
      split
      · rename_i v7 v8 v9
        refine KeepsP.mk ?_
        refine Keeps.step (writeQueue_keeps ..) rfl ?_
        refine Keeps.step (setPat_keeps ..) rfl ?_
        refine Keeps.step (setMem_keeps _ _ (fun _ h => memWriteL_wf _ _ (memWriteL_wf _ _ h))) rfl ?_
        exact k6
      · rename_i v10 v11
        refine KeepsP.mk ?_
        exact k6

theorem writeSpan_keeps (a) (a1) (a2) (s : State) : KeepsP 29041358945 s (writeSpan a a1 a2 s) := by
  induction a generalizing a1 a2 s
  · unfold writeSpan
    refine KeepsP.mk ?_
    exact Keeps.refl
  · rename_i v1 v2
    unfold writeSpan
    dsimp -zeta only
    refine KeepsP.ite ?_ ?_
    · refine KeepsP.mk ?_
      exact Keeps.refl
    · extract_lets +onlyGivenNames x3
      clear_value x3
      refine KeepsP.mk ?_
      refine KeepsP.fst ?_
      refine KeepsP.step (v2 _ _ _) (Nat.or_self _) ?_
      refine KeepsP.fst ?_
      refine KeepsP.step (writeLine_keeps ..) rfl ?_
      exact Keeps.refl

theorem writeDram_keeps (pa) (d) (s : State) : KeepsP 29041358945 s (writeDram pa d s) := by
  unfold writeDram
  refine KeepsP.step (writeSpan_keeps ..) rfl ?_
  exact Keeps.refl

theorem readSched_keeps (src) (pa) (len) (s : State) : KeepsP 29578229857 s (readSched src pa len s) := by
  unfold readSched
  split
  rename_i v1 v2 v3 v4
  refine Keeps.cut (p := Keeps 29578229857 s v2) (KeepsP.ofEq ?_ v4) (fun k5 => ?_)
  · clear v4
    refine KeepsP.step (readDram_keeps ..) rfl ?_
    refine Keeps.step (setSvc_keeps ..) rfl ?_
    exact Keeps.refl
  clear v4
  refine KeepsP.mk ?_
  refine Keeps.step (setSvc_keeps ..) rfl ?_
  exact k5

theorem writeBulk_keeps (pa) (d) (s : State) : Keeps 29578229857 s (writeBulk pa d s) := by
  unfold writeBulk
  refine Keeps.step (setSvc_keeps ..) rfl ?_
  refine KeepsP.fst ?_
  refine KeepsP.step (writeDram_keeps ..) rfl ?_
  refine Keeps.step (setSvc_keeps ..) rfl ?_
  exact Keeps.refl

theorem zeroDram_keeps (pa) (len) (s : State) : Keeps 25773998080 s (zeroDram pa len s) := by
  unfold zeroDram
  refine Keeps.step (modStack_keeps ..) rfl ?_
  refine Keeps.step (setEcc_keeps ..) rfl ?_
  refine Keeps.step (setMem_keeps _ _ (fun _ h => memZero_wf _ _ h)) rfl ?_
  exact Keeps.refl

theorem copyDram_keeps (src) (dst) (len) (s : State) : Keeps 29578229857 s (copyDram src dst len s) := by
  unfold copyDram
  extract_lets +onlyGivenNames x1
  clear_value x1
  extract_lets +onlyGivenNames x2
  refine Keeps.cut (p := Keeps 29578229857 s x2) ?_ (fun k3 => ?_)
  · dsimp -zeta only [x2]
    refine Keeps.step (setSvc_keeps ..) rfl ?_
    refine Keeps.foldl (fun x4 a5 => ?_) ?_
    · refine KeepsP.fst ?_
      refine KeepsP.step (readLine_keeps ..) rfl ?_
      exact Keeps.refl
    · refine Keeps.step (setSvc_keeps ..) rfl ?_
      exact Keeps.refl
  clear_value x2
  extract_lets +onlyGivenNames x6
  refine Keeps.cut (p := Keeps 29578229857 s x6) ?_ (fun k7 => ?_)
  · dsimp -zeta only [x6]
    refine Keeps.step (setMem_keeps _ _ (fun _ h => memCopy_wf _ _ _ h)) rfl ?_
    exact k3
  clear_value x6
  extract_lets +onlyGivenNames x8
  refine Keeps.cut (p := Keeps 29578229857 s x8) ?_ (fun k9 => ?_)
  · dsimp -zeta only [x8]
    refine Keeps.step (modStack_keeps ..) rfl ?_
    refine Keeps.step (modStack_keeps ..) rfl ?_
    exact k7
  clear_value x8
  refine Keeps.foldl (fun x10 a11 => ?_) ?_
  · refine Keeps.step (setPat_keeps ..) rfl ?_
    exact Keeps.refl
  · refine Keeps.step (setEcc_keeps ..) rfl ?_
    exact k9

end Sys2Proof.Machine
end

