-- ==== Sys2Proof/Laws/Bytes.lean ====
section
/-! SUPPORT. What reads and writes of DRAM do to the bytes of pool memory: they leave every byte outside their lines alone. -/

namespace Sys2Proof.Machine

/-- An operation whose set lacks pool memory leaves it as it was. -/
theorem Keeps.mem_eq {M : Nat} {s t : State} (h : Keeps M s t) (hb : M.testBit 33 = false) : t.mem = s.mem := h.agree .mem hb

/-- From s to t every byte of memory outside a set stays, and the canonical form holds. -/
structure Outside (P : Nat → Prop) (s t : State) : Prop where
  /-- The canonical form. -/
  wf : Memory.wf t.mem = true
  /-- Bytes outside. -/
  same : ∀ a, ¬ P a → memRead t.mem a = memRead s.mem a

theorem Outside.ofEq {P : Nat → Prop} {s t : State} (h : Memory.wf s.mem = true) (e : t.mem = s.mem) : Outside P s t :=
  ⟨by rw [e]; exact h, fun a _ => by rw [e]⟩

theorem Outside.trans {P : Nat → Prop} {s t u : State} (h : Outside P s t) (k : Outside P t u) : Outside P s u :=
  ⟨k.wf, fun a ha => (k.same a ha).trans (h.same a ha)⟩

theorem Outside.mono {P Q : Nat → Prop} {s t : State} (h : Outside P s t) (hq : ∀ a, P a → Q a) : Outside Q s t :=
  ⟨h.wf, fun a ha => h.same a (fun hp => ha (hq a hp))⟩

/-- A list of bytes written inside one line leaves every byte of other lines alone. -/
theorem memWriteL_outside {m : List (Nat × BitVec 8)} (h : Memory.wf m = true) {pa a : Nat} {l : List Byte}
    (hl : pa % 128 + l.length ≤ 128) (ha : a / 128 ≠ pa / 128) : memRead (memWriteL m pa l) a = memRead m a := by
  rw [memRead_memWriteL h, if_neg (by omega)]

theorem foldl_modNth_length (q : Pattern) (d : List Byte) :
    (q.foldl (fun d x => modNth x.1 (fun b => b ^^^ x.2) d) d).length = d.length := by
  induction q generalizing d with
  | nil => rfl
  | cons x q ih => rw [List.foldl_cons, ih, modNth_length]

/-- The data of a line are 128 bytes, and taking them changes no byte. -/
theorem lineData_spec (pa : Nat) (p : Pattern) (s : State) :
    (lineData pa p s).2.length = 128 ∧ (lineData pa p s).1.mem = s.mem := by
  unfold lineData
  simp only
  split
  · exact ⟨by simp [memReadL], rfl⟩
  · split
    · exact ⟨by rw [foldl_modNth_length]; simp [memReadL], rfl⟩
    · exact ⟨by simp, rfl⟩

/-- A read of a line changes bytes of that line alone, and data are 128 bytes. -/
theorem readLine_outside (src pa : Nat) (s : State) (h : Memory.wf s.mem = true) :
    Outside (fun a => a / 128 = pa / 128) s (readLine src pa s).1
      ∧ ∀ d n, (readLine src pa s).2 = .data d n → d.length = 128 := by
  unfold readLine
  simp only
  split
  · obtain ⟨hl, hm⟩ := lineData_spec pa (patSum (linePat (readQueue pa s) (pa / 128)) ‹Pattern›) (readQueue pa s)
    refine ⟨Outside.ofEq h hm, fun d n e => ?_⟩
    cases e; exact hl
  · rename_i syms q _
    obtain ⟨hl, hm⟩ := lineData_spec pa (patSum (linePat (readQueue pa s) (pa / 128)) q) (readQueue pa s)
    have hc := (ceEvent_keeps (if src = 4 then 1 else src) pa syms
      (lineData pa (patSum (linePat (readQueue pa s) (pa / 128)) q) (readQueue pa s)).1).mem_eq rfl
    have hw := hc.trans hm
    refine ⟨?_, fun d n e => by cases e; exact hl⟩
    split
    · refine ⟨memWriteL_wf _ _ (by rw [hw]; exact h), fun a ha => ?_⟩
      refine (memWriteL_outside (by rw [hw]; exact h) (by omega) (by omega)).trans ?_
      rw [hw]; rfl
    · exact Outside.ofEq h hw
  · exact ⟨Outside.ofEq h rfl, fun d n e => nomatch e⟩
  · obtain ⟨hl, hm⟩ := lineData_spec pa (linePat (readQueue pa s) (pa / 128)) (readQueue pa s)
    refine ⟨?_, fun d n e => nomatch e⟩
    refine ⟨?_, fun a ha => ?_⟩
    · rw [(cairnAt_keeps ..).mem_eq rfl]
      exact memWriteL_wf _ _ (by rw [hm]; exact h)
    · rw [(cairnAt_keeps ..).mem_eq rfl]
      refine (memWriteL_outside (by rw [hm]; exact h) (by omega) (by omega)).trans ?_
      rw [hm]; rfl

/-- A write within a line changes bytes of that line alone. -/
theorem writeLine_outside (pa : Nat) (d : List Byte) (s : State) (h : Memory.wf s.mem = true)
    (hd : pa % 128 + d.length ≤ 128) : Outside (fun a => a / 128 = pa / 128) s (writeLine pa d s).1 := by
  unfold writeLine
  simp only
  split
  · exact ⟨memWriteL_wf _ _ h, fun a ha => memWriteL_outside h hd ha⟩
  · split
    · exact ⟨memWriteL_wf _ _ h, fun a ha => memWriteL_outside h hd ha⟩
    · obtain ⟨ho, hl⟩ := readLine_outside 1 pa s h
      split
      · rename_i old n e
        refine ho.trans ⟨memWriteL_wf _ _ (memWriteL_wf _ _ ho.wf), fun a ha => ?_⟩
        have h128 := hl _ _ e
        refine (memWriteL_outside (memWriteL_wf _ _ ho.wf) hd ha).trans ?_
        exact memWriteL_outside ho.wf (by omega) (by omega)
      · exact ho

theorem writeSpan_outside (n pa : Nat) (d : List Byte) (s : State) (h : Memory.wf s.mem = true) :
    Outside (inLines pa d.length) s (writeSpan n pa d s).1 := by
  induction n generalizing pa d s with
  | zero => exact Outside.ofEq h rfl
  | succ n ih =>
    unfold writeSpan
    split
    · exact Outside.ofEq h rfl
    · rename_i hd
      have hp : 0 < d.length := by cases d <;> simp at hd ⊢
      have h1 := writeLine_outside pa (d.take (128 - pa % 128)) s h (by simp; omega)
      have h2 := ih (pa + (128 - pa % 128)) (d.drop (128 - pa % 128)) _ h1.wf
      refine Outside.trans (h1.mono fun a ha => ?_) (h2.mono fun a ha => ?_)
      · simp only [inLines]; omega
      · simp only [inLines, List.length_drop] at ha ⊢; omega

/-- A write of bytes changes bytes of their lines alone. -/
theorem writeDram_outside (pa : Nat) (d : List Byte) (s : State) (h : Memory.wf s.mem = true) :
    Outside (inLines pa d.length) s (writeDram pa d s).1 := writeSpan_outside _ pa d s h

theorem readSpan_outside (src n pa len : Nat) (s : State) (h : Memory.wf s.mem = true) :
    Outside (inLines pa len) s (readSpan src n pa len s).1 := by
  induction n generalizing pa len s with
  | zero => exact Outside.ofEq h rfl
  | succ n ih =>
    unfold readSpan
    split
    · exact Outside.ofEq h rfl
    · have h1 := (readLine_outside src pa s h).1
      have h2 := ih (pa + min len (128 - pa % 128)) (len - min len (128 - pa % 128)) _ h1.wf
      have h3 : Outside (inLines pa len) s (readSpan src n (pa + min len (128 - pa % 128)) (len - min len (128 - pa % 128))
          (readLine src pa s).1).1 := by
        refine Outside.trans (h1.mono fun a ha => ?_) (h2.mono fun a ha => ?_)
        · simp only [inLines]; omega
        · simp only [inLines] at ha ⊢; omega
      simp only
      split <;> exact h3

/-- A read of bytes changes bytes of their lines alone. -/
theorem readDram_outside (src pa len : Nat) (s : State) (h : Memory.wf s.mem = true) :
    Outside (inLines pa len) s (readDram src pa len s).1 := readSpan_outside src _ pa len s h

end Sys2Proof.Machine
end

