-- ==== Sys2Proof/Laws/KeepsAdmission.lean ====
section
/-! SUPPORT. What each operation of Machine/Admission.lean can touch, that it goes onward and that it keeps the invariant. -/

namespace Sys2Proof.Machine

theorem notePeak_keeps (s : State) : Keeps 4096 s (notePeak s) := by
  unfold notePeak
  refine Keeps.step (setVrb_keeps ..) rfl ?_
  exact Keeps.refl

theorem refuse_keeps (prov) (r) (st) (s : State) : Keeps 3262910528 s (refuse prov r st s) := by
  unfold refuse
  refine Keeps.ite ?_ ?_
  · exact Keeps.refl
  · refine Keeps.step (sendRespAs_keeps ..) rfl ?_
    exact Keeps.refl

theorem admission_keeps (prov) (r) (s : State) : KeepsP 3262910528 s (admission prov r s) := by
  unfold admission
  split
  · rename_i v1 v2 v3
    refine KeepsP.mk ?_
    refine Keeps.step (refuse_keeps ..) rfl ?_
    exact Keeps.refl
  · rename_i v4 v5
    refine KeepsP.ite ?_ ?_
    · refine KeepsP.mk ?_
      refine Keeps.step (refuse_keeps ..) rfl ?_
      refine Keeps.step (setVrb_keeps ..) rfl ?_
      exact Keeps.refl
    · refine KeepsP.mk ?_
      exact Keeps.refl

theorem admitDelivered_keeps (prov) (r) (s : State) : Keeps 3262912576 s (admitDelivered prov r s) := by
  unfold admitDelivered
  split
  rename_i v1 v2 v3 v4
  refine Keeps.cut (p := Keeps 3262912576 s v2) (KeepsP.ofEq ?_ v4) (fun k5 => ?_)
  · clear v4
    refine KeepsP.ite ?_ ?_
    · refine KeepsP.mk ?_
      exact Keeps.refl
    · refine KeepsP.step (admission_keeps ..) rfl ?_
      exact Keeps.refl
  clear v4
  refine Keeps.ite ?_ ?_
  · extract_lets +onlyGivenNames x6
    clear_value x6
    refine Keeps.step (notePeak_keeps ..) rfl ?_
    refine Keeps.step (setVrb_keeps ..) rfl ?_
    refine Keeps.step (leaseArrival_keeps ..) rfl ?_
    exact k5
  · exact k5

theorem ctlDenied_keeps (w) (s : State) : Keeps 3262911552 s (ctlDenied w s) := by
  unfold ctlDenied
  refine Keeps.step (answerAt_keeps ..) rfl ?_
  refine Keeps.step (upd_glb_keeps _ _) rfl ?_
  exact Keeps.refl

theorem ctlGuard_keeps {r : Req} {verb : Waiting → State → State} {w : Waiting} {s : State} {M : Nat}
    (hm : 3262911552 ||| M = M) (h : ∀ w s, Keeps M s (verb w s)) : Keeps M s (ctlGuard r verb w s) := by
  unfold ctlGuard
  split
  · exact (ctlDenied_keeps w s).mono hm
  · exact h w s

theorem runVerb_keeps {r : Req} {e : Env} {verb : Waiting → State → State} {s : State} {M : Nat}
    (hm : 4202437696 ||| M = M) (h : ∀ w s, Keeps M s (verb w s)) : Keeps M s (runVerb r e verb s) := by
  have sub : ∀ {T : Nat}, T ||| 4202437696 = 4202437696 → T ||| M = M := by
    intro T hT; rw [← hm, ← Nat.or_assoc, hT]
  unfold runVerb
  extract_lets +onlyGivenNames x
  have k : Keeps M s x := (applyEnv_keeps e s).mono (sub rfl)
  clear_value x
  split
  · exact k
  · split
    · exact Keeps.trans (Keeps.trans (Keeps.trans k ((setVrb_keeps _ _).mono (sub rfl)))
        ((setSvc_keeps _ _).mono (sub rfl))) (ctlGuard_keeps (sub rfl) h)
    · split
      rename_i y ok e1
      have k1 : Keeps M s y := k.trans (KeepsP.ofEq ((admission_keeps false r x).mono (sub rfl)) e1)
      split
      · exact Keeps.trans (Keeps.trans (Keeps.trans (Keeps.trans k1 ((leaseArrival_keeps _ _).mono (sub rfl)))
          ((setVrb_keeps _ _).mono (sub rfl))) ((setSvc_keeps _ _).mono (sub rfl))) (ctlGuard_keeps (sub rfl) h)
      · exact k1

theorem waitFor_keeps (w) (why) (s : State) : Keeps 4096 s (waitFor w why s) := by
  unfold waitFor
  refine Keeps.step (setVrb_keeps ..) rfl ?_
  exact Keeps.refl

theorem reply_keeps (w) (p) (s : State) : Keeps 3262910528 s (reply w p s) := by
  unfold reply
  refine Keeps.step (answerAt_keeps ..) rfl ?_
  exact Keeps.refl

theorem replySt_keeps (w) (st) (s : State) : Keeps 3262910528 s (replySt w st s) := by
  unfold replySt
  refine Keeps.step (reply_keeps ..) rfl ?_
  exact Keeps.refl

end Sys2Proof.Machine
end

