-- ==== Sys2Proof/Laws/KeepsAlloc.lean ====
section
/-! SUPPORT. What each operation of Machine/Alloc.lean can touch, that it goes onward and that it keeps the invariant. -/

namespace Sys2Proof.Machine

theorem shadowRelease_keeps (tid) (n) (a) (s : State) : Keeps 2048 s (shadowRelease tid n a s) := by
  induction a generalizing tid n s
  · unfold shadowRelease
    exact Keeps.refl
  · rename_i v1 v2
    unfold shadowRelease
    refine Keeps.ite ?_ ?_
    · exact Keeps.refl
    · split
      · rename_i v3 v4
        exact Keeps.refl
      · rename_i v5 v6 v7
        refine Keeps.step (v2 _ _ _) (Nat.or_self _) ?_
        refine Keeps.step (setPool_keeps ..) rfl ?_
        exact Keeps.refl

theorem makeRoom_keeps (tid) (n) (s : State) : Keeps 2048 s (makeRoom tid n s) := by
  unfold makeRoom
  refine Keeps.step (shadowRelease_keeps ..) rfl ?_
  exact Keeps.refl

theorem zeroExtents_keeps (xs) (s : State) : Keeps 25773998080 s (zeroExtents xs s) := by
  unfold zeroExtents
  refine Keeps.foldl (fun x1 a2 => ?_) ?_
  · refine Keeps.step (zeroDram_keeps ..) rfl ?_
    exact Keeps.refl
  · exact Keeps.refl

end Sys2Proof.Machine
end

