-- ==== Sys2Proof/Laws/KeepsDirectory.lean ====
section
/-! SUPPORT. What each operation of Machine/Directory.lean can touch, that it goes onward and that it keeps the invariant. -/

namespace Sys2Proof.Machine

theorem setDir_keeps (d) (s : State) : Keeps 16384 s (setDir d s) := by
  unfold setDir
  refine Keeps.step (setCoh_keeps ..) rfl ?_
  exact Keeps.refl

theorem dirLookup_keeps (g) (line) (s : State) : Keeps 16384 s (dirLookup g line s) := by
  unfold dirLookup
  refine Keeps.step (setCoh_keeps ..) rfl ?_
  exact Keeps.refl

theorem cohSend_keeps (kind) (region) (line) (slot) (toInv) (s : State) : Keeps 3262922816 s (cohSend kind region line slot toInv s) := by
  unfold cohSend
  split
  · rename_i v1 v2
    exact Keeps.refl
  · rename_i v3 v4 v5
    split
    · rename_i v6 v7
      exact Keeps.refl
    · rename_i v8 v9 v10
      split
      rename_i v11 v12 v13 v14
      refine Keeps.cut (p := Keeps 3262922816 s v12) (KeepsP.ofEq ?_ v14) (fun k15 => ?_)
      · clear v14
        refine KeepsP.step (freshTag_keeps ..) rfl ?_
        exact Keeps.refl
      clear v14
      extract_lets +onlyGivenNames x16
      refine Keeps.cut (p := Keeps 3262922816 s x16) ?_ (fun k17 => ?_)
      · dsimp -zeta only [x16]
        refine Keeps.step (setCoh_keeps ..) rfl ?_
        exact k15
      clear_value x16
      refine Keeps.step (sendMsg_keeps ..) rfl ?_
      exact k17

theorem lineStart_keeps (d) (u) (slot) (s : State) : Keeps 3262922816 s (lineStart d u slot s) := by
  unfold lineStart
  split
  · rename_i v1 v2
    extract_lets +onlyGivenNames x3
    clear_value x3
    refine Keeps.foldl (fun x4 a5 => ?_) ?_
    · refine Keeps.step (cohSend_keeps ..) rfl ?_
      exact Keeps.refl
    · refine Keeps.step (setDir_keeps ..) rfl ?_
      exact Keeps.refl
  · rename_i v6 v7
    refine Keeps.ite ?_ ?_
    · refine Keeps.step (setDir_keeps ..) rfl ?_
      exact Keeps.refl
    · extract_lets +onlyGivenNames x8
      clear_value x8
      refine Keeps.step (cohSend_keeps ..) rfl ?_
      refine Keeps.step (setDir_keeps ..) rfl ?_
      exact Keeps.refl
  · rename_i v9 v10
    refine Keeps.ite ?_ ?_
    · refine Keeps.step (setDir_keeps ..) rfl ?_
      exact Keeps.refl
    · extract_lets +onlyGivenNames x11
      clear_value x11
      refine Keeps.step (cohSend_keeps ..) rfl ?_
      refine Keeps.step (setDir_keeps ..) rfl ?_
      exact Keeps.refl
  · rename_i v12 v13 v14 v15
    exact Keeps.refl

theorem dropSlotLines_keeps (g) (k) (lost) (s : State) : Keeps 18432 s (dropSlotLines g k lost s) := by
  unfold dropSlotLines
  extract_lets +onlyGivenNames x1
  extract_lets +onlyGivenNames x2
  clear_value x2
  extract_lets +onlyGivenNames x3
  clear_value x3
  extract_lets +onlyGivenNames x4
  clear_value x4
  extract_lets +onlyGivenNames x5
  clear_value x5
  extract_lets +onlyGivenNames x6
  refine Keeps.cut (p := Keeps 18432 s x6) ?_ (fun k7 => ?_)
  · dsimp -zeta only [x6]
    refine Keeps.step (setCoh_keeps ..) rfl ?_
    exact Keeps.refl
  clear_value x6
  refine Keeps.ite ?_ ?_
  · refine Keeps.step (modSlot_keeps ..) rfl ?_
    exact k7
  · exact k7

theorem leaseEnd_keeps (g) (k) (s : State) : Keeps 18432 s (leaseEnd g k s) := by
  unfold leaseEnd
  split
  · rename_i v1 v2
    exact Keeps.refl
  · rename_i v3 v4 v5
    refine Keeps.ite ?_ ?_
    · exact Keeps.refl
    · refine Keeps.step (dropSlotLines_keeps ..) rfl ?_
      refine Keeps.step (setCoh_keeps ..) rfl ?_
      refine Keeps.step (modSlot_keeps ..) rfl ?_
      exact Keeps.refl

theorem freeSlot_keeps (g) (k) (s : State) : Keeps 2048 s (freeSlot g k s) := by
  unfold freeSlot
  refine Keeps.step (modRegion_keeps ..) rfl ?_
  exact Keeps.refl

end Sys2Proof.Machine
end

