-- ==== Sys2Proof/Laws/KeepsAccess.lean ====
section
/-! SUPPORT. What each operation of Machine/Access.lean can touch, that it goes onward and that it keeps the invariant. -/

namespace Sys2Proof.Machine

theorem readPieces_keeps (src) (got) (a) (s : State) : KeepsP 29041358945 s (readPieces src got a s) := by
  induction a generalizing src got s
  · unfold readPieces
    refine KeepsP.mk ?_
    exact Keeps.refl
  · rename_i v1 v2 v3
    unfold readPieces
    dsimp -zeta only
    split
    · rename_i v4 v5 v6 v7 v8 v9
      refine KeepsP.mk ?_
      refine KeepsP.fst ?_
      refine KeepsP.step (v3 _ _ _) (Nat.or_self _) ?_
      refine KeepsP.fst ?_
      split
      · rename_i v10 v11 v12
        refine KeepsP.step (readDram_keeps ..) rfl ?_
        exact Keeps.refl
      · rename_i v13 v14
        refine KeepsP.mk ?_
        exact Keeps.refl
    · rename_i v15 v16 v17
      refine KeepsP.mk ?_
      refine KeepsP.fst ?_
      refine KeepsP.step (v3 _ _ _) (Nat.or_self _) ?_
      refine KeepsP.fst ?_
      split
      · rename_i v18 v19 v20
        refine KeepsP.step (readDram_keeps ..) rfl ?_
        exact Keeps.refl
      · rename_i v21 v22
        refine KeepsP.mk ?_
        exact Keeps.refl

theorem noteAncTag_keeps (tag) (a) (s : State) : Keeps 2048 s (noteAncTag tag a s) := by
  unfold noteAncTag
  refine Keeps.step (setPool_keeps ..) rfl ?_
  exact Keeps.refl

theorem anchorRd_keeps (owner) (key) (p) (s : State) : KeepsP 3262924864 s (anchorRd owner key p s) := by
  unfold anchorRd
  split
  rename_i v1 v2 v3 v4
  refine Keeps.cut (p := Keeps 3262924864 s v2) (KeepsP.ofEq ?_ v4) (fun k5 => ?_)
  · clear v4
    refine KeepsP.step (freshTag_keeps ..) rfl ?_
    exact Keeps.refl
  clear v4
  split
  · rename_i v6 v7
    refine KeepsP.mk ?_
    exact k5
  · rename_i v8 v9 v10
    refine KeepsP.mk ?_
    refine Keeps.step (noteAncTag_keeps ..) rfl ?_
    refine Keeps.step (sendMsg_keeps ..) rfl ?_
    exact k5

theorem markDirty_keeps (a) (s : State) : Keeps 4096 s (markDirty a s) := by
  unfold markDirty
  extract_lets +onlyGivenNames x1
  refine Keeps.step (setVrb_keeps ..) rfl ?_
  exact Keeps.refl

theorem anchorWr_keeps (owner) (p) (d) (s : State) : KeepsP 3262928960 s (anchorWr owner p d s) := by
  unfold anchorWr
  extract_lets +onlyGivenNames x1
  refine Keeps.cut (p := Keeps 3262928960 s x1) ?_ (fun k2 => ?_)
  · dsimp -zeta only [x1]
    split
    · rename_i v3 v4 v5
      refine Keeps.step (markDirty_keeps ..) rfl ?_
      exact Keeps.refl
    · rename_i v6 v7
      exact Keeps.refl
  clear_value x1
  split
  rename_i v8 v9 v10 v11
  refine Keeps.cut (p := Keeps 3262928960 s v9) (KeepsP.ofEq ?_ v11) (fun k12 => ?_)
  · clear v11
    refine KeepsP.step (freshTag_keeps ..) rfl ?_
    exact k2
  clear v11
  split
  · rename_i v13 v14
    refine KeepsP.mk ?_
    exact k12
  · rename_i v15 v16 v17
    refine KeepsP.mk ?_
    refine Keeps.step (noteAncTag_keeps ..) rfl ?_
    refine Keeps.step (sendMsg_keeps ..) rfl ?_
    exact k12

theorem anchorRds_keeps (owner) (base) (a) (s : State) : KeepsP 3262924864 s (anchorRds owner base a s) := by
  induction a generalizing owner base s
  · unfold anchorRds
    refine KeepsP.mk ?_
    exact Keeps.refl
  · rename_i v1 v2 v3
    unfold anchorRds
    dsimp -zeta only
    refine KeepsP.mk ?_
    refine KeepsP.fst ?_
    refine KeepsP.step (v3 _ _ _) (Nat.or_self _) ?_
    refine KeepsP.fst ?_
    refine KeepsP.step (anchorRd_keeps ..) rfl ?_
    exact Keeps.refl

theorem mirrorWr_keeps (g) (o) (d) (s : State) : KeepsP 3262924864 s (mirrorWr g o d s) := by
  unfold mirrorWr
  split
  rename_i v1 v2 v3 v4
  refine Keeps.cut (p := Keeps 3262924864 s v2) (KeepsP.ofEq ?_ v4) (fun k5 => ?_)
  · clear v4
    refine KeepsP.step (freshTag_keeps ..) rfl ?_
    exact Keeps.refl
  clear v4
  refine KeepsP.mk ?_
  refine Keeps.step (mirrorMsg_keeps ..) rfl ?_
  exact k5

theorem mirrorWrs_keeps (g) (a) (a1) (a2) (s : State) : KeepsP 3262924864 s (mirrorWrs g a a1 a2 s) := by
  induction a generalizing g a1 a2 s
  · unfold mirrorWrs
    refine KeepsP.mk ?_
    exact Keeps.refl
  · rename_i v1 v2
    unfold mirrorWrs
    dsimp -zeta only
    refine KeepsP.ite ?_ ?_
    · refine KeepsP.mk ?_
      exact Keeps.refl
    · refine KeepsP.mk ?_
      refine KeepsP.fst ?_
      refine KeepsP.step (v2 _ _ _ _) (Nat.or_self _) ?_
      refine KeepsP.fst ?_
      refine KeepsP.step (mirrorWr_keeps ..) rfl ?_
      exact Keeps.refl

theorem advanceCopy_keeps (g) (x) (s : State) : Keeps 29578229857 s (advanceCopy g x s) := by
  unfold advanceCopy
  extract_lets +onlyGivenNames x1
  clear_value x1
  refine Keeps.ite ?_ ?_
  · exact Keeps.refl
  · split
    rename_i v2 v3 v4 v5
    refine Keeps.cut (p := Keeps 29578229857 s v3) (KeepsP.ofEq ?_ v5) (fun k6 => ?_)
    · clear v5
      refine KeepsP.step (takeFree_keeps ..) rfl ?_
      exact Keeps.refl
    clear v5
    extract_lets +onlyGivenNames x7
    clear_value x7
    extract_lets +onlyGivenNames x8
    clear_value x8
    extract_lets +onlyGivenNames x9
    refine Keeps.cut (p := Keeps 29578229857 s x9) ?_ (fun k10 => ?_)
    · dsimp -zeta only [x9]
      refine Keeps.step (copyDram_keeps ..) rfl ?_
      exact k6
    clear_value x9
    refine Keeps.step (modRegion_keeps ..) rfl ?_
    exact k10

theorem writeBoth_keeps (g) (p) (pa) (d) (s : State) : KeepsP 29578229857 s (writeBoth g p pa d s) := by
  unfold writeBoth
  extract_lets +onlyGivenNames x1
  refine Keeps.cut (p := Keeps 29578229857 s x1) ?_ (fun k2 => ?_)
  · dsimp -zeta only [x1]
    refine Keeps.ite ?_ ?_
    · refine Keeps.step (advanceCopy_keeps ..) rfl ?_
      exact Keeps.refl
    · exact Keeps.refl
  clear_value x1
  extract_lets +onlyGivenNames x3
  clear_value x3
  split
  rename_i v4 v5 v6 v7
  refine Keeps.cut (p := Keeps 29578229857 s v5) (KeepsP.ofEq ?_ v7) (fun k8 => ?_)
  · clear v7
    refine KeepsP.step (writeDram_keeps ..) rfl ?_
    exact k2
  clear v7
  refine KeepsP.ite ?_ ?_
  · split
    rename_i v9 v10 v11 v12
    refine Keeps.cut (p := Keeps 29578229857 s v10) (KeepsP.ofEq ?_ v12) (fun k13 => ?_)
    · clear v12
      refine KeepsP.step (writeDram_keeps ..) rfl ?_
      exact k8
    clear v12
    refine KeepsP.mk ?_
    exact k13
  · refine KeepsP.mk ?_
    exact k8

theorem writePiece_keeps (g) (p) (d) (s : State) : KeepsP 29578229857 s (writePiece g p d s) := by
  unfold writePiece
  split
  rename_i v1 v2 v3 v4
  refine Keeps.cut (p := Keeps 29578229857 s v2) (KeepsP.ofEq ?_ v4) (fun k5 => ?_)
  · clear v4
    split
    · rename_i v6 v7 v8
      refine KeepsP.step (writeBoth_keeps ..) rfl ?_
      exact Keeps.refl
    · rename_i v9 v10
      refine KeepsP.mk ?_
      exact Keeps.refl
  clear v4
  refine KeepsP.ite ?_ ?_
  · refine KeepsP.ite ?_ ?_
    · split
      rename_i v11 v12 v13 v14
      refine Keeps.cut (p := Keeps 29578229857 s v12) (KeepsP.ofEq ?_ v14) (fun k15 => ?_)
      · clear v14
        refine KeepsP.step (anchorWr_keeps ..) rfl ?_
        exact k5
      clear v14
      refine KeepsP.mk ?_
      exact k15
    · refine KeepsP.ite ?_ ?_
      · split
        rename_i v16 v17 v18 v19
        refine Keeps.cut (p := Keeps 29578229857 s v17) (KeepsP.ofEq ?_ v19) (fun k20 => ?_)
        · clear v19
          refine KeepsP.step (mirrorWrs_keeps ..) rfl ?_
          exact k5
        clear v19
        refine KeepsP.mk ?_
        exact k20
      · refine KeepsP.mk ?_
        exact k5
  · refine KeepsP.mk ?_
    exact k5

theorem useBudget_keeps (tid) (ps) (s : State) : KeepsO 2097152 s (useBudget tid ps s) := by
  unfold useBudget
  split
  · rename_i v1 v2
    refine KeepsO.some ?_
    exact Keeps.refl
  · rename_i v3 v4 v5
    extract_lets +onlyGivenNames x6
    clear_value x6
    refine KeepsO.ite ?_ ?_
    · extract_lets +onlyGivenNames x7
      clear_value x7
      refine KeepsO.some ?_
      refine Keeps.step (setQos_keeps ..) rfl ?_
      exact Keeps.refl
    · exact KeepsO.none

theorem cohGate_keeps (ord) (g) (lines) (u) (slot) (s : State) : KeepsP 3262922816 s (cohGate ord g lines u slot s) := by
  unfold cohGate
  extract_lets +onlyGivenNames x1
  refine Keeps.cut (p := Keeps 3262922816 s x1) ?_ (fun k2 => ?_)
  · dsimp -zeta only [x1]
    refine Keeps.foldl (fun x3 a4 => ?_) ?_
    · refine Keeps.step (dirLookup_keeps ..) rfl ?_
      exact Keeps.refl
    · exact Keeps.refl
  clear_value x1
  refine KeepsP.ite ?_ ?_
  · refine KeepsP.mk ?_
    exact k2
  · extract_lets +onlyGivenNames x5
    clear_value x5
    refine KeepsP.ite ?_ ?_
    · refine KeepsP.mk ?_
      exact k2
    · extract_lets +onlyGivenNames x6
      clear_value x6
      refine KeepsP.ite ?_ ?_
      · refine KeepsP.mk ?_
        refine Keeps.step (setCoh_keeps ..) rfl ?_
        exact k2
      · refine KeepsP.mk ?_
        refine Keeps.foldl (fun x7 a8 => ?_) ?_
        · refine Keeps.step (lineStart_keeps ..) rfl ?_
          exact Keeps.refl
        · exact k2

theorem finishMem_keeps (w) (p) (s : State) : Keeps 3262926912 s (finishMem w p s) := by
  unfold finishMem
  extract_lets +onlyGivenNames x1
  clear_value x1
  extract_lets +onlyGivenNames x2
  clear_value x2
  extract_lets +onlyGivenNames x3
  refine Keeps.cut (p := Keeps 3262926912 s x3) ?_ (fun k4 => ?_)
  · dsimp -zeta only [x3]
    refine Keeps.ite ?_ ?_
    · refine Keeps.step (event_keeps ..) rfl ?_
      exact Keeps.refl
    · exact Keeps.refl
  clear_value x3
  refine Keeps.step (reply_keeps ..) rfl ?_
  exact k4

theorem finishSt_keeps (w) (st) (s : State) : Keeps 3262926912 s (finishSt w st s) := by
  unfold finishSt
  refine Keeps.step (finishMem_keeps ..) rfl ?_
  exact Keeps.refl

theorem finishWrite_keeps (w) (p) (anchor) (tags) (old) (s : State) : Keeps 3262926912 s (finishWrite w p anchor tags old s) := by
  unfold finishWrite
  refine Keeps.ite ?_ ?_
  · refine Keeps.step (finishMem_keeps ..) rfl ?_
    exact Keeps.refl
  · refine Keeps.ite ?_ ?_
    · refine Keeps.step (waitFor_keeps ..) rfl ?_
      exact Keeps.refl
    · refine Keeps.step (waitFor_keeps ..) rfl ?_
      exact Keeps.refl

theorem loadData_keeps (w) (g) (ps) (got) (code) (s : State) : Keeps 29041358945 s (loadData w g ps got code s) := by
  unfold loadData
  extract_lets +onlyGivenNames x1
  clear_value x1
  extract_lets +onlyGivenNames x2
  clear_value x2
  refine Keeps.ite ?_ ?_
  · split
    · rename_i v3 v4
      refine Keeps.step (waitFor_keeps ..) rfl ?_
      exact Keeps.refl
    · rename_i v5 v6 v7
      refine Keeps.cut (p := Keeps 29041358945 s v6) (KeepsO.ofEq ?_ v7) (fun k8 => ?_)
      · clear v7
        refine KeepsO.step (useBudget_keeps _ _ _) rfl ?_
        exact Keeps.refl
      clear v7
      split
      · rename_i v9 v10 v11 v12
        refine Keeps.cut (p := Keeps 29041358945 s v10) (KeepsP.ofEq ?_ v12) (fun k13 => ?_)
        · clear v12
          refine KeepsP.step (readPieces_keeps ..) rfl ?_
          exact k8
        clear v12
        refine Keeps.step (finishMem_keeps ..) rfl ?_
        exact k13
      · rename_i v14 v15 v16
        refine Keeps.cut (p := Keeps 29041358945 s v15) (KeepsP.ofEq ?_ v16) (fun k17 => ?_)
        · clear v16
          refine KeepsP.step (readPieces_keeps ..) rfl ?_
          exact k8
        clear v16
        refine Keeps.step (finishSt_keeps ..) rfl ?_
        exact k17
  · split
    rename_i v18 v19 v20 v21
    refine Keeps.cut (p := Keeps 29041358945 s v19) (KeepsP.ofEq ?_ v21) (fun k22 => ?_)
    · clear v21
      refine KeepsP.step (anchorRds_keeps ..) rfl ?_
      exact Keeps.refl
    clear v21
    refine Keeps.step (waitFor_keeps ..) rfl ?_
    exact k22

theorem loadRun_keeps (w) (got) (s : State) : Keeps 29041358945 s (loadRun w got s) := by
  unfold loadRun
  extract_lets +onlyGivenNames x1
  clear_value x1
  extract_lets +onlyGivenNames x2
  clear_value x2
  extract_lets +onlyGivenNames x3
  clear_value x3
  refine Keeps.ite ?_ ?_
  · refine Keeps.step (finishSt_keeps ..) rfl ?_
    exact Keeps.refl
  · split
    · rename_i v4 v5 v6
      refine Keeps.step (finishSt_keeps ..) rfl ?_
      exact Keeps.refl
    · rename_i v7 v8 v9 v10 v11
      extract_lets +onlyGivenNames x12
      clear_value x12
      extract_lets +onlyGivenNames x13
      clear_value x13
      refine Keeps.ite ?_ ?_
      · refine Keeps.step (finishSt_keeps ..) rfl ?_
        exact Keeps.refl
      · refine Keeps.ite ?_ ?_
        · extract_lets +onlyGivenNames x14
          clear_value x14
          refine Keeps.ite ?_ ?_
          · refine Keeps.step (finishSt_keeps ..) rfl ?_
            exact Keeps.refl
          · extract_lets +onlyGivenNames x15
            clear_value x15
            split
            · rename_i v16 v17 v18
              refine Keeps.step (finishSt_keeps ..) rfl ?_
              exact Keeps.refl
            · rename_i v19 v20 v21 v22 v23
              refine Keeps.ite ?_ ?_
              · refine Keeps.step (finishSt_keeps ..) rfl ?_
                exact Keeps.refl
              · extract_lets +onlyGivenNames x24
                clear_value x24
                split
                · rename_i v25 v26 v27
                  refine Keeps.cut (p := Keeps 29041358945 s v26) (KeepsP.ofEq ?_ v27) (fun k28 => ?_)
                  · clear v27
                    refine KeepsP.step (cohGate_keeps ..) rfl ?_
                    exact Keeps.refl
                  clear v27
                  refine Keeps.step (finishSt_keeps ..) rfl ?_
                  exact k28
                · rename_i v29 v30 v31
                  refine Keeps.cut (p := Keeps 29041358945 s v30) (KeepsP.ofEq ?_ v31) (fun k32 => ?_)
                  · clear v31
                    refine KeepsP.step (cohGate_keeps ..) rfl ?_
                    exact Keeps.refl
                  clear v31
                  refine Keeps.step (waitFor_keeps ..) rfl ?_
                  exact k32
                · rename_i v33 v34 v35
                  refine Keeps.cut (p := Keeps 29041358945 s v34) (KeepsP.ofEq ?_ v35) (fun k36 => ?_)
                  · clear v35
                    refine KeepsP.step (cohGate_keeps ..) rfl ?_
                    exact Keeps.refl
                  clear v35
                  refine Keeps.ite ?_ ?_
                  · refine Keeps.step (finishSt_keeps ..) rfl ?_
                    exact k36
                  · refine Keeps.ite ?_ ?_
                    · refine Keeps.step (waitFor_keeps ..) rfl ?_
                      exact k36
                    · extract_lets +onlyGivenNames x37
                      clear_value x37
                      extract_lets +onlyGivenNames x38
                      refine Keeps.cut (p := Keeps 29041358945 s x38) ?_ (fun k39 => ?_)
                      · dsimp -zeta only [x38]
                        refine Keeps.foldl (fun x40 a41 => ?_) ?_
                        · refine Keeps.step (setDir_keeps ..) rfl ?_
                          exact Keeps.refl
                        · exact k36
                      clear_value x38
                      extract_lets +onlyGivenNames x42
                      clear_value x42
                      refine Keeps.step (loadData_keeps ..) rfl ?_
                      exact k39
        · refine Keeps.ite ?_ ?_
          · refine Keeps.step (finishSt_keeps ..) rfl ?_
            exact Keeps.refl
          · refine Keeps.step (loadData_keeps ..) rfl ?_
            exact Keeps.refl

theorem storePieces_keeps (ord) (g) (data) (a) (s : State) : KeepsP 29578229857 s (storePieces ord g data a s) := by
  induction a generalizing ord g data s
  · unfold storePieces
    refine KeepsP.mk ?_
    exact Keeps.refl
  · rename_i v1 v2 v3
    unfold storePieces
    dsimp -zeta only
    extract_lets +onlyGivenNames x4
    clear_value x4
    extract_lets +onlyGivenNames x5
    clear_value x5
    refine KeepsP.mk ?_
    refine KeepsP.fst ?_
    refine KeepsP.step (v3 _ _ _ _) (Nat.or_self _) ?_
    refine KeepsP.fst ?_
    refine KeepsP.ite ?_ ?_
    · refine KeepsP.mk ?_
      exact Keeps.refl
    · refine KeepsP.ite ?_ ?_
      · refine KeepsP.mk ?_
        exact Keeps.refl
      · extract_lets +onlyGivenNames x6
        refine Keeps.cut (p := Keeps 29578229857 s x6) ?_ (fun k7 => ?_)
        · dsimp -zeta only [x6]
          refine Keeps.ite ?_ ?_
          · refine Keeps.step (setDir_keeps ..) rfl ?_
            refine KeepsP.fst ?_
            refine KeepsP.step (writePiece_keeps ..) rfl ?_
            exact Keeps.refl
          · refine KeepsP.fst ?_
            refine KeepsP.step (writePiece_keeps ..) rfl ?_
            exact Keeps.refl
        clear_value x6
        refine KeepsP.mk ?_
        exact k7

theorem storeRun_keeps (w) (s : State) : Keeps 29578229857 s (storeRun w s) := by
  unfold storeRun
  extract_lets +onlyGivenNames x1
  clear_value x1
  extract_lets +onlyGivenNames x2
  clear_value x2
  extract_lets +onlyGivenNames x3
  clear_value x3
  refine Keeps.ite ?_ ?_
  · refine Keeps.step (finishSt_keeps ..) rfl ?_
    exact Keeps.refl
  · refine Keeps.ite ?_ ?_
    · refine Keeps.step (waitFor_keeps ..) rfl ?_
      exact Keeps.refl
    · split
      · rename_i v4 v5 v6
        refine Keeps.step (finishSt_keeps ..) rfl ?_
        exact Keeps.refl
      · rename_i v7 v8 v9 v10 v11
        refine Keeps.ite ?_ ?_
        · refine Keeps.step (finishSt_keeps ..) rfl ?_
          exact Keeps.refl
        · extract_lets +onlyGivenNames x12
          clear_value x12
          extract_lets +onlyGivenNames x13
          clear_value x13
          extract_lets +onlyGivenNames x14
          clear_value x14
          split
          · rename_i v15 v16 v17
            refine Keeps.cut (p := Keeps 29578229857 s v16) (KeepsP.ofEq ?_ v17) (fun k18 => ?_)
            · clear v17
              refine KeepsP.ite ?_ ?_
              · refine KeepsP.step (cohGate_keeps ..) rfl ?_
                exact Keeps.refl
              · refine KeepsP.mk ?_
                exact Keeps.refl
            clear v17
            refine Keeps.step (finishSt_keeps ..) rfl ?_
            exact k18
          · rename_i v19 v20 v21
            refine Keeps.cut (p := Keeps 29578229857 s v20) (KeepsP.ofEq ?_ v21) (fun k22 => ?_)
            · clear v21
              refine KeepsP.ite ?_ ?_
              · refine KeepsP.step (cohGate_keeps ..) rfl ?_
                exact Keeps.refl
              · refine KeepsP.mk ?_
                exact Keeps.refl
            clear v21
            refine Keeps.step (waitFor_keeps ..) rfl ?_
            exact k22
          · rename_i v23 v24 v25
            refine Keeps.cut (p := Keeps 29578229857 s v24) (KeepsP.ofEq ?_ v25) (fun k26 => ?_)
            · clear v25
              refine KeepsP.ite ?_ ?_
              · refine KeepsP.step (cohGate_keeps ..) rfl ?_
                exact Keeps.refl
              · refine KeepsP.mk ?_
                exact Keeps.refl
            clear v25
            split
            · rename_i v27 v28
              refine Keeps.step (waitFor_keeps ..) rfl ?_
              exact k26
            · rename_i v29 v30 v31
              refine Keeps.cut (p := Keeps 29578229857 s v30) (KeepsO.ofEq ?_ v31) (fun k32 => ?_)
              · clear v31
                refine KeepsO.step (useBudget_keeps _ _ _) rfl ?_
                exact k26
              clear v31
              split
              rename_i v33 v34 v35 v36 v37
              refine Keeps.cut (p := Keeps 29578229857 s v34) (KeepsP.ofEq ?_ v37) (fun k38 => ?_)
              · clear v37
                refine KeepsP.step (storePieces_keeps ..) rfl ?_
                exact k32
              clear v37
              refine Keeps.step (finishWrite_keeps ..) rfl ?_
              exact k38

theorem atomicDo_keeps (w) (g) (ps) (got) (s : State) : Keeps 29578229857 s (atomicDo w g ps got s) := by
  unfold atomicDo
  extract_lets +onlyGivenNames x1
  clear_value x1
  extract_lets +onlyGivenNames x2
  clear_value x2
  extract_lets +onlyGivenNames x3
  clear_value x3
  refine Keeps.ite ?_ ?_
  · split
    · rename_i v4 v5
      refine Keeps.step (waitFor_keeps ..) rfl ?_
      exact Keeps.refl
    · rename_i v6 v7 v8
      refine Keeps.cut (p := Keeps 29578229857 s v7) (KeepsO.ofEq ?_ v8) (fun k9 => ?_)
      · clear v8
        refine KeepsO.step (useBudget_keeps _ _ _) rfl ?_
        exact Keeps.refl
      clear v8
      split
      · rename_i v10 v11 v12
        refine Keeps.cut (p := Keeps 29578229857 s v11) (KeepsP.ofEq ?_ v12) (fun k13 => ?_)
        · clear v12
          refine KeepsP.step (readPieces_keeps ..) rfl ?_
          exact k9
        clear v12
        refine Keeps.step (finishSt_keeps ..) rfl ?_
        exact k13
      · rename_i v14 v15 v16 v17
        refine Keeps.cut (p := Keeps 29578229857 s v15) (KeepsP.ofEq ?_ v17) (fun k18 => ?_)
        · clear v17
          refine KeepsP.step (readPieces_keeps ..) rfl ?_
          exact k9
        clear v17
        extract_lets +onlyGivenNames x19
        clear_value x19
        extract_lets +onlyGivenNames x20
        clear_value x20
        split
        · rename_i v21 v22
          refine Keeps.step (finishMem_keeps ..) rfl ?_
          exact k18
        · rename_i v23 v24 v25
          split
          rename_i v26 v27 v28 v29 v30
          refine Keeps.cut (p := Keeps 29578229857 s v27) (KeepsP.ofEq ?_ v30) (fun k31 => ?_)
          · clear v30
            refine KeepsP.step (storePieces_keeps ..) rfl ?_
            exact k18
          clear v30
          refine Keeps.step (finishWrite_keeps ..) rfl ?_
          exact k31
  · split
    rename_i v32 v33 v34 v35
    refine Keeps.cut (p := Keeps 29578229857 s v33) (KeepsP.ofEq ?_ v35) (fun k36 => ?_)
    · clear v35
      refine KeepsP.step (anchorRds_keeps ..) rfl ?_
      exact Keeps.refl
    clear v35
    refine Keeps.step (waitFor_keeps ..) rfl ?_
    exact k36

theorem atomicRun_keeps (w) (got) (s : State) : Keeps 29578229857 s (atomicRun w got s) := by
  unfold atomicRun
  extract_lets +onlyGivenNames x1
  clear_value x1
  extract_lets +onlyGivenNames x2
  clear_value x2
  refine Keeps.ite ?_ ?_
  · refine Keeps.step (finishSt_keeps ..) rfl ?_
    exact Keeps.refl
  · split
    · rename_i v3 v4 v5
      refine Keeps.step (finishSt_keeps ..) rfl ?_
      exact Keeps.refl
    · rename_i v6 v7 v8 v9 v10
      extract_lets +onlyGivenNames x11
      clear_value x11
      extract_lets +onlyGivenNames x12
      clear_value x12
      refine Keeps.ite ?_ ?_
      · refine Keeps.step (finishSt_keeps ..) rfl ?_
        exact Keeps.refl
      · refine Keeps.ite ?_ ?_
        · split
          · rename_i v13 v14 v15
            refine Keeps.cut (p := Keeps 29578229857 s v14) (KeepsP.ofEq ?_ v15) (fun k16 => ?_)
            · clear v15
              refine KeepsP.step (cohGate_keeps ..) rfl ?_
              exact Keeps.refl
            clear v15
            refine Keeps.step (finishSt_keeps ..) rfl ?_
            exact k16
          · rename_i v17 v18 v19
            refine Keeps.cut (p := Keeps 29578229857 s v18) (KeepsP.ofEq ?_ v19) (fun k20 => ?_)
            · clear v19
              refine KeepsP.step (cohGate_keeps ..) rfl ?_
              exact Keeps.refl
            clear v19
            refine Keeps.step (waitFor_keeps ..) rfl ?_
            exact k20
          · rename_i v21 v22 v23
            refine Keeps.cut (p := Keeps 29578229857 s v22) (KeepsP.ofEq ?_ v23) (fun k24 => ?_)
            · clear v23
              refine KeepsP.step (cohGate_keeps ..) rfl ?_
              exact Keeps.refl
            clear v23
            refine Keeps.ite ?_ ?_
            · refine Keeps.step (finishSt_keeps ..) rfl ?_
              exact k24
            · refine Keeps.step (atomicDo_keeps ..) rfl ?_
              refine Keeps.step (setDir_keeps ..) rfl ?_
              exact k24
        · refine Keeps.step (atomicDo_keeps ..) rfl ?_
          exact Keeps.refl

theorem memAttempt_keeps (w) (got) (s : State) : Keeps 29578229857 s (memAttempt w got s) := by
  unfold memAttempt
  refine Keeps.ite ?_ ?_
  · refine Keeps.step (loadRun_keeps ..) rfl ?_
    exact Keeps.refl
  · refine Keeps.ite ?_ ?_
    · refine Keeps.step (atomicRun_keeps ..) rfl ?_
      exact Keeps.refl
    · refine Keeps.step (storeRun_keeps ..) rfl ?_
      exact Keeps.refl

theorem retryOne_keeps (w) (got) (s : State) : Keeps 29578229857 s (retryOne w got s) := by
  unfold retryOne
  refine Keeps.step (memAttempt_keeps ..) rfl ?_
  refine Keeps.step (setSvc_keeps ..) rfl ?_
  refine Keeps.step (setVrb_keeps ..) rfl ?_
  exact Keeps.refl

theorem retryCoh_keeps (s : State) : Keeps 29578229857 s (retryCoh s) := by
  unfold retryCoh
  refine Keeps.foldl (fun x1 a2 => ?_) ?_
  · refine Keeps.step (retryOne_keeps ..) rfl ?_
    exact Keeps.refl
  · exact Keeps.refl

theorem retryBudget_keeps (s : State) : Keeps 29578229857 s (retryBudget s) := by
  unfold retryBudget
  refine Keeps.foldl (fun x1 a2 => ?_) ?_
  · refine Keeps.step (retryOne_keeps ..) rfl ?_
    exact Keeps.refl
  · exact Keeps.refl

end Sys2Proof.Machine
end

