-- ==== Sys2Proof/Laws/KeepsReset.lean ====
section
/-! SUPPORT. What each operation of Machine/Reset.lean can touch, that it goes onward and that it keeps the invariant. -/

namespace Sys2Proof.Machine

theorem alertPin_keeps (s : State) : Keeps 2147483904 s (alertPin s) := by
  unfold alertPin
  refine Keeps.ite ?_ ?_
  · exact Keeps.refl
  · refine Keeps.step (emit_keeps ..) rfl ?_
    refine Keeps.step (setBel_keeps ..) rfl ?_
    exact Keeps.refl

theorem insertBy_length {α : Type} (le : α → α → Bool) (x : α) (l : List α) : (insertBy le x l).length = l.length + 1 := by
  induction l with
  | nil => rfl
  | cons y l ih => rw [insertBy]; split <;> simp [ih]

theorem sortBy_length {α : Type} (le : α → α → Bool) (l : List α) : (sortBy le l).length = l.length := by
  induction l with
  | nil => rfl
  | cons y l ih => rw [sortBy, insertBy_length, ih]; rfl

theorem newestFirst_length (l : List CairnRec) : (newestFirst l).length = l.length := sortBy_length _ l

theorem emergRecord_keeps (ch : Nat) (v : Int) (s : State) : Keeps 64 s (emergRecord ch v s) := by
  unfold emergRecord
  extract_lets +onlyGivenNames u r x
  have k : Keeps 64 s x := by
    dsimp -zeta only [x]
    exact Keeps.ite Keeps.refl (setCrn_keeps _ _ (fun _ h => h) (fun _ _ => Nat.zero_le _))
  clear_value x
  refine Keeps.step (setCrn_keeps _ _ (fun _ h => h) (fun c _ => ?_)) rfl k
  rw [newestFirst_length, List.length_take]
  exact Nat.min_le_left _ _

theorem retentionCopy_keeps (s : State) : Keeps 64 s (retentionCopy s) := by
  unfold retentionCopy
  refine Keeps.ite ?_ Keeps.refl
  extract_lets +onlyGivenNames own crit
  refine upd_crn_keeps _ _ id (fun h => ?_)
  show (newestFirst (own ++ crit.map _)).length ≤ 64
  have ho : own.length ≤ 64 := by
    show (if s.crn.retOwn then s.crn.ret else []).length ≤ 64
    split
    · exact h
    · exact Nat.zero_le _
  have hc : crit.length ≤ 64 - own.length := by
    show (List.take _ _).length ≤ _
    rw [List.length_take]
    exact Nat.min_le_left _ _
  rw [newestFirst_length, List.length_append, List.length_map]
  omega

theorem freshStacks_length (s : State) : (freshStacks s).length = 32 := by simp [freshStacks]

theorem resetModule_keeps (cause : Nat) (hold : Hold) (s : State) : Keeps 33084669951 s (resetModule cause hold s) := by
  unfold resetModule
  extract_lets +onlyGivenNames x off
  have k : Keeps 33084669951 s x := (retentionCopy_keeps s).mono rfl
  clear_value x
  refine Keeps.step (alertPin_keeps _) rfl (k.trans ?_)
  refine ⟨fun p => by cases p <;> first | exact fun _ => rfl | exact fun h => (nomatch h), ?_, ?_⟩
  · exact ⟨Nat.le_refl _, Nat.le_refl _, Nat.le_refl _, List.prefix_refl _, rfl, BitVec.and_self, BitVec.and_self⟩
  · exact fun i => ⟨rfl, Nat.zero_le _, i.retained, freshStacks_length x⟩

theorem belayStops_keeps (s : State) : Keeps 32 s (belayStops s) := by
  unfold belayStops
  refine Keeps.ite ?_ ?_
  · refine Keeps.step (setIsl_keeps ..) rfl ?_
    exact Keeps.refl
  · exact Keeps.refl

theorem wakeUp_keeps (src) (s : State) : Keeps 19327614984 s (wakeUp src s) := by
  unfold wakeUp
  extract_lets +onlyGivenNames x1
  refine Keeps.cut (p := Keeps 19327614984 s x1) ?_ (fun k2 => ?_)
  · dsimp -zeta only [x1]
    refine Keeps.step (setBoot_keeps ..) rfl ?_
    exact Keeps.refl
  clear_value x1
  extract_lets +onlyGivenNames x3
  refine Keeps.cut (p := Keeps 19327614984 s x3) ?_ (fun k4 => ?_)
  · dsimp -zeta only [x3]
    refine Keeps.foldl (fun x5 a6 => ?_) ?_
    · refine Keeps.ite ?_ ?_
      · refine Keeps.step (payReturns_keeps ..) rfl ?_
        refine Keeps.step (sendCtl_keeps ..) rfl ?_
        refine Keeps.step (modPort_keeps ..) rfl ?_
        exact Keeps.refl
      · exact Keeps.refl
    · exact k2
  clear_value x3
  refine Keeps.step (upd_stks_keeps _ _ (fun h => by simp [h])) rfl ?_
  exact k4

theorem wakeDiffers_keeps (s : State) : KeepsP 1073741824 s (wakeDiffers s) := by
  unfold wakeDiffers
  extract_lets +onlyGivenNames x1
  split
  rename_i v2 v3 v4 v5
  refine Keeps.cut (p := Keeps 1073741824 s v3) (KeepsP.ofEq ?_ v5) (fun k6 => ?_)
  · clear v5
    refine KeepsP.step (takeFree_keeps ..) rfl ?_
    exact Keeps.refl
  clear v5
  refine KeepsP.mk ?_
  exact k6

theorem wakeChecked_keeps (src) (s : State) : Keeps 34158411775 s (wakeChecked src s) := by
  unfold wakeChecked
  split
  rename_i v1 v2 v3 v4
  refine Keeps.cut (p := Keeps 34158411775 s v2) (KeepsP.ofEq ?_ v4) (fun k5 => ?_)
  · clear v4
    refine KeepsP.step (wakeDiffers_keeps ..) rfl ?_
    exact Keeps.refl
  clear v4
  refine Keeps.ite ?_ ?_
  · refine Keeps.step (resetModule_keeps ..) rfl ?_
    exact k5
  · refine Keeps.step (wakeUp_keeps ..) rfl ?_
    exact k5

theorem mgmtWake_keeps (s : State) : Keeps 34158411775 s (mgmtWake s) := by
  unfold mgmtWake
  refine Keeps.ite ?_ ?_
  · refine Keeps.step (wakeChecked_keeps ..) rfl ?_
    exact Keeps.refl
  · exact Keeps.refl

end Sys2Proof.Machine
end

