-- ==== Sys2Proof/Laws/KeepsMgmtOps.lean ====
section
/-! SUPPORT. What each operation of Machine/MgmtOps.lean can touch, that it goes onward and that it keeps the invariant. -/

namespace Sys2Proof.Machine

theorem mgmtReply_keeps (sess) (st) (data) (s : State) : Keeps 2147483648 s (mgmtReply sess st data s) := by
  unfold mgmtReply
  refine Keeps.step (emit_keeps ..) rfl ?_
  exact Keeps.refl

theorem mgmtDenied_keeps (sess) (s : State) : Keeps 2147484672 s (mgmtDenied sess s) := by
  unfold mgmtDenied
  refine Keeps.step (mgmtReply_keeps ..) rfl ?_
  refine Keeps.step (upd_glb_keeps _ _) rfl ?_
  exact Keeps.refl

theorem withSess_keeps {sess t : Nat} {n : Need} {f : State → State} {s : State} {M : Nat} (hm : 34292629503 ||| M = M)
    (h : ∀ s, Keeps M s (f s)) : Keeps M s (withSess sess t n f s) := by
  unfold withSess
  extract_lets +onlyGivenNames x
  have k : Keeps M s x := ((atTime_keeps t s).mono (mask_trans rfl hm)).trans
    (((noteStep4_keeps _).mono (mask_trans rfl hm)).trans ((mgmtWake_keeps _).mono (mask_trans rfl hm)))
  clear_value x
  split
  · exact k
  · extract_lets +onlyGivenNames y
    have k1 : Keeps M s y := k.trans ((setMgmt_keeps _ x).mono (mask_trans rfl hm))
    clear_value y
    split
    · exact k1.trans (h y)
    · exact k1.trans ((mgmtReply_keeps _ _ _ y).mono (mask_trans rfl hm))

theorem withWrite_keeps {sess t : Nat} {f : State → State} {s : State} {M : Nat} (hm : 34292629503 ||| M = M)
    (h : ∀ s, Keeps M s (f s)) : Keeps M s (withWrite sess t f s) := by
  unfold withWrite
  extract_lets +onlyGivenNames x
  have k : Keeps M s x := ((atTime_keeps t s).mono (mask_trans rfl hm)).trans
    (((noteStep4_keeps _).mono (mask_trans rfl hm)).trans ((mgmtWake_keeps _).mono (mask_trans rfl hm)))
  clear_value x
  split
  · exact k
  · extract_lets +onlyGivenNames y
    have k1 : Keeps M s y := k.trans ((setMgmt_keeps _ x).mono (mask_trans rfl hm))
    clear_value y
    split
    · exact k1.trans (h y)
    · exact k1.trans ((mgmtDenied_keeps _ y).mono (mask_trans rfl hm))

end Sys2Proof.Machine
end

