-- ==== Sys2Proof/Laws/KeepsEngOps.lean ====
section
/-! SUPPORT. What each operation of Machine/EngOps.lean can touch, that it goes onward and that it keeps the invariant. -/

namespace Sys2Proof.Machine

theorem serveTenant_keeps (n) (tid) (s : State) : Keeps 32768 s (serveTenant n tid s) := by
  unfold serveTenant
  refine Keeps.step (modEng_keeps ..) rfl ?_
  exact Keeps.refl

theorem noteFlags_keeps (n) (fl) (s : State) : Keeps 32768 s (noteFlags n fl s) := by
  unfold noteFlags
  extract_lets +onlyGivenNames x1
  clear_value x1
  refine Keeps.step (modEng_keeps ..) rfl ?_
  exact Keeps.refl

theorem clearFlags_keeps (n) (s : State) : Keeps 32768 s (clearFlags n s) := by
  unfold clearFlags
  refine Keeps.step (modEng_keeps ..) rfl ?_
  exact Keeps.refl

theorem noteEsc_keeps (k) (s : State) : Keeps 32768 s (noteEsc k s) := by
  unfold noteEsc
  refine Keeps.step (setFe_keeps ..) rfl ?_
  exact Keeps.refl

theorem setSpare_keeps (k) (pos) (x) (s : State) : Keeps 17179869184 s (setSpare k pos x s) := by
  unfold setSpare
  refine Keeps.ite ?_ ?_
  · refine Keeps.step (modStack_keeps ..) rfl ?_
    exact Keeps.refl
  · refine Keeps.ite ?_ ?_
    · refine Keeps.step (modStack_keeps ..) rfl ?_
      exact Keeps.refl
    · exact Keeps.refl

theorem quarantine_keeps (n) (kind) (tid) (st) (s : State) : Keeps 20442894400 s (quarantine n kind tid st s) := by
  unfold quarantine
  extract_lets +onlyGivenNames x1
  clear_value x1
  refine Keeps.ite ?_ ?_
  · exact Keeps.refl
  · extract_lets +onlyGivenNames x2
    clear_value x2
    extract_lets +onlyGivenNames x3
    refine Keeps.cut (p := Keeps 20442894400 s x3) ?_ (fun k4 => ?_)
    · dsimp -zeta only [x3]
      refine Keeps.step (setFe_keeps ..) rfl ?_
      exact Keeps.refl
    clear_value x3
    extract_lets +onlyGivenNames x5
    refine Keeps.cut (p := Keeps 20442894400 s x5) ?_ (fun k6 => ?_)
    · dsimp -zeta only [x5]
      refine Keeps.step (setSpare_keeps ..) rfl ?_
      exact k4
    clear_value x5
    extract_lets +onlyGivenNames x7
    refine Keeps.cut (p := Keeps 20442894400 s x7) ?_ (fun k8 => ?_)
    · dsimp -zeta only [x7]
      refine Keeps.foldl (fun x9 a10 => ?_) ?_
      · refine Keeps.step (abortRun_keeps ..) rfl ?_
        exact Keeps.refl
      · exact k6
    clear_value x7
    extract_lets +onlyGivenNames x11
    clear_value x11
    split
    · rename_i v12 v13 v14
      extract_lets +onlyGivenNames x15
      refine Keeps.cut (p := Keeps 20442894400 s x15) ?_ (fun k16 => ?_)
      · dsimp -zeta only [x15]
        refine Keeps.step (setSpare_keeps ..) rfl ?_
        exact k8
      clear_value x15
      extract_lets +onlyGivenNames x17
      refine Keeps.cut (p := Keeps 20442894400 s x17) ?_ (fun k18 => ?_)
      · dsimp -zeta only [x17]
        refine Keeps.step (modEng_keeps ..) rfl ?_
        exact k16
      clear_value x17
      refine Keeps.step (cairnAt_keeps ..) rfl ?_
      exact k18
    · rename_i v19 v20
      refine Keeps.step (engineOut_keeps ..) rfl ?_
      exact k8

theorem abftLast_keeps (failed) (n) (tid) (ratio) (pos) (s : State) : Keeps 32768 s (abftLast failed n tid ratio pos s) := by
  unfold abftLast
  refine Keeps.ite ?_ ?_
  · exact Keeps.refl
  · refine Keeps.step (setFe_keeps ..) rfl ?_
    exact Keeps.refl

theorem abftRecovered_keeps (n) (tid) (ratio) (pos) (s : State) : Keeps 2147516480 s (abftRecovered n tid ratio pos s) := by
  unfold abftRecovered
  refine Keeps.step (cairnAt_keeps ..) rfl ?_
  refine Keeps.step (abftLast_keeps ..) rfl ?_
  refine Keeps.step (setFe_keeps ..) rfl ?_
  exact Keeps.refl

theorem abftFailed_keeps (n) (tid) (ratio) (pos) (s : State) : Keeps 20442894400 s (abftFailed n tid ratio pos s) := by
  unfold abftFailed
  refine Keeps.step (quarantine_keeps ..) rfl ?_
  refine Keeps.step (abftLast_keeps ..) rfl ?_
  refine Keeps.step (setFe_keeps ..) rfl ?_
  exact Keeps.refl

end Sys2Proof.Machine
end

