-- ==== Sys2Proof/Laws/KeepsBulkOps.lean ====
section
/-! SUPPORT. What each operation of Machine/BulkOps.lean can touch, that it goes onward and that it keeps the invariant. -/

namespace Sys2Proof.Machine

theorem modBq_keeps (i) (f) (s : State) : Keeps 8192 s (modBq i f s) := by
  unfold modBq
  refine Keeps.step (setBulk_keeps ..) rfl ?_
  exact Keeps.refl

theorem spanWhole_keeps (s : State) (got) (base) (len) (x) : KeepsP 29041358945 s (spanWhole s got base len x) := by
  unfold spanWhole
  extract_lets +onlyGivenNames x1
  clear_value x1
  refine KeepsP.ite ?_ ?_
  · refine KeepsP.mk ?_
    exact Keeps.refl
  · split
    rename_i v2 v3 v4 v5
    refine Keeps.cut (p := Keeps 29041358945 s v3) (KeepsP.ofEq ?_ v5) (fun k6 => ?_)
    · clear v5
      refine KeepsP.step (readPieces_keeps ..) rfl ?_
      exact Keeps.refl
    clear v5
    refine KeepsP.mk ?_
    exact k6

theorem spanRead_keeps (x) (pos) (len) (s : State) : KeepsP 29041358945 s (spanRead x pos len s) := by
  unfold spanRead
  split
  · rename_i v1 v2 v3
    refine KeepsP.mk ?_
    exact Keeps.refl
  · rename_i v4 v5
    extract_lets +onlyGivenNames x6
    clear_value x6
    extract_lets +onlyGivenNames x7
    clear_value x7
    refine KeepsP.ite ?_ ?_
    · refine KeepsP.mk ?_
      exact Keeps.refl
    · refine KeepsP.ite ?_ ?_
      · refine KeepsP.mk ?_
        exact Keeps.refl
      · split
        · rename_i v8 v9 v10 v11
          refine Keeps.cut (p := Keeps 29041358945 s v9) (KeepsP.ofEq ?_ v11) (fun k12 => ?_)
          · clear v11
            refine KeepsP.step (readPieces_keeps ..) rfl ?_
            exact Keeps.refl
          clear v11
          refine KeepsP.mk ?_
          exact k12
        · rename_i v13 v14 v15
          refine Keeps.cut (p := Keeps 29041358945 s v14) (KeepsP.ofEq ?_ v15) (fun k16 => ?_)
          · clear v15
            refine KeepsP.step (readPieces_keeps ..) rfl ?_
            exact Keeps.refl
          clear v15
          refine KeepsP.mk ?_
          exact k16

theorem descData_keeps (d) (srcs) (pos) (len) (s : State) : KeepsP 29041358945 s (descData d srcs pos len s) := by
  unfold descData
  split
  · rename_i v1 v2 v3 v4
    refine KeepsP.mk ?_
    exact Keeps.refl
  · rename_i v5 v6 v7 v8 v9
    refine KeepsP.step (spanRead_keeps ..) rfl ?_
    exact Keeps.refl
  · rename_i v10 v11 v12 v13 v14 v15
    extract_lets +onlyGivenNames x16
    clear_value x16
    extract_lets +onlyGivenNames x17
    clear_value x17
    extract_lets +onlyGivenNames x18
    clear_value x18
    split
    rename_i v19 v20 v21 v22 v23
    refine Keeps.cut (p := Keeps 29041358945 s v20) (KeepsP.ofEq ?_ v23) (fun k24 => ?_)
    · clear v23
      refine KeepsP.step (spanRead_keeps ..) rfl ?_
      exact Keeps.refl
    clear v23
    refine KeepsP.ite ?_ ?_
    · refine KeepsP.mk ?_
      exact k24
    · split
      rename_i v25 v26 v27 v28 v29
      refine Keeps.cut (p := Keeps 29041358945 s v26) (KeepsP.ofEq ?_ v29) (fun k30 => ?_)
      · clear v29
        refine KeepsP.step (spanRead_keeps ..) rfl ?_
        exact k24
      clear v29
      refine KeepsP.mk ?_
      exact k30
  · rename_i v31 v32 v33 v34 v35 v36
    refine KeepsP.mk ?_
    exact Keeps.refl

theorem descPiece_keeps (d) (g) (srcs) (p) (s : State) : KeepsP 29578229857 s (descPiece d g srcs p s) := by
  unfold descPiece
  split
  rename_i v1 v2 v3 v4 v5
  refine Keeps.cut (p := Keeps 29578229857 s v2) (KeepsP.ofEq ?_ v5) (fun k6 => ?_)
  · clear v5
    refine KeepsP.step (descData_keeps ..) rfl ?_
    exact Keeps.refl
  clear v5
  refine KeepsP.ite ?_ ?_
  · refine KeepsP.mk ?_
    exact k6
  · split
    rename_i v7 v8 v9 v10 v11
    refine Keeps.cut (p := Keeps 29578229857 s v8) (KeepsP.ofEq ?_ v11) (fun k12 => ?_)
    · clear v11
      refine KeepsP.step (storePieces_keeps ..) rfl ?_
      exact k6
    clear v11
    refine KeepsP.mk ?_
    exact k12

theorem descStray_keeps (d) (g) (srcs) (a) (s : State) : KeepsP 29578229857 s (descStray d g srcs a s) := by
  induction a generalizing d g srcs s
  · unfold descStray
    refine KeepsP.mk ?_
    exact Keeps.refl
  · rename_i v1 v2 v3
    unfold descStray
    dsimp -zeta only
    refine KeepsP.mk ?_
    refine KeepsP.fst ?_
    refine KeepsP.step (v3 _ _ _ _) (Nat.or_self _) ?_
    refine KeepsP.fst ?_
    refine KeepsP.ite ?_ ?_
    · refine KeepsP.step (descPiece_keeps ..) rfl ?_
      refine KeepsP.fst ?_
      refine KeepsP.step (takeFree_keeps ..) rfl ?_
      exact Keeps.refl
    · refine KeepsP.mk ?_
      refine KeepsP.fst ?_
      refine KeepsP.step (takeFree_keeps ..) rfl ?_
      exact Keeps.refl

theorem descWrite_keeps (d) (g) (srcs) (a) (s : State) : KeepsP 29578229857 s (descWrite d g srcs a s) := by
  induction a generalizing d g srcs s
  · unfold descWrite
    refine KeepsP.mk ?_
    exact Keeps.refl
  · rename_i v1 v2 v3
    unfold descWrite
    dsimp -zeta only
    refine KeepsP.ite ?_ ?_
    · refine KeepsP.mk ?_
      refine KeepsP.fst ?_
      refine KeepsP.step (descStray_keeps ..) rfl ?_
      refine KeepsP.fst ?_
      refine KeepsP.step (descPiece_keeps ..) rfl ?_
      exact Keeps.refl
    · refine KeepsP.mk ?_
      refine KeepsP.fst ?_
      refine KeepsP.step (v3 _ _ _ _) (Nat.or_self _) ?_
      refine KeepsP.fst ?_
      refine KeepsP.step (descPiece_keeps ..) rfl ?_
      exact Keeps.refl

theorem descCompare_keeps (x) (y) (len) (a) (a1) (s : State) : KeepsP 29041358945 s (descCompare x y len a a1 s) := by
  induction a generalizing x y len a1 s
  · unfold descCompare
    refine KeepsP.mk ?_
    exact Keeps.refl
  · rename_i v1 v2
    unfold descCompare
    dsimp -zeta only
    refine KeepsP.ite ?_ ?_
    · refine KeepsP.mk ?_
      exact Keeps.refl
    · extract_lets +onlyGivenNames x3
      clear_value x3
      refine KeepsP.ite ?_ ?_
      · refine KeepsP.mk ?_
        refine KeepsP.fst ?_
        refine KeepsP.step (spanRead_keeps ..) rfl ?_
        exact Keeps.refl
      · refine KeepsP.ite ?_ ?_
        · refine KeepsP.mk ?_
          refine KeepsP.fst ?_
          refine KeepsP.step (spanRead_keeps ..) rfl ?_
          refine KeepsP.fst ?_
          refine KeepsP.step (spanRead_keeps ..) rfl ?_
          exact Keeps.refl
        · split
          · rename_i v4 v5 v6
            refine KeepsP.mk ?_
            refine KeepsP.fst ?_
            refine KeepsP.step (spanRead_keeps ..) rfl ?_
            refine KeepsP.fst ?_
            refine KeepsP.step (spanRead_keeps ..) rfl ?_
            exact Keeps.refl
          · rename_i v7 v8
            refine KeepsP.step (v2 _ _ _ _ _) (Nat.or_self _) ?_
            refine KeepsP.fst ?_
            refine KeepsP.step (spanRead_keeps ..) rfl ?_
            refine KeepsP.fst ?_
            refine KeepsP.step (spanRead_keeps ..) rfl ?_
            exact Keeps.refl

theorem modDesc_keeps (q) (n) (f) (s : State) : Keeps 8192 s (modDesc q n f s) := by
  unfold modDesc
  refine Keeps.step (modBq_keeps ..) rfl ?_
  exact Keeps.refl

theorem descEnd_keeps (q) (n) (st) (bytes) (result) (wr) (s : State) : Keeps 8192 s (descEnd q n st bytes result wr s) := by
  unfold descEnd
  refine Keeps.step (modDesc_keeps ..) rfl ?_
  exact Keeps.refl

theorem descGate_keeps (ord) (len) (dst) (srcs) (s : State) : KeepsP 3262922816 s (descGate ord len dst srcs s) := by
  unfold descGate
  extract_lets +onlyGivenNames x1
  clear_value x1
  refine KeepsP.foldl (fun x2 a3 => ?_) ?_
  · obtain ⟨y4, z5⟩ := x2
    dsimp -zeta only
    extract_lets +onlyGivenNames x6
    refine Keeps.cut (p := Keeps 3262922816 y4 x6) ?_ (fun k7 => ?_)
    · dsimp -zeta only [x6]
      refine Keeps.step (dirLookup_keeps ..) rfl ?_
      exact Keeps.refl
    clear_value x6
    extract_lets +onlyGivenNames x8
    clear_value x8
    refine KeepsP.ite ?_ ?_
    · refine KeepsP.mk ?_
      exact k7
    · refine KeepsP.ite ?_ ?_
      · refine KeepsP.mk ?_
        exact k7
      · refine KeepsP.ite ?_ ?_
        · refine KeepsP.mk ?_
          exact k7
        · refine KeepsP.ite ?_ ?_
          · refine KeepsP.mk ?_
            refine Keeps.step (setCoh_keeps ..) rfl ?_
            exact k7
          · refine KeepsP.mk ?_
            refine Keeps.step (lineStart_keeps ..) rfl ?_
            exact k7
  · refine KeepsP.mk ?_
    exact Keeps.refl

theorem serveParts_keeps (tid) (d) (srcs) (dst) (s : State) : Keeps 32768 s (serveParts tid d srcs dst s) := by
  unfold serveParts
  split
  · rename_i v1 v2
    exact Keeps.refl
  · rename_i v3 v4 v5
    extract_lets +onlyGivenNames x6
    clear_value x6
    refine Keeps.foldl (fun x7 a8 => ?_) ?_
    · refine Keeps.step (serveTenant_keeps ..) rfl ?_
      exact Keeps.refl
    · exact Keeps.refl

theorem descRun_keeps (q) (op) (s : State) : Keeps 29578229857 s (descRun q op s) := by
  unfold descRun
  split
  · rename_i v1 v2
    exact Keeps.refl
  · rename_i v3 v4 v5
    extract_lets +onlyGivenNames x6
    clear_value x6
    extract_lets +onlyGivenNames x7
    refine Keeps.cut (p := Keeps 29578229857 s x7) ?_ (fun k8 => ?_)
    · dsimp -zeta only [x7]
      refine Keeps.step (setSvc_keeps ..) rfl ?_
      exact Keeps.refl
    clear_value x7
    extract_lets +onlyGivenNames x9
    clear_value x9
    extract_lets +onlyGivenNames x10
    clear_value x10
    extract_lets +onlyGivenNames x11
    clear_value x11
    extract_lets +onlyGivenNames x12
    clear_value x12
    refine Keeps.ite ?_ ?_
    · exact k8
    · refine Keeps.ite ?_ ?_
      · refine Keeps.step (descEnd_keeps ..) rfl ?_
        exact k8
      · refine Keeps.ite ?_ ?_
        · split
          rename_i v13 v14 v15 v16
          refine Keeps.cut (p := Keeps 29578229857 s v14) (KeepsP.ofEq ?_ v16) (fun k17 => ?_)
          · clear v16
            refine KeepsP.foldl (fun x18 a19 => ?_) ?_
            · obtain ⟨y20, z21⟩ := x18
              dsimp -zeta only
              refine KeepsP.mk ?_
              refine KeepsP.fst ?_
              refine KeepsP.step (anchorRd_keeps ..) rfl ?_
              exact Keeps.refl
            · refine KeepsP.mk ?_
              exact k8
          clear v16
          refine Keeps.step (modDesc_keeps ..) rfl ?_
          exact k17
        · split
          · rename_i v22 v23 v24
            refine Keeps.cut (p := Keeps 29578229857 s v23) (KeepsP.ofEq ?_ v24) (fun k25 => ?_)
            · clear v24
              refine KeepsP.step (descGate_keeps ..) rfl ?_
              exact k8
            clear v24
            refine Keeps.step (modDesc_keeps ..) rfl ?_
            exact k25
          · rename_i v26 v27 v28
            refine Keeps.cut (p := Keeps 29578229857 s v27) (KeepsP.ofEq ?_ v28) (fun k29 => ?_)
            · clear v28
              refine KeepsP.step (descGate_keeps ..) rfl ?_
              exact k8
            clear v28
            refine Keeps.step (descEnd_keeps ..) rfl ?_
            exact k29
          · rename_i v30 v31 v32
            refine Keeps.cut (p := Keeps 29578229857 s v31) (KeepsP.ofEq ?_ v32) (fun k33 => ?_)
            · clear v32
              refine KeepsP.step (descGate_keeps ..) rfl ?_
              exact k8
            clear v32
            split
            rename_i v34 v35 v36 v37
            refine Keeps.cut (p := Keeps 29578229857 s v35) (KeepsP.ofEq ?_ v37) (fun k38 => ?_)
            · clear v37
              refine KeepsP.foldl (fun x39 a40 => ?_) ?_
              · obtain ⟨y41, z42⟩ := x39
                dsimp -zeta only
                refine KeepsP.mk ?_
                refine KeepsP.fst ?_
                refine KeepsP.step (spanWhole_keeps ..) rfl ?_
                exact Keeps.refl
              · refine KeepsP.mk ?_
                refine Keeps.step (serveParts_keeps ..) rfl ?_
                exact k33
            clear v37
            split
            · rename_i v43 v44 v45 v46 v47 v48
              split
              rename_i v49 v50 v51 v52 v53 v54
              refine Keeps.cut (p := Keeps 29578229857 s v50) (KeepsP.ofEq ?_ v54) (fun k55 => ?_)
              · clear v54
                refine KeepsP.step (descCompare_keeps ..) rfl ?_
                exact k38
              clear v54
              refine Keeps.step (descEnd_keeps ..) rfl ?_
              exact k55
            · rename_i v56 v57 v58
              refine Keeps.step (descEnd_keeps ..) rfl ?_
              exact k38
            · rename_i v59 v60 v61 v62 v63 v64
              split
              rename_i v65 v66 v67 v68 v69 v70
              refine Keeps.cut (p := Keeps 29578229857 s v66) (KeepsP.ofEq ?_ v70) (fun k71 => ?_)
              · clear v70
                refine KeepsP.step (descWrite_keeps ..) rfl ?_
                exact k38
              clear v70
              refine Keeps.step (descEnd_keeps ..) rfl ?_
              exact k71
            · rename_i v72 v73 v74 v75 v76 v77
              refine Keeps.step (descEnd_keeps ..) rfl ?_
              exact k38

theorem descRecord_keeps (q) (x) (s : State) : Keeps 3262922816 s (descRecord q x s) := by
  unfold descRecord
  refine Keeps.step (sendMsg_keeps ..) rfl ?_
  exact Keeps.refl

theorem descStop_keeps (x) (s : State) : KeepsP 29578229857 s (descStop x s) := by
  unfold descStop
  extract_lets +onlyGivenNames x1
  clear_value x1
  extract_lets +onlyGivenNames x2
  clear_value x2
  extract_lets +onlyGivenNames x3
  clear_value x3
  extract_lets +onlyGivenNames x4
  clear_value x4
  refine KeepsP.ite ?_ ?_
  · refine KeepsP.mk ?_
    exact Keeps.refl
  · split
    rename_i v5 v6 v7 v8
    refine Keeps.cut (p := Keeps 29578229857 s v6) (KeepsP.ofEq ?_ v8) (fun k9 => ?_)
    · clear v8
      refine KeepsP.step (takeFree_keeps ..) rfl ?_
      exact Keeps.refl
    clear v8
    split
    · rename_i v10
      refine KeepsP.mk ?_
      exact k9
    · rename_i v11 v12
      extract_lets +onlyGivenNames x13
      clear_value x13
      extract_lets +onlyGivenNames x14
      clear_value x14
      split
      rename_i v15 v16 v17 v18 v19 v20
      refine Keeps.cut (p := Keeps 29578229857 s v16) (KeepsP.ofEq ?_ v20) (fun k21 => ?_)
      · clear v20
        refine KeepsP.step (descWrite_keeps ..) rfl ?_
        exact k9
      clear v20
      refine KeepsP.ite ?_ ?_
      · refine KeepsP.mk ?_
        exact k21
      · split
        rename_i v22 v23 v24 v25
        refine Keeps.cut (p := Keeps 29578229857 s v23) (KeepsP.ofEq ?_ v25) (fun k26 => ?_)
        · clear v25
          refine KeepsP.step (descStray_keeps ..) rfl ?_
          exact k21
        clear v25
        refine KeepsP.mk ?_
        exact k26

theorem stopRunning_keeps (hit) (s : State) : Keeps 29578229857 s (stopRunning hit s) := by
  unfold stopRunning
  refine Keeps.foldl (fun x1 a2 => ?_) ?_
  · refine Keeps.foldl (fun x3 a4 => ?_) ?_
    · split
      rename_i v5 v6 v7 v8 v9
      refine Keeps.cut (p := Keeps 29578229857 x3 v6) (KeepsP.ofEq ?_ v9) (fun k10 => ?_)
      · clear v9
        refine KeepsP.step (descStop_keeps ..) rfl ?_
        exact Keeps.refl
      clear v9
      refine Keeps.step (modDesc_keeps ..) rfl ?_
      exact k10
    · exact Keeps.refl
  · exact Keeps.refl

theorem abortPins_keeps (pin) (s : State) : Keeps 29578229857 s (abortPins pin s) := by
  unfold abortPins
  extract_lets +onlyGivenNames x1
  extract_lets +onlyGivenNames x2
  clear_value x2
  refine Keeps.step (setPool_keeps ..) rfl ?_
  refine Keeps.step (setBulk_keeps ..) rfl ?_
  refine Keeps.step (stopRunning_keeps ..) rfl ?_
  exact Keeps.refl

theorem destroyDone_keeps (q) (s : State) : Keeps 3262986304 s (destroyDone q s) := by
  unfold destroyDone
  split
  · rename_i v1 v2
    exact Keeps.refl
  · rename_i v3 v4 v5
    split
    · rename_i v6 v7
      exact Keeps.refl
    · rename_i v8 v9 v10
      refine Keeps.ite ?_ ?_
      · refine Keeps.step (freeIndex_keeps ..) rfl ?_
        refine Keeps.step (complete_keeps ..) rfl ?_
        refine Keeps.step (setBulk_keeps ..) rfl ?_
        exact Keeps.refl
      · exact Keeps.refl

theorem headDone_keeps (q) (s : State) : Keeps 3263002688 s (headDone q s) := by
  unfold headDone
  split
  · rename_i v1 v2
    exact Keeps.refl
  · rename_i v3 v4 v5
    split
    · rename_i v6 v7
      exact Keeps.refl
    · rename_i v8 v9 v10 v11
      refine Keeps.ite ?_ ?_
      · extract_lets +onlyGivenNames x12
        refine Keeps.cut (p := Keeps 3263002688 s x12) ?_ (fun k13 => ?_)
        · dsimp -zeta only [x12]
          refine Keeps.step (modBq_keeps ..) rfl ?_
          exact Keeps.refl
        clear_value x12
        extract_lets +onlyGivenNames x14
        refine Keeps.cut (p := Keeps 3263002688 s x14) ?_ (fun k15 => ?_)
        · dsimp -zeta only [x14]
          refine Keeps.ite ?_ ?_
          · refine Keeps.step (descRecord_keeps ..) rfl ?_
            exact k13
          · exact k13
        clear_value x14
        refine Keeps.step (destroyDone_keeps ..) rfl ?_
        exact k15
      · exact Keeps.refl

end Sys2Proof.Machine
end

