-- ==== Sys2Proof/Laws/KeepsCrypto.lean ====
section
/-! SUPPORT. What each operation of Machine/Crypto.lean can touch, that it goes onward and that it keeps the invariant. -/

namespace Sys2Proof.Machine

theorem noteHistory_keeps (kind) (op) (tid) (digest) (s : State) : Keeps 16777216 s (noteHistory kind op tid digest s) := by
  unfold noteHistory
  extract_lets +onlyGivenNames x1
  refine Keeps.step (setOnx_keeps _ _ (fun _ => rfl)) rfl ?_
  exact Keeps.refl

end Sys2Proof.Machine
end

