-- ==== Sys2Proof/Laws/KeepsScrub.lean ====
section
/-! SUPPORT. What each operation of Machine/Scrub.lean can touch, that it goes onward and that it keeps the invariant. -/

namespace Sys2Proof.Machine

theorem modTrv_keeps (tid) (f) (s : State) : Keeps 8388608 s (modTrv tid f s) := by
  unfold modTrv
  extract_lets +onlyGivenNames x1
  clear_value x1
  refine Keeps.step (setTrv_keeps ..) rfl ?_
  exact Keeps.refl

theorem passLine_keeps (tid) (s : State) (x) : Keeps 29578229857 s (passLine tid s x) := by
  unfold passLine
  split
  rename_i v1 v2 v3 v4
  refine Keeps.cut (p := Keeps 29578229857 s v2) (KeepsP.ofEq ?_ v4) (fun k5 => ?_)
  · clear v4
    refine KeepsP.step (readLine_keeps ..) rfl ?_
    refine Keeps.step (setSvc_keeps ..) rfl ?_
    exact Keeps.refl
  clear v4
  refine Keeps.step (modTrv_keeps ..) rfl ?_
  exact k5

theorem passStack_keeps (p) (hits) (s : State) (k) : Keeps 17179869184 s (passStack p hits s k) := by
  unfold passStack
  extract_lets +onlyGivenNames x1
  clear_value x1
  refine Keeps.ite ?_ ?_
  · exact Keeps.refl
  · extract_lets +onlyGivenNames x2
    extract_lets +onlyGivenNames x3
    clear_value x3
    refine Keeps.step (modStack_keeps ..) rfl ?_
    refine Keeps.step (touchStack_keeps ..) rfl ?_
    exact Keeps.refl

theorem passRead_keeps (tid) (m) (s : State) : Keeps 29578229857 s (passRead tid m s) := by
  unfold passRead
  extract_lets +onlyGivenNames x1
  clear_value x1
  extract_lets +onlyGivenNames x2
  clear_value x2
  extract_lets +onlyGivenNames x3
  clear_value x3
  extract_lets +onlyGivenNames x4
  refine Keeps.cut (p := Keeps 29578229857 s x4) ?_ (fun k5 => ?_)
  · dsimp -zeta only [x4]
    refine Keeps.foldl (fun x6 a7 => ?_) ?_
    · refine Keeps.step (passStack_keeps ..) rfl ?_
      exact Keeps.refl
    · exact Keeps.refl
  clear_value x4
  extract_lets +onlyGivenNames x8
  refine Keeps.cut (p := Keeps 29578229857 s x8) ?_ (fun k9 => ?_)
  · dsimp -zeta only [x8]
    refine Keeps.foldl (fun x10 a11 => ?_) ?_
    · refine Keeps.step (passLine_keeps ..) rfl ?_
      exact Keeps.refl
    · exact k5
  clear_value x8
  refine Keeps.step (modTrv_keeps ..) rfl ?_
  exact k9

theorem trvEnd_keeps (tid) (result) (s : State) : Keeps 8388608 s (trvEnd tid result s) := by
  unfold trvEnd
  refine Keeps.step (setTrv_keeps ..) rfl ?_
  exact Keeps.refl

theorem trvStop_keeps (tid) (result) (s : State) : Keeps 29578229857 s (trvStop tid result s) := by
  unfold trvStop
  extract_lets +onlyGivenNames x1
  clear_value x1
  refine Keeps.ite ?_ ?_
  · split
    rename_i v2 v3 v4 v5
    refine Keeps.cut (p := Keeps 29578229857 s v3) (KeepsP.ofEq ?_ v5) (fun k6 => ?_)
    · clear v5
      refine KeepsP.step (takeFree_keeps ..) rfl ?_
      exact Keeps.refl
    clear v5
    refine Keeps.step (trvEnd_keeps ..) rfl ?_
    refine Keeps.step (passRead_keeps ..) rfl ?_
    exact k6
  · exact Keeps.refl

theorem trvRevoke_keeps (wins) (s : State) : Keeps 29578229857 s (trvRevoke wins s) := by
  unfold trvRevoke
  refine Keeps.foldl (fun x1 a2 => ?_) ?_
  · refine Keeps.step (trvStop_keeps ..) rfl ?_
    exact Keeps.refl
  · exact Keeps.refl

theorem trvFinish_keeps (tid) (s : State) : Keeps 29578229857 s (trvFinish tid s) := by
  unfold trvFinish
  extract_lets +onlyGivenNames x1
  clear_value x1
  refine Keeps.ite ?_ ?_
  · extract_lets +onlyGivenNames x2
    clear_value x2
    refine Keeps.step (trvEnd_keeps ..) rfl ?_
    refine Keeps.step (passRead_keeps ..) rfl ?_
    exact Keeps.refl
  · exact Keeps.refl

end Sys2Proof.Machine
end

