-- ==== Sys2Proof/Laws/KeepsRevocation.lean ====
section
/-! SUPPORT. What each operation of Machine/Revocation.lean can touch, that it goes onward and that it keeps the invariant. -/

namespace Sys2Proof.Machine

theorem unloadPlan_keeps (i) (s : State) : Keeps 17336320 s (unloadPlan i s) := by
  unfold unloadPlan
  split
  · rename_i v1 v2
    exact Keeps.refl
  · rename_i v3 v4 v5
    extract_lets +onlyGivenNames x6
    refine Keeps.cut (p := Keeps 17336320 s x6) ?_ (fun k7 => ?_)
    · dsimp -zeta only [x6]
      refine Keeps.foldl (fun x8 a9 => ?_) ?_
      · refine Keeps.step (modEng_keeps ..) rfl ?_
        exact Keeps.refl
      · exact Keeps.refl
    clear_value x6
    extract_lets +onlyGivenNames x10
    refine Keeps.cut (p := Keeps 17336320 s x10) ?_ (fun k11 => ?_)
    · dsimp -zeta only [x10]
      refine Keeps.step (setRte_keeps ..) rfl ?_
      exact k7
    clear_value x10
    refine Keeps.step (noteHistory_keeps ..) rfl ?_
    refine Keeps.step (freeIndex_keeps ..) rfl ?_
    refine Keeps.foldl (fun x12 a13 => ?_) ?_
    · refine Keeps.step (freeIndex_keeps ..) rfl ?_
      exact Keeps.refl
    · refine Keeps.step (setFe_keeps ..) rfl ?_
      exact k11

theorem freeSet_keeps (i) (s : State) : Keeps 16844800 s (freeSet i s) := by
  unfold freeSet
  extract_lets +onlyGivenNames x1
  refine Keeps.cut (p := Keeps 16844800 s x1) ?_ (fun k2 => ?_)
  · dsimp -zeta only [x1]
    split
    · rename_i v3 v4 v5
      refine Keeps.step (noteHistory_keeps ..) rfl ?_
      exact Keeps.refl
    · rename_i v6 v7
      exact Keeps.refl
  clear_value x1
  refine Keeps.step (freeIndex_keeps ..) rfl ?_
  refine Keeps.step (setWs_keeps ..) rfl ?_
  exact k2

theorem freeObj_keeps (i) (s : State) : Keeps 133120 s (freeObj i s) := by
  unfold freeObj
  refine Keeps.step (freeIndex_keeps ..) rfl ?_
  refine Keeps.step (setKv_keeps ..) rfl ?_
  exact Keeps.refl

theorem releaseTenant_keeps (tid) (s : State) : Keeps 11869853760 s (releaseTenant tid s) := by
  unfold releaseTenant
  extract_lets +onlyGivenNames x1
  extract_lets +onlyGivenNames x2
  refine Keeps.cut (p := Keeps 11869853760 s x2) ?_ (fun k3 => ?_)
  · dsimp -zeta only [x2]
    refine Keeps.foldl (fun x4 a5 => ?_) ?_
    · refine Keeps.step (unloadPlan_keeps ..) rfl ?_
      refine Keeps.step (abortRun_keeps ..) rfl ?_
      exact Keeps.refl
    · exact Keeps.refl
  clear_value x2
  extract_lets +onlyGivenNames x6
  refine Keeps.cut (p := Keeps 11869853760 s x6) ?_ (fun k7 => ?_)
  · dsimp -zeta only [x6]
    refine Keeps.step (failAll_keeps ..) rfl ?_
    refine Keeps.step (undefAll_keeps ..) rfl ?_
    exact k3
  clear_value x6
  extract_lets +onlyGivenNames x8
  refine Keeps.cut (p := Keeps 11869853760 s x8) ?_ (fun k9 => ?_)
  · dsimp -zeta only [x8]
    refine Keeps.foldl (fun x10 a11 => ?_) ?_
    · refine Keeps.step (freeSet_keeps ..) rfl ?_
      exact Keeps.refl
    · exact k7
  clear_value x8
  refine Keeps.foldl (fun x12 a13 => ?_) ?_
  · refine Keeps.step (freeObj_keeps ..) rfl ?_
    exact Keeps.refl
  · exact k9

theorem recallSlots_keeps (g) (ks) (s : State) : Keeps 3262922816 s (recallSlots g ks s) := by
  unfold recallSlots
  extract_lets +onlyGivenNames x1
  clear_value x1
  refine Keeps.foldl (fun x2 a3 => ?_) ?_
  · split
    · rename_i v4 v5
      extract_lets +onlyGivenNames x6
      clear_value x6
      refine Keeps.foldl (fun x7 a8 => ?_) ?_
      · refine Keeps.step (cohSend_keeps ..) rfl ?_
        exact Keeps.refl
      · refine Keeps.step (setDir_keeps ..) rfl ?_
        exact Keeps.refl
    · rename_i v9 v10
      refine Keeps.step (cohSend_keeps ..) rfl ?_
      refine Keeps.step (setDir_keeps ..) rfl ?_
      exact Keeps.refl
    · rename_i v11 v12
      refine Keeps.step (cohSend_keeps ..) rfl ?_
      refine Keeps.step (setDir_keeps ..) rfl ?_
      exact Keeps.refl
    · rename_i v13 v14 v15 v16
      exact Keeps.refl
  · exact Keeps.refl

theorem detachDone_keeps (g) (ks) (s : State) : KeepsP 2048 s (detachDone g ks s) := by
  unfold detachDone
  extract_lets +onlyGivenNames x1
  clear_value x1
  refine KeepsP.mk ?_
  refine Keeps.foldl (fun x2 a3 => ?_) ?_
  · refine Keeps.step (freeSlot_keeps ..) rfl ?_
    exact Keeps.refl
  · exact Keeps.refl

theorem modRev_keeps (kind) (id) (f) (s : State) : Keeps 2048 s (modRev kind id f s) := by
  unfold modRev
  refine Keeps.step (setPool_keeps ..) rfl ?_
  exact Keeps.refl

theorem revCopies_keeps (v) (s : State) : Keeps 3262924864 s (revCopies v s) := by
  unfold revCopies
  refine Keeps.ite ?_ ?_
  · split
    · rename_i v1 v2
      exact Keeps.refl
    · rename_i v3 v4 v5
      extract_lets +onlyGivenNames x6
      clear_value x6
      extract_lets +onlyGivenNames x7
      refine Keeps.cut (p := Keeps 3262924864 s x7) ?_ (fun k8 => ?_)
      · dsimp -zeta only [x7]
        refine Keeps.step (modRegion_keeps ..) rfl ?_
        exact Keeps.refl
      clear_value x7
      refine Keeps.step (modRev_keeps ..) rfl ?_
      refine Keeps.step (recallSlots_keeps ..) rfl ?_
      exact k8
  · extract_lets +onlyGivenNames x9
    clear_value x9
    extract_lets +onlyGivenNames x10
    clear_value x10
    extract_lets +onlyGivenNames x11
    refine Keeps.cut (p := Keeps 3262924864 s x11) ?_ (fun k12 => ?_)
    · dsimp -zeta only [x11]
      refine Keeps.step (setCoh_keeps ..) rfl ?_
      exact Keeps.refl
    clear_value x11
    extract_lets +onlyGivenNames x13
    clear_value x13
    refine Keeps.step (modRev_keeps ..) rfl ?_
    refine Keeps.foldl (fun x14 a15 => ?_) ?_
    · refine Keeps.step (cohSend_keeps ..) rfl ?_
      exact Keeps.refl
    · exact k12

theorem revSlots_keeps (v) (s : State) : KeepsP 3262924864 s (revSlots v s) := by
  unfold revSlots
  extract_lets +onlyGivenNames x1
  clear_value x1
  refine KeepsP.ite ?_ ?_
  · split
    · rename_i v2
      refine KeepsP.mk ?_
      exact Keeps.refl
    · rename_i v3 v4 v5 v6
      extract_lets +onlyGivenNames x7
      clear_value x7
      split
      rename_i v8 v9 v10 v11
      refine Keeps.cut (p := Keeps 3262924864 s v9) (KeepsP.ofEq ?_ v11) (fun k12 => ?_)
      · clear v11
        refine KeepsP.step (detachDone_keeps ..) rfl ?_
        refine Keeps.step (recallSlots_keeps ..) rfl ?_
        exact Keeps.refl
      clear v11
      refine KeepsP.mk ?_
      exact k12
  · refine KeepsP.mk ?_
    exact Keeps.refl

theorem revokeDone_keeps (kind) (id) (tid) (node) (sess) (grants) (s : State) : Keeps 3262922816 s (revokeDone kind id tid node sess grants s) := by
  unfold revokeDone
  extract_lets +onlyGivenNames x1
  refine Keeps.cut (p := Keeps 3262922816 s x1) ?_ (fun k2 => ?_)
  · dsimp -zeta only [x1]
    split
    · rename_i v3 v4
      refine Keeps.step (event_keeps ..) rfl ?_
      exact Keeps.refl
    · rename_i v5
      exact Keeps.refl
  clear_value x1
  extract_lets +onlyGivenNames x6
  refine Keeps.cut (p := Keeps 3262922816 s x6) ?_ (fun k7 => ?_)
  · dsimp -zeta only [x6]
    refine Keeps.foldl (fun x8 a9 => ?_) ?_
    · refine Keeps.step (event_keeps ..) rfl ?_
      exact Keeps.refl
    · exact k2
  clear_value x6
  split
  · rename_i v10 v11
    refine Keeps.ite ?_ ?_
    · refine Keeps.step (emit_keeps ..) rfl ?_
      exact k7
    · exact k7
  · rename_i v12
    exact k7

theorem releaseAnchor_keeps (a) (s : State) : Keeps 3262924864 s (releaseAnchor a s) := by
  unfold releaseAnchor
  split
  rename_i v1 v2 v3 v4
  refine Keeps.cut (p := Keeps 3262924864 s v2) (KeepsP.ofEq ?_ v4) (fun k5 => ?_)
  · clear v4
    refine KeepsP.step (freshTag_keeps ..) rfl ?_
    exact Keeps.refl
  clear v4
  refine Keeps.step (setPool_keeps ..) rfl ?_
  refine Keeps.step (sendMsg_keeps ..) rfl ?_
  exact k5

theorem dropWindows_keeps (ws) (s : State) : Keeps 2048 s (dropWindows ws s) := by
  unfold dropWindows
  extract_lets +onlyGivenNames x1
  clear_value x1
  refine Keeps.foldl (fun x2 a3 => ?_) ?_
  · refine Keeps.step (freeIndex_keeps ..) rfl ?_
    exact Keeps.refl
  · refine Keeps.step (setPool_keeps ..) rfl ?_
    exact Keeps.refl

theorem dropRegions_keeps (ids) (s : State) : Keeps 18432 s (dropRegions ids s) := by
  unfold dropRegions
  refine Keeps.step (setCoh_keeps ..) rfl ?_
  refine Keeps.step (setPool_keeps ..) rfl ?_
  exact Keeps.refl

theorem replaceKey_keeps (tid) (s : State) : Keeps 16777216 s (replaceKey tid s) := by
  unfold replaceKey
  refine Keeps.ite ?_ ?_
  · split
    rename_i v1 v2 v3 v4
    refine Keeps.cut (p := Keeps 16777216 s v2) (KeepsP.ofEq ?_ v4) (fun k5 => ?_)
    · clear v4
      refine KeepsP.step (draw_keeps ..) rfl ?_
      exact Keeps.refl
    clear v4
    extract_lets +onlyGivenNames x6
    refine Keeps.step (loadKeys_keeps ..) rfl ?_
    refine Keeps.step (setOnx_keeps _ _ (fun _ => rfl)) rfl ?_
    exact k5
  · exact Keeps.refl

theorem revFinish_keeps (v) (s : State) : Keeps 3279771712 s (revFinish v s) := by
  unfold revFinish
  extract_lets +onlyGivenNames x1
  clear_value x1
  extract_lets +onlyGivenNames x2
  clear_value x2
  extract_lets +onlyGivenNames x3
  clear_value x3
  extract_lets +onlyGivenNames x4
  clear_value x4
  extract_lets +onlyGivenNames x5
  clear_value x5
  extract_lets +onlyGivenNames x6
  refine Keeps.cut (p := Keeps 3279771712 s x6) ?_ (fun k7 => ?_)
  · dsimp -zeta only [x6]
    refine Keeps.step (setPool_keeps ..) rfl ?_
    exact Keeps.refl
  clear_value x6
  refine Keeps.ite ?_ ?_
  · refine Keeps.step (revokeDone_keeps ..) rfl ?_
    refine Keeps.step (dropWindows_keeps ..) rfl ?_
    exact k7
  · refine Keeps.ite ?_ ?_
    · extract_lets +onlyGivenNames x8
      refine Keeps.cut (p := Keeps 3279771712 s x8) ?_ (fun k9 => ?_)
      · dsimp -zeta only [x8]
        refine Keeps.foldl (fun x10 a11 => ?_) ?_
        · refine Keeps.step (releaseAnchor_keeps ..) rfl ?_
          exact Keeps.refl
        · exact k7
      clear_value x8
      extract_lets +onlyGivenNames x12
      refine Keeps.cut (p := Keeps 3279771712 s x12) ?_ (fun k13 => ?_)
      · dsimp -zeta only [x12]
        refine Keeps.step (setPool_keeps ..) rfl ?_
        exact k9
      clear_value x12
      extract_lets +onlyGivenNames x14
      clear_value x14
      extract_lets +onlyGivenNames x15
      refine Keeps.cut (p := Keeps 3279771712 s x15) ?_ (fun k16 => ?_)
      · dsimp -zeta only [x15]
        refine Keeps.step (revokeDone_keeps ..) rfl ?_
        exact k13
      clear_value x15
      refine Keeps.foldl (fun x17 a18 => ?_) ?_
      · refine Keeps.step (complete_keeps ..) rfl ?_
        exact Keeps.refl
      · exact k16
    · extract_lets +onlyGivenNames x19
      refine Keeps.cut (p := Keeps 3279771712 s x19) ?_ (fun k20 => ?_)
      · dsimp -zeta only [x19]
        refine Keeps.foldl (fun x21 a22 => ?_) ?_
        · refine Keeps.step (releaseAnchor_keeps ..) rfl ?_
          exact Keeps.refl
        · exact k7
      clear_value x19
      extract_lets +onlyGivenNames x23
      clear_value x23
      extract_lets +onlyGivenNames x24
      refine Keeps.cut (p := Keeps 3279771712 s x24) ?_ (fun k25 => ?_)
      · dsimp -zeta only [x24]
        refine Keeps.step (setPool_keeps ..) rfl ?_
        exact k20
      clear_value x24
      extract_lets +onlyGivenNames x26
      refine Keeps.cut (p := Keeps 3279771712 s x26) ?_ (fun k27 => ?_)
      · dsimp -zeta only [x26]
        refine Keeps.step (dropRegions_keeps ..) rfl ?_
        refine Keeps.step (dropWindows_keeps ..) rfl ?_
        exact k25
      clear_value x26
      extract_lets +onlyGivenNames x28
      refine Keeps.cut (p := Keeps 3279771712 s x28) ?_ (fun k29 => ?_)
      · dsimp -zeta only [x28]
        refine Keeps.ite ?_ ?_
        · refine Keeps.step (replaceKey_keeps ..) rfl ?_
          exact k27
        · exact k27
      clear_value x28
      extract_lets +onlyGivenNames x30
      refine Keeps.cut (p := Keeps 3279771712 s x30) ?_ (fun k31 => ?_)
      · dsimp -zeta only [x30]
        refine Keeps.foldl (fun x32 a33 => ?_) ?_
        · refine Keeps.step (revokeDone_keeps ..) rfl ?_
          exact Keeps.refl
        · exact k29
      clear_value x30
      refine Keeps.step (revokeDone_keeps ..) rfl ?_
      exact k31

theorem revAdvance_keeps (a) (a1) (a2) (s : State) : Keeps 3279771712 s (revAdvance a a1 a2 s) := by
  induction a generalizing a1 a2 s
  · unfold revAdvance
    exact Keeps.refl
  · rename_i v1 v2
    unfold revAdvance
    dsimp -zeta only
    split
    · rename_i v3 v4
      exact Keeps.refl
    · rename_i v5 v6 v7
      split
      · rename_i v8 v9
        refine Keeps.ite ?_ ?_
        · refine Keeps.step (v2 _ _ _) (Nat.or_self _) ?_
          refine Keeps.step (modRev_keeps ..) rfl ?_
          exact Keeps.refl
        · exact Keeps.refl
      · rename_i v10 v11
        refine Keeps.ite ?_ ?_
        · refine Keeps.step (v2 _ _ _) (Nat.or_self _) ?_
          refine Keeps.step (revCopies_keeps ..) rfl ?_
          refine Keeps.step (modRev_keeps ..) rfl ?_
          exact Keeps.refl
        · exact Keeps.refl
      · rename_i v12 v13
        extract_lets +onlyGivenNames x14
        refine Keeps.cut (p := Keeps 3279771712 s x14) ?_ (fun k15 => ?_)
        · dsimp -zeta only [x14]
          refine Keeps.step (modRev_keeps ..) rfl ?_
          refine KeepsP.fst ?_
          refine KeepsP.step (revSlots_keeps ..) rfl ?_
          exact Keeps.refl
        clear_value x14
        refine Keeps.ite ?_ ?_
        · refine Keeps.ite ?_ ?_
          · refine Keeps.step (v2 _ _ _) (Nat.or_self _) ?_
            refine Keeps.step (modRev_keeps ..) rfl ?_
            exact k15
          · refine Keeps.step (modRev_keeps ..) rfl ?_
            exact k15
        · exact k15
      · rename_i v16 v17
        exact Keeps.refl
      · rename_i v18 v19
        refine Keeps.ite ?_ ?_
        · refine Keeps.step (revFinish_keeps ..) rfl ?_
          exact Keeps.refl
        · exact Keeps.refl

theorem revsAdvance_keeps (s : State) : Keeps 3279771712 s (revsAdvance s) := by
  unfold revsAdvance
  refine Keeps.foldl (fun x1 a2 => ?_) ?_
  · refine Keeps.step (revAdvance_keeps ..) rfl ?_
    exact Keeps.refl
  · exact Keeps.refl

theorem revOverwritten_keeps (v) (s : State) : Keeps 29049575488 s (revOverwritten v s) := by
  unfold revOverwritten
  refine Keeps.ite ?_ ?_
  · refine Keeps.step (revAdvance_keeps ..) rfl ?_
    refine Keeps.step (modRev_keeps ..) rfl ?_
    refine Keeps.foldl (fun x1 a2 => ?_) ?_
    · refine Keeps.step (zeroExtents_keeps ..) rfl ?_
      exact Keeps.refl
    · exact Keeps.refl
  · exact Keeps.refl

theorem revStart_keeps (v) (s : State) : Keeps 29595007073 s (revStart v s) := by
  unfold revStart
  extract_lets +onlyGivenNames x1
  clear_value x1
  extract_lets +onlyGivenNames x2
  clear_value x2
  extract_lets +onlyGivenNames x3
  clear_value x3
  extract_lets +onlyGivenNames x4
  clear_value x4
  extract_lets +onlyGivenNames x5
  clear_value x5
  extract_lets +onlyGivenNames x6
  refine Keeps.cut (p := Keeps 29595007073 s x6) ?_ (fun k7 => ?_)
  · dsimp -zeta only [x6]
    refine Keeps.step (setPool_keeps ..) rfl ?_
    exact Keeps.refl
  clear_value x6
  refine Keeps.step (revAdvance_keeps ..) rfl ?_
  refine Keeps.step (trvRevoke_keeps ..) rfl ?_
  exact k7

theorem revBegin_keeps (v) (s : State) : Keeps 29595007073 s (revBegin v s) := by
  unfold revBegin
  extract_lets +onlyGivenNames x1
  clear_value x1
  refine Keeps.step (revStart_keeps ..) rfl ?_
  refine Keeps.foldl (fun x2 a3 => ?_) ?_
  · refine Keeps.step (revStart_keeps ..) rfl ?_
    exact Keeps.refl
  · exact Keeps.refl

theorem endPins_keeps (v) (s : State) : Keeps 29578229857 s (endPins v s) := by
  unfold endPins
  extract_lets +onlyGivenNames x1
  clear_value x1
  extract_lets +onlyGivenNames x2
  refine Keeps.cut (p := Keeps 29578229857 s x2) ?_ (fun k3 => ?_)
  · dsimp -zeta only [x2]
    refine Keeps.step (abortPins_keeps ..) rfl ?_
    exact Keeps.refl
  clear_value x2
  extract_lets +onlyGivenNames x4
  refine Keeps.cut (p := Keeps 29578229857 s x4) ?_ (fun k5 => ?_)
  · dsimp -zeta only [x4]
    refine Keeps.foldl (fun x6 a7 => ?_) ?_
    · refine Keeps.step (abortRun_keeps ..) rfl ?_
      exact Keeps.refl
    · exact k3
  clear_value x4
  refine Keeps.step (failAll_keeps ..) rfl ?_
  refine Keeps.step (undefAll_keeps ..) rfl ?_
  exact k5

theorem revPinTimeout_keeps (v) (s : State) : Keeps 29595007073 s (revPinTimeout v s) := by
  unfold revPinTimeout
  refine Keeps.ite ?_ ?_
  · refine Keeps.step (revAdvance_keeps ..) rfl ?_
    refine Keeps.step (endPins_keeps ..) rfl ?_
    exact Keeps.refl
  · exact Keeps.refl

end Sys2Proof.Machine
end

