-- ==== Sys2Proof/Laws/KeepsPool.lean ====
section
/-! SUPPORT. What each operation of Machine/Pool.lean can touch, that it goes onward and that it keeps the invariant. -/

namespace Sys2Proof.Machine

theorem addRegion_keeps (g) (s : State) : Keeps 25774000128 s (addRegion g s) := by
  unfold addRegion
  refine Keeps.step (zeroExtents_keeps ..) rfl ?_
  refine Keeps.step (setPool_keeps ..) rfl ?_
  exact Keeps.refl

theorem newRegion_keeps (tid) (pick) (p) (s : State) : KeepsP 25774000128 s (newRegion tid pick p s) := by
  unfold newRegion
  refine KeepsP.ite ?_ ?_
  · refine KeepsP.mk ?_
    exact Keeps.refl
  · extract_lets +onlyGivenNames x1
    refine Keeps.cut (p := Keeps 25774000128 s x1) ?_ (fun k2 => ?_)
    · dsimp -zeta only [x1]
      refine Keeps.step (makeRoom_keeps ..) rfl ?_
      exact Keeps.refl
    clear_value x1
    split
    · rename_i v3 v4
      refine KeepsP.mk ?_
      exact k2
    · rename_i v5 v6 v7 v8
      extract_lets +onlyGivenNames x9
      refine Keeps.cut (p := Keeps 25774000128 s x9) ?_ (fun k10 => ?_)
      · dsimp -zeta only [x9]
        refine Keeps.step (makeRoom_keeps ..) rfl ?_
        exact k2
      clear_value x9
      split
      · rename_i v11 v12 v13 v14 v15 v16
        refine KeepsP.ite ?_ ?_
        · refine KeepsP.mk ?_
          exact k10
        · extract_lets +onlyGivenNames x17
          clear_value x17
          refine KeepsP.mk ?_
          refine Keeps.step (addRegion_keeps ..) rfl ?_
          exact k10
      · rename_i v18 v19 v20
        refine KeepsP.mk ?_
        exact k10

theorem createAnchored_keeps (pick) (p) (w) (s : State) : Keeps 29032716352 s (createAnchored pick p w s) := by
  unfold createAnchored
  extract_lets +onlyGivenNames x1
  clear_value x1
  extract_lets +onlyGivenNames x2
  clear_value x2
  extract_lets +onlyGivenNames x3
  clear_value x3
  extract_lets +onlyGivenNames x4
  clear_value x4
  refine Keeps.ite ?_ ?_
  · refine Keeps.step (replySt_keeps ..) rfl ?_
    exact Keeps.refl
  · refine Keeps.ite ?_ ?_
    · refine Keeps.step (replySt_keeps ..) rfl ?_
      exact Keeps.refl
    · extract_lets +onlyGivenNames x5
      clear_value x5
      refine Keeps.ite ?_ ?_
      · refine Keeps.step (replySt_keeps ..) rfl ?_
        exact Keeps.refl
      · split
        · rename_i v6 v7 v8 v9 v10 v11
          extract_lets +onlyGivenNames x12
          clear_value x12
          extract_lets +onlyGivenNames x13
          refine Keeps.cut (p := Keeps 29032716352 s x13) ?_ (fun k14 => ?_)
          · dsimp -zeta only [x13]
            refine Keeps.step (setPool_keeps ..) rfl ?_
            refine Keeps.step (addRegion_keeps ..) rfl ?_
            exact Keeps.refl
          clear_value x13
          refine Keeps.step (reply_keeps ..) rfl ?_
          exact k14
        · rename_i v15 v16 v17
          refine Keeps.step (replySt_keeps ..) rfl ?_
          exact Keeps.refl

theorem regionCreate_keeps (pick) (w) (s : State) : Keeps 29032732736 s (regionCreate pick w s) := by
  unfold regionCreate
  extract_lets +onlyGivenNames x1
  clear_value x1
  extract_lets +onlyGivenNames x2
  clear_value x2
  refine Keeps.ite ?_ ?_
  · refine Keeps.step (createAnchored_keeps ..) rfl ?_
    exact Keeps.refl
  · extract_lets +onlyGivenNames x3
    clear_value x3
    split
    · rename_i v4 v5 v6 v7
      refine Keeps.step (replySt_keeps ..) rfl ?_
      exact Keeps.refl
    · rename_i v8 v9 v10 v11 v12
      split
      · rename_i v13 v14 v15
        refine Keeps.cut (p := Keeps 29032732736 s v14) (KeepsP.ofEq ?_ v15) (fun k16 => ?_)
        · clear v15
          refine KeepsP.step (newRegion_keeps ..) rfl ?_
          exact Keeps.refl
        clear v15
        refine Keeps.step (replySt_keeps ..) rfl ?_
        exact k16
      · rename_i v17 v18 v19 v20
        refine Keeps.cut (p := Keeps 29032732736 s v18) (KeepsP.ofEq ?_ v20) (fun k21 => ?_)
        · clear v20
          refine KeepsP.step (newRegion_keeps ..) rfl ?_
          exact Keeps.refl
        clear v20
        split
        rename_i v22 v23 v24 v25
        refine Keeps.cut (p := Keeps 29032732736 s v23) (KeepsP.ofEq ?_ v25) (fun k26 => ?_)
        · clear v25
          refine KeepsP.step (freshTag_keeps ..) rfl ?_
          exact k21
        clear v25
        extract_lets +onlyGivenNames x27
        refine Keeps.cut (p := Keeps 29032732736 s x27) ?_ (fun k28 => ?_)
        · dsimp -zeta only [x27]
          refine Keeps.step (modRegion_keeps ..) rfl ?_
          exact k26
        clear_value x27
        extract_lets +onlyGivenNames x29
        refine Keeps.cut (p := Keeps 29032732736 s x29) ?_ (fun k30 => ?_)
        · dsimp -zeta only [x29]
          refine Keeps.step (mirrorMsg_keeps ..) rfl ?_
          exact k28
        clear_value x29
        refine Keeps.step (waitFor_keeps ..) rfl ?_
        exact k30
    · rename_i v31 v32 v33 v34
      split
      · rename_i v35 v36 v37
        refine Keeps.cut (p := Keeps 29032732736 s v36) (KeepsP.ofEq ?_ v37) (fun k38 => ?_)
        · clear v37
          refine KeepsP.step (newRegion_keeps ..) rfl ?_
          exact Keeps.refl
        clear v37
        refine Keeps.step (replySt_keeps ..) rfl ?_
        exact k38
      · rename_i v39 v40 v41 v42
        refine Keeps.cut (p := Keeps 29032732736 s v40) (KeepsP.ofEq ?_ v42) (fun k43 => ?_)
        · clear v42
          refine KeepsP.step (newRegion_keeps ..) rfl ?_
          exact Keeps.refl
        clear v42
        refine Keeps.step (reply_keeps ..) rfl ?_
        exact k43

theorem execRegionCreate_keeps (r) (e) (s : State) : KeepsX 29972257856 s (execRegionCreate r e s) := by
  unfold execRegionCreate
  refine KeepsX.next ?_
  refine Keeps.trans ?_ (runVerb_keeps (M := 29972257856) rfl (fun y1 y2 => ?_))
  · exact Keeps.refl
  · refine Keeps.step (regionCreate_keeps ..) rfl ?_
    exact Keeps.refl

theorem repairN_keeps (gi) (coh) (a) (s : State) : KeepsO 25774000128 s (repairN gi coh a s) := by
  induction a generalizing gi coh s
  · unfold repairN
    refine KeepsO.some ?_
    exact Keeps.refl
  · rename_i v1 v2 v3
    unfold repairN
    split
    · rename_i v4 v5
      refine KeepsO.some ?_
      exact Keeps.refl
    · rename_i v6 v7 v8
      split
      · rename_i v9 v10
        exact KeepsO.none
      · rename_i v11 v12 v13 v14
        extract_lets +onlyGivenNames x15
        clear_value x15
        refine KeepsO.step (v3 _ _ _) (Nat.or_self _) ?_
        refine Keeps.step (zeroExtents_keeps ..) rfl ?_
        refine Keeps.step (modRegion_keeps ..) rfl ?_
        exact Keeps.refl

theorem regionRepair_keeps (w) (s : State) : Keeps 29032716352 s (regionRepair w s) := by
  unfold regionRepair
  extract_lets +onlyGivenNames x1
  clear_value x1
  split
  · rename_i v2 v3
    refine Keeps.step (replySt_keeps ..) rfl ?_
    exact Keeps.refl
  · rename_i v4 v5 v6
    refine Keeps.ite ?_ ?_
    · refine Keeps.step (replySt_keeps ..) rfl ?_
      exact Keeps.refl
    · extract_lets +onlyGivenNames x7
      clear_value x7
      split
      · rename_i v8 v9
        refine Keeps.step (replySt_keeps ..) rfl ?_
        exact Keeps.refl
      · rename_i v10 v11 v12
        refine Keeps.cut (p := Keeps 29032716352 s v11) (KeepsO.ofEq ?_ v12) (fun k13 => ?_)
        · clear v12
          refine KeepsO.step (repairN_keeps _ _ _ _) rfl ?_
          exact Keeps.refl
        clear v12
        refine Keeps.step (reply_keeps ..) rfl ?_
        exact k13

theorem execRegionRepair_keeps (r) (e) (s : State) : KeepsX 29972241472 s (execRegionRepair r e s) := by
  unfold execRegionRepair
  refine KeepsX.next ?_
  refine Keeps.trans ?_ (runVerb_keeps (M := 29972241472) rfl (fun y1 y2 => ?_))
  · exact Keeps.refl
  · refine Keeps.step (regionRepair_keeps ..) rfl ?_
    exact Keeps.refl

theorem regionDegrade_keeps (w) (s : State) : Keeps 3262912576 s (regionDegrade w s) := by
  unfold regionDegrade
  extract_lets +onlyGivenNames x1
  clear_value x1
  split
  · rename_i v2 v3
    refine Keeps.step (replySt_keeps ..) rfl ?_
    exact Keeps.refl
  · rename_i v4 v5 v6
    refine Keeps.ite ?_ ?_
    · refine Keeps.step (reply_keeps ..) rfl ?_
      refine Keeps.ite ?_ ?_
      · refine Keeps.step (modRegion_keeps ..) rfl ?_
        exact Keeps.refl
      · exact Keeps.refl
    · refine Keeps.step (replySt_keeps ..) rfl ?_
      exact Keeps.refl

theorem execRegionDegrade_keeps (r) (e) (s : State) : KeepsX 4202437696 s (execRegionDegrade r e s) := by
  unfold execRegionDegrade
  refine KeepsX.next ?_
  refine Keeps.trans ?_ (runVerb_keeps (M := 4202437696) rfl (fun y1 y2 => ?_))
  · exact Keeps.refl
  · refine Keeps.step (regionDegrade_keeps ..) rfl ?_
    exact Keeps.refl

theorem newWindow_keeps (tid) (pick) (va) (ofs) (len) (g) (s : State) : KeepsP 2048 s (newWindow tid pick va ofs len g s) := by
  unfold newWindow
  extract_lets +onlyGivenNames x1
  clear_value x1
  extract_lets +onlyGivenNames x2
  clear_value x2
  refine KeepsP.ite ?_ ?_
  · refine KeepsP.mk ?_
    exact Keeps.refl
  · refine KeepsP.ite ?_ ?_
    · refine KeepsP.mk ?_
      exact Keeps.refl
    · split
      · rename_i v3 v4
        refine KeepsP.mk ?_
        exact Keeps.refl
      · rename_i v5 v6 v7
        extract_lets +onlyGivenNames x8
        clear_value x8
        refine KeepsP.mk ?_
        refine Keeps.step (useIndex_keeps ..) rfl ?_
        refine Keeps.step (setPool_keeps ..) rfl ?_
        exact Keeps.refl

theorem windowCreate_keeps (pick) (w) (s : State) : Keeps 3262928960 s (windowCreate pick w s) := by
  unfold windowCreate
  extract_lets +onlyGivenNames x1
  clear_value x1
  split
  · rename_i v2 v3
    refine Keeps.step (replySt_keeps ..) rfl ?_
    exact Keeps.refl
  · rename_i v4 v5 v6
    refine Keeps.ite ?_ ?_
    · refine Keeps.step (replySt_keeps ..) rfl ?_
      exact Keeps.refl
    · split
      · rename_i v7 v8 v9 v10
        refine Keeps.cut (p := Keeps 3262928960 s v8) (KeepsP.ofEq ?_ v10) (fun k11 => ?_)
        · clear v10
          refine KeepsP.step (newWindow_keeps ..) rfl ?_
          exact Keeps.refl
        clear v10
        extract_lets +onlyGivenNames x12
        clear_value x12
        extract_lets +onlyGivenNames x13
        clear_value x13
        refine Keeps.ite ?_ ?_
        · split
          rename_i v14 v15 v16 v17
          refine Keeps.cut (p := Keeps 3262928960 s v15) (KeepsP.ofEq ?_ v17) (fun k18 => ?_)
          · clear v17
            refine KeepsP.step (freshTag_keeps ..) rfl ?_
            exact k11
          clear v17
          refine Keeps.step (waitFor_keeps ..) rfl ?_
          refine Keeps.step (mirrorMsg_keeps ..) rfl ?_
          exact k18
        · refine Keeps.step (reply_keeps ..) rfl ?_
          exact k11
      · rename_i v19 v20 v21 v22 v23 v24
        refine Keeps.cut (p := Keeps 3262928960 s v20) (KeepsP.ofEq ?_ v24) (fun k25 => ?_)
        · clear v24
          refine KeepsP.step (newWindow_keeps ..) rfl ?_
          exact Keeps.refl
        clear v24
        refine Keeps.step (replySt_keeps ..) rfl ?_
        exact k25

theorem execWindowCreate_keeps (r) (e) (s : State) : KeepsX 4202454080 s (execWindowCreate r e s) := by
  unfold execWindowCreate
  refine KeepsX.next ?_
  refine Keeps.trans ?_ (runVerb_keeps (M := 4202454080) rfl (fun y1 y2 => ?_))
  · exact Keeps.refl
  · refine Keeps.step (windowCreate_keeps ..) rfl ?_
    exact Keeps.refl

theorem addGrant_keeps (x) (g) (y) (s : State) : KeepsP 2048 s (addGrant x g y s) := by
  unfold addGrant
  refine KeepsP.ite ?_ ?_
  · refine KeepsP.mk ?_
    exact Keeps.refl
  · split
    · rename_i v1 v2
      refine KeepsP.mk ?_
      exact Keeps.refl
    · rename_i v3 v4 v5
      refine KeepsP.mk ?_
      refine Keeps.step (modWindow_keeps ..) rfl ?_
      exact Keeps.refl

theorem windowGrant_keeps (w) (s : State) : Keeps 3262928960 s (windowGrant w s) := by
  unfold windowGrant
  extract_lets +onlyGivenNames x1
  clear_value x1
  extract_lets +onlyGivenNames x2
  clear_value x2
  split
  · rename_i v3 v4
    refine Keeps.step (replySt_keeps ..) rfl ?_
    exact Keeps.refl
  · rename_i v5 v6 v7
    split
    · rename_i v8 v9
      refine Keeps.step (replySt_keeps ..) rfl ?_
      exact Keeps.refl
    · rename_i v10 v11 v12
      refine Keeps.ite ?_ ?_
      · refine Keeps.step (replySt_keeps ..) rfl ?_
        exact Keeps.refl
      · refine Keeps.ite ?_ ?_
        · refine Keeps.step (replySt_keeps ..) rfl ?_
          exact Keeps.refl
        · split
          · rename_i v13 v14 v15 v16
            refine Keeps.cut (p := Keeps 3262928960 s v14) (KeepsP.ofEq ?_ v16) (fun k17 => ?_)
            · clear v16
              refine KeepsP.step (addGrant_keeps ..) rfl ?_
              exact Keeps.refl
            clear v16
            extract_lets +onlyGivenNames x18
            clear_value x18
            extract_lets +onlyGivenNames x19
            clear_value x19
            refine Keeps.ite ?_ ?_
            · split
              rename_i v20 v21 v22 v23
              refine Keeps.cut (p := Keeps 3262928960 s v21) (KeepsP.ofEq ?_ v23) (fun k24 => ?_)
              · clear v23
                refine KeepsP.step (freshTag_keeps ..) rfl ?_
                exact k17
              clear v23
              refine Keeps.step (waitFor_keeps ..) rfl ?_
              refine Keeps.step (mirrorMsg_keeps ..) rfl ?_
              exact k24
            · refine Keeps.step (reply_keeps ..) rfl ?_
              exact k17
          · rename_i v25 v26 v27 v28 v29 v30
            refine Keeps.cut (p := Keeps 3262928960 s v26) (KeepsP.ofEq ?_ v30) (fun k31 => ?_)
            · clear v30
              refine KeepsP.step (addGrant_keeps ..) rfl ?_
              exact Keeps.refl
            clear v30
            refine Keeps.step (replySt_keeps ..) rfl ?_
            exact k31

theorem execWindowGrant_keeps (r) (e) (s : State) : KeepsX 4202454080 s (execWindowGrant r e s) := by
  unfold execWindowGrant
  refine KeepsX.next ?_
  refine Keeps.trans ?_ (runVerb_keeps (M := 4202454080) rfl (fun y1 y2 => ?_))
  · exact Keeps.refl
  · refine Keeps.step (windowGrant_keeps ..) rfl ?_
    exact Keeps.refl

theorem revokeGrant_keeps (w) (s : State) : Keeps 3262912576 s (revokeGrant w s) := by
  unfold revokeGrant
  extract_lets +onlyGivenNames x1
  clear_value x1
  extract_lets +onlyGivenNames x2
  clear_value x2
  split
  · rename_i v3 v4
    refine Keeps.step (replySt_keeps ..) rfl ?_
    exact Keeps.refl
  · rename_i v5 v6 v7
    refine Keeps.ite ?_ ?_
    · refine Keeps.step (replySt_keeps ..) rfl ?_
      exact Keeps.refl
    · split
      · rename_i v8 v9
        refine Keeps.step (replySt_keeps ..) rfl ?_
        exact Keeps.refl
      · rename_i v10 v11 v12
        extract_lets +onlyGivenNames x13
        clear_value x13
        extract_lets +onlyGivenNames x14
        refine Keeps.step (reply_keeps ..) rfl ?_
        refine Keeps.step (modWindow_keeps ..) rfl ?_
        exact Keeps.refl

theorem execRevokeGrant_keeps (r) (e) (s : State) : KeepsX 4202437696 s (execRevokeGrant r e s) := by
  unfold execRevokeGrant
  refine KeepsX.next ?_
  refine Keeps.trans ?_ (runVerb_keeps (M := 4202437696) rfl (fun y1 y2 => ?_))
  · exact Keeps.refl
  · refine Keeps.step (revokeGrant_keeps ..) rfl ?_
    exact Keeps.refl

theorem revokeWindow_keeps (w) (s : State) : Keeps 29595007073 s (revokeWindow w s) := by
  unfold revokeWindow
  extract_lets +onlyGivenNames x1
  clear_value x1
  split
  · rename_i v2 v3
    refine Keeps.step (replySt_keeps ..) rfl ?_
    exact Keeps.refl
  · rename_i v4 v5 v6
    split
    · rename_i v7 v8
      refine Keeps.step (replySt_keeps ..) rfl ?_
      exact Keeps.refl
    · rename_i v9 v10 v11
      refine Keeps.ite ?_ ?_
      · refine Keeps.step (replySt_keeps ..) rfl ?_
        exact Keeps.refl
      · extract_lets +onlyGivenNames x12
        clear_value x12
        extract_lets +onlyGivenNames x13
        clear_value x13
        refine Keeps.ite ?_ ?_
        · refine Keeps.step (reply_keeps ..) rfl ?_
          exact Keeps.refl
        · refine Keeps.step (revBegin_keeps ..) rfl ?_
          refine Keeps.step (reply_keeps ..) rfl ?_
          exact Keeps.refl

theorem execRevokeWindow_keeps (r) (e) (s : State) : KeepsX 29997661281 s (execRevokeWindow r e s) := by
  unfold execRevokeWindow
  refine KeepsX.next ?_
  refine Keeps.trans ?_ (runVerb_keeps (M := 29997661281) rfl (fun y1 y2 => ?_))
  · exact Keeps.refl
  · refine Keeps.step (revokeWindow_keeps ..) rfl ?_
    exact Keeps.refl

theorem revokeRegion_keeps (w) (s : State) : Keeps 29595007073 s (revokeRegion w s) := by
  unfold revokeRegion
  extract_lets +onlyGivenNames x1
  clear_value x1
  split
  · rename_i v2 v3
    refine Keeps.step (replySt_keeps ..) rfl ?_
    exact Keeps.refl
  · rename_i v4 v5 v6
    extract_lets +onlyGivenNames x7
    clear_value x7
    extract_lets +onlyGivenNames x8
    clear_value x8
    refine Keeps.ite ?_ ?_
    · refine Keeps.step (reply_keeps ..) rfl ?_
      exact Keeps.refl
    · refine Keeps.ite ?_ ?_
      · refine Keeps.step (replySt_keeps ..) rfl ?_
        exact Keeps.refl
      · refine Keeps.step (revBegin_keeps ..) rfl ?_
        refine Keeps.step (reply_keeps ..) rfl ?_
        exact Keeps.refl

theorem execRevokeRegion_keeps (r) (e) (s : State) : KeepsX 29997661281 s (execRevokeRegion r e s) := by
  unfold execRevokeRegion
  refine KeepsX.ite ?_ ?_
  · refine KeepsX.next ?_
    refine Keeps.trans ?_ (runVerb_keeps (M := 29997661281) rfl (fun y1 y2 => ?_))
    · exact Keeps.refl
    · refine Keeps.step (replySt_keeps ..) rfl ?_
      exact Keeps.refl
  · refine KeepsX.next ?_
    refine Keeps.trans ?_ (runVerb_keeps (M := 29997661281) rfl (fun y3 y4 => ?_))
    · exact Keeps.refl
    · refine Keeps.step (revokeRegion_keeps ..) rfl ?_
      exact Keeps.refl

theorem revokeTenant_keeps (sess) (tid) (s : State) : Keeps 29595007073 s (revokeTenant sess tid s) := by
  unfold revokeTenant
  refine Keeps.ite ?_ ?_
  · refine Keeps.step (mgmtReply_keeps ..) rfl ?_
    exact Keeps.refl
  · refine Keeps.step (revBegin_keeps ..) rfl ?_
    refine Keeps.step (releaseTenant_keeps ..) rfl ?_
    exact Keeps.refl

theorem execRevokeTenant_keeps (sess) (tid) (e) (s : State) : KeepsX 34292629503 s (execRevokeTenant sess tid e s) := by
  unfold execRevokeTenant
  refine KeepsX.next ?_
  refine Keeps.trans ?_ (withSess_keeps (M := 34292629503) rfl (fun y1 => ?_))
  · refine Keeps.step (applyEnv_keeps ..) rfl ?_
    exact Keeps.refl
  · refine Keeps.step (revokeTenant_keeps ..) rfl ?_
    exact Keeps.refl

theorem atRev_keeps {i : Nat} {f : Rev → State → State} {s : State} {M : Nat} (hm : 0 ||| M = M)
    (h : ∀ a s, Keeps M s (f a s)) : Keeps M s (atRev i f s) := by
  have _ := hm
  unfold atRev
  split
  · exact h _ s
  · exact Keeps.refl

theorem execRevokeDrainDone_keeps (i) (e) (s : State) : KeepsX 4219295808 s (execRevokeDrainDone i e s) := by
  unfold execRevokeDrainDone
  refine KeepsX.next ?_
  refine Keeps.trans ?_ (atRev_keeps (M := 4219295808) rfl (fun y1 y2 => ?_))
  · refine Keeps.step (applyEnv_keeps ..) rfl ?_
    exact Keeps.refl
  · refine Keeps.step (revAdvance_keeps ..) rfl ?_
    exact Keeps.refl

theorem execRevokePinTimeout_keeps (i) (e) (s : State) : KeepsX 29997660257 s (execRevokePinTimeout i e s) := by
  unfold execRevokePinTimeout
  refine KeepsX.next ?_
  refine Keeps.trans ?_ (atRev_keeps (M := 29997660257) rfl (fun y1 y2 => ?_))
  · refine Keeps.step (applyEnv_keeps ..) rfl ?_
    exact Keeps.refl
  · refine Keeps.step (revPinTimeout_keeps ..) rfl ?_
    exact Keeps.refl

theorem execRevokeOverwriteDone_keeps (i) (e) (s : State) : KeepsX 29989099584 s (execRevokeOverwriteDone i e s) := by
  unfold execRevokeOverwriteDone
  refine KeepsX.next ?_
  refine Keeps.trans ?_ (atRev_keeps (M := 29989099584) rfl (fun y1 y2 => ?_))
  · refine Keeps.step (applyEnv_keeps ..) rfl ?_
    exact Keeps.refl
  · refine Keeps.step (revOverwritten_keeps ..) rfl ?_
    exact Keeps.refl

theorem anchorLend_keeps (pick) (w) (s : State) : Keeps 3262912576 s (anchorLend pick w s) := by
  unfold anchorLend
  extract_lets +onlyGivenNames x1
  clear_value x1
  extract_lets +onlyGivenNames x2
  clear_value x2
  refine Keeps.ite ?_ ?_
  · refine Keeps.step (replySt_keeps ..) rfl ?_
    exact Keeps.refl
  · split
    · rename_i v3 v4
      refine Keeps.step (replySt_keeps ..) rfl ?_
      exact Keeps.refl
    · rename_i v5 v6 v7
      extract_lets +onlyGivenNames x8
      clear_value x8
      refine Keeps.step (reply_keeps ..) rfl ?_
      refine Keeps.step (setPool_keeps ..) rfl ?_
      exact Keeps.refl

theorem execAnchorLend_keeps (r) (e) (s : State) : KeepsX 4202437696 s (execAnchorLend r e s) := by
  unfold execAnchorLend
  refine KeepsX.next ?_
  refine Keeps.trans ?_ (runVerb_keeps (M := 4202437696) rfl (fun y1 y2 => ?_))
  · exact Keeps.refl
  · refine Keeps.step (anchorLend_keeps ..) rfl ?_
    exact Keeps.refl

theorem anchorReclaim_keeps (w) (s : State) : Keeps 29595007073 s (anchorReclaim w s) := by
  unfold anchorReclaim
  extract_lets +onlyGivenNames x1
  clear_value x1
  split
  · rename_i v2 v3
    refine Keeps.step (replySt_keeps ..) rfl ?_
    exact Keeps.refl
  · rename_i v4 v5 v6
    refine Keeps.ite ?_ ?_
    · refine Keeps.step (replySt_keeps ..) rfl ?_
      exact Keeps.refl
    · extract_lets +onlyGivenNames x7
      refine Keeps.cut (p := Keeps 29595007073 s x7) ?_ (fun k8 => ?_)
      · dsimp -zeta only [x7]
        refine Keeps.step (waitFor_keeps ..) rfl ?_
        exact Keeps.refl
      clear_value x7
      refine Keeps.ite ?_ ?_
      · exact k8
      · refine Keeps.step (revBegin_keeps ..) rfl ?_
        exact k8

theorem execAnchorReclaim_keeps (r) (e) (s : State) : KeepsX 29997661281 s (execAnchorReclaim r e s) := by
  unfold execAnchorReclaim
  refine KeepsX.next ?_
  refine Keeps.trans ?_ (runVerb_keeps (M := 29997661281) rfl (fun y1 y2 => ?_))
  · exact Keeps.refl
  · refine Keeps.step (anchorReclaim_keeps ..) rfl ?_
    exact Keeps.refl

theorem fillShadow_keeps (got) (s : State) (u) : Keeps 29041358945 s (fillShadow got s u) := by
  unfold fillShadow
  split
  · rename_i v1 v2
    exact Keeps.refl
  · rename_i v3 v4 v5 v6
    extract_lets +onlyGivenNames x7
    clear_value x7
    refine Keeps.step (setPool_keeps ..) rfl ?_
    refine KeepsP.fst ?_
    refine KeepsP.step (writeDram_keeps ..) rfl ?_
    exact Keeps.refl

theorem prefetchRun_keeps (w) (got) (s : State) : Keeps 29041358945 s (prefetchRun w got s) := by
  unfold prefetchRun
  extract_lets +onlyGivenNames x1
  clear_value x1
  split
  · rename_i v2 v3 v4
    refine Keeps.step (replySt_keeps ..) rfl ?_
    exact Keeps.refl
  · rename_i v5 v6 v7 v8 v9
    extract_lets +onlyGivenNames x10
    clear_value x10
    extract_lets +onlyGivenNames x11
    clear_value x11
    refine Keeps.ite ?_ ?_
    · refine Keeps.step (replySt_keeps ..) rfl ?_
      exact Keeps.refl
    · extract_lets +onlyGivenNames x12
      clear_value x12
      extract_lets +onlyGivenNames x13
      refine Keeps.cut (p := Keeps 29041358945 s x13) ?_ (fun k14 => ?_)
      · dsimp -zeta only [x13]
        refine Keeps.ite ?_ ?_
        · exact Keeps.refl
        · refine Keeps.step (makeRoom_keeps ..) rfl ?_
          exact Keeps.refl
      clear_value x13
      extract_lets +onlyGivenNames x15
      clear_value x15
      refine Keeps.ite ?_ ?_
      · refine Keeps.step (reply_keeps ..) rfl ?_
        exact k14
      · refine Keeps.ite ?_ ?_
        · refine Keeps.step (replySt_keeps ..) rfl ?_
          exact k14
        · extract_lets +onlyGivenNames x16
          clear_value x16
          refine Keeps.ite ?_ ?_
          · extract_lets +onlyGivenNames x17
            refine Keeps.cut (p := Keeps 29041358945 s x17) ?_ (fun k18 => ?_)
            · dsimp -zeta only [x17]
              refine Keeps.foldl (fun x19 a20 => ?_) ?_
              · refine Keeps.step (fillShadow_keeps ..) rfl ?_
                exact Keeps.refl
              · exact k14
            clear_value x17
            refine Keeps.step (reply_keeps ..) rfl ?_
            exact k18
          · split
            rename_i v21 v22 v23 v24
            refine Keeps.cut (p := Keeps 29041358945 s v22) (KeepsP.ofEq ?_ v24) (fun k25 => ?_)
            · clear v24
              refine KeepsP.step (anchorRds_keeps ..) rfl ?_
              exact k14
            clear v24
            refine Keeps.step (waitFor_keeps ..) rfl ?_
            exact k25

theorem execPrefetch_keeps (r) (e) (s : State) : KeepsX 29980884065 s (execPrefetch r e s) := by
  unfold execPrefetch
  refine KeepsX.next ?_
  refine Keeps.trans ?_ (runVerb_keeps (M := 29980884065) rfl (fun y1 y2 => ?_))
  · exact Keeps.refl
  · refine Keeps.step (prefetchRun_keeps ..) rfl ?_
    exact Keeps.refl

theorem execAdviseWillNeed_keeps (r) (e) (s : State) : KeepsX 29980884065 s (execAdviseWillNeed r e s) := by
  unfold execAdviseWillNeed
  refine KeepsX.next ?_
  refine Keeps.trans ?_ (runVerb_keeps (M := 29980884065) rfl (fun y1 y2 => ?_))
  · exact Keeps.refl
  · refine Keeps.step (prefetchRun_keeps ..) rfl ?_
    exact Keeps.refl

theorem adviseRange_keeps {w : Waiting} {f : Region → List Part → Nat → State → State} {s : State} {M : Nat} (hm : 3262910528 ||| M = M)
    (h : ∀ a b c s, Keeps M s (f a b c s)) : Keeps M s (adviseRange w f s) := by
  unfold adviseRange
  extract_lets +onlyGivenNames x
  clear_value x
  split
  · exact (replySt_keeps _ _ s).mono (mask_trans rfl hm)
  · extract_lets +onlyGivenNames y z
    split
    · exact (replySt_keeps _ _ s).mono (mask_trans rfl hm)
    · exact h _ _ _ s

theorem adviseDontNeed_keeps (w) (s : State) : Keeps 3262912576 s (adviseDontNeed w s) := by
  unfold adviseDontNeed
  refine Keeps.trans ?_ (adviseRange_keeps (M := 3262912576) rfl (fun y1 y2 y3 y4 => ?_))
  · exact Keeps.refl
  · extract_lets +onlyGivenNames x5
    clear_value x5
    extract_lets +onlyGivenNames x6
    extract_lets +onlyGivenNames x7
    clear_value x7
    extract_lets +onlyGivenNames x8
    refine Keeps.cut (p := Keeps 3262912576 y4 x8) ?_ (fun k9 => ?_)
    · dsimp -zeta only [x8]
      refine Keeps.step (setPool_keeps ..) rfl ?_
      exact Keeps.refl
    clear_value x8
    extract_lets +onlyGivenNames x10
    refine Keeps.cut (p := Keeps 3262912576 y4 x10) ?_ (fun k11 => ?_)
    · dsimp -zeta only [x10]
      refine Keeps.step (modRegion_keeps ..) rfl ?_
      exact k9
    clear_value x10
    refine Keeps.step (reply_keeps ..) rfl ?_
    exact k11

theorem execAdviseDontNeed_keeps (r) (e) (s : State) : KeepsX 4202437696 s (execAdviseDontNeed r e s) := by
  unfold execAdviseDontNeed
  refine KeepsX.next ?_
  refine Keeps.trans ?_ (runVerb_keeps (M := 4202437696) rfl (fun y1 y2 => ?_))
  · exact Keeps.refl
  · refine Keeps.step (adviseDontNeed_keeps ..) rfl ?_
    exact Keeps.refl

theorem adviseReadMostly_keeps (w) (s : State) : Keeps 3262912576 s (adviseReadMostly w s) := by
  unfold adviseReadMostly
  refine Keeps.trans ?_ (adviseRange_keeps (M := 3262912576) rfl (fun y1 y2 y3 y4 => ?_))
  · exact Keeps.refl
  · extract_lets +onlyGivenNames x5
    refine Keeps.cut (p := Keeps 3262912576 y4 x5) ?_ (fun k6 => ?_)
    · dsimp -zeta only [x5]
      refine Keeps.ite ?_ ?_
      · refine Keeps.step (modRegion_keeps ..) rfl ?_
        exact Keeps.refl
      · exact Keeps.refl
    clear_value x5
    refine Keeps.step (reply_keeps ..) rfl ?_
    exact k6

theorem execAdviseReadMostly_keeps (r) (e) (s : State) : KeepsX 4202437696 s (execAdviseReadMostly r e s) := by
  unfold execAdviseReadMostly
  refine KeepsX.next ?_
  refine Keeps.trans ?_ (runVerb_keeps (M := 4202437696) rfl (fun y1 y2 => ?_))
  · exact Keeps.refl
  · refine Keeps.step (adviseReadMostly_keeps ..) rfl ?_
    exact Keeps.refl

theorem advisePin_keeps (w) (s : State) : Keeps 3262912576 s (advisePin w s) := by
  unfold advisePin
  refine Keeps.trans ?_ (adviseRange_keeps (M := 3262912576) rfl (fun y1 y2 y3 y4 => ?_))
  · exact Keeps.refl
  · extract_lets +onlyGivenNames x5
    clear_value x5
    extract_lets +onlyGivenNames x6
    extract_lets +onlyGivenNames x7
    clear_value x7
    extract_lets +onlyGivenNames x8
    refine Keeps.cut (p := Keeps 3262912576 y4 x8) ?_ (fun k9 => ?_)
    · dsimp -zeta only [x8]
      refine Keeps.step (setPool_keeps ..) rfl ?_
      exact Keeps.refl
    clear_value x8
    refine Keeps.step (reply_keeps ..) rfl ?_
    exact k9

theorem execAdvisePin_keeps (r) (e) (s : State) : KeepsX 4202437696 s (execAdvisePin r e s) := by
  unfold execAdvisePin
  refine KeepsX.next ?_
  refine Keeps.trans ?_ (runVerb_keeps (M := 4202437696) rfl (fun y1 y2 => ?_))
  · exact Keeps.refl
  · refine Keeps.step (advisePin_keeps ..) rfl ?_
    exact Keeps.refl

theorem execDescriptorComplete_keeps (q) (e) (s : State) : KeepsX 4219304000 s (execDescriptorComplete q e s) := by
  unfold execDescriptorComplete
  refine KeepsX.next ?_
  refine Keeps.step (revsAdvance_keeps ..) rfl ?_
  refine Keeps.step (headDone_keeps ..) rfl ?_
  refine Keeps.step (applyEnv_keeps ..) rfl ?_
  exact Keeps.refl

end Sys2Proof.Machine
end

