-- ==== Sys2Proof/Laws/KeepsMirror.lean ====
section
/-! SUPPORT. What each operation of Machine/Mirror.lean can touch, that it goes onward and that it keeps the invariant. -/

namespace Sys2Proof.Machine

theorem sawMirror_keeps (node) (s : State) : Keeps 2048 s (sawMirror node s) := by
  unfold sawMirror
  refine Keeps.step (setPool_keeps ..) rfl ?_
  exact Keeps.refl

theorem bindRegion_keeps (pick) (w) (s : State) : Keeps 29032716352 s (bindRegion pick w s) := by
  unfold bindRegion
  extract_lets +onlyGivenNames x1
  clear_value x1
  extract_lets +onlyGivenNames x2
  clear_value x2
  split
  · rename_i v3 v4 v5
    refine Keeps.cut (p := Keeps 29032716352 s v4) (KeepsP.ofEq ?_ v5) (fun k6 => ?_)
    · clear v5
      refine KeepsP.step (newRegion_keeps ..) rfl ?_
      exact Keeps.refl
    clear v5
    refine Keeps.step (replySt_keeps ..) rfl ?_
    exact k6
  · rename_i v7 v8 v9 v10
    refine Keeps.cut (p := Keeps 29032716352 s v8) (KeepsP.ofEq ?_ v10) (fun k11 => ?_)
    · clear v10
      refine KeepsP.step (newRegion_keeps ..) rfl ?_
      exact Keeps.refl
    clear v10
    extract_lets +onlyGivenNames x12
    refine Keeps.cut (p := Keeps 29032716352 s x12) ?_ (fun k13 => ?_)
    · dsimp -zeta only [x12]
      refine Keeps.step (modRegion_keeps ..) rfl ?_
      exact k11
    clear_value x12
    refine Keeps.step (reply_keeps ..) rfl ?_
    refine Keeps.step (sawMirror_keeps ..) rfl ?_
    exact k13

theorem bindWindow_keeps (pick) (w) (s : State) : Keeps 3262912576 s (bindWindow pick w s) := by
  unfold bindWindow
  extract_lets +onlyGivenNames x1
  clear_value x1
  split
  · rename_i v2 v3
    refine Keeps.step (replySt_keeps ..) rfl ?_
    exact Keeps.refl
  · rename_i v4 v5 v6
    split
    · rename_i v7 v8 v9 v10
      refine Keeps.cut (p := Keeps 3262912576 s v8) (KeepsP.ofEq ?_ v10) (fun k11 => ?_)
      · clear v10
        refine KeepsP.step (newWindow_keeps ..) rfl ?_
        exact Keeps.refl
      clear v10
      refine Keeps.step (reply_keeps ..) rfl ?_
      exact k11
    · rename_i v12 v13 v14 v15 v16 v17
      refine Keeps.cut (p := Keeps 3262912576 s v13) (KeepsP.ofEq ?_ v17) (fun k18 => ?_)
      · clear v17
        refine KeepsP.step (newWindow_keeps ..) rfl ?_
        exact Keeps.refl
      clear v17
      refine Keeps.step (replySt_keeps ..) rfl ?_
      exact k18

theorem bindGrant_keeps (w) (s : State) : Keeps 3262912576 s (bindGrant w s) := by
  unfold bindGrant
  extract_lets +onlyGivenNames x1
  clear_value x1
  split
  · rename_i v2 v3 v4 v5 v6 v7
    refine Keeps.ite ?_ ?_
    · refine Keeps.step (replySt_keeps ..) rfl ?_
      exact Keeps.refl
    · extract_lets +onlyGivenNames x8
      clear_value x8
      split
      rename_i v9 v10 v11 v12 v13
      refine Keeps.cut (p := Keeps 3262912576 s v10) (KeepsP.ofEq ?_ v13) (fun k14 => ?_)
      · clear v13
        refine KeepsP.step (addGrant_keeps ..) rfl ?_
        exact Keeps.refl
      clear v13
      refine Keeps.step (replySt_keeps ..) rfl ?_
      exact k14
  · rename_i v15 v16 v17
    refine Keeps.step (replySt_keeps ..) rfl ?_
    exact Keeps.refl

theorem mirrorBind_keeps (pick) (w) (s : State) : Keeps 29032716352 s (mirrorBind pick w s) := by
  unfold mirrorBind
  refine Keeps.ite ?_ ?_
  · refine Keeps.step (bindWindow_keeps ..) rfl ?_
    exact Keeps.refl
  · refine Keeps.ite ?_ ?_
    · refine Keeps.step (bindGrant_keeps ..) rfl ?_
      exact Keeps.refl
    · refine Keeps.step (bindRegion_keeps ..) rfl ?_
      exact Keeps.refl

theorem execMirrorBind_keeps (r) (e) (s : State) : KeepsX 29972241472 s (execMirrorBind r e s) := by
  unfold execMirrorBind
  refine KeepsX.next ?_
  refine Keeps.trans ?_ (runVerb_keeps (M := 29972241472) rfl (fun y1 y2 => ?_))
  · exact Keeps.refl
  · refine Keeps.step (mirrorBind_keeps ..) rfl ?_
    exact Keeps.refl

theorem mirrorWrite_keeps (w) (s : State) : Keeps 29578229857 s (mirrorWrite w s) := by
  unfold mirrorWrite
  extract_lets +onlyGivenNames x1
  clear_value x1
  extract_lets +onlyGivenNames x2
  clear_value x2
  split
  · rename_i v3 v4
    refine Keeps.step (replySt_keeps ..) rfl ?_
    exact Keeps.refl
  · rename_i v5 v6 v7
    refine Keeps.ite ?_ ?_
    · refine Keeps.step (replySt_keeps ..) rfl ?_
      exact Keeps.refl
    · split
      rename_i v8 v9 v10 v11 v12
      refine Keeps.cut (p := Keeps 29578229857 s v9) (KeepsP.ofEq ?_ v12) (fun k13 => ?_)
      · clear v12
        refine KeepsP.step (storePieces_keeps ..) rfl ?_
        exact Keeps.refl
      clear v12
      refine Keeps.step (replySt_keeps ..) rfl ?_
      exact k13

theorem execMirrorWrite_keeps (r) (e) (s : State) : KeepsX 29980884065 s (execMirrorWrite r e s) := by
  unfold execMirrorWrite
  refine KeepsX.next ?_
  refine Keeps.trans ?_ (runVerb_keeps (M := 29980884065) rfl (fun y1 y2 => ?_))
  · exact Keeps.refl
  · refine Keeps.step (mirrorWrite_keeps ..) rfl ?_
    exact Keeps.refl

theorem sendMirrorHb_keeps (leaving) (node) (s : State) : Keeps 3262924864 s (sendMirrorHb leaving node s) := by
  unfold sendMirrorHb
  split
  · rename_i v1 v2
    exact Keeps.refl
  · rename_i v3 v4 v5
    refine Keeps.step (setPool_keeps ..) rfl ?_
    refine Keeps.step (mirrorMsg_keeps ..) rfl ?_
    exact Keeps.refl

theorem execMirrorHbSend_keeps (e) (s : State) : KeepsX 4202448960 s (execMirrorHbSend e s) := by
  unfold execMirrorHbSend
  extract_lets +onlyGivenNames x1
  refine Keeps.cut (p := Keeps 4202448960 s x1) ?_ (fun k2 => ?_)
  · dsimp -zeta only [x1]
    refine Keeps.step (applyEnv_keeps ..) rfl ?_
    exact Keeps.refl
  clear_value x1
  refine KeepsX.next ?_
  refine Keeps.foldl (fun x3 a4 => ?_) ?_
  · refine Keeps.step (sendMirrorHb_keeps ..) rfl ?_
    exact Keeps.refl
  · exact k2

theorem openShadow_keeps (g) (s : State) : Keeps 3262924864 s (openShadow g s) := by
  unfold openShadow
  extract_lets +onlyGivenNames x1
  refine Keeps.cut (p := Keeps 3262924864 s x1) ?_ (fun k2 => ?_)
  · dsimp -zeta only [x1]
    refine Keeps.step (modRegion_keeps ..) rfl ?_
    exact Keeps.refl
  clear_value x1
  refine Keeps.step (fanOut_keeps ..) rfl ?_
  refine Keeps.step (cairnAt_keeps ..) rfl ?_
  exact k2

theorem mirrorHb_keeps (w) (s : State) : Keeps 3262928960 s (mirrorHb w s) := by
  unfold mirrorHb
  extract_lets +onlyGivenNames x1
  clear_value x1
  extract_lets +onlyGivenNames x2
  refine Keeps.cut (p := Keeps 3262928960 s x2) ?_ (fun k3 => ?_)
  · dsimp -zeta only [x2]
    refine Keeps.step (sawMirror_keeps ..) rfl ?_
    exact Keeps.refl
  clear_value x2
  extract_lets +onlyGivenNames x4
  refine Keeps.cut (p := Keeps 3262928960 s x4) ?_ (fun k5 => ?_)
  · dsimp -zeta only [x4]
    refine Keeps.ite ?_ ?_
    · refine Keeps.foldl (fun x6 a7 => ?_) ?_
      · refine Keeps.step (openShadow_keeps ..) rfl ?_
        exact Keeps.refl
      · exact k3
    · exact k3
  clear_value x4
  refine Keeps.step (replySt_keeps ..) rfl ?_
  exact k5

theorem execMirrorHb_keeps (r) (e) (s : State) : KeepsX 4202454080 s (execMirrorHb r e s) := by
  unfold execMirrorHb
  refine KeepsX.next ?_
  refine Keeps.trans ?_ (runVerb_keeps (M := 4202454080) rfl (fun y1 y2 => ?_))
  · exact Keeps.refl
  · refine Keeps.step (mirrorHb_keeps ..) rfl ?_
    exact Keeps.refl

theorem execMirrorFence_keeps (i) (e) (s : State) : KeepsX 12792444992 s (execMirrorFence i e s) := by
  unfold execMirrorFence
  extract_lets +onlyGivenNames x1
  refine Keeps.cut (p := Keeps 12792444992 s x1) ?_ (fun k2 => ?_)
  · dsimp -zeta only [x1]
    refine Keeps.step (applyEnv_keeps ..) rfl ?_
    exact Keeps.refl
  clear_value x1
  refine KeepsX.next ?_
  split
  · rename_i v3 v4 v5
    refine Keeps.ite ?_ ?_
    · refine Keeps.step (fenceRegion_keeps ..) rfl ?_
      refine Keeps.step (undefAll_keeps ..) rfl ?_
      exact k2
    · exact k2
  · rename_i v6 v7
    exact k2

theorem execShadowOpen_keeps (i) (e) (s : State) : KeepsX 4202448960 s (execShadowOpen i e s) := by
  unfold execShadowOpen
  extract_lets +onlyGivenNames x1
  refine Keeps.cut (p := Keeps 4202448960 s x1) ?_ (fun k2 => ?_)
  · dsimp -zeta only [x1]
    refine Keeps.step (applyEnv_keeps ..) rfl ?_
    exact Keeps.refl
  clear_value x1
  refine KeepsX.next ?_
  split
  · rename_i v3 v4 v5
    refine Keeps.ite ?_ ?_
    · refine Keeps.step (openShadow_keeps ..) rfl ?_
      exact k2
    · exact k2
  · rename_i v6 v7
    exact k2

theorem handoff_keeps (w) (s : State) : Keeps 3262928960 s (handoff w s) := by
  unfold handoff
  split
  · rename_i v1 v2
    refine Keeps.step (replySt_keeps ..) rfl ?_
    exact Keeps.refl
  · rename_i v3 v4 v5
    refine Keeps.step (replySt_keeps ..) rfl ?_
    refine Keeps.ite ?_ ?_
    · refine Keeps.step (openShadow_keeps ..) rfl ?_
      exact Keeps.refl
    · exact Keeps.refl

theorem execHandoff_keeps (r) (e) (s : State) : KeepsX 4202454080 s (execHandoff r e s) := by
  unfold execHandoff
  refine KeepsX.next ?_
  refine Keeps.trans ?_ (runVerb_keeps (M := 4202454080) rfl (fun y1 y2 => ?_))
  · exact Keeps.refl
  · refine Keeps.step (handoff_keeps ..) rfl ?_
    exact Keeps.refl

theorem mirrorGiveUp_keeps (i) (s : State) : Keeps 3262926912 s (mirrorGiveUp i s) := by
  unfold mirrorGiveUp
  refine Keeps.foldl (fun x1 a2 => ?_) ?_
  · split
    · rename_i v3 v4 v5 v6
      refine Keeps.step (finishMem_keeps ..) rfl ?_
      refine Keeps.step (setVrb_keeps ..) rfl ?_
      exact Keeps.refl
    · rename_i v7 v8
      exact Keeps.refl
  · exact Keeps.refl

theorem mirrorBreak_keeps (w) (s : State) : Keeps 3262928960 s (mirrorBreak w s) := by
  unfold mirrorBreak
  extract_lets +onlyGivenNames x1
  clear_value x1
  split
  · rename_i v2 v3
    refine Keeps.step (replySt_keeps ..) rfl ?_
    exact Keeps.refl
  · rename_i v4 v5 v6
    refine Keeps.ite ?_ ?_
    · refine Keeps.step (replySt_keeps ..) rfl ?_
      refine Keeps.step (mirrorGiveUp_keeps ..) rfl ?_
      refine Keeps.step (modRegion_keeps ..) rfl ?_
      exact Keeps.refl
    · refine Keeps.step (replySt_keeps ..) rfl ?_
      exact Keeps.refl

theorem execMirrorBreak_keeps (r) (e) (s : State) : KeepsX 4202454080 s (execMirrorBreak r e s) := by
  unfold execMirrorBreak
  refine KeepsX.next ?_
  refine Keeps.trans ?_ (runVerb_keeps (M := 4202454080) rfl (fun y1 y2 => ?_))
  · exact Keeps.refl
  · refine Keeps.step (mirrorBreak_keeps ..) rfl ?_
    exact Keeps.refl

theorem renewTo_keeps (node) (a) (a1) (s : State) : Keeps 3262922816 s (renewTo node a a1 s) := by
  induction a generalizing node a1 s
  · unfold renewTo
    exact Keeps.refl
  · rename_i v1 v2
    unfold renewTo
    dsimp -zeta only
    refine Keeps.ite ?_ ?_
    · exact Keeps.refl
    · extract_lets +onlyGivenNames x3
      clear_value x3
      extract_lets +onlyGivenNames x4
      clear_value x4
      refine Keeps.step (v2 _ _ _) (Nat.or_self _) ?_
      refine Keeps.step (sendMsg_keeps ..) rfl ?_
      refine KeepsP.fst ?_
      refine KeepsP.step (freshTag_keeps ..) rfl ?_
      exact Keeps.refl

theorem renewAnchors_keeps (s : State) : Keeps 3262924864 s (renewAnchors s) := by
  unfold renewAnchors
  extract_lets +onlyGivenNames x1
  clear_value x1
  refine Keeps.foldl (fun x2 a3 => ?_) ?_
  · refine Keeps.step (renewTo_keeps ..) rfl ?_
    exact Keeps.refl
  · refine Keeps.step (setPool_keeps ..) rfl ?_
    exact Keeps.refl

theorem execAnchorRenew_keeps (t) (s : State) : KeepsX 4202448960 s (execAnchorRenew t s) := by
  unfold execAnchorRenew
  extract_lets +onlyGivenNames x1
  refine Keeps.cut (p := Keeps 4202448960 s x1) ?_ (fun k2 => ?_)
  · dsimp -zeta only [x1]
    refine Keeps.step (atTime_keeps ..) rfl ?_
    exact Keeps.refl
  clear_value x1
  refine KeepsX.next ?_
  refine Keeps.ite ?_ ?_
  · refine Keeps.step (renewAnchors_keeps ..) rfl ?_
    exact k2
  · exact k2

end Sys2Proof.Machine
end

