-- ==== Sys2Proof/Laws/KeepsStacks.lean ====
section
/-! SUPPORT. What each operation of Machine/Stacks.lean can touch, that it goes onward and that it keeps the invariant. -/

namespace Sys2Proof.Machine

theorem reserveRuns_keeps (k) (a) (s : State) : KeepsO 2048 s (reserveRuns k a s) := by
  induction a generalizing k s
  · unfold reserveRuns
    refine KeepsO.some ?_
    exact Keeps.refl
  · rename_i v1 v2 v3
    unfold reserveRuns
    split
    · rename_i v4 v5
      refine KeepsO.some ?_
      exact Keeps.refl
    · rename_i v6 v7 v8 v9
      split
      · rename_i v10 v11
        exact KeepsO.none
      · rename_i v12 v13 v14 v15
        refine KeepsO.step (v3 _ _) (Nat.or_self _) ?_
        refine Keeps.step (modRegion_keeps ..) rfl ?_
        exact Keeps.refl

theorem moveShadows_keeps (k) (a) (s : State) : KeepsO 29578229857 s (moveShadows k a s) := by
  induction a generalizing k s
  · unfold moveShadows
    refine KeepsO.some ?_
    exact Keeps.refl
  · rename_i v1 v2 v3
    unfold moveShadows
    split
    · rename_i v4 v5
      exact KeepsO.none
    · rename_i v6 v7 v8 v9
      extract_lets +onlyGivenNames x10
      refine Keeps.cut (p := Keeps 29578229857 s x10) ?_ (fun k11 => ?_)
      · dsimp -zeta only [x10]
        refine Keeps.step (copyDram_keeps ..) rfl ?_
        exact Keeps.refl
      clear_value x10
      refine KeepsO.step (v3 _ _) (Nat.or_self _) ?_
      refine Keeps.step (zeroDram_keeps ..) rfl ?_
      refine Keeps.step (setPool_keeps ..) rfl ?_
      exact k11

theorem retireDone_keeps (k) (s : State) : Keeps 20442894400 s (retireDone k s) := by
  unfold retireDone
  refine Keeps.ite ?_ ?_
  · refine Keeps.step (enginesLeave_keeps ..) rfl ?_
    refine Keeps.step (modStack_keeps ..) rfl ?_
    exact Keeps.refl
  · exact Keeps.refl

theorem stackRetire_keeps (sess) (k) (s : State) : Keeps 29578229857 s (stackRetire sess k s) := by
  unfold stackRetire
  refine Keeps.ite ?_ ?_
  · refine Keeps.step (mgmtReply_keeps ..) rfl ?_
    exact Keeps.refl
  · refine Keeps.ite ?_ ?_
    · refine Keeps.step (mgmtReply_keeps ..) rfl ?_
      exact Keeps.refl
    · split
      · rename_i v1 v2
        refine Keeps.step (mgmtReply_keeps ..) rfl ?_
        exact Keeps.refl
      · rename_i v3 v4 v5
        refine Keeps.cut (p := Keeps 29578229857 s v4) (KeepsO.ofEq ?_ v5) (fun k6 => ?_)
        · clear v5
          refine KeepsO.bind ?_ (fun y7 => ?_)
          · refine KeepsO.step (reserveRuns_keeps _ _ _) rfl ?_
            exact Keeps.refl
          · refine KeepsO.step (moveShadows_keeps _ _ _) rfl ?_
            exact Keeps.refl
        clear v5
        refine Keeps.step (retireDone_keeps ..) rfl ?_
        refine Keeps.step (mgmtReply_keeps ..) rfl ?_
        refine Keeps.step (modStack_keeps ..) rfl ?_
        exact k6

theorem execStackRetire_keeps (sess) (stk) (e) (s : State) : KeepsX 34292629503 s (execStackRetire sess stk e s) := by
  unfold execStackRetire
  refine KeepsX.next ?_
  refine Keeps.trans ?_ (withSess_keeps (M := 34292629503) rfl (fun y1 => ?_))
  · refine Keeps.step (applyEnv_keeps ..) rfl ?_
    exact Keeps.refl
  · refine Keeps.step (stackRetire_keeps ..) rfl ?_
    exact Keeps.refl

theorem migrationDone_keeps (gi) (e) (s : State) : Keeps 29578229857 s (migrationDone gi e s) := by
  unfold migrationDone
  split
  · rename_i v1 v2
    exact Keeps.refl
  · rename_i v3 v4 v5 v6
    refine Keeps.ite ?_ ?_
    · exact Keeps.refl
    · extract_lets +onlyGivenNames x7
      clear_value x7
      extract_lets +onlyGivenNames x8
      clear_value x8
      extract_lets +onlyGivenNames x9
      refine Keeps.cut (p := Keeps 29578229857 s x9) ?_ (fun k10 => ?_)
      · dsimp -zeta only [x9]
        refine Keeps.step (copyDram_keeps ..) rfl ?_
        exact Keeps.refl
      clear_value x9
      split
      · rename_i v11 v12
        exact k10
      · rename_i v13 v14 v15
        refine Keeps.ite ?_ ?_
        · exact k10
        · extract_lets +onlyGivenNames x16
          refine Keeps.cut (p := Keeps 29578229857 s x16) ?_ (fun k17 => ?_)
          · dsimp -zeta only [x16]
            refine Keeps.step (modRegion_keeps ..) rfl ?_
            exact k10
          clear_value x16
          extract_lets +onlyGivenNames x18
          refine Keeps.cut (p := Keeps 29578229857 s x18) ?_ (fun k19 => ?_)
          · dsimp -zeta only [x18]
            refine Keeps.step (zeroDram_keeps ..) rfl ?_
            exact k17
          clear_value x18
          refine Keeps.step (retireDone_keeps ..) rfl ?_
          refine Keeps.step (modStack_keeps ..) rfl ?_
          exact k19

theorem execExtentMigrationDone_keeps (gi) (e) (v) (s : State) : KeepsX 29980883041 s (execExtentMigrationDone gi e v s) := by
  unfold execExtentMigrationDone
  refine KeepsX.next ?_
  refine Keeps.step (migrationDone_keeps ..) rfl ?_
  refine Keeps.step (applyEnv_keeps ..) rfl ?_
  exact Keeps.refl

theorem execStackFail_keeps (stk) (e) (s : State) : KeepsX 21390948449 s (execStackFail stk e s) := by
  unfold execStackFail
  refine KeepsX.next ?_
  refine Keeps.step (stackFail_keeps ..) rfl ?_
  refine Keeps.step (applyEnv_keeps ..) rfl ?_
  exact Keeps.refl

theorem dieModuleOut_keeps (k) (m) (s : State) : Keeps 20451424353 s (dieModuleOut k m s) := by
  unfold dieModuleOut
  refine Keeps.ite ?_ ?_
  · extract_lets +onlyGivenNames x1
    refine Keeps.cut (p := Keeps 20451424353 s x1) ?_ (fun k2 => ?_)
    · dsimp -zeta only [x1]
      refine Keeps.step (modStack_keeps ..) rfl ?_
      exact Keeps.refl
    clear_value x1
    extract_lets +onlyGivenNames x3
    refine Keeps.cut (p := Keeps 20451424353 s x3) ?_ (fun k4 => ?_)
    · dsimp -zeta only [x3]
      refine Keeps.step (cairnAt_keeps ..) rfl ?_
      exact k2
    clear_value x3
    refine Keeps.ite ?_ ?_
    · refine Keeps.step (stackFail_keeps ..) rfl ?_
      exact k4
    · exact k4
  · exact Keeps.refl

theorem execDieToDieModuleOut_keeps (stk) (m) (e) (s : State) : KeepsX 21390948449 s (execDieToDieModuleOut stk m e s) := by
  unfold execDieToDieModuleOut
  refine KeepsX.next ?_
  refine Keeps.step (dieModuleOut_keeps ..) rfl ?_
  refine Keeps.step (applyEnv_keeps ..) rfl ?_
  exact Keeps.refl

end Sys2Proof.Machine
end

