-- ==== Sys2Proof/Laws/KeepsCoherence.lean ====
section
/-! SUPPORT. What each operation of Machine/Coherence.lean can touch, that it goes onward and that it keeps the invariant. -/

namespace Sys2Proof.Machine

theorem cohSettled_keeps (s : State) : Keeps 29595007073 s (cohSettled s) := by
  unfold cohSettled
  refine Keeps.step (revsAdvance_keeps ..) rfl ?_
  refine Keeps.step (retryCoh_keeps ..) rfl ?_
  exact Keeps.refl

theorem cohAttach_keeps (pick) (w) (s : State) : Keeps 3262912576 s (cohAttach pick w s) := by
  unfold cohAttach
  extract_lets +onlyGivenNames x1
  clear_value x1
  split
  · rename_i v2 v3 v4
    refine Keeps.step (replySt_keeps ..) rfl ?_
    exact Keeps.refl
  · rename_i v5 v6 v7 v8 v9
    refine Keeps.ite ?_ ?_
    · refine Keeps.step (replySt_keeps ..) rfl ?_
      exact Keeps.refl
    · split
      · rename_i v10 v11 v12
        refine Keeps.step (reply_keeps ..) rfl ?_
        exact Keeps.refl
      · rename_i v13 v14
        split
        · rename_i v15 v16
          refine Keeps.step (replySt_keeps ..) rfl ?_
          exact Keeps.refl
        · rename_i v17 v18 v19
          extract_lets +onlyGivenNames x20
          clear_value x20
          refine Keeps.step (reply_keeps ..) rfl ?_
          refine Keeps.step (modRegion_keeps ..) rfl ?_
          exact Keeps.refl

theorem execCohAttach_keeps (r) (e) (s : State) : KeepsX 4202437696 s (execCohAttach r e s) := by
  unfold execCohAttach
  refine KeepsX.next ?_
  refine Keeps.trans ?_ (runVerb_keeps (M := 4202437696) rfl (fun y1 y2 => ?_))
  · exact Keeps.refl
  · refine Keeps.step (cohAttach_keeps ..) rfl ?_
    exact Keeps.refl

theorem cohDetach_keeps (w) (s : State) : Keeps 29595007073 s (cohDetach w s) := by
  unfold cohDetach
  extract_lets +onlyGivenNames x1
  clear_value x1
  split
  · rename_i v2 v3 v4
    refine Keeps.step (replySt_keeps ..) rfl ?_
    exact Keeps.refl
  · rename_i v5 v6 v7 v8 v9
    split
    · rename_i v10 v11
      refine Keeps.step (replySt_keeps ..) rfl ?_
      exact Keeps.refl
    · rename_i v12 v13 v14
      refine Keeps.ite ?_ ?_
      · refine Keeps.step (replySt_keeps ..) rfl ?_
        exact Keeps.refl
      · refine Keeps.step (cohSettled_keeps ..) rfl ?_
        refine Keeps.step (replySt_keeps ..) rfl ?_
        refine Keeps.step (freeSlot_keeps ..) rfl ?_
        refine Keeps.step (dropSlotLines_keeps ..) rfl ?_
        exact Keeps.refl

theorem execCohDetach_keeps (r) (e) (s : State) : KeepsX 29997661281 s (execCohDetach r e s) := by
  unfold execCohDetach
  refine KeepsX.next ?_
  refine Keeps.trans ?_ (runVerb_keeps (M := 29997661281) rfl (fun y1 y2 => ?_))
  · exact Keeps.refl
  · refine Keeps.step (cohDetach_keeps ..) rfl ?_
    exact Keeps.refl

theorem cohRenew_keeps (w) (s : State) : Keeps 3262910528 s (cohRenew w s) := by
  unfold cohRenew
  extract_lets +onlyGivenNames x1
  clear_value x1
  split
  · rename_i v2 v3 v4
    refine Keeps.step (replySt_keeps ..) rfl ?_
    exact Keeps.refl
  · rename_i v5 v6 v7 v8 v9
    split
    · rename_i v10 v11
      refine Keeps.step (replySt_keeps ..) rfl ?_
      exact Keeps.refl
    · rename_i v12 v13 v14
      refine Keeps.step (reply_keeps ..) rfl ?_
      exact Keeps.refl

theorem execCohRenew_keeps (r) (e) (s : State) : KeepsX 4202437696 s (execCohRenew r e s) := by
  unfold execCohRenew
  refine KeepsX.next ?_
  refine Keeps.trans ?_ (runVerb_keeps (M := 4202437696) rfl (fun y1 y2 => ?_))
  · exact Keeps.refl
  · refine Keeps.step (cohRenew_keeps ..) rfl ?_
    exact Keeps.refl

theorem lineBack_keeps (g) (line) (d) (s : State) : KeepsP 29578229857 s (lineBack g line d s) := by
  unfold lineBack
  split
  · rename_i v1 v2 v3 v4
    extract_lets +onlyGivenNames x5
    clear_value x5
    refine KeepsP.ite ?_ ?_
    · refine KeepsP.mk ?_
      exact Keeps.refl
    · split
      rename_i v6 v7 v8 v9 v10
      refine Keeps.cut (p := Keeps 29578229857 s v7) (KeepsP.ofEq ?_ v10) (fun k11 => ?_)
      · clear v10
        refine KeepsP.step (writePiece_keeps ..) rfl ?_
        exact Keeps.refl
      clear v10
      refine KeepsP.mk ?_
      exact k11
  · rename_i v12 v13
    refine KeepsP.mk ?_
    exact Keeps.refl

theorem cohWriteback_keeps (w) (g) (line) (s : State) : Keeps 29595007073 s (cohWriteback w g line s) := by
  unfold cohWriteback
  extract_lets +onlyGivenNames x1
  clear_value x1
  split
  · rename_i v2 v3
    refine Keeps.step (replySt_keeps ..) rfl ?_
    exact Keeps.refl
  · rename_i v4 v5 v6
    extract_lets +onlyGivenNames x7
    clear_value x7
    refine Keeps.ite ?_ ?_
    · refine Keeps.step (replySt_keeps ..) rfl ?_
      exact Keeps.refl
    · refine Keeps.ite ?_ ?_
      · refine Keeps.step (replySt_keeps ..) rfl ?_
        exact Keeps.refl
      · split
        rename_i v8 v9 v10 v11
        refine Keeps.cut (p := Keeps 29595007073 s v9) (KeepsP.ofEq ?_ v11) (fun k12 => ?_)
        · clear v11
          refine KeepsP.step (lineBack_keeps ..) rfl ?_
          exact Keeps.refl
        clear v11
        refine Keeps.ite ?_ ?_
        · refine Keeps.step (replySt_keeps ..) rfl ?_
          exact k12
        · extract_lets +onlyGivenNames x13
          extract_lets +onlyGivenNames x14
          refine Keeps.cut (p := Keeps 29595007073 s x14) ?_ (fun k15 => ?_)
          · dsimp -zeta only [x14]
            refine Keeps.step (setCoh_keeps ..) rfl ?_
            exact k12
          clear_value x14
          extract_lets +onlyGivenNames x16
          refine Keeps.cut (p := Keeps 29595007073 s x16) ?_ (fun k17 => ?_)
          · dsimp -zeta only [x16]
            refine Keeps.step (setDir_keeps ..) rfl ?_
            exact k15
          clear_value x16
          refine Keeps.step (cohSettled_keeps ..) rfl ?_
          refine Keeps.step (replySt_keeps ..) rfl ?_
          exact k17

theorem writeback_keeps (w) (s : State) : Keeps 29595007073 s (writeback w s) := by
  unfold writeback
  extract_lets +onlyGivenNames x1
  clear_value x1
  refine Keeps.ite ?_ ?_
  · refine Keeps.step (replySt_keeps ..) rfl ?_
    exact Keeps.refl
  · split
    · rename_i v2 v3 v4
      refine Keeps.step (replySt_keeps ..) rfl ?_
      exact Keeps.refl
    · rename_i v5 v6 v7 v8 v9
      split
      · rename_i v10 v11
        refine Keeps.step (cohWriteback_keeps ..) rfl ?_
        exact Keeps.refl
      · rename_i v12 v13
        refine Keeps.step (storeRun_keeps ..) rfl ?_
        exact Keeps.refl
      · rename_i v14 v15 v16
        refine Keeps.step (replySt_keeps ..) rfl ?_
        exact Keeps.refl

theorem execWriteback_keeps (r) (e) (s : State) : KeepsX 29997661281 s (execWriteback r e s) := by
  unfold execWriteback
  refine KeepsX.next ?_
  refine Keeps.trans ?_ (runVerb_keeps (M := 29997661281) rfl (fun y1 y2 => ?_))
  · exact Keeps.refl
  · refine Keeps.step (writeback_keeps ..) rfl ?_
    exact Keeps.refl

theorem takeMsg_keeps (kind) (r) (s : State) : KeepsP 16384 s (takeMsg kind r s) := by
  unfold takeMsg
  split
  · rename_i v1 v2
    refine KeepsP.mk ?_
    exact Keeps.refl
  · rename_i v3 v4 v5
    refine KeepsP.mk ?_
    refine Keeps.step (setCoh_keeps ..) rfl ?_
    exact Keeps.refl

theorem invalAck_keeps (w) (s : State) : Keeps 29595007073 s (invalAck w s) := by
  unfold invalAck
  split
  · rename_i v1 v2 v3
    refine Keeps.cut (p := Keeps 29595007073 s v2) (KeepsP.ofEq ?_ v3) (fun k4 => ?_)
    · clear v3
      refine KeepsP.step (takeMsg_keeps ..) rfl ?_
      exact Keeps.refl
    clear v3
    exact k4
  · rename_i v5 v6 v7 v8
    refine Keeps.cut (p := Keeps 29595007073 s v6) (KeepsP.ofEq ?_ v8) (fun k9 => ?_)
    · clear v8
      refine KeepsP.step (takeMsg_keeps ..) rfl ?_
      exact Keeps.refl
    clear v8
    extract_lets +onlyGivenNames x10
    clear_value x10
    extract_lets +onlyGivenNames x11
    refine Keeps.cut (p := Keeps 29595007073 s x11) ?_ (fun k12 => ?_)
    · dsimp -zeta only [x11]
      refine Keeps.ite ?_ ?_
      · refine Keeps.step (setDir_keeps ..) rfl ?_
        exact k9
      · exact k9
    clear_value x11
    refine Keeps.step (cohSettled_keeps ..) rfl ?_
    exact k12

theorem execInvalAck_keeps (r) (e) (s : State) : KeepsX 29997661281 s (execInvalAck r e s) := by
  unfold execInvalAck
  refine KeepsX.next ?_
  refine Keeps.trans ?_ (runVerb_keeps (M := 29997661281) rfl (fun y1 y2 => ?_))
  · exact Keeps.refl
  · refine Keeps.step (invalAck_keeps ..) rfl ?_
    exact Keeps.refl

theorem takeRecall_keeps {r : Req} {f : CohMsg → DirEnt → State → State} {s : State} {M : Nat} (hm : 29595007073 ||| M = M)
    (h : ∀ a b s, Keeps M s (f a b s)) : Keeps M s (takeRecall r f s) := by
  unfold takeRecall
  split
  · rename_i y e
    exact KeepsP.ofEq ((takeMsg_keeps 1 r s).mono (mask_trans rfl hm)) e
  · rename_i y m e
    have k : Keeps M s y := KeepsP.ofEq ((takeMsg_keeps 1 r s).mono (mask_trans rfl hm)) e
    extract_lets +onlyGivenNames d
    split
    · exact (k.trans (h _ _ y)).trans ((cohSettled_keeps _).mono (mask_trans rfl hm))
    · exact k

theorem execRecallAckNodata_keeps (r) (e) (s : State) : KeepsX 29997661281 s (execRecallAckNodata r e s) := by
  unfold execRecallAckNodata
  extract_lets +onlyGivenNames x1
  clear_value x1
  refine KeepsX.next ?_
  refine Keeps.trans ?_ (runVerb_keeps (M := 29997661281) rfl (fun y2 y3 => ?_))
  · exact Keeps.refl
  · refine Keeps.trans ?_ (takeRecall_keeps (M := 29997661281) rfl (fun y4 y5 y6 => ?_))
    · exact Keeps.refl
    · refine Keeps.step (setDir_keeps ..) rfl ?_
      exact Keeps.refl

theorem recallData_keeps (w) (s : State) : Keeps 29595007073 s (recallData w s) := by
  unfold recallData
  refine Keeps.trans ?_ (takeRecall_keeps (M := 29595007073) rfl (fun y1 y2 y3 => ?_))
  · exact Keeps.refl
  · split
    · rename_i v4 v5
      exact Keeps.refl
    · rename_i v6 v7 v8
      extract_lets +onlyGivenNames x9
      refine Keeps.cut (p := Keeps 29595007073 y3 x9) ?_ (fun k10 => ?_)
      · dsimp -zeta only [x9]
        refine Keeps.ite ?_ ?_
        · refine KeepsP.fst ?_
          refine KeepsP.step (lineBack_keeps ..) rfl ?_
          exact Keeps.refl
        · exact Keeps.refl
      clear_value x9
      refine Keeps.step (setDir_keeps ..) rfl ?_
      exact k10

theorem execRecallAckData_keeps (r) (e) (s : State) : KeepsX 29997661281 s (execRecallAckData r e s) := by
  unfold execRecallAckData
  refine KeepsX.next ?_
  refine Keeps.trans ?_ (runVerb_keeps (M := 29997661281) rfl (fun y1 y2 => ?_))
  · exact Keeps.refl
  · refine Keeps.step (recallData_keeps ..) rfl ?_
    exact Keeps.refl

theorem execRecallAckWbSent_keeps (r) (e) (s : State) : KeepsX 29997661281 s (execRecallAckWbSent r e s) := by
  unfold execRecallAckWbSent
  refine KeepsX.next ?_
  refine Keeps.trans ?_ (runVerb_keeps (M := 29997661281) rfl (fun y1 y2 => ?_))
  · exact Keeps.refl
  · refine Keeps.trans ?_ (takeRecall_keeps (M := 29997661281) rfl (fun y3 y4 y5 => ?_))
    · exact Keeps.refl
    · refine Keeps.step (setDir_keeps ..) rfl ?_
      exact Keeps.refl

theorem cohRevokeAck_keeps (w) (s : State) : Keeps 3279771712 s (cohRevokeAck w s) := by
  unfold cohRevokeAck
  split
  · rename_i v1 v2 v3
    refine Keeps.cut (p := Keeps 3279771712 s v2) (KeepsP.ofEq ?_ v3) (fun k4 => ?_)
    · clear v3
      refine KeepsP.step (takeMsg_keeps ..) rfl ?_
      exact Keeps.refl
    clear v3
    exact k4
  · rename_i v5 v6 v7 v8
    refine Keeps.cut (p := Keeps 3279771712 s v6) (KeepsP.ofEq ?_ v8) (fun k9 => ?_)
    · clear v8
      refine KeepsP.step (takeMsg_keeps ..) rfl ?_
      exact Keeps.refl
    clear v8
    refine Keeps.step (revsAdvance_keeps ..) rfl ?_
    refine Keeps.step (setPool_keeps ..) rfl ?_
    exact k9

theorem execCohRevokeAck_keeps (r) (e) (s : State) : KeepsX 4219296832 s (execCohRevokeAck r e s) := by
  unfold execCohRevokeAck
  refine KeepsX.next ?_
  refine Keeps.trans ?_ (runVerb_keeps (M := 4219296832) rfl (fun y1 y2 => ?_))
  · exact Keeps.refl
  · refine Keeps.step (cohRevokeAck_keeps ..) rfl ?_
    exact Keeps.refl

theorem declareLost_keeps (zero) (w) (s : State) : Keeps 29595007073 s (declareLost zero w s) := by
  unfold declareLost
  extract_lets +onlyGivenNames x1
  clear_value x1
  split
  · rename_i v2 v3 v4
    refine Keeps.step (replySt_keeps ..) rfl ?_
    exact Keeps.refl
  · rename_i v5 v6 v7 v8 v9
    extract_lets +onlyGivenNames x10
    clear_value x10
    extract_lets +onlyGivenNames x11
    clear_value x11
    refine Keeps.ite ?_ ?_
    · refine Keeps.step (replySt_keeps ..) rfl ?_
      exact Keeps.refl
    · refine Keeps.ite ?_ ?_
      · refine Keeps.step (replySt_keeps ..) rfl ?_
        exact Keeps.refl
      · extract_lets +onlyGivenNames x12
        extract_lets +onlyGivenNames x13
        refine Keeps.cut (p := Keeps 29595007073 s x13) ?_ (fun k14 => ?_)
        · dsimp -zeta only [x13]
          refine Keeps.foldl (fun x15 a16 => ?_) ?_
          · extract_lets +onlyGivenNames x17
            refine Keeps.cut (p := Keeps 29595007073 x15 x17) ?_ (fun k18 => ?_)
            · dsimp -zeta only [x17]
              refine Keeps.ite ?_ ?_
              · refine KeepsP.fst ?_
                refine KeepsP.step (lineBack_keeps ..) rfl ?_
                exact Keeps.refl
              · exact Keeps.refl
            clear_value x17
            refine Keeps.step (setDir_keeps ..) rfl ?_
            exact k18
          · exact Keeps.refl
        clear_value x13
        refine Keeps.step (cohSettled_keeps ..) rfl ?_
        refine Keeps.step (replySt_keeps ..) rfl ?_
        exact k14

theorem execCohDeclareLostZero_keeps (r) (e) (s : State) : KeepsX 29997661281 s (execCohDeclareLostZero r e s) := by
  unfold execCohDeclareLostZero
  refine KeepsX.next ?_
  refine Keeps.trans ?_ (runVerb_keeps (M := 29997661281) rfl (fun y1 y2 => ?_))
  · exact Keeps.refl
  · refine Keeps.step (declareLost_keeps ..) rfl ?_
    exact Keeps.refl

theorem execCohDeclareLostStale_keeps (r) (e) (s : State) : KeepsX 29997661281 s (execCohDeclareLostStale r e s) := by
  unfold execCohDeclareLostStale
  refine KeepsX.next ?_
  refine Keeps.trans ?_ (runVerb_keeps (M := 29997661281) rfl (fun y1 y2 => ?_))
  · exact Keeps.refl
  · refine Keeps.step (declareLost_keeps ..) rfl ?_
    exact Keeps.refl

theorem lmQuery_keeps (w) (s : State) : Keeps 3262910528 s (lmQuery w s) := by
  unfold lmQuery
  extract_lets +onlyGivenNames x1
  clear_value x1
  split
  · rename_i v2 v3 v4
    refine Keeps.step (replySt_keeps ..) rfl ?_
    exact Keeps.refl
  · rename_i v5 v6 v7 v8 v9
    extract_lets +onlyGivenNames x10
    clear_value x10
    extract_lets +onlyGivenNames x11
    clear_value x11
    extract_lets +onlyGivenNames x12
    clear_value x12
    refine Keeps.step (reply_keeps ..) rfl ?_
    exact Keeps.refl

theorem execCohLmQuery_keeps (r) (e) (s : State) : KeepsX 4202437696 s (execCohLmQuery r e s) := by
  unfold execCohLmQuery
  refine KeepsX.next ?_
  refine Keeps.trans ?_ (runVerb_keeps (M := 4202437696) rfl (fun y1 y2 => ?_))
  · exact Keeps.refl
  · refine Keeps.step (lmQuery_keeps ..) rfl ?_
    exact Keeps.refl

theorem leasesLost_keeps (node) (s : State) : Keeps 29595007073 s (leasesLost node s) := by
  unfold leasesLost
  refine Keeps.step (cohSettled_keeps ..) rfl ?_
  refine Keeps.foldl (fun x1 a2 => ?_) ?_
  · refine Keeps.step (leaseEnd_keeps ..) rfl ?_
    exact Keeps.refl
  · exact Keeps.refl

theorem leaseExpiry_keeps (g) (k) (s : State) : Keeps 29595007073 s (leaseExpiry g k s) := by
  unfold leaseExpiry
  split
  · rename_i v1 v2
    exact Keeps.refl
  · rename_i v3 v4 v5
    refine Keeps.ite ?_ ?_
    · refine Keeps.step (cohSettled_keeps ..) rfl ?_
      refine Keeps.step (leaseEnd_keeps ..) rfl ?_
      exact Keeps.refl
    · exact Keeps.refl

theorem execLeaseExpiry_keeps (g) (k) (e) (s : State) : KeepsX 29997660257 s (execLeaseExpiry g k e s) := by
  unfold execLeaseExpiry
  refine KeepsX.next ?_
  refine Keeps.step (leaseExpiry_keeps ..) rfl ?_
  refine Keeps.step (applyEnv_keeps ..) rfl ?_
  exact Keeps.refl

theorem sweepDone_keeps (g) (k) (s : State) : Keeps 3262924864 s (sweepDone g k s) := by
  unfold sweepDone
  split
  · rename_i v1 v2
    exact Keeps.refl
  · rename_i v3 v4 v5 v6
    refine Keeps.ite ?_ ?_
    · exact Keeps.refl
    · extract_lets +onlyGivenNames x7
      refine Keeps.cut (p := Keeps 3262924864 s x7) ?_ (fun k8 => ?_)
      · dsimp -zeta only [x7]
        refine Keeps.step (freeSlot_keeps ..) rfl ?_
        exact Keeps.refl
      clear_value x7
      refine Keeps.ite ?_ ?_
      · exact k8
      · refine Keeps.step (fanOut_keeps ..) rfl ?_
        refine Keeps.step (cairnAt_keeps ..) rfl ?_
        exact k8

theorem execCohSweepDone_keeps (g) (k) (e) (s : State) : KeepsX 4202448960 s (execCohSweepDone g k e s) := by
  unfold execCohSweepDone
  refine KeepsX.next ?_
  refine Keeps.step (sweepDone_keeps ..) rfl ?_
  refine Keeps.step (applyEnv_keeps ..) rfl ?_
  exact Keeps.refl

end Sys2Proof.Machine
end

