-- ==== Sys2Proof/Laws/KeepsFetch.lean ====
section
/-! SUPPORT. What each operation of Machine/Fetch.lean can touch, that it goes onward and that it keeps the invariant. -/

namespace Sys2Proof.Machine

/-- The state of a fetch. -/
def Fetched.state : Fetched → State
  | .stop s _ => s
  | .wait s => s
  | .ok s _ => s

/-- The state that a fetch answers. -/
def KeepsF (M : Nat) (s : State) (f : Fetched) : Prop := Keeps M s f.state

theorem KeepsF.stop {M : Nat} {s t : State} {st : Status} (h : Keeps M s t) : KeepsF M s (.stop t st) := h

theorem KeepsF.wait {M : Nat} {s t : State} (h : Keeps M s t) : KeepsF M s (.wait t) := h

theorem KeepsF.ok {M : Nat} {s t : State} {d : List Byte} (h : Keeps M s t) : KeepsF M s (.ok t d) := h

theorem KeepsF.ite {c : Prop} [Decidable c] {M : Nat} {s : State} {a b : Fetched} (h : KeepsF M s a) (k : KeepsF M s b) :
    KeepsF M s (if c then a else b) := by split <;> assumption

theorem KeepsF.step {T M : Nat} {s t : State} {f : Fetched} (h : KeepsF T t f) (hm : T ||| M = M) (k : Keeps M s t) :
    KeepsF M s f := Keeps.step h hm k

theorem KeepsF.ofEq {M : Nat} {s : State} {f g : Fetched} (h : KeepsF M s f) (e : f = g) : Keeps M s g.state := by
  subst e; exact h

theorem againLater_keeps (w) (s : State) : Keeps 4096 s (againLater w s) := by
  unfold againLater
  refine Keeps.step (waitFor_keeps ..) rfl ?_
  exact Keeps.refl

theorem fetchRange_keeps (w) (base) (h) (va) (len) (s : State) : KeepsF 29041358945 s (fetchRange w base h va len s) := by
  unfold fetchRange
  extract_lets +onlyGivenNames x1
  clear_value x1
  split
  · rename_i v2 v3 v4
    refine KeepsF.stop ?_
    exact Keeps.refl
  · rename_i v5 v6 v7 v8 v9
    extract_lets +onlyGivenNames x10
    clear_value x10
    extract_lets +onlyGivenNames x11
    clear_value x11
    refine KeepsF.ite ?_ ?_
    · refine KeepsF.stop ?_
      exact Keeps.refl
    · extract_lets +onlyGivenNames x12
      clear_value x12
      refine KeepsF.ite ?_ ?_
      · split
        · rename_i v13 v14 v15
          refine Keeps.cut (p := Keeps 29041358945 s v14) (KeepsP.ofEq ?_ v15) (fun k16 => ?_)
          · clear v15
            refine KeepsP.step (descGate_keeps ..) rfl ?_
            exact Keeps.refl
          clear v15
          refine KeepsF.wait ?_
          refine Keeps.step (againLater_keeps ..) rfl ?_
          exact k16
        · rename_i v17 v18 v19
          refine Keeps.cut (p := Keeps 29041358945 s v18) (KeepsP.ofEq ?_ v19) (fun k20 => ?_)
          · clear v19
            refine KeepsP.step (descGate_keeps ..) rfl ?_
            exact Keeps.refl
          clear v19
          refine KeepsF.stop ?_
          exact k20
        · rename_i v21 v22 v23
          refine Keeps.cut (p := Keeps 29041358945 s v22) (KeepsP.ofEq ?_ v23) (fun k24 => ?_)
          · clear v23
            refine KeepsP.step (descGate_keeps ..) rfl ?_
            exact Keeps.refl
          clear v23
          split
          rename_i v25 v26 v27 v28
          refine Keeps.cut (p := Keeps 29041358945 s v26) (KeepsP.ofEq ?_ v28) (fun k29 => ?_)
          · clear v28
            refine KeepsP.step (spanWhole_keeps ..) rfl ?_
            exact k24
          clear v28
          split
          · rename_i v30 v31 v32 v33
            refine Keeps.cut (p := Keeps 29041358945 s v31) (KeepsP.ofEq ?_ v33) (fun k34 => ?_)
            · clear v33
              refine KeepsP.step (spanRead_keeps ..) rfl ?_
              exact k29
            clear v33
            refine KeepsF.ok ?_
            exact k34
          · rename_i v35 v36 v37 v38 v39 v40
            refine Keeps.cut (p := Keeps 29041358945 s v36) (KeepsP.ofEq ?_ v40) (fun k41 => ?_)
            · clear v40
              refine KeepsP.step (spanRead_keeps ..) rfl ?_
              exact k29
            clear v40
            refine KeepsF.stop ?_
            exact k41
      · split
        rename_i v42 v43 v44 v45
        refine Keeps.cut (p := Keeps 29041358945 s v43) (KeepsP.ofEq ?_ v45) (fun k46 => ?_)
        · clear v45
          refine KeepsP.step (anchorRds_keeps ..) rfl ?_
          exact Keeps.refl
        clear v45
        refine KeepsF.wait ?_
        refine Keeps.step (waitFor_keeps ..) rfl ?_
        exact k46

theorem writeAt_keeps (g) (o) (d) (s : State) : KeepsP 29578229857 s (writeAt g o d s) := by
  unfold writeAt
  extract_lets +onlyGivenNames x1
  clear_value x1
  refine KeepsP.step (storePieces_keeps ..) rfl ?_
  exact Keeps.refl

theorem writeOut_keeps (g) (o) (a) (s : State) : KeepsP 29578229857 s (writeOut g o a s) := by
  induction a generalizing g o s
  · unfold writeOut
    refine KeepsP.mk ?_
    exact Keeps.refl
  · rename_i v1 v2 v3
    unfold writeOut
    dsimp -zeta only
    refine KeepsP.mk ?_
    refine KeepsP.fst ?_
    refine KeepsP.step (v3 _ _ _) (Nat.or_self _) ?_
    refine KeepsP.fst ?_
    refine KeepsP.step (writeAt_keeps ..) rfl ?_
    exact Keeps.refl

theorem replyFail_keeps (w) (st) (s : State) : Keeps 11852845120 s (replyFail w st s) := by
  unfold replyFail
  split
  rename_i v1 v2 v3 v4
  refine Keeps.cut (p := Keeps 11852845120 s v2) (KeepsP.ofEq ?_ v4) (fun k5 => ?_)
  · clear v4
    refine KeepsP.step (failResp_keeps ..) rfl ?_
    refine Keeps.step (undefOut_keeps ..) rfl ?_
    exact Keeps.refl
  clear v4
  refine Keeps.step (reply_keeps ..) rfl ?_
  exact k5

theorem replyAfter_keeps (w) (p) (tags) (s : State) : Keeps 3262910528 s (replyAfter w p tags s) := by
  unfold replyAfter
  refine Keeps.ite ?_ ?_
  · refine Keeps.step (reply_keeps ..) rfl ?_
    exact Keeps.refl
  · refine Keeps.step (waitFor_keeps ..) rfl ?_
    exact Keeps.refl

end Sys2Proof.Machine
end

