-- ==== Sys2Proof/Laws/KeepsWeights.lean ====
section
/-! SUPPORT. What each operation of Machine/Weights.lean can touch, that it goes onward and that it keeps the invariant. -/

namespace Sys2Proof.Machine

theorem reply12_keeps (w) (st) (r1) (r2) (s : State) : Keeps 3262910528 s (reply12 w st r1 r2 s) := by
  unfold reply12
  refine Keeps.step (reply_keeps ..) rfl ?_
  exact Keeps.refl

theorem wsFail_keeps (w) (st) (r1) (r2) (s : State) : Keeps 3262976064 s (wsFail w st r1 r2 s) := by
  unfold wsFail
  refine Keeps.step (reply12_keeps ..) rfl ?_
  refine Keeps.step (dropLoading_keeps ..) rfl ?_
  exact Keeps.refl

theorem wsRefuse_keeps (w) (r1) (r2) (s : State) : Keeps 3262976064 s (wsRefuse w r1 r2 s) := by
  unfold wsRefuse
  refine Keeps.step (wsFail_keeps ..) rfl ?_
  refine Keeps.step (setWs_keeps ..) rfl ?_
  exact Keeps.refl

theorem wsCommit_keeps (w) (x) (b) (head) (d) (s : State) : Keeps 29595007073 s (wsCommit w x b head d s) := by
  unfold wsCommit
  extract_lets +onlyGivenNames x1
  clear_value x1
  extract_lets +onlyGivenNames x2
  clear_value x2
  extract_lets +onlyGivenNames x3
  clear_value x3
  extract_lets +onlyGivenNames x4
  clear_value x4
  refine Keeps.ite ?_ ?_
  · refine Keeps.step (againLater_keeps ..) rfl ?_
    exact Keeps.refl
  · refine Keeps.ite ?_ ?_
    · extract_lets +onlyGivenNames x5
      refine Keeps.cut (p := Keeps 29595007073 s x5) ?_ (fun k6 => ?_)
      · dsimp -zeta only [x5]
        refine Keeps.foldl (fun x7 a8 => ?_) ?_
        · refine Keeps.step (setMem_keeps _ _ (fun _ h => memWriteL_wf _ _ h)) rfl ?_
          refine KeepsP.fst ?_
          refine KeepsP.step (freeBytes_keeps ..) rfl ?_
          exact Keeps.refl
        · exact Keeps.refl
      clear_value x5
      refine Keeps.step (wsRefuse_keeps ..) rfl ?_
      exact k6
    · extract_lets +onlyGivenNames x9
      refine Keeps.cut (p := Keeps 29595007073 s x9) ?_ (fun k10 => ?_)
      · dsimp -zeta only [x9]
        refine Keeps.foldl (fun x11 a12 => ?_) ?_
        · refine Keeps.step (writeBulk_keeps ..) rfl ?_
          exact Keeps.refl
        · exact Keeps.refl
      clear_value x9
      extract_lets +onlyGivenNames x13
      clear_value x13
      split
      · rename_i v14 v15 v16
        extract_lets +onlyGivenNames x17
        refine Keeps.cut (p := Keeps 29595007073 s x17) ?_ (fun k18 => ?_)
        · dsimp -zeta only [x17]
          refine Keeps.step (setWs_keeps ..) rfl ?_
          refine Keeps.step (dropLoading_keeps ..) rfl ?_
          exact k10
        clear_value x17
        refine Keeps.step (reply_keeps ..) rfl ?_
        exact k18
      · rename_i v19 v20
        extract_lets +onlyGivenNames x21
        clear_value x21
        extract_lets +onlyGivenNames x22
        refine Keeps.cut (p := Keeps 29595007073 s x22) ?_ (fun k23 => ?_)
        · dsimp -zeta only [x22]
          refine Keeps.step (noteHistory_keeps ..) rfl ?_
          refine Keeps.step (useIndex_keeps ..) rfl ?_
          refine Keeps.step (setWs_keeps ..) rfl ?_
          exact k10
        clear_value x22
        refine Keeps.step (reply_keeps ..) rfl ?_
        exact k23

theorem fetchSpans_keeps (w) (h) (va) (a) (a1) (s : State) : KeepsF 29041358945 s (fetchSpans w h va a a1 s) := by
  induction a generalizing w h va a1 s
  · unfold fetchSpans
    refine KeepsF.ok ?_
    exact Keeps.refl
  · rename_i v1 v2 v3
    unfold fetchSpans
    split
    · rename_i v4 v5 v6 v7
      refine Keeps.cut (p := Keeps 29041358945 s v5) (KeepsF.ofEq ?_ v7) (fun k8 => ?_)
      · clear v7
        refine KeepsF.step (fetchRange_keeps ..) rfl ?_
        exact Keeps.refl
      clear v7
      refine KeepsF.step (v3 _ _ _ _ _) (Nat.or_self _) ?_
      exact k8
    · rename_i v9 v10
      refine KeepsF.step (fetchRange_keeps ..) rfl ?_
      exact Keeps.refl

theorem wsRead_keeps (w) (x) (b) (head) (s : State) : Keeps 29595007073 s (wsRead w x b head s) := by
  unfold wsRead
  split
  · rename_i v1 v2 v3 v4
    refine Keeps.cut (p := Keeps 29595007073 s v2) (KeepsF.ofEq ?_ v4) (fun k5 => ?_)
    · clear v4
      refine KeepsF.step (fetchSpans_keeps ..) rfl ?_
      exact Keeps.refl
    clear v4
    refine Keeps.step (wsFail_keeps ..) rfl ?_
    exact k5
  · rename_i v6 v7 v8
    refine Keeps.cut (p := Keeps 29595007073 s v7) (KeepsF.ofEq ?_ v8) (fun k9 => ?_)
    · clear v8
      refine KeepsF.step (fetchSpans_keeps ..) rfl ?_
      exact Keeps.refl
    clear v8
    exact k9
  · rename_i v10 v11 v12 v13
    refine Keeps.cut (p := Keeps 29595007073 s v11) (KeepsF.ofEq ?_ v13) (fun k14 => ?_)
    · clear v13
      refine KeepsF.step (fetchSpans_keeps ..) rfl ?_
      exact Keeps.refl
    clear v13
    refine Keeps.step (wsCommit_keeps ..) rfl ?_
    exact k14

theorem wsPlace_keeps (pick) (w) (g) (b) (head) (s : State) : Keeps 29595007073 s (wsPlace pick w g b head s) := by
  unfold wsPlace
  extract_lets +onlyGivenNames x1
  clear_value x1
  extract_lets +onlyGivenNames x2
  clear_value x2
  extract_lets +onlyGivenNames x3
  clear_value x3
  extract_lets +onlyGivenNames x4
  extract_lets +onlyGivenNames x5
  clear_value x5
  extract_lets +onlyGivenNames x6
  clear_value x6
  refine Keeps.ite ?_ ?_
  · refine Keeps.step (wsRefuse_keeps ..) rfl ?_
    exact Keeps.refl
  · refine Keeps.ite ?_ ?_
    · refine Keeps.step (wsRefuse_keeps ..) rfl ?_
      exact Keeps.refl
    · refine Keeps.ite ?_ ?_
      · refine Keeps.step (wsRefuse_keeps ..) rfl ?_
        exact Keeps.refl
      · split
        · rename_i v7 v8
          refine Keeps.step (wsRefuse_keeps ..) rfl ?_
          exact Keeps.refl
        · rename_i v9 v10 v11
          refine Keeps.ite ?_ ?_
          · refine Keeps.step (wsRefuse_keeps ..) rfl ?_
            exact Keeps.refl
          · split
            · rename_i v12 v13 v14 v15 v16
              refine Keeps.step (wsRefuse_keeps ..) rfl ?_
              exact Keeps.refl
            · rename_i v17 v18
              split
              · rename_i v19 v20 v21 v22
                refine Keeps.step (wsRefuse_keeps ..) rfl ?_
                exact Keeps.refl
              · rename_i v23 v24
                extract_lets +onlyGivenNames x25
                clear_value x25
                refine Keeps.step (wsRead_keeps ..) rfl ?_
                refine Keeps.step (setWs_keeps ..) rfl ?_
                exact Keeps.refl

theorem wsBundle_keeps (pick) (w) (g) (hd) (s : State) : Keeps 29595007073 s (wsBundle pick w g hd s) := by
  unfold wsBundle
  extract_lets +onlyGivenNames x1
  clear_value x1
  extract_lets +onlyGivenNames x2
  clear_value x2
  extract_lets +onlyGivenNames x3
  clear_value x3
  extract_lets +onlyGivenNames x4
  clear_value x4
  extract_lets +onlyGivenNames x5
  clear_value x5
  refine Keeps.ite ?_ ?_
  · refine Keeps.step (wsFail_keeps ..) rfl ?_
    exact Keeps.refl
  · refine Keeps.ite ?_ ?_
    · refine Keeps.step (wsFail_keeps ..) rfl ?_
      exact Keeps.refl
    · split
      · rename_i v6 v7 v8 v9
        refine Keeps.cut (p := Keeps 29595007073 s v7) (KeepsF.ofEq ?_ v9) (fun k10 => ?_)
        · clear v9
          refine KeepsF.step (fetchRange_keeps ..) rfl ?_
          exact Keeps.refl
        clear v9
        refine Keeps.step (wsFail_keeps ..) rfl ?_
        exact k10
      · rename_i v11 v12 v13
        refine Keeps.cut (p := Keeps 29595007073 s v12) (KeepsF.ofEq ?_ v13) (fun k14 => ?_)
        · clear v13
          refine KeepsF.step (fetchRange_keeps ..) rfl ?_
          exact Keeps.refl
        clear v13
        exact k14
      · rename_i v15 v16 v17 v18
        refine Keeps.cut (p := Keeps 29595007073 s v16) (KeepsF.ofEq ?_ v18) (fun k19 => ?_)
        · clear v18
          refine KeepsF.step (fetchRange_keeps ..) rfl ?_
          exact Keeps.refl
        clear v18
        split
        · rename_i v20 v21
          refine Keeps.step (wsFail_keeps ..) rfl ?_
          exact k19
        · rename_i v22 v23 v24
          split
          · rename_i v25 v26 v27
            refine Keeps.step (wsRead_keeps ..) rfl ?_
            exact k19
          · rename_i v28 v29
            refine Keeps.step (wsPlace_keeps ..) rfl ?_
            refine Keeps.step (dropLoading_keeps ..) rfl ?_
            exact k19

theorem wsLoad_keeps (pick) (w) (s : State) : Keeps 29595007073 s (wsLoad pick w s) := by
  unfold wsLoad
  extract_lets +onlyGivenNames x1
  clear_value x1
  split
  · rename_i v2 v3
    refine Keeps.step (wsFail_keeps ..) rfl ?_
    exact Keeps.refl
  · rename_i v4 v5 v6
    refine Keeps.ite ?_ ?_
    · refine Keeps.step (wsFail_keeps ..) rfl ?_
      exact Keeps.refl
    · refine Keeps.ite ?_ ?_
      · refine Keeps.step (replySt_keeps ..) rfl ?_
        exact Keeps.refl
      · refine Keeps.ite ?_ ?_
        · refine Keeps.step (againLater_keeps ..) rfl ?_
          exact Keeps.refl
        · split
          · rename_i v7 v8 v9 v10
            refine Keeps.cut (p := Keeps 29595007073 s v8) (KeepsF.ofEq ?_ v10) (fun k11 => ?_)
            · clear v10
              refine KeepsF.step (fetchRange_keeps ..) rfl ?_
              exact Keeps.refl
            clear v10
            refine Keeps.step (wsFail_keeps ..) rfl ?_
            exact k11
          · rename_i v12 v13 v14
            refine Keeps.cut (p := Keeps 29595007073 s v13) (KeepsF.ofEq ?_ v14) (fun k15 => ?_)
            · clear v14
              refine KeepsF.step (fetchRange_keeps ..) rfl ?_
              exact Keeps.refl
            clear v14
            exact k15
          · rename_i v16 v17 v18 v19
            refine Keeps.cut (p := Keeps 29595007073 s v17) (KeepsF.ofEq ?_ v19) (fun k20 => ?_)
            · clear v19
              refine KeepsF.step (fetchRange_keeps ..) rfl ?_
              exact Keeps.refl
            clear v19
            refine Keeps.step (wsBundle_keeps ..) rfl ?_
            exact k20

theorem execWsLoad_keeps (r) (e) (s : State) : KeepsX 29997661281 s (execWsLoad r e s) := by
  unfold execWsLoad
  refine KeepsX.next ?_
  refine Keeps.trans ?_ (runVerb_keeps (M := 29997661281) rfl (fun y1 y2 => ?_))
  · exact Keeps.refl
  · refine Keeps.step (wsLoad_keeps ..) rfl ?_
    exact Keeps.refl

theorem readTile_keeps (x) (t) (esc) (vs) (s : State) : KeepsP 29578229857 s (readTile x t esc vs s) := by
  unfold readTile
  extract_lets +onlyGivenNames x1
  clear_value x1
  extract_lets +onlyGivenNames x2
  clear_value x2
  split
  rename_i v3 v4 v5 v6
  refine Keeps.cut (p := Keeps 29578229857 s v4) (KeepsP.ofEq ?_ v6) (fun k7 => ?_)
  · clear v6
    refine KeepsP.step (readSched_keeps ..) rfl ?_
    exact Keeps.refl
  clear v6
  extract_lets +onlyGivenNames x8
  clear_value x8
  split
  rename_i v9 v10 v11 v12
  refine Keeps.cut (p := Keeps 29578229857 s v10) (KeepsP.ofEq ?_ v12) (fun k13 => ?_)
  · clear v12
    refine KeepsP.ite ?_ ?_
    · split
      rename_i v14 v15 v16 v17
      refine Keeps.cut (p := Keeps 29578229857 s v15) (KeepsP.ofEq ?_ v17) (fun k18 => ?_)
      · clear v17
        refine KeepsP.step (readSched_keeps ..) rfl ?_
        exact k7
      clear v17
      refine KeepsP.mk ?_
      exact k18
    · refine KeepsP.mk ?_
      exact k7
  clear v12
  split
  · rename_i v19 v20 v21 v22
    refine KeepsP.ite ?_ ?_
    · refine KeepsP.mk ?_
      exact k13
    · refine KeepsP.mk ?_
      exact k13
  · rename_i v23 v24 v25
    refine KeepsP.mk ?_
    exact k13

theorem tileRun_keeps (e) (x) (i) (n) (t) (esc) (tol) (vs) (s : State) : KeepsP 29578229857 s (tileRun e x i n t esc tol vs s) := by
  unfold tileRun
  split
  · rename_i v1 v2 v3
    refine Keeps.cut (p := Keeps 29578229857 s v2) (KeepsP.ofEq ?_ v3) (fun k4 => ?_)
    · clear v3
      refine KeepsP.step (readTile_keeps ..) rfl ?_
      exact Keeps.refl
    clear v3
    refine KeepsP.mk ?_
    exact k4
  · rename_i v5 v6 v7 v8
    refine Keeps.cut (p := Keeps 29578229857 s v6) (KeepsP.ofEq ?_ v8) (fun k9 => ?_)
    · clear v8
      refine KeepsP.step (readTile_keeps ..) rfl ?_
      exact Keeps.refl
    clear v8
    extract_lets +onlyGivenNames x10
    clear_value x10
    extract_lets +onlyGivenNames x11
    split
    · rename_i v12 v13
      refine KeepsP.mk ?_
      dsimp -zeta only [x11]
      refine Keeps.step (noteEsc_keeps ..) rfl ?_
      refine Keeps.step (noteFlags_keeps ..) rfl ?_
      exact k9
    · rename_i v14 v15 v16
      split
      · rename_i v17 v18
        refine KeepsP.mk ?_
        refine Keeps.step (abftFailed_keeps ..) rfl ?_
        dsimp -zeta only [x11]
        refine Keeps.step (noteEsc_keeps ..) rfl ?_
        refine Keeps.step (noteFlags_keeps ..) rfl ?_
        exact k9
      · rename_i v19 v20 v21
        split
        · rename_i v22 v23 v24
          refine Keeps.cut (p := Keeps 29578229857 s v23) (KeepsP.ofEq ?_ v24) (fun k25 => ?_)
          · clear v24
            refine KeepsP.step (readTile_keeps ..) rfl ?_
            exact k9
          clear v24
          refine KeepsP.mk ?_
          exact k25
        · rename_i v26 v27 v28 v29
          refine Keeps.cut (p := Keeps 29578229857 s v27) (KeepsP.ofEq ?_ v29) (fun k30 => ?_)
          · clear v29
            refine KeepsP.step (readTile_keeps ..) rfl ?_
            exact k9
          clear v29
          extract_lets +onlyGivenNames x31
          clear_value x31
          split
          · rename_i v32 v33
            extract_lets +onlyGivenNames x34
            clear_value x34
            refine KeepsP.mk ?_
            refine Keeps.step (abftRecovered_keeps ..) rfl ?_
            dsimp -zeta only [x11]
            refine Keeps.step (noteEsc_keeps ..) rfl ?_
            refine Keeps.step (noteFlags_keeps ..) rfl ?_
            exact k30
          · rename_i v35 v36 v37
            refine KeepsP.mk ?_
            refine Keeps.step (abftFailed_keeps ..) rfl ?_
            dsimp -zeta only [x11]
            refine Keeps.step (noteEsc_keeps ..) rfl ?_
            refine Keeps.step (noteFlags_keeps ..) rfl ?_
            exact k30

theorem callTiles_keeps (e) (x) (p) (vecs) (row) (k) (a) (a1) (s : State) : KeepsP 29578229857 s (callTiles e x p vecs row k a a1 s) := by
  induction a generalizing e x p vecs row k a1 s
  · unfold callTiles
    refine KeepsP.mk ?_
    exact Keeps.refl
  · rename_i v1 v2 v3
    unfold callTiles
    extract_lets +onlyGivenNames x4
    clear_value x4
    extract_lets +onlyGivenNames x5
    clear_value x5
    split
    · rename_i v6 v7 v8 v9
      refine Keeps.cut (p := Keeps 29578229857 s v7) (KeepsP.ofEq ?_ v9) (fun k10 => ?_)
      · clear v9
        refine KeepsP.step (tileRun_keeps ..) rfl ?_
        exact Keeps.refl
      clear v9
      extract_lets +onlyGivenNames x11
      clear_value x11
      extract_lets +onlyGivenNames x12
      clear_value x12
      refine KeepsP.step (v3 _ _ _ _ _ _ _ _) (Nat.or_self _) ?_
      refine Keeps.ite ?_ ?_
      · exact k10
      · refine Keeps.step (noteFlags_keeps ..) rfl ?_
        exact k10
    · rename_i v13 v14 v15 v16 v17 v18
      refine Keeps.cut (p := Keeps 29578229857 s v14) (KeepsP.ofEq ?_ v18) (fun k19 => ?_)
      · clear v18
        refine KeepsP.step (tileRun_keeps ..) rfl ?_
        exact Keeps.refl
      clear v18
      refine KeepsP.mk ?_
      exact k19

theorem runTime_keeps (s : State) : KeepsP 1073741824 s (runTime s) := by
  unfold runTime
  split
  rename_i v1 v2 v3 v4
  refine Keeps.cut (p := Keeps 1073741824 s v2) (KeepsP.ofEq ?_ v4) (fun k5 => ?_)
  · clear v4
    refine KeepsP.step (takeFree_keeps ..) rfl ?_
    exact Keeps.refl
  clear v4
  refine KeepsP.mk ?_
  exact k5

theorem gemvFail_keeps (w) (st) (fl) (esc) (mat) (tile) (s : State) : Keeps 3262976064 s (gemvFail w st fl esc mat tile s) := by
  unfold gemvFail
  extract_lets +onlyGivenNames x1
  refine Keeps.cut (p := Keeps 3262976064 s x1) ?_ (fun k2 => ?_)
  · dsimp -zeta only [x1]
    refine Keeps.ite ?_ ?_
    · refine Keeps.step (setWs_keeps ..) rfl ?_
      exact Keeps.refl
    · exact Keeps.refl
  clear_value x1
  split
  rename_i v3 v4 v5 v6
  refine Keeps.cut (p := Keeps 3262976064 s v4) (KeepsP.ofEq ?_ v6) (fun k7 => ?_)
  · clear v6
    refine KeepsP.step (runTime_keeps ..) rfl ?_
    exact k2
  clear v6
  refine Keeps.step (reply_keeps ..) rfl ?_
  exact k7

theorem noteRounding_keeps (p) (row) (tiles) (out) (s : State) : Keeps 32768 s (noteRounding p row tiles out s) := by
  unfold noteRounding
  refine Keeps.foldl (fun x1 a2 => ?_) ?_
  · extract_lets +onlyGivenNames x3
    clear_value x3
    extract_lets +onlyGivenNames x4
    clear_value x4
    refine Keeps.ite ?_ ?_
    · exact Keeps.refl
    · refine Keeps.step (noteFlags_keeps ..) rfl ?_
      exact Keeps.refl
  · exact Keeps.refl

theorem gemvWork_keeps (e) (w) (x) (p) (k) (tiles) (go) (oo) (input) (s : State) : Keeps 29578229857 s (gemvWork e w x p k tiles go oo input s) := by
  unfold gemvWork
  extract_lets +onlyGivenNames x1
  clear_value x1
  extract_lets +onlyGivenNames x2
  clear_value x2
  extract_lets +onlyGivenNames x3
  clear_value x3
  extract_lets +onlyGivenNames x4
  clear_value x4
  extract_lets +onlyGivenNames x5
  clear_value x5
  extract_lets +onlyGivenNames x6
  extract_lets +onlyGivenNames x7
  refine Keeps.cut (p := Keeps 29578229857 s x7) ?_ (fun k8 => ?_)
  · dsimp -zeta only [x7]
    refine Keeps.foldl (fun x9 a10 => ?_) ?_
    · refine Keeps.step (clearFlags_keeps ..) rfl ?_
      refine Keeps.step (serveTenant_keeps ..) rfl ?_
      exact Keeps.refl
    · exact Keeps.refl
  clear_value x7
  split
  rename_i v11 v12 v13 v14
  refine Keeps.cut (p := Keeps 29578229857 s v12) (KeepsP.ofEq ?_ v14) (fun k15 => ?_)
  · clear v14
    refine KeepsP.step (callTiles_keeps ..) rfl ?_
    exact k8
  clear v14
  refine Keeps.ite ?_ ?_
  · refine Keeps.step (gemvFail_keeps ..) rfl ?_
    refine Keeps.step (undefAt_keeps ..) rfl ?_
    exact k15
  · extract_lets +onlyGivenNames x16
    clear_value x16
    extract_lets +onlyGivenNames x17
    clear_value x17
    extract_lets +onlyGivenNames x18
    refine Keeps.cut (p := Keeps 29578229857 s x18) ?_ (fun k19 => ?_)
    · dsimp -zeta only [x18]
      refine Keeps.step (noteRounding_keeps ..) rfl ?_
      exact k15
    clear_value x18
    split
    rename_i v20 v21 v22 v23 v24
    refine Keeps.cut (p := Keeps 29578229857 s v21) (KeepsP.ofEq ?_ v24) (fun k25 => ?_)
    · clear v24
      refine KeepsP.step (writeOut_keeps ..) rfl ?_
      exact k19
    clear v24
    refine Keeps.ite ?_ ?_
    · refine Keeps.step (gemvFail_keeps ..) rfl ?_
      refine Keeps.step (undefAt_keeps ..) rfl ?_
      exact k25
    · split
      rename_i v26 v27 v28 v29
      refine Keeps.cut (p := Keeps 29578229857 s v27) (KeepsP.ofEq ?_ v29) (fun k30 => ?_)
      · clear v29
        refine KeepsP.step (runTime_keeps ..) rfl ?_
        exact k25
      clear v29
      refine Keeps.step (replyAfter_keeps ..) rfl ?_
      exact k30

theorem wsGemv_keeps (e) (w) (s : State) : Keeps 29578229857 s (wsGemv e w s) := by
  unfold wsGemv
  extract_lets +onlyGivenNames x1
  clear_value x1
  extract_lets +onlyGivenNames x2
  clear_value x2
  split
  · rename_i v3 v4
    refine Keeps.step (replySt_keeps ..) rfl ?_
    exact Keeps.refl
  · rename_i v5 v6 v7
    extract_lets +onlyGivenNames x8
    clear_value x8
    refine Keeps.ite ?_ ?_
    · refine Keeps.ite ?_ ?_
      · refine Keeps.step (gemvFail_keeps ..) rfl ?_
        exact Keeps.refl
      · refine Keeps.step (replySt_keeps ..) rfl ?_
        exact Keeps.refl
    · extract_lets +onlyGivenNames x9
      clear_value x9
      extract_lets +onlyGivenNames x10
      clear_value x10
      refine Keeps.ite ?_ ?_
      · refine Keeps.step (replySt_keeps ..) rfl ?_
        exact Keeps.refl
      · extract_lets +onlyGivenNames x11
        clear_value x11
        extract_lets +onlyGivenNames x12
        clear_value x12
        extract_lets +onlyGivenNames x13
        clear_value x13
        extract_lets +onlyGivenNames x14
        clear_value x14
        extract_lets +onlyGivenNames x15
        clear_value x15
        extract_lets +onlyGivenNames x16
        clear_value x16
        extract_lets +onlyGivenNames x17
        clear_value x17
        extract_lets +onlyGivenNames x18
        clear_value x18
        extract_lets +onlyGivenNames x19
        refine Keeps.ite ?_ ?_
        · refine Keeps.step (gemvFail_keeps ..) rfl ?_
          dsimp -zeta only [x19]
          split
          · rename_i v20 v21 v22
            refine Keeps.step (undefAt_keeps ..) rfl ?_
            exact Keeps.refl
          · rename_i v23 v24
            exact Keeps.refl
        · refine Keeps.ite ?_ ?_
          · refine Keeps.step (replyFail_keeps ..) rfl ?_
            exact Keeps.refl
          · refine Keeps.ite ?_ ?_
            · refine Keeps.step (replyFail_keeps ..) rfl ?_
              exact Keeps.refl
            · refine Keeps.ite ?_ ?_
              · refine Keeps.step (replyFail_keeps ..) rfl ?_
                exact Keeps.refl
              · split
                · rename_i v25 v26 v27 v28
                  refine Keeps.ite ?_ ?_
                  · refine Keeps.step (againLater_keeps ..) rfl ?_
                    exact Keeps.refl
                  · split
                    · rename_i v29 v30
                      refine Keeps.step (replyFail_keeps ..) rfl ?_
                      exact Keeps.refl
                    · rename_i v31 v32 v33
                      extract_lets +onlyGivenNames x34
                      clear_value x34
                      split
                      · rename_i v35 v36 v37
                        refine Keeps.cut (p := Keeps 29578229857 s v36) (KeepsP.ofEq ?_ v37) (fun k38 => ?_)
                        · clear v37
                          refine KeepsP.step (descGate_keeps ..) rfl ?_
                          exact Keeps.refl
                        clear v37
                        refine Keeps.step (againLater_keeps ..) rfl ?_
                        exact k38
                      · rename_i v39 v40 v41
                        refine Keeps.cut (p := Keeps 29578229857 s v40) (KeepsP.ofEq ?_ v41) (fun k42 => ?_)
                        · clear v41
                          refine KeepsP.step (descGate_keeps ..) rfl ?_
                          exact Keeps.refl
                        clear v41
                        refine Keeps.step (gemvFail_keeps ..) rfl ?_
                        refine Keeps.step (undefAt_keeps ..) rfl ?_
                        exact k42
                      · rename_i v43 v44 v45
                        refine Keeps.cut (p := Keeps 29578229857 s v44) (KeepsP.ofEq ?_ v45) (fun k46 => ?_)
                        · clear v45
                          refine KeepsP.step (descGate_keeps ..) rfl ?_
                          exact Keeps.refl
                        clear v45
                        split
                        · rename_i v47 v48 v49 v50
                          refine Keeps.cut (p := Keeps 29578229857 s v48) (KeepsF.ofEq ?_ v50) (fun k51 => ?_)
                          · clear v50
                            refine KeepsF.step (fetchRange_keeps ..) rfl ?_
                            exact k46
                          clear v50
                          refine Keeps.step (gemvFail_keeps ..) rfl ?_
                          refine Keeps.step (undefAt_keeps ..) rfl ?_
                          exact k51
                        · rename_i v52 v53 v54
                          refine Keeps.cut (p := Keeps 29578229857 s v53) (KeepsF.ofEq ?_ v54) (fun k55 => ?_)
                          · clear v54
                            refine KeepsF.step (fetchRange_keeps ..) rfl ?_
                            exact k46
                          clear v54
                          exact k55
                        · rename_i v56 v57 v58 v59
                          refine Keeps.cut (p := Keeps 29578229857 s v57) (KeepsF.ofEq ?_ v59) (fun k60 => ?_)
                          · clear v59
                            refine KeepsF.step (fetchRange_keeps ..) rfl ?_
                            exact k46
                          clear v59
                          refine Keeps.step (gemvWork_keeps ..) rfl ?_
                          exact k60
                · rename_i v61 v62 v63 v64 v65 v66
                  refine Keeps.step (gemvFail_keeps ..) rfl ?_
                  dsimp -zeta only [x19]
                  split
                  · rename_i v67 v68 v69
                    refine Keeps.step (undefAt_keeps ..) rfl ?_
                    exact Keeps.refl
                  · rename_i v70 v71
                    exact Keeps.refl

theorem execWsGemv_keeps (r) (e) (s : State) : KeepsX 29980884065 s (execWsGemv r e s) := by
  unfold execWsGemv
  refine KeepsX.next ?_
  refine Keeps.trans ?_ (runVerb_keeps (M := 29980884065) rfl (fun y1 y2 => ?_))
  · exact Keeps.refl
  · refine Keeps.step (wsGemv_keeps ..) rfl ?_
    exact Keeps.refl

theorem wsRelease_keeps (w) (s : State) : Keeps 3279755328 s (wsRelease w s) := by
  unfold wsRelease
  extract_lets +onlyGivenNames x1
  clear_value x1
  split
  · rename_i v2 v3
    refine Keeps.step (replySt_keeps ..) rfl ?_
    exact Keeps.refl
  · rename_i v4 v5 v6
    refine Keeps.ite ?_ ?_
    · refine Keeps.step (reply_keeps ..) rfl ?_
      refine Keeps.step (freeSet_keeps ..) rfl ?_
      exact Keeps.refl
    · refine Keeps.ite ?_ ?_
      · extract_lets +onlyGivenNames x7
        clear_value x7
        refine Keeps.step (reply_keeps ..) rfl ?_
        refine Keeps.step (setWs_keeps ..) rfl ?_
        exact Keeps.refl
      · refine Keeps.ite ?_ ?_
        · refine Keeps.step (replySt_keeps ..) rfl ?_
          exact Keeps.refl
        · refine Keeps.step (reply_keeps ..) rfl ?_
          refine Keeps.step (freeSet_keeps ..) rfl ?_
          exact Keeps.refl

theorem execWsRelease_keeps (r) (e) (s : State) : KeepsX 4219280448 s (execWsRelease r e s) := by
  unfold execWsRelease
  refine KeepsX.next ?_
  refine Keeps.trans ?_ (runVerb_keeps (M := 4219280448) rfl (fun y1 y2 => ?_))
  · exact Keeps.refl
  · refine Keeps.step (wsRelease_keeps ..) rfl ?_
    exact Keeps.refl

end Sys2Proof.Machine
end

