-- ==== Sys2Proof/Laws/KeepsKv.lean ====
section
/-! SUPPORT. What each operation of Machine/Kv.lean can touch, that it goes onward and that it keeps the invariant. -/

namespace Sys2Proof.Machine

theorem modKv_keeps (i) (f) (s : State) : Keeps 131072 s (modKv i f s) := by
  unfold modKv
  refine Keeps.step (setKv_keeps ..) rfl ?_
  exact Keeps.refl

theorem touchKv_keeps (i) (s : State) : Keeps 131072 s (touchKv i s) := by
  unfold touchKv
  refine Keeps.step (modKv_keeps ..) rfl ?_
  exact Keeps.refl

theorem kvAdd_keeps (pick) (lo) (r1) (w) (g) (o) (s : State) : Keeps 3263043648 s (kvAdd pick lo r1 w g o s) := by
  unfold kvAdd
  split
  · rename_i v1 v2 v3 v4
    refine Keeps.step (reply12_keeps ..) rfl ?_
    exact Keeps.refl
  · rename_i v5 v6
    split
    · rename_i v7 v8
      refine Keeps.step (reply12_keeps ..) rfl ?_
      exact Keeps.refl
    · rename_i v9 v10 v11
      extract_lets +onlyGivenNames x12
      clear_value x12
      extract_lets +onlyGivenNames x13
      clear_value x13
      extract_lets +onlyGivenNames x14
      refine Keeps.cut (p := Keeps 3263043648 s x14) ?_ (fun k15 => ?_)
      · dsimp -zeta only [x14]
        refine Keeps.step (useIndex_keeps ..) rfl ?_
        refine Keeps.step (setKv_keeps ..) rfl ?_
        exact Keeps.refl
      clear_value x14
      refine Keeps.step (reply_keeps ..) rfl ?_
      exact k15

theorem kvCreate_keeps (pick) (w) (s : State) : Keeps 3263043648 s (kvCreate pick w s) := by
  unfold kvCreate
  extract_lets +onlyGivenNames x1
  clear_value x1
  extract_lets +onlyGivenNames x2
  clear_value x2
  split
  · rename_i v3 v4
    refine Keeps.step (replySt_keeps ..) rfl ?_
    exact Keeps.refl
  · rename_i v5 v6 v7
    refine Keeps.ite ?_ ?_
    · refine Keeps.step (replySt_keeps ..) rfl ?_
      exact Keeps.refl
    · refine Keeps.ite ?_ ?_
      · refine Keeps.step (replySt_keeps ..) rfl ?_
        exact Keeps.refl
      · refine Keeps.ite ?_ ?_
        · refine Keeps.step (againLater_keeps ..) rfl ?_
          exact Keeps.refl
        · extract_lets +onlyGivenNames x8
          clear_value x8
          extract_lets +onlyGivenNames x9
          clear_value x9
          refine Keeps.step (kvAdd_keeps ..) rfl ?_
          exact Keeps.refl

theorem execKvCreate_keeps (r) (e) (s : State) : KeepsX 4202568768 s (execKvCreate r e s) := by
  unfold execKvCreate
  refine KeepsX.next ?_
  refine Keeps.trans ?_ (runVerb_keeps (M := 4202568768) rfl (fun y1 y2 => ?_))
  · exact Keeps.refl
  · refine Keeps.step (kvCreate_keeps ..) rfl ?_
    exact Keeps.refl

theorem drawFrame_keeps (i) (k) (maker) (s : State) : KeepsP 131072 s (drawFrame i k maker s) := by
  unfold drawFrame
  split
  · rename_i v1 v2
    refine KeepsP.mk ?_
    exact Keeps.refl
  · rename_i v3 v4 v5
    split
    · rename_i v6 v7
      refine KeepsP.mk ?_
      exact Keeps.refl
    · rename_i v8 v9 v10
      extract_lets +onlyGivenNames x11
      clear_value x11
      refine KeepsP.mk ?_
      refine Keeps.step (modKv_keeps ..) rfl ?_
      exact Keeps.refl

theorem setPage_keeps (i) (l) (h) (p) (f) (s : State) : Keeps 131072 s (setPage i l h p f s) := by
  unfold setPage
  refine Keeps.step (modKv_keeps ..) rfl ?_
  exact Keeps.refl

theorem copyPage_keeps (i) (l) (h) (p) (src) (s : State) : Keeps 29578229857 s (copyPage i l h p src s) := by
  unfold copyPage
  split
  rename_i v1 v2 v3 v4
  refine Keeps.cut (p := Keeps 29578229857 s v2) (KeepsP.ofEq ?_ v4) (fun k5 => ?_)
  · clear v4
    refine KeepsP.step (drawFrame_keeps ..) rfl ?_
    exact Keeps.refl
  clear v4
  extract_lets +onlyGivenNames x6
  refine Keeps.cut (p := Keeps 29578229857 s x6) ?_ (fun k7 => ?_)
  · dsimp -zeta only [x6]
    refine Keeps.step (setPage_keeps ..) rfl ?_
    exact k5
  clear_value x6
  refine Keeps.step (copyDram_keeps ..) rfl ?_
  refine Keeps.step (setKv_keeps ..) rfl ?_
  exact k7

theorem ownPage_keeps (i) (l) (h) (p) (s : State) : KeepsP 29578229857 s (ownPage i l h p s) := by
  unfold ownPage
  split
  · rename_i v1 v2
    refine KeepsP.mk ?_
    exact Keeps.refl
  · rename_i v3 v4 v5
    split
    · rename_i v6 v7
      split
      rename_i v8 v9 v10 v11
      refine Keeps.cut (p := Keeps 29578229857 s v9) (KeepsP.ofEq ?_ v11) (fun k12 => ?_)
      · clear v11
        refine KeepsP.step (drawFrame_keeps ..) rfl ?_
        exact Keeps.refl
      clear v11
      refine KeepsP.mk ?_
      refine Keeps.step (setPage_keeps ..) rfl ?_
      exact k12
    · rename_i v13 v14 v15
      extract_lets +onlyGivenNames x16
      clear_value x16
      refine KeepsP.ite ?_ ?_
      · refine KeepsP.mk ?_
        exact Keeps.refl
      · refine KeepsP.ite ?_ ?_
        · refine KeepsP.mk ?_
          refine Keeps.foldl (fun x17 a18 => ?_) ?_
          · refine Keeps.step (copyPage_keeps ..) rfl ?_
            exact Keeps.refl
          · exact Keeps.refl
        · refine KeepsP.mk ?_
          refine Keeps.step (copyPage_keeps ..) rfl ?_
          exact Keeps.refl

theorem writeTokens_keeps (o) (f) (slot) (ks) (vs) (s : State) : KeepsP 29041358945 s (writeTokens o f slot ks vs s) := by
  unfold writeTokens
  extract_lets +onlyGivenNames x1
  clear_value x1
  split
  rename_i v2 v3 v4 v5
  refine Keeps.cut (p := Keeps 29041358945 s v3) (KeepsP.ofEq ?_ v5) (fun k6 => ?_)
  · clear v5
    refine KeepsP.step (writeDram_keeps ..) rfl ?_
    exact Keeps.refl
  clear v5
  split
  rename_i v7 v8 v9 v10
  refine Keeps.cut (p := Keeps 29041358945 s v8) (KeepsP.ofEq ?_ v10) (fun k11 => ?_)
  · clear v10
    refine KeepsP.step (writeDram_keeps ..) rfl ?_
    exact k6
  clear v10
  refine KeepsP.mk ?_
  exact k11

theorem appendPage_keeps (i) (l0) (pos) (count) (d) (s) (x) : KeepsP 29578229857 s.1 (appendPage i l0 pos count d s x) := by
  obtain ⟨s, b⟩ := s
  unfold appendPage
  dsimp -zeta only
  split
  · rename_i v1 v2
    refine KeepsP.mk ?_
    refine KeepsP.fst ?_
    refine KeepsP.step (ownPage_keeps ..) rfl ?_
    exact Keeps.refl
  · rename_i v3 v4 v5
    split
    · rename_i v6 v7
      refine KeepsP.mk ?_
      refine KeepsP.fst ?_
      refine KeepsP.step (ownPage_keeps ..) rfl ?_
      exact Keeps.refl
    · rename_i v8 v9 v10
      extract_lets +onlyGivenNames x11
      clear_value x11
      extract_lets +onlyGivenNames x12
      clear_value x12
      extract_lets +onlyGivenNames x13
      clear_value x13
      extract_lets +onlyGivenNames x14
      clear_value x14
      extract_lets +onlyGivenNames x15
      clear_value x15
      extract_lets +onlyGivenNames x16
      clear_value x16
      refine KeepsP.mk ?_
      refine KeepsP.fst ?_
      refine KeepsP.step (writeTokens_keeps ..) rfl ?_
      refine KeepsP.fst ?_
      refine KeepsP.step (ownPage_keeps ..) rfl ?_
      exact Keeps.refl

theorem kvAppend_keeps (w) (s : State) : Keeps 29578229857 s (kvAppend w s) := by
  unfold kvAppend
  extract_lets +onlyGivenNames x1
  clear_value x1
  extract_lets +onlyGivenNames x2
  clear_value x2
  split
  · rename_i v3 v4
    refine Keeps.step (replySt_keeps ..) rfl ?_
    exact Keeps.refl
  · rename_i v5 v6 v7
    extract_lets +onlyGivenNames x8
    refine Keeps.cut (p := Keeps 29578229857 s x8) ?_ (fun k9 => ?_)
    · dsimp -zeta only [x8]
      refine Keeps.step (touchKv_keeps ..) rfl ?_
      exact Keeps.refl
    clear_value x8
    extract_lets +onlyGivenNames x10
    clear_value x10
    refine Keeps.ite ?_ ?_
    · refine Keeps.step (replySt_keeps ..) rfl ?_
      exact k9
    · refine Keeps.ite ?_ ?_
      · refine Keeps.step (replySt_keeps ..) rfl ?_
        exact k9
      · extract_lets +onlyGivenNames x11
        clear_value x11
        extract_lets +onlyGivenNames x12
        clear_value x12
        extract_lets +onlyGivenNames x13
        clear_value x13
        extract_lets +onlyGivenNames x14
        clear_value x14
        extract_lets +onlyGivenNames x15
        clear_value x15
        extract_lets +onlyGivenNames x16
        clear_value x16
        extract_lets +onlyGivenNames x17
        clear_value x17
        refine Keeps.ite ?_ ?_
        · refine Keeps.step (againLater_keeps ..) rfl ?_
          exact k9
        · refine Keeps.ite ?_ ?_
          · refine Keeps.step (replySt_keeps ..) rfl ?_
            exact k9
          · refine Keeps.ite ?_ ?_
            · refine Keeps.step (reply12_keeps ..) rfl ?_
              exact k9
            · refine Keeps.ite ?_ ?_
              · refine Keeps.step (reply12_keeps ..) rfl ?_
                refine Keeps.step (setKv_keeps ..) rfl ?_
                exact k9
              · refine Keeps.ite ?_ ?_
                · refine Keeps.step (reply12_keeps ..) rfl ?_
                  exact k9
                · extract_lets +onlyGivenNames x18
                  refine Keeps.ite ?_ ?_
                  · dsimp -zeta only [x18]
                    refine Keeps.ite ?_ ?_
                    · refine Keeps.step (replySt_keeps ..) rfl ?_
                      refine KeepsP.fst ?_
                      refine KeepsP.foldl (fun x19 a20 => ?_) ?_
                      · obtain ⟨y21, z22⟩ := x19
                        dsimp -zeta only
                        refine KeepsP.step (appendPage_keeps ..) rfl ?_
                        dsimp -zeta only
                        exact Keeps.refl
                      · refine KeepsP.mk ?_
                        exact k9
                    · refine Keeps.step (reply_keeps ..) rfl ?_
                      refine Keeps.step (modKv_keeps ..) rfl ?_
                      refine KeepsP.fst ?_
                      refine KeepsP.foldl (fun x23 a24 => ?_) ?_
                      · obtain ⟨y25, z26⟩ := x23
                        dsimp -zeta only
                        refine KeepsP.step (appendPage_keeps ..) rfl ?_
                        dsimp -zeta only
                        exact Keeps.refl
                      · refine KeepsP.mk ?_
                        exact k9
                  · split
                    · rename_i v27 v28 v29 v30
                      refine Keeps.cut (p := Keeps 29578229857 s v28) (KeepsF.ofEq ?_ v30) (fun k31 => ?_)
                      · clear v30
                        refine KeepsF.step (fetchRange_keeps ..) rfl ?_
                        exact k9
                      clear v30
                      refine Keeps.step (replySt_keeps ..) rfl ?_
                      exact k31
                    · rename_i v32 v33 v34
                      refine Keeps.cut (p := Keeps 29578229857 s v33) (KeepsF.ofEq ?_ v34) (fun k35 => ?_)
                      · clear v34
                        refine KeepsF.step (fetchRange_keeps ..) rfl ?_
                        exact k9
                      clear v34
                      exact k35
                    · rename_i v36 v37 v38 v39
                      refine Keeps.cut (p := Keeps 29578229857 s v37) (KeepsF.ofEq ?_ v39) (fun k40 => ?_)
                      · clear v39
                        refine KeepsF.step (fetchRange_keeps ..) rfl ?_
                        exact k9
                      clear v39
                      dsimp -zeta only [x18]
                      refine Keeps.ite ?_ ?_
                      · refine Keeps.step (replySt_keeps ..) rfl ?_
                        refine KeepsP.fst ?_
                        refine KeepsP.foldl (fun x41 a42 => ?_) ?_
                        · obtain ⟨y43, z44⟩ := x41
                          dsimp -zeta only
                          refine KeepsP.step (appendPage_keeps ..) rfl ?_
                          dsimp -zeta only
                          exact Keeps.refl
                        · refine KeepsP.mk ?_
                          exact k40
                      · refine Keeps.step (reply_keeps ..) rfl ?_
                        refine Keeps.step (modKv_keeps ..) rfl ?_
                        refine KeepsP.fst ?_
                        refine KeepsP.foldl (fun x45 a46 => ?_) ?_
                        · obtain ⟨y47, z48⟩ := x45
                          dsimp -zeta only
                          refine KeepsP.step (appendPage_keeps ..) rfl ?_
                          dsimp -zeta only
                          exact Keeps.refl
                        · refine KeepsP.mk ?_
                          exact k40

theorem execKvAppend_keeps (r) (e) (s : State) : KeepsX 29980884065 s (execKvAppend r e s) := by
  unfold execKvAppend
  refine KeepsX.next ?_
  refine Keeps.trans ?_ (runVerb_keeps (M := 29980884065) rfl (fun y1 y2 => ?_))
  · exact Keeps.refl
  · refine Keeps.step (kvAppend_keeps ..) rfl ?_
    exact Keeps.refl

theorem kvSharePrefix_keeps (pick) (w) (s : State) : Keeps 3263043648 s (kvSharePrefix pick w s) := by
  unfold kvSharePrefix
  extract_lets +onlyGivenNames x1
  clear_value x1
  extract_lets +onlyGivenNames x2
  clear_value x2
  split
  · rename_i v3 v4
    refine Keeps.step (replySt_keeps ..) rfl ?_
    exact Keeps.refl
  · rename_i v5 v6 v7
    extract_lets +onlyGivenNames x8
    refine Keeps.cut (p := Keeps 3263043648 s x8) ?_ (fun k9 => ?_)
    · dsimp -zeta only [x8]
      refine Keeps.step (touchKv_keeps ..) rfl ?_
      exact Keeps.refl
    clear_value x8
    refine Keeps.ite ?_ ?_
    · refine Keeps.step (replySt_keeps ..) rfl ?_
      exact k9
    · refine Keeps.ite ?_ ?_
      · refine Keeps.step (againLater_keeps ..) rfl ?_
        exact k9
      · split
        · rename_i v10 v11
          refine Keeps.step (replySt_keeps ..) rfl ?_
          exact k9
        · rename_i v12 v13 v14
          refine Keeps.ite ?_ ?_
          · refine Keeps.step (replySt_keeps ..) rfl ?_
            exact k9
          · extract_lets +onlyGivenNames x15
            clear_value x15
            extract_lets +onlyGivenNames x16
            clear_value x16
            extract_lets +onlyGivenNames x17
            clear_value x17
            refine Keeps.step (kvAdd_keeps ..) rfl ?_
            exact k9

theorem execKvSharePrefix_keeps (r) (e) (s : State) : KeepsX 4202568768 s (execKvSharePrefix r e s) := by
  unfold execKvSharePrefix
  refine KeepsX.next ?_
  refine Keeps.trans ?_ (runVerb_keeps (M := 4202568768) rfl (fun y1 y2 => ?_))
  · exact Keeps.refl
  · refine Keeps.step (kvSharePrefix_keeps ..) rfl ?_
    exact Keeps.refl

theorem kvRelease_keeps (w) (s : State) : Keeps 3263043648 s (kvRelease w s) := by
  unfold kvRelease
  split
  · rename_i v1 v2
    refine Keeps.step (replySt_keeps ..) rfl ?_
    exact Keeps.refl
  · rename_i v3 v4 v5
    refine Keeps.ite ?_ ?_
    · refine Keeps.step (replySt_keeps ..) rfl ?_
      refine Keeps.step (touchKv_keeps ..) rfl ?_
      exact Keeps.refl
    · refine Keeps.step (replySt_keeps ..) rfl ?_
      refine Keeps.step (freeObj_keeps ..) rfl ?_
      exact Keeps.refl

theorem execKvRelease_keeps (r) (e) (s : State) : KeepsX 4202568768 s (execKvRelease r e s) := by
  unfold execKvRelease
  refine KeepsX.next ?_
  refine Keeps.trans ?_ (runVerb_keeps (M := 4202568768) rfl (fun y1 y2 => ?_))
  · exact Keeps.refl
  · refine Keeps.step (kvRelease_keeps ..) rfl ?_
    exact Keeps.refl

theorem execKvExpired_keeps (i) (e) (s : State) : KeepsX 4202580032 s (execKvExpired i e s) := by
  unfold execKvExpired
  extract_lets +onlyGivenNames x1
  refine Keeps.cut (p := Keeps 4202580032 s x1) ?_ (fun k2 => ?_)
  · dsimp -zeta only [x1]
    refine Keeps.step (applyEnv_keeps ..) rfl ?_
    exact Keeps.refl
  clear_value x1
  refine KeepsX.next ?_
  split
  · rename_i v3 v4
    exact k2
  · rename_i v5 v6 v7
    refine Keeps.ite ?_ ?_
    · exact k2
    · refine Keeps.step (event_keeps ..) rfl ?_
      refine Keeps.step (setKv_keeps ..) rfl ?_
      refine Keeps.step (freeObj_keeps ..) rfl ?_
      exact k2

theorem readPage_keeps (o) (f) (n) (s : State) : KeepsP 29578229857 s (readPage o f n s) := by
  unfold readPage
  extract_lets +onlyGivenNames x1
  clear_value x1
  split
  rename_i v2 v3 v4 v5
  refine Keeps.cut (p := Keeps 29578229857 s v3) (KeepsP.ofEq ?_ v5) (fun k6 => ?_)
  · clear v5
    refine KeepsP.step (readSched_keeps ..) rfl ?_
    exact Keeps.refl
  clear v5
  split
  rename_i v7 v8 v9 v10
  refine Keeps.cut (p := Keeps 29578229857 s v8) (KeepsP.ofEq ?_ v10) (fun k11 => ?_)
  · clear v10
    refine KeepsP.step (readDram_keeps ..) rfl ?_
    exact k6
  clear v10
  split
  · rename_i v12 v13 v14 v15
    refine KeepsP.mk ?_
    exact k11
  · rename_i v16 v17 v18
    refine KeepsP.mk ?_
    exact k11

theorem readChain_keeps (o) (l) (h) (n) (a) (s : State) : KeepsP 29578229857 s (readChain o l h n a s) := by
  induction a generalizing o l h n s
  · unfold readChain
    refine KeepsP.mk ?_
    exact Keeps.refl
  · rename_i v1 v2 v3
    unfold readChain
    dsimp -zeta only
    extract_lets +onlyGivenNames x4
    clear_value x4
    extract_lets +onlyGivenNames x5
    clear_value x5
    refine KeepsP.mk ?_
    refine KeepsP.fst ?_
    refine KeepsP.step (v3 _ _ _ _ _) (Nat.or_self _) ?_
    refine KeepsP.fst ?_
    refine KeepsP.step (readPage_keeps ..) rfl ?_
    exact Keeps.refl

theorem readHeads_keeps (o) (l) (n) (a) (s : State) : KeepsP 29578229857 s (readHeads o l n a s) := by
  induction a generalizing o l n s
  · unfold readHeads
    refine KeepsP.mk ?_
    exact Keeps.refl
  · rename_i v1 v2 v3
    unfold readHeads
    dsimp -zeta only
    refine KeepsP.mk ?_
    refine KeepsP.fst ?_
    refine KeepsP.step (v3 _ _ _ _) (Nat.or_self _) ?_
    refine KeepsP.fst ?_
    refine KeepsP.step (readChain_keeps ..) rfl ?_
    exact Keeps.refl

theorem attFail_keeps (w) (st) (g) (o) (len) (ctx) (fl) (pages) (s : State) : Keeps 11852845120 s (attFail w st g o len ctx fl pages s) := by
  unfold attFail
  split
  rename_i v1 v2 v3 v4
  refine Keeps.cut (p := Keeps 11852845120 s v2) (KeepsP.ofEq ?_ v4) (fun k5 => ?_)
  · clear v4
    refine KeepsP.step (runTime_keeps ..) rfl ?_
    refine Keeps.step (undefAt_keeps ..) rfl ?_
    exact Keeps.refl
  clear v4
  refine Keeps.step (reply_keeps ..) rfl ?_
  exact k5

theorem attWork_keeps (w) (o) (p) (engs) (g) (oo) (len) (q) (s : State) : Keeps 29578229857 s (attWork w o p engs g oo len q s) := by
  unfold attWork
  extract_lets +onlyGivenNames x1
  refine Keeps.cut (p := Keeps 29578229857 s x1) ?_ (fun k2 => ?_)
  · dsimp -zeta only [x1]
    refine Keeps.foldl (fun x3 a4 => ?_) ?_
    · refine Keeps.step (serveTenant_keeps ..) rfl ?_
      exact Keeps.refl
    · exact Keeps.refl
  clear_value x1
  split
  rename_i v5 v6 v7 v8
  refine Keeps.cut (p := Keeps 29578229857 s v6) (KeepsP.ofEq ?_ v8) (fun k9 => ?_)
  · clear v8
    refine KeepsP.step (readHeads_keeps ..) rfl ?_
    exact k2
  clear v8
  extract_lets +onlyGivenNames x10
  clear_value x10
  extract_lets +onlyGivenNames x11
  clear_value x11
  extract_lets +onlyGivenNames x12
  refine Keeps.cut (p := Keeps 29578229857 s x12) ?_ (fun k13 => ?_)
  · dsimp -zeta only [x12]
    refine Keeps.ite ?_ ?_
    · exact k9
    · refine Keeps.foldl (fun x14 a15 => ?_) ?_
      · refine Keeps.step (noteFlags_keeps ..) rfl ?_
        exact Keeps.refl
      · exact k9
  clear_value x12
  extract_lets +onlyGivenNames x16
  clear_value x16
  refine Keeps.ite ?_ ?_
  · refine Keeps.step (attFail_keeps ..) rfl ?_
    exact k13
  · extract_lets +onlyGivenNames x17
    clear_value x17
    extract_lets +onlyGivenNames x18
    clear_value x18
    extract_lets +onlyGivenNames x19
    clear_value x19
    split
    rename_i v20 v21 v22 v23 v24
    refine Keeps.cut (p := Keeps 29578229857 s v21) (KeepsP.ofEq ?_ v24) (fun k25 => ?_)
    · clear v24
      refine KeepsP.step (writeOut_keeps ..) rfl ?_
      exact k13
    clear v24
    refine Keeps.ite ?_ ?_
    · refine Keeps.step (attFail_keeps ..) rfl ?_
      exact k25
    · split
      rename_i v26 v27 v28 v29
      refine Keeps.cut (p := Keeps 29578229857 s v27) (KeepsP.ofEq ?_ v29) (fun k30 => ?_)
      · clear v29
        refine KeepsP.step (runTime_keeps ..) rfl ?_
        exact k25
      clear v29
      refine Keeps.step (replyAfter_keeps ..) rfl ?_
      exact k30

theorem kvAttend_keeps (w) (s : State) : Keeps 29578229857 s (kvAttend w s) := by
  unfold kvAttend
  extract_lets +onlyGivenNames x1
  clear_value x1
  extract_lets +onlyGivenNames x2
  clear_value x2
  split
  · rename_i v3 v4
    refine Keeps.step (replySt_keeps ..) rfl ?_
    exact Keeps.refl
  · rename_i v5 v6 v7
    extract_lets +onlyGivenNames x8
    refine Keeps.cut (p := Keeps 29578229857 s x8) ?_ (fun k9 => ?_)
    · dsimp -zeta only [x8]
      refine Keeps.step (touchKv_keeps ..) rfl ?_
      exact Keeps.refl
    clear_value x8
    refine Keeps.ite ?_ ?_
    · refine Keeps.step (replySt_keeps ..) rfl ?_
      exact k9
    · refine Keeps.ite ?_ ?_
      · refine Keeps.step (replySt_keeps ..) rfl ?_
        exact k9
      · refine Keeps.ite ?_ ?_
        · refine Keeps.step (againLater_keeps ..) rfl ?_
          exact k9
        · extract_lets +onlyGivenNames x10
          clear_value x10
          extract_lets +onlyGivenNames x11
          clear_value x11
          extract_lets +onlyGivenNames x12
          clear_value x12
          extract_lets +onlyGivenNames x13
          clear_value x13
          extract_lets +onlyGivenNames x14
          clear_value x14
          extract_lets +onlyGivenNames x15
          clear_value x15
          extract_lets +onlyGivenNames x16
          clear_value x16
          extract_lets +onlyGivenNames x17
          clear_value x17
          refine Keeps.ite ?_ ?_
          · refine Keeps.step (replyFail_keeps ..) rfl ?_
            exact k9
          · refine Keeps.ite ?_ ?_
            · refine Keeps.step (replyFail_keeps ..) rfl ?_
              exact k9
            · refine Keeps.ite ?_ ?_
              · refine Keeps.step (replyFail_keeps ..) rfl ?_
                exact k9
              · split
                · rename_i v18 v19 v20 v21 v22 v23
                  extract_lets +onlyGivenNames x24
                  clear_value x24
                  split
                  · rename_i v25 v26 v27
                    refine Keeps.cut (p := Keeps 29578229857 s v26) (KeepsP.ofEq ?_ v27) (fun k28 => ?_)
                    · clear v27
                      refine KeepsP.step (descGate_keeps ..) rfl ?_
                      exact k9
                    clear v27
                    refine Keeps.step (againLater_keeps ..) rfl ?_
                    exact k28
                  · rename_i v29 v30 v31
                    refine Keeps.cut (p := Keeps 29578229857 s v30) (KeepsP.ofEq ?_ v31) (fun k32 => ?_)
                    · clear v31
                      refine KeepsP.step (descGate_keeps ..) rfl ?_
                      exact k9
                    clear v31
                    refine Keeps.step (attFail_keeps ..) rfl ?_
                    exact k32
                  · rename_i v33 v34 v35
                    refine Keeps.cut (p := Keeps 29578229857 s v34) (KeepsP.ofEq ?_ v35) (fun k36 => ?_)
                    · clear v35
                      refine KeepsP.step (descGate_keeps ..) rfl ?_
                      exact k9
                    clear v35
                    split
                    · rename_i v37 v38 v39 v40
                      refine Keeps.cut (p := Keeps 29578229857 s v38) (KeepsF.ofEq ?_ v40) (fun k41 => ?_)
                      · clear v40
                        refine KeepsF.step (fetchRange_keeps ..) rfl ?_
                        exact k36
                      clear v40
                      refine Keeps.step (attFail_keeps ..) rfl ?_
                      exact k41
                    · rename_i v42 v43 v44
                      refine Keeps.cut (p := Keeps 29578229857 s v43) (KeepsF.ofEq ?_ v44) (fun k45 => ?_)
                      · clear v44
                        refine KeepsF.step (fetchRange_keeps ..) rfl ?_
                        exact k36
                      clear v44
                      exact k45
                    · rename_i v46 v47 v48 v49
                      refine Keeps.cut (p := Keeps 29578229857 s v47) (KeepsF.ofEq ?_ v49) (fun k50 => ?_)
                      · clear v49
                        refine KeepsF.step (fetchRange_keeps ..) rfl ?_
                        exact k36
                      clear v49
                      refine Keeps.step (attWork_keeps ..) rfl ?_
                      exact k50
                · rename_i v51 v52 v53 v54 v55 v56
                  refine Keeps.step (replyFail_keeps ..) rfl ?_
                  exact k9

theorem execKvAttend_keeps (r) (e) (s : State) : KeepsX 29980884065 s (execKvAttend r e s) := by
  unfold execKvAttend
  refine KeepsX.next ?_
  refine Keeps.trans ?_ (runVerb_keeps (M := 29980884065) rfl (fun y1 y2 => ?_))
  · exact Keeps.refl
  · refine Keeps.step (kvAttend_keeps ..) rfl ?_
    exact Keeps.refl

end Sys2Proof.Machine
end

