-- ==== Sys2Proof/Laws/KeepsEngRun.lean ====
section
/-! SUPPORT. What each operation of Machine/EngRun.lean can touch, that it goes onward and that it keeps the invariant. -/

namespace Sys2Proof.Machine

theorem noteStreamDrop_keeps (n) (s : State) : Keeps 1048576 s (noteStreamDrop n s) := by
  unfold noteStreamDrop
  refine Keeps.ite ?_ ?_
  · exact Keeps.refl
  · refine Keeps.step (setE2e_keeps ..) rfl ?_
    exact Keeps.refl

theorem landEngine_keeps (n) (s : State) : Keeps 1081344 s (landEngine n s) := by
  unfold landEngine
  extract_lets +onlyGivenNames x1
  clear_value x1
  refine Keeps.step (noteStreamDrop_keeps ..) rfl ?_
  refine Keeps.step (modEng_keeps ..) rfl ?_
  exact Keeps.refl

theorem modBar_keeps (i) (f) (s : State) : Keeps 32768 s (modBar i f s) := by
  unfold modBar
  refine Keeps.step (setFe_keeps ..) rfl ?_
  exact Keeps.refl

theorem noteBreak_keeps (i) (s : State) : Keeps 32768 s (noteBreak i s) := by
  unfold noteBreak
  split
  · rename_i v1 v2
    exact Keeps.refl
  · rename_i v3 v4 v5
    refine Keeps.ite ?_ ?_
    · exact Keeps.refl
    · refine Keeps.step (modPlan_keeps ..) rfl ?_
      exact Keeps.refl

theorem noteWork_keeps (i) (s : State) : Keeps 32768 s (noteWork i s) := by
  unfold noteWork
  refine Keeps.step (modPlan_keeps ..) rfl ?_
  exact Keeps.refl

theorem wakeSlot_keeps (p) (n) (k) (s : State) : Keeps 3262976064 s (wakeSlot p n k s) := by
  unfold wakeSlot
  refine Keeps.foldl (fun x1 a2 => ?_) ?_
  · refine Keeps.step (complete_keeps ..) rfl ?_
    exact Keeps.refl
  · exact Keeps.refl

theorem engineFault_keeps (i) (n) (kind) (st) (s : State) : Keeps 3263008832 s (engineFault i n kind st s) := by
  unfold engineFault
  extract_lets +onlyGivenNames x1
  clear_value x1
  refine Keeps.step (abortRun_keeps ..) rfl ?_
  refine Keeps.step (cairnAt_keeps ..) rfl ?_
  exact Keeps.refl

theorem addSlot_keeps (p) (n) (k) (c) (s : State) : Keeps 3263008832 s (addSlot p n k c s) := by
  unfold addSlot
  extract_lets +onlyGivenNames x1
  clear_value x1
  extract_lets +onlyGivenNames x2
  refine Keeps.cut (p := Keeps 3263008832 s x2) ?_ (fun k3 => ?_)
  · dsimp -zeta only [x2]
    refine Keeps.step (wakeSlot_keeps ..) rfl ?_
    refine Keeps.step (modEng_keeps ..) rfl ?_
    exact Keeps.refl
  clear_value x2
  refine Keeps.ite ?_ ?_
  · refine Keeps.step (engineFault_keeps ..) rfl ?_
    exact k3
  · exact k3

theorem signal_keeps (p) (d) (s : State) : Keeps 3263008832 s (signal p d s) := by
  unfold signal
  refine Keeps.ite ?_ ?_
  · split
    · rename_i v1 v2 v3
      refine Keeps.step (addSlot_keeps ..) rfl ?_
      exact Keeps.refl
    · rename_i v4 v5
      exact Keeps.refl
  · exact Keeps.refl

theorem advance_keeps (n) (d) (s : State) : Keeps 32768 s (advance n d s) := by
  unfold advance
  refine Keeps.step (modEng_keeps ..) rfl ?_
  exact Keeps.refl

theorem barPhase_keeps (b) (s : State) : Keeps 3263008832 s (barPhase b s) := by
  unfold barPhase
  extract_lets +onlyGivenNames x1
  clear_value x1
  extract_lets +onlyGivenNames x2
  refine Keeps.cut (p := Keeps 3263008832 s x2) ?_ (fun k3 => ?_)
  · dsimp -zeta only [x2]
    refine Keeps.step (modBar_keeps ..) rfl ?_
    exact Keeps.refl
  clear_value x2
  extract_lets +onlyGivenNames x4
  refine Keeps.cut (p := Keeps 3263008832 s x4) ?_ (fun k5 => ?_)
  · dsimp -zeta only [x4]
    refine Keeps.foldl (fun x6 a7 => ?_) ?_
    · split
      · rename_i v8 v9 v10 v11 v12 v13 v14
        refine Keeps.step (signal_keeps ..) rfl ?_
        refine Keeps.step (noteWork_keeps ..) rfl ?_
        refine Keeps.step (modEng_keeps ..) rfl ?_
        exact Keeps.refl
      · rename_i v15 v16 v17
        exact Keeps.refl
    · exact k3
  clear_value x4
  refine Keeps.foldl (fun x18 a19 => ?_) ?_
  · refine Keeps.step (complete_keeps ..) rfl ?_
    exact Keeps.refl
  · exact k5

theorem barAdvance_keeps (i) (a) (s : State) : Keeps 3263008832 s (barAdvance i a s) := by
  induction a generalizing i s
  · unfold barAdvance
    exact Keeps.refl
  · rename_i v1 v2
    unfold barAdvance
    split
    · rename_i v3 v4
      exact Keeps.refl
    · rename_i v5 v6 v7
      refine Keeps.ite ?_ ?_
      · extract_lets +onlyGivenNames x8
        refine Keeps.cut (p := Keeps 3263008832 s x8) ?_ (fun k9 => ?_)
        · dsimp -zeta only [x8]
          refine Keeps.step (barPhase_keeps ..) rfl ?_
          exact Keeps.refl
        clear_value x8
        refine Keeps.ite ?_ ?_
        · refine Keeps.step (v2 _ _) (Nat.or_self _) ?_
          exact k9
        · exact k9
      · exact Keeps.refl

theorem barArrived_keeps (i) (s : State) : Keeps 3263008832 s (barArrived i s) := by
  unfold barArrived
  refine Keeps.step (barAdvance_keeps ..) rfl ?_
  exact Keeps.refl

theorem parkOn_keeps (n) (stack) (page) (s : State) : Keeps 3263025216 s (parkOn n stack page s) := by
  unfold parkOn
  split
  · rename_i v1 v2
    exact Keeps.refl
  · rename_i v3 v4 v5 v6
    extract_lets +onlyGivenNames x7
    clear_value x7
    split
    · rename_i v8 v9 v10
      refine Keeps.step (modEng_keeps ..) rfl ?_
      refine Keeps.step (setFe_keeps ..) rfl ?_
      exact Keeps.refl
    · rename_i v11 v12
      split
      · rename_i v13 v14
        refine Keeps.step (engineFault_keeps ..) rfl ?_
        refine Keeps.step (setFe_keeps ..) rfl ?_
        exact Keeps.refl
      · rename_i v15 v16 v17
        extract_lets +onlyGivenNames x18
        refine Keeps.cut (p := Keeps 3263025216 s x18) ?_ (fun k19 => ?_)
        · dsimp -zeta only [x18]
          refine Keeps.step (setFe_keeps ..) rfl ?_
          exact Keeps.refl
        clear_value x18
        extract_lets +onlyGivenNames x20
        refine Keeps.cut (p := Keeps 3263025216 s x20) ?_ (fun k21 => ?_)
        · dsimp -zeta only [x20]
          refine Keeps.step (modEng_keeps ..) rfl ?_
          exact k19
        clear_value x20
        refine Keeps.step (event_keeps ..) rfl ?_
        refine Keeps.step (cairnAt_keeps ..) rfl ?_
        exact k21

end Sys2Proof.Machine
end

