-- ==== Sys2Proof/Laws/KeepsPlanParse.lean ====
section
/-! SUPPORT. What each operation of Machine/PlanParse.lean can touch, that it goes onward and that it keeps the invariant. -/

namespace Sys2Proof.Machine

theorem allocBars_keeps (tid) (plan) (engs) (a) (s : State) : KeepsP 34816 s (allocBars tid plan engs a s) := by
  induction a generalizing tid plan engs s
  · unfold allocBars
    refine KeepsP.mk ?_
    exact Keeps.refl
  · rename_i v1 v2 v3
    unfold allocBars
    dsimp -zeta only
    split
    · rename_i v4 v5
      refine KeepsP.mk ?_
      exact Keeps.refl
    · rename_i v6 v7 v8
      extract_lets +onlyGivenNames x9
      clear_value x9
      extract_lets +onlyGivenNames x10
      refine Keeps.cut (p := Keeps 34816 s x10) ?_ (fun k11 => ?_)
      · dsimp -zeta only [x10]
        refine Keeps.step (useIndex_keeps ..) rfl ?_
        refine Keeps.step (setFe_keeps ..) rfl ?_
        exact Keeps.refl
      clear_value x10
      refine KeepsP.mk ?_
      refine KeepsP.fst ?_
      refine KeepsP.step (v3 _ _ _ _) (Nat.or_self _) ?_
      exact k11

theorem enterPlan_keeps (idx) (tid) (node) (digest) (p) (engs) (s : State) : Keeps 17336320 s (enterPlan idx tid node digest p engs s) := by
  unfold enterPlan
  extract_lets +onlyGivenNames x1
  clear_value x1
  split
  rename_i v2 v3 v4 v5
  refine Keeps.cut (p := Keeps 17336320 s v3) (KeepsP.ofEq ?_ v5) (fun k6 => ?_)
  · clear v5
    refine KeepsP.step (allocBars_keeps ..) rfl ?_
    exact Keeps.refl
  clear v5
  extract_lets +onlyGivenNames x7
  clear_value x7
  extract_lets +onlyGivenNames x8
  clear_value x8
  extract_lets +onlyGivenNames x9
  refine Keeps.cut (p := Keeps 17336320 s x9) ?_ (fun k10 => ?_)
  · dsimp -zeta only [x9]
    refine Keeps.step (setFe_keeps ..) rfl ?_
    exact k6
  clear_value x9
  extract_lets +onlyGivenNames x11
  refine Keeps.cut (p := Keeps 17336320 s x11) ?_ (fun k12 => ?_)
  · dsimp -zeta only [x11]
    refine Keeps.step (setRte_keeps ..) rfl ?_
    exact k10
  clear_value x11
  extract_lets +onlyGivenNames x13
  refine Keeps.cut (p := Keeps 17336320 s x13) ?_ (fun k14 => ?_)
  · dsimp -zeta only [x13]
    refine Keeps.foldl (fun x15 a16 => ?_) ?_
    · refine Keeps.step (modEng_keeps ..) rfl ?_
      exact Keeps.refl
    · exact k12
  clear_value x13
  refine Keeps.step (noteHistory_keeps ..) rfl ?_
  refine Keeps.step (useIndex_keeps ..) rfl ?_
  exact k14

end Sys2Proof.Machine
end

