-- ==== Sys2Proof/Laws/KeepsPlans.lean ====
section
/-! SUPPORT. What each operation of Machine/Plans.lean can touch, that it goes onward and that it keeps the invariant. -/

namespace Sys2Proof.Machine

theorem planCheck_keeps (pick) (w) (d) (s : State) : Keeps 3279722560 s (planCheck pick w d s) := by
  unfold planCheck
  extract_lets +onlyGivenNames x1
  clear_value x1
  extract_lets +onlyGivenNames x2
  clear_value x2
  extract_lets +onlyGivenNames x3
  clear_value x3
  refine Keeps.ite ?_ ?_
  · refine Keeps.step (reply12_keeps ..) rfl ?_
    exact Keeps.refl
  · extract_lets +onlyGivenNames x4
    clear_value x4
    extract_lets +onlyGivenNames x5
    clear_value x5
    split
    · rename_i v6 v7 v8 v9
      refine Keeps.step (reply12_keeps ..) rfl ?_
      exact Keeps.refl
    · rename_i v10 v11
      extract_lets +onlyGivenNames x12
      clear_value x12
      refine Keeps.ite ?_ ?_
      · refine Keeps.step (reply12_keeps ..) rfl ?_
        exact Keeps.refl
      · split
        · rename_i v13 v14
          refine Keeps.step (reply12_keeps ..) rfl ?_
          exact Keeps.refl
        · rename_i v15 v16 v17
          extract_lets +onlyGivenNames x18
          refine Keeps.cut (p := Keeps 3279722560 s x18) ?_ (fun k19 => ?_)
          · dsimp -zeta only [x18]
            refine Keeps.step (enterPlan_keeps ..) rfl ?_
            exact Keeps.refl
          clear_value x18
          refine Keeps.step (reply_keeps ..) rfl ?_
          exact k19

theorem planLoad_keeps (pick) (w) (s : State) : Keeps 29058136161 s (planLoad pick w s) := by
  unfold planLoad
  extract_lets +onlyGivenNames x1
  clear_value x1
  extract_lets +onlyGivenNames x2
  clear_value x2
  split
  · rename_i v3 v4 v5 v6
    refine Keeps.cut (p := Keeps 29058136161 s v4) (KeepsF.ofEq ?_ v6) (fun k7 => ?_)
    · clear v6
      refine KeepsF.step (fetchRange_keeps ..) rfl ?_
      exact Keeps.refl
    clear v6
    refine Keeps.step (replySt_keeps ..) rfl ?_
    exact k7
  · rename_i v8 v9 v10
    refine Keeps.cut (p := Keeps 29058136161 s v9) (KeepsF.ofEq ?_ v10) (fun k11 => ?_)
    · clear v10
      refine KeepsF.step (fetchRange_keeps ..) rfl ?_
      exact Keeps.refl
    clear v10
    exact k11
  · rename_i v12 v13 v14 v15
    refine Keeps.cut (p := Keeps 29058136161 s v13) (KeepsF.ofEq ?_ v15) (fun k16 => ?_)
    · clear v15
      refine KeepsF.step (fetchRange_keeps ..) rfl ?_
      exact Keeps.refl
    clear v15
    extract_lets +onlyGivenNames x17
    clear_value x17
    refine Keeps.ite ?_ ?_
    · refine Keeps.step (replySt_keeps ..) rfl ?_
      exact k16
    · refine Keeps.ite ?_ ?_
      · refine Keeps.step (reply12_keeps ..) rfl ?_
        exact k16
      · split
        · rename_i v18 v19 v20 v21
          refine Keeps.cut (p := Keeps 29058136161 s v19) (KeepsF.ofEq ?_ v21) (fun k22 => ?_)
          · clear v21
            refine KeepsF.step (fetchRange_keeps ..) rfl ?_
            exact k16
          clear v21
          refine Keeps.step (replySt_keeps ..) rfl ?_
          exact k22
        · rename_i v23 v24 v25
          refine Keeps.cut (p := Keeps 29058136161 s v24) (KeepsF.ofEq ?_ v25) (fun k26 => ?_)
          · clear v25
            refine KeepsF.step (fetchRange_keeps ..) rfl ?_
            exact k16
          clear v25
          exact k26
        · rename_i v27 v28 v29 v30
          refine Keeps.cut (p := Keeps 29058136161 s v28) (KeepsF.ofEq ?_ v30) (fun k31 => ?_)
          · clear v30
            refine KeepsF.step (fetchRange_keeps ..) rfl ?_
            exact k16
          clear v30
          refine Keeps.step (planCheck_keeps ..) rfl ?_
          exact k31

theorem execPlanLoad_keeps (r) (e) (s : State) : KeepsX 29997661281 s (execPlanLoad r e s) := by
  unfold execPlanLoad
  refine KeepsX.next ?_
  refine Keeps.trans ?_ (runVerb_keeps (M := 29997661281) rfl (fun y1 y2 => ?_))
  · exact Keeps.refl
  · refine Keeps.step (planLoad_keeps ..) rfl ?_
    exact Keeps.refl

theorem planUnload_keeps (w) (s : State) : Keeps 3279722560 s (planUnload w s) := by
  unfold planUnload
  split
  · rename_i v1 v2
    refine Keeps.step (replySt_keeps ..) rfl ?_
    exact Keeps.refl
  · rename_i v3 v4 v5
    refine Keeps.ite ?_ ?_
    · refine Keeps.step (replySt_keeps ..) rfl ?_
      exact Keeps.refl
    · refine Keeps.step (replySt_keeps ..) rfl ?_
      refine Keeps.step (unloadPlan_keeps ..) rfl ?_
      exact Keeps.refl

theorem execPlanUnload_keeps (r) (e) (s : State) : KeepsX 4219247680 s (execPlanUnload r e s) := by
  unfold execPlanUnload
  refine KeepsX.next ?_
  refine Keeps.trans ?_ (runVerb_keeps (M := 4219247680) rfl (fun y1 y2 => ?_))
  · exact Keeps.refl
  · refine Keeps.step (planUnload_keeps ..) rfl ?_
    exact Keeps.refl

theorem startRun_keeps (w) (p) (args) (s : State) : Keeps 3263139904 s (startRun w p args s) := by
  unfold startRun
  extract_lets +onlyGivenNames x1
  refine Keeps.cut (p := Keeps 3263139904 s x1) ?_ (fun k2 => ?_)
  · dsimp -zeta only [x1]
    refine Keeps.step (modPlan_keeps ..) rfl ?_
    exact Keeps.refl
  clear_value x1
  extract_lets +onlyGivenNames x3
  refine Keeps.cut (p := Keeps 3263139904 s x3) ?_ (fun k4 => ?_)
  · dsimp -zeta only [x3]
    refine Keeps.foldl (fun x5 a6 => ?_) ?_
    · refine Keeps.step (modEng_keeps ..) rfl ?_
      refine Keeps.step (clearFlags_keeps ..) rfl ?_
      exact Keeps.refl
    · exact k2
  clear_value x3
  extract_lets +onlyGivenNames x7
  refine Keeps.cut (p := Keeps 3263139904 s x7) ?_ (fun k8 => ?_)
  · dsimp -zeta only [x7]
    refine Keeps.foldl (fun x9 a10 => ?_) ?_
    · refine Keeps.step (wakeSlot_keeps ..) rfl ?_
      exact Keeps.refl
    · exact k4
  clear_value x7
  extract_lets +onlyGivenNames x11
  refine Keeps.cut (p := Keeps 3263139904 s x11) ?_ (fun k12 => ?_)
  · dsimp -zeta only [x11]
    refine Keeps.foldl (fun x13 a14 => ?_) ?_
    · refine Keeps.ite ?_ ?_
      · refine Keeps.step (modKv_keeps ..) rfl ?_
        exact Keeps.refl
      · exact Keeps.refl
    · exact k8
  clear_value x11
  refine Keeps.step (waitFor_keeps ..) rfl ?_
  exact k12

theorem planRun_keeps (w) (s : State) : Keeps 3263139904 s (planRun w s) := by
  unfold planRun
  split
  · rename_i v1 v2
    refine Keeps.step (replySt_keeps ..) rfl ?_
    exact Keeps.refl
  · rename_i v3 v4 v5
    refine Keeps.ite ?_ ?_
    · refine Keeps.step (replySt_keeps ..) rfl ?_
      exact Keeps.refl
    · refine Keeps.ite ?_ ?_
      · refine Keeps.step (replySt_keeps ..) rfl ?_
        exact Keeps.refl
      · extract_lets +onlyGivenNames x6
        clear_value x6
        split
        · rename_i v7 v8 v9
          refine Keeps.step (reply12_keeps ..) rfl ?_
          exact Keeps.refl
        · rename_i v10 v11
          refine Keeps.ite ?_ ?_
          · refine Keeps.step (againLater_keeps ..) rfl ?_
            exact Keeps.refl
          · refine Keeps.step (startRun_keeps ..) rfl ?_
            exact Keeps.refl

theorem execPlanRun_keeps (r) (e) (s : State) : KeepsX 4202667072 s (execPlanRun r e s) := by
  unfold execPlanRun
  refine KeepsX.next ?_
  refine Keeps.trans ?_ (runVerb_keeps (M := 4202667072) rfl (fun y1 y2 => ?_))
  · exact Keeps.refl
  · refine Keeps.step (planRun_keeps ..) rfl ?_
    exact Keeps.refl

theorem planRunEnd_keeps (i) (s : State) : Keeps 3263008832 s (planRunEnd i s) := by
  unfold planRunEnd
  split
  · rename_i v1 v2
    exact Keeps.refl
  · rename_i v3 v4 v5
    split
    · rename_i v6 v7
      exact Keeps.refl
    · rename_i v8 v9 v10
      refine Keeps.ite ?_ ?_
      · exact Keeps.refl
      · extract_lets +onlyGivenNames x11
        refine Keeps.cut (p := Keeps 3263008832 s x11) ?_ (fun k12 => ?_)
        · dsimp -zeta only [x11]
          refine Keeps.foldl (fun x13 a14 => ?_) ?_
          · refine Keeps.step (modEng_keeps ..) rfl ?_
            exact Keeps.refl
          · refine Keeps.step (modPlan_keeps ..) rfl ?_
            exact Keeps.refl
        clear_value x11
        refine Keeps.foldl (fun x15 a16 => ?_) ?_
        · refine Keeps.step (complete_keeps ..) rfl ?_
          exact Keeps.refl
        · exact k12

theorem execPlanRunEnd_keeps (plan) (e) (s : State) : KeepsX 4202532928 s (execPlanRunEnd plan e s) := by
  unfold execPlanRunEnd
  refine KeepsX.next ?_
  refine Keeps.step (planRunEnd_keeps ..) rfl ?_
  refine Keeps.step (applyEnv_keeps ..) rfl ?_
  exact Keeps.refl

theorem barrierDefine_keeps (pick) (w) (s : State) : Keeps 3262945344 s (barrierDefine pick w s) := by
  unfold barrierDefine
  extract_lets +onlyGivenNames x1
  clear_value x1
  extract_lets +onlyGivenNames x2
  clear_value x2
  extract_lets +onlyGivenNames x3
  clear_value x3
  extract_lets +onlyGivenNames x4
  clear_value x4
  extract_lets +onlyGivenNames x5
  clear_value x5
  refine Keeps.ite ?_ ?_
  · refine Keeps.ite ?_ ?_
    · refine Keeps.step (replySt_keeps ..) rfl ?_
      exact Keeps.refl
    · split
      · rename_i v6 v7
        refine Keeps.step (replySt_keeps ..) rfl ?_
        exact Keeps.refl
      · rename_i v8 v9 v10
        extract_lets +onlyGivenNames x11
        clear_value x11
        refine Keeps.step (reply_keeps ..) rfl ?_
        refine Keeps.step (useIndex_keeps ..) rfl ?_
        refine Keeps.step (setFe_keeps ..) rfl ?_
        exact Keeps.refl
  · split
    · rename_i v12 v13
      refine Keeps.step (replySt_keeps ..) rfl ?_
      exact Keeps.refl
    · rename_i v14 v15 v16
      refine Keeps.ite ?_ ?_
      · refine Keeps.step (replySt_keeps ..) rfl ?_
        exact Keeps.refl
      · refine Keeps.ite ?_ ?_
        · refine Keeps.step (replySt_keeps ..) rfl ?_
          exact Keeps.refl
        · refine Keeps.step (reply_keeps ..) rfl ?_
          refine Keeps.step (modBar_keeps ..) rfl ?_
          exact Keeps.refl

theorem execBarrierDefine_keeps (r) (e) (s : State) : KeepsX 4202470464 s (execBarrierDefine r e s) := by
  unfold execBarrierDefine
  refine KeepsX.next ?_
  refine Keeps.trans ?_ (runVerb_keeps (M := 4202470464) rfl (fun y1 y2 => ?_))
  · exact Keeps.refl
  · refine Keeps.step (barrierDefine_keeps ..) rfl ?_
    exact Keeps.refl

theorem barrierFree_keeps (w) (s : State) : Keeps 3262945344 s (barrierFree w s) := by
  unfold barrierFree
  split
  · rename_i v1 v2
    refine Keeps.step (replySt_keeps ..) rfl ?_
    exact Keeps.refl
  · rename_i v3 v4 v5
    refine Keeps.ite ?_ ?_
    · refine Keeps.step (replySt_keeps ..) rfl ?_
      exact Keeps.refl
    · refine Keeps.step (replySt_keeps ..) rfl ?_
      refine Keeps.step (freeIndex_keeps ..) rfl ?_
      refine Keeps.step (setFe_keeps ..) rfl ?_
      exact Keeps.refl

theorem execBarrierFree_keeps (r) (e) (s : State) : KeepsX 4202470464 s (execBarrierFree r e s) := by
  unfold execBarrierFree
  refine KeepsX.next ?_
  refine Keeps.trans ?_ (runVerb_keeps (M := 4202470464) rfl (fun y1 y2 => ?_))
  · exact Keeps.refl
  · refine Keeps.step (barrierFree_keeps ..) rfl ?_
    exact Keeps.refl

theorem syncArrive_keeps (w) (s : State) : Keeps 3263008832 s (syncArrive w s) := by
  unfold syncArrive
  extract_lets +onlyGivenNames x1
  clear_value x1
  split
  · rename_i v2 v3
    refine Keeps.step (replySt_keeps ..) rfl ?_
    exact Keeps.refl
  · rename_i v4 v5 v6 v7 v8
    refine Keeps.ite ?_ ?_
    · refine Keeps.step (replySt_keeps ..) rfl ?_
      exact Keeps.refl
    · refine Keeps.step (replySt_keeps ..) rfl ?_
      refine Keeps.step (noteBreak_keeps ..) rfl ?_
      refine Keeps.step (addSlot_keeps ..) rfl ?_
      refine Keeps.step (noteBreak_keeps ..) rfl ?_
      exact Keeps.refl
  · rename_i v9 v10 v11
    refine Keeps.step (replySt_keeps ..) rfl ?_
    refine Keeps.step (barArrived_keeps ..) rfl ?_
    refine Keeps.step (modBar_keeps ..) rfl ?_
    exact Keeps.refl

theorem execSyncArrive_keeps (r) (e) (s : State) : KeepsX 4202536000 s (execSyncArrive r e s) := by
  unfold execSyncArrive
  refine KeepsX.next ?_
  refine Keeps.trans ?_ (runVerb_keeps (M := 4202536000) rfl (fun y1 y2 => ?_))
  · exact Keeps.refl
  · refine Keeps.step (syncArrive_keeps ..) rfl ?_
    exact Keeps.refl

theorem syncWait_keeps (w) (s : State) : Keeps 3262910528 s (syncWait w s) := by
  unfold syncWait
  extract_lets +onlyGivenNames x1
  clear_value x1
  extract_lets +onlyGivenNames x2
  clear_value x2
  extract_lets +onlyGivenNames x3
  clear_value x3
  split
  · rename_i v4 v5
    refine Keeps.step (replySt_keeps ..) rfl ?_
    exact Keeps.refl
  · rename_i v6 v7 v8 v9 v10
    extract_lets +onlyGivenNames x11
    clear_value x11
    refine Keeps.ite ?_ ?_
    · refine Keeps.step (reply_keeps ..) rfl ?_
      exact Keeps.refl
    · refine Keeps.step (waitFor_keeps ..) rfl ?_
      exact Keeps.refl
  · rename_i v12 v13 v14
    refine Keeps.step (waitFor_keeps ..) rfl ?_
    exact Keeps.refl

theorem execSyncWait_keeps (r) (e) (s : State) : KeepsX 4202437696 s (execSyncWait r e s) := by
  unfold execSyncWait
  refine KeepsX.next ?_
  refine Keeps.trans ?_ (runVerb_keeps (M := 4202437696) rfl (fun y1 y2 => ?_))
  · exact Keeps.refl
  · refine Keeps.step (syncWait_keeps ..) rfl ?_
    exact Keeps.refl

theorem execSyncWaitTimeout_keeps (src) (tag) (e) (s : State) : KeepsX 4202500160 s (execSyncWaitTimeout src tag e s) := by
  unfold execSyncWaitTimeout
  extract_lets +onlyGivenNames x1
  refine Keeps.cut (p := Keeps 4202500160 s x1) ?_ (fun k2 => ?_)
  · dsimp -zeta only [x1]
    refine Keeps.step (applyEnv_keeps ..) rfl ?_
    exact Keeps.refl
  clear_value x1
  refine KeepsX.next ?_
  split
  · rename_i v3 v4 v5
    refine Keeps.step (completeSt_keeps ..) rfl ?_
    exact k2
  · rename_i v6 v7
    exact k2

theorem writeGraph_keeps (p) (r) (s : State) : Keeps 29578229857 s (writeGraph p r s) := by
  unfold writeGraph
  split
  · rename_i v1 v2
    exact Keeps.refl
  · rename_i v3 v4 v5
    refine Keeps.ite ?_ ?_
    · split
      · rename_i v6 v7 v8
        refine KeepsP.fst ?_
        refine KeepsP.step (writeAt_keeps ..) rfl ?_
        exact Keeps.refl
      · rename_i v9 v10
        exact Keeps.refl
    · exact Keeps.refl

theorem deadlockDetect_keeps (i) (s : State) : Keeps 29578229857 s (deadlockDetect i s) := by
  unfold deadlockDetect
  split
  · rename_i v1 v2
    exact Keeps.refl
  · rename_i v3 v4 v5
    split
    · rename_i v6 v7
      exact Keeps.refl
    · rename_i v8 v9 v10
      refine Keeps.ite ?_ ?_
      · extract_lets +onlyGivenNames x11
        clear_value x11
        extract_lets +onlyGivenNames x12
        refine Keeps.cut (p := Keeps 29578229857 s x12) ?_ (fun k13 => ?_)
        · dsimp -zeta only [x12]
          refine Keeps.step (writeGraph_keeps ..) rfl ?_
          exact Keeps.refl
        clear_value x12
        extract_lets +onlyGivenNames x14
        refine Keeps.cut (p := Keeps 29578229857 s x14) ?_ (fun k15 => ?_)
        · dsimp -zeta only [x14]
          refine Keeps.step (setFe_keeps ..) rfl ?_
          exact k13
        clear_value x14
        refine Keeps.step (abortRun_keeps ..) rfl ?_
        refine Keeps.step (cairnAt_keeps ..) rfl ?_
        exact k15
      · exact Keeps.refl

theorem execDeadlockDetect_keeps (plan) (e) (s : State) : KeepsX 29980883041 s (execDeadlockDetect plan e s) := by
  unfold execDeadlockDetect
  refine KeepsX.next ?_
  refine Keeps.step (deadlockDetect_keeps ..) rfl ?_
  refine Keeps.step (applyEnv_keeps ..) rfl ?_
  exact Keeps.refl

theorem parkRetry_keeps (k) (s : State) : Keeps 32768 s (parkRetry k s) := by
  unfold parkRetry
  extract_lets +onlyGivenNames x1
  clear_value x1
  extract_lets +onlyGivenNames x2
  refine Keeps.cut (p := Keeps 32768 s x2) ?_ (fun k3 => ?_)
  · dsimp -zeta only [x2]
    refine Keeps.step (setFe_keeps ..) rfl ?_
    exact Keeps.refl
  clear_value x2
  refine Keeps.foldl (fun x4 a5 => ?_) ?_
  · extract_lets +onlyGivenNames x6
    clear_value x6
    refine Keeps.step (noteBreak_keeps ..) rfl ?_
    refine Keeps.step (modEng_keeps ..) rfl ?_
    exact Keeps.refl
  · exact k3

theorem parkAbort_keeps (k) (s : State) : Keeps 3263008832 s (parkAbort k s) := by
  unfold parkAbort
  extract_lets +onlyGivenNames x1
  clear_value x1
  extract_lets +onlyGivenNames x2
  refine Keeps.cut (p := Keeps 3263008832 s x2) ?_ (fun k3 => ?_)
  · dsimp -zeta only [x2]
    refine Keeps.step (setFe_keeps ..) rfl ?_
    exact Keeps.refl
  clear_value x2
  refine Keeps.foldl (fun x4 a5 => ?_) ?_
  · refine Keeps.step (abortRun_keeps ..) rfl ?_
    exact Keeps.refl
  · exact k3

theorem parkAct_keeps {q : Requester} {r : Nat} {f : Park → State → State} {s : State} {M : Nat} (hm : 0 ||| M = M)
    (h : ∀ a s, Keeps M s (f a s)) : Keeps M s (parkAct q r f s) := by
  have _ := hm
  unfold parkAct
  split
  · exact Keeps.refl
  · split
    · split
      · exact h _ s
      · exact Keeps.refl
    · exact Keeps.refl

theorem byRequester_keeps {q : Requester} {t : Nat} {f : State → State} {s : State} {M : Nat} (hm : 34292629503 ||| M = M)
    (h : ∀ s, Keeps M s (f s)) : Keeps M s (byRequester q t f s) := by
  unfold byRequester
  split
  · exact withWrite_keeps (mask_trans rfl hm) (fun s => (h s).trans ((mgmtReply_keeps _ _ _ _).mono (mask_trans rfl hm)))
  · split
    · exact ((atTime_keeps t s).mono (mask_trans rfl hm)).trans (h _)
    · exact Keeps.refl

theorem execFeParkActRetry_keeps (q) (rec') (e) (s : State) : KeepsX 34292629503 s (execFeParkActRetry q rec' e s) := by
  unfold execFeParkActRetry
  refine KeepsX.next ?_
  refine Keeps.trans ?_ (byRequester_keeps (M := 34292629503) rfl (fun y1 => ?_))
  · refine Keeps.step (applyEnv_keeps ..) rfl ?_
    exact Keeps.refl
  · refine Keeps.trans ?_ (parkAct_keeps (M := 34292629503) rfl (fun y2 y3 => ?_))
    · exact Keeps.refl
    · refine Keeps.step (parkRetry_keeps ..) rfl ?_
      exact Keeps.refl

theorem execFeParkActAbort_keeps (q) (rec') (e) (s : State) : KeepsX 34292629503 s (execFeParkActAbort q rec' e s) := by
  unfold execFeParkActAbort
  refine KeepsX.next ?_
  refine Keeps.trans ?_ (byRequester_keeps (M := 34292629503) rfl (fun y1 => ?_))
  · refine Keeps.step (applyEnv_keeps ..) rfl ?_
    exact Keeps.refl
  · refine Keeps.trans ?_ (parkAct_keeps (M := 34292629503) rfl (fun y2 y3 => ?_))
    · exact Keeps.refl
    · refine Keeps.step (parkAbort_keeps ..) rfl ?_
      exact Keeps.refl

theorem execEngineHang_keeps (eng) (e) (s : State) : KeepsX 21382418496 s (execEngineHang eng e s) := by
  unfold execEngineHang
  extract_lets +onlyGivenNames x1
  refine Keeps.cut (p := Keeps 21382418496 s x1) ?_ (fun k2 => ?_)
  · dsimp -zeta only [x1]
    refine Keeps.step (applyEnv_keeps ..) rfl ?_
    exact Keeps.refl
  clear_value x1
  refine KeepsX.next ?_
  refine Keeps.ite ?_ ?_
  · refine Keeps.step (quarantine_keeps ..) rfl ?_
    exact k2
  · exact k2

theorem engineSelftest_keeps (k) (pos) (pass) (s : State) : Keeps 20442894400 s (engineSelftest k pos pass s) := by
  unfold engineSelftest
  refine Keeps.ite ?_ ?_
  · exact Keeps.refl
  · split
    · rename_i v1 v2 v3
      extract_lets +onlyGivenNames x4
      clear_value x4
      extract_lets +onlyGivenNames x5
      clear_value x5
      refine Keeps.ite ?_ ?_
      · exact Keeps.refl
      · extract_lets +onlyGivenNames x6
        refine Keeps.cut (p := Keeps 20442894400 s x6) ?_ (fun k7 => ?_)
        · dsimp -zeta only [x6]
          refine Keeps.step (modEng_keeps ..) rfl ?_
          exact Keeps.refl
        clear_value x6
        refine Keeps.ite ?_ ?_
        · exact k7
        · refine Keeps.step (quarantine_keeps ..) rfl ?_
          exact k7
    · rename_i v8 v9
      refine Keeps.ite ?_ ?_
      · exact Keeps.refl
      · refine Keeps.ite ?_ ?_
        · refine Keeps.step (setSpare_keeps ..) rfl ?_
          refine Keeps.step (setFe_keeps ..) rfl ?_
          exact Keeps.refl
        · exact Keeps.refl

theorem execEngineSelftest_keeps (stk) (pos) (pass) (e) (s : State) : KeepsX 21382418496 s (execEngineSelftest stk pos pass e s) := by
  unfold execEngineSelftest
  refine KeepsX.next ?_
  refine Keeps.step (engineSelftest_keeps ..) rfl ?_
  refine Keeps.step (applyEnv_keeps ..) rfl ?_
  exact Keeps.refl

theorem execSpareRemapDone_keeps (eng) (e) (s : State) : KeepsX 943751168 s (execSpareRemapDone eng e s) := by
  unfold execSpareRemapDone
  extract_lets +onlyGivenNames x1
  refine Keeps.cut (p := Keeps 943751168 s x1) ?_ (fun k2 => ?_)
  · dsimp -zeta only [x1]
    refine Keeps.step (applyEnv_keeps ..) rfl ?_
    exact Keeps.refl
  clear_value x1
  refine KeepsX.next ?_
  refine Keeps.ite ?_ ?_
  · refine Keeps.step (modEng_keeps ..) rfl ?_
    exact k2
  · exact k2

theorem writeBankOwn_keeps (n) (v) (s : State) : Keeps 1081344 s (writeBankOwn n v s) := by
  unfold writeBankOwn
  extract_lets +onlyGivenNames x1
  clear_value x1
  extract_lets +onlyGivenNames x2
  clear_value x2
  extract_lets +onlyGivenNames x3
  refine Keeps.cut (p := Keeps 1081344 s x3) ?_ (fun k4 => ?_)
  · dsimp -zeta only [x3]
    refine Keeps.step (noteBreak_keeps ..) rfl ?_
    exact Keeps.refl
  clear_value x3
  extract_lets +onlyGivenNames x5
  refine Keeps.cut (p := Keeps 1081344 s x5) ?_ (fun k6 => ?_)
  · dsimp -zeta only [x5]
    refine Keeps.step (modEng_keeps ..) rfl ?_
    exact k4
  clear_value x5
  extract_lets +onlyGivenNames x7
  refine Keeps.cut (p := Keeps 1081344 s x7) ?_ (fun k8 => ?_)
  · dsimp -zeta only [x7]
    refine Keeps.ite ?_ ?_
    · refine Keeps.step (setFe_keeps ..) rfl ?_
      exact k6
    · exact k6
  clear_value x7
  refine Keeps.step (noteBreak_keeps ..) rfl ?_
  refine Keeps.step (landEngine_keeps ..) rfl ?_
  exact k8

theorem bankOwnWrite_keeps (q) (n) (v) (s : State) : Keeps 1081344 s (bankOwnWrite q n v s) := by
  unfold bankOwnWrite
  extract_lets +onlyGivenNames x1
  clear_value x1
  refine Keeps.ite ?_ ?_
  · refine Keeps.step (writeBankOwn_keeps ..) rfl ?_
    exact Keeps.refl
  · exact Keeps.refl

theorem execFeBankOwnWrite_keeps (q) (eng) (v) (e) (s : State) : KeepsX 34292629503 s (execFeBankOwnWrite q eng v e s) := by
  unfold execFeBankOwnWrite
  refine KeepsX.next ?_
  refine Keeps.trans ?_ (byRequester_keeps (M := 34292629503) rfl (fun y1 => ?_))
  · refine Keeps.step (applyEnv_keeps ..) rfl ?_
    exact Keeps.refl
  · refine Keeps.step (bankOwnWrite_keeps ..) rfl ?_
    exact Keeps.refl

theorem abftClr_keeps (q) (s : State) : Keeps 32768 s (abftClr q s) := by
  unfold abftClr
  split
  · rename_i v1 v2
    refine Keeps.ite ?_ ?_
    · refine Keeps.step (setFe_keeps ..) rfl ?_
      exact Keeps.refl
    · exact Keeps.refl
  · rename_i v3 v4
    exact Keeps.refl

theorem execFeAbftClr_keeps (q) (e) (s : State) : KeepsX 34292629503 s (execFeAbftClr q e s) := by
  unfold execFeAbftClr
  refine KeepsX.next ?_
  refine Keeps.trans ?_ (byRequester_keeps (M := 34292629503) rfl (fun y1 => ?_))
  · refine Keeps.step (applyEnv_keeps ..) rfl ?_
    exact Keeps.refl
  · refine Keeps.step (abftClr_keeps ..) rfl ?_
    exact Keeps.refl

end Sys2Proof.Machine
end

