-- ==== Sys2Proof/Laws/KeepsLinkOps.lean ====
section
/-! SUPPORT. What each operation of Machine/LinkOps.lean can touch, that it goes onward and that it keeps the invariant. -/

namespace Sys2Proof.Machine

theorem linkRec_keeps (k) (reason) (node) (port) (s : State) : Keeps 2147483712 s (linkRec k reason node port s) := by
  unfold linkRec
  refine Keeps.step (cairnAt_keeps ..) rfl ?_
  exact Keeps.refl

theorem linkFlag_keeps (k) (i) (s : State) : Keeps 262144 s (linkFlag k i s) := by
  unfold linkFlag
  refine Keeps.step (modPort_keeps ..) rfl ?_
  exact Keeps.refl

theorem resprayOne_keeps (s : State) (e) : Keeps 3222011904 s (resprayOne s e) := by
  unfold resprayOne
  split
  · rename_i v1 v2
    exact Keeps.refl
  · rename_i v3 v4 v5
    extract_lets +onlyGivenNames x6
    clear_value x6
    extract_lets +onlyGivenNames x7
    clear_value x7
    extract_lets +onlyGivenNames x8
    clear_value x8
    split
    · rename_i v9 v10 v11 v12
      refine Keeps.cut (p := Keeps 3222011904 s v10) (KeepsP.ofEq ?_ v12) (fun k13 => ?_)
      · clear v12
        refine KeepsP.step (choosePort_keeps ..) rfl ?_
        exact Keeps.refl
      clear v12
      refine Keeps.step (enqueue_keeps ..) rfl ?_
      exact k13
    · rename_i v14 v15 v16
      refine Keeps.cut (p := Keeps 3222011904 s v15) (KeepsP.ofEq ?_ v16) (fun k17 => ?_)
      · clear v16
        refine KeepsP.step (choosePort_keeps ..) rfl ?_
        exact Keeps.refl
      clear v16
      refine Keeps.ite ?_ ?_
      · refine Keeps.step (setRte_keeps ..) rfl ?_
        exact k17
      · exact k17

theorem resprayShaped_keeps (tid) (s : State) (q) : Keeps 3224109056 s (resprayShaped tid s q) := by
  unfold resprayShaped
  split
  · rename_i v1 v2 v3 v4
    refine Keeps.cut (p := Keeps 3224109056 s v2) (KeepsP.ofEq ?_ v4) (fun k5 => ?_)
    · clear v4
      refine KeepsP.step (choosePort_keeps ..) rfl ?_
      exact Keeps.refl
    clear v4
    refine Keeps.step (toPort_keeps ..) rfl ?_
    exact k5
  · rename_i v6 v7 v8
    refine Keeps.cut (p := Keeps 3224109056 s v7) (KeepsP.ofEq ?_ v8) (fun k9 => ?_)
    · clear v8
      refine KeepsP.step (choosePort_keeps ..) rfl ?_
      exact Keeps.refl
    clear v8
    exact k9

theorem unlive_keeps (k) (s : State) : Keeps 2883592 s (unlive k s) := by
  unfold unlive
  extract_lets +onlyGivenNames x1
  clear_value x1
  extract_lets +onlyGivenNames x2
  refine Keeps.cut (p := Keeps 2883592 s x2) ?_ (fun k3 => ?_)
  · dsimp -zeta only [x2]
    refine Keeps.step (setRte_keeps ..) rfl ?_
    exact Keeps.refl
  clear_value x2
  extract_lets +onlyGivenNames x4
  refine Keeps.cut (p := Keeps 2883592 s x4) ?_ (fun k5 => ?_)
  · dsimp -zeta only [x4]
    refine Keeps.step (setBoot_keeps ..) rfl ?_
    exact k3
  clear_value x4
  extract_lets +onlyGivenNames x6
  refine Keeps.cut (p := Keeps 2883592 s x6) ?_ (fun k7 => ?_)
  · dsimp -zeta only [x6]
    refine Keeps.step (modPort_keeps ..) rfl ?_
    exact k5
  clear_value x6
  refine Keeps.foldl (fun x8 a9 => ?_) ?_
  · refine Keeps.step (putBucket_keeps ..) rfl ?_
    exact Keeps.refl
  · exact k7

theorem prunePort_keeps (k) (s : State) : Keeps 3224109064 s (prunePort k s) := by
  unfold prunePort
  extract_lets +onlyGivenNames x1
  clear_value x1
  extract_lets +onlyGivenNames x2
  clear_value x2
  refine Keeps.foldl (fun x3 a4 => ?_) ?_
  · refine Keeps.foldl (fun x5 a6 => ?_) ?_
    · refine Keeps.step (resprayShaped_keeps ..) rfl ?_
      exact Keeps.refl
    · exact Keeps.refl
  · refine Keeps.foldl (fun x7 a8 => ?_) ?_
    · refine Keeps.step (resprayOne_keeps ..) rfl ?_
      exact Keeps.refl
    · refine Keeps.step (unlive_keeps ..) rfl ?_
      exact Keeps.refl

theorem settleIngress_keeps (k) (s : State) : Keeps 262144 s (settleIngress k s) := by
  unfold settleIngress
  refine Keeps.step (setLnk_keeps ..) rfl ?_
  exact Keeps.refl

theorem countFlap_keeps (k) (reason) (s : State) : Keeps 2147745856 s (countFlap k reason s) := by
  unfold countFlap
  extract_lets +onlyGivenNames x1
  clear_value x1
  extract_lets +onlyGivenNames x2
  clear_value x2
  extract_lets +onlyGivenNames x3
  refine Keeps.cut (p := Keeps 2147745856 s x3) ?_ (fun k4 => ?_)
  · dsimp -zeta only [x3]
    refine Keeps.step (modPort_keeps ..) rfl ?_
    exact Keeps.refl
  clear_value x3
  extract_lets +onlyGivenNames x5
  refine Keeps.cut (p := Keeps 2147745856 s x5) ?_ (fun k6 => ?_)
  · dsimp -zeta only [x5]
    refine Keeps.ite ?_ ?_
    · refine Keeps.step (linkRec_keeps ..) rfl ?_
      exact k4
    · exact k4
  clear_value x5
  refine Keeps.ite ?_ ?_
  · extract_lets +onlyGivenNames x7
    clear_value x7
    refine Keeps.step (linkFlag_keeps ..) rfl ?_
    refine Keeps.step (linkRec_keeps ..) rfl ?_
    refine Keeps.step (modPort_keeps ..) rfl ?_
    exact k6
  · exact k6

theorem exitPort_keeps (k) (reason) (st) (s : State) : Keeps 3224109128 s (exitPort k reason st s) := by
  unfold exitPort
  extract_lets +onlyGivenNames x1
  clear_value x1
  extract_lets +onlyGivenNames x2
  refine Keeps.cut (p := Keeps 3224109128 s x2) ?_ (fun k3 => ?_)
  · dsimp -zeta only [x2]
    refine Keeps.step (modPort_keeps ..) rfl ?_
    refine Keeps.step (settleIngress_keeps ..) rfl ?_
    exact Keeps.refl
  clear_value x2
  extract_lets +onlyGivenNames x4
  refine Keeps.cut (p := Keeps 3224109128 s x4) ?_ (fun k5 => ?_)
  · dsimp -zeta only [x4]
    refine Keeps.ite ?_ ?_
    · refine Keeps.step (countFlap_keeps ..) rfl ?_
      exact k3
    · exact k3
  clear_value x4
  refine Keeps.ite ?_ ?_
  · refine Keeps.step (prunePort_keeps ..) rfl ?_
    exact k5
  · refine Keeps.step (modPort_keeps ..) rfl ?_
    exact k5

theorem portDown_keeps (k) (reason) (s : State) : Keeps 3224109128 s (portDown k reason s) := by
  unfold portDown
  refine Keeps.step (exitPort_keeps ..) rfl ?_
  exact Keeps.refl

theorem portReset_keeps (k) (reason) (s : State) : Keeps 3224109128 s (portReset k reason s) := by
  unfold portReset
  split
  · rename_i v1 v2
    refine Keeps.step (sendCtl_keeps ..) rfl ?_
    refine Keeps.step (exitPort_keeps ..) rfl ?_
    exact Keeps.refl
  · rename_i v3 v4
    refine Keeps.step (sendCtl_keeps ..) rfl ?_
    refine Keeps.step (exitPort_keeps ..) rfl ?_
    exact Keeps.refl
  · rename_i v5 v6
    refine Keeps.step (sendCtl_keeps ..) rfl ?_
    refine Keeps.step (exitPort_keeps ..) rfl ?_
    exact Keeps.refl
  · rename_i v7 v8 v9 v10
    exact Keeps.refl

theorem portIslandReset_keeps (k) (s : State) : Keeps 2883592 s (portIslandReset k s) := by
  unfold portIslandReset
  extract_lets +onlyGivenNames x1
  refine Keeps.cut (p := Keeps 2883592 s x1) ?_ (fun k2 => ?_)
  · dsimp -zeta only [x1]
    refine Keeps.ite ?_ ?_
    · refine Keeps.step (unlive_keeps ..) rfl ?_
      exact Keeps.refl
    · exact Keeps.refl
  clear_value x1
  refine Keeps.step (modPort_keeps ..) rfl ?_
  refine Keeps.step (setLnk_keeps ..) rfl ?_
  exact k2

theorem trainFail_keeps (k) (reason) (s : State) : Keeps 3224109128 s (trainFail k reason s) := by
  unfold trainFail
  extract_lets +onlyGivenNames x1
  clear_value x1
  refine Keeps.step (portDown_keeps ..) rfl ?_
  refine Keeps.step (modPort_keeps ..) rfl ?_
  exact Keeps.refl

theorem sendTrainParam_keeps (k) (s : State) : Keeps 2147745792 s (sendTrainParam k s) := by
  unfold sendTrainParam
  extract_lets +onlyGivenNames x1
  clear_value x1
  refine Keeps.step (sendCtl_keeps ..) rfl ?_
  exact Keeps.refl

theorem tryTrain_keeps (k) (s : State) : Keeps 2147745792 s (tryTrain k s) := by
  unfold tryTrain
  refine Keeps.ite ?_ ?_
  · refine Keeps.step (sendTrainParam_keeps ..) rfl ?_
    refine Keeps.step (modPort_keeps ..) rfl ?_
    exact Keeps.refl
  · exact Keeps.refl

theorem enterVerify_keeps (k) (s : State) : Keeps 1074003968 s (enterVerify k s) := by
  unfold enterVerify
  split
  rename_i v1 v2 v3 v4
  refine Keeps.cut (p := Keeps 1074003968 s v2) (KeepsP.ofEq ?_ v4) (fun k5 => ?_)
  · clear v4
    refine KeepsP.step (takeFree_keeps ..) rfl ?_
    exact Keeps.refl
  clear v4
  refine Keeps.step (modPort_keeps ..) rfl ?_
  exact k5

theorem verifyFail_keeps (k) (reason) (node) (port) (s : State) : Keeps 3224109128 s (verifyFail k reason node port s) := by
  unfold verifyFail
  extract_lets +onlyGivenNames x1
  refine Keeps.cut (p := Keeps 3224109128 s x1) ?_ (fun k2 => ?_)
  · dsimp -zeta only [x1]
    refine Keeps.ite ?_ ?_
    · extract_lets +onlyGivenNames x3
      clear_value x3
      refine Keeps.step (linkFlag_keeps ..) rfl ?_
      refine Keeps.step (modPort_keeps ..) rfl ?_
      refine KeepsP.fst ?_
      refine KeepsP.step (takeFree_keeps ..) rfl ?_
      exact Keeps.refl
    · refine Keeps.step (linkRec_keeps ..) rfl ?_
      refine Keeps.step (modPort_keeps ..) rfl ?_
      exact Keeps.refl
  clear_value x1
  refine Keeps.step (trainFail_keeps ..) rfl ?_
  exact k2

theorem enterActive_keeps (k) (s : State) : Keeps 786440 s (enterActive k s) := by
  unfold enterActive
  extract_lets +onlyGivenNames x1
  refine Keeps.cut (p := Keeps 786440 s x1) ?_ (fun k2 => ?_)
  · dsimp -zeta only [x1]
    refine Keeps.step (modPort_keeps ..) rfl ?_
    exact Keeps.refl
  clear_value x1
  extract_lets +onlyGivenNames x3
  refine Keeps.cut (p := Keeps 786440 s x3) ?_ (fun k4 => ?_)
  · dsimp -zeta only [x3]
    refine Keeps.step (setRte_keeps ..) rfl ?_
    exact k2
  clear_value x3
  refine Keeps.step (setBoot_keeps ..) rfl ?_
  exact k4

theorem verifyPass_keeps (k) (s : State) : Keeps 786440 s (verifyPass k s) := by
  unfold verifyPass
  extract_lets +onlyGivenNames x1
  clear_value x1
  refine Keeps.ite ?_ ?_
  · refine Keeps.step (enterActive_keeps ..) rfl ?_
    exact Keeps.refl
  · exact Keeps.refl

theorem ackFlits_keeps (k) (ack) (s : State) : Keeps 262144 s (ackFlits k ack s) := by
  unfold ackFlits
  extract_lets +onlyGivenNames x1
  clear_value x1
  refine Keeps.ite ?_ ?_
  · exact Keeps.refl
  · refine Keeps.step (modPort_keeps ..) rfl ?_
    exact Keeps.refl

theorem replay_keeps (k) (s : State) : Keeps 3224109128 s (replay k s) := by
  unfold replay
  extract_lets +onlyGivenNames x1
  clear_value x1
  extract_lets +onlyGivenNames x2
  clear_value x2
  extract_lets +onlyGivenNames x3
  refine Keeps.cut (p := Keeps 3224109128 s x3) ?_ (fun k4 => ?_)
  · dsimp -zeta only [x3]
    refine Keeps.step (modPort_keeps ..) rfl ?_
    exact Keeps.refl
  clear_value x3
  extract_lets +onlyGivenNames x5
  clear_value x5
  extract_lets +onlyGivenNames x6
  refine Keeps.cut (p := Keeps 3224109128 s x6) ?_ (fun k7 => ?_)
  · dsimp -zeta only [x6]
    refine Keeps.foldl (fun x8 a9 => ?_) ?_
    · refine Keeps.step (lineFlit_keeps ..) rfl ?_
      exact Keeps.refl
    · refine Keeps.step (sendCtl_keeps ..) rfl ?_
      exact k4
  clear_value x6
  refine Keeps.ite ?_ ?_
  · refine Keeps.step (portReset_keeps ..) rfl ?_
    exact k7
  · exact k7

theorem creditBack_keeps (k) (i) (c) (s : State) : Keeps 3224109128 s (creditBack k i c s) := by
  unfold creditBack
  extract_lets +onlyGivenNames x1
  clear_value x1
  extract_lets +onlyGivenNames x2
  clear_value x2
  extract_lets +onlyGivenNames x3
  clear_value x3
  refine Keeps.ite ?_ ?_
  · exact Keeps.refl
  · refine Keeps.ite ?_ ?_
    · refine Keeps.step (portReset_keeps ..) rfl ?_
      exact Keeps.refl
    · refine Keeps.step (modPort_keeps ..) rfl ?_
      exact Keeps.refl

theorem flitReturns_keeps (k) (h) (s : State) : Keeps 3224109128 s (flitReturns k h s) := by
  unfold flitReturns
  extract_lets +onlyGivenNames x1
  refine Keeps.cut (p := Keeps 3224109128 s x1) ?_ (fun k2 => ?_)
  · dsimp -zeta only [x1]
    refine Keeps.ite ?_ ?_
    · refine Keeps.step (ackFlits_keeps ..) rfl ?_
      exact Keeps.refl
    · exact Keeps.refl
  clear_value x1
  refine Keeps.step (pumpPort_keeps ..) rfl ?_
  refine Keeps.ite ?_ ?_
  · refine Keeps.step (creditBack_keeps ..) rfl ?_
    exact k2
  · exact k2

end Sys2Proof.Machine
end

