-- ==== Sys2Proof/Laws/KeepsSram.lean ====
section
/-! SUPPORT. What each operation of Machine/Sram.lean can touch, that it goes onward and that it keeps the invariant. -/

namespace Sys2Proof.Machine

theorem sramCe_keeps (s : State) : Keeps 2151678016 s (sramCe s) := by
  unfold sramCe
  extract_lets +onlyGivenNames x1
  refine Keeps.cut (p := Keeps 2151678016 s x1) ?_ (fun k2 => ?_)
  · dsimp -zeta only [x1]
    refine Keeps.step (setEcc_keeps ..) rfl ?_
    exact Keeps.refl
  clear_value x1
  extract_lets +onlyGivenNames x3
  clear_value x3
  refine Keeps.ite ?_ ?_
  · exact k2
  · refine Keeps.ite ?_ ?_
    · refine Keeps.ite ?_ ?_
      · refine Keeps.step (cairnAlert_keeps ..) rfl ?_
        refine Keeps.step (setEcc_keeps ..) rfl ?_
        exact k2
      · exact k2
    · refine Keeps.step (setEcc_keeps ..) rfl ?_
      exact k2

theorem sramUe_keeps (code) (a) (b) (s : State) : Keeps 2151678016 s (sramUe code a b s) := by
  unfold sramUe
  refine Keeps.step (cairnAt_keeps ..) rfl ?_
  refine Keeps.step (setEcc_keeps ..) rfl ?_
  exact Keeps.refl

theorem scratchUe_keeps (n) (s : State) : Keeps 20442894400 s (scratchUe n s) := by
  unfold scratchUe
  extract_lets +onlyGivenNames x1
  clear_value x1
  extract_lets +onlyGivenNames x2
  refine Keeps.cut (p := Keeps 20442894400 s x2) ?_ (fun k3 => ?_)
  · dsimp -zeta only [x2]
    refine Keeps.step (modEng_keeps ..) rfl ?_
    exact Keeps.refl
  clear_value x2
  extract_lets +onlyGivenNames x4
  clear_value x4
  extract_lets +onlyGivenNames x5
  refine Keeps.cut (p := Keeps 20442894400 s x5) ?_ (fun k6 => ?_)
  · dsimp -zeta only [x5]
    split
    · rename_i v7 v8 v9 v10
      refine Keeps.step (engineFault_keeps ..) rfl ?_
      exact k3
    · rename_i v11 v12
      exact k3
  clear_value x5
  refine Keeps.ite ?_ ?_
  · exact k6
  · refine Keeps.step (quarantine_keeps ..) rfl ?_
    exact k6

theorem withholdUnits_keeps (x) (s : State) : Keeps 2048 s (withholdUnits x s) := by
  unfold withholdUnits
  refine Keeps.ite ?_ ?_
  · exact Keeps.refl
  · refine Keeps.step (setPool_keeps ..) rfl ?_
    exact Keeps.refl

theorem tableBad_keeps (kind) (i) (e) (s : State) : Keeps 2048 s (tableBad kind i e s) := by
  unfold tableBad
  extract_lets +onlyGivenNames x1
  split
  · rename_i v2
    dsimp -zeta only [x1]
    refine Keeps.step (setPool_keeps ..) rfl ?_
    exact Keeps.refl
  · rename_i v3
    dsimp -zeta only [x1]
    refine Keeps.step (setPool_keeps ..) rfl ?_
    exact Keeps.refl
  · rename_i v4
    dsimp -zeta only [x1]
    refine Keeps.step (setPool_keeps ..) rfl ?_
    exact Keeps.refl
  · rename_i v5
    dsimp -zeta only [x1]
    refine Keeps.step (setPool_keeps ..) rfl ?_
    exact Keeps.refl
  · rename_i v6
    split
    · rename_i v7 v8 v9
      refine Keeps.step (withholdUnits_keeps ..) rfl ?_
      refine Keeps.step (modRegion_keeps ..) rfl ?_
      exact Keeps.refl
    · rename_i v10 v11
      exact Keeps.refl
  · rename_i v12 v13 v14 v15 v16 v17
    refine Keeps.step (setPool_keeps ..) rfl ?_
    exact Keeps.refl

theorem bufferUe_keeps (k) (side) (s : State) : Keeps 2147745792 s (bufferUe k side s) := by
  unfold bufferUe
  refine Keeps.ite ?_ ?_
  · refine KeepsP.fst ?_
    refine KeepsP.step (takeWhere_keeps ..) rfl ?_
    exact Keeps.refl
  · refine Keeps.step (modPort_keeps ..) rfl ?_
    exact Keeps.refl

theorem storeUe_keeps (node) (seq) (space) (tag) (s : State) : Keeps 1048576 s (storeUe node seq space tag s) := by
  unfold storeUe
  refine Keeps.step (modPeer_keeps ..) rfl ?_
  exact Keeps.refl

theorem retransmitUe_keeps (node) (seq) (space) (s : State) : Keeps 1048576 s (retransmitUe node seq space s) := by
  unfold retransmitUe
  refine Keeps.step (modPeer_keeps ..) rfl ?_
  exact Keeps.refl

theorem keySlotUe_keeps (tid) (both) (s : State) : Keeps 2164260928 s (keySlotUe tid both s) := by
  unfold keySlotUe
  extract_lets +onlyGivenNames x1
  refine Keeps.cut (p := Keeps 2164260928 s x1) ?_ (fun k2 => ?_)
  · dsimp -zeta only [x1]
    refine Keeps.step (setOnx_keeps _ _ (fun _ => rfl)) rfl ?_
    exact Keeps.refl
  clear_value x1
  refine Keeps.ite ?_ ?_
  · refine Keeps.step (cairnAlert_keeps ..) rfl ?_
    refine Keeps.step (setOnx_keeps _ _ (fun _ => rfl)) rfl ?_
    exact k2
  · exact k2

theorem dirUe_keeps (i) (line) (s : State) : Keeps 3262922816 s (dirUe i line s) := by
  unfold dirUe
  split
  · rename_i v1 v2
    exact Keeps.refl
  · rename_i v3 v4 v5
    extract_lets +onlyGivenNames x6
    clear_value x6
    extract_lets +onlyGivenNames x7
    refine Keeps.cut (p := Keeps 3262922816 s x7) ?_ (fun k8 => ?_)
    · dsimp -zeta only [x7]
      refine Keeps.step (setDir_keeps ..) rfl ?_
      exact Keeps.refl
    clear_value x7
    refine Keeps.foldl (fun x9 a10 => ?_) ?_
    · refine Keeps.step (cohSend_keeps ..) rfl ?_
      exact Keeps.refl
    · exact k8

theorem planStoreUe_keeps (i) (s : State) : Keeps 3263008832 s (planStoreUe i s) := by
  unfold planStoreUe
  refine Keeps.step (abortRun_keeps ..) rfl ?_
  refine Keeps.step (modPlan_keeps ..) rfl ?_
  exact Keeps.refl

theorem reserveUe_keeps (stack) (s : State) : Keeps 20401094720 s (reserveUe stack s) := by
  unfold reserveUe
  split
  rename_i v1 v2 v3 v4
  refine Keeps.cut (p := Keeps 20401094720 s v2) (KeepsP.ofEq ?_ v4) (fun k5 => ?_)
  · clear v4
    refine KeepsP.step (takeFree_keeps ..) rfl ?_
    exact Keeps.refl
  clear v4
  refine Keeps.step (cairnAt_keeps ..) rfl ?_
  refine Keeps.step (modStack_keeps ..) rfl ?_
  exact k5

theorem tileUe_keeps (i) (t) (s : State) : Keeps 65536 s (tileUe i t s) := by
  unfold tileUe
  refine Keeps.step (setWs_keeps ..) rfl ?_
  exact Keeps.refl

theorem applyBad_keeps (s : State) (x) : Keeps 20459812936 s (applyBad s x) := by
  unfold applyBad
  extract_lets +onlyGivenNames x1
  clear_value x1
  extract_lets +onlyGivenNames x2
  clear_value x2
  split
  · rename_i v3 v4
    refine Keeps.step (sramCe_keeps ..) rfl ?_
    exact Keeps.refl
  · rename_i v5 v6
    refine Keeps.step (scratchUe_keeps ..) rfl ?_
    refine Keeps.step (sramUe_keeps ..) rfl ?_
    exact Keeps.refl
  · rename_i v7 v8
    refine Keeps.step (tableBad_keeps ..) rfl ?_
    refine Keeps.step (sramUe_keeps ..) rfl ?_
    exact Keeps.refl
  · rename_i v9 v10
    refine Keeps.step (setCoh_keeps ..) rfl ?_
    refine Keeps.step (sramUe_keeps ..) rfl ?_
    exact Keeps.refl
  · rename_i v11 v12
    refine Keeps.step (bufferUe_keeps ..) rfl ?_
    refine Keeps.step (sramUe_keeps ..) rfl ?_
    exact Keeps.refl
  · rename_i v13 v14
    refine Keeps.step (portReset_keeps ..) rfl ?_
    refine Keeps.step (sramUe_keeps ..) rfl ?_
    exact Keeps.refl
  · rename_i v15 v16
    refine Keeps.step (storeUe_keeps ..) rfl ?_
    refine Keeps.step (sramUe_keeps ..) rfl ?_
    exact Keeps.refl
  · rename_i v17 v18
    refine Keeps.step (retransmitUe_keeps ..) rfl ?_
    refine Keeps.step (sramUe_keeps ..) rfl ?_
    exact Keeps.refl
  · rename_i v19 v20
    refine Keeps.step (modDesc_keeps ..) rfl ?_
    refine Keeps.step (sramUe_keeps ..) rfl ?_
    exact Keeps.refl
  · rename_i v21 v22
    refine Keeps.step (keySlotUe_keeps ..) rfl ?_
    refine Keeps.step (sramUe_keeps ..) rfl ?_
    exact Keeps.refl
  · rename_i v23 v24
    refine Keeps.step (critFlip_keeps ..) rfl ?_
    refine Keeps.step (sramUe_keeps ..) rfl ?_
    exact Keeps.refl
  · rename_i v25 v26
    refine Keeps.step (tileUe_keeps ..) rfl ?_
    refine Keeps.step (reserveUe_keeps ..) rfl ?_
    exact Keeps.refl
  · rename_i v27 v28
    refine Keeps.step (loseKv_keeps ..) rfl ?_
    refine Keeps.step (reserveUe_keeps ..) rfl ?_
    exact Keeps.refl
  · rename_i v29 v30
    refine Keeps.step (dirUe_keeps ..) rfl ?_
    refine Keeps.step (reserveUe_keeps ..) rfl ?_
    exact Keeps.refl
  · rename_i v31 v32
    refine Keeps.step (planStoreUe_keeps ..) rfl ?_
    refine Keeps.step (reserveUe_keeps ..) rfl ?_
    exact Keeps.refl
  · rename_i v33 v34 v35 v36 v37 v38 v39 v40 v41 v42 v43 v44 v45 v46 v47 v48
    exact Keeps.refl

theorem applySram_keeps (e) (s : State) : Keeps 20459812936 s (applySram e s) := by
  unfold applySram
  refine Keeps.foldl (fun x1 a2 => ?_) ?_
  · refine Keeps.step (applyBad_keeps ..) rfl ?_
    exact Keeps.refl
  · exact Keeps.refl

theorem applyAll_keeps (e) (s : State) : Keeps 21399337032 s (applyAll e s) := by
  unfold applyAll
  refine Keeps.step (applySram_keeps ..) rfl ?_
  refine Keeps.step (applyEnv_keeps ..) rfl ?_
  exact Keeps.refl

end Sys2Proof.Machine
end

