-- ==== Sys2Proof/Laws/KeepsEngines.lean ====
section
/-! SUPPORT. What each operation of Machine/Engines.lean can touch, that it goes onward and that it keeps the invariant. -/

namespace Sys2Proof.Machine

theorem modFlight_keeps (n) (mover) (g) (s : State) : Keeps 32768 s (modFlight n mover g s) := by
  unfold modFlight
  refine Keeps.step (modEng_keeps ..) rfl ?_
  exact Keeps.refl

theorem opDone_keeps (n) (mover) (p) (d) (s : State) : Keeps 3263008832 s (opDone n mover p d s) := by
  unfold opDone
  refine Keeps.step (signal_keeps ..) rfl ?_
  refine Keeps.step (noteWork_keeps ..) rfl ?_
  refine Keeps.step (modEng_keeps ..) rfl ?_
  exact Keeps.refl

theorem settleOp_keeps (c) (mover) (s) : Keeps 3263025216 s.1 (settleOp c mover s) := by
  obtain ⟨s, b⟩ := s
  unfold settleOp
  dsimp -zeta only
  split
  · rename_i v1
    refine Keeps.step (opDone_keeps ..) rfl ?_
    exact Keeps.refl
  · rename_i v2
    exact Keeps.refl
  · rename_i v3 v4 v5
    refine Keeps.step (parkOn_keeps ..) rfl ?_
    exact Keeps.refl
  · rename_i v6 v7
    refine Keeps.step (abortRun_keeps ..) rfl ?_
    exact Keeps.refl

theorem portOp_keeps {n : Nat} {is : OpD → Bool} {mover : Bool} {run : OpCtx → State → State × OpRes} {s : State} {M : Nat}
    (hm : 3799896128 ||| M = M) (h : ∀ c s, KeepsP M s (run c s)) : Keeps M s (portOp n is mover run s) := by
  unfold portOp
  split
  · exact Keeps.refl
  · extract_lets +onlyGivenNames s' e tryIt
    have k0 : Keeps M s s' := (setSvc_keeps _ _).mono (mask_trans rfl hm)
    refine k0.trans ?_
    clear_value s'
    have ht : ∀ f s, Keeps M s (tryIt f s) := by
      intro f s
      dsimp -zeta only [tryIt]
      extract_lets +onlyGivenNames c
      split
      · exact Keeps.refl
      · exact Keeps.trans (h c s) ((settleOp_keeps _ _ _).mono (mask_trans rfl hm))
    clear_value tryIt
    split
    · exact Keeps.refl
    · split
      · split
        · exact ht _ _
        · exact Keeps.refl
      · extract_lets +onlyGivenNames d
        split
        · extract_lets +onlyGivenNames f y
          have k : Keeps M s' y := ((modEng_keeps _ _ _).mono (mask_trans rfl hm)).trans
            (((advance_keeps _ _ _).mono (mask_trans rfl hm)).trans ((noteWork_keeps _ _).mono (mask_trans rfl hm)))
          clear_value y
          exact k.trans (ht f y)
        · exact Keeps.refl

theorem streamOp_keeps {n opc : Nat} {idle : Bool} {run : Plan → Run → OpD → State → State} {s : State} {M : Nat}
    (hm : 32768 ||| M = M) (h : ∀ p r d s, Keeps M s (run p r d s)) : Keeps M s (streamOp n opc idle run s) := by
  unfold streamOp
  split
  · exact Keeps.refl
  · extract_lets +onlyGivenNames e d
    split
    · exact Keeps.trans ((noteWork_keeps ..).mono (mask_trans rfl hm)) (h _ _ _ _)
    · exact Keeps.refl

theorem readArg_keeps (c) (mover) (base) (x) (len) (s : State) : KeepsP 29041358945 s (readArg c mover base x len s) := by
  unfold readArg
  split
  · rename_i v1 v2
    refine KeepsP.mk ?_
    exact Keeps.refl
  · rename_i v3 v4 v5
    extract_lets +onlyGivenNames x6
    clear_value x6
    refine KeepsP.ite ?_ ?_
    · refine KeepsP.mk ?_
      exact Keeps.refl
    · extract_lets +onlyGivenNames x7
      clear_value x7
      refine KeepsP.ite ?_ ?_
      · split
        rename_i v8 v9 v10 v11
        refine Keeps.cut (p := Keeps 29041358945 s v9) (KeepsP.ofEq ?_ v11) (fun k12 => ?_)
        · clear v11
          refine KeepsP.step (anchorRds_keeps ..) rfl ?_
          exact Keeps.refl
        clear v11
        refine KeepsP.mk ?_
        refine Keeps.step (modFlight_keeps ..) rfl ?_
        exact k12
      · split
        · rename_i v13 v14 v15
          refine Keeps.cut (p := Keeps 29041358945 s v14) (KeepsP.ofEq ?_ v15) (fun k16 => ?_)
          · clear v15
            refine KeepsP.step (descGate_keeps ..) rfl ?_
            exact Keeps.refl
          clear v15
          refine KeepsP.mk ?_
          exact k16
        · rename_i v17 v18 v19
          refine Keeps.cut (p := Keeps 29041358945 s v18) (KeepsP.ofEq ?_ v19) (fun k20 => ?_)
          · clear v19
            refine KeepsP.step (descGate_keeps ..) rfl ?_
            exact Keeps.refl
          clear v19
          refine KeepsP.mk ?_
          exact k20
        · rename_i v21 v22 v23
          refine Keeps.cut (p := Keeps 29041358945 s v22) (KeepsP.ofEq ?_ v23) (fun k24 => ?_)
          · clear v23
            refine KeepsP.step (descGate_keeps ..) rfl ?_
            exact Keeps.refl
          clear v23
          split
          rename_i v25 v26 v27 v28
          refine Keeps.cut (p := Keeps 29041358945 s v26) (KeepsP.ofEq ?_ v28) (fun k29 => ?_)
          · clear v28
            refine KeepsP.step (spanWhole_keeps ..) rfl ?_
            exact k24
          clear v28
          split
          · rename_i v30 v31 v32 v33
            refine Keeps.cut (p := Keeps 29041358945 s v31) (KeepsP.ofEq ?_ v33) (fun k34 => ?_)
            · clear v33
              refine KeepsP.step (spanRead_keeps ..) rfl ?_
              exact k29
            clear v33
            refine KeepsP.mk ?_
            exact k34
          · rename_i v35 v36 v37 v38 v39 v40
            refine Keeps.cut (p := Keeps 29041358945 s v36) (KeepsP.ofEq ?_ v40) (fun k41 => ?_)
            · clear v40
              refine KeepsP.step (spanRead_keeps ..) rfl ?_
              exact k29
            clear v40
            refine KeepsP.mk ?_
            exact k41

theorem tileFault_keeps (x) (t) (s : State) : KeepsP 1073741824 s (tileFault x t s) := by
  unfold tileFault
  extract_lets +onlyGivenNames x1
  clear_value x1
  extract_lets +onlyGivenNames x2
  clear_value x2
  split
  · rename_i v3 v4 v5
    refine KeepsP.mk ?_
    exact Keeps.refl
  · rename_i v6 v7
    split
    · rename_i v8 v9 v10
      refine KeepsP.mk ?_
      exact Keeps.refl
    · rename_i v11 v12
      split
      rename_i v13 v14 v15 v16
      refine Keeps.cut (p := Keeps 1073741824 s v14) (KeepsP.ofEq ?_ v16) (fun k17 => ?_)
      · clear v16
        refine KeepsP.step (takeFree_keeps ..) rfl ?_
        exact Keeps.refl
      clear v16
      refine KeepsP.mk ?_
      exact k17

theorem readImage_keeps (x) (t) (len) (s : State) : KeepsP 29578229857 s (readImage x t len s) := by
  unfold readImage
  extract_lets +onlyGivenNames x1
  clear_value x1
  split
  · rename_i v2 v3 v4 v5
    refine Keeps.cut (p := Keeps 29578229857 s v3) (KeepsP.ofEq ?_ v5) (fun k6 => ?_)
    · clear v5
      refine KeepsP.step (readSched_keeps ..) rfl ?_
      exact Keeps.refl
    clear v5
    split
    rename_i v7 v8 v9 v10
    refine Keeps.cut (p := Keeps 29578229857 s v8) (KeepsP.ofEq ?_ v10) (fun k11 => ?_)
    · clear v10
      refine KeepsP.step (freeBytes_keeps ..) rfl ?_
      exact k6
    clear v10
    refine KeepsP.mk ?_
    exact k11
  · rename_i v12 v13 v14
    refine Keeps.cut (p := Keeps 29578229857 s v13) (KeepsP.ofEq ?_ v14) (fun k15 => ?_)
    · clear v14
      refine KeepsP.step (readSched_keeps ..) rfl ?_
      exact Keeps.refl
    clear v14
    split
    rename_i v16 v17 v18 v19
    refine Keeps.cut (p := Keeps 29578229857 s v17) (KeepsP.ofEq ?_ v19) (fun k20 => ?_)
    · clear v19
      refine KeepsP.step (tileFault_keeps ..) rfl ?_
      exact k15
    clear v19
    refine KeepsP.mk ?_
    exact k20

theorem readSrc_keeps (c) (mover) (base) (x) (len) (s : State) : KeepsP 29578229857 s (readSrc c mover base x len s) := by
  unfold readSrc
  split
  · rename_i v1 v2
    refine KeepsP.mk ?_
    exact Keeps.refl
  · rename_i v3 v4
    split
    · rename_i v5 v6 v7 v8
      refine KeepsP.step (readImage_keeps ..) rfl ?_
      exact Keeps.refl
    · rename_i v9 v10
      refine KeepsP.mk ?_
      exact Keeps.refl
  · rename_i v11 v12
    refine KeepsP.step (readArg_keeps ..) rfl ?_
    exact Keeps.refl
  · rename_i v13 v14 v15 v16
    refine KeepsP.mk ?_
    exact Keeps.refl

theorem writeDsts_keeps (c) (mover) (x) (len) (ds) (s : State) : KeepsP 29578229857 s (writeDsts c mover x len ds s) := by
  unfold writeDsts
  split
  · rename_i v1 v2
    refine KeepsP.mk ?_
    refine Keeps.step (modEng_keeps ..) rfl ?_
    exact Keeps.refl
  · rename_i v3 v4
    split
    · rename_i v5 v6
      refine KeepsP.mk ?_
      exact Keeps.refl
    · rename_i v7 v8 v9
      refine KeepsP.ite ?_ ?_
      · refine KeepsP.mk ?_
        exact Keeps.refl
      · split
        · rename_i v10 v11 v12
          refine Keeps.cut (p := Keeps 29578229857 s v11) (KeepsP.ofEq ?_ v12) (fun k13 => ?_)
          · clear v12
            refine KeepsP.step (descGate_keeps ..) rfl ?_
            exact Keeps.refl
          clear v12
          refine KeepsP.mk ?_
          exact k13
        · rename_i v14 v15 v16
          refine Keeps.cut (p := Keeps 29578229857 s v15) (KeepsP.ofEq ?_ v16) (fun k17 => ?_)
          · clear v16
            refine KeepsP.step (descGate_keeps ..) rfl ?_
            exact Keeps.refl
          clear v16
          refine KeepsP.mk ?_
          exact k17
        · rename_i v18 v19 v20
          refine Keeps.cut (p := Keeps 29578229857 s v19) (KeepsP.ofEq ?_ v20) (fun k21 => ?_)
          · clear v20
            refine KeepsP.step (descGate_keeps ..) rfl ?_
            exact Keeps.refl
          clear v20
          split
          rename_i v22 v23 v24 v25 v26
          refine Keeps.cut (p := Keeps 29578229857 s v23) (KeepsP.ofEq ?_ v26) (fun k27 => ?_)
          · clear v26
            refine KeepsP.step (writeOut_keeps ..) rfl ?_
            exact k21
          clear v26
          refine KeepsP.ite ?_ ?_
          · refine KeepsP.mk ?_
            exact k27
          · refine KeepsP.ite ?_ ?_
            · refine KeepsP.mk ?_
              exact k27
            · refine KeepsP.mk ?_
              refine Keeps.step (modFlight_keeps ..) rfl ?_
              exact k27
  · rename_i v28 v29 v30
    refine KeepsP.mk ?_
    exact Keeps.refl

theorem writeDst_keeps (c) (mover) (x) (d) (s : State) : KeepsP 29578229857 s (writeDst c mover x d s) := by
  unfold writeDst
  refine KeepsP.step (writeDsts_keeps ..) rfl ?_
  exact Keeps.refl

theorem execOpNop_keeps (eng) (e) (s : State) : KeepsX 21399337032 s (execOpNop eng e s) := by
  unfold execOpNop
  refine KeepsX.next ?_
  refine Keeps.trans ?_ (streamOp_keeps (M := 21399337032) rfl (fun y1 y2 y3 y4 => ?_))
  · refine Keeps.step (applyAll_keeps ..) rfl ?_
    exact Keeps.refl
  · refine Keeps.step (signal_keeps ..) rfl ?_
    refine Keeps.step (advance_keeps ..) rfl ?_
    exact Keeps.refl

theorem bankOwnOp_keeps (n) (p) (d) (s : State) : Keeps 3263008832 s (bankOwnOp n p d s) := by
  unfold bankOwnOp
  extract_lets +onlyGivenNames x1
  clear_value x1
  extract_lets +onlyGivenNames x2
  clear_value x2
  extract_lets +onlyGivenNames x3
  clear_value x3
  extract_lets +onlyGivenNames x4
  extract_lets +onlyGivenNames x5
  refine Keeps.cut (p := Keeps 3263008832 s x5) ?_ (fun k6 => ?_)
  · dsimp -zeta only [x5]
    refine Keeps.step (modEng_keeps ..) rfl ?_
    exact Keeps.refl
  clear_value x5
  extract_lets +onlyGivenNames x7
  refine Keeps.cut (p := Keeps 3263008832 s x7) ?_ (fun k8 => ?_)
  · dsimp -zeta only [x7]
    refine Keeps.ite ?_ ?_
    · refine Keeps.step (setFe_keeps ..) rfl ?_
      refine Keeps.step (modEng_keeps ..) rfl ?_
      exact k6
    · exact k6
  clear_value x7
  refine Keeps.step (signal_keeps ..) rfl ?_
  refine Keeps.step (advance_keeps ..) rfl ?_
  refine Keeps.step (landEngine_keeps ..) rfl ?_
  exact k8

theorem execOpBankOwn_keeps (eng) (e) (s : State) : KeepsX 21399337032 s (execOpBankOwn eng e s) := by
  unfold execOpBankOwn
  refine KeepsX.next ?_
  refine Keeps.trans ?_ (streamOp_keeps (M := 21399337032) rfl (fun y1 y2 y3 y4 => ?_))
  · refine Keeps.step (applyAll_keeps ..) rfl ?_
    exact Keeps.refl
  · refine Keeps.step (bankOwnOp_keeps ..) rfl ?_
    exact Keeps.refl

theorem barrierOp_keeps (n) (s : State) : Keeps 3263008832 s (barrierOp n s) := by
  unfold barrierOp
  split
  · rename_i v1 v2
    exact Keeps.refl
  · rename_i v3 v4 v5 v6
    extract_lets +onlyGivenNames x7
    clear_value x7
    extract_lets +onlyGivenNames x8
    clear_value x8
    refine Keeps.ite ?_ ?_
    · extract_lets +onlyGivenNames x9
      clear_value x9
      extract_lets +onlyGivenNames x10
      refine Keeps.cut (p := Keeps 3263008832 s x10) ?_ (fun k11 => ?_)
      · dsimp -zeta only [x10]
        refine Keeps.step (noteWork_keeps ..) rfl ?_
        refine Keeps.step (advance_keeps ..) rfl ?_
        refine Keeps.step (modEng_keeps ..) rfl ?_
        exact Keeps.refl
      clear_value x10
      split
      · rename_i v12 v13
        exact k11
      · rename_i v14 v15 v16
        refine Keeps.step (barArrived_keeps ..) rfl ?_
        refine Keeps.step (modBar_keeps ..) rfl ?_
        exact k11
    · exact Keeps.refl

theorem execOpBarrier_keeps (eng) (e) (s : State) : KeepsX 21399337032 s (execOpBarrier eng e s) := by
  unfold execOpBarrier
  refine KeepsX.next ?_
  refine Keeps.step (barrierOp_keeps ..) rfl ?_
  refine Keeps.step (applyAll_keeps ..) rfl ?_
  exact Keeps.refl

theorem execOpEnd_keeps (eng) (e) (s : State) : KeepsX 21399337032 s (execOpEnd eng e s) := by
  unfold execOpEnd
  refine KeepsX.next ?_
  refine Keeps.trans ?_ (streamOp_keeps (M := 21399337032) rfl (fun y1 y2 y3 y4 => ?_))
  · refine Keeps.step (applyAll_keeps ..) rfl ?_
    exact Keeps.refl
  · refine Keeps.step (signal_keeps ..) rfl ?_
    refine Keeps.step (modEng_keeps ..) rfl ?_
    refine Keeps.step (advance_keeps ..) rfl ?_
    exact Keeps.refl

theorem moveOp_keeps (c) (s : State) : KeepsP 29578229857 s (moveOp c s) := by
  unfold moveOp
  split
  · rename_i v1 v2 v3 v4
    refine Keeps.cut (p := Keeps 29578229857 s v2) (KeepsP.ofEq ?_ v4) (fun k5 => ?_)
    · clear v4
      refine KeepsP.step (readSrc_keeps ..) rfl ?_
      exact Keeps.refl
    clear v4
    refine KeepsP.step (writeDst_keeps ..) rfl ?_
    exact k5
  · rename_i v6 v7 v8 v9
    refine Keeps.cut (p := Keeps 29578229857 s v7) (KeepsP.ofEq ?_ v9) (fun k10 => ?_)
    · clear v9
      refine KeepsP.step (readSrc_keeps ..) rfl ?_
      exact Keeps.refl
    clear v9
    refine KeepsP.mk ?_
    exact k10

theorem execOpMove_keeps (eng) (e) (s : State) : KeepsX 29997660265 s (execOpMove eng e s) := by
  unfold execOpMove
  refine KeepsX.next ?_
  refine Keeps.trans ?_ (portOp_keeps (M := 29997660265) rfl (fun y1 y2 => ?_))
  · refine Keeps.step (applyAll_keeps ..) rfl ?_
    exact Keeps.refl
  · refine KeepsP.step (moveOp_keeps ..) rfl ?_
    exact Keeps.refl

theorem sendStream_keeps (p) (x) (a) (a1) (s : State) : Keeps 3262922816 s (sendStream p x a a1 s) := by
  induction a generalizing p x a1 s
  · unfold sendStream
    exact Keeps.refl
  · rename_i v1 v2
    unfold sendStream
    refine Keeps.ite ?_ ?_
    · exact Keeps.refl
    · extract_lets +onlyGivenNames x3
      clear_value x3
      extract_lets +onlyGivenNames x4
      clear_value x4
      refine Keeps.step (v2 _ _ _ _) (Nat.or_self _) ?_
      refine Keeps.step (sendMsg_keeps ..) rfl ?_
      exact Keeps.refl

theorem sendOp_keeps (c) (s : State) : KeepsP 29578229857 s (sendOp c s) := by
  unfold sendOp
  extract_lets +onlyGivenNames x1
  clear_value x1
  split
  · rename_i v2 v3 v4 v5
    refine Keeps.cut (p := Keeps 29578229857 s v3) (KeepsP.ofEq ?_ v5) (fun k6 => ?_)
    · clear v5
      refine KeepsP.step (readSrc_keeps ..) rfl ?_
      exact Keeps.refl
    clear v5
    refine KeepsP.ite ?_ ?_
    · refine KeepsP.mk ?_
      refine Keeps.step (sendStream_keeps ..) rfl ?_
      exact k6
    · refine KeepsP.step (writeDst_keeps ..) rfl ?_
      exact k6
  · rename_i v7 v8 v9 v10
    refine Keeps.cut (p := Keeps 29578229857 s v8) (KeepsP.ofEq ?_ v10) (fun k11 => ?_)
    · clear v10
      refine KeepsP.step (readSrc_keeps ..) rfl ?_
      exact Keeps.refl
    clear v10
    refine KeepsP.mk ?_
    exact k11

theorem execOpSend_keeps (eng) (e) (s : State) : KeepsX 29997660265 s (execOpSend eng e s) := by
  unfold execOpSend
  refine KeepsX.next ?_
  refine Keeps.trans ?_ (portOp_keeps (M := 29997660265) rfl (fun y1 y2 => ?_))
  · refine Keeps.step (applyAll_keeps ..) rfl ?_
    exact Keeps.refl
  · refine KeepsP.step (sendOp_keeps ..) rfl ?_
    exact Keeps.refl

theorem recvOp_keeps (c) (s : State) : KeepsP 32768 s (recvOp c s) := by
  unfold recvOp
  extract_lets +onlyGivenNames x1
  clear_value x1
  extract_lets +onlyGivenNames x2
  clear_value x2
  refine KeepsP.ite ?_ ?_
  · refine KeepsP.mk ?_
    exact Keeps.refl
  · refine KeepsP.mk ?_
    refine Keeps.step (modEng_keeps ..) rfl ?_
    exact Keeps.refl

theorem execOpRecv_keeps (eng) (e) (s : State) : KeepsX 21399337032 s (execOpRecv eng e s) := by
  unfold execOpRecv
  refine KeepsX.next ?_
  refine Keeps.trans ?_ (portOp_keeps (M := 21399337032) rfl (fun y1 y2 => ?_))
  · refine Keeps.step (applyAll_keeps ..) rfl ?_
    exact Keeps.refl
  · refine KeepsP.step (recvOp_keeps ..) rfl ?_
    exact Keeps.refl

theorem noteRunEsc_keeps (c) (o) (s : State) : Keeps 32768 s (noteRunEsc c o s) := by
  unfold noteRunEsc
  refine Keeps.step (noteEsc_keeps ..) rfl ?_
  refine Keeps.step (modPlan_keeps ..) rfl ?_
  exact Keeps.refl

theorem gemvWrite_keeps (c) (o) (s : State) : Keeps 32768 s (gemvWrite c o s) := by
  unfold gemvWrite
  extract_lets +onlyGivenNames x1
  clear_value x1
  extract_lets +onlyGivenNames x2
  clear_value x2
  extract_lets +onlyGivenNames x3
  clear_value x3
  extract_lets +onlyGivenNames x4
  clear_value x4
  extract_lets +onlyGivenNames x5
  clear_value x5
  extract_lets +onlyGivenNames x6
  clear_value x6
  extract_lets +onlyGivenNames x7
  clear_value x7
  extract_lets +onlyGivenNames x8
  clear_value x8
  refine Keeps.step (noteRunEsc_keeps ..) rfl ?_
  refine Keeps.step (noteFlags_keeps ..) rfl ?_
  refine Keeps.step (modEng_keeps ..) rfl ?_
  exact Keeps.refl

theorem gemvUndef_keeps (c) (o) (s : State) : Keeps 1073774592 s (gemvUndef c o s) := by
  unfold gemvUndef
  extract_lets +onlyGivenNames x1
  clear_value x1
  extract_lets +onlyGivenNames x2
  clear_value x2
  split
  rename_i v3 v4 v5 v6
  refine Keeps.cut (p := Keeps 1073774592 s v4) (KeepsP.ofEq ?_ v6) (fun k7 => ?_)
  · clear v6
    refine KeepsP.step (freeBytes_keeps ..) rfl ?_
    refine Keeps.step (noteRunEsc_keeps ..) rfl ?_
    refine Keeps.step (noteFlags_keeps ..) rfl ?_
    exact Keeps.refl
  clear v6
  refine Keeps.step (modEng_keeps ..) rfl ?_
  exact k7

theorem gemvOnce_keeps (env) (code) (c) (s : State) : KeepsP 29578229857 s (gemvOnce env code c s) := by
  unfold gemvOnce
  split
  · rename_i v1 v2
    refine KeepsP.mk ?_
    exact Keeps.refl
  · rename_i v3 v4 v5 v6
    extract_lets +onlyGivenNames x7
    clear_value x7
    extract_lets +onlyGivenNames x8
    clear_value x8
    extract_lets +onlyGivenNames x9
    clear_value x9
    extract_lets +onlyGivenNames x10
    clear_value x10
    split
    · rename_i v11 v12 v13
      refine Keeps.cut (p := Keeps 29578229857 s v12) (KeepsP.ofEq ?_ v13) (fun k14 => ?_)
      · clear v13
        refine KeepsP.step (readTile_keeps ..) rfl ?_
        exact Keeps.refl
      clear v13
      split
      rename_i v15 v16 v17 v18
      refine Keeps.cut (p := Keeps 29578229857 s v16) (KeepsP.ofEq ?_ v18) (fun k19 => ?_)
      · clear v18
        refine KeepsP.step (tileFault_keeps ..) rfl ?_
        exact k14
      clear v18
      refine KeepsP.mk ?_
      exact k19
    · rename_i v20 v21 v22 v23
      refine Keeps.cut (p := Keeps 29578229857 s v21) (KeepsP.ofEq ?_ v23) (fun k24 => ?_)
      · clear v23
        refine KeepsP.step (readTile_keeps ..) rfl ?_
        exact Keeps.refl
      clear v23
      refine KeepsP.mk ?_
      exact k24

theorem gemvOp_keeps (env) (c) (s : State) : KeepsP 29578229857 s (gemvOp env c s) := by
  unfold gemvOp
  split
  · rename_i v1 v2 v3 v4
    refine Keeps.cut (p := Keeps 29578229857 s v2) (KeepsP.ofEq ?_ v4) (fun k5 => ?_)
    · clear v4
      refine KeepsP.step (gemvOnce_keeps ..) rfl ?_
      exact Keeps.refl
    clear v4
    refine KeepsP.mk ?_
    exact k5
  · rename_i v6 v7 v8 v9 v10
    refine Keeps.cut (p := Keeps 29578229857 s v7) (KeepsP.ofEq ?_ v10) (fun k11 => ?_)
    · clear v10
      refine KeepsP.step (gemvOnce_keeps ..) rfl ?_
      exact Keeps.refl
    clear v10
    split
    · rename_i v12 v13
      refine KeepsP.mk ?_
      refine Keeps.step (gemvWrite_keeps ..) rfl ?_
      exact k11
    · rename_i v14 v15 v16
      split
      · rename_i v17 v18
        refine KeepsP.mk ?_
        refine Keeps.step (abftFailed_keeps ..) rfl ?_
        refine Keeps.step (gemvUndef_keeps ..) rfl ?_
        exact k11
      · rename_i v19 v20 v21
        refine KeepsP.mk ?_
        refine Keeps.step (setFe_keeps ..) rfl ?_
        exact k11

theorem execOpGemv_keeps (eng) (e) (s : State) : KeepsX 29997660265 s (execOpGemv eng e s) := by
  unfold execOpGemv
  refine KeepsX.next ?_
  refine Keeps.trans ?_ (portOp_keeps (M := 29997660265) rfl (fun y1 y2 => ?_))
  · refine Keeps.step (applyAll_keeps ..) rfl ?_
    exact Keeps.refl
  · refine KeepsP.step (gemvOp_keeps ..) rfl ?_
    exact Keeps.refl

theorem reexecRun_keeps (env) (x) (c) (s : State) : Keeps 29578229857 s (reexecRun env x c s) := by
  unfold reexecRun
  split
  · rename_i v1 v2 v3 v4
    refine Keeps.cut (p := Keeps 29578229857 s v2) (KeepsP.ofEq ?_ v4) (fun k5 => ?_)
    · clear v4
      refine KeepsP.step (gemvOnce_keeps ..) rfl ?_
      exact Keeps.refl
    clear v4
    refine Keeps.step (settleOp_keeps ..) rfl ?_
    dsimp -zeta only
    exact k5
  · rename_i v6 v7 v8 v9 v10
    refine Keeps.cut (p := Keeps 29578229857 s v7) (KeepsP.ofEq ?_ v10) (fun k11 => ?_)
    · clear v10
      refine KeepsP.step (gemvOnce_keeps ..) rfl ?_
      exact Keeps.refl
    clear v10
    extract_lets +onlyGivenNames x12
    refine Keeps.cut (p := Keeps 29578229857 s x12) ?_ (fun k13 => ?_)
    · dsimp -zeta only [x12]
      refine Keeps.step (setFe_keeps ..) rfl ?_
      exact k11
    clear_value x12
    split
    · rename_i v14 v15
      refine Keeps.step (settleOp_keeps ..) rfl ?_
      dsimp -zeta only
      refine Keeps.step (gemvWrite_keeps ..) rfl ?_
      refine Keeps.step (abftRecovered_keeps ..) rfl ?_
      exact k13
    · rename_i v16 v17 v18
      refine Keeps.step (abftFailed_keeps ..) rfl ?_
      refine Keeps.step (gemvUndef_keeps ..) rfl ?_
      exact k13

theorem execAbftReexecDone_keeps (eng) (e) (s : State) : KeepsX 29997660265 s (execAbftReexecDone eng e s) := by
  unfold execAbftReexecDone
  extract_lets +onlyGivenNames x1
  refine Keeps.cut (p := Keeps 29997660265 s x1) ?_ (fun k2 => ?_)
  · dsimp -zeta only [x1]
    refine Keeps.step (applyAll_keeps ..) rfl ?_
    exact Keeps.refl
  clear_value x1
  refine KeepsX.next ?_
  split
  · rename_i v3 v4 v5 v6 v7 v8 v9 v10 v11 v12
    refine Keeps.ite ?_ ?_
    · refine Keeps.step (reexecRun_keeps ..) rfl ?_
      exact k2
    · exact k2
  · rename_i v13 v14 v15 v16
    exact k2

theorem attendPages_keeps (o) (l) (h) (stack) (n) (a) (s : State) : KeepsP 29578229857 s (attendPages o l h stack n a s) := by
  induction a generalizing o l h stack n s
  · unfold attendPages
    refine KeepsP.mk ?_
    exact Keeps.refl
  · rename_i v1 v2 v3
    unfold attendPages
    dsimp -zeta only
    extract_lets +onlyGivenNames x4
    clear_value x4
    refine KeepsP.ite ?_ ?_
    · refine KeepsP.step (v3 _ _ _ _ _ _) (Nat.or_self _) ?_
      exact Keeps.refl
    · extract_lets +onlyGivenNames x5
      clear_value x5
      split
      · rename_i v6 v7 v8
        refine Keeps.cut (p := Keeps 29578229857 s v7) (KeepsP.ofEq ?_ v8) (fun k9 => ?_)
        · clear v8
          refine KeepsP.step (readPage_keeps ..) rfl ?_
          exact Keeps.refl
        clear v8
        refine KeepsP.mk ?_
        exact k9
      · rename_i v10 v11 v12 v13
        refine Keeps.cut (p := Keeps 29578229857 s v11) (KeepsP.ofEq ?_ v13) (fun k14 => ?_)
        · clear v13
          refine KeepsP.step (readPage_keeps ..) rfl ?_
          exact Keeps.refl
        clear v13
        refine KeepsP.mk ?_
        refine KeepsP.fst ?_
        refine KeepsP.step (v3 _ _ _ _ _ _) (Nat.or_self _) ?_
        exact k14

theorem attendOp_keeps (c) (s : State) : KeepsP 29578229857 s (attendOp c s) := by
  unfold attendOp
  extract_lets +onlyGivenNames x1
  clear_value x1
  extract_lets +onlyGivenNames x2
  clear_value x2
  split
  · rename_i v3 v4
    refine KeepsP.mk ?_
    exact Keeps.refl
  · rename_i v5 v6 v7
    extract_lets +onlyGivenNames x8
    clear_value x8
    extract_lets +onlyGivenNames x9
    clear_value x9
    extract_lets +onlyGivenNames x10
    clear_value x10
    refine KeepsP.ite ?_ ?_
    · refine KeepsP.mk ?_
      exact Keeps.refl
    · refine KeepsP.ite ?_ ?_
      · refine KeepsP.mk ?_
        exact Keeps.refl
      · extract_lets +onlyGivenNames x11
        clear_value x11
        extract_lets +onlyGivenNames x12
        clear_value x12
        extract_lets +onlyGivenNames x13
        clear_value x13
        extract_lets +onlyGivenNames x14
        clear_value x14
        split
        · rename_i v15 v16 v17 v18
          refine Keeps.cut (p := Keeps 29578229857 s v16) (KeepsP.ofEq ?_ v18) (fun k19 => ?_)
          · clear v18
            refine KeepsP.step (attendPages_keeps ..) rfl ?_
            exact Keeps.refl
          clear v18
          refine KeepsP.mk ?_
          exact k19
        · rename_i v20 v21 v22 v23 v24
          refine Keeps.cut (p := Keeps 29578229857 s v21) (KeepsP.ofEq ?_ v24) (fun k25 => ?_)
          · clear v24
            refine KeepsP.step (attendPages_keeps ..) rfl ?_
            exact Keeps.refl
          clear v24
          extract_lets +onlyGivenNames x26
          clear_value x26
          extract_lets +onlyGivenNames x27
          clear_value x27
          extract_lets +onlyGivenNames x28
          clear_value x28
          extract_lets +onlyGivenNames x29
          clear_value x29
          extract_lets +onlyGivenNames x30
          clear_value x30
          extract_lets +onlyGivenNames x31
          clear_value x31
          extract_lets +onlyGivenNames x32
          clear_value x32
          extract_lets +onlyGivenNames x33
          refine Keeps.cut (p := Keeps 29578229857 s x33) ?_ (fun k34 => ?_)
          · dsimp -zeta only [x33]
            refine Keeps.ite ?_ ?_
            · refine Keeps.step (noteFlags_keeps ..) rfl ?_
              exact k25
            · exact k25
          clear_value x33
          refine KeepsP.step (writeDsts_keeps ..) rfl ?_
          exact k34

theorem execOpAttend_keeps (eng) (e) (s : State) : KeepsX 29997660265 s (execOpAttend eng e s) := by
  unfold execOpAttend
  refine KeepsX.next ?_
  refine Keeps.trans ?_ (portOp_keeps (M := 29997660265) rfl (fun y1 y2 => ?_))
  · refine Keeps.step (applyAll_keeps ..) rfl ?_
    exact Keeps.refl
  · refine KeepsP.step (attendOp_keeps ..) rfl ?_
    exact Keeps.refl

theorem ewiseOp_keeps (f) (c) (s : State) : KeepsP 29578229857 s (ewiseOp f c s) := by
  unfold ewiseOp
  extract_lets +onlyGivenNames x1
  clear_value x1
  extract_lets +onlyGivenNames x2
  clear_value x2
  extract_lets +onlyGivenNames x3
  clear_value x3
  extract_lets +onlyGivenNames x4
  clear_value x4
  refine KeepsP.step (writeDst_keeps ..) rfl ?_
  exact Keeps.refl

theorem execOpEwiseAdd_keeps (eng) (e) (s : State) : KeepsX 29997660265 s (execOpEwiseAdd eng e s) := by
  unfold execOpEwiseAdd
  refine KeepsX.next ?_
  refine Keeps.trans ?_ (portOp_keeps (M := 29997660265) rfl (fun y1 y2 => ?_))
  · refine Keeps.step (applyAll_keeps ..) rfl ?_
    exact Keeps.refl
  · refine KeepsP.step (ewiseOp_keeps ..) rfl ?_
    exact Keeps.refl

theorem execOpEwiseMul_keeps (eng) (e) (s : State) : KeepsX 29997660265 s (execOpEwiseMul eng e s) := by
  unfold execOpEwiseMul
  refine KeepsX.next ?_
  refine Keeps.trans ?_ (portOp_keeps (M := 29997660265) rfl (fun y1 y2 => ?_))
  · refine Keeps.step (applyAll_keeps ..) rfl ?_
    exact Keeps.refl
  · refine KeepsP.step (ewiseOp_keeps ..) rfl ?_
    exact Keeps.refl

theorem execOpEwiseMax_keeps (eng) (e) (s : State) : KeepsX 29997660265 s (execOpEwiseMax eng e s) := by
  unfold execOpEwiseMax
  refine KeepsX.next ?_
  refine Keeps.trans ?_ (portOp_keeps (M := 29997660265) rfl (fun y1 y2 => ?_))
  · refine Keeps.step (applyAll_keeps ..) rfl ?_
    exact Keeps.refl
  · refine KeepsP.step (ewiseOp_keeps ..) rfl ?_
    exact Keeps.refl

theorem execOpEwiseScale_keeps (eng) (e) (s : State) : KeepsX 29997660265 s (execOpEwiseScale eng e s) := by
  unfold execOpEwiseScale
  refine KeepsX.next ?_
  refine Keeps.trans ?_ (portOp_keeps (M := 29997660265) rfl (fun y1 y2 => ?_))
  · refine Keeps.step (applyAll_keeps ..) rfl ?_
    exact Keeps.refl
  · refine KeepsP.step (ewiseOp_keeps ..) rfl ?_
    exact Keeps.refl

theorem convertOp_keeps (c) (s : State) : KeepsP 29578229857 s (convertOp c s) := by
  unfold convertOp
  extract_lets +onlyGivenNames x1
  clear_value x1
  extract_lets +onlyGivenNames x2
  clear_value x2
  extract_lets +onlyGivenNames x3
  clear_value x3
  extract_lets +onlyGivenNames x4
  clear_value x4
  extract_lets +onlyGivenNames x5
  clear_value x5
  extract_lets +onlyGivenNames x6
  clear_value x6
  extract_lets +onlyGivenNames x7
  clear_value x7
  extract_lets +onlyGivenNames x8
  clear_value x8
  split
  rename_i v9 v10 v11 v12
  refine Keeps.cut (p := Keeps 29578229857 s v10) (KeepsP.ofEq ?_ v12) (fun k13 => ?_)
  · clear v12
    refine KeepsP.step (takeFree_keeps ..) rfl ?_
    exact Keeps.refl
  clear v12
  refine KeepsP.step (writeDst_keeps ..) rfl ?_
  exact k13

theorem execOpEwiseConvert_keeps (eng) (e) (s : State) : KeepsX 29997660265 s (execOpEwiseConvert eng e s) := by
  unfold execOpEwiseConvert
  refine KeepsX.next ?_
  refine Keeps.trans ?_ (portOp_keeps (M := 29997660265) rfl (fun y1 y2 => ?_))
  · refine Keeps.step (applyAll_keeps ..) rfl ?_
    exact Keeps.refl
  · refine KeepsP.step (convertOp_keeps ..) rfl ?_
    exact Keeps.refl

theorem reduceOp_keeps (c) (s : State) : KeepsP 29578229857 s (reduceOp c s) := by
  unfold reduceOp
  extract_lets +onlyGivenNames x1
  clear_value x1
  extract_lets +onlyGivenNames x2
  clear_value x2
  extract_lets +onlyGivenNames x3
  clear_value x3
  extract_lets +onlyGivenNames x4
  clear_value x4
  extract_lets +onlyGivenNames x5
  clear_value x5
  split
  · rename_i v6 v7 v8 v9
    refine Keeps.cut (p := Keeps 29578229857 s v7) (KeepsP.ofEq ?_ v9) (fun k10 => ?_)
    · clear v9
      refine KeepsP.step (readSrc_keeps ..) rfl ?_
      exact Keeps.refl
    clear v9
    refine KeepsP.mk ?_
    exact k10
  · rename_i v11 v12 v13 v14
    refine Keeps.cut (p := Keeps 29578229857 s v12) (KeepsP.ofEq ?_ v14) (fun k15 => ?_)
    · clear v14
      refine KeepsP.step (readSrc_keeps ..) rfl ?_
      exact Keeps.refl
    clear v14
    split
    · rename_i v16 v17 v18 v19
      refine Keeps.cut (p := Keeps 29578229857 s v17) (KeepsP.ofEq ?_ v19) (fun k20 => ?_)
      · clear v19
        refine KeepsP.step (readSrc_keeps ..) rfl ?_
        exact k15
      clear v19
      refine KeepsP.mk ?_
      exact k20
    · rename_i v21 v22 v23 v24
      refine Keeps.cut (p := Keeps 29578229857 s v22) (KeepsP.ofEq ?_ v24) (fun k25 => ?_)
      · clear v24
        refine KeepsP.step (readSrc_keeps ..) rfl ?_
        exact k15
      clear v24
      extract_lets +onlyGivenNames x26
      clear_value x26
      refine KeepsP.step (writeDst_keeps ..) rfl ?_
      exact k25

theorem execOpReduce_keeps (eng) (e) (s : State) : KeepsX 29997660265 s (execOpReduce eng e s) := by
  unfold execOpReduce
  refine KeepsX.next ?_
  refine Keeps.trans ?_ (portOp_keeps (M := 29997660265) rfl (fun y1 y2 => ?_))
  · refine Keeps.step (applyAll_keeps ..) rfl ?_
    exact Keeps.refl
  · refine KeepsP.step (reduceOp_keeps ..) rfl ?_
    exact Keeps.refl

end Sys2Proof.Machine
end

