-- ==== Sys2Proof/Laws/KeepsLenders.lean ====
section
/-! SUPPORT. What each operation of Machine/Lenders.lean can touch, that it goes onward and that it keeps the invariant. -/

namespace Sys2Proof.Machine

theorem loseAnchor_keeps (i) (s : State) : Keeps 3262924864 s (loseAnchor i s) := by
  unfold loseAnchor
  split
  · rename_i v1 v2
    exact Keeps.refl
  · rename_i v3 v4 v5
    refine Keeps.ite ?_ ?_
    · exact Keeps.refl
    · extract_lets +onlyGivenNames x6
      refine Keeps.cut (p := Keeps 3262924864 s x6) ?_ (fun k7 => ?_)
      · dsimp -zeta only [x6]
        refine Keeps.step (modAnchor_keeps ..) rfl ?_
        exact Keeps.refl
      clear_value x6
      extract_lets +onlyGivenNames x8
      refine Keeps.cut (p := Keeps 3262924864 s x8) ?_ (fun k9 => ?_)
      · dsimp -zeta only [x8]
        refine Keeps.step (setPool_keeps ..) rfl ?_
        exact k7
      clear_value x8
      split
      · rename_i v10 v11 v12
        refine Keeps.step (fanOut_keeps ..) rfl ?_
        refine Keeps.step (cairnAt_keeps ..) rfl ?_
        exact k9
      · rename_i v13 v14
        split
        rename_i v15 v16 v17 v18
        refine Keeps.cut (p := Keeps 3262924864 s v16) (KeepsP.ofEq ?_ v18) (fun k19 => ?_)
        · clear v18
          refine KeepsP.step (takeFree_keeps ..) rfl ?_
          exact k9
        clear v18
        refine Keeps.step (cairnAt_keeps ..) rfl ?_
        exact k19

theorem unwait_keeps (w) (s : State) : Keeps 4096 s (unwait w s) := by
  unfold unwait
  refine Keeps.step (setVrb_keeps ..) rfl ?_
  exact Keeps.refl

theorem withData_keeps (w) (got) (s : State) : Keeps 29578229857 s (withData w got s) := by
  unfold withData
  extract_lets +onlyGivenNames x1
  clear_value x1
  extract_lets +onlyGivenNames x2
  clear_value x2
  refine Keeps.ite ?_ ?_
  · refine Keeps.step (prefetchRun_keeps ..) rfl ?_
    exact Keeps.refl
  · refine Keeps.ite ?_ ?_
    · refine Keeps.step (memAttempt_keeps ..) rfl ?_
      exact Keeps.refl
    · refine Keeps.step (againLater_keeps ..) rfl ?_
      exact Keeps.refl

theorem bindAnswered_keeps (w) (resp) (st) (obj) (s : State) : KeepsP 18432 s (bindAnswered w resp st obj s) := by
  unfold bindAnswered
  extract_lets +onlyGivenNames x1
  clear_value x1
  refine KeepsP.ite ?_ ?_
  · refine KeepsP.ite ?_ ?_
    · split
      · rename_i v2 v3 v4
        refine KeepsP.mk ?_
        refine Keeps.step (sawMirror_keeps ..) rfl ?_
        refine Keeps.step (modRegion_keeps ..) rfl ?_
        exact Keeps.refl
      · rename_i v5 v6
        refine KeepsP.mk ?_
        exact Keeps.refl
    · refine KeepsP.mk ?_
      refine Keeps.step (dropRegions_keeps ..) rfl ?_
      exact Keeps.refl
  · refine KeepsP.ite ?_ ?_
    · refine KeepsP.ite ?_ ?_
      · refine KeepsP.mk ?_
        refine Keeps.step (modWindow_keeps ..) rfl ?_
        exact Keeps.refl
      · split
        · rename_i v7 v8 v9
          refine KeepsP.mk ?_
          refine Keeps.step (dropWindows_keeps ..) rfl ?_
          exact Keeps.refl
        · rename_i v10 v11
          refine KeepsP.mk ?_
          exact Keeps.refl
    · refine KeepsP.ite ?_ ?_
      · refine KeepsP.ite ?_ ?_
        · refine KeepsP.mk ?_
          exact Keeps.refl
        · refine KeepsP.mk ?_
          refine Keeps.step (modWindow_keeps ..) rfl ?_
          exact Keeps.refl
      · refine KeepsP.mk ?_
        exact Keeps.refl

theorem landWait_keeps (tag) (st) (obj) (d) (w) (s : State) : Keeps 29578229857 s (landWait tag st obj d w s) := by
  unfold landWait
  extract_lets +onlyGivenNames x1
  split
  · rename_i v2 v3 v4 v5
    refine Keeps.ite ?_ ?_
    · split
      rename_i v6 v7 v8 v9
      refine Keeps.cut (p := Keeps 29578229857 s v7) (KeepsP.ofEq ?_ v9) (fun k10 => ?_)
      · clear v9
        refine KeepsP.step (failResp_keeps ..) rfl ?_
        refine Keeps.step (undefOut_keeps ..) rfl ?_
        refine Keeps.step (unwait_keeps ..) rfl ?_
        exact Keeps.refl
      clear v9
      refine Keeps.step (finishMem_keeps ..) rfl ?_
      refine Keeps.step (dropLoading_keeps ..) rfl ?_
      exact k10
    · extract_lets +onlyGivenNames x11
      clear_value x11
      extract_lets +onlyGivenNames x12
      clear_value x12
      refine Keeps.ite ?_ ?_
      · refine Keeps.step (withData_keeps ..) rfl ?_
        refine Keeps.step (unwait_keeps ..) rfl ?_
        exact Keeps.refl
      · dsimp -zeta only [x1]
        refine Keeps.step (setVrb_keeps ..) rfl ?_
        exact Keeps.refl
  · rename_i v13 v14 v15 v16 v17
    extract_lets +onlyGivenNames x18
    clear_value x18
    extract_lets +onlyGivenNames x19
    clear_value x19
    refine Keeps.ite ?_ ?_
    · refine Keeps.step (finishMem_keeps ..) rfl ?_
      refine Keeps.step (unwait_keeps ..) rfl ?_
      exact Keeps.refl
    · dsimp -zeta only [x1]
      refine Keeps.step (setVrb_keeps ..) rfl ?_
      exact Keeps.refl
  · rename_i v20 v21 v22 v23
    extract_lets +onlyGivenNames x24
    clear_value x24
    split
    rename_i v25 v26 v27 v28
    refine Keeps.cut (p := Keeps 29578229857 s v26) (KeepsP.ofEq ?_ v28) (fun k29 => ?_)
    · clear v28
      refine KeepsP.ite ?_ ?_
      · refine KeepsP.step (bindAnswered_keeps ..) rfl ?_
        refine Keeps.step (unwait_keeps ..) rfl ?_
        exact Keeps.refl
      · refine KeepsP.mk ?_
        exact Keeps.refl
    clear v28
    refine Keeps.ite ?_ ?_
    · split
      rename_i v30 v31 v32 v33
      refine Keeps.cut (p := Keeps 29578229857 s v31) (KeepsP.ofEq ?_ v33) (fun k34 => ?_)
      · clear v33
        refine KeepsP.ite ?_ ?_
        · refine KeepsP.mk ?_
          exact k29
        · refine KeepsP.step (failResp_keeps ..) rfl ?_
          refine Keeps.step (undefOut_keeps ..) rfl ?_
          exact k29
      clear v33
      refine Keeps.step (finishMem_keeps ..) rfl ?_
      exact k34
    · dsimp -zeta only [x1]
      refine Keeps.step (setVrb_keeps ..) rfl ?_
      exact Keeps.refl
  · rename_i v35 v36 v37 v38
    exact Keeps.refl

theorem landDesc_keeps (tag) (st) (d) (q) (x) (s : State) : Keeps 29578229857 s (landDesc tag st d q x s) := by
  unfold landDesc
  split
  · rename_i v1 v2 v3
    refine Keeps.ite ?_ ?_
    · split
      rename_i v4 v5 v6 v7 v8
      refine Keeps.cut (p := Keeps 29578229857 s v5) (KeepsP.ofEq ?_ v8) (fun k9 => ?_)
      · clear v8
        refine KeepsP.step (descStop_keeps ..) rfl ?_
        exact Keeps.refl
      clear v8
      refine Keeps.step (modDesc_keeps ..) rfl ?_
      exact k9
    · refine Keeps.step (modDesc_keeps ..) rfl ?_
      exact Keeps.refl
  · rename_i v10 v11
    refine Keeps.step (modDesc_keeps ..) rfl ?_
    exact Keeps.refl

theorem landFlight_keeps (tag) (st) (d) (n) (mover) (s : State) : Keeps 3263008832 s (landFlight tag st d n mover s) := by
  unfold landFlight
  split
  · rename_i v1 v2
    exact Keeps.refl
  · rename_i v3 v4 v5 v6
    refine Keeps.ite ?_ ?_
    · refine Keeps.step (abortRun_keeps ..) rfl ?_
      exact Keeps.refl
    · extract_lets +onlyGivenNames x7
      clear_value x7
      extract_lets +onlyGivenNames x8
      clear_value x8
      extract_lets +onlyGivenNames x9
      refine Keeps.cut (p := Keeps 3263008832 s x9) ?_ (fun k10 => ?_)
      · dsimp -zeta only [x9]
        refine Keeps.step (modFlight_keeps ..) rfl ?_
        refine Keeps.step (noteBreak_keeps ..) rfl ?_
        exact Keeps.refl
      clear_value x9
      extract_lets +onlyGivenNames x11
      clear_value x11
      refine Keeps.ite ?_ ?_
      · refine Keeps.step (opDone_keeps ..) rfl ?_
        exact k10
      · exact k10

theorem landTag_keeps (tag) (st) (obj) (d) (s : State) : Keeps 29578229857 s (landTag tag st obj d s) := by
  unfold landTag
  split
  · rename_i v1 v2 v3
    refine Keeps.step (landWait_keeps ..) rfl ?_
    exact Keeps.refl
  · rename_i v4 v5
    split
    · rename_i v6 v7 v8 v9
      refine Keeps.step (landDesc_keeps ..) rfl ?_
      exact Keeps.refl
    · rename_i v10 v11
      split
      · rename_i v12 v13 v14
        refine Keeps.step (landFlight_keeps ..) rfl ?_
        exact Keeps.refl
      · rename_i v15 v16
        exact Keeps.refl

theorem lenderAnswer_keeps (node) (p) (s : State) : Keeps 29595007073 s (lenderAnswer node p s) := by
  unfold lenderAnswer
  extract_lets +onlyGivenNames x1
  clear_value x1
  split
  · rename_i v2 v3
    exact Keeps.refl
  · rename_i v4 v5 v6
    refine Keeps.ite ?_ ?_
    · exact Keeps.refl
    · extract_lets +onlyGivenNames x7
      refine Keeps.cut (p := Keeps 29595007073 s x7) ?_ (fun k8 => ?_)
      · dsimp -zeta only [x7]
        refine Keeps.step (setPool_keeps ..) rfl ?_
        exact Keeps.refl
      clear_value x7
      extract_lets +onlyGivenNames x9
      refine Keeps.cut (p := Keeps 29595007073 s x9) ?_ (fun k10 => ?_)
      · dsimp -zeta only [x9]
        refine Keeps.ite ?_ ?_
        · exact k8
        · refine Keeps.step (loseAnchor_keeps ..) rfl ?_
          exact k8
      clear_value x9
      refine Keeps.step (revsAdvance_keeps ..) rfl ?_
      refine Keeps.step (landTag_keeps ..) rfl ?_
      exact k10

theorem execAnchorResponse_keeps (node) (p) (e) (s : State) : KeepsX 29997660257 s (execAnchorResponse node p e s) := by
  unfold execAnchorResponse
  refine KeepsX.next ?_
  refine Keeps.step (lenderAnswer_keeps ..) rfl ?_
  refine Keeps.step (applyEnv_keeps ..) rfl ?_
  exact Keeps.refl

theorem mirrorAnswer_keeps (node) (p) (s : State) : Keeps 29595007073 s (mirrorAnswer node p s) := by
  unfold mirrorAnswer
  extract_lets +onlyGivenNames x1
  clear_value x1
  refine Keeps.ite ?_ ?_
  · refine Keeps.step (revsAdvance_keeps ..) rfl ?_
    refine Keeps.step (landTag_keeps ..) rfl ?_
    refine Keeps.step (setPool_keeps ..) rfl ?_
    exact Keeps.refl
  · exact Keeps.refl

theorem execMirrorPeerResponse_keeps (node) (p) (e) (s : State) : KeepsX 29997660257 s (execMirrorPeerResponse node p e s) := by
  unfold execMirrorPeerResponse
  refine KeepsX.next ?_
  refine Keeps.step (mirrorAnswer_keeps ..) rfl ?_
  refine Keeps.step (applyEnv_keeps ..) rfl ?_
  exact Keeps.refl

theorem lenderLost_keeps (node) (s : State) : Keeps 29578229857 s (lenderLost node s) := by
  unfold lenderLost
  extract_lets +onlyGivenNames x1
  clear_value x1
  extract_lets +onlyGivenNames x2
  clear_value x2
  extract_lets +onlyGivenNames x3
  refine Keeps.cut (p := Keeps 29578229857 s x3) ?_ (fun k4 => ?_)
  · dsimp -zeta only [x3]
    refine Keeps.foldl (fun x5 a6 => ?_) ?_
    · refine Keeps.step (loseAnchor_keeps ..) rfl ?_
      exact Keeps.refl
    · refine Keeps.step (setPool_keeps ..) rfl ?_
      exact Keeps.refl
  clear_value x3
  refine Keeps.foldl (fun x7 a8 => ?_) ?_
  · refine Keeps.step (landTag_keeps ..) rfl ?_
    exact Keeps.refl
  · exact k4

theorem mirrorLost_keeps (node) (s : State) : Keeps 29578229857 s (mirrorLost node s) := by
  unfold mirrorLost
  extract_lets +onlyGivenNames x1
  clear_value x1
  refine Keeps.foldl (fun x2 a3 => ?_) ?_
  · refine Keeps.step (landTag_keeps ..) rfl ?_
    exact Keeps.refl
  · refine Keeps.step (setPool_keeps ..) rfl ?_
    exact Keeps.refl

end Sys2Proof.Machine
end

