-- ==== Sys2Proof/Laws/KeepsLink.lean ====
section
/-! SUPPORT. What each operation of Machine/Link.lean can touch, that it goes onward and that it keeps the invariant. -/

namespace Sys2Proof.Machine

theorem execSignalDetect_keeps (port) (m) (s : State) : KeepsX 3087269888 s (execSignalDetect port m s) := by
  unfold execSignalDetect
  extract_lets +onlyGivenNames x1
  refine Keeps.cut (p := Keeps 3087269888 s x1) ?_ (fun k2 => ?_)
  · dsimp -zeta only [x1]
    refine Keeps.step (atTime_keeps ..) rfl ?_
    exact Keeps.refl
  clear_value x1
  refine KeepsX.next ?_
  refine Keeps.ite ?_ ?_
  · refine Keeps.step (tryTrain_keeps ..) rfl ?_
    refine Keeps.step (modPort_keeps ..) rfl ?_
    exact k2
  · exact k2

theorem trainParam_keeps (k) (reqWidth) (goodMask) (credits) (s : State) : Keeps 3224109128 s (trainParam k reqWidth goodMask credits s) := by
  unfold trainParam
  extract_lets +onlyGivenNames x1
  clear_value x1
  refine Keeps.ite ?_ ?_
  · exact Keeps.refl
  · split
    · rename_i v2 v3
      refine Keeps.step (trainFail_keeps ..) rfl ?_
      exact Keeps.refl
    · rename_i v4 v5 v6 v7
      refine Keeps.ite ?_ ?_
      · refine Keeps.step (trainFail_keeps ..) rfl ?_
        exact Keeps.refl
      · refine Keeps.step (sendCtl_keeps ..) rfl ?_
        refine Keeps.step (sendTrainParam_keeps ..) rfl ?_
        refine Keeps.step (modPort_keeps ..) rfl ?_
        exact Keeps.refl

theorem rttEcho_keeps (k) (stamp) (s : State) : Keeps 3221487616 s (rttEcho k stamp s) := by
  unfold rttEcho
  extract_lets +onlyGivenNames x1
  clear_value x1
  refine Keeps.ite ?_ ?_
  · exact Keeps.refl
  · extract_lets +onlyGivenNames x2
    clear_value x2
    extract_lets +onlyGivenNames x3
    clear_value x3
    extract_lets +onlyGivenNames x4
    refine Keeps.cut (p := Keeps 3221487616 s x4) ?_ (fun k5 => ?_)
    · dsimp -zeta only [x4]
      refine Keeps.step (modPort_keeps ..) rfl ?_
      exact Keeps.refl
    clear_value x4
    refine Keeps.ite ?_ ?_
    · refine Keeps.step (sendCtl_keeps ..) rfl ?_
      exact k5
    · refine Keeps.step (enterVerify_keeps ..) rfl ?_
      refine Keeps.step (modPort_keeps ..) rfl ?_
      exact k5

theorem execTrainTimeout_keeps (port) (t) (s : State) : KeepsX 4163633224 s (execTrainTimeout port t s) := by
  unfold execTrainTimeout
  extract_lets +onlyGivenNames x1
  refine Keeps.cut (p := Keeps 4163633224 s x1) ?_ (fun k2 => ?_)
  · dsimp -zeta only [x1]
    refine Keeps.step (atTime_keeps ..) rfl ?_
    exact Keeps.refl
  clear_value x1
  extract_lets +onlyGivenNames x3
  clear_value x3
  refine KeepsX.next ?_
  refine Keeps.ite ?_ ?_
  · refine Keeps.step (trainFail_keeps ..) rfl ?_
    exact k2
  · exact k2

theorem execIdentSend_keeps (port) (t) (s : State) : KeepsX 3087269888 s (execIdentSend port t s) := by
  unfold execIdentSend
  extract_lets +onlyGivenNames x1
  refine Keeps.cut (p := Keeps 3087269888 s x1) ?_ (fun k2 => ?_)
  · dsimp -zeta only [x1]
    refine Keeps.step (atTime_keeps ..) rfl ?_
    exact Keeps.refl
  clear_value x1
  extract_lets +onlyGivenNames x3
  clear_value x3
  refine KeepsX.next ?_
  refine Keeps.ite ?_ ?_
  · refine Keeps.step (sendLm_keeps ..) rfl ?_
    exact k2
  · exact k2

theorem identCheck_keeps (k) (m) (s : State) : Keeps 3224109128 s (identCheck k m s) := by
  unfold identCheck
  extract_lets +onlyGivenNames x1
  clear_value x1
  extract_lets +onlyGivenNames x2
  clear_value x2
  refine Keeps.ite ?_ ?_
  · exact Keeps.refl
  · extract_lets +onlyGivenNames x3
    refine Keeps.cut (p := Keeps 3224109128 s x3) ?_ (fun k4 => ?_)
    · dsimp -zeta only [x3]
      refine Keeps.step (modPort_keeps ..) rfl ?_
      exact Keeps.refl
    clear_value x3
    extract_lets +onlyGivenNames x5
    clear_value x5
    extract_lets +onlyGivenNames x6
    clear_value x6
    refine Keeps.ite ?_ ?_
    · refine Keeps.step (verifyFail_keeps ..) rfl ?_
      exact k4
    · refine Keeps.ite ?_ ?_
      · refine Keeps.step (verifyFail_keeps ..) rfl ?_
        exact k4
      · refine Keeps.ite ?_ ?_
        · refine Keeps.step (verifyFail_keeps ..) rfl ?_
          exact k4
        · extract_lets +onlyGivenNames x7
          clear_value x7
          extract_lets +onlyGivenNames x8
          refine Keeps.cut (p := Keeps 3224109128 s x8) ?_ (fun k9 => ?_)
          · dsimp -zeta only [x8]
            refine Keeps.step (sendLm_keeps ..) rfl ?_
            refine Keeps.step (modPort_keeps ..) rfl ?_
            exact k4
          clear_value x8
          refine Keeps.step (verifyPass_keeps ..) rfl ?_
          exact k9

theorem identAcked_keeps (k) (m) (s : State) : Keeps 786440 s (identAcked k m s) := by
  unfold identAcked
  extract_lets +onlyGivenNames x1
  clear_value x1
  refine Keeps.ite ?_ ?_
  · refine Keeps.step (verifyPass_keeps ..) rfl ?_
    refine Keeps.step (modPort_keeps ..) rfl ?_
    exact Keeps.refl
  · exact Keeps.refl

theorem heartbeat_keeps (k) (m) (s : State) : Keeps 3224109128 s (heartbeat k m s) := by
  unfold heartbeat
  extract_lets +onlyGivenNames x1
  clear_value x1
  refine Keeps.ite ?_ ?_
  · exact Keeps.refl
  · refine Keeps.ite ?_ ?_
    · refine Keeps.step (portReset_keeps ..) rfl ?_
      refine Keeps.step (linkFlag_keeps ..) rfl ?_
      exact Keeps.refl
    · refine Keeps.step (modPort_keeps ..) rfl ?_
      exact Keeps.refl

theorem peerLeaves_keeps (k) (s : State) : Keeps 3224109128 s (peerLeaves k s) := by
  unfold peerLeaves
  split
  · rename_i v1 v2
    refine Keeps.step (modPort_keeps ..) rfl ?_
    refine Keeps.step (portDown_keeps ..) rfl ?_
    exact Keeps.refl
  · rename_i v3 v4
    refine Keeps.step (modPort_keeps ..) rfl ?_
    refine Keeps.step (portDown_keeps ..) rfl ?_
    exact Keeps.refl
  · rename_i v5 v6 v7
    exact Keeps.refl

theorem lmIn_keeps (k) (m) (s : State) : Keeps 3224109128 s (lmIn k m s) := by
  unfold lmIn
  split
  rename_i v1 v2 v3 v4
  refine Keeps.cut (p := Keeps 3224109128 s v2) (KeepsP.ofEq ?_ v4) (fun k5 => ?_)
  · clear v4
    refine KeepsP.step (takeIngress_keeps ..) rfl ?_
    exact Keeps.refl
  clear v4
  extract_lets +onlyGivenNames x6
  clear_value x6
  split
  · rename_i v7 v8
    refine Keeps.step (identCheck_keeps ..) rfl ?_
    exact k5
  · rename_i v9 v10
    refine Keeps.step (identAcked_keeps ..) rfl ?_
    exact k5
  · rename_i v11 v12
    refine Keeps.step (peerLeaves_keeps ..) rfl ?_
    exact k5
  · rename_i v13 v14 v15 v16
    refine Keeps.step (heartbeat_keeps ..) rfl ?_
    exact k5

theorem execIdent_keeps (port) (m) (t) (s : State) : KeepsX 4163633224 s (execIdent port m t s) := by
  unfold execIdent
  refine KeepsX.next ?_
  refine Keeps.step (lmIn_keeps ..) rfl ?_
  refine Keeps.step (atTime_keeps ..) rfl ?_
  exact Keeps.refl

theorem execIdentAck_keeps (port) (m) (t) (s : State) : KeepsX 4163633224 s (execIdentAck port m t s) := by
  unfold execIdentAck
  refine KeepsX.next ?_
  refine Keeps.step (lmIn_keeps ..) rfl ?_
  refine Keeps.step (atTime_keeps ..) rfl ?_
  exact Keeps.refl

theorem execVerifyTimeout_keeps (port) (t) (s : State) : KeepsX 4163633224 s (execVerifyTimeout port t s) := by
  unfold execVerifyTimeout
  extract_lets +onlyGivenNames x1
  refine Keeps.cut (p := Keeps 4163633224 s x1) ?_ (fun k2 => ?_)
  · dsimp -zeta only [x1]
    refine Keeps.step (atTime_keeps ..) rfl ?_
    exact Keeps.refl
  clear_value x1
  extract_lets +onlyGivenNames x3
  clear_value x3
  refine KeepsX.next ?_
  refine Keeps.ite ?_ ?_
  · refine Keeps.ite ?_ ?_
    · refine Keeps.step (verifyFail_keeps ..) rfl ?_
      exact k2
    · split
      rename_i v4 v5 v6 v7
      refine Keeps.cut (p := Keeps 4163633224 s v5) (KeepsP.ofEq ?_ v7) (fun k8 => ?_)
      · clear v7
        refine KeepsP.step (takeFree_keeps ..) rfl ?_
        exact k2
      clear v7
      refine Keeps.step (verifyFail_keeps ..) rfl ?_
      exact k8
  · exact k2

theorem execHeartbeatSend_keeps (port) (t) (s : State) : KeepsX 3087269888 s (execHeartbeatSend port t s) := by
  unfold execHeartbeatSend
  extract_lets +onlyGivenNames x1
  refine Keeps.cut (p := Keeps 3087269888 s x1) ?_ (fun k2 => ?_)
  · dsimp -zeta only [x1]
    refine Keeps.step (atTime_keeps ..) rfl ?_
    exact Keeps.refl
  clear_value x1
  extract_lets +onlyGivenNames x3
  clear_value x3
  refine KeepsX.next ?_
  refine Keeps.ite ?_ ?_
  · refine Keeps.step (sendLm_keeps ..) rfl ?_
    refine Keeps.step (modPort_keeps ..) rfl ?_
    exact k2
  · exact k2

theorem execHeartbeat_keeps (port) (m) (t) (s : State) : KeepsX 4163633224 s (execHeartbeat port m t s) := by
  unfold execHeartbeat
  refine KeepsX.next ?_
  refine Keeps.step (lmIn_keeps ..) rfl ?_
  refine Keeps.step (atTime_keeps ..) rfl ?_
  exact Keeps.refl

theorem execHbLoss_keeps (port) (t) (s : State) : KeepsX 4163633224 s (execHbLoss port t s) := by
  unfold execHbLoss
  extract_lets +onlyGivenNames x1
  refine Keeps.cut (p := Keeps 4163633224 s x1) ?_ (fun k2 => ?_)
  · dsimp -zeta only [x1]
    refine Keeps.step (atTime_keeps ..) rfl ?_
    exact Keeps.refl
  clear_value x1
  extract_lets +onlyGivenNames x3
  clear_value x3
  refine KeepsX.next ?_
  refine Keeps.ite ?_ ?_
  · refine Keeps.step (portReset_keeps ..) rfl ?_
    exact k2
  · exact k2

theorem execLeave_keeps (port) (t) (s : State) : KeepsX 4163633224 s (execLeave port t s) := by
  unfold execLeave
  refine KeepsX.next ?_
  refine Keeps.step (lmIn_keeps ..) rfl ?_
  refine Keeps.step (atTime_keeps ..) rfl ?_
  exact Keeps.refl

theorem execLos_keeps (port) (t) (s : State) : KeepsX 4163633224 s (execLos port t s) := by
  unfold execLos
  extract_lets +onlyGivenNames x1
  refine Keeps.cut (p := Keeps 4163633224 s x1) ?_ (fun k2 => ?_)
  · dsimp -zeta only [x1]
    refine Keeps.step (atTime_keeps ..) rfl ?_
    exact Keeps.refl
  clear_value x1
  refine KeepsX.next ?_
  refine Keeps.ite ?_ ?_
  · refine Keeps.step (modPort_keeps ..) rfl ?_
    exact k2
  · refine Keeps.step (portDown_keeps ..) rfl ?_
    refine Keeps.step (linkFlag_keeps ..) rfl ?_
    exact k2

theorem peerResets_keeps (k) (s : State) : Keeps 3224109128 s (peerResets k s) := by
  unfold peerResets
  split
  · rename_i v1 v2
    refine Keeps.step (portReset_keeps ..) rfl ?_
    refine Keeps.step (linkFlag_keeps ..) rfl ?_
    exact Keeps.refl
  · rename_i v3 v4
    refine Keeps.step (portReset_keeps ..) rfl ?_
    refine Keeps.step (linkFlag_keeps ..) rfl ?_
    exact Keeps.refl
  · rename_i v5 v6
    refine Keeps.step (portReset_keeps ..) rfl ?_
    refine Keeps.step (linkFlag_keeps ..) rfl ?_
    exact Keeps.refl
  · rename_i v7 v8 v9 v10
    exact Keeps.refl

theorem execLinkResetExit_keeps (port) (t) (s : State) : KeepsX 4163633224 s (execLinkResetExit port t s) := by
  unfold execLinkResetExit
  extract_lets +onlyGivenNames x1
  refine Keeps.cut (p := Keeps 4163633224 s x1) ?_ (fun k2 => ?_)
  · dsimp -zeta only [x1]
    refine Keeps.step (atTime_keeps ..) rfl ?_
    exact Keeps.refl
  clear_value x1
  extract_lets +onlyGivenNames x3
  clear_value x3
  refine KeepsX.next ?_
  refine Keeps.ite ?_ ?_
  · refine Keeps.step (portDown_keeps ..) rfl ?_
    exact k2
  · exact k2

theorem laneWindow_keeps (k) (lane) (corr) (uncorr) (s : State) : Keeps 262144 s (laneWindow k lane corr uncorr s) := by
  unfold laneWindow
  refine Keeps.step (modPort_keeps ..) rfl ?_
  exact Keeps.refl

theorem execLaneFault_keeps (port) (lane) (w) (s : State) : KeepsX 4163633224 s (execLaneFault port lane w s) := by
  unfold execLaneFault
  extract_lets +onlyGivenNames x1
  refine Keeps.cut (p := Keeps 4163633224 s x1) ?_ (fun k2 => ?_)
  · dsimp -zeta only [x1]
    refine Keeps.step (laneWindow_keeps ..) rfl ?_
    refine Keeps.step (atTime_keeps ..) rfl ?_
    exact Keeps.refl
  clear_value x1
  extract_lets +onlyGivenNames x3
  clear_value x3
  refine KeepsX.next ?_
  refine Keeps.ite ?_ ?_
  · refine Keeps.step (portReset_keeps ..) rfl ?_
    refine Keeps.step (linkFlag_keeps ..) rfl ?_
    refine Keeps.step (modPort_keeps ..) rfl ?_
    exact k2
  · exact k2

theorem execLaneExclusionExpiry_keeps (port) (lane) (t) (s : State) : KeepsX 939786240 s (execLaneExclusionExpiry port lane t s) := by
  unfold execLaneExclusionExpiry
  extract_lets +onlyGivenNames x1
  refine Keeps.cut (p := Keeps 939786240 s x1) ?_ (fun k2 => ?_)
  · dsimp -zeta only [x1]
    refine Keeps.step (atTime_keeps ..) rfl ?_
    exact Keeps.refl
  clear_value x1
  refine KeepsX.next ?_
  refine Keeps.step (modPort_keeps ..) rfl ?_
  exact k2

theorem execFlapHoldExpiry_keeps (port) (t) (s : State) : KeepsX 3087269888 s (execFlapHoldExpiry port t s) := by
  unfold execFlapHoldExpiry
  extract_lets +onlyGivenNames x1
  refine Keeps.cut (p := Keeps 3087269888 s x1) ?_ (fun k2 => ?_)
  · dsimp -zeta only [x1]
    refine Keeps.step (atTime_keeps ..) rfl ?_
    exact Keeps.refl
  clear_value x1
  refine KeepsX.next ?_
  split
  · rename_i v3 v4 v5
    refine Keeps.ite ?_ ?_
    · refine Keeps.step (tryTrain_keeps ..) rfl ?_
      refine Keeps.step (modPort_keeps ..) rfl ?_
      exact k2
    · exact k2
  · rename_i v6 v7
    exact k2

theorem execTrainingBackoffExpiry_keeps (port) (t) (s : State) : KeepsX 3087269888 s (execTrainingBackoffExpiry port t s) := by
  unfold execTrainingBackoffExpiry
  refine KeepsX.next ?_
  refine Keeps.step (tryTrain_keeps ..) rfl ?_
  refine Keeps.step (atTime_keeps ..) rfl ?_
  exact Keeps.refl

theorem tc4Count_keeps (k) (hdr) (s : State) : KeepsP 786432 s (tc4Count k hdr s) := by
  unfold tc4Count
  extract_lets +onlyGivenNames x1
  clear_value x1
  extract_lets +onlyGivenNames x2
  clear_value x2
  extract_lets +onlyGivenNames x3
  clear_value x3
  extract_lets +onlyGivenNames x4
  clear_value x4
  extract_lets +onlyGivenNames x5
  refine Keeps.cut (p := Keeps 786432 s x5) ?_ (fun k6 => ?_)
  · dsimp -zeta only [x5]
    refine Keeps.step (modPort_keeps ..) rfl ?_
    exact Keeps.refl
  clear_value x5
  refine KeepsP.mk ?_
  refine Keeps.ite ?_ ?_
  · refine Keeps.step (setRte_keeps ..) rfl ?_
    exact k6
  · exact k6

theorem packetIn_keeps (k) (tc) (demoted) (b) (s : State) : Keeps 262144 s (packetIn k tc demoted b s) := by
  unfold packetIn
  refine Keeps.step (setLnk_keeps ..) rfl ?_
  exact Keeps.refl

theorem slotIn_keeps (k) (tc) (hdr) (b) (s : State) : KeepsP 3224109128 s (slotIn k tc hdr b s) := by
  unfold slotIn
  extract_lets +onlyGivenNames x1
  clear_value x1
  extract_lets +onlyGivenNames x2
  refine KeepsP.ite ?_ ?_
  · refine KeepsP.mk ?_
    exact Keeps.refl
  · split
    rename_i v3 v4 v5 v6
    refine Keeps.cut (p := Keeps 3224109128 s v4) (KeepsP.ofEq ?_ v6) (fun k7 => ?_)
    · clear v6
      refine KeepsP.ite ?_ ?_
      · refine KeepsP.step (tc4Count_keeps ..) rfl ?_
        exact Keeps.refl
      · refine KeepsP.mk ?_
        exact Keeps.refl
    clear v6
    refine KeepsP.ite ?_ ?_
    · extract_lets +onlyGivenNames x8
      clear_value x8
      refine KeepsP.ite ?_ ?_
      · dsimp -zeta only [x2]
        refine KeepsP.mk ?_
        refine Keeps.step (portReset_keeps ..) rfl ?_
        exact k7
      · refine KeepsP.ite ?_ ?_
        · refine KeepsP.mk ?_
          refine Keeps.step (packetIn_keeps ..) rfl ?_
          exact k7
        · refine KeepsP.mk ?_
          refine Keeps.step (modPort_keeps ..) rfl ?_
          exact k7
    · split
      · rename_i v9 v10
        dsimp -zeta only [x2]
        refine KeepsP.mk ?_
        refine Keeps.step (portReset_keeps ..) rfl ?_
        exact k7
      · rename_i v11 v12 v13
        extract_lets +onlyGivenNames x14
        clear_value x14
        refine KeepsP.ite ?_ ?_
        · refine KeepsP.mk ?_
          refine Keeps.step (packetIn_keeps ..) rfl ?_
          refine Keeps.step (modPort_keeps ..) rfl ?_
          exact k7
        · refine KeepsP.mk ?_
          refine Keeps.step (modPort_keeps ..) rfl ?_
          exact k7

theorem slotsIn_keeps (k) (info) (payload) (s : State) : Keeps 3224109128 s (slotsIn k info payload s) := by
  unfold slotsIn
  refine KeepsP.fst ?_
  refine KeepsP.foldl (fun x1 a2 => ?_) ?_
  · obtain ⟨y3, z4⟩ := x1
    dsimp -zeta only
    refine KeepsP.ite ?_ ?_
    · refine KeepsP.step (slotIn_keeps ..) rfl ?_
      exact Keeps.refl
    · refine KeepsP.mk ?_
      exact Keeps.refl
  · refine KeepsP.mk ?_
    exact Keeps.refl

theorem payloadIn_keeps (k) (flit) (s : State) : Keeps 3224109128 s (payloadIn k flit s) := by
  unfold payloadIn
  extract_lets +onlyGivenNames x1
  clear_value x1
  refine Keeps.ite ?_ ?_
  · exact Keeps.refl
  · extract_lets +onlyGivenNames x2
    clear_value x2
    refine Keeps.ite ?_ ?_
    · refine Keeps.step (sendCtl_keeps ..) rfl ?_
      refine Keeps.step (modPort_keeps ..) rfl ?_
      exact Keeps.refl
    · extract_lets +onlyGivenNames x3
      clear_value x3
      extract_lets +onlyGivenNames x4
      refine Keeps.cut (p := Keeps 3224109128 s x4) ?_ (fun k5 => ?_)
      · dsimp -zeta only [x4]
        refine Keeps.step (flitReturns_keeps ..) rfl ?_
        exact Keeps.refl
      clear_value x4
      refine Keeps.ite ?_ ?_
      · exact k5
      · extract_lets +onlyGivenNames x6
        clear_value x6
        refine Keeps.ite ?_ ?_
        · refine Keeps.step (modPort_keeps ..) rfl ?_
          exact k5
        · extract_lets +onlyGivenNames x7
          refine Keeps.cut (p := Keeps 3224109128 s x7) ?_ (fun k8 => ?_)
          · dsimp -zeta only [x7]
            refine Keeps.step (modPort_keeps ..) rfl ?_
            exact k5
          clear_value x7
          refine Keeps.step (payReturns_keeps ..) rfl ?_
          refine Keeps.step (slotsIn_keeps ..) rfl ?_
          exact k8

theorem nakIn_keeps (k) (seq) (s : State) : Keeps 3224109128 s (nakIn k seq s) := by
  unfold nakIn
  extract_lets +onlyGivenNames x1
  clear_value x1
  refine Keeps.ite ?_ ?_
  · refine Keeps.step (pumpPort_keeps ..) rfl ?_
    refine Keeps.step (replay_keeps ..) rfl ?_
    refine Keeps.step (ackFlits_keeps ..) rfl ?_
    exact Keeps.refl
  · exact Keeps.refl

theorem replayStartIn_keeps (k) (seq) (s : State) : Keeps 262144 s (replayStartIn k seq s) := by
  unfold replayStartIn
  extract_lets +onlyGivenNames x1
  refine Keeps.ite ?_ ?_
  · refine Keeps.step (modPort_keeps ..) rfl ?_
    exact Keeps.refl
  · exact Keeps.refl

theorem creditIn_keeps (k) (counts) (s : State) : Keeps 3224109128 s (creditIn k counts s) := by
  unfold creditIn
  refine Keeps.ite ?_ ?_
  · refine Keeps.step (pumpPort_keeps ..) rfl ?_
    refine Keeps.foldl (fun x1 a2 => ?_) ?_
    · refine Keeps.ite ?_ ?_
      · refine Keeps.step (creditBack_keeps ..) rfl ?_
        exact Keeps.refl
      · exact Keeps.refl
    · exact Keeps.refl
  · exact Keeps.refl

theorem lpiEnterIn_keeps (k) (s : State) : Keeps 262144 s (lpiEnterIn k s) := by
  unfold lpiEnterIn
  refine Keeps.ite ?_ ?_
  · refine Keeps.step (modPort_keeps ..) rfl ?_
    exact Keeps.refl
  · exact Keeps.refl

theorem ctlIn_keeps (k) (c) (s : State) : Keeps 3224109128 s (ctlIn k c s) := by
  unfold ctlIn
  split
  · rename_i v1 v2
    refine Keeps.step (nakIn_keeps ..) rfl ?_
    exact Keeps.refl
  · rename_i v3 v4
    refine Keeps.step (replayStartIn_keeps ..) rfl ?_
    exact Keeps.refl
  · rename_i v5 v6
    refine Keeps.step (peerResets_keeps ..) rfl ?_
    exact Keeps.refl
  · rename_i v7 v8
    refine Keeps.step (creditIn_keeps ..) rfl ?_
    exact Keeps.refl
  · rename_i v9 v10 v11 v12 v13
    refine Keeps.step (trainParam_keeps ..) rfl ?_
    exact Keeps.refl
  · rename_i v14 v15
    refine Keeps.step (sendCtl_keeps ..) rfl ?_
    exact Keeps.refl
  · rename_i v16 v17
    refine Keeps.step (rttEcho_keeps ..) rfl ?_
    exact Keeps.refl
  · rename_i v18
    refine Keeps.step (lpiEnterIn_keeps ..) rfl ?_
    exact Keeps.refl
  · rename_i v19
    refine Keeps.step (modPort_keeps ..) rfl ?_
    exact Keeps.refl

theorem otherIn_keeps (k) (flit) (s : State) : Keeps 3224109128 s (otherIn k flit s) := by
  unfold otherIn
  extract_lets +onlyGivenNames x1
  refine Keeps.cut (p := Keeps 3224109128 s x1) ?_ (fun k2 => ?_)
  · dsimp -zeta only [x1]
    refine Keeps.ite ?_ ?_
    · refine Keeps.step (flitReturns_keeps ..) rfl ?_
      refine Keeps.ite ?_ ?_
      · refine Keeps.step (modPort_keeps ..) rfl ?_
        exact Keeps.refl
      · exact Keeps.refl
    · exact Keeps.refl
  clear_value x1
  refine Keeps.ite ?_ ?_
  · split
    · rename_i v3 v4 v5
      refine Keeps.step (ctlIn_keeps ..) rfl ?_
      exact k2
    · rename_i v6 v7
      exact k2
  · exact k2

theorem flitIn_keeps (k) (flit) (s : State) : Keeps 3224109128 s (flitIn k flit s) := by
  unfold flitIn
  refine Keeps.ite ?_ ?_
  · refine Keeps.step (payloadIn_keeps ..) rfl ?_
    exact Keeps.refl
  · split
    · rename_i v1 v2
      exact Keeps.refl
    · rename_i v3 v4
      exact Keeps.refl
    · rename_i v5 v6 v7
      refine Keeps.ite ?_ ?_
      · refine Keeps.step (otherIn_keeps ..) rfl ?_
        exact Keeps.refl
      · refine Keeps.step (modPort_keeps ..) rfl ?_
        exact Keeps.refl

theorem execPayload_keeps (port) (flit) (e) (s : State) : KeepsX 21399337032 s (execPayload port flit e s) := by
  unfold execPayload
  refine KeepsX.next ?_
  refine Keeps.step (flitIn_keeps ..) rfl ?_
  refine Keeps.step (applyAll_keeps ..) rfl ?_
  exact Keeps.refl

theorem execIdle_keeps (port) (flit) (t) (s : State) : KeepsX 4163633224 s (execIdle port flit t s) := by
  unfold execIdle
  refine KeepsX.next ?_
  refine Keeps.step (flitIn_keeps ..) rfl ?_
  refine Keeps.step (atTime_keeps ..) rfl ?_
  exact Keeps.refl

theorem execTrainParam_keeps (port) (head) (param) (counts) (tail) (t) (s : State) : KeepsX 4163633224 s (execTrainParam port head param counts tail t s) := by
  unfold execTrainParam
  refine KeepsX.next ?_
  refine Keeps.step (flitIn_keeps ..) rfl ?_
  refine Keeps.step (atTime_keeps ..) rfl ?_
  exact Keeps.refl

theorem execRttProbe_keeps (port) (flit) (t) (s : State) : KeepsX 4163633224 s (execRttProbe port flit t s) := by
  unfold execRttProbe
  refine KeepsX.next ?_
  refine Keeps.step (flitIn_keeps ..) rfl ?_
  refine Keeps.step (atTime_keeps ..) rfl ?_
  exact Keeps.refl

theorem execRttEcho_keeps (port) (flit) (t) (s : State) : KeepsX 4163633224 s (execRttEcho port flit t s) := by
  unfold execRttEcho
  refine KeepsX.next ?_
  refine Keeps.step (flitIn_keeps ..) rfl ?_
  refine Keeps.step (atTime_keeps ..) rfl ?_
  exact Keeps.refl

theorem execResetFlit_keeps (port) (flit) (t) (s : State) : KeepsX 4163633224 s (execResetFlit port flit t s) := by
  unfold execResetFlit
  refine KeepsX.next ?_
  refine Keeps.step (flitIn_keeps ..) rfl ?_
  refine Keeps.step (atTime_keeps ..) rfl ?_
  exact Keeps.refl

theorem execLinkAckSend_keeps (port) (t) (s : State) : KeepsX 3087269888 s (execLinkAckSend port t s) := by
  unfold execLinkAckSend
  extract_lets +onlyGivenNames x1
  refine Keeps.cut (p := Keeps 3087269888 s x1) ?_ (fun k2 => ?_)
  · dsimp -zeta only [x1]
    refine Keeps.step (atTime_keeps ..) rfl ?_
    exact Keeps.refl
  clear_value x1
  extract_lets +onlyGivenNames x3
  clear_value x3
  refine KeepsX.next ?_
  refine Keeps.ite ?_ ?_
  · refine Keeps.step (sendIdle_keeps ..) rfl ?_
    exact k2
  · exact k2

theorem execNak_keeps (port) (flit) (t) (s : State) : KeepsX 4163633224 s (execNak port flit t s) := by
  unfold execNak
  refine KeepsX.next ?_
  refine Keeps.step (flitIn_keeps ..) rfl ?_
  refine Keeps.step (atTime_keeps ..) rfl ?_
  exact Keeps.refl

theorem execReplayStart_keeps (port) (flit) (t) (s : State) : KeepsX 4163633224 s (execReplayStart port flit t s) := by
  unfold execReplayStart
  refine KeepsX.next ?_
  refine Keeps.step (flitIn_keeps ..) rfl ?_
  refine Keeps.step (atTime_keeps ..) rfl ?_
  exact Keeps.refl

theorem execReplayTimeout_keeps (port) (t) (s : State) : KeepsX 4163633224 s (execReplayTimeout port t s) := by
  unfold execReplayTimeout
  extract_lets +onlyGivenNames x1
  refine Keeps.cut (p := Keeps 4163633224 s x1) ?_ (fun k2 => ?_)
  · dsimp -zeta only [x1]
    refine Keeps.step (atTime_keeps ..) rfl ?_
    exact Keeps.refl
  clear_value x1
  extract_lets +onlyGivenNames x3
  clear_value x3
  refine KeepsX.next ?_
  refine Keeps.ite ?_ ?_
  · refine Keeps.step (replay_keeps ..) rfl ?_
    exact k2
  · exact k2

theorem execCredit_keeps (port) (flit) (t) (s : State) : KeepsX 4163633224 s (execCredit port flit t s) := by
  unfold execCredit
  refine KeepsX.next ?_
  refine Keeps.step (flitIn_keeps ..) rfl ?_
  refine Keeps.step (atTime_keeps ..) rfl ?_
  exact Keeps.refl

theorem execCreditSend_keeps (port) (t) (s : State) : KeepsX 3087269888 s (execCreditSend port t s) := by
  unfold execCreditSend
  extract_lets +onlyGivenNames x1
  refine Keeps.cut (p := Keeps 3087269888 s x1) ?_ (fun k2 => ?_)
  · dsimp -zeta only [x1]
    refine Keeps.step (atTime_keeps ..) rfl ?_
    exact Keeps.refl
  clear_value x1
  extract_lets +onlyGivenNames x3
  clear_value x3
  refine KeepsX.next ?_
  refine Keeps.ite ?_ ?_
  · refine Keeps.step (sendCtl_keeps ..) rfl ?_
    refine Keeps.step (modPort_keeps ..) rfl ?_
    exact k2
  · exact k2

theorem execLpiEnter_keeps (port) (f) (s : State) : KeepsX 4163633224 s (execLpiEnter port f s) := by
  unfold execLpiEnter
  refine KeepsX.next ?_
  refine Keeps.step (flitIn_keeps ..) rfl ?_
  refine Keeps.step (atTime_keeps ..) rfl ?_
  exact Keeps.refl

theorem execLpiExit_keeps (port) (f) (s : State) : KeepsX 4163633224 s (execLpiExit port f s) := by
  unfold execLpiExit
  refine KeepsX.next ?_
  refine Keeps.step (flitIn_keeps ..) rfl ?_
  refine Keeps.step (atTime_keeps ..) rfl ?_
  exact Keeps.refl

theorem burst_keeps (k) (s : State) : Keeps 2147745792 s (burst k s) := by
  unfold burst
  extract_lets +onlyGivenNames x1
  clear_value x1
  split
  rename_i v2 v3 v4 v5
  refine Keeps.step (lineFlit_keeps ..) rfl ?_
  refine Keeps.step (modPort_keeps ..) rfl ?_
  exact Keeps.refl

theorem execLpiBurst_keeps (port) (t) (s : State) : KeepsX 3087269888 s (execLpiBurst port t s) := by
  unfold execLpiBurst
  extract_lets +onlyGivenNames x1
  refine Keeps.cut (p := Keeps 3087269888 s x1) ?_ (fun k2 => ?_)
  · dsimp -zeta only [x1]
    refine Keeps.step (atTime_keeps ..) rfl ?_
    exact Keeps.refl
  clear_value x1
  extract_lets +onlyGivenNames x3
  clear_value x3
  refine KeepsX.next ?_
  refine Keeps.ite ?_ ?_
  · refine Keeps.step (burst_keeps ..) rfl ?_
    exact k2
  · exact k2

theorem execKeepaliveLoss_keeps (port) (t) (s : State) : KeepsX 4163633224 s (execKeepaliveLoss port t s) := by
  unfold execKeepaliveLoss
  extract_lets +onlyGivenNames x1
  refine Keeps.cut (p := Keeps 4163633224 s x1) ?_ (fun k2 => ?_)
  · dsimp -zeta only [x1]
    refine Keeps.step (atTime_keeps ..) rfl ?_
    exact Keeps.refl
  clear_value x1
  extract_lets +onlyGivenNames x3
  clear_value x3
  refine KeepsX.next ?_
  refine Keeps.ite ?_ ?_
  · refine Keeps.step (portReset_keeps ..) rfl ?_
    exact k2
  · exact k2

theorem execRetrain_keeps (sess) (port) (t) (s : State) : KeepsX 34292629503 s (execRetrain sess port t s) := by
  unfold execRetrain
  refine KeepsX.next ?_
  refine Keeps.trans ?_ (withWrite_keeps (M := 34292629503) rfl (fun y1 => ?_))
  · exact Keeps.refl
  · refine Keeps.step (mgmtReply_keeps ..) rfl ?_
    refine Keeps.step (portReset_keeps ..) rfl ?_
    exact Keeps.refl

theorem clearHold_keeps (k) (s : State) : Keeps 2147745792 s (clearHold k s) := by
  unfold clearHold
  refine Keeps.step (tryTrain_keeps ..) rfl ?_
  refine Keeps.step (modPort_keeps ..) rfl ?_
  exact Keeps.refl

theorem execClearHold_keeps (sess) (port) (t) (s : State) : KeepsX 34292629503 s (execClearHold sess port t s) := by
  unfold execClearHold
  refine KeepsX.next ?_
  refine Keeps.trans ?_ (withWrite_keeps (M := 34292629503) rfl (fun y1 => ?_))
  · exact Keeps.refl
  · refine Keeps.step (mgmtReply_keeps ..) rfl ?_
    refine Keeps.step (clearHold_keeps ..) rfl ?_
    exact Keeps.refl

theorem writeLnkCtl_keeps (k) (v) (s : State) : Keeps 3224109128 s (writeLnkCtl k v s) := by
  unfold writeLnkCtl
  refine Keeps.ite ?_ ?_
  · exact Keeps.refl
  · extract_lets +onlyGivenNames x1
    clear_value x1
    extract_lets +onlyGivenNames x2
    refine Keeps.cut (p := Keeps 3224109128 s x2) ?_ (fun k3 => ?_)
    · dsimp -zeta only [x2]
      refine Keeps.step (modPort_keeps ..) rfl ?_
      exact Keeps.refl
    clear_value x2
    refine Keeps.ite ?_ ?_
    · refine Keeps.step (portReset_keeps ..) rfl ?_
      exact k3
    · refine Keeps.step (tryTrain_keeps ..) rfl ?_
      exact k3

theorem execAdminDown_keeps (sess) (port) (v) (t) (s : State) : KeepsX 34292629503 s (execAdminDown sess port v t s) := by
  unfold execAdminDown
  refine KeepsX.next ?_
  refine Keeps.trans ?_ (withWrite_keeps (M := 34292629503) rfl (fun y1 => ?_))
  · exact Keeps.refl
  · refine Keeps.step (mgmtReply_keeps ..) rfl ?_
    refine Keeps.step (writeLnkCtl_keeps ..) rfl ?_
    exact Keeps.refl

end Sys2Proof.Machine
end

