-- ==== Sys2Proof/Laws/KeepsPeerOps.lean ====
section
/-! SUPPORT. What each operation of Machine/PeerOps.lean can touch, that it goes onward and that it keeps the invariant. -/

namespace Sys2Proof.Machine

theorem endSession_keeps (node) (s : State) : Keeps 33554432 s (endSession node s) := by
  unfold endSession
  refine Keeps.step (setSec_keeps ..) rfl ?_
  exact Keeps.refl

theorem dropToOpen_keeps (node) (s : State) : Keeps 33554432 s (dropToOpen node s) := by
  unfold dropToOpen
  extract_lets +onlyGivenNames x1
  refine Keeps.step (setSec_keeps ..) rfl ?_
  exact Keeps.refl

theorem handshakeFailed_keeps (node) (s : State) : Keeps 33554432 s (handshakeFailed node s) := by
  unfold handshakeFailed
  split
  · rename_i v1 v2 v3
    refine Keeps.ite ?_ ?_
    · refine Keeps.step (endSession_keeps ..) rfl ?_
      refine Keeps.step (setSec_keeps ..) rfl ?_
      exact Keeps.refl
    · refine Keeps.ite ?_ ?_
      · refine Keeps.step (modSec_keeps ..) rfl ?_
        refine Keeps.step (setSec_keeps ..) rfl ?_
        exact Keeps.refl
      · exact Keeps.refl
  · rename_i v4 v5
    exact Keeps.refl

theorem exchangesLost_keeps (node) (s : State) : Keeps 29578229857 s (exchangesLost node s) := by
  unfold exchangesLost
  extract_lets +onlyGivenNames x1
  clear_value x1
  extract_lets +onlyGivenNames x2
  refine Keeps.cut (p := Keeps 29578229857 s x2) ?_ (fun k3 => ?_)
  · dsimp -zeta only [x2]
    refine Keeps.step (setPool_keeps ..) rfl ?_
    exact Keeps.refl
  clear_value x2
  refine Keeps.step (dropToOpen_keeps ..) rfl ?_
  refine Keeps.step (mirrorLost_keeps ..) rfl ?_
  refine Keeps.step (lenderLost_keeps ..) rfl ?_
  exact k3

theorem peerGone_keeps (node) (s : State) : Keeps 29595007073 s (peerGone node s) := by
  unfold peerGone
  extract_lets +onlyGivenNames x1
  clear_value x1
  extract_lets +onlyGivenNames x2
  refine Keeps.cut (p := Keeps 29595007073 s x2) ?_ (fun k3 => ?_)
  · dsimp -zeta only [x2]
    refine Keeps.step (setPool_keeps ..) rfl ?_
    exact Keeps.refl
  clear_value x2
  extract_lets +onlyGivenNames x4
  refine Keeps.cut (p := Keeps 29595007073 s x4) ?_ (fun k5 => ?_)
  · dsimp -zeta only [x4]
    refine Keeps.step (setE2e_keeps ..) rfl ?_
    exact k3
  clear_value x4
  extract_lets +onlyGivenNames x6
  refine Keeps.cut (p := Keeps 29595007073 s x6) ?_ (fun k7 => ?_)
  · dsimp -zeta only [x6]
    refine Keeps.step (dropToOpen_keeps ..) rfl ?_
    refine Keeps.step (mirrorLost_keeps ..) rfl ?_
    refine Keeps.step (lenderLost_keeps ..) rfl ?_
    exact k5
  clear_value x6
  refine Keeps.step (pumpWaitOut_keeps ..) rfl ?_
  refine Keeps.step (handshakeFailed_keeps ..) rfl ?_
  refine Keeps.step (leasesLost_keeps ..) rfl ?_
  exact k7

theorem peerLost_keeps (node) (s : State) : Keeps 29595007073 s (peerLost node s) := by
  unfold peerLost
  refine Keeps.step (peerGone_keeps ..) rfl ?_
  refine Keeps.step (setE2e_keeps ..) rfl ?_
  exact Keeps.refl

theorem blockPeer_keeps (node) (st) (s : State) : Keeps 29578229857 s (blockPeer node st s) := by
  unfold blockPeer
  refine Keeps.ite ?_ ?_
  · exact Keeps.refl
  · extract_lets +onlyGivenNames x1
    refine Keeps.cut (p := Keeps 29578229857 s x1) ?_ (fun k2 => ?_)
    · dsimp -zeta only [x1]
      refine Keeps.step (exchangesLost_keeps ..) rfl ?_
      refine Keeps.step (endSession_keeps ..) rfl ?_
      exact Keeps.refl
    clear_value x1
    extract_lets +onlyGivenNames x3
    refine Keeps.cut (p := Keeps 29578229857 s x3) ?_ (fun k4 => ?_)
    · dsimp -zeta only [x3]
      refine Keeps.step (modSec_keeps ..) rfl ?_
      refine Keeps.step (setSec_keeps ..) rfl ?_
      exact k2
    clear_value x3
    refine Keeps.step (cairnAlert_keeps ..) rfl ?_
    exact k4

theorem authFailure_keeps (node) (s : State) : Keeps 29578229857 s (authFailure node s) := by
  unfold authFailure
  extract_lets +onlyGivenNames x1
  refine Keeps.cut (p := Keeps 29578229857 s x1) ?_ (fun k2 => ?_)
  · dsimp -zeta only [x1]
    refine Keeps.step (setSec_keeps ..) rfl ?_
    exact Keeps.refl
  clear_value x1
  extract_lets +onlyGivenNames x3
  refine Keeps.cut (p := Keeps 29578229857 s x3) ?_ (fun k4 => ?_)
  · dsimp -zeta only [x3]
    refine Keeps.step (modSec_keeps ..) rfl ?_
    exact k2
  clear_value x3
  split
  · rename_i v5 v6 v7
    refine Keeps.ite ?_ ?_
    · refine Keeps.step (blockPeer_keeps ..) rfl ?_
      exact k4
    · exact k4
  · rename_i v8 v9
    exact k4

theorem makeSessionRoom_keeps (s : State) : KeepsP 33554432 s (makeSessionRoom s) := by
  unfold makeSessionRoom
  refine KeepsP.ite ?_ ?_
  · refine KeepsP.mk ?_
    exact Keeps.refl
  · split
    · rename_i v1 v2 v3
      refine KeepsP.mk ?_
      refine Keeps.step (endSession_keeps ..) rfl ?_
      exact Keeps.refl
    · rename_i v4 v5
      refine KeepsP.mk ?_
      exact Keeps.refl

theorem promoteProv_keeps (node) (s : State) : Keeps 29595007073 s (promoteProv node s) := by
  unfold promoteProv
  split
  · rename_i v1 v2
    exact Keeps.refl
  · rename_i v3 v4 v5
    extract_lets +onlyGivenNames x6
    refine Keeps.cut (p := Keeps 29595007073 s x6) ?_ (fun k7 => ?_)
    · dsimp -zeta only [x6]
      refine Keeps.step (exchangesLost_keeps ..) rfl ?_
      refine Keeps.step (setE2e_keeps ..) rfl ?_
      exact Keeps.refl
    clear_value x6
    refine Keeps.step (leasesLost_keeps ..) rfl ?_
    refine Keeps.step (setE2e_keeps ..) rfl ?_
    exact k7

end Sys2Proof.Machine
end

