-- ==== Sys2Proof/Laws/KeepsPowerOps.lean ====
section
/-! SUPPORT. What each operation of Machine/PowerOps.lean can touch, that it goes onward and that it keeps the invariant. -/

namespace Sys2Proof.Machine

theorem softStart_keeps (s : State) : Keeps 1 s (softStart s) := by
  unfold softStart
  extract_lets +onlyGivenNames x1
  clear_value x1
  refine Keeps.ite ?_ ?_
  · refine Keeps.step (setPwr_keeps ..) rfl ?_
    exact Keeps.refl
  · exact Keeps.refl

theorem leaveEnds_keeps (l) (s : State) : Keeps 33084669951 s (leaveEnds l s) := by
  unfold leaveEnds
  split
  · rename_i v1 v2
    refine Keeps.step (resetModule_keeps ..) rfl ?_
    exact Keeps.refl
  · rename_i v3 v4
    refine Keeps.step (resetModule_keeps ..) rfl ?_
    exact Keeps.refl
  · rename_i v5 v6
    extract_lets +onlyGivenNames x7
    refine Keeps.cut (p := Keeps 33084669951 s x7) ?_ (fun k8 => ?_)
    · dsimp -zeta only [x7]
      refine Keeps.step (resetModule_keeps ..) rfl ?_
      exact Keeps.refl
    clear_value x7
    refine Keeps.ite ?_ ?_
    · refine Keeps.step (alertPin_keeps ..) rfl ?_
      refine Keeps.step (softStart_keeps ..) rfl ?_
      refine Keeps.step (setPwr_keeps ..) rfl ?_
      exact k8
    · exact k8

theorem queuesLost_keeps (s : State) : Keeps 3263002688 s (queuesLost s) := by
  unfold queuesLost
  refine Keeps.foldl (fun x1 a2 => ?_) ?_
  · extract_lets +onlyGivenNames x3
    refine Keeps.cut (p := Keeps 3263002688 x1 x3) ?_ (fun k4 => ?_)
    · dsimp -zeta only [x3]
      refine Keeps.foldl (fun x5 a6 => ?_) ?_
      · extract_lets +onlyGivenNames x7
        clear_value x7
        refine Keeps.ite ?_ ?_
        · refine Keeps.step (descRecord_keeps ..) rfl ?_
          exact Keeps.refl
        · exact Keeps.refl
      · exact Keeps.refl
    clear_value x3
    refine Keeps.step (destroyDone_keeps ..) rfl ?_
    refine Keeps.step (modBq_keeps ..) rfl ?_
    exact k4
  · exact Keeps.refl

theorem heldLost_keeps (s : State) : Keeps 3262906432 s (heldLost s) := by
  unfold heldLost
  refine Keeps.foldl (fun x1 a2 => ?_) ?_
  · refine Keeps.step (sendQ_keeps ..) rfl ?_
    exact Keeps.refl
  · refine Keeps.step (setQos_keeps ..) rfl ?_
    exact Keeps.refl

theorem finishLeave_keeps (l) (s : State) : Keeps 34158411775 s (finishLeave l s) := by
  unfold finishLeave
  extract_lets +onlyGivenNames x1
  refine Keeps.cut (p := Keeps 34158411775 s x1) ?_ (fun k2 => ?_)
  · dsimp -zeta only [x1]
    refine Keeps.step (heldLost_keeps ..) rfl ?_
    refine Keeps.step (queuesLost_keeps ..) rfl ?_
    refine Keeps.step (completeAll_keeps ..) rfl ?_
    exact Keeps.refl
  clear_value x1
  extract_lets +onlyGivenNames x3
  refine Keeps.cut (p := Keeps 34158411775 s x3) ?_ (fun k4 => ?_)
  · dsimp -zeta only [x3]
    refine Keeps.foldl (fun x5 a6 => ?_) ?_
    · refine Keeps.step (sendMirrorHb_keeps ..) rfl ?_
      exact Keeps.refl
    · exact k2
  clear_value x3
  extract_lets +onlyGivenNames x7
  refine Keeps.cut (p := Keeps 34158411775 s x7) ?_ (fun k8 => ?_)
  · dsimp -zeta only [x7]
    refine Keeps.foldl (fun x9 a10 => ?_) ?_
    · refine Keeps.step (handoffPrimary_keeps ..) rfl ?_
      exact Keeps.refl
    · exact k4
  clear_value x7
  extract_lets +onlyGivenNames x11
  refine Keeps.cut (p := Keeps 34158411775 s x11) ?_ (fun k12 => ?_)
  · dsimp -zeta only [x11]
    refine Keeps.foldl (fun x13 a14 => ?_) ?_
    · refine Keeps.ite ?_ ?_
      · refine Keeps.step (sendLm_keeps ..) rfl ?_
        exact Keeps.refl
      · exact Keeps.refl
    · exact k8
  clear_value x11
  refine Keeps.step (leaveEnds_keeps ..) rfl ?_
  exact k12

theorem beginLeave_keeps (what) (cause) (s : State) : Keeps 34158411775 s (beginLeave what cause s) := by
  unfold beginLeave
  extract_lets +onlyGivenNames x1
  clear_value x1
  refine Keeps.ite ?_ ?_
  · refine Keeps.step (setBoot_keeps ..) rfl ?_
    exact Keeps.refl
  · refine Keeps.ite ?_ ?_
    · extract_lets +onlyGivenNames x2
      refine Keeps.cut (p := Keeps 34158411775 s x2) ?_ (fun k3 => ?_)
      · dsimp -zeta only [x2]
        refine Keeps.step (setBoot_keeps ..) rfl ?_
        exact Keeps.refl
      clear_value x2
      refine Keeps.ite ?_ ?_
      · refine Keeps.step (finishLeave_keeps ..) rfl ?_
        exact k3
      · exact k3
    · refine Keeps.step (leaveEnds_keeps ..) rfl ?_
      exact Keeps.refl

theorem leaveTimeout_keeps (s : State) : Keeps 34158411775 s (leaveTimeout s) := by
  unfold leaveTimeout
  split
  · rename_i v1 v2 v3
    refine Keeps.ite ?_ ?_
    · refine Keeps.step (finishLeave_keeps ..) rfl ?_
      exact Keeps.refl
    · exact Keeps.refl
  · rename_i v4 v5
    exact Keeps.refl

theorem orderlyShutdown_keeps (ch) (s : State) : Keeps 34158411775 s (orderlyShutdown ch s) := by
  unfold orderlyShutdown
  refine Keeps.ite ?_ ?_
  · exact Keeps.refl
  · refine Keeps.step (beginLeave_keeps ..) rfl ?_
    refine Keeps.step (setBel_keeps ..) rfl ?_
    exact Keeps.refl

theorem emergencyShutdown_keeps (ch) (v) (s : State) : Keeps 33084669951 s (emergencyShutdown ch v s) := by
  unfold emergencyShutdown
  refine Keeps.step (resetModule_keeps ..) rfl ?_
  refine Keeps.step (setBel_keeps ..) rfl ?_
  refine Keeps.step (emergRecord_keeps ..) rfl ?_
  exact Keeps.refl

theorem permitRestart_keeps (s : State) : Keeps 2147483905 s (permitRestart s) := by
  unfold permitRestart
  refine Keeps.ite ?_ ?_
  · refine Keeps.step (alertPin_keeps ..) rfl ?_
    refine Keeps.step (softStart_keeps ..) rfl ?_
    refine Keeps.step (setPwr_keeps ..) rfl ?_
    exact Keeps.refl
  · exact Keeps.refl

theorem powerLost_keeps (s : State) : Keeps 30937186303 s (powerLost s) := by
  unfold powerLost
  refine ⟨fun p => by cases p <;> first | exact fun _ => rfl | exact fun h => (nomatch h), ?_, ?_⟩
  · exact ⟨Nat.le_refl _, Nat.le_refl _, Nat.le_refl _, List.prefix_refl _, rfl, BitVec.and_self, BitVec.and_self⟩
  · exact fun _ => ⟨rfl, Nat.zero_le _, Nat.zero_le _, rfl⟩

end Sys2Proof.Machine
end

