-- ==== Sys2Proof/Laws/KeepsVerbs.lean ====
section
/-! SUPPORT. What each operation of Machine/Verbs.lean can touch, that it goes onward and that it keeps the invariant. -/

namespace Sys2Proof.Machine

theorem queryCaps_keeps (w) (s : State) : Keeps 3262910536 s (queryCaps w s) := by
  unfold queryCaps
  extract_lets +onlyGivenNames x1
  refine Keeps.cut (p := Keeps 3262910536 s x1) ?_ (fun k2 => ?_)
  · dsimp -zeta only [x1]
    refine Keeps.step (critRead1A_keeps _) rfl ?_
    refine Keeps.step (critReadHi_keeps _ _ (.inl rfl)) rfl ?_
    refine Keeps.step (noteStep4_keeps ..) rfl ?_
    exact Keeps.refl
  clear_value x1
  refine Keeps.step (sendResp_keeps ..) rfl ?_
  exact k2

theorem execQueryCaps_keeps (r) (e) (s : State) : KeepsX 4202437704 s (execQueryCaps r e s) := by
  unfold execQueryCaps
  extract_lets +onlyGivenNames x1
  clear_value x1
  refine KeepsX.next ?_
  refine Keeps.trans ?_ (runVerb_keeps (M := 4202437704) rfl (fun y2 y3 => ?_))
  · exact Keeps.refl
  · refine Keeps.step (queryCaps_keeps ..) rfl ?_
    exact Keeps.refl

theorem execEventReceived_keeps (r) (e) (s : State) : KeepsX 943722496 s (execEventReceived r e s) := by
  unfold execEventReceived
  extract_lets +onlyGivenNames x1
  refine Keeps.cut (p := Keeps 943722496 s x1) ?_ (fun k2 => ?_)
  · dsimp -zeta only [x1]
    refine Keeps.step (applyEnv_keeps ..) rfl ?_
    exact Keeps.refl
  clear_value x1
  refine KeepsX.next ?_
  split
  · rename_i v3 v4 v5
    refine Keeps.step (setVrb_keeps ..) rfl ?_
    exact k2
  · rename_i v6 v7
    exact k2

theorem loadInterval_keeps (s : State) : Keeps 17179889672 s (loadInterval s) := by
  unfold loadInterval
  extract_lets +onlyGivenNames x1
  refine Keeps.cut (p := Keeps 17179889672 s x1) ?_ (fun k2 => ?_)
  · dsimp -zeta only [x1]
    refine Keeps.step (noteStep4_keeps ..) rfl ?_
    exact Keeps.refl
  clear_value x1
  extract_lets +onlyGivenNames x3
  refine Keeps.cut (p := Keeps 17179889672 s x3) ?_ (fun k4 => ?_)
  · dsimp -zeta only [x3]
    refine Keeps.step (setVrb_keeps ..) rfl ?_
    exact k2
  clear_value x3
  extract_lets +onlyGivenNames x5
  refine Keeps.cut (p := Keeps 17179889672 s x5) ?_ (fun k6 => ?_)
  · dsimp -zeta only [x5]
    refine Keeps.step (setCoh_keeps ..) rfl ?_
    exact k4
  clear_value x5
  refine Keeps.step (upd_stks_keeps _ _ (fun h => by simp [h])) rfl ?_
  exact k6

theorem execLoadInterval_keeps (t) (s : State) : KeepsX 18119413768 s (execLoadInterval t s) := by
  unfold execLoadInterval
  refine KeepsX.next ?_
  refine Keeps.step (loadInterval_keeps ..) rfl ?_
  refine Keeps.step (atTime_keeps ..) rfl ?_
  exact Keeps.refl

end Sys2Proof.Machine
end

