-- ==== Sys2Proof/Laws/KeepsSpdm.lean ====
section
/-! SUPPORT. What each operation of Machine/Spdm.lean can touch, that it goes onward and that it keeps the invariant. -/

namespace Sys2Proof.Machine

theorem spdmSig_keeps (s : State) : KeepsP 1073741824 s (spdmSig s) := by
  unfold spdmSig
  refine KeepsP.step (freeBytes_keeps ..) rfl ?_
  exact Keeps.refl

theorem setNeg_keeps (m) (n) (s : State) : Keeps 33554432 s (setNeg m n s) := by
  unfold setNeg
  split
  · rename_i v1 v2 v3
    exact Keeps.refl
  · rename_i v4 v5
    refine Keeps.step (modSec_keeps ..) rfl ?_
    exact Keeps.refl

theorem spdmVersion_keeps (m) (s : State) : KeepsP 33554432 s (spdmVersion m s) := by
  unfold spdmVersion
  refine KeepsP.mk ?_
  refine Keeps.step (setNeg_keeps ..) rfl ?_
  exact Keeps.refl

theorem spdmCaps_keeps (m) (s : State) : KeepsP 1107296256 s (spdmCaps m s) := by
  unfold spdmCaps
  refine KeepsP.ite ?_ ?_
  · refine KeepsP.mk ?_
    exact Keeps.refl
  · split
    rename_i v1 v2 v3 v4
    refine Keeps.cut (p := Keeps 1107296256 s v2) (KeepsP.ofEq ?_ v4) (fun k5 => ?_)
    · clear v4
      refine KeepsP.step (freeBytes_keeps ..) rfl ?_
      exact Keeps.refl
    clear v4
    extract_lets +onlyGivenNames x6
    clear_value x6
    refine KeepsP.mk ?_
    refine Keeps.step (setNeg_keeps ..) rfl ?_
    exact k5

theorem spdmAlgs_keeps (m) (s : State) : KeepsP 33554432 s (spdmAlgs m s) := by
  unfold spdmAlgs
  extract_lets +onlyGivenNames x1
  clear_value x1
  refine KeepsP.ite ?_ ?_
  · refine KeepsP.mk ?_
    exact Keeps.refl
  · extract_lets +onlyGivenNames x2
    clear_value x2
    extract_lets +onlyGivenNames x3
    clear_value x3
    refine KeepsP.mk ?_
    refine Keeps.step (setNeg_keeps ..) rfl ?_
    exact Keeps.refl

theorem spdmDigests_keeps (m) (s : State) : KeepsP 0 s (spdmDigests m s) := by
  unfold spdmDigests
  refine KeepsP.ite ?_ ?_
  · refine KeepsP.mk ?_
    exact Keeps.refl
  · refine KeepsP.mk ?_
    exact Keeps.refl

theorem spdmCert_keeps (m) (s : State) : KeepsP 0 s (spdmCert m s) := by
  unfold spdmCert
  extract_lets +onlyGivenNames x1
  clear_value x1
  refine KeepsP.ite ?_ ?_
  · refine KeepsP.mk ?_
    exact Keeps.refl
  · refine KeepsP.ite ?_ ?_
    · refine KeepsP.mk ?_
      exact Keeps.refl
    · refine KeepsP.mk ?_
      exact Keeps.refl

theorem spdmChallenge_keeps (m) (s : State) : KeepsP 1090519040 s (spdmChallenge m s) := by
  unfold spdmChallenge
  extract_lets +onlyGivenNames x1
  clear_value x1
  refine KeepsP.ite ?_ ?_
  · refine KeepsP.mk ?_
    exact Keeps.refl
  · refine KeepsP.ite ?_ ?_
    · refine KeepsP.mk ?_
      exact Keeps.refl
    · split
      rename_i v2 v3 v4 v5
      refine Keeps.cut (p := Keeps 1090519040 s v3) (KeepsP.ofEq ?_ v5) (fun k6 => ?_)
      · clear v5
        refine KeepsP.step (draw_keeps ..) rfl ?_
        exact Keeps.refl
      clear v5
      extract_lets +onlyGivenNames x7
      clear_value x7
      split
      rename_i v8 v9 v10 v11
      refine Keeps.cut (p := Keeps 1090519040 s v9) (KeepsP.ofEq ?_ v11) (fun k12 => ?_)
      · clear v11
        refine KeepsP.step (spdmSig_keeps ..) rfl ?_
        exact k6
      clear v11
      refine KeepsP.mk ?_
      exact k12

theorem spdmMeas_keeps (m) (s : State) : KeepsP 1090519040 s (spdmMeas m s) := by
  unfold spdmMeas
  extract_lets +onlyGivenNames x1
  clear_value x1
  split
  · rename_i v2 v3
    refine KeepsP.mk ?_
    exact Keeps.refl
  · rename_i v4 v5 v6
    extract_lets +onlyGivenNames x7
    clear_value x7
    extract_lets +onlyGivenNames x8
    clear_value x8
    extract_lets +onlyGivenNames x9
    clear_value x9
    refine KeepsP.ite ?_ ?_
    · refine KeepsP.mk ?_
      exact Keeps.refl
    · extract_lets +onlyGivenNames x10
      clear_value x10
      split
      rename_i v11 v12 v13 v14
      refine Keeps.cut (p := Keeps 1090519040 s v12) (KeepsP.ofEq ?_ v14) (fun k15 => ?_)
      · clear v14
        refine KeepsP.step (draw_keeps ..) rfl ?_
        exact Keeps.refl
      clear v14
      split
      rename_i v16 v17 v18 v19
      refine Keeps.cut (p := Keeps 1090519040 s v17) (KeepsP.ofEq ?_ v19) (fun k20 => ?_)
      · clear v19
        refine KeepsP.step (spdmSig_keeps ..) rfl ?_
        exact k15
      clear v19
      refine KeepsP.mk ?_
      exact k20

theorem spdmKeyEx_keeps (m) (prov) (s : State) : KeepsP 1124073472 s (spdmKeyEx m prov s) := by
  unfold spdmKeyEx
  extract_lets +onlyGivenNames x1
  clear_value x1
  extract_lets +onlyGivenNames x2
  clear_value x2
  extract_lets +onlyGivenNames x3
  clear_value x3
  refine KeepsP.ite ?_ ?_
  · refine KeepsP.mk ?_
    exact Keeps.refl
  · refine KeepsP.ite ?_ ?_
    · refine KeepsP.mk ?_
      exact Keeps.refl
    · refine KeepsP.ite ?_ ?_
      · refine KeepsP.mk ?_
        exact Keeps.refl
      · refine KeepsP.ite ?_ ?_
        · refine KeepsP.mk ?_
          exact Keeps.refl
        · split
          rename_i v4 v5 v6 v7
          refine Keeps.cut (p := Keeps 1124073472 s v5) (KeepsP.ofEq ?_ v7) (fun k8 => ?_)
          · clear v7
            refine KeepsP.ite ?_ ?_
            · refine KeepsP.mk ?_
              exact Keeps.refl
            · refine KeepsP.step (makeSessionRoom_keeps ..) rfl ?_
              exact Keeps.refl
          clear v7
          refine KeepsP.ite ?_ ?_
          · refine KeepsP.mk ?_
            exact k8
          · extract_lets +onlyGivenNames x9
            refine Keeps.cut (p := Keeps 1124073472 s x9) ?_ (fun k10 => ?_)
            · dsimp -zeta only [x9]
              refine Keeps.step (modSec_keeps ..) rfl ?_
              exact k8
            clear_value x9
            split
            rename_i v11 v12 v13 v14
            refine Keeps.cut (p := Keeps 1124073472 s v12) (KeepsP.ofEq ?_ v14) (fun k15 => ?_)
            · clear v14
              refine KeepsP.step (draw_keeps ..) rfl ?_
              exact k10
            clear v14
            split
            rename_i v16 v17 v18 v19
            refine Keeps.cut (p := Keeps 1124073472 s v17) (KeepsP.ofEq ?_ v19) (fun k20 => ?_)
            · clear v19
              refine KeepsP.step (freeBytes_keeps ..) rfl ?_
              exact k15
            clear v19
            refine KeepsP.mk ?_
            exact k20

theorem openedSession_keeps (node) (requester) (root) (inc) (s : State) : Keeps 33554432 s (openedSession node requester root inc s) := by
  unfold openedSession
  extract_lets +onlyGivenNames x1
  clear_value x1
  extract_lets +onlyGivenNames x2
  clear_value x2
  extract_lets +onlyGivenNames x3
  clear_value x3
  extract_lets +onlyGivenNames x4
  clear_value x4
  extract_lets +onlyGivenNames x5
  refine Keeps.cut (p := Keeps 33554432 s x5) ?_ (fun k6 => ?_)
  · dsimp -zeta only [x5]
    refine Keeps.step (modSec_keeps ..) rfl ?_
    exact Keeps.refl
  clear_value x5
  extract_lets +onlyGivenNames x7
  refine Keeps.cut (p := Keeps 33554432 s x7) ?_ (fun k8 => ?_)
  · dsimp -zeta only [x7]
    refine Keeps.step (setSec_keeps ..) rfl ?_
    exact k6
  clear_value x7
  exact k8

theorem spdmFinish_keeps (m) (prov) (s : State) : KeepsP 29595007073 s (spdmFinish m prov s) := by
  unfold spdmFinish
  extract_lets +onlyGivenNames x1
  clear_value x1
  split
  · rename_i v2 v3
    refine KeepsP.mk ?_
    exact Keeps.refl
  · rename_i v4 v5 v6
    refine KeepsP.ite ?_ ?_
    · refine KeepsP.mk ?_
      exact Keeps.refl
    · split
      · rename_i v7 v8
        refine KeepsP.mk ?_
        refine Keeps.step (handshakeFailed_keeps ..) rfl ?_
        exact Keeps.refl
      · rename_i v9 v10 v11
        refine KeepsP.ite ?_ ?_
        · refine KeepsP.mk ?_
          refine Keeps.step (handshakeFailed_keeps ..) rfl ?_
          exact Keeps.refl
        · extract_lets +onlyGivenNames x12
          refine Keeps.cut (p := Keeps 29595007073 s x12) ?_ (fun k13 => ?_)
          · dsimp -zeta only [x12]
            refine Keeps.ite ?_ ?_
            · refine Keeps.step (promoteProv_keeps ..) rfl ?_
              exact Keeps.refl
            · exact Keeps.refl
          clear_value x12
          refine KeepsP.mk ?_
          refine Keeps.step (openedSession_keeps ..) rfl ?_
          exact k13

theorem spdmKeyUpdate_keeps (m) (s : State) : KeepsP 33554432 s (spdmKeyUpdate m s) := by
  unfold spdmKeyUpdate
  extract_lets +onlyGivenNames x1
  clear_value x1
  extract_lets +onlyGivenNames x2
  clear_value x2
  refine KeepsP.ite ?_ ?_
  · refine KeepsP.mk ?_
    exact Keeps.refl
  · extract_lets +onlyGivenNames x3
    clear_value x3
    extract_lets +onlyGivenNames x4
    refine Keeps.cut (p := Keeps 33554432 s x4) ?_ (fun k5 => ?_)
    · dsimp -zeta only [x4]
      refine Keeps.ite ?_ ?_
      · refine Keeps.step (modSec_keeps ..) rfl ?_
        exact Keeps.refl
      · exact Keeps.refl
    clear_value x4
    refine KeepsP.mk ?_
    exact k5

theorem spdmEnd_keeps (m) (s : State) : KeepsP 0 s (spdmEnd m s) := by
  unfold spdmEnd
  refine KeepsP.ite ?_ ?_
  · refine KeepsP.mk ?_
    exact Keeps.refl
  · refine KeepsP.mk ?_
    exact Keeps.refl

theorem spdmLimit_keeps (m) (s) : KeepsP 33554432 s.1 (spdmLimit m s) := by
  obtain ⟨s, b⟩ := s
  unfold spdmLimit
  dsimp -zeta only
  refine KeepsP.ite ?_ ?_
  · refine KeepsP.mk ?_
    exact Keeps.refl
  · refine KeepsP.mk ?_
    refine Keeps.step (modSec_keeps ..) rfl ?_
    exact Keeps.refl

theorem spdmChunkGet_keeps (m) (s : State) : KeepsP 33554432 s (spdmChunkGet m s) := by
  unfold spdmChunkGet
  extract_lets +onlyGivenNames x1
  clear_value x1
  extract_lets +onlyGivenNames x2
  clear_value x2
  extract_lets +onlyGivenNames x3
  clear_value x3
  extract_lets +onlyGivenNames x4
  clear_value x4
  refine KeepsP.ite ?_ ?_
  · refine KeepsP.mk ?_
    exact Keeps.refl
  · extract_lets +onlyGivenNames x5
    clear_value x5
    extract_lets +onlyGivenNames x6
    clear_value x6
    refine KeepsP.mk ?_
    refine Keeps.ite ?_ ?_
    · refine Keeps.step (modSec_keeps ..) rfl ?_
      exact Keeps.refl
    · exact Keeps.refl

theorem spdmEncap_keeps (m) (s : State) : KeepsP 33554432 s (spdmEncap m s) := by
  unfold spdmEncap
  extract_lets +onlyGivenNames x1
  clear_value x1
  extract_lets +onlyGivenNames x2
  clear_value x2
  extract_lets +onlyGivenNames x3
  split
  · rename_i v4 v5
    refine KeepsP.mk ?_
    exact Keeps.refl
  · rename_i v6 v7 v8
    refine KeepsP.ite ?_ ?_
    · refine KeepsP.mk ?_
      exact Keeps.refl
    · extract_lets +onlyGivenNames x9
      clear_value x9
      extract_lets +onlyGivenNames x10
      clear_value x10
      extract_lets +onlyGivenNames x11
      refine Keeps.cut (p := Keeps 33554432 s x11) ?_ (fun k12 => ?_)
      · dsimp -zeta only [x11]
        refine Keeps.step (modSec_keeps ..) rfl ?_
        exact Keeps.refl
      clear_value x11
      refine KeepsP.ite ?_ ?_
      · refine KeepsP.mk ?_
        exact k12
      · refine KeepsP.mk ?_
        exact k12

theorem spdmAnswer_keeps (m) (prov) (s : State) : KeepsP 29595007073 s (spdmAnswer m prov s) := by
  unfold spdmAnswer
  extract_lets +onlyGivenNames x1
  split
  · rename_i v2 v3
    dsimp -zeta only [x1]
    refine KeepsP.mk ?_
    refine KeepsP.fst ?_
    refine KeepsP.step (spdmVersion_keeps ..) rfl ?_
    exact Keeps.refl
  · rename_i v4 v5
    dsimp -zeta only [x1]
    refine KeepsP.mk ?_
    refine KeepsP.fst ?_
    refine KeepsP.step (spdmCaps_keeps ..) rfl ?_
    exact Keeps.refl
  · rename_i v6 v7
    dsimp -zeta only [x1]
    refine KeepsP.mk ?_
    refine KeepsP.fst ?_
    refine KeepsP.step (spdmAlgs_keeps ..) rfl ?_
    exact Keeps.refl
  · rename_i v8 v9
    dsimp -zeta only [x1]
    refine KeepsP.mk ?_
    refine KeepsP.fst ?_
    refine KeepsP.step (spdmDigests_keeps ..) rfl ?_
    exact Keeps.refl
  · rename_i v10 v11
    dsimp -zeta only [x1]
    refine KeepsP.mk ?_
    refine KeepsP.fst ?_
    refine KeepsP.step (spdmCert_keeps ..) rfl ?_
    exact Keeps.refl
  · rename_i v12 v13
    dsimp -zeta only [x1]
    refine KeepsP.mk ?_
    refine KeepsP.fst ?_
    refine KeepsP.step (spdmChallenge_keeps ..) rfl ?_
    exact Keeps.refl
  · rename_i v14 v15
    dsimp -zeta only [x1]
    refine KeepsP.mk ?_
    refine KeepsP.fst ?_
    refine KeepsP.step (spdmLimit_keeps ..) rfl ?_
    refine KeepsP.fst ?_
    refine KeepsP.step (spdmMeas_keeps ..) rfl ?_
    exact Keeps.refl
  · rename_i v16 v17
    dsimp -zeta only [x1]
    refine KeepsP.mk ?_
    refine KeepsP.fst ?_
    refine KeepsP.step (spdmKeyEx_keeps ..) rfl ?_
    exact Keeps.refl
  · rename_i v18 v19
    refine KeepsP.step (spdmFinish_keeps ..) rfl ?_
    exact Keeps.refl
  · rename_i v20 v21
    dsimp -zeta only [x1]
    refine KeepsP.mk ?_
    refine KeepsP.fst ?_
    refine KeepsP.step (spdmKeyUpdate_keeps ..) rfl ?_
    exact Keeps.refl
  · rename_i v22 v23
    dsimp -zeta only [x1]
    refine KeepsP.mk ?_
    refine KeepsP.fst ?_
    refine KeepsP.step (spdmEnd_keeps ..) rfl ?_
    exact Keeps.refl
  · rename_i v24 v25
    dsimp -zeta only [x1]
    refine KeepsP.mk ?_
    refine KeepsP.fst ?_
    refine KeepsP.step (spdmChunkGet_keeps ..) rfl ?_
    exact Keeps.refl
  · rename_i v26 v27
    dsimp -zeta only [x1]
    refine KeepsP.mk ?_
    refine KeepsP.fst ?_
    refine KeepsP.step (spdmEncap_keeps ..) rfl ?_
    exact Keeps.refl
  · rename_i v28 v29
    dsimp -zeta only [x1]
    refine KeepsP.mk ?_
    refine KeepsP.fst ?_
    refine KeepsP.step (spdmEncap_keeps ..) rfl ?_
    exact Keeps.refl
  · rename_i v30 v31 v32 v33 v34 v35 v36 v37 v38 v39 v40 v41 v42 v43 v44
    refine KeepsP.mk ?_
    exact Keeps.refl

theorem spdmChunkSend_keeps (m) (prov) (s : State) : KeepsP 29595007073 s (spdmChunkSend m prov s) := by
  unfold spdmChunkSend
  extract_lets +onlyGivenNames x1
  clear_value x1
  extract_lets +onlyGivenNames x2
  clear_value x2
  extract_lets +onlyGivenNames x3
  clear_value x3
  extract_lets +onlyGivenNames x4
  clear_value x4
  extract_lets +onlyGivenNames x5
  clear_value x5
  extract_lets +onlyGivenNames x6
  clear_value x6
  refine KeepsP.ite ?_ ?_
  · extract_lets +onlyGivenNames x7
    refine Keeps.cut (p := Keeps 29595007073 s x7) ?_ (fun k8 => ?_)
    · dsimp -zeta only [x7]
      refine Keeps.step (modSec_keeps ..) rfl ?_
      exact Keeps.refl
    clear_value x7
    split
    rename_i v9 v10 v11 v12 v13
    refine Keeps.cut (p := Keeps 29595007073 s v10) (KeepsP.ofEq ?_ v13) (fun k14 => ?_)
    · clear v13
      refine KeepsP.step (spdmAnswer_keeps ..) rfl ?_
      exact k8
    clear v13
    refine KeepsP.mk ?_
    exact k14
  · refine KeepsP.mk ?_
    refine Keeps.step (modSec_keeps ..) rfl ?_
    exact Keeps.refl

theorem spdmReply_modIfSession_keeps (node) (s : State) : Keeps 33554432 s (spdmReply.modIfSession node s) := by
  unfold spdmReply.modIfSession
  refine Keeps.ite ?_ ?_
  · refine Keeps.step (modSec_keeps ..) rfl ?_
    exact Keeps.refl
  · exact Keeps.refl

theorem spdmReply_keeps (w) (s) : Keeps 3262910528 s.1 (spdmReply w s) := by
  obtain ⟨s, b⟩ := s
  unfold spdmReply
  dsimp -zeta only
  extract_lets +onlyGivenNames x1
  clear_value x1
  extract_lets +onlyGivenNames x2
  clear_value x2
  extract_lets +onlyGivenNames x3
  clear_value x3
  extract_lets +onlyGivenNames x4
  clear_value x4
  extract_lets +onlyGivenNames x5
  clear_value x5
  extract_lets +onlyGivenNames x6
  refine Keeps.cut (p := Keeps 3262910528 s x6) ?_ (fun k7 => ?_)
  · dsimp -zeta only [x6]
    refine Keeps.step (sendQ_keeps ..) rfl ?_
    refine Keeps.step (countStatus_keeps ..) rfl ?_
    exact Keeps.refl
  clear_value x6
  extract_lets +onlyGivenNames x8
  refine Keeps.cut (p := Keeps 3262910528 s x8) ?_ (fun k9 => ?_)
  · dsimp -zeta only [x8]
    refine Keeps.step (spdmReply_modIfSession_keeps ..) rfl ?_
    exact k7
  clear_value x8
  refine Keeps.ite ?_ ?_
  · refine Keeps.step (flushToOpen_keeps ..) rfl ?_
    exact k9
  · refine Keeps.ite ?_ ?_
    · refine Keeps.step (endSession_keeps ..) rfl ?_
      exact k9
    · exact k9

theorem spdmServe_keeps {m : SpdmIn} {f : Bool → State → State × List Byte × Bool} {s : State} {M : Nat} (hm : 34292629503 ||| M = M)
    (h : ∀ a s, KeepsP M s (f a s)) : Keeps M s (spdmServe m f s) := by
  unfold spdmServe
  split
  · refine withSess_keeps (mask_trans rfl hm) (fun s => ?_)
    split
    rename_i y msg u e
    exact (KeepsP.ofEq (h false s) e).trans ((mgmtReply_keeps _ _ _ y).mono (mask_trans rfl hm))
  · refine runVerb_keeps (mask_trans rfl hm) (fun w s => ?_)
    split
    · exact (spdmReply_keeps w (s, spdmError errBusy 0, false)).mono (mask_trans rfl hm)
    · exact Keeps.trans (h w.prov s) ((spdmReply_keeps w _).mono (mask_trans rfl hm))

theorem spdmNext_keeps (node) (code) (msg) (s : State) : Keeps 3262922816 s (spdmNext node code msg s) := by
  unfold spdmNext
  refine Keeps.step (sendSpdm_keeps ..) rfl ?_
  refine Keeps.step (modSec_keeps ..) rfl ?_
  exact Keeps.refl

theorem spdmSendKeyEx_keeps (node) (s : State) : Keeps 3279700032 s (spdmSendKeyEx node s) := by
  unfold spdmSendKeyEx
  split
  rename_i v1 v2 v3 v4
  refine Keeps.cut (p := Keeps 3279700032 s v2) (KeepsP.ofEq ?_ v4) (fun k5 => ?_)
  · clear v4
    refine KeepsP.step (draw_keeps ..) rfl ?_
    exact Keeps.refl
  clear v4
  split
  rename_i v6 v7 v8 v9
  refine Keeps.cut (p := Keeps 3279700032 s v7) (KeepsP.ofEq ?_ v9) (fun k10 => ?_)
  · clear v9
    refine KeepsP.step (freeBytes_keeps ..) rfl ?_
    exact k5
  clear v9
  refine Keeps.step (spdmNext_keeps ..) rfl ?_
  exact k10

theorem spdmSendFinish_keeps (node) (s : State) : Keeps 3262922816 s (spdmSendFinish node s) := by
  unfold spdmSendFinish
  split
  rename_i v1 v2 v3 v4
  refine Keeps.cut (p := Keeps 3262922816 s v2) (KeepsP.ofEq ?_ v4) (fun k5 => ?_)
  · clear v4
    refine KeepsP.step (freeBytes_keeps ..) rfl ?_
    exact Keeps.refl
  clear v4
  refine Keeps.step (spdmNext_keeps ..) rfl ?_
  exact k5

theorem spdmAskCert_keeps (node) (n) (s : State) : Keeps 3262922816 s (spdmAskCert node n s) := by
  unfold spdmAskCert
  refine Keeps.step (spdmNext_keeps ..) rfl ?_
  exact Keeps.refl

theorem spdmDeliver_keeps (node) (l) (s : State) : Keeps 3262922816 s (spdmDeliver node l s) := by
  unfold spdmDeliver
  extract_lets +onlyGivenNames x1
  clear_value x1
  refine Keeps.ite ?_ ?_
  · refine Keeps.step (spdmNext_keeps ..) rfl ?_
    exact Keeps.refl
  · refine Keeps.step (spdmSendFinish_keeps ..) rfl ?_
    exact Keeps.refl

theorem spdmFinished_keeps (node) (root) (inc) (s : State) : Keeps 3262906432 s (spdmFinished node root inc s) := by
  unfold spdmFinished
  refine Keeps.step (flushToOpen_keeps ..) rfl ?_
  refine Keeps.step (openedSession_keeps ..) rfl ?_
  exact Keeps.refl

theorem spdmResponse_keeps (node) (inc) (l) (s : State) : Keeps 29595007073 s (spdmResponse node inc l s) := by
  unfold spdmResponse
  split
  · rename_i v1 v2
    exact Keeps.refl
  · rename_i v3 v4 v5
    refine Keeps.ite ?_ ?_
    · refine Keeps.ite ?_ ?_
      · refine Keeps.step (modSec_keeps ..) rfl ?_
        exact Keeps.refl
      · exact Keeps.refl
    · refine Keeps.ite ?_ ?_
      · exact Keeps.refl
      · split
        · rename_i v6 v7
          refine Keeps.step (spdmNext_keeps ..) rfl ?_
          exact Keeps.refl
        · rename_i v8 v9
          refine Keeps.step (spdmNext_keeps ..) rfl ?_
          exact Keeps.refl
        · rename_i v10 v11
          refine Keeps.step (spdmAskCert_keeps ..) rfl ?_
          refine Keeps.step (modSec_keeps ..) rfl ?_
          exact Keeps.refl
        · rename_i v12 v13
          extract_lets +onlyGivenNames x14
          clear_value x14
          extract_lets +onlyGivenNames x15
          refine Keeps.cut (p := Keeps 29595007073 s x15) ?_ (fun k16 => ?_)
          · dsimp -zeta only [x15]
            refine Keeps.step (modSec_keeps ..) rfl ?_
            exact Keeps.refl
          clear_value x15
          refine Keeps.ite ?_ ?_
          · refine Keeps.ite ?_ ?_
            · refine Keeps.step (exchangesLost_keeps ..) rfl ?_
              refine Keeps.step (handshakeFailed_keeps ..) rfl ?_
              exact k16
            · refine Keeps.step (spdmSendKeyEx_keeps ..) rfl ?_
              exact k16
          · refine Keeps.step (spdmAskCert_keeps ..) rfl ?_
            exact k16
        · rename_i v17 v18
          split
          · rename_i v19 v20 v21
            refine Keeps.ite ?_ ?_
            · extract_lets +onlyGivenNames x22
              refine Keeps.cut (p := Keeps 29595007073 s x22) ?_ (fun k23 => ?_)
              · dsimp -zeta only [x22]
                refine Keeps.step (modSec_keeps ..) rfl ?_
                exact Keeps.refl
              clear_value x22
              refine Keeps.ite ?_ ?_
              · refine Keeps.step (spdmSendFinish_keeps ..) rfl ?_
                exact k23
              · refine Keeps.step (spdmNext_keeps ..) rfl ?_
                exact k23
            · refine Keeps.step (exchangesLost_keeps ..) rfl ?_
              refine Keeps.step (handshakeFailed_keeps ..) rfl ?_
              exact Keeps.refl
          · rename_i v24 v25
            refine Keeps.step (exchangesLost_keeps ..) rfl ?_
            refine Keeps.step (handshakeFailed_keeps ..) rfl ?_
            exact Keeps.refl
        · rename_i v26 v27
          refine Keeps.step (spdmDeliver_keeps ..) rfl ?_
          exact Keeps.refl
        · rename_i v28 v29
          refine Keeps.step (spdmDeliver_keeps ..) rfl ?_
          exact Keeps.refl
        · rename_i v30 v31
          refine Keeps.ite ?_ ?_
          · refine Keeps.step (spdmFinished_keeps ..) rfl ?_
            exact Keeps.refl
          · refine Keeps.step (exchangesLost_keeps ..) rfl ?_
            refine Keeps.step (handshakeFailed_keeps ..) rfl ?_
            exact Keeps.refl
        · rename_i v32 v33
          refine Keeps.ite ?_ ?_
          · exact Keeps.refl
          · refine Keeps.step (exchangesLost_keeps ..) rfl ?_
            refine Keeps.step (handshakeFailed_keeps ..) rfl ?_
            exact Keeps.refl
        · rename_i v34 v35 v36 v37 v38 v39 v40 v41 v42 v43
          refine Keeps.step (exchangesLost_keeps ..) rfl ?_
          refine Keeps.step (handshakeFailed_keeps ..) rfl ?_
          exact Keeps.refl

theorem keyUpdates_keeps (s : State) : Keeps 3262922816 s (keyUpdates s) := by
  unfold keyUpdates
  refine Keeps.foldl (fun x1 a2 => ?_) ?_
  · extract_lets +onlyGivenNames x3
    clear_value x3
    extract_lets +onlyGivenNames x4
    clear_value x4
    split
    rename_i v5 v6 v7 v8
    refine Keeps.cut (p := Keeps 3262922816 x1 v6) (KeepsP.ofEq ?_ v8) (fun k9 => ?_)
    · clear v8
      refine KeepsP.step (freshTag_keeps ..) rfl ?_
      exact Keeps.refl
    clear v8
    extract_lets +onlyGivenNames x10
    clear_value x10
    refine Keeps.step (sendQ_keeps ..) rfl ?_
    refine Keeps.step (modSec_keeps ..) rfl ?_
    exact k9
  · exact Keeps.refl

end Sys2Proof.Machine
end

