-- ==== Sys2Proof/Laws/KeepsCtlOps.lean ====
section
/-! SUPPORT. What each operation of Machine/CtlOps.lean can touch, that it goes onward and that it keeps the invariant. -/

namespace Sys2Proof.Machine

theorem modCp_keeps (k) (f) (s : State) : Keeps 128 s (modCp k f s) := by
  unfold modCp
  refine Keeps.step (setCp_keeps ..) rfl ?_
  exact Keeps.refl

theorem cpRec_keeps (k) (code) (s : State) : KeepsP 2147483712 s (cpRec k code s) := by
  unfold cpRec
  refine KeepsP.step (queueRec_keeps ..) rfl ?_
  exact Keeps.refl

theorem switchTo_keeps (k) (code) (s : State) : Keeps 1073741952 s (switchTo k code s) := by
  unfold switchTo
  split
  rename_i v1 v2 v3 v4
  refine Keeps.cut (p := Keeps 1073741952 s v2) (KeepsP.ofEq ?_ v4) (fun k5 => ?_)
  · clear v4
    refine KeepsP.step (takeFree_keeps ..) rfl ?_
    exact Keeps.refl
  clear v4
  refine Keeps.step (setCp_keeps ..) rfl ?_
  refine Keeps.step (modCp_keeps ..) rfl ?_
  exact k5

theorem failCp_keeps (k) (code) (s : State) : Keeps 34158411775 s (failCp k code s) := by
  unfold failCp
  extract_lets +onlyGivenNames x1
  clear_value x1
  refine Keeps.ite ?_ ?_
  · exact Keeps.refl
  · extract_lets +onlyGivenNames x2
    clear_value x2
    extract_lets +onlyGivenNames x3
    refine Keeps.cut (p := Keeps 34158411775 s x3) ?_ (fun k4 => ?_)
    · dsimp -zeta only [x3]
      refine Keeps.step (modCp_keeps ..) rfl ?_
      refine Keeps.step (setIsl_keeps ..) rfl ?_
      exact Keeps.refl
    clear_value x3
    extract_lets +onlyGivenNames x5
    clear_value x5
    extract_lets +onlyGivenNames x6
    refine Keeps.cut (p := Keeps 34158411775 s x6) ?_ (fun k7 => ?_)
    · dsimp -zeta only [x6]
      refine Keeps.ite ?_ ?_
      · refine Keeps.step (switchTo_keeps ..) rfl ?_
        exact k4
      · exact k4
    clear_value x6
    split
    rename_i v8 v9 v10 v11
    refine Keeps.cut (p := Keeps 34158411775 s v9) (KeepsP.ofEq ?_ v11) (fun k12 => ?_)
    · clear v11
      refine KeepsP.step (cpRec_keeps ..) rfl ?_
      exact k7
    clear v11
    extract_lets +onlyGivenNames x13
    refine Keeps.cut (p := Keeps 34158411775 s x13) ?_ (fun k14 => ?_)
    · dsimp -zeta only [x13]
      refine Keeps.ite ?_ ?_
      · refine Keeps.step (alertAll_keeps ..) rfl ?_
        exact k12
      · exact k12
    clear_value x13
    refine Keeps.ite ?_ ?_
    · refine Keeps.step (resetModule_keeps ..) rfl ?_
      exact k14
    · exact k14

theorem forceSwitch_keeps (s : State) : Keeps 3221225664 s (forceSwitch s) := by
  unfold forceSwitch
  extract_lets +onlyGivenNames x1
  clear_value x1
  refine Keeps.ite ?_ ?_
  · refine KeepsP.fst ?_
    refine KeepsP.step (cpRec_keeps ..) rfl ?_
    refine Keeps.step (switchTo_keeps ..) rfl ?_
    refine Keeps.step (modCp_keeps ..) rfl ?_
    exact Keeps.refl
  · exact Keeps.refl

theorem controlCycle_keeps (s : State) : Keeps 3262924010 s (controlCycle s) := by
  unfold controlCycle
  split
  rename_i v1 v2 v3 v4
  refine Keeps.cut (p := Keeps 3262924010 s v2) (KeepsP.ofEq ?_ v4) (fun k5 => ?_)
  · clear v4
    refine KeepsP.step (takeFree_keeps ..) rfl ?_
    exact Keeps.refl
  clear v4
  extract_lets +onlyGivenNames x6
  clear_value x6
  extract_lets +onlyGivenNames x7
  clear_value x7
  extract_lets +onlyGivenNames x8
  refine Keeps.cut (p := Keeps 3262924010 s x8) ?_ (fun k9 => ?_)
  · dsimp -zeta only [x8]
    refine Keeps.step (setCp_keeps ..) rfl ?_
    exact k5
  clear_value x8
  extract_lets +onlyGivenNames x10
  refine Keeps.cut (p := Keeps 3262924010 s x10) ?_ (fun k11 => ?_)
  · dsimp -zeta only [x10]
    refine Keeps.ite ?_ ?_
    · refine Keeps.step (emit_keeps ..) rfl ?_
      refine Keeps.step (setCp_keeps ..) rfl ?_
      exact k9
    · refine Keeps.step (setCp_keeps ..) rfl ?_
      exact k9
  clear_value x10
  extract_lets +onlyGivenNames x12
  refine Keeps.cut (p := Keeps 3262924010 s x12) ?_ (fun k13 => ?_)
  · dsimp -zeta only [x12]
    refine Keeps.ite ?_ ?_
    · refine Keeps.step (setIsl_keeps ..) rfl ?_
      refine Keeps.step (modCp_keeps ..) rfl ?_
      exact k11
    · exact k11
  clear_value x12
  refine Keeps.step (keyUpdates_keeps ..) rfl ?_
  refine Keeps.step (critRewrite_keeps ..) rfl ?_
  exact k13

theorem deltaAck_keeps (cycle) (chk) (s : State) : Keeps 34158411775 s (deltaAck cycle chk s) := by
  unfold deltaAck
  refine Keeps.ite ?_ ?_
  · extract_lets +onlyGivenNames x1
    clear_value x1
    extract_lets +onlyGivenNames x2
    refine Keeps.cut (p := Keeps 34158411775 s x2) ?_ (fun k3 => ?_)
    · dsimp -zeta only [x2]
      refine Keeps.step (setCp_keeps ..) rfl ?_
      exact Keeps.refl
    clear_value x2
    refine Keeps.ite ?_ ?_
    · refine Keeps.step (failCp_keeps ..) rfl ?_
      refine Keeps.step (setCp_keeps ..) rfl ?_
      exact k3
    · refine Keeps.ite ?_ ?_
      · refine Keeps.step (failCp_keeps ..) rfl ?_
        refine Keeps.step (setCp_keeps ..) rfl ?_
        exact k3
      · refine Keeps.step (setCp_keeps ..) rfl ?_
        exact k3
  · exact Keeps.refl

theorem secondHang_keeps (s : State) : Keeps 34158411775 s (secondHang s) := by
  unfold secondHang
  refine Keeps.ite ?_ ?_
  · refine Keeps.step (failCp_keeps ..) rfl ?_
    exact Keeps.refl
  · exact Keeps.refl

theorem noDelta_keeps (s : State) : Keeps 34158411775 s (noDelta s) := by
  unfold noDelta
  refine Keeps.ite ?_ ?_
  · refine Keeps.ite ?_ ?_
    · refine Keeps.step (failCp_keeps ..) rfl ?_
      exact Keeps.refl
    · refine Keeps.step (failCp_keeps ..) rfl ?_
      exact Keeps.refl
  · exact Keeps.refl

theorem resyncDone_keeps (s : State) : Keeps 2147483840 s (resyncDone s) := by
  unfold resyncDone
  extract_lets +onlyGivenNames x1
  clear_value x1
  refine Keeps.ite ?_ ?_
  · refine KeepsP.fst ?_
    refine KeepsP.step (cpRec_keeps ..) rfl ?_
    refine Keeps.step (modCp_keeps ..) rfl ?_
    exact Keeps.refl
  · exact Keeps.refl

theorem applyLate_keeps (s : State) (x) : Keeps 34158411775 s (applyLate s x) := by
  unfold applyLate
  refine Keeps.ite ?_ ?_
  · refine Keeps.step (peerGone_keeps ..) rfl ?_
    refine Keeps.step (sramUe_keeps ..) rfl ?_
    exact Keeps.refl
  · refine Keeps.ite ?_ ?_
    · refine Keeps.step (failCp_keeps ..) rfl ?_
      refine Keeps.step (sramUe_keeps ..) rfl ?_
      exact Keeps.refl
    · exact Keeps.refl

theorem applyEvery_keeps (e) (s : State) : Keeps 34292629503 s (applyEvery e s) := by
  unfold applyEvery
  refine Keeps.foldl (fun x1 a2 => ?_) ?_
  · refine Keeps.step (applyLate_keeps ..) rfl ?_
    exact Keeps.refl
  · refine Keeps.step (applyAll_keeps ..) rfl ?_
    exact Keeps.refl

end Sys2Proof.Machine
end

