-- ==== Sys2Proof/Laws/KeepsFabric.lean ====
section
/-! SUPPORT. What each operation of Machine/Fabric.lean can touch, that it goes onward and that it keeps the invariant. -/

namespace Sys2Proof.Machine

theorem sendAckPkt_keeps (node) (inc) (ack) (space) (ece) (a) (s : State) : Keeps 3228303424 s (sendAckPkt node inc ack space ece a s) := by
  unfold sendAckPkt
  split
  rename_i v1 v2 v3 v4
  refine Keeps.cut (p := Keeps 3228303424 s v2) (KeepsP.ofEq ?_ v4) (fun k5 => ?_)
  · clear v4
    refine KeepsP.step (takeFree_keeps ..) rfl ?_
    exact Keeps.refl
  clear v4
  extract_lets +onlyGivenNames x6
  refine Keeps.cut (p := Keeps 3228303424 s x6) ?_ (fun k7 => ?_)
  · dsimp -zeta only [x6]
    refine Keeps.step (critRead00_keeps _) rfl ?_
    exact k5
  clear_value x6
  split
  rename_i v8 v9 v10 v11
  refine Keeps.cut (p := Keeps 3228303424 s v9) (KeepsP.ofEq ?_ v11) (fun k12 => ?_)
  · clear v11
    refine KeepsP.step (choosePort_keeps ..) rfl ?_
    exact k7
  clear v11
  extract_lets +onlyGivenNames x13
  clear_value x13
  split
  · rename_i v14 v15
    refine Keeps.step (toPort_keeps ..) rfl ?_
    exact k12
  · rename_i v16
    exact k12

theorem answerAck_keeps (node) (inc) (space) (a) (s : State) : Keeps 3228303424 s (answerAck node inc space a s) := by
  unfold answerAck
  split
  · rename_i v1 v2 v3
    refine Keeps.step (sendAckPkt_keeps ..) rfl ?_
    exact Keeps.refl
  · rename_i v4 v5
    split
    rename_i v6 v7 v8 v9
    refine Keeps.cut (p := Keeps 3228303424 s v7) (KeepsP.ofEq ?_ v9) (fun k10 => ?_)
    · clear v9
      refine KeepsP.step (takeFree_keeps ..) rfl ?_
      exact Keeps.refl
    clear v9
    refine Keeps.step (sendAckPkt_keeps ..) rfl ?_
    exact k10

theorem sendAck_keeps (node) (prov) (space) (s : State) : Keeps 3229352000 s (sendAck node prov space s) := by
  unfold sendAck
  split
  · rename_i v1 v2
    exact Keeps.refl
  · rename_i v3 v4 v5
    extract_lets +onlyGivenNames x6
    clear_value x6
    refine Keeps.ite ?_ ?_
    · extract_lets +onlyGivenNames x7
      refine Keeps.cut (p := Keeps 3229352000 s x7) ?_ (fun k8 => ?_)
      · dsimp -zeta only [x7]
        refine Keeps.step (modPeer_keeps ..) rfl ?_
        exact Keeps.refl
      clear_value x7
      extract_lets +onlyGivenNames x9
      refine Keeps.cut (p := Keeps 3229352000 s x9) ?_ (fun k10 => ?_)
      · dsimp -zeta only [x9]
        refine Keeps.step (modPeer_keeps ..) rfl ?_
        exact k8
      clear_value x9
      refine Keeps.step (sendAckPkt_keeps ..) rfl ?_
      exact k10
    · exact Keeps.refl

theorem ackIn_keeps (node) (prov) (space) (ack) (ece) (s : State) : Keeps 3262906432 s (ackIn node prov space ack ece s) := by
  unfold ackIn
  split
  · rename_i v1 v2
    exact Keeps.refl
  · rename_i v3 v4 v5
    extract_lets +onlyGivenNames x6
    clear_value x6
    extract_lets +onlyGivenNames x7
    refine Keeps.cut (p := Keeps 3262906432 s x7) ?_ (fun k8 => ?_)
    · dsimp -zeta only [x7]
      refine Keeps.step (modPeer_keeps ..) rfl ?_
      exact Keeps.refl
    clear_value x7
    refine Keeps.step (pumpPeer_keeps ..) rfl ?_
    exact k8

theorem sackIn_keeps (node) (prov) (space) (ack) (sack) (s : State) : Keeps 1048576 s (sackIn node prov space ack sack s) := by
  unfold sackIn
  refine Keeps.step (modPeer_keeps ..) rfl ?_
  exact Keeps.refl

theorem setExp_keeps (node) (prov) (space) (e) (s : State) : Keeps 34603008 s (setExp node prov space e s) := by
  unfold setExp
  extract_lets +onlyGivenNames x1
  refine Keeps.cut (p := Keeps 34603008 s x1) ?_ (fun k2 => ?_)
  · dsimp -zeta only [x1]
    refine Keeps.step (modPeer_keeps ..) rfl ?_
    exact Keeps.refl
  clear_value x1
  refine Keeps.ite ?_ ?_
  · refine Keeps.step (modSec_keeps ..) rfl ?_
    exact k2
  · exact k2

theorem streamIn_keeps (src) (a) (s : State) : Keeps 1081344 s (streamIn src a s) := by
  unfold streamIn
  split
  · rename_i v1 v2 v3 v4
    refine Keeps.step (noteBreak_keeps ..) rfl ?_
    refine Keeps.step (landEngine_keeps ..) rfl ?_
    refine Keeps.step (modEng_keeps ..) rfl ?_
    exact Keeps.refl
  · rename_i v5 v6
    refine Keeps.step (noteStreamDrop_keeps ..) rfl ?_
    exact Keeps.refl

theorem respIn_keeps (node) (inc) (prov) (p) (s : State) : Keeps 29595007073 s (respIn node inc prov p s) := by
  unfold respIn
  refine Keeps.ite ?_ ?_
  · exact Keeps.refl
  · refine Keeps.ite ?_ ?_
    · refine Keeps.ite ?_ ?_
      · exact Keeps.refl
      · refine Keeps.step (spdmResponse_keeps ..) rfl ?_
        exact Keeps.refl
    · refine Keeps.ite ?_ ?_
      · refine Keeps.step (lenderAnswer_keeps ..) rfl ?_
        exact Keeps.refl
      · refine Keeps.step (mirrorAnswer_keeps ..) rfl ?_
        exact Keeps.refl

theorem noteFinish_keeps (p) (s : State) : Keeps 33554432 s (noteFinish p s) := by
  unfold noteFinish
  extract_lets +onlyGivenNames x1
  clear_value x1
  refine Keeps.ite ?_ ?_
  · refine Keeps.step (modSec_keeps ..) rfl ?_
    exact Keeps.refl
  · exact Keeps.refl

theorem deliver_keeps (prov) (p) (s : State) : Keeps 29595007073 s (deliver prov p s) := by
  unfold deliver
  extract_lets +onlyGivenNames x1
  refine Keeps.cut (p := Keeps 29595007073 s x1) ?_ (fun k2 => ?_)
  · dsimp -zeta only [x1]
    refine Keeps.step (noteFinish_keeps ..) rfl ?_
    exact Keeps.refl
  clear_value x1
  split
  · rename_i v3 v4 v5
    extract_lets +onlyGivenNames x6
    refine Keeps.ite ?_ ?_
    · refine Keeps.ite ?_ ?_
      · exact k2
      · refine Keeps.step (sendResp_keeps ..) rfl ?_
        exact k2
    · refine Keeps.step (admitDelivered_keeps ..) rfl ?_
      exact k2
  · rename_i v7 v8 v9
    refine Keeps.step (respIn_keeps ..) rfl ?_
    exact k2
  · rename_i v10 v11 v12
    refine Keeps.step (streamIn_keeps ..) rfl ?_
    exact k2
  · rename_i v13 v14 v15
    exact k2

theorem deliverN_keeps (node) (prov) (space) (a) (s : State) : Keeps 29595007073 s (deliverN node prov space a s) := by
  induction a generalizing node prov space s
  · unfold deliverN
    exact Keeps.refl
  · rename_i v1 v2
    unfold deliverN
    split
    · rename_i v3 v4
      exact Keeps.refl
    · rename_i v5 v6 v7
      extract_lets +onlyGivenNames x8
      clear_value x8
      split
      · rename_i v9 v10
        exact Keeps.refl
      · rename_i v11 v12 v13
        refine Keeps.ite ?_ ?_
        · exact Keeps.refl
        · extract_lets +onlyGivenNames x14
          refine Keeps.cut (p := Keeps 29595007073 s x14) ?_ (fun k15 => ?_)
          · dsimp -zeta only [x14]
            refine Keeps.step (modPeer_keeps ..) rfl ?_
            exact Keeps.refl
          clear_value x14
          refine Keeps.step (v2 _ _ _ _) (Nat.or_self _) ?_
          refine Keeps.step (deliver_keeps ..) rfl ?_
          refine Keeps.step (setExp_keeps ..) rfl ?_
          exact k15

theorem reorder_keeps (node) (prov) (space) (p) (s : State) : Keeps 29595007073 s (reorder node prov space p s) := by
  unfold reorder
  split
  · rename_i v1 v2
    exact Keeps.refl
  · rename_i v3 v4 v5
    extract_lets +onlyGivenNames x6
    clear_value x6
    extract_lets +onlyGivenNames x7
    clear_value x7
    extract_lets +onlyGivenNames x8
    refine Keeps.ite ?_ ?_
    · refine Keeps.ite ?_ ?_
      · dsimp -zeta only [x8]
        refine Keeps.step (modPeer_keeps ..) rfl ?_
        refine Keeps.step (setE2e_keeps ..) rfl ?_
        exact Keeps.refl
      · refine Keeps.ite ?_ ?_
        · refine Keeps.step (setE2e_keeps ..) rfl ?_
          exact Keeps.refl
        · extract_lets +onlyGivenNames x9
          refine Keeps.cut (p := Keeps 29595007073 s x9) ?_ (fun k10 => ?_)
          · dsimp -zeta only [x9]
            refine Keeps.step (modPeer_keeps ..) rfl ?_
            exact Keeps.refl
          clear_value x9
          extract_lets +onlyGivenNames x11
          refine Keeps.cut (p := Keeps 29595007073 s x11) ?_ (fun k12 => ?_)
          · dsimp -zeta only [x11]
            refine Keeps.step (deliverN_keeps ..) rfl ?_
            exact k10
          clear_value x11
          extract_lets +onlyGivenNames x13
          clear_value x13
          extract_lets +onlyGivenNames x14
          refine Keeps.cut (p := Keeps 29595007073 s x14) ?_ (fun k15 => ?_)
          · dsimp -zeta only [x14]
            refine Keeps.ite ?_ ?_
            · refine Keeps.step (modPeer_keeps ..) rfl ?_
              exact k12
            · exact k12
          clear_value x14
          refine Keeps.step (setE2e_keeps ..) rfl ?_
          exact k15
    · refine Keeps.ite ?_ ?_
      · refine Keeps.step (setE2e_keeps ..) rfl ?_
        exact Keeps.refl
      · dsimp -zeta only [x8]
        refine Keeps.step (modPeer_keeps ..) rfl ?_
        refine Keeps.step (setE2e_keeps ..) rfl ?_
        exact Keeps.refl

theorem ackAtOnce_keeps (node) (prov) (space) (s : State) : Keeps 3229352000 s (ackAtOnce node prov space s) := by
  unfold ackAtOnce
  split
  · rename_i v1 v2 v3
    refine Keeps.ite ?_ ?_
    · refine Keeps.step (sendAck_keeps ..) rfl ?_
      exact Keeps.refl
    · exact Keeps.refl
  · rename_i v4 v5
    exact Keeps.refl

theorem sequenced_keeps (prov) (p) (s : State) : Keeps 29595007073 s (sequenced prov p s) := by
  unfold sequenced
  extract_lets +onlyGivenNames x1
  clear_value x1
  extract_lets +onlyGivenNames x2
  clear_value x2
  split
  · rename_i v3 v4
    exact Keeps.refl
  · rename_i v5 v6 v7
    extract_lets +onlyGivenNames x8
    clear_value x8
    extract_lets +onlyGivenNames x9
    refine Keeps.cut (p := Keeps 29595007073 s x9) ?_ (fun k10 => ?_)
    · dsimp -zeta only [x9]
      refine Keeps.step (modPeer_keeps ..) rfl ?_
      exact Keeps.refl
    clear_value x9
    refine Keeps.ite ?_ ?_
    · refine Keeps.step (answerAck_keeps ..) rfl ?_
      exact k10
    · extract_lets +onlyGivenNames x11
      refine Keeps.cut (p := Keeps 29595007073 s x11) ?_ (fun k12 => ?_)
      · dsimp -zeta only [x11]
        refine Keeps.ite ?_ ?_
        · refine Keeps.step (setExp_keeps ..) rfl ?_
          refine Keeps.step (modPeer_keeps ..) rfl ?_
          exact k10
        · exact k10
      clear_value x11
      extract_lets +onlyGivenNames x13
      refine Keeps.cut (p := Keeps 29595007073 s x13) ?_ (fun k14 => ?_)
      · dsimp -zeta only [x13]
        refine Keeps.ite ?_ ?_
        · refine Keeps.step (ackIn_keeps ..) rfl ?_
          exact k12
        · refine Keeps.ite ?_ ?_
          · refine Keeps.step (modPeer_keeps ..) rfl ?_
            exact k12
          · exact k12
      clear_value x13
      extract_lets +onlyGivenNames x15
      refine Keeps.cut (p := Keeps 29595007073 s x15) ?_ (fun k16 => ?_)
      · dsimp -zeta only [x15]
        refine Keeps.ite ?_ ?_
        · refine Keeps.step (modPeer_keeps ..) rfl ?_
          exact k14
        · exact k14
      clear_value x15
      refine Keeps.step (ackAtOnce_keeps ..) rfl ?_
      refine Keeps.step (reorder_keeps ..) rfl ?_
      exact k16

theorem ackPacket_keeps (prov) (p) (a) (s : State) : Keeps 29595007073 s (ackPacket prov p a s) := by
  unfold ackPacket
  extract_lets +onlyGivenNames x1
  clear_value x1
  refine Keeps.ite ?_ ?_
  · refine Keeps.step (peerGone_keeps ..) rfl ?_
    exact Keeps.refl
  · refine Keeps.ite ?_ ?_
    · refine Keeps.step (modPeer_keeps ..) rfl ?_
      exact Keeps.refl
    · extract_lets +onlyGivenNames x2
      refine Keeps.cut (p := Keeps 29595007073 s x2) ?_ (fun k3 => ?_)
      · dsimp -zeta only [x2]
        refine Keeps.step (modPeer_keeps ..) rfl ?_
        exact Keeps.refl
      clear_value x2
      refine Keeps.step (ackIn_keeps ..) rfl ?_
      refine Keeps.step (sackIn_keeps ..) rfl ?_
      exact k3

theorem newSource_keeps (p) (s : State) : Keeps 29595007073 s (newSource p s) := by
  unfold newSource
  split
  · rename_i v1 v2 v3
    exact Keeps.refl
  · rename_i v4 v5
    refine Keeps.ite ?_ ?_
    · split
      rename_i v6 v7 v8 v9
      refine Keeps.cut (p := Keeps 29595007073 s v7) (KeepsP.ofEq ?_ v9) (fun k10 => ?_)
      · clear v9
        refine KeepsP.step (newPeer_keeps ..) rfl ?_
        exact Keeps.refl
      clear v9
      refine Keeps.ite ?_ ?_
      · refine Keeps.step (sequenced_keeps ..) rfl ?_
        exact k10
      · exact k10
    · refine Keeps.step (answerAck_keeps ..) rfl ?_
      exact Keeps.refl

theorem underState_keeps (prov) (p) (s : State) : Keeps 29595007073 s (underState prov p s) := by
  unfold underState
  split
  · rename_i v1 v2 v3
    refine Keeps.step (ackPacket_keeps ..) rfl ?_
    exact Keeps.refl
  · rename_i v4 v5
    split
    · rename_i v6 v7
      refine Keeps.step (setSec_keeps ..) rfl ?_
      exact Keeps.refl
    · rename_i v8 v9
      refine Keeps.step (authFailure_keeps ..) rfl ?_
      exact Keeps.refl
    · rename_i v10 v11
      extract_lets +onlyGivenNames x12
      refine Keeps.cut (p := Keeps 29595007073 s x12) ?_ (fun k13 => ?_)
      · dsimp -zeta only [x12]
        refine Keeps.ite ?_ ?_
        · refine Keeps.step (modSec_keeps ..) rfl ?_
          exact Keeps.refl
        · exact Keeps.refl
      clear_value x12
      refine Keeps.ite ?_ ?_
      · refine Keeps.step (sequenced_keeps ..) rfl ?_
        exact k13
      · refine Keeps.step (newSource_keeps ..) rfl ?_
        exact k13

theorem staleDrop_keeps (s : State) : Keeps 1048576 s (staleDrop s) := by
  unfold staleDrop
  refine Keeps.step (setE2e_keeps ..) rfl ?_
  exact Keeps.refl

theorem incarnationTest_keeps (p) (s : State) : Keeps 29595007073 s (incarnationTest p s) := by
  unfold incarnationTest
  extract_lets +onlyGivenNames x1
  clear_value x1
  split
  · rename_i v2 v3
    refine Keeps.step (underState_keeps ..) rfl ?_
    exact Keeps.refl
  · rename_i v4 v5 v6
    refine Keeps.ite ?_ ?_
    · refine Keeps.step (underState_keeps ..) rfl ?_
      refine Keeps.step (modPeer_keeps ..) rfl ?_
      exact Keeps.refl
    · refine Keeps.ite ?_ ?_
      · refine Keeps.step (underState_keeps ..) rfl ?_
        exact Keeps.refl
      · extract_lets +onlyGivenNames x7
        split
        · rename_i v8 v9 v10
          refine Keeps.ite ?_ ?_
          · split
            · rename_i v11 v12 v13
              refine Keeps.step (underState_keeps ..) rfl ?_
              exact Keeps.refl
            · rename_i v14 v15
              refine Keeps.ite ?_ ?_
              · refine Keeps.step (underState_keeps ..) rfl ?_
                exact Keeps.refl
              · exact Keeps.refl
          · dsimp -zeta only [x7]
            refine Keeps.ite ?_ ?_
            · extract_lets +onlyGivenNames x16
              refine Keeps.cut (p := Keeps 29595007073 s x16) ?_ (fun k17 => ?_)
              · dsimp -zeta only [x16]
                refine Keeps.step (setE2e_keeps ..) rfl ?_
                exact Keeps.refl
              clear_value x16
              refine Keeps.ite ?_ ?_
              · refine Keeps.step (underState_keeps ..) rfl ?_
                refine KeepsP.fst ?_
                refine KeepsP.step (newPeer_keeps ..) rfl ?_
                exact k17
              · refine KeepsP.fst ?_
                refine KeepsP.step (newPeer_keeps ..) rfl ?_
                exact k17
            · refine Keeps.step (staleDrop_keeps ..) rfl ?_
              exact Keeps.refl
        · rename_i v18 v19
          dsimp -zeta only [x7]
          refine Keeps.ite ?_ ?_
          · extract_lets +onlyGivenNames x20
            refine Keeps.cut (p := Keeps 29595007073 s x20) ?_ (fun k21 => ?_)
            · dsimp -zeta only [x20]
              refine Keeps.step (setE2e_keeps ..) rfl ?_
              exact Keeps.refl
            clear_value x20
            refine Keeps.ite ?_ ?_
            · refine Keeps.step (underState_keeps ..) rfl ?_
              refine KeepsP.fst ?_
              refine KeepsP.step (newPeer_keeps ..) rfl ?_
              exact k21
            · refine KeepsP.fst ?_
              refine KeepsP.step (newPeer_keeps ..) rfl ?_
              exact k21
          · refine Keeps.step (staleDrop_keeps ..) rfl ?_
            exact Keeps.refl

theorem localPacket_keeps (p) (s : State) : Keeps 29595007081 s (localPacket p s) := by
  unfold localPacket
  refine Keeps.ite ?_ ?_
  · exact Keeps.refl
  · refine Keeps.ite ?_ ?_
    · refine Keeps.step (answerAck_keeps ..) rfl ?_
      refine Keeps.step (staleDrop_keeps ..) rfl ?_
      exact Keeps.refl
    · refine Keeps.ite ?_ ?_
      · refine Keeps.ite ?_ ?_
        · refine Keeps.step (setVrb_keeps ..) rfl ?_
          exact Keeps.refl
        · refine Keeps.step (setBoot_keeps ..) rfl ?_
          exact Keeps.refl
      · refine Keeps.step (incarnationTest_keeps ..) rfl ?_
        exact Keeps.refl

theorem transit_keeps (k) (tc) (raw) (p) (s : State) : Keeps 3222011904 s (transit k tc raw p s) := by
  unfold transit
  extract_lets +onlyGivenNames x1
  clear_value x1
  refine Keeps.ite ?_ ?_
  · refine Keeps.step (setRte_keeps ..) rfl ?_
    exact Keeps.refl
  · extract_lets +onlyGivenNames x2
    clear_value x2
    split
    · rename_i v3 v4 v5
      refine Keeps.cut (p := Keeps 3222011904 s v4) (KeepsP.ofEq ?_ v5) (fun k6 => ?_)
      · clear v5
        refine KeepsP.step (choosePort_keeps ..) rfl ?_
        exact Keeps.refl
      clear v5
      refine Keeps.step (setRte_keeps ..) rfl ?_
      exact k6
    · rename_i v7 v8 v9 v10
      refine Keeps.cut (p := Keeps 3222011904 s v8) (KeepsP.ofEq ?_ v10) (fun k11 => ?_)
      · clear v10
        refine KeepsP.step (choosePort_keeps ..) rfl ?_
        exact Keeps.refl
      clear v10
      extract_lets +onlyGivenNames x12
      clear_value x12
      refine Keeps.step (enqueue_keeps ..) rfl ?_
      exact k11

theorem tc4Slots_keeps (k) (n) (s : State) : KeepsP 786432 s (tc4Slots k n s) := by
  unfold tc4Slots
  split
  rename_i v1 v2 v3 v4
  refine Keeps.cut (p := Keeps 786432 s v2) (KeepsP.ofEq ?_ v4) (fun k5 => ?_)
  · clear v4
    refine KeepsP.step (tc4Count_keeps ..) rfl ?_
    exact Keeps.refl
  clear v4
  refine KeepsP.mk ?_
  refine Keeps.foldl (fun x6 a7 => ?_) ?_
  · refine KeepsP.fst ?_
    refine KeepsP.step (tc4Count_keeps ..) rfl ?_
    exact Keeps.refl
  · exact k5

theorem arriveNow_go_keeps (k) (tc) (raw) (p) (s : State) : Keeps 29595008105 s (arriveNow.go k tc raw p s) := by
  unfold arriveNow.go
  extract_lets +onlyGivenNames x1
  refine Keeps.cut (p := Keeps 29595008105 s x1) ?_ (fun k2 => ?_)
  · dsimp -zeta only [x1]
    refine Keeps.step (critRead19_keeps _) rfl ?_
    exact Keeps.refl
  clear_value x1
  refine Keeps.ite ?_ ?_
  · refine Keeps.step (localPacket_keeps ..) rfl ?_
    exact k2
  · refine Keeps.step (transit_keeps ..) rfl ?_
    exact k2

theorem arriveNow_keeps (k) (p) (s : State) : Keeps 29595008105 s (arriveNow k p s) := by
  unfold arriveNow
  refine Keeps.ite ?_ ?_
  · exact Keeps.refl
  · split
    · rename_i v1 v2 v3 v4
      refine Keeps.cut (p := Keeps 29595008105 s v2) (KeepsP.ofEq ?_ v4) (fun k5 => ?_)
      · clear v4
        refine KeepsP.step (takeIngress_keeps ..) rfl ?_
        exact Keeps.refl
      clear v4
      refine Keeps.step (arriveNow_go_keeps ..) rfl ?_
      exact k5
    · rename_i v6 v7 v8
      refine Keeps.cut (p := Keeps 29595008105 s v7) (KeepsP.ofEq ?_ v8) (fun k9 => ?_)
      · clear v8
        refine KeepsP.step (takeIngress_keeps ..) rfl ?_
        exact Keeps.refl
      clear v8
      refine Keeps.ite ?_ ?_
      · exact k9
      · refine Keeps.ite ?_ ?_
        · split
          rename_i v10 v11 v12 v13
          refine Keeps.cut (p := Keeps 29595008105 s v11) (KeepsP.ofEq ?_ v13) (fun k14 => ?_)
          · clear v13
            refine KeepsP.step (tc4Slots_keeps ..) rfl ?_
            exact k9
          clear v13
          refine Keeps.step (arriveNow_go_keeps ..) rfl ?_
          exact k14
        · refine Keeps.step (arriveNow_go_keeps ..) rfl ?_
          exact k9

theorem admitHeld_keeps (s : State) : Keeps 29595008105 s (admitHeld s) := by
  unfold admitHeld
  extract_lets +onlyGivenNames x1
  clear_value x1
  refine Keeps.foldl (fun x2 a3 => ?_) ?_
  · refine Keeps.step (arriveNow_keeps ..) rfl ?_
    exact Keeps.refl
  · refine Keeps.step (setE2e_keeps ..) rfl ?_
    exact Keeps.refl

theorem arrive_keeps (k) (p) (s : State) : Keeps 29595008105 s (arrive k p s) := by
  unfold arrive
  refine Keeps.ite ?_ ?_
  · refine Keeps.step (setE2e_keeps ..) rfl ?_
    exact Keeps.refl
  · refine Keeps.step (arriveNow_keeps ..) rfl ?_
    refine Keeps.ite ?_ ?_
    · exact Keeps.refl
    · refine Keeps.step (admitHeld_keeps ..) rfl ?_
      exact Keeps.refl

theorem execE2e_keeps (port) (p) (e) (s : State) : KeepsX 34292629503 s (execE2e port p e s) := by
  unfold execE2e
  refine KeepsX.next ?_
  refine Keeps.step (arrive_keeps ..) rfl ?_
  refine Keeps.step (applyEvery_keeps ..) rfl ?_
  exact Keeps.refl

theorem execStream_keeps (port) (p) (t) (s : State) : KeepsX 29997661289 s (execStream port p t s) := by
  unfold execStream
  refine KeepsX.next ?_
  refine Keeps.step (arrive_keeps ..) rfl ?_
  refine Keeps.step (atTime_keeps ..) rfl ?_
  exact Keeps.refl

theorem execE2eAck_keeps (port) (p) (t) (s : State) : KeepsX 29997661289 s (execE2eAck port p t s) := by
  unfold execE2eAck
  refine KeepsX.next ?_
  refine Keeps.step (arrive_keeps ..) rfl ?_
  refine Keeps.step (atTime_keeps ..) rfl ?_
  exact Keeps.refl

theorem execTransitForward_keeps (port) (p) (e) (s : State) : KeepsX 34292629503 s (execTransitForward port p e s) := by
  unfold execTransitForward
  refine KeepsX.next ?_
  refine Keeps.step (arrive_keeps ..) rfl ?_
  refine Keeps.step (applyEvery_keeps ..) rfl ?_
  exact Keeps.refl

theorem execTransitAgeDrop_keeps (i) (t) (s : State) : KeepsX 940310528 s (execTransitAgeDrop i t s) := by
  unfold execTransitAgeDrop
  extract_lets +onlyGivenNames x1
  refine Keeps.cut (p := Keeps 940310528 s x1) ?_ (fun k2 => ?_)
  · dsimp -zeta only [x1]
    refine Keeps.step (atTime_keeps ..) rfl ?_
    exact Keeps.refl
  clear_value x1
  refine KeepsX.next ?_
  split
  · rename_i v3 v4 v5 v6
    refine Keeps.ite ?_ ?_
    · refine Keeps.step (setRte_keeps ..) rfl ?_
      refine Keeps.step (modPort_keeps ..) rfl ?_
      exact k2
    · exact k2
  · rename_i v7 v8
    exact k2

theorem setSels_keeps (q) (f) (s : State) : Keeps 4294967296 s (setSels q f s) := by
  unfold setSels
  extract_lets +onlyGivenNames x1
  clear_value x1
  refine Keeps.step (upd_sels_keeps _ _) rfl ?_
  exact Keeps.refl

theorem stageRej_keeps (s : State) : Keeps 524288 s (stageRej s) := by
  unfold stageRej
  refine Keeps.step (setRte_keeps ..) rfl ?_
  exact Keeps.refl

theorem flip_keeps (s : State) : Keeps 2152202304 s (flip s) := by
  unfold flip
  extract_lets +onlyGivenNames x1
  refine Keeps.cut (p := Keeps 2152202304 s x1) ?_ (fun k2 => ?_)
  · dsimp -zeta only [x1]
    refine Keeps.step (critRead00_keeps _) rfl ?_
    exact Keeps.refl
  clear_value x1
  refine Keeps.ite ?_ ?_
  · refine Keeps.step (stageRej_keeps ..) rfl ?_
    exact k2
  · refine Keeps.step (critWrite_keeps ..) rfl ?_
    refine Keeps.step (setRte_keeps ..) rfl ?_
    exact k2

theorem execFlip_keeps (sess) (t) (s : State) : KeepsX 34292629503 s (execFlip sess t s) := by
  unfold execFlip
  refine KeepsX.next ?_
  refine Keeps.trans ?_ (withWrite_keeps (M := 34292629503) rfl (fun y1 => ?_))
  · exact Keeps.refl
  · refine Keeps.step (mgmtReply_keeps ..) rfl ?_
    refine Keeps.step (flip_keeps ..) rfl ?_
    exact Keeps.refl

theorem execDrainingEnd_keeps (t) (s : State) : KeepsX 3091726400 s (execDrainingEnd t s) := by
  unfold execDrainingEnd
  extract_lets +onlyGivenNames x1
  refine Keeps.cut (p := Keeps 3091726400 s x1) ?_ (fun k2 => ?_)
  · dsimp -zeta only [x1]
    refine Keeps.step (atTime_keeps ..) rfl ?_
    exact Keeps.refl
  clear_value x1
  refine KeepsX.next ?_
  refine Keeps.ite ?_ ?_
  · refine Keeps.step (critWrite_keeps ..) rfl ?_
    refine Keeps.step (setRte_keeps ..) rfl ?_
    refine Keeps.step (critRead00_keeps _) rfl ?_
    exact k2
  · exact k2

theorem grpSetWrite_keeps (copy) (group) (v) (s : State) : Keeps 2152202304 s (grpSetWrite copy group v s) := by
  unfold grpSetWrite
  extract_lets +onlyGivenNames x1
  refine Keeps.cut (p := Keeps 2152202304 s x1) ?_ (fun k2 => ?_)
  · dsimp -zeta only [x1]
    refine Keeps.step (critRead00_keeps _) rfl ?_
    exact Keeps.refl
  clear_value x1
  refine Keeps.ite ?_ ?_
  · refine Keeps.step (stageRej_keeps ..) rfl ?_
    exact k2
  · extract_lets +onlyGivenNames x3
    clear_value x3
    refine Keeps.step (setRte_keeps ..) rfl ?_
    exact k2

theorem execRteGrpSetWrite_keeps (sess) (v) (t) (s : State) : KeepsX 34292629503 s (execRteGrpSetWrite sess v t s) := by
  unfold execRteGrpSetWrite
  refine KeepsX.next ?_
  refine Keeps.trans ?_ (withWrite_keeps (M := 34292629503) rfl (fun y1 => ?_))
  · exact Keeps.refl
  · extract_lets +onlyGivenNames x2
    clear_value x2
    refine Keeps.step (mgmtReply_keeps ..) rfl ?_
    refine Keeps.step (grpSetWrite_keeps ..) rfl ?_
    exact Keeps.refl

theorem execE2eAckSend_keeps (node) (space) (t) (s : State) : KeepsX 29997660257 s (execE2eAckSend node space t s) := by
  unfold execE2eAckSend
  extract_lets +onlyGivenNames x1
  refine Keeps.cut (p := Keeps 29997660257 s x1) ?_ (fun k2 => ?_)
  · dsimp -zeta only [x1]
    refine Keeps.step (atTime_keeps ..) rfl ?_
    exact Keeps.refl
  clear_value x1
  refine KeepsX.next ?_
  refine Keeps.ite ?_ ?_
  · exact k2
  · refine Keeps.foldl (fun x3 a4 => ?_) ?_
    · extract_lets +onlyGivenNames x5
      refine Keeps.cut (p := Keeps 29997660257 x3 x5) ?_ (fun k6 => ?_)
      · dsimp -zeta only [x5]
        refine Keeps.step (deliverN_keeps ..) rfl ?_
        exact Keeps.refl
      clear_value x5
      split
      · rename_i v7 v8 v9
        extract_lets +onlyGivenNames x10
        clear_value x10
        refine Keeps.ite ?_ ?_
        · refine Keeps.step (sendAck_keeps ..) rfl ?_
          exact k6
        · exact k6
      · rename_i v11 v12
        exact k6
    · exact k2

theorem retransmit_keeps (p) (space) (x) (s : State) : Keeps 3229352000 s (retransmit p space x s) := by
  unfold retransmit
  extract_lets +onlyGivenNames x1
  refine Keeps.cut (p := Keeps 3229352000 s x1) ?_ (fun k2 => ?_)
  · dsimp -zeta only [x1]
    refine Keeps.step (setE2e_keeps ..) rfl ?_
    exact Keeps.refl
  clear_value x1
  extract_lets +onlyGivenNames x3
  refine Keeps.cut (p := Keeps 3229352000 s x3) ?_ (fun k4 => ?_)
  · dsimp -zeta only [x3]
    refine Keeps.step (modPeer_keeps ..) rfl ?_
    exact k2
  clear_value x3
  extract_lets +onlyGivenNames x5
  refine Keeps.cut (p := Keeps 3229352000 s x5) ?_ (fun k6 => ?_)
  · dsimp -zeta only [x5]
    refine Keeps.step (critRead00_keeps _) rfl ?_
    exact k4
  clear_value x5
  split
  rename_i v7 v8 v9 v10
  refine Keeps.cut (p := Keeps 3229352000 s v8) (KeepsP.ofEq ?_ v10) (fun k11 => ?_)
  · clear v10
    refine KeepsP.step (choosePort_keeps ..) rfl ?_
    exact k6
  clear v10
  extract_lets +onlyGivenNames x12
  clear_value x12
  extract_lets +onlyGivenNames x13
  clear_value x13
  extract_lets +onlyGivenNames x14
  refine Keeps.cut (p := Keeps 3229352000 s x14) ?_ (fun k15 => ?_)
  · dsimp -zeta only [x14]
    refine Keeps.step (modPeer_keeps ..) rfl ?_
    exact k11
  clear_value x14
  split
  · rename_i v16 v17
    refine Keeps.step (toPort_keeps ..) rfl ?_
    exact k15
  · rename_i v18
    exact k15

theorem limitReached_keeps (node) (prov) (s : State) : Keeps 29595007073 s (limitReached node prov s) := by
  unfold limitReached
  refine Keeps.ite ?_ ?_
  · extract_lets +onlyGivenNames x1
    refine Keeps.cut (p := Keeps 29595007073 s x1) ?_ (fun k2 => ?_)
    · dsimp -zeta only [x1]
      refine Keeps.step (setE2e_keeps ..) rfl ?_
      exact Keeps.refl
    clear_value x1
    refine Keeps.ite ?_ ?_
    · refine Keeps.step (handshakeFailed_keeps ..) rfl ?_
      exact k2
    · exact k2
  · refine Keeps.step (peerLost_keeps ..) rfl ?_
    exact Keeps.refl

theorem execE2eRetransmitTimeout_keeps (node) (space) (seq) (t) (s : State) : KeepsX 29997660257 s (execE2eRetransmitTimeout node space seq t s) := by
  unfold execE2eRetransmitTimeout
  extract_lets +onlyGivenNames x1
  refine Keeps.cut (p := Keeps 29997660257 s x1) ?_ (fun k2 => ?_)
  · dsimp -zeta only [x1]
    refine Keeps.step (atTime_keeps ..) rfl ?_
    exact Keeps.refl
  clear_value x1
  refine KeepsX.next ?_
  refine Keeps.ite ?_ ?_
  · exact k2
  · refine Keeps.foldl (fun x3 a4 => ?_) ?_
    · split
      · rename_i v5 v6
        exact Keeps.refl
      · rename_i v7 v8 v9
        split
        · rename_i v10 v11
          exact Keeps.refl
        · rename_i v12 v13 v14
          refine Keeps.ite ?_ ?_
          · exact Keeps.refl
          · refine Keeps.ite ?_ ?_
            · refine Keeps.step (retransmit_keeps ..) rfl ?_
              exact Keeps.refl
            · refine Keeps.step (limitReached_keeps ..) rfl ?_
              exact Keeps.refl
    · exact k2

theorem execDrainingPeerEviction_keeps (node) (t) (s : State) : KeepsX 4202430528 s (execDrainingPeerEviction node t s) := by
  unfold execDrainingPeerEviction
  extract_lets +onlyGivenNames x1
  refine Keeps.cut (p := Keeps 4202430528 s x1) ?_ (fun k2 => ?_)
  · dsimp -zeta only [x1]
    refine Keeps.step (atTime_keeps ..) rfl ?_
    exact Keeps.refl
  clear_value x1
  refine KeepsX.next ?_
  refine Keeps.foldl (fun x3 a4 => ?_) ?_
  · refine Keeps.ite ?_ ?_
    · refine Keeps.step (pumpWaitOut_keeps ..) rfl ?_
      refine Keeps.step (evictPeer_keeps ..) rfl ?_
      exact Keeps.refl
    · exact Keeps.refl
  · exact k2

theorem dropProvisional_keeps (s : State) : Keeps 29595007073 s (dropProvisional s) := by
  unfold dropProvisional
  refine Keeps.foldl (fun x1 a2 => ?_) ?_
  · refine Keeps.step (limitReached_keeps ..) rfl ?_
    exact Keeps.refl
  · exact Keeps.refl

end Sys2Proof.Machine
end

