-- ==== Sys2Proof/Laws/KeepsControl.lean ====
section
/-! SUPPORT. What each operation of Machine/Control.lean can touch, that it goes onward and that it keeps the invariant. -/

namespace Sys2Proof.Machine

theorem whenCps_keeps {t : Nat} {f : State → State} {s : State} {M : Nat} (hm : 939524096 ||| M = M)
    (h : ∀ s, Keeps M s (f s)) : Keeps M s (whenCps t f s) := by
  unfold whenCps
  extract_lets +onlyGivenNames x
  have k : Keeps M s x := (atTime_keeps t s).mono (mask_trans rfl hm)
  split
  · exact k.trans (h x)
  · exact k

theorem execControlCycle_keeps (t) (s : State) : KeepsX 29997661419 s (execControlCycle t s) := by
  unfold execControlCycle
  refine KeepsX.next ?_
  refine Keeps.trans ?_ (whenCps_keeps (M := 29997661419) rfl (fun y1 => ?_))
  · exact Keeps.refl
  · refine Keeps.step (dropProvisional_keeps ..) rfl ?_
    refine Keeps.step (controlCycle_keeps ..) rfl ?_
    exact Keeps.refl

theorem execDeltaAck_keeps (cycle) (chk) (t) (s : State) : KeepsX 34292629503 s (execDeltaAck cycle chk t s) := by
  unfold execDeltaAck
  refine KeepsX.next ?_
  refine Keeps.trans ?_ (whenCps_keeps (M := 34292629503) rfl (fun y1 => ?_))
  · exact Keeps.refl
  · refine Keeps.step (deltaAck_keeps ..) rfl ?_
    exact Keeps.refl

theorem execSecondHang_keeps (t) (s : State) : KeepsX 34292629503 s (execSecondHang t s) := by
  unfold execSecondHang
  refine KeepsX.next ?_
  refine Keeps.trans ?_ (whenCps_keeps (M := 34292629503) rfl (fun y1 => ?_))
  · exact Keeps.refl
  · refine Keeps.step (secondHang_keeps ..) rfl ?_
    exact Keeps.refl

theorem execNoDelta_keeps (t) (s : State) : KeepsX 34292629503 s (execNoDelta t s) := by
  unfold execNoDelta
  refine KeepsX.next ?_
  refine Keeps.trans ?_ (whenCps_keeps (M := 34292629503) rfl (fun y1 => ?_))
  · exact Keeps.refl
  · refine Keeps.step (noDelta_keeps ..) rfl ?_
    exact Keeps.refl

theorem execWatchdog_keeps (cp) (t) (s : State) : KeepsX 34292629503 s (execWatchdog cp t s) := by
  unfold execWatchdog
  refine KeepsX.next ?_
  refine Keeps.trans ?_ (whenCps_keeps (M := 34292629503) rfl (fun y1 => ?_))
  · exact Keeps.refl
  · refine Keeps.step (failCp_keeps ..) rfl ?_
    exact Keeps.refl

theorem execForceSwitch_keeps (sess) (t) (s : State) : KeepsX 34292629503 s (execForceSwitch sess t s) := by
  unfold execForceSwitch
  refine KeepsX.next ?_
  refine Keeps.trans ?_ (withWrite_keeps (M := 34292629503) rfl (fun y1 => ?_))
  · exact Keeps.refl
  · refine Keeps.step (mgmtReply_keeps ..) rfl ?_
    refine Keeps.ite ?_ ?_
    · refine Keeps.step (forceSwitch_keeps ..) rfl ?_
      exact Keeps.refl
    · exact Keeps.refl

theorem execResyncDone_keeps (t) (s : State) : KeepsX 3087007936 s (execResyncDone t s) := by
  unfold execResyncDone
  refine KeepsX.next ?_
  refine Keeps.trans ?_ (whenCps_keeps (M := 3087007936) rfl (fun y1 => ?_))
  · exact Keeps.refl
  · refine Keeps.step (resyncDone_keeps ..) rfl ?_
    exact Keeps.refl

theorem crnPop_keeps (seq : BitVec 32) (s : State) : Keeps 64 s (crnPop seq s) := by
  unfold crnPop
  split
  · exact Keeps.refl
  · rename_i r l e
    refine Keeps.ite (upd_crn_keeps _ _ (fun h => ?_) id) Keeps.refl
    rw [e] at h
    exact Nat.le_trans (Nat.le_succ _) h

theorem execCrnPop_keeps (sess) (seq) (t) (s : State) : KeepsX 34292629503 s (execCrnPop sess seq t s) := by
  unfold execCrnPop
  refine KeepsX.next ?_
  refine Keeps.trans ?_ (withWrite_keeps (M := 34292629503) rfl (fun y1 => ?_))
  · exact Keeps.refl
  · refine Keeps.step (mgmtReply_keeps ..) rfl ?_
    refine Keeps.step (crnPop_keeps ..) rfl ?_
    exact Keeps.refl

theorem execCairnMergeRelease_keeps (t) (s : State) : KeepsX 3087007808 s (execCairnMergeRelease t s) := by
  unfold execCairnMergeRelease
  refine KeepsX.next ?_
  refine Keeps.step (mergeRelease_keeps ..) rfl ?_
  refine Keeps.step (atTime_keeps ..) rfl ?_
  exact Keeps.refl

theorem execCairnCritFullAlert_keeps (t) (s : State) : KeepsX 3087007808 s (execCairnCritFullAlert t s) := by
  unfold execCairnCritFullAlert
  refine KeepsX.next ?_
  refine Keeps.step (critFullAlert_keeps ..) rfl ?_
  refine Keeps.step (atTime_keeps ..) rfl ?_
  exact Keeps.refl

theorem laserFail_keeps (bank) (s : State) : Keeps 1 s (laserFail bank s) := by
  unfold laserFail
  extract_lets +onlyGivenNames x1
  clear_value x1
  split
  rename_i v2 v3 v4 v5
  refine Keeps.ite ?_ ?_
  · refine Keeps.step (setPwr_keeps ..) rfl ?_
    exact Keeps.refl
  · refine Keeps.ite ?_ ?_
    · refine Keeps.step (setPwr_keeps ..) rfl ?_
      exact Keeps.refl
    · exact Keeps.refl

theorem execSwap_keeps (sess) (t) (s : State) : KeepsX 34292629503 s (execSwap sess t s) := by
  unfold execSwap
  refine KeepsX.next ?_
  refine Keeps.trans ?_ (withWrite_keeps (M := 34292629503) rfl (fun y1 => ?_))
  · exact Keeps.refl
  · refine Keeps.step (mgmtReply_keeps ..) rfl ?_
    refine Keeps.step (setPwr_keeps ..) rfl ?_
    exact Keeps.refl

end Sys2Proof.Machine
end

