-- ==== Sys2Proof/Laws/KeepsBelay.lean ====
section
/-! SUPPORT. What each operation of Machine/Belay.lean can touch, that it goes onward and that it keeps the invariant. -/

namespace Sys2Proof.Machine

theorem belRec_keeps (kind) (ch) (v) (alert) (s : State) : Keeps 2147483712 s (belRec kind ch v alert s) := by
  unfold belRec
  refine Keeps.ite ?_ ?_
  · exact Keeps.refl
  · refine Keeps.ite ?_ ?_
    · refine Keeps.step (cairnAlert_keeps ..) rfl ?_
      exact Keeps.refl
    · refine Keeps.step (cairn_keeps ..) rfl ?_
      exact Keeps.refl

theorem noteL_keeps (old) (s : State) : Keeps 3221225536 s (noteL old s) := by
  unfold noteL
  refine Keeps.ite ?_ ?_
  · exact Keeps.refl
  · split
    rename_i v1 v2 v3 v4
    refine Keeps.cut (p := Keeps 3221225536 s v2) (KeepsP.ofEq ?_ v4) (fun k5 => ?_)
    · clear v4
      refine KeepsP.step (takeFree_keeps ..) rfl ?_
      exact Keeps.refl
    clear v4
    refine Keeps.step (belRec_keeps ..) rfl ?_
    exact k5

theorem onAlert_keeps (ch) (c) (s : State) : Keeps 2147483968 s (onAlert ch c s) := by
  unfold onAlert
  refine Keeps.step (belRec_keeps ..) rfl ?_
  refine Keeps.step (setBel_keeps ..) rfl ?_
  exact Keeps.refl

theorem onCap_keeps (ch) (c) (s : State) : Keeps 3221225792 s (onCap ch c s) := by
  unfold onCap
  extract_lets +onlyGivenNames x1
  clear_value x1
  refine Keeps.step (noteL_keeps ..) rfl ?_
  refine Keeps.step (belRec_keeps ..) rfl ?_
  refine Keeps.step (setBel_keeps ..) rfl ?_
  exact Keeps.refl

theorem hotStack_keeps (k) (ch) (c) (s : State) : Keeps 34158411775 s (hotStack k ch c s) := by
  unfold hotStack
  refine Keeps.ite ?_ ?_
  · exact Keeps.refl
  · extract_lets +onlyGivenNames x1
    clear_value x1
    extract_lets +onlyGivenNames x2
    refine Keeps.cut (p := Keeps 34158411775 s x2) ?_ (fun k3 => ?_)
    · dsimp -zeta only [x2]
      refine Keeps.step (setBel_keeps ..) rfl ?_
      refine Keeps.step (stackFail_keeps ..) rfl ?_
      exact Keeps.refl
    clear_value x2
    extract_lets +onlyGivenNames x4
    refine Keeps.cut (p := Keeps 34158411775 s x4) ?_ (fun k5 => ?_)
    · dsimp -zeta only [x4]
      refine Keeps.step (belRec_keeps ..) rfl ?_
      exact k3
    clear_value x4
    refine Keeps.ite ?_ ?_
    · refine Keeps.step (orderlyShutdown_keeps ..) rfl ?_
      exact k5
    · exact k5

theorem hungCp_keeps (k) (s : State) : Keeps 34158411775 s (hungCp k s) := by
  unfold hungCp
  refine Keeps.ite ?_ ?_
  · refine Keeps.step (failCp_keeps ..) rfl ?_
    refine Keeps.step (setBel_keeps ..) rfl ?_
    exact Keeps.refl
  · exact Keeps.refl

theorem onRise_keeps (s : State) (x) : Keeps 34158411775 s (onRise s x) := by
  unfold onRise
  split
  rename_i v1 v2 v3
  extract_lets +onlyGivenNames x4
  clear_value x4
  extract_lets +onlyGivenNames x5
  refine Keeps.cut (p := Keeps 34158411775 s x5) ?_ (fun k6 => ?_)
  · dsimp -zeta only [x5]
    refine Keeps.ite ?_ ?_
    · refine Keeps.step (onAlert_keeps ..) rfl ?_
      exact Keeps.refl
    · exact Keeps.refl
  clear_value x5
  extract_lets +onlyGivenNames x7
  refine Keeps.cut (p := Keeps 34158411775 s x7) ?_ (fun k8 => ?_)
  · dsimp -zeta only [x7]
    refine Keeps.ite ?_ ?_
    · refine Keeps.step (hungCp_keeps ..) rfl ?_
      exact k6
    · exact k6
  clear_value x7
  extract_lets +onlyGivenNames x9
  refine Keeps.cut (p := Keeps 34158411775 s x9) ?_ (fun k10 => ?_)
  · dsimp -zeta only [x9]
    refine Keeps.ite ?_ ?_
    · refine Keeps.step (laserFail_keeps ..) rfl ?_
      exact k8
    · exact k8
  clear_value x9
  refine Keeps.ite ?_ ?_
  · refine Keeps.step (onCap_keeps ..) rfl ?_
    exact k10
  · exact k10

theorem wakeAdmit_keeps (src) (s : State) : Keeps 29595008105 s (wakeAdmit src s) := by
  unfold wakeAdmit
  refine Keeps.step (admitHeld_keeps ..) rfl ?_
  refine Keeps.step (wakeUp_keeps ..) rfl ?_
  exact Keeps.refl

theorem wakeFull_keeps (src) (s : State) : Keeps 34158411775 s (wakeFull src s) := by
  unfold wakeFull
  refine Keeps.ite ?_ ?_
  · refine Keeps.step (admitHeld_keeps ..) rfl ?_
    refine Keeps.step (wakeChecked_keeps ..) rfl ?_
    exact Keeps.refl
  · exact Keeps.refl

theorem onOrderly_keeps (s : State) (ch) : Keeps 34158411775 s (onOrderly s ch) := by
  unfold onOrderly
  refine Keeps.ite ?_ ?_
  · exact Keeps.refl
  · refine Keeps.step (orderlyShutdown_keeps ..) rfl ?_
    refine Keeps.step (belRec_keeps ..) rfl ?_
    exact Keeps.refl

theorem sampleAll_keeps (raw) (s : State) : KeepsP 2151678272 s (sampleAll raw s) := by
  unfold sampleAll
  extract_lets +onlyGivenNames x1
  refine Keeps.cut (p := Keeps 2151678272 s x1) ?_ (fun k2 => ?_)
  · dsimp -zeta only [x1]
    refine Keeps.foldl (fun x3 a4 => ?_) ?_
    · refine Keeps.step (critReadHi_keeps _ _ (.inr (Nat.le_add_right _ _))) rfl ?_
      exact Keeps.refl
    · exact Keeps.refl
  clear_value x1
  extract_lets +onlyGivenNames x5
  clear_value x5
  extract_lets +onlyGivenNames x6
  clear_value x6
  extract_lets +onlyGivenNames x7
  clear_value x7
  refine KeepsP.mk ?_
  refine Keeps.step (setBel_keeps ..) rfl ?_
  exact k2

theorem belayActs_keeps (up) (s : State) : Keeps 34158411775 s (belayActs up s) := by
  unfold belayActs
  extract_lets +onlyGivenNames x1
  clear_value x1
  split
  · rename_i v2 v3 v4
    extract_lets +onlyGivenNames x5
    refine Keeps.cut (p := Keeps 34158411775 s x5) ?_ (fun k6 => ?_)
    · dsimp -zeta only [x5]
      refine Keeps.foldl (fun x7 a8 => ?_) ?_
      · refine Keeps.step (onRise_keeps ..) rfl ?_
        exact Keeps.refl
      · exact Keeps.refl
    clear_value x5
    refine Keeps.ite ?_ ?_
    · exact k6
    · refine Keeps.step (emergencyShutdown_keeps ..) rfl ?_
      exact k6
  · rename_i v9 v10
    extract_lets +onlyGivenNames x11
    refine Keeps.cut (p := Keeps 34158411775 s x11) ?_ (fun k12 => ?_)
    · dsimp -zeta only [x11]
      refine Keeps.ite ?_ ?_
      · exact Keeps.refl
      · refine Keeps.step (wakeFull_keeps ..) rfl ?_
        exact Keeps.refl
    clear_value x11
    extract_lets +onlyGivenNames x13
    refine Keeps.cut (p := Keeps 34158411775 s x13) ?_ (fun k14 => ?_)
    · dsimp -zeta only [x13]
      refine Keeps.foldl (fun x15 a16 => ?_) ?_
      · refine Keeps.step (onRise_keeps ..) rfl ?_
        exact Keeps.refl
      · exact k12
    clear_value x13
    extract_lets +onlyGivenNames x17
    refine Keeps.cut (p := Keeps 34158411775 s x17) ?_ (fun k18 => ?_)
    · dsimp -zeta only [x17]
      refine Keeps.foldl (fun x19 a20 => ?_) ?_
      · refine Keeps.step (hotStack_keeps ..) rfl ?_
        exact Keeps.refl
      · exact k14
    clear_value x17
    refine Keeps.foldl (fun x21 a22 => ?_) ?_
    · refine Keeps.step (onOrderly_keeps ..) rfl ?_
      exact Keeps.refl
    · exact k18

theorem belaySample_keeps (raw) (s : State) : Keeps 34158411775 s (belaySample raw s) := by
  unfold belaySample
  extract_lets +onlyGivenNames x1
  refine Keeps.cut (p := Keeps 34158411775 s x1) ?_ (fun k2 => ?_)
  · dsimp -zeta only [x1]
    refine Keeps.step (belayStops_keeps ..) rfl ?_
    exact Keeps.refl
  clear_value x1
  refine Keeps.ite ?_ ?_
  · exact k2
  · extract_lets +onlyGivenNames x3
    refine Keeps.cut (p := Keeps 34158411775 s x3) ?_ (fun k4 => ?_)
    · dsimp -zeta only [x3]
      split
      · rename_i v5 v6 v7
        refine Keeps.step (setPwr_keeps ..) rfl ?_
        exact k2
      · rename_i v8 v9
        exact k2
    clear_value x3
    split
    rename_i v10 v11 v12 v13
    refine Keeps.cut (p := Keeps 34158411775 s v11) (KeepsP.ofEq ?_ v13) (fun k14 => ?_)
    · clear v13
      refine KeepsP.step (sampleAll_keeps ..) rfl ?_
      exact k4
    clear v13
    refine Keeps.step (permitRestart_keeps ..) rfl ?_
    refine Keeps.step (alertPin_keeps ..) rfl ?_
    refine Keeps.step (belayActs_keeps ..) rfl ?_
    exact k14

theorem execBelaySample_keeps (b) (s : State) : KeepsX 34292629503 s (execBelaySample b s) := by
  unfold execBelaySample
  refine KeepsX.next ?_
  refine Keeps.step (belaySample_keeps ..) rfl ?_
  refine Keeps.step (atTime_keeps ..) rfl ?_
  exact Keeps.refl

theorem lPowerUpdate_keeps (s : State) : Keeps 256 s (lPowerUpdate s) := by
  unfold lPowerUpdate
  extract_lets +onlyGivenNames x1
  clear_value x1
  extract_lets +onlyGivenNames x2
  clear_value x2
  refine Keeps.ite ?_ ?_
  · exact Keeps.refl
  · refine Keeps.ite ?_ ?_
    · refine Keeps.step (setBel_keeps ..) rfl ?_
      exact Keeps.refl
    · refine Keeps.ite ?_ ?_
      · refine Keeps.ite ?_ ?_
        · refine Keeps.step (setBel_keeps ..) rfl ?_
          exact Keeps.refl
        · refine Keeps.step (setBel_keeps ..) rfl ?_
          exact Keeps.refl
      · refine Keeps.step (setBel_keeps ..) rfl ?_
        exact Keeps.refl

theorem execLPowerUpdate_keeps (t) (s : State) : KeepsX 4160749920 s (execLPowerUpdate t s) := by
  unfold execLPowerUpdate
  extract_lets +onlyGivenNames x1
  refine Keeps.cut (p := Keeps 4160749920 s x1) ?_ (fun k2 => ?_)
  · dsimp -zeta only [x1]
    refine Keeps.step (belayStops_keeps ..) rfl ?_
    refine Keeps.step (atTime_keeps ..) rfl ?_
    exact Keeps.refl
  clear_value x1
  refine KeepsX.next ?_
  refine Keeps.step (noteL_keeps ..) rfl ?_
  refine Keeps.step (lPowerUpdate_keeps ..) rfl ?_
  exact k2

theorem lThermalUpdate_keeps (s : State) : Keeps 256 s (lThermalUpdate s) := by
  unfold lThermalUpdate
  refine Keeps.ite ?_ ?_
  · exact Keeps.refl
  · refine Keeps.ite ?_ ?_
    · refine Keeps.step (setBel_keeps ..) rfl ?_
      exact Keeps.refl
    · refine Keeps.step (setBel_keeps ..) rfl ?_
      exact Keeps.refl

theorem execLThermalUpdate_keeps (t) (s : State) : KeepsX 4160749920 s (execLThermalUpdate t s) := by
  unfold execLThermalUpdate
  extract_lets +onlyGivenNames x1
  refine Keeps.cut (p := Keeps 4160749920 s x1) ?_ (fun k2 => ?_)
  · dsimp -zeta only [x1]
    refine Keeps.step (belayStops_keeps ..) rfl ?_
    refine Keeps.step (atTime_keeps ..) rfl ?_
    exact Keeps.refl
  clear_value x1
  refine KeepsX.next ?_
  refine Keeps.step (noteL_keeps ..) rfl ?_
  refine Keeps.step (lThermalUpdate_keeps ..) rfl ?_
  exact k2

theorem execBelayStatusRequest_keeps (port) (ureq) (t) (s : State) : KeepsX 34292629503 s (execBelayStatusRequest port ureq t s) := by
  unfold execBelayStatusRequest
  extract_lets +onlyGivenNames x1
  refine Keeps.cut (p := Keeps 34292629503 s x1) ?_ (fun k2 => ?_)
  · dsimp -zeta only [x1]
    refine Keeps.step (wakeFull_keeps ..) rfl ?_
    refine Keeps.step (belayStops_keeps ..) rfl ?_
    refine Keeps.step (atTime_keeps ..) rfl ?_
    exact Keeps.refl
  clear_value x1
  refine KeepsX.next ?_
  refine Keeps.ite ?_ ?_
  · refine Keeps.step (emit_keeps ..) rfl ?_
    exact k2
  · exact k2

end Sys2Proof.Machine
end

