-- ==== Sys2Proof/Laws/KeepsBulk.lean ====
section
/-! SUPPORT. What each operation of Machine/Bulk.lean can touch, that it goes onward and that it keeps the invariant. -/

namespace Sys2Proof.Machine

theorem bqCreate_keeps (pick) (w) (s : State) : Keeps 3262920768 s (bqCreate pick w s) := by
  unfold bqCreate
  extract_lets +onlyGivenNames x1
  clear_value x1
  extract_lets +onlyGivenNames x2
  clear_value x2
  extract_lets +onlyGivenNames x3
  clear_value x3
  extract_lets +onlyGivenNames x4
  clear_value x4
  refine Keeps.ite ?_ ?_
  · refine Keeps.step (replySt_keeps ..) rfl ?_
    exact Keeps.refl
  · refine Keeps.ite ?_ ?_
    · refine Keeps.step (replySt_keeps ..) rfl ?_
      exact Keeps.refl
    · split
      · rename_i v5 v6
        refine Keeps.step (replySt_keeps ..) rfl ?_
        exact Keeps.refl
      · rename_i v7 v8 v9
        extract_lets +onlyGivenNames x10
        clear_value x10
        extract_lets +onlyGivenNames x11
        refine Keeps.cut (p := Keeps 3262920768 s x11) ?_ (fun k12 => ?_)
        · dsimp -zeta only [x11]
          refine Keeps.step (useIndex_keeps ..) rfl ?_
          refine Keeps.step (setBulk_keeps ..) rfl ?_
          exact Keeps.refl
        clear_value x11
        refine Keeps.step (reply_keeps ..) rfl ?_
        exact k12

theorem execBqCreate_keeps (r) (e) (s : State) : KeepsX 4202445888 s (execBqCreate r e s) := by
  unfold execBqCreate
  refine KeepsX.next ?_
  refine Keeps.trans ?_ (runVerb_keeps (M := 4202445888) rfl (fun y1 y2 => ?_))
  · exact Keeps.refl
  · refine Keeps.step (bqCreate_keeps ..) rfl ?_
    exact Keeps.refl

theorem bqDestroy_keeps (w) (s : State) : Keeps 3262986304 s (bqDestroy w s) := by
  unfold bqDestroy
  split
  · rename_i v1 v2
    refine Keeps.step (replySt_keeps ..) rfl ?_
    exact Keeps.refl
  · rename_i v3 v4 v5
    extract_lets +onlyGivenNames x6
    clear_value x6
    extract_lets +onlyGivenNames x7
    refine Keeps.cut (p := Keeps 3262986304 s x7) ?_ (fun k8 => ?_)
    · dsimp -zeta only [x7]
      refine Keeps.step (setVrb_keeps ..) rfl ?_
      exact Keeps.refl
    clear_value x7
    extract_lets +onlyGivenNames x9
    clear_value x9
    extract_lets +onlyGivenNames x10
    refine Keeps.cut (p := Keeps 3262986304 s x10) ?_ (fun k11 => ?_)
    · dsimp -zeta only [x10]
      refine Keeps.step (modBq_keeps ..) rfl ?_
      exact k8
    clear_value x10
    refine Keeps.step (destroyDone_keeps ..) rfl ?_
    exact k11

theorem execBqDestroy_keeps (r) (e) (s : State) : KeepsX 4202511424 s (execBqDestroy r e s) := by
  unfold execBqDestroy
  refine KeepsX.next ?_
  refine Keeps.trans ?_ (runVerb_keeps (M := 4202511424) rfl (fun y1 y2 => ?_))
  · exact Keeps.refl
  · refine Keeps.step (bqDestroy_keeps ..) rfl ?_
    exact Keeps.refl

theorem bulkSubmit_keeps (w) (s : State) : Keeps 3262918720 s (bulkSubmit w s) := by
  unfold bulkSubmit
  extract_lets +onlyGivenNames x1
  clear_value x1
  extract_lets +onlyGivenNames x2
  clear_value x2
  refine Keeps.ite ?_ ?_
  · refine Keeps.step (replySt_keeps ..) rfl ?_
    exact Keeps.refl
  · split
    · rename_i v3 v4
      refine Keeps.step (replySt_keeps ..) rfl ?_
      exact Keeps.refl
    · rename_i v5 v6 v7
      extract_lets +onlyGivenNames x8
      clear_value x8
      refine Keeps.ite ?_ ?_
      · refine Keeps.step (replySt_keeps ..) rfl ?_
        exact Keeps.refl
      · refine Keeps.ite ?_ ?_
        · refine Keeps.step (replySt_keeps ..) rfl ?_
          refine Keeps.step (setVrb_keeps ..) rfl ?_
          exact Keeps.refl
        · extract_lets +onlyGivenNames x9
          clear_value x9
          split
          · rename_i v10 v11 v12
            refine Keeps.step (reply_keeps ..) rfl ?_
            exact Keeps.refl
          · rename_i v13 v14
            extract_lets +onlyGivenNames x15
            clear_value x15
            extract_lets +onlyGivenNames x16
            clear_value x16
            extract_lets +onlyGivenNames x17
            refine Keeps.cut (p := Keeps 3262918720 s x17) ?_ (fun k18 => ?_)
            · dsimp -zeta only [x17]
              refine Keeps.step (modBq_keeps ..) rfl ?_
              exact Keeps.refl
            clear_value x17
            refine Keeps.step (reply_keeps ..) rfl ?_
            refine Keeps.step (notePeak_keeps ..) rfl ?_
            exact k18

theorem execBulkSubmit_keeps (r) (e) (s : State) : KeepsX 4202445888 s (execBulkSubmit r e s) := by
  unfold execBulkSubmit
  refine KeepsX.next ?_
  refine Keeps.trans ?_ (runVerb_keeps (M := 4202445888) rfl (fun y1 y2 => ?_))
  · exact Keeps.refl
  · refine Keeps.step (bulkSubmit_keeps ..) rfl ?_
    exact Keeps.refl

theorem bulkDoorbell_keeps (w) (s : State) : Keeps 3262918720 s (bulkDoorbell w s) := by
  unfold bulkDoorbell
  extract_lets +onlyGivenNames x1
  clear_value x1
  split
  · rename_i v2 v3
    refine Keeps.step (replySt_keeps ..) rfl ?_
    exact Keeps.refl
  · rename_i v4 v5 v6
    extract_lets +onlyGivenNames x7
    clear_value x7
    extract_lets +onlyGivenNames x8
    clear_value x8
    refine Keeps.step (reply_keeps ..) rfl ?_
    refine Keeps.step (modBq_keeps ..) rfl ?_
    exact Keeps.refl

theorem execBulkDoorbell_keeps (r) (e) (s : State) : KeepsX 4202445888 s (execBulkDoorbell r e s) := by
  unfold execBulkDoorbell
  refine KeepsX.next ?_
  refine Keeps.trans ?_ (runVerb_keeps (M := 4202445888) rfl (fun y1 y2 => ?_))
  · exact Keeps.refl
  · refine Keeps.step (bulkDoorbell_keeps ..) rfl ?_
    exact Keeps.refl

theorem execDescriptorStart_keeps (q) (e) (s : State) : KeepsX 943726592 s (execDescriptorStart q e s) := by
  unfold execDescriptorStart
  extract_lets +onlyGivenNames x1
  refine Keeps.cut (p := Keeps 943726592 s x1) ?_ (fun k2 => ?_)
  · dsimp -zeta only [x1]
    refine Keeps.step (applyEnv_keeps ..) rfl ?_
    exact Keeps.refl
  clear_value x1
  refine KeepsX.next ?_
  split
  · rename_i v3 v4 v5
    refine Keeps.step (modDesc_keeps ..) rfl ?_
    exact k2
  · rename_i v6 v7
    exact k2

theorem execDescNop_keeps (q) (e) (s : State) : KeepsX 29980883041 s (execDescNop q e s) := by
  unfold execDescNop
  refine KeepsX.next ?_
  refine Keeps.step (descRun_keeps ..) rfl ?_
  refine Keeps.step (applyEnv_keeps ..) rfl ?_
  exact Keeps.refl

theorem execDescFill_keeps (q) (e) (s : State) : KeepsX 29980883041 s (execDescFill q e s) := by
  unfold execDescFill
  refine KeepsX.next ?_
  refine Keeps.step (descRun_keeps ..) rfl ?_
  refine Keeps.step (applyEnv_keeps ..) rfl ?_
  exact Keeps.refl

theorem execDescCopy_keeps (q) (e) (s : State) : KeepsX 29980883041 s (execDescCopy q e s) := by
  unfold execDescCopy
  refine KeepsX.next ?_
  refine Keeps.step (descRun_keeps ..) rfl ?_
  refine Keeps.step (applyEnv_keeps ..) rfl ?_
  exact Keeps.refl

theorem execDescCompare_keeps (q) (e) (s : State) : KeepsX 29980883041 s (execDescCompare q e s) := by
  unfold execDescCompare
  refine KeepsX.next ?_
  refine Keeps.step (descRun_keeps ..) rfl ?_
  refine Keeps.step (applyEnv_keeps ..) rfl ?_
  exact Keeps.refl

theorem execDescReduce_keeps (q) (e) (s : State) : KeepsX 29980883041 s (execDescReduce q e s) := by
  unfold execDescReduce
  refine KeepsX.next ?_
  refine Keeps.step (descRun_keeps ..) rfl ?_
  refine Keeps.step (applyEnv_keeps ..) rfl ?_
  exact Keeps.refl

end Sys2Proof.Machine
end

