-- ==== Sys2Proof/Laws/KeepsIntegrity.lean ====
section
/-! SUPPORT. What each operation of Machine/Integrity.lean can touch, that it goes onward and that it keeps the invariant. -/

namespace Sys2Proof.Machine

theorem execCeBucketLeak_keeps (t) (s : State) : KeepsX 18123587584 s (execCeBucketLeak t s) := by
  unfold execCeBucketLeak
  extract_lets +onlyGivenNames x1
  refine Keeps.cut (p := Keeps 18123587584 s x1) ?_ (fun k2 => ?_)
  · dsimp -zeta only [x1]
    refine Keeps.step (atTime_keeps ..) rfl ?_
    exact Keeps.refl
  clear_value x1
  refine KeepsX.next ?_
  refine Keeps.ite ?_ ?_
  · refine Keeps.step (setEcc_keeps ..) rfl ?_
    refine Keeps.step (upd_stks_keeps _ _ (fun h => by simp [h])) rfl ?_
    exact k2
  · exact k2

theorem latchLog_keeps (sess) (v) (s : State) : Keeps 4294967296 s (latchLog sess v s) := by
  unfold latchLog
  extract_lets +onlyGivenNames x1
  clear_value x1
  refine Keeps.step (setSels_keeps ..) rfl ?_
  exact Keeps.refl

theorem execEccLogSelWrite_keeps (sess) (v) (t) (s : State) : KeepsX 34292629503 s (execEccLogSelWrite sess v t s) := by
  unfold execEccLogSelWrite
  refine KeepsX.next ?_
  refine Keeps.trans ?_ (withWrite_keeps (M := 34292629503) rfl (fun y1 => ?_))
  · exact Keeps.refl
  · refine Keeps.step (mgmtReply_keeps ..) rfl ?_
    refine Keeps.step (latchLog_keeps ..) rfl ?_
    exact Keeps.refl

theorem execEccLogClr_keeps (sess) (t) (s : State) : KeepsX 34292629503 s (execEccLogClr sess t s) := by
  unfold execEccLogClr
  refine KeepsX.next ?_
  refine Keeps.trans ?_ (withWrite_keeps (M := 34292629503) rfl (fun y1 => ?_))
  · exact Keeps.refl
  · refine Keeps.step (mgmtReply_keeps ..) rfl ?_
    refine Keeps.step (setEcc_keeps ..) rfl ?_
    exact Keeps.refl

theorem memRetire_keeps (sess) (k) (page) (s : State) : Keeps 19327352832 s (memRetire sess k page s) := by
  unfold memRetire
  extract_lets +onlyGivenNames x1
  clear_value x1
  refine Keeps.ite ?_ ?_
  · refine Keeps.step (mgmtReply_keeps ..) rfl ?_
    exact Keeps.refl
  · refine Keeps.ite ?_ ?_
    · refine Keeps.step (mgmtReply_keeps ..) rfl ?_
      exact Keeps.refl
    · refine Keeps.ite ?_ ?_
      · refine Keeps.step (mgmtReply_keeps ..) rfl ?_
        refine Keeps.step (modStack_keeps ..) rfl ?_
        exact Keeps.refl
      · refine Keeps.step (mgmtReply_keeps ..) rfl ?_
        refine Keeps.step (modStack_keeps ..) rfl ?_
        exact Keeps.refl

theorem execMemRetire_keeps (sess) (pa) (e) (s : State) : KeepsX 34292629503 s (execMemRetire sess pa e s) := by
  unfold execMemRetire
  refine KeepsX.next ?_
  refine Keeps.trans ?_ (withSess_keeps (M := 34292629503) rfl (fun y1 => ?_))
  · refine Keeps.step (applyEnv_keeps ..) rfl ?_
    exact Keeps.refl
  · refine Keeps.step (memRetire_keeps ..) rfl ?_
    exact Keeps.refl

theorem remapLine_keeps (s : State) (line) : Keeps 29041358945 s (remapLine s line) := by
  unfold remapLine
  extract_lets +onlyGivenNames x1
  refine Keeps.cut (p := Keeps 29041358945 s x1) ?_ (fun k2 => ?_)
  · dsimp -zeta only [x1]
    refine KeepsP.fst ?_
    refine KeepsP.step (readLine_keeps ..) rfl ?_
    exact Keeps.refl
  clear_value x1
  refine Keeps.step (setPat_keeps ..) rfl ?_
  exact k2

theorem remapDone_keeps (k) (page) (s : State) : Keeps 29041358945 s (remapDone k page s) := by
  unfold remapDone
  split
  · rename_i v1 v2
    exact Keeps.refl
  · rename_i v3 v4 v5 v6 v7
    extract_lets +onlyGivenNames x8
    extract_lets +onlyGivenNames x9
    clear_value x9
    extract_lets +onlyGivenNames x10
    refine Keeps.cut (p := Keeps 29041358945 s x10) ?_ (fun k11 => ?_)
    · dsimp -zeta only [x10]
      refine Keeps.foldl (fun x12 a13 => ?_) ?_
      · refine Keeps.step (remapLine_keeps ..) rfl ?_
        exact Keeps.refl
      · exact Keeps.refl
    clear_value x10
    refine Keeps.step (modStack_keeps ..) rfl ?_
    exact k11

theorem execPageRemapDone_keeps (stk) (page) (e) (s : State) : KeepsX 29980883041 s (execPageRemapDone stk page e s) := by
  unfold execPageRemapDone
  refine KeepsX.next ?_
  refine Keeps.step (remapDone_keeps ..) rfl ?_
  refine Keeps.step (applyEnv_keeps ..) rfl ?_
  exact Keeps.refl

theorem trvBegin_keeps (tid) (addr) (len) (lines) (s : State) : Keeps 8388608 s (trvBegin tid addr len lines s) := by
  unfold trvBegin
  refine Keeps.step (modTrv_keeps ..) rfl ?_
  exact Keeps.refl

theorem trvRefuse_keeps (tid) (st) (s : State) : Keeps 8388608 s (trvRefuse tid st s) := by
  unfold trvRefuse
  refine Keeps.step (modTrv_keeps ..) rfl ?_
  exact Keeps.refl

theorem trvStart_keeps (tid) (node) (s : State) : Keeps 8388608 s (trvStart tid node s) := by
  unfold trvStart
  extract_lets +onlyGivenNames x1
  clear_value x1
  extract_lets +onlyGivenNames x2
  clear_value x2
  extract_lets +onlyGivenNames x3
  clear_value x3
  refine Keeps.ite ?_ ?_
  · refine Keeps.step (trvRefuse_keeps ..) rfl ?_
    exact Keeps.refl
  · refine Keeps.ite ?_ ?_
    · extract_lets +onlyGivenNames x4
      clear_value x4
      refine Keeps.step (trvBegin_keeps ..) rfl ?_
      exact Keeps.refl
    · split
      · rename_i v5 v6
        refine Keeps.step (trvBegin_keeps ..) rfl ?_
        exact Keeps.refl
      · rename_i v7 v8
        refine Keeps.step (trvRefuse_keeps ..) rfl ?_
        exact Keeps.refl

theorem execTrvStart_keeps (q) (e) (s : State) : KeepsX 34292629503 s (execTrvStart q e s) := by
  unfold execTrvStart
  refine KeepsX.next ?_
  refine Keeps.trans ?_ (byRequester_keeps (M := 34292629503) rfl (fun y1 => ?_))
  · refine Keeps.step (applyEnv_keeps ..) rfl ?_
    exact Keeps.refl
  · refine Keeps.step (trvStart_keeps ..) rfl ?_
    exact Keeps.refl

theorem execTrvAbort_keeps (q) (e) (s : State) : KeepsX 34292629503 s (execTrvAbort q e s) := by
  unfold execTrvAbort
  refine KeepsX.next ?_
  refine Keeps.trans ?_ (byRequester_keeps (M := 34292629503) rfl (fun y1 => ?_))
  · refine Keeps.step (applyEnv_keeps ..) rfl ?_
    exact Keeps.refl
  · refine Keeps.step (trvStop_keeps ..) rfl ?_
    exact Keeps.refl

theorem execTraverseDone_keeps (q) (e) (s : State) : KeepsX 29980883041 s (execTraverseDone q e s) := by
  unfold execTraverseDone
  refine KeepsX.next ?_
  refine Keeps.step (trvFinish_keeps ..) rfl ?_
  refine Keeps.step (applyEnv_keeps ..) rfl ?_
  exact Keeps.refl

theorem injDone_keeps (st) (s : State) : Keeps 4194304 s (injDone st s) := by
  unfold injDone
  refine Keeps.step (setEcc_keeps ..) rfl ?_
  exact Keeps.refl

theorem injArm_keeps (v) (s : State) : Keeps 4194304 s (injArm v s) := by
  unfold injArm
  extract_lets +onlyGivenNames x1
  clear_value x1
  extract_lets +onlyGivenNames x2
  clear_value x2
  refine Keeps.ite ?_ ?_
  · refine Keeps.step (injDone_keeps ..) rfl ?_
    exact Keeps.refl
  · refine Keeps.ite ?_ ?_
    · refine Keeps.step (injDone_keeps ..) rfl ?_
      exact Keeps.refl
    · refine Keeps.step (injDone_keeps ..) rfl ?_
      refine Keeps.step (setEcc_keeps ..) rfl ?_
      exact Keeps.refl

theorem injDisarm_keeps (s : State) : Keeps 25773998080 s (injDisarm s) := by
  unfold injDisarm
  split
  · rename_i v1 v2
    refine Keeps.step (injDone_keeps ..) rfl ?_
    exact Keeps.refl
  · rename_i v3 v4 v5 v6
    refine Keeps.step (injDone_keeps ..) rfl ?_
    refine Keeps.step (setEcc_keeps ..) rfl ?_
    refine Keeps.step (zeroDram_keeps ..) rfl ?_
    exact Keeps.refl

theorem onArmed_keeps {v : Nat} {f : Nat → State → State} {s : State} {M : Nat} (hm : 4194304 ||| M = M)
    (h : ∀ a s, Keeps M s (f a s)) : Keeps M s (onArmed v f s) := by
  unfold onArmed
  split
  · exact (h _ s).trans ((injDone_keeps _ _).mono (mask_trans rfl hm))
  · exact (injDone_keeps _ s).mono (mask_trans rfl hm)

theorem injWriteRaw_keeps (pa) (s : State) : Keeps 25773998080 s (injWriteRaw pa s) := by
  unfold injWriteRaw
  extract_lets +onlyGivenNames x1
  clear_value x1
  extract_lets +onlyGivenNames x2
  clear_value x2
  extract_lets +onlyGivenNames x3
  clear_value x3
  refine Keeps.step (writeQueue_keeps ..) rfl ?_
  refine Keeps.step (setPat_keeps ..) rfl ?_
  refine Keeps.step (setMem_keeps _ _ (fun _ h => memWriteL_wf _ _ h)) rfl ?_
  exact Keeps.refl

theorem injWriteEnc_keeps (pa) (s : State) : Keeps 25773998080 s (injWriteEnc pa s) := by
  unfold injWriteEnc
  extract_lets +onlyGivenNames x1
  clear_value x1
  refine Keeps.step (setEcc_keeps ..) rfl ?_
  refine Keeps.step (writeQueue_keeps ..) rfl ?_
  refine Keeps.step (setPat_keeps ..) rfl ?_
  refine Keeps.step (setMem_keeps _ _ (fun _ h => memWriteL_wf _ _ h)) rfl ?_
  exact Keeps.refl

theorem injReadRaw_keeps (pa) (s : State) : Keeps 17184063488 s (injReadRaw pa s) := by
  unfold injReadRaw
  extract_lets +onlyGivenNames x1
  refine Keeps.cut (p := Keeps 17184063488 s x1) ?_ (fun k2 => ?_)
  · dsimp -zeta only [x1]
    refine Keeps.step (readQueue_keeps ..) rfl ?_
    exact Keeps.refl
  clear_value x1
  extract_lets +onlyGivenNames x3
  clear_value x3
  extract_lets +onlyGivenNames x4
  clear_value x4
  refine Keeps.step (setEcc_keeps ..) rfl ?_
  exact k2

theorem injReadDec_keeps (pa) (s : State) : Keeps 29041358945 s (injReadDec pa s) := by
  unfold injReadDec
  split
  rename_i v1 v2 v3 v4
  refine Keeps.cut (p := Keeps 29041358945 s v2) (KeepsP.ofEq ?_ v4) (fun k5 => ?_)
  · clear v4
    refine KeepsP.step (readLine_keeps ..) rfl ?_
    exact Keeps.refl
  clear v4
  split
  · rename_i v6 v7 v8
    refine Keeps.step (setEcc_keeps ..) rfl ?_
    exact k5
  · rename_i v9
    refine Keeps.step (setEcc_keeps ..) rfl ?_
    exact k5
  · rename_i v10
    refine Keeps.step (setEcc_keeps ..) rfl ?_
    exact k5

theorem injFlip_keeps (v) (s : State) : Keeps 4194304 s (injFlip v s) := by
  unfold injFlip
  refine Keeps.step (injDone_keeps ..) rfl ?_
  refine Keeps.step (critFlip_keeps ..) rfl ?_
  exact Keeps.refl

theorem injWrite_keeps (op) (v) (s : State) : Keeps 29041358945 s (injWrite op v s) := by
  unfold injWrite
  extract_lets +onlyGivenNames x1
  refine Keeps.cut (p := Keeps 29041358945 s x1) ?_ (fun k2 => ?_)
  · dsimp -zeta only [x1]
    refine Keeps.step (setEcc_keeps ..) rfl ?_
    exact Keeps.refl
  clear_value x1
  refine Keeps.ite ?_ ?_
  · refine Keeps.step (injArm_keeps ..) rfl ?_
    exact k2
  · refine Keeps.ite ?_ ?_
    · refine Keeps.step (injDisarm_keeps ..) rfl ?_
      exact k2
    · refine Keeps.ite ?_ ?_
      · refine Keeps.trans ?_ (onArmed_keeps (M := 29041358945) rfl (fun y3 y4 => ?_))
        · exact k2
        · refine Keeps.step (injWriteRaw_keeps ..) rfl ?_
          exact Keeps.refl
      · refine Keeps.ite ?_ ?_
        · refine Keeps.trans ?_ (onArmed_keeps (M := 29041358945) rfl (fun y5 y6 => ?_))
          · exact k2
          · refine Keeps.step (injWriteEnc_keeps ..) rfl ?_
            exact Keeps.refl
        · refine Keeps.ite ?_ ?_
          · refine Keeps.trans ?_ (onArmed_keeps (M := 29041358945) rfl (fun y7 y8 => ?_))
            · exact k2
            · refine Keeps.step (injReadRaw_keeps ..) rfl ?_
              exact Keeps.refl
          · refine Keeps.ite ?_ ?_
            · refine Keeps.trans ?_ (onArmed_keeps (M := 29041358945) rfl (fun y9 y10 => ?_))
              · exact k2
              · refine Keeps.step (injReadDec_keeps ..) rfl ?_
                exact Keeps.refl
            · refine Keeps.ite ?_ ?_
              · refine Keeps.step (injFlip_keeps ..) rfl ?_
                exact k2
              · exact k2

theorem injRow_keeps (op) (sess) (v) (e) (s : State) : Keeps 34292629503 s (injRow op sess v e s) := by
  unfold injRow
  refine Keeps.trans ?_ (withWrite_keeps (M := 34292629503) rfl (fun y1 => ?_))
  · refine Keeps.step (applyEnv_keeps ..) rfl ?_
    exact Keeps.refl
  · refine Keeps.step (mgmtReply_keeps ..) rfl ?_
    refine Keeps.step (injWrite_keeps ..) rfl ?_
    exact Keeps.refl

theorem execEccInjArm_keeps (sess) (v) (e) (s : State) : KeepsX 34292629503 s (execEccInjArm sess v e s) := by
  unfold execEccInjArm
  refine KeepsX.next ?_
  refine Keeps.step (injRow_keeps ..) rfl ?_
  exact Keeps.refl

theorem execEccInjDisarm_keeps (sess) (v) (e) (s : State) : KeepsX 34292629503 s (execEccInjDisarm sess v e s) := by
  unfold execEccInjDisarm
  refine KeepsX.next ?_
  refine Keeps.step (injRow_keeps ..) rfl ?_
  exact Keeps.refl

theorem execEccInjWriteRaw_keeps (sess) (v) (e) (s : State) : KeepsX 34292629503 s (execEccInjWriteRaw sess v e s) := by
  unfold execEccInjWriteRaw
  refine KeepsX.next ?_
  refine Keeps.step (injRow_keeps ..) rfl ?_
  exact Keeps.refl

theorem execEccInjWriteEnc_keeps (sess) (v) (e) (s : State) : KeepsX 34292629503 s (execEccInjWriteEnc sess v e s) := by
  unfold execEccInjWriteEnc
  refine KeepsX.next ?_
  refine Keeps.step (injRow_keeps ..) rfl ?_
  exact Keeps.refl

theorem execEccInjReadRaw_keeps (sess) (v) (e) (s : State) : KeepsX 34292629503 s (execEccInjReadRaw sess v e s) := by
  unfold execEccInjReadRaw
  refine KeepsX.next ?_
  refine Keeps.step (injRow_keeps ..) rfl ?_
  exact Keeps.refl

theorem execEccInjReadDec_keeps (sess) (v) (e) (s : State) : KeepsX 34292629503 s (execEccInjReadDec sess v e s) := by
  unfold execEccInjReadDec
  refine KeepsX.next ?_
  refine Keeps.step (injRow_keeps ..) rfl ?_
  exact Keeps.refl

theorem execEccInjFlipCrit_keeps (sess) (v) (e) (s : State) : KeepsX 34292629503 s (execEccInjFlipCrit sess v e s) := by
  unfold execEccInjFlipCrit
  refine KeepsX.next ?_
  refine Keeps.step (injRow_keeps ..) rfl ?_
  exact Keeps.refl

end Sys2Proof.Machine
end

