-- ==== Sys2Proof/Laws/KeepsQos.lean ====
section
/-! SUPPORT. What each operation of Machine/Qos.lean can touch, that it goes onward and that it keeps the invariant. -/

namespace Sys2Proof.Machine

theorem pumpAll_keeps (s : State) : Keeps 3262906432 s (pumpAll s) := by
  unfold pumpAll
  refine Keeps.foldl (fun x1 a2 => ?_) ?_
  · refine Keeps.step (pumpPeer_keeps ..) rfl ?_
    exact Keeps.refl
  · exact Keeps.refl

theorem refillBucket_keeps (s : State) (b) : Keeps 2149842944 s (refillBucket s b) := by
  unfold refillBucket
  extract_lets +onlyGivenNames x1
  clear_value x1
  extract_lets +onlyGivenNames x2
  clear_value x2
  refine Keeps.step (drainBucket_keeps ..) rfl ?_
  refine Keeps.step (putBucket_keeps ..) rfl ?_
  exact Keeps.refl

theorem shaperRefill_keeps (s : State) : Keeps 3262906432 s (shaperRefill s) := by
  unfold shaperRefill
  extract_lets +onlyGivenNames x1
  refine Keeps.cut (p := Keeps 3262906432 s x1) ?_ (fun k2 => ?_)
  · dsimp -zeta only [x1]
    refine Keeps.step (setQos_keeps ..) rfl ?_
    exact Keeps.refl
  clear_value x1
  refine Keeps.step (pumpAll_keeps ..) rfl ?_
  refine Keeps.foldl (fun x3 a4 => ?_) ?_
  · refine Keeps.step (refillBucket_keeps ..) rfl ?_
    exact Keeps.refl
  · exact k2

theorem execShaperRefill_keeps (t) (s : State) : KeepsX 4202430528 s (execShaperRefill t s) := by
  unfold execShaperRefill
  refine KeepsX.next ?_
  refine Keeps.step (shaperRefill_keeps ..) rfl ?_
  refine Keeps.step (atTime_keeps ..) rfl ?_
  exact Keeps.refl

theorem writeShp_keeps (tid) (v) (s : State) : Keeps 2097152 s (writeShp tid v s) := by
  unfold writeShp
  refine Keeps.ite ?_ ?_
  · extract_lets +onlyGivenNames x1
    clear_value x1
    refine Keeps.step (setQos_keeps ..) rfl ?_
    exact Keeps.refl
  · exact Keeps.refl

theorem execQosShpWrite_keeps (sess) (v) (t) (s : State) : KeepsX 34292629503 s (execQosShpWrite sess v t s) := by
  unfold execQosShpWrite
  refine KeepsX.next ?_
  refine Keeps.trans ?_ (withWrite_keeps (M := 34292629503) rfl (fun y1 => ?_))
  · exact Keeps.refl
  · refine Keeps.step (mgmtReply_keeps ..) rfl ?_
    refine Keeps.step (writeShp_keeps ..) rfl ?_
    exact Keeps.refl

theorem execPartitionBudgetRefill_keeps (t) (s : State) : KeepsX 29980883041 s (execPartitionBudgetRefill t s) := by
  unfold execPartitionBudgetRefill
  refine KeepsX.next ?_
  refine Keeps.step (retryBudget_keeps ..) rfl ?_
  refine Keeps.step (setQos_keeps ..) rfl ?_
  refine Keeps.step (atTime_keeps ..) rfl ?_
  exact Keeps.refl

theorem execPartitionResponseRelease_keeps (t) (s : State) : KeepsX 4202430528 s (execPartitionResponseRelease t s) := by
  unfold execPartitionResponseRelease
  extract_lets +onlyGivenNames x1
  refine Keeps.cut (p := Keeps 4202430528 s x1) ?_ (fun k2 => ?_)
  · dsimp -zeta only [x1]
    refine Keeps.step (atTime_keeps ..) rfl ?_
    exact Keeps.refl
  clear_value x1
  extract_lets +onlyGivenNames x3
  clear_value x3
  refine KeepsX.next ?_
  refine Keeps.foldl (fun x4 a5 => ?_) ?_
  · refine Keeps.step (sendQ_keeps ..) rfl ?_
    exact Keeps.refl
  · refine Keeps.step (setQos_keeps ..) rfl ?_
    exact k2

theorem execDramAgePromotion_keeps (stk) (t) (s : State) : KeepsX 18119393280 s (execDramAgePromotion stk t s) := by
  unfold execDramAgePromotion
  extract_lets +onlyGivenNames x1
  refine Keeps.cut (p := Keeps 18119393280 s x1) ?_ (fun k2 => ?_)
  · dsimp -zeta only [x1]
    refine Keeps.step (atTime_keeps ..) rfl ?_
    exact Keeps.refl
  clear_value x1
  refine KeepsX.next ?_
  refine Keeps.ite ?_ ?_
  · refine Keeps.step (modStack_keeps ..) rfl ?_
    exact k2
  · exact k2

theorem execDramRefresh_keeps (stk) (pch) (bank) (t) (s : State) : KeepsX 18119393280 s (execDramRefresh stk pch bank t s) := by
  unfold execDramRefresh
  extract_lets +onlyGivenNames x1
  refine Keeps.cut (p := Keeps 18119393280 s x1) ?_ (fun k2 => ?_)
  · dsimp -zeta only [x1]
    refine Keeps.step (atTime_keeps ..) rfl ?_
    exact Keeps.refl
  clear_value x1
  refine KeepsX.next ?_
  refine Keeps.ite ?_ ?_
  · refine Keeps.step (modStack_keeps ..) rfl ?_
    exact k2
  · exact k2

theorem retrainChannel_keeps (k) (ch) (pass) (s : State) : Keeps 20451424353 s (retrainChannel k ch pass s) := by
  unfold retrainChannel
  extract_lets +onlyGivenNames x1
  clear_value x1
  refine Keeps.ite ?_ ?_
  · extract_lets +onlyGivenNames x2
    refine Keeps.cut (p := Keeps 20451424353 s x2) ?_ (fun k3 => ?_)
    · dsimp -zeta only [x2]
      refine Keeps.step (modStack_keeps ..) rfl ?_
      exact Keeps.refl
    clear_value x2
    refine Keeps.ite ?_ ?_
    · refine Keeps.step (modStack_keeps ..) rfl ?_
      exact k3
    · refine Keeps.ite ?_ ?_
      · refine Keeps.step (stackFail_keeps ..) rfl ?_
        exact k3
      · refine Keeps.step (modStack_keeps ..) rfl ?_
        exact k3
  · exact Keeps.refl

theorem execChannelRetraining_keeps (stk) (ch) (pass) (e) (s : State) : KeepsX 21390948449 s (execChannelRetraining stk ch pass e s) := by
  unfold execChannelRetraining
  refine KeepsX.next ?_
  refine Keeps.step (retrainChannel_keeps ..) rfl ?_
  refine Keeps.step (applyEnv_keeps ..) rfl ?_
  exact Keeps.refl

theorem selfRefresh_keeps (k) (s : State) : Keeps 17179869184 s (selfRefresh k s) := by
  unfold selfRefresh
  extract_lets +onlyGivenNames x1
  clear_value x1
  refine Keeps.ite ?_ ?_
  · refine Keeps.step (modStack_keeps ..) rfl ?_
    exact Keeps.refl
  · exact Keeps.refl

theorem execSelfRefreshEntry_keeps (stk) (t) (s : State) : KeepsX 18119393280 s (execSelfRefreshEntry stk t s) := by
  unfold execSelfRefreshEntry
  refine KeepsX.next ?_
  refine Keeps.step (selfRefresh_keeps ..) rfl ?_
  refine Keeps.step (atTime_keeps ..) rfl ?_
  exact Keeps.refl

end Sys2Proof.Machine
end

