-- ==== Sys2Proof/Laws/KeepsSecurity.lean ====
section
/-! SUPPORT. What each operation of Machine/Security.lean can touch, that it goes onward and that it keeps the invariant. -/

namespace Sys2Proof.Machine

theorem sysDeny_keeps (sess) (s : State) : Keeps 2164260864 s (sysDeny sess s) := by
  unfold sysDeny
  refine Keeps.step (mgmtReply_keeps ..) rfl ?_
  refine Keeps.step (setOnx_keeps _ _ (fun _ => rfl)) rfl ?_
  exact Keeps.refl

theorem and_or_left {n : Nat} (a b : BitVec n) : a &&& (a ||| b) = a := by
  ext i h
  simp only [BitVec.getElem_and, BitVec.getElem_or]
  cases a[i] <;> simp

theorem sysProgram_keeps (sess : Nat) (req : List Byte) (s : State) : Keeps 2164260866 s (sysProgram sess req s) := by
  unfold sysProgram
  extract_lets +onlyGivenNames x1 x2
  refine Keeps.ite ?_ ?_
  · exact Keeps.step (sysDeny_keeps ..) rfl Keeps.refl
  · refine Keeps.step (mgmtReply_keeps ..) rfl (Keeps.step (upd_fuse_keeps _ s ?_ ?_ ?_) rfl Keeps.refl)
    · rfl
    · exact and_or_left _ _
    · exact BitVec.and_self

theorem execSyskeyProgram_keeps (sess) (req) (t) (s : State) : KeepsX 34292629503 s (execSyskeyProgram sess req t s) := by
  unfold execSyskeyProgram
  refine KeepsX.next ?_
  refine Keeps.trans ?_ (withSess_keeps (M := 34292629503) rfl (fun y1 => ?_))
  · exact Keeps.refl
  · refine Keeps.step (sysProgram_keeps ..) rfl ?_
    exact Keeps.refl

theorem sysRevoke_keeps (sess : Nat) (req : List Byte) (s : State) : Keeps 2197815298 s (sysRevoke sess req s) := by
  unfold sysRevoke
  extract_lets +onlyGivenNames x1
  refine Keeps.ite ?_ ?_
  · exact Keeps.step (sysDeny_keeps ..) rfl Keeps.refl
  · extract_lets +onlyGivenNames u x2 x3
    have k : Keeps 2197815298 s x2 := by
      dsimp -zeta only [x2, u]
      refine Keeps.step (upd_fuse_keeps _ s ?_ ?_ ?_) rfl Keeps.refl
      · rfl
      · exact BitVec.and_self
      · exact and_or_left _ _
    clear_value x2
    refine Keeps.step (mgmtReply_keeps ..) rfl (Keeps.foldl (fun y a => ?_) k)
    exact Keeps.step (endSession_keeps ..) rfl Keeps.refl

theorem execSyskeyRevoke_keeps (sess) (req) (t) (s : State) : KeepsX 34292629503 s (execSyskeyRevoke sess req t s) := by
  unfold execSyskeyRevoke
  refine KeepsX.next ?_
  refine Keeps.trans ?_ (withSess_keeps (M := 34292629503) rfl (fun y1 => ?_))
  · exact Keeps.refl
  · refine Keeps.step (sysRevoke_keeps ..) rfl ?_
    exact Keeps.refl

theorem execOnxSyskeyNonceRead_keeps (sess) (t) (s : State) : KeepsX 34292629503 s (execOnxSyskeyNonceRead sess t s) := by
  unfold execOnxSyskeyNonceRead
  refine KeepsX.next ?_
  refine Keeps.trans ?_ (withSess_keeps (M := 34292629503) rfl (fun y1 => ?_))
  · exact Keeps.refl
  · split
    rename_i v2 v3 v4 v5
    refine Keeps.cut (p := Keeps 34292629503 y1 v3) (KeepsP.ofEq ?_ v5) (fun k6 => ?_)
    · clear v5
      refine KeepsP.step (draw_keeps ..) rfl ?_
      exact Keeps.refl
    clear v5
    extract_lets +onlyGivenNames x7
    clear_value x7
    refine Keeps.step (mgmtReply_keeps ..) rfl ?_
    refine Keeps.step (setOnx_keeps _ _ (fun _ => rfl)) rfl ?_
    exact k6

theorem execDrbgFail_keeps (t) (s : State) : KeepsX 3103785024 s (execDrbgFail t s) := by
  unfold execDrbgFail
  extract_lets +onlyGivenNames x1
  refine Keeps.cut (p := Keeps 3103785024 s x1) ?_ (fun k2 => ?_)
  · dsimp -zeta only [x1]
    refine Keeps.step (atTime_keeps ..) rfl ?_
    exact Keeps.refl
  clear_value x1
  extract_lets +onlyGivenNames x3
  clear_value x3
  extract_lets +onlyGivenNames x4
  refine Keeps.cut (p := Keeps 3103785024 s x4) ?_ (fun k5 => ?_)
  · dsimp -zeta only [x4]
    refine Keeps.step (setOnx_keeps _ _ (fun _ => rfl)) rfl ?_
    exact k2
  clear_value x4
  refine KeepsX.next ?_
  refine Keeps.ite ?_ ?_
  · refine Keeps.step (cairnAlert_keeps ..) rfl ?_
    exact k5
  · exact k5

theorem plainAnswer_keeps {f : SpdmIn → State → State × List Byte} {m : SpdmIn} {p : Bool} {s : State} {M : Nat}
    (hm : 0 ||| M = M) (h : ∀ a s, KeepsP M s (f a s)) : KeepsP M s (plainAnswer f m p s) := by
  have _ := hm
  exact h m s

theorem execGetVersion_keeps (m) (s : State) : KeepsX 34292629503 s (execGetVersion m s) := by
  unfold execGetVersion
  refine KeepsX.next ?_
  refine Keeps.trans ?_ (spdmServe_keeps (M := 34292629503) rfl (fun y1 y2 => ?_))
  · exact Keeps.refl
  · refine KeepsP.step (plainAnswer_keeps (M := 34292629503) rfl (fun y3 y4 => ?_)) (Nat.or_self _) ?_
    · refine KeepsP.step (spdmVersion_keeps ..) rfl ?_
      exact Keeps.refl
    · exact Keeps.refl

theorem execGetCapabilities_keeps (m) (s : State) : KeepsX 34292629503 s (execGetCapabilities m s) := by
  unfold execGetCapabilities
  refine KeepsX.next ?_
  refine Keeps.trans ?_ (spdmServe_keeps (M := 34292629503) rfl (fun y1 y2 => ?_))
  · exact Keeps.refl
  · refine KeepsP.step (plainAnswer_keeps (M := 34292629503) rfl (fun y3 y4 => ?_)) (Nat.or_self _) ?_
    · refine KeepsP.step (spdmCaps_keeps ..) rfl ?_
      exact Keeps.refl
    · exact Keeps.refl

theorem execNegotiateAlgorithms_keeps (m) (s : State) : KeepsX 34292629503 s (execNegotiateAlgorithms m s) := by
  unfold execNegotiateAlgorithms
  refine KeepsX.next ?_
  refine Keeps.trans ?_ (spdmServe_keeps (M := 34292629503) rfl (fun y1 y2 => ?_))
  · exact Keeps.refl
  · refine KeepsP.step (plainAnswer_keeps (M := 34292629503) rfl (fun y3 y4 => ?_)) (Nat.or_self _) ?_
    · refine KeepsP.step (spdmAlgs_keeps ..) rfl ?_
      exact Keeps.refl
    · exact Keeps.refl

theorem execGetDigests_keeps (m) (s : State) : KeepsX 34292629503 s (execGetDigests m s) := by
  unfold execGetDigests
  refine KeepsX.next ?_
  refine Keeps.trans ?_ (spdmServe_keeps (M := 34292629503) rfl (fun y1 y2 => ?_))
  · exact Keeps.refl
  · refine KeepsP.step (plainAnswer_keeps (M := 34292629503) rfl (fun y3 y4 => ?_)) (Nat.or_self _) ?_
    · refine KeepsP.step (spdmDigests_keeps ..) rfl ?_
      exact Keeps.refl
    · exact Keeps.refl

theorem execGetCertificate_keeps (m) (s : State) : KeepsX 34292629503 s (execGetCertificate m s) := by
  unfold execGetCertificate
  refine KeepsX.next ?_
  refine Keeps.trans ?_ (spdmServe_keeps (M := 34292629503) rfl (fun y1 y2 => ?_))
  · exact Keeps.refl
  · refine KeepsP.step (plainAnswer_keeps (M := 34292629503) rfl (fun y3 y4 => ?_)) (Nat.or_self _) ?_
    · refine KeepsP.step (spdmCert_keeps ..) rfl ?_
      exact Keeps.refl
    · exact Keeps.refl

theorem execChallenge_keeps (m) (s : State) : KeepsX 34292629503 s (execChallenge m s) := by
  unfold execChallenge
  refine KeepsX.next ?_
  refine Keeps.trans ?_ (spdmServe_keeps (M := 34292629503) rfl (fun y1 y2 => ?_))
  · exact Keeps.refl
  · refine KeepsP.step (plainAnswer_keeps (M := 34292629503) rfl (fun y3 y4 => ?_)) (Nat.or_self _) ?_
    · refine KeepsP.step (spdmChallenge_keeps ..) rfl ?_
      exact Keeps.refl
    · exact Keeps.refl

theorem execGetMeasurements_keeps (m) (s : State) : KeepsX 34292629503 s (execGetMeasurements m s) := by
  unfold execGetMeasurements
  refine KeepsX.next ?_
  refine Keeps.trans ?_ (spdmServe_keeps (M := 34292629503) rfl (fun y1 y2 => ?_))
  · exact Keeps.refl
  · refine KeepsP.step (plainAnswer_keeps (M := 34292629503) rfl (fun y3 y4 => ?_)) (Nat.or_self _) ?_
    · refine KeepsP.step (spdmLimit_keeps ..) rfl ?_
      refine KeepsP.fst ?_
      refine KeepsP.step (spdmMeas_keeps ..) rfl ?_
      exact Keeps.refl
    · exact Keeps.refl

theorem execKeyExchange_keeps (m) (s : State) : KeepsX 34292629503 s (execKeyExchange m s) := by
  unfold execKeyExchange
  refine KeepsX.next ?_
  refine Keeps.trans ?_ (spdmServe_keeps (M := 34292629503) rfl (fun y1 y2 => ?_))
  · exact Keeps.refl
  · refine KeepsP.step (plainAnswer_keeps (M := 34292629503) rfl (fun y3 y4 => ?_)) (Nat.or_self _) ?_
    · refine KeepsP.step (spdmKeyEx_keeps ..) rfl ?_
      exact Keeps.refl
    · exact Keeps.refl

theorem execFinish_keeps (m) (s : State) : KeepsX 34292629503 s (execFinish m s) := by
  unfold execFinish
  refine KeepsX.next ?_
  refine Keeps.trans ?_ (spdmServe_keeps (M := 34292629503) rfl (fun y1 y2 => ?_))
  · exact Keeps.refl
  · refine KeepsP.step (spdmFinish_keeps ..) rfl ?_
    exact Keeps.refl

theorem execKeyUpdate_keeps (m) (s : State) : KeepsX 34292629503 s (execKeyUpdate m s) := by
  unfold execKeyUpdate
  refine KeepsX.next ?_
  refine Keeps.trans ?_ (spdmServe_keeps (M := 34292629503) rfl (fun y1 y2 => ?_))
  · exact Keeps.refl
  · refine KeepsP.step (plainAnswer_keeps (M := 34292629503) rfl (fun y3 y4 => ?_)) (Nat.or_self _) ?_
    · refine KeepsP.step (spdmKeyUpdate_keeps ..) rfl ?_
      exact Keeps.refl
    · exact Keeps.refl

theorem execEndSession_keeps (m) (s : State) : KeepsX 34292629503 s (execEndSession m s) := by
  unfold execEndSession
  refine KeepsX.next ?_
  refine Keeps.trans ?_ (spdmServe_keeps (M := 34292629503) rfl (fun y1 y2 => ?_))
  · exact Keeps.refl
  · refine KeepsP.step (plainAnswer_keeps (M := 34292629503) rfl (fun y3 y4 => ?_)) (Nat.or_self _) ?_
    · refine KeepsP.step (spdmEnd_keeps ..) rfl ?_
      exact Keeps.refl
    · exact Keeps.refl

theorem execChunkSend_keeps (m) (s : State) : KeepsX 34292629503 s (execChunkSend m s) := by
  unfold execChunkSend
  refine KeepsX.next ?_
  refine Keeps.trans ?_ (spdmServe_keeps (M := 34292629503) rfl (fun y1 y2 => ?_))
  · exact Keeps.refl
  · refine KeepsP.step (spdmChunkSend_keeps ..) rfl ?_
    exact Keeps.refl

theorem execChunkGet_keeps (m) (s : State) : KeepsX 34292629503 s (execChunkGet m s) := by
  unfold execChunkGet
  refine KeepsX.next ?_
  refine Keeps.trans ?_ (spdmServe_keeps (M := 34292629503) rfl (fun y1 y2 => ?_))
  · exact Keeps.refl
  · refine KeepsP.step (plainAnswer_keeps (M := 34292629503) rfl (fun y3 y4 => ?_)) (Nat.or_self _) ?_
    · refine KeepsP.step (spdmChunkGet_keeps ..) rfl ?_
      exact Keeps.refl
    · exact Keeps.refl

theorem spdmAny_keeps (m) (prov) (s : State) : KeepsP 29595007073 s (spdmAny m prov s) := by
  unfold spdmAny
  refine KeepsP.ite ?_ ?_
  · refine KeepsP.step (spdmChunkSend_keeps ..) rfl ?_
    exact Keeps.refl
  · refine KeepsP.step (spdmAnswer_keeps ..) rfl ?_
    exact Keeps.refl

theorem execSpdmCarry_keeps (r) (e) (s : State) : KeepsX 34292629503 s (execSpdmCarry r e s) := by
  unfold execSpdmCarry
  refine KeepsX.next ?_
  refine Keeps.trans ?_ (spdmServe_keeps (M := 34292629503) rfl (fun y1 y2 => ?_))
  · refine Keeps.step (applyAll_keeps ..) rfl ?_
    exact Keeps.refl
  · refine KeepsP.step (spdmAny_keeps ..) rfl ?_
    exact Keeps.refl

theorem execBlock_keeps (sess) (node) (t) (s : State) : KeepsX 34292629503 s (execBlock sess node t s) := by
  unfold execBlock
  refine KeepsX.next ?_
  refine Keeps.trans ?_ (withWrite_keeps (M := 34292629503) rfl (fun y1 => ?_))
  · exact Keeps.refl
  · refine Keeps.step (mgmtReply_keeps ..) rfl ?_
    refine Keeps.step (blockPeer_keeps ..) rfl ?_
    exact Keeps.refl

theorem unblockPeer_keeps (node) (s : State) : Keeps 33554432 s (unblockPeer node s) := by
  unfold unblockPeer
  refine Keeps.step (setSec_keeps ..) rfl ?_
  exact Keeps.refl

theorem execUnblock_keeps (sess) (node) (t) (s : State) : KeepsX 34292629503 s (execUnblock sess node t s) := by
  unfold execUnblock
  refine KeepsX.next ?_
  refine Keeps.trans ?_ (withWrite_keeps (M := 34292629503) rfl (fun y1 => ?_))
  · exact Keeps.refl
  · refine Keeps.step (mgmtReply_keeps ..) rfl ?_
    refine Keeps.step (unblockPeer_keeps ..) rfl ?_
    exact Keeps.refl

end Sys2Proof.Machine
end

