-- ==== Sys2Proof/Laws/KeepsStart.lean ====
section
/-! SUPPORT. What each operation of Machine/Start.lean can touch, that it goes onward and that it keeps the invariant. -/

namespace Sys2Proof.Machine

theorem readHeaders_keeps (s : State) : Keeps 1025 s (readHeaders s) := by
  unfold readHeaders
  extract_lets +onlyGivenNames x1
  clear_value x1
  extract_lets +onlyGivenNames x2
  clear_value x2
  extract_lets +onlyGivenNames x3
  clear_value x3
  refine Keeps.trans ?_ (Keeps.plain (T := 1025) (s := s) (fun p => by cases p <;> first | exact fun _ => rfl | exact fun h => (nomatch h)) rfl rfl rfl rfl rfl rfl rfl rfl rfl)
  exact Keeps.refl

theorem countStart_keeps (counter) (s : State) : Keeps 16777224 s (countStart counter s) := by
  unfold countStart
  refine Keeps.ite ?_ ?_
  · refine Keeps.ite ?_ ?_
    · refine Keeps.step (setBoot_keeps ..) rfl ?_
      exact Keeps.refl
    · split
      rename_i v1 v2 v3 v4
      refine Keeps.cut (p := Keeps 16777224 s v2) (KeepsP.ofEq ?_ v4) (fun k5 => ?_)
      · clear v4
        refine KeepsP.step (draw_keeps ..) rfl ?_
        exact Keeps.refl
      clear v4
      refine Keeps.step (setBoot_keeps ..) rfl ?_
      exact k5
  · refine Keeps.step (setBoot_keeps ..) rfl ?_
    exact Keeps.refl

theorem stageAtStart_keeps (s : State) : Keeps 8 s (stageAtStart s) := by
  unfold stageAtStart
  extract_lets +onlyGivenNames x1
  refine Keeps.step (setBoot_keeps ..) rfl ?_
  exact Keeps.refl

theorem imageRegs_keeps (l) (s : State) : Keeps 8 s (imageRegs l s) := by
  unfold imageRegs
  refine Keeps.step (setBoot_keeps ..) rfl ?_
  exact Keeps.refl

theorem startStep2_keeps (b) (s : State) : Keeps 16778249 s (startStep2 b s) := by
  unfold startStep2
  extract_lets +onlyGivenNames x1
  refine Keeps.cut (p := Keeps 16778249 s x1) ?_ (fun k2 => ?_)
  · dsimp -zeta only [x1]
    refine Keeps.step (readHeaders_keeps ..) rfl ?_
    refine Keeps.step (setPwr_keeps ..) rfl ?_
    exact Keeps.refl
  clear_value x1
  split
  rename_i v3 v4 v5 v6 v7
  extract_lets +onlyGivenNames x8
  refine Keeps.cut (p := Keeps 16778249 s x8) ?_ (fun k9 => ?_)
  · dsimp -zeta only [x8]
    refine Keeps.step (countStart_keeps ..) rfl ?_
    refine Keeps.step (setBoot_keeps ..) rfl ?_
    exact k2
  clear_value x8
  extract_lets +onlyGivenNames x10
  refine Keeps.cut (p := Keeps 16778249 s x10) ?_ (fun k11 => ?_)
  · dsimp -zeta only [x10]
    refine Keeps.step (stageAtStart_keeps ..) rfl ?_
    refine Keeps.step (setOnx_keeps _ _ (fun _ => rfl)) rfl ?_
    exact k9
  clear_value x10
  refine Keeps.ite ?_ ?_
  · exact k11
  · refine Keeps.step (imageRegs_keeps ..) rfl ?_
    exact k11

theorem cpStart_keeps (k) (ok) (st) (s : State) : Keeps 3221225664 s (cpStart k ok st s) := by
  unfold cpStart
  refine Keeps.ite ?_ ?_
  · refine Keeps.step (modCp_keeps ..) rfl ?_
    exact Keeps.refl
  · split
    rename_i v1 v2 v3 v4
    refine Keeps.cut (p := Keeps 3221225664 s v2) (KeepsP.ofEq ?_ v4) (fun k5 => ?_)
    · clear v4
      refine KeepsP.step (takeFree_keeps ..) rfl ?_
      exact Keeps.refl
    clear v4
    extract_lets +onlyGivenNames x6
    clear_value x6
    refine KeepsP.fst ?_
    refine KeepsP.step (cpRec_keeps ..) rfl ?_
    refine Keeps.step (modCp_keeps ..) rfl ?_
    exact k5

theorem roles_keeps (a) (b) (s : State) : Keeps 3221225664 s (roles a b s) := by
  unfold roles
  extract_lets +onlyGivenNames x1
  refine Keeps.cut (p := Keeps 3221225664 s x1) ?_ (fun k2 => ?_)
  · dsimp -zeta only [x1]
    refine Keeps.step (setCp_keeps ..) rfl ?_
    exact Keeps.refl
  clear_value x1
  refine Keeps.step (cpStart_keeps ..) rfl ?_
  refine Keeps.step (cpStart_keeps ..) rfl ?_
  exact k2

theorem drawKeys_keeps (s : State) : Keeps 16777232 s (drawKeys s) := by
  unfold drawKeys
  refine Keeps.ite ?_ ?_
  · refine Keeps.step (upd_img_keeps _ _) rfl ?_
    exact Keeps.refl
  · extract_lets +onlyGivenNames x1
    clear_value x1
    extract_lets +onlyGivenNames x2
    refine Keeps.cut (p := Keeps 16777232 s x2) ?_ (fun k3 => ?_)
    · dsimp -zeta only [x2]
      refine Keeps.foldl (fun x4 a5 => ?_) ?_
      · refine Keeps.step (setOnx_keeps _ _ (fun _ => rfl)) rfl ?_
        refine KeepsP.fst ?_
        refine KeepsP.step (draw_keeps ..) rfl ?_
        exact Keeps.refl
      · refine Keeps.step (setOnx_keeps _ _ (fun _ => rfl)) rfl ?_
        exact Keeps.refl
    clear_value x2
    split
    rename_i v6 v7 v8 v9
    refine Keeps.cut (p := Keeps 16777232 s v7) (KeepsP.ofEq ?_ v9) (fun k10 => ?_)
    · clear v9
      refine KeepsP.step (draw_keeps ..) rfl ?_
      exact k3
    clear v9
    split
    rename_i v11 v12 v13 v14
    refine Keeps.cut (p := Keeps 16777232 s v12) (KeepsP.ofEq ?_ v14) (fun k15 => ?_)
    · clear v14
      refine KeepsP.step (draw_keeps ..) rfl ?_
      exact k10
    clear v14
    refine Keeps.step (loadKeys_keeps ..) rfl ?_
    refine Keeps.step (setOnx_keeps _ _ (fun _ => rfl)) rfl ?_
    exact k15

theorem identity_keeps (s : State) : Keeps 16777216 s (identity s) := by
  unfold identity
  refine Keeps.step (setOnx_keeps _ _ (fun _ => rfl)) rfl ?_
  exact Keeps.refl

theorem loadTables_keeps (x) (s : State) : Keeps 2622872 s (loadTables x s) := by
  unfold loadTables
  extract_lets +onlyGivenNames x1
  clear_value x1
  extract_lets +onlyGivenNames x2
  clear_value x2
  extract_lets +onlyGivenNames x3
  clear_value x3
  extract_lets +onlyGivenNames x4
  refine Keeps.cut (p := Keeps 2622872 s x4) ?_ (fun k5 => ?_)
  · dsimp -zeta only [x4]
    refine Keeps.trans ?_ (Keeps.plain (T := 2622872) (s := s) (fun p => by cases p <;> first | exact fun _ => rfl | exact fun h => (nomatch h)) rfl rfl rfl rfl rfl rfl rfl rfl rfl)
    exact Keeps.refl
  clear_value x4
  extract_lets +onlyGivenNames x6
  refine Keeps.cut (p := Keeps 2622872 s x6) ?_ (fun k7 => ?_)
  · dsimp -zeta only [x6]
    refine Keeps.foldl (fun x8 a9 => ?_) ?_
    · refine Keeps.step (modChan_keeps ..) rfl ?_
      exact Keeps.refl
    · exact k5
  clear_value x6
  refine Keeps.step (setCp_keeps ..) rfl ?_
  refine Keeps.step (setBel_keeps ..) rfl ?_
  refine Keeps.step (setBoot_keeps ..) rfl ?_
  exact k7

theorem imageRecord_keeps (s : State) : Keeps 2147483712 s (imageRecord s) := by
  unfold imageRecord
  refine Keeps.ite ?_ ?_
  · exact Keeps.refl
  · refine Keeps.step (cairn_keeps ..) rfl ?_
    exact Keeps.refl

theorem islandsLocked_keeps (stkOk) (s : State) : Keeps 32 s (islandsLocked stkOk s) := by
  unfold islandsLocked
  extract_lets +onlyGivenNames x1
  clear_value x1
  refine Keeps.step (setIsl_keeps ..) rfl ?_
  exact Keeps.refl

theorem startStep3_keeps (b) (s : State) : Keeps 20459673081 s (startStep3 b s) := by
  unfold startStep3
  extract_lets +onlyGivenNames x1
  clear_value x1
  extract_lets +onlyGivenNames x2
  refine Keeps.cut (p := Keeps 20459673081 s x2) ?_ (fun k3 => ?_)
  · dsimp -zeta only [x2]
    refine Keeps.step (roles_keeps ..) rfl ?_
    exact Keeps.refl
  clear_value x2
  extract_lets +onlyGivenNames x4
  refine Keeps.cut (p := Keeps 20459673081 s x4) ?_ (fun k5 => ?_)
  · dsimp -zeta only [x4]
    refine Keeps.step (imageRecord_keeps ..) rfl ?_
    refine Keeps.step (identity_keeps ..) rfl ?_
    refine Keeps.step (drawKeys_keeps ..) rfl ?_
    refine Keeps.step (loadTables_keeps ..) rfl ?_
    exact k3
  clear_value x4
  extract_lets +onlyGivenNames x6
  refine Keeps.cut (p := Keeps 20459673081 s x6) ?_ (fun k7 => ?_)
  · dsimp -zeta only [x6]
    refine Keeps.step (islandsLocked_keeps ..) rfl ?_
    exact k5
  clear_value x6
  extract_lets +onlyGivenNames x8
  refine Keeps.cut (p := Keeps 20459673081 s x8) ?_ (fun k9 => ?_)
  · dsimp -zeta only [x8]
    refine Keeps.step (upd_stks_keeps _ _ (fun h => by simp [h])) rfl ?_
    exact k7
  clear_value x8
  extract_lets +onlyGivenNames x10
  refine Keeps.cut (p := Keeps 20459673081 s x10) ?_ (fun k11 => ?_)
  · dsimp -zeta only [x10]
    refine Keeps.foldl (fun x12 a13 => ?_) ?_
    · refine Keeps.step (enginesLeave_keeps ..) rfl ?_
      exact Keeps.refl
    · exact k9
  clear_value x10
  extract_lets +onlyGivenNames x14
  refine Keeps.cut (p := Keeps 20459673081 s x14) ?_ (fun k15 => ?_)
  · dsimp -zeta only [x14]
    refine Keeps.step (setPwr_keeps ..) rfl ?_
    exact k11
  clear_value x14
  refine Keeps.step (setPwr_keeps ..) rfl ?_
  refine Keeps.step (setBoot_keeps ..) rfl ?_
  exact k15

theorem startTo2_from (b : StartIn) (s : State) : Keeps 16778601 { s with now := max s.now b.t } (startTo2 b s) := by
  unfold startTo2
  exact Keeps.step (startStep2_keeps _ _) rfl (Keeps.step (setIsl_keeps _ _) rfl (Keeps.step (setBel_keeps _ _) rfl
    (Keeps.step (setBoot_keeps _ _) rfl (Keeps.step (setCrn_keeps _ _ (fun _ h => h) (fun _ h => h)) rfl
    (Keeps.step (setPwr_keeps _ _) rfl ((romThresholds_keeps _).mono rfl))))))

/-- A start up to the end of step 2 sets the time. -/
theorem startTo2_now (b : StartIn) (s : State) : (startTo2 b s).now = max s.now b.t :=
  (startTo2_from b s).agree .now rfl

theorem startTo2_keeps (b : StartIn) (s : State) : Keeps 150996329 s (startTo2 b s) :=
  ((upd_now_keeps _ _ (Nat.le_max_left _ _)).mono rfl).trans ((startTo2_from b s).mono rfl)

theorem startSequence_keeps (b : StartIn) (s : State) : Keeps 34292629503 s (startSequence b s) := by
  unfold startSequence
  refine Keeps.ite ?_ Keeps.refl
  extract_lets +onlyGivenNames t0
  refine Keeps.ite (Keeps.step (romThresholds_keeps _) rfl ((atTime_keeps _ s).mono rfl)) ?_
  extract_lets +onlyGivenNames x4
  have hn : x4.now = t0 := startTo2_now b s
  have k : Keeps 34292629503 s x4 := (startTo2_keeps b s).mono rfl
  clear_value x4
  have ku : ∀ d, Keeps 34292629503 s { x4 with now := t0 + d } := fun d =>
    Keeps.step (upd_now_keeps _ _ (by rw [hn]; exact Nat.le_add_right _ _)) rfl k
  refine Keeps.ite ?_ (Keeps.ite ?_ ?_)
  · exact Keeps.step (alertPin_keeps _) rfl (Keeps.step (setBoot_keeps _ _) rfl (ku _))
  · exact Keeps.step (resetModule_keeps _ _ _) rfl (ku _)
  · exact Keeps.step (alertPin_keeps _) rfl (Keeps.step (startStep3_keeps _ _) rfl (ku _))

theorem execStartSequence_keeps (b) (s : State) : KeepsX 34292629503 s (execStartSequence b s) := by
  unfold execStartSequence
  refine KeepsX.next ?_
  refine Keeps.step (startSequence_keeps ..) rfl ?_
  exact Keeps.refl

theorem openPool_keeps (s : State) : Keeps 4196362 s (openPool s) := by
  unfold openPool
  extract_lets +onlyGivenNames x1
  refine Keeps.cut (p := Keeps 4196362 s x1) ?_ (fun k2 => ?_)
  · dsimp -zeta only [x1]
    refine Keeps.step (setBoot_keeps ..) rfl ?_
    refine Keeps.step (setPool_keeps ..) rfl ?_
    exact Keeps.refl
  clear_value x1
  refine Keeps.ite ?_ ?_
  · refine Keeps.step (critWrite_keeps ..) rfl ?_
    refine Keeps.step (upd_fuse_keeps _ _ rfl BitVec.and_self BitVec.and_self) rfl ?_
    exact k2
  · exact k2

theorem tryOpen_keeps (t) (s : State) : Keeps 943720458 s (tryOpen t s) := by
  unfold tryOpen
  extract_lets +onlyGivenNames x1
  refine Keeps.cut (p := Keeps 943720458 s x1) ?_ (fun k2 => ?_)
  · dsimp -zeta only [x1]
    refine Keeps.step (noteStep4_keeps ..) rfl ?_
    refine Keeps.step (atTime_keeps ..) rfl ?_
    exact Keeps.refl
  clear_value x1
  refine Keeps.ite ?_ ?_
  · refine Keeps.step (openPool_keeps ..) rfl ?_
    exact k2
  · exact k2

theorem execPoolOpen_keeps (t) (s : State) : KeepsX 943720458 s (execPoolOpen t s) := by
  unfold execPoolOpen
  refine KeepsX.next ?_
  refine Keeps.step (tryOpen_keeps ..) rfl ?_
  exact Keeps.refl

theorem execBackoffExpiry_keeps (t) (s : State) : KeepsX 943720458 s (execBackoffExpiry t s) := by
  unfold execBackoffExpiry
  extract_lets +onlyGivenNames x1
  refine Keeps.cut (p := Keeps 943720458 s x1) ?_ (fun k2 => ?_)
  · dsimp -zeta only [x1]
    refine Keeps.step (noteStep4_keeps ..) rfl ?_
    refine Keeps.step (atTime_keeps ..) rfl ?_
    exact Keeps.refl
  clear_value x1
  refine KeepsX.next ?_
  refine Keeps.ite ?_ ?_
  · refine Keeps.step (tryOpen_keeps ..) rfl ?_
    exact k2
  · exact k2

end Sys2Proof.Machine
end

