-- ==== Sys2Proof/Laws/KeepsRegWrite.lean ====
section
/-! SUPPORT. What each operation of Machine/RegWrite.lean can touch, that it goes onward and that it keeps the invariant. -/

namespace Sys2Proof.Machine

theorem clearCounts_keeps (v) (a) (s : State) : Keeps 17238580584 s (clearCounts v a s) := by
  unfold clearCounts
  extract_lets +onlyGivenNames x1
  clear_value x1
  extract_lets +onlyGivenNames x2
  clear_value x2
  refine Keeps.ite ?_ ?_
  · refine Keeps.step (upd_glb_keeps _ _) rfl ?_
    exact Keeps.refl
  · refine Keeps.ite ?_ ?_
    · refine Keeps.step (setIsl_keeps ..) rfl ?_
      exact Keeps.refl
    · refine Keeps.ite ?_ ?_
      · refine Keeps.step (setBoot_keeps ..) rfl ?_
        exact Keeps.refl
      · refine Keeps.ite ?_ ?_
        · refine Keeps.step (modPort_keeps ..) rfl ?_
          exact Keeps.refl
        · refine Keeps.ite ?_ ?_
          · refine Keeps.step (setRte_keeps ..) rfl ?_
            exact Keeps.refl
          · refine Keeps.ite ?_ ?_
            · refine Keeps.step (setE2e_keeps ..) rfl ?_
              exact Keeps.refl
            · refine Keeps.ite ?_ ?_
              · refine Keeps.step (setE2e_keeps ..) rfl ?_
                exact Keeps.refl
              · refine Keeps.ite ?_ ?_
                · refine Keeps.step (setPool_keeps ..) rfl ?_
                  exact Keeps.refl
                · refine Keeps.ite ?_ ?_
                  · refine Keeps.ite ?_ ?_
                    · refine Keeps.step (setPool_keeps ..) rfl ?_
                      exact Keeps.refl
                    · exact Keeps.refl
                  · refine Keeps.ite ?_ ?_
                    · refine Keeps.step (setCoh_keeps ..) rfl ?_
                      exact Keeps.refl
                    · refine Keeps.ite ?_ ?_
                      · refine Keeps.step (setVrb_keeps ..) rfl ?_
                        exact Keeps.refl
                      · refine Keeps.ite ?_ ?_
                        · refine Keeps.ite ?_ ?_
                          · refine Keeps.step (setFe_keeps ..) rfl ?_
                            exact Keeps.refl
                          · exact Keeps.refl
                        · refine Keeps.ite ?_ ?_
                          · refine Keeps.ite ?_ ?_
                            · refine Keeps.step (setFe_keeps ..) rfl ?_
                              exact Keeps.refl
                            · exact Keeps.refl
                          · refine Keeps.ite ?_ ?_
                            · refine Keeps.ite ?_ ?_
                              · refine Keeps.step (setWs_keeps ..) rfl ?_
                                exact Keeps.refl
                              · exact Keeps.refl
                            · refine Keeps.ite ?_ ?_
                              · refine Keeps.step (setKv_keeps ..) rfl ?_
                                exact Keeps.refl
                              · refine Keeps.ite ?_ ?_
                                · refine Keeps.step (setQos_keeps ..) rfl ?_
                                  exact Keeps.refl
                                · refine Keeps.ite ?_ ?_
                                  · refine Keeps.ite ?_ ?_
                                    · refine Keeps.step (modStack_keeps ..) rfl ?_
                                      exact Keeps.refl
                                    · exact Keeps.refl
                                  · refine Keeps.ite ?_ ?_
                                    · refine Keeps.step (modStack_keeps ..) rfl ?_
                                      exact Keeps.refl
                                    · refine Keeps.ite ?_ ?_
                                      · refine Keeps.step (setEcc_keeps ..) rfl ?_
                                        exact Keeps.refl
                                      · refine Keeps.ite ?_ ?_
                                        · refine Keeps.step (setEcc_keeps ..) rfl ?_
                                          exact Keeps.refl
                                        · refine Keeps.ite ?_ ?_
                                          · refine Keeps.step (setCrn_keeps _ _ (fun _ h => h) (fun _ h => h)) rfl ?_
                                            exact Keeps.refl
                                          · refine Keeps.ite ?_ ?_
                                            · extract_lets +onlyGivenNames x3
                                              clear_value x3
                                              refine Keeps.step (setCrn_keeps _ _ (fun _ h => h) (fun _ h => h)) rfl ?_
                                              exact Keeps.refl
                                            · refine Keeps.ite ?_ ?_
                                              · refine Keeps.step (setSec_keeps ..) rfl ?_
                                                exact Keeps.refl
                                              · refine Keeps.ite ?_ ?_
                                                · refine Keeps.step (setOnx_keeps _ _ (fun _ => rfl)) rfl ?_
                                                  exact Keeps.refl
                                                · refine Keeps.ite ?_ ?_
                                                  · refine Keeps.step (setBel_keeps ..) rfl ?_
                                                    exact Keeps.refl
                                                  · exact Keeps.refl

theorem critOfReg_keeps (a) (s : State) : Keeps 2152203328 s (critOfReg a s) := by
  unfold critOfReg
  refine Keeps.ite ?_ ?_
  · refine Keeps.step (critReadHi_keeps _ _ (.inl rfl)) rfl ?_
    exact Keeps.refl
  · refine Keeps.ite ?_ ?_
    · refine Keeps.step (critRead19_keeps _) rfl ?_
      exact Keeps.refl
    · refine Keeps.ite ?_ ?_
      · refine Keeps.step (critRead00_keeps _) rfl ?_
        exact Keeps.refl
      · exact Keeps.refl

theorem readNonce_keeps (s : State) : KeepsP 16777216 s (readNonce s) := by
  unfold readNonce
  split
  rename_i v1 v2 v3 v4
  refine Keeps.cut (p := Keeps 16777216 s v2) (KeepsP.ofEq ?_ v4) (fun k5 => ?_)
  · clear v4
    refine KeepsP.step (draw_keeps ..) rfl ?_
    exact Keeps.refl
  clear v4
  extract_lets +onlyGivenNames x6
  clear_value x6
  refine KeepsP.mk ?_
  refine Keeps.step (setOnx_keeps _ _ (fun _ => rfl)) rfl ?_
  exact k5

theorem readReg_keeps (q) (a) (s : State) : KeepsP 19386064232 s (readReg q a s) := by
  unfold readReg
  refine KeepsP.ite ?_ ?_
  · refine KeepsP.step (readNonce_keeps ..) rfl ?_
    exact Keeps.refl
  · extract_lets +onlyGivenNames x1
    refine Keeps.cut (p := Keeps 19386064232 s x1) ?_ (fun k2 => ?_)
    · dsimp -zeta only [x1]
      refine Keeps.step (critOfReg_keeps ..) rfl ?_
      exact Keeps.refl
    clear_value x1
    extract_lets +onlyGivenNames x3
    clear_value x3
    refine KeepsP.mk ?_
    refine Keeps.step (clearCounts_keeps ..) rfl ?_
    exact k2

theorem readRegs_keeps (q) (a) (a1) (s : State) : KeepsP 19386064232 s (readRegs q a a1 s) := by
  induction a generalizing q a1 s
  · unfold readRegs
    refine KeepsP.mk ?_
    exact Keeps.refl
  · rename_i v1 v2
    unfold readRegs
    dsimp -zeta only
    refine KeepsP.mk ?_
    refine KeepsP.fst ?_
    refine KeepsP.step (v2 _ _ _) (Nat.or_self _) ?_
    refine KeepsP.fst ?_
    refine KeepsP.step (readReg_keeps ..) rfl ?_
    exact Keeps.refl

theorem sel_keeps (q) (ok) (f) (s : State) : Keeps 4294967296 s (sel q ok f s) := by
  unfold sel
  refine Keeps.ite ?_ ?_
  · refine Keeps.step (setSels_keeps ..) rfl ?_
    exact Keeps.refl
  · exact Keeps.refl

theorem writeFabric_keeps (q) (a) (v) (s : State) : Keeps 7523270728 s (writeFabric q a v s) := by
  unfold writeFabric
  extract_lets +onlyGivenNames x1
  clear_value x1
  extract_lets +onlyGivenNames x2
  clear_value x2
  refine Keeps.ite ?_ ?_
  · refine Keeps.step (setSels_keeps ..) rfl ?_
    exact Keeps.refl
  · refine Keeps.ite ?_ ?_
    · refine Keeps.step (writeLnkCtl_keeps ..) rfl ?_
      exact Keeps.refl
    · refine Keeps.ite ?_ ?_
      · extract_lets +onlyGivenNames x3
        refine Keeps.cut (p := Keeps 7523270728 s x3) ?_ (fun k4 => ?_)
        · dsimp -zeta only [x3]
          refine Keeps.ite ?_ ?_
          · refine Keeps.step (clearHold_keeps ..) rfl ?_
            exact Keeps.refl
          · exact Keeps.refl
        clear_value x3
        refine Keeps.ite ?_ ?_
        · refine Keeps.step (portReset_keeps ..) rfl ?_
          exact k4
        · exact k4
      · refine Keeps.ite ?_ ?_
        · refine Keeps.step (modPort_keeps ..) rfl ?_
          exact Keeps.refl
        · refine Keeps.ite ?_ ?_
          · refine Keeps.step (setSels_keeps ..) rfl ?_
            exact Keeps.refl
          · refine Keeps.ite ?_ ?_
            · refine Keeps.step (grpSetWrite_keeps ..) rfl ?_
              exact Keeps.refl
            · refine Keeps.ite ?_ ?_
              · refine Keeps.ite ?_ ?_
                · refine Keeps.step (flip_keeps ..) rfl ?_
                  exact Keeps.refl
                · exact Keeps.refl
              · refine Keeps.ite ?_ ?_
                · refine Keeps.step (setSels_keeps ..) rfl ?_
                  exact Keeps.refl
                · exact Keeps.refl

theorem writeFe_keeps (q) (o) (v) (s : State) : Keeps 7557976128 s (writeFe q o v s) := by
  unfold writeFe
  extract_lets +onlyGivenNames x1
  clear_value x1
  extract_lets +onlyGivenNames x2
  clear_value x2
  refine Keeps.ite ?_ ?_
  · exact Keeps.refl
  · refine Keeps.ite ?_ ?_
    · extract_lets +onlyGivenNames x3
      clear_value x3
      refine Keeps.step (sel_keeps ..) rfl ?_
      exact Keeps.refl
    · refine Keeps.ite ?_ ?_
      · refine Keeps.ite ?_ ?_
        · refine Keeps.step (bankOwnWrite_keeps ..) rfl ?_
          exact Keeps.refl
        · exact Keeps.refl
      · refine Keeps.ite ?_ ?_
        · refine Keeps.step (sel_keeps ..) rfl ?_
          exact Keeps.refl
        · refine Keeps.ite ?_ ?_
          · extract_lets +onlyGivenNames x4
            clear_value x4
            refine Keeps.step (sel_keeps ..) rfl ?_
            exact Keeps.refl
          · refine Keeps.ite ?_ ?_
            · refine Keeps.ite ?_ ?_
              · refine Keeps.trans ?_ (parkAct_keeps (M := 7557976128) rfl (fun y5 y6 => ?_))
                · exact Keeps.refl
                · refine Keeps.step (parkRetry_keeps ..) rfl ?_
                  exact Keeps.refl
              · refine Keeps.ite ?_ ?_
                · refine Keeps.trans ?_ (parkAct_keeps (M := 7557976128) rfl (fun y7 y8 => ?_))
                  · exact Keeps.refl
                  · refine Keeps.step (parkAbort_keeps ..) rfl ?_
                    exact Keeps.refl
                · exact Keeps.refl
            · refine Keeps.ite ?_ ?_
              · refine Keeps.ite ?_ ?_
                · refine Keeps.step (modEng_keeps ..) rfl ?_
                  exact Keeps.refl
                · exact Keeps.refl
              · refine Keeps.ite ?_ ?_
                · refine Keeps.ite ?_ ?_
                  · refine Keeps.step (abftClr_keeps ..) rfl ?_
                    exact Keeps.refl
                  · exact Keeps.refl
                · exact Keeps.refl

theorem writeObjects_keeps (q) (a) (v) (s : State) : Keeps 7557976128 s (writeObjects q a v s) := by
  unfold writeObjects
  refine Keeps.ite ?_ ?_
  · refine Keeps.step (setSels_keeps ..) rfl ?_
    exact Keeps.refl
  · refine Keeps.ite ?_ ?_
    · refine Keeps.step (setSels_keeps ..) rfl ?_
      exact Keeps.refl
    · refine Keeps.ite ?_ ?_
      · refine Keeps.step (sel_keeps ..) rfl ?_
        exact Keeps.refl
      · refine Keeps.ite ?_ ?_
        · refine Keeps.step (sel_keeps ..) rfl ?_
          exact Keeps.refl
        · refine Keeps.ite ?_ ?_
          · refine Keeps.step (writeFe_keeps ..) rfl ?_
            exact Keeps.refl
          · refine Keeps.ite ?_ ?_
            · refine Keeps.step (sel_keeps ..) rfl ?_
              exact Keeps.refl
            · refine Keeps.ite ?_ ?_
              · refine Keeps.step (sel_keeps ..) rfl ?_
                exact Keeps.refl
              · refine Keeps.ite ?_ ?_
                · refine Keeps.step (sel_keeps ..) rfl ?_
                  exact Keeps.refl
                · refine Keeps.ite ?_ ?_
                  · refine Keeps.step (sel_keeps ..) rfl ?_
                    exact Keeps.refl
                  · refine Keeps.ite ?_ ?_
                    · refine Keeps.step (sel_keeps ..) rfl ?_
                      exact Keeps.refl
                    · exact Keeps.refl

theorem writeTrv_keeps (q) (node) (o) (v) (s : State) : Keeps 29578229857 s (writeTrv q node o v s) := by
  unfold writeTrv
  extract_lets +onlyGivenNames x1
  clear_value x1
  refine Keeps.ite ?_ ?_
  · refine Keeps.step (modTrv_keeps ..) rfl ?_
    exact Keeps.refl
  · refine Keeps.ite ?_ ?_
    · refine Keeps.step (modTrv_keeps ..) rfl ?_
      exact Keeps.refl
    · refine Keeps.ite ?_ ?_
      · refine Keeps.step (modTrv_keeps ..) rfl ?_
        exact Keeps.refl
      · refine Keeps.ite ?_ ?_
        · extract_lets +onlyGivenNames x2
          refine Keeps.cut (p := Keeps 29578229857 s x2) ?_ (fun k3 => ?_)
          · dsimp -zeta only [x2]
            refine Keeps.ite ?_ ?_
            · refine Keeps.step (trvStart_keeps ..) rfl ?_
              exact Keeps.refl
            · exact Keeps.refl
          clear_value x2
          refine Keeps.ite ?_ ?_
          · refine Keeps.step (trvStop_keeps ..) rfl ?_
            exact k3
          · exact k3
        · exact Keeps.refl

theorem writeService_keeps (sess) (a) (v) (s : State) : Keeps 33873198305 s (writeService sess a v s) := by
  unfold writeService
  extract_lets +onlyGivenNames x1
  clear_value x1
  extract_lets +onlyGivenNames x2
  clear_value x2
  extract_lets +onlyGivenNames x3
  clear_value x3
  extract_lets +onlyGivenNames x4
  clear_value x4
  refine Keeps.ite ?_ ?_
  · refine Keeps.step (upd_glb_keeps _ _) rfl ?_
    exact Keeps.refl
  · refine Keeps.ite ?_ ?_
    · refine Keeps.step (upd_glb_keeps _ _) rfl ?_
      exact Keeps.refl
    · refine Keeps.ite ?_ ?_
      · refine Keeps.step (setSels_keeps ..) rfl ?_
        exact Keeps.refl
      · refine Keeps.ite ?_ ?_
        · refine Keeps.step (writeShp_keeps ..) rfl ?_
          exact Keeps.refl
        · refine Keeps.ite ?_ ?_
          · refine Keeps.step (setSels_keeps ..) rfl ?_
            exact Keeps.refl
          · refine Keeps.ite ?_ ?_
            · refine Keeps.step (setSels_keeps ..) rfl ?_
              exact Keeps.refl
            · refine Keeps.ite ?_ ?_
              · refine Keeps.step (modStack_keeps ..) rfl ?_
                exact Keeps.refl
              · refine Keeps.ite ?_ ?_
                · refine Keeps.step (latchLog_keeps ..) rfl ?_
                  exact Keeps.refl
                · refine Keeps.ite ?_ ?_
                  · refine Keeps.ite ?_ ?_
                    · refine Keeps.step (setEcc_keeps ..) rfl ?_
                      exact Keeps.refl
                    · exact Keeps.refl
                  · refine Keeps.ite ?_ ?_
                    · refine Keeps.step (injWrite_keeps ..) rfl ?_
                      exact Keeps.refl
                    · refine Keeps.ite ?_ ?_
                      · refine Keeps.step (setEcc_keeps ..) rfl ?_
                        exact Keeps.refl
                      · refine Keeps.ite ?_ ?_
                        · refine Keeps.step (setEcc_keeps ..) rfl ?_
                          exact Keeps.refl
                        · refine Keeps.ite ?_ ?_
                          · refine Keeps.step (crnPop_keeps ..) rfl ?_
                            exact Keeps.refl
                          · refine Keeps.ite ?_ ?_
                            · refine Keeps.step (setSels_keeps ..) rfl ?_
                              exact Keeps.refl
                            · refine Keeps.ite ?_ ?_
                              · refine Keeps.ite ?_ ?_
                                · exact Keeps.refl
                                · refine Keeps.ite ?_ ?_
                                  · refine Keeps.step (blockPeer_keeps ..) rfl ?_
                                    exact Keeps.refl
                                  · refine Keeps.ite ?_ ?_
                                    · refine Keeps.step (unblockPeer_keeps ..) rfl ?_
                                      exact Keeps.refl
                                    · exact Keeps.refl
                              · refine Keeps.ite ?_ ?_
                                · refine Keeps.step (setSels_keeps ..) rfl ?_
                                  exact Keeps.refl
                                · refine Keeps.ite ?_ ?_
                                  · refine Keeps.step (setSels_keeps ..) rfl ?_
                                    exact Keeps.refl
                                  · refine Keeps.ite ?_ ?_
                                    · refine Keeps.step (setSels_keeps ..) rfl ?_
                                      exact Keeps.refl
                                    · refine Keeps.ite ?_ ?_
                                      · refine Keeps.ite ?_ ?_
                                        · refine Keeps.step (forceSwitch_keeps ..) rfl ?_
                                          exact Keeps.refl
                                        · exact Keeps.refl
                                      · refine Keeps.ite ?_ ?_
                                        · refine Keeps.ite ?_ ?_
                                          · refine Keeps.step (setPwr_keeps ..) rfl ?_
                                            exact Keeps.refl
                                          · exact Keeps.refl
                                        · exact Keeps.refl

theorem writeReg_keeps (q) (node) (a) (v) (s : State) : Keeps 33873198313 s (writeReg q node a v s) := by
  unfold writeReg
  refine Keeps.ite ?_ ?_
  · refine Keeps.step (writeTrv_keeps ..) rfl ?_
    exact Keeps.refl
  · refine Keeps.ite ?_ ?_
    · refine Keeps.step (writeObjects_keeps ..) rfl ?_
      exact Keeps.refl
    · split
      · rename_i v1 v2
        exact Keeps.refl
      · rename_i v3 v4
        refine Keeps.ite ?_ ?_
        · refine Keeps.step (writeFabric_keeps ..) rfl ?_
          exact Keeps.refl
        · refine Keeps.step (writeService_keeps ..) rfl ?_
          exact Keeps.refl

theorem pageRead_keeps (tid) (p) (s : State) : KeepsP 19386064232 s (pageRead tid p s) := by
  unfold pageRead
  split
  · rename_i v1 v2 v3
    refine KeepsP.step (readReg_keeps ..) rfl ?_
    exact Keeps.refl
  · rename_i v4 v5
    refine KeepsP.mk ?_
    exact Keeps.refl

theorem pageWrite_keeps (tid) (node) (p) (v) (s : State) : Keeps 33873198313 s (pageWrite tid node p v s) := by
  unfold pageWrite
  split
  · rename_i v1 v2 v3
    refine Keeps.step (writeReg_keeps ..) rfl ?_
    exact Keeps.refl
  · rename_i v4 v5
    exact Keeps.refl

theorem pageAccess_keeps (w) (s : State) : Keeps 33889975785 s (pageAccess w s) := by
  unfold pageAccess
  extract_lets +onlyGivenNames x1
  clear_value x1
  extract_lets +onlyGivenNames x2
  refine Keeps.ite ?_ ?_
  · refine Keeps.step (ctlDenied_keeps ..) rfl ?_
    exact Keeps.refl
  · refine Keeps.ite ?_ ?_
    · split
      rename_i v3 v4 v5 v6
      refine Keeps.cut (p := Keeps 33889975785 s v4) (KeepsP.ofEq ?_ v6) (fun k7 => ?_)
      · clear v6
        refine KeepsP.step (pageRead_keeps ..) rfl ?_
        exact Keeps.refl
      clear v6
      refine Keeps.step (reply_keeps ..) rfl ?_
      exact k7
    · refine Keeps.step (replySt_keeps ..) rfl ?_
      refine Keeps.step (pageWrite_keeps ..) rfl ?_
      exact Keeps.refl

end Sys2Proof.Machine
end

