-- ==== Sys2Proof/Laws/KeepsMemVerbs.lean ====
section
/-! SUPPORT. What each operation of Machine/MemVerbs.lean can touch, that it goes onward and that it keeps the invariant. -/

namespace Sys2Proof.Machine

theorem memVerb_keeps (w) (s : State) : Keeps 33889975785 s (memVerb w s) := by
  unfold memVerb
  refine Keeps.ite ?_ ?_
  · refine Keeps.step (pageAccess_keeps ..) rfl ?_
    exact Keeps.refl
  · refine Keeps.ite ?_ ?_
    · refine Keeps.step (waitFor_keeps ..) rfl ?_
      exact Keeps.refl
    · refine Keeps.step (memAttempt_keeps ..) rfl ?_
      exact Keeps.refl

theorem execLoad_keeps (r) (e) (s : State) : KeepsX 34292628969 s (execLoad r e s) := by
  unfold execLoad
  refine KeepsX.next ?_
  refine Keeps.trans ?_ (runVerb_keeps (M := 34292628969) rfl (fun y1 y2 => ?_))
  · refine Keeps.step (applySram_keeps ..) rfl ?_
    refine Keeps.step (atTime_keeps ..) rfl ?_
    exact Keeps.refl
  · refine Keeps.step (memVerb_keeps ..) rfl ?_
    exact Keeps.refl

theorem execLoadCached_keeps (r) (e) (s : State) : KeepsX 34292628969 s (execLoadCached r e s) := by
  unfold execLoadCached
  refine KeepsX.next ?_
  refine Keeps.trans ?_ (runVerb_keeps (M := 34292628969) rfl (fun y1 y2 => ?_))
  · refine Keeps.step (applySram_keeps ..) rfl ?_
    refine Keeps.step (atTime_keeps ..) rfl ?_
    exact Keeps.refl
  · refine Keeps.step (memVerb_keeps ..) rfl ?_
    exact Keeps.refl

theorem execStore_keeps (r) (e) (s : State) : KeepsX 34292628969 s (execStore r e s) := by
  unfold execStore
  refine KeepsX.next ?_
  refine Keeps.trans ?_ (runVerb_keeps (M := 34292628969) rfl (fun y1 y2 => ?_))
  · refine Keeps.step (applySram_keeps ..) rfl ?_
    refine Keeps.step (atTime_keeps ..) rfl ?_
    exact Keeps.refl
  · refine Keeps.step (memVerb_keeps ..) rfl ?_
    exact Keeps.refl

theorem execStoreNotify_keeps (r) (e) (s : State) : KeepsX 34292628969 s (execStoreNotify r e s) := by
  unfold execStoreNotify
  refine KeepsX.next ?_
  refine Keeps.trans ?_ (runVerb_keeps (M := 34292628969) rfl (fun y1 y2 => ?_))
  · refine Keeps.step (applySram_keeps ..) rfl ?_
    refine Keeps.step (atTime_keeps ..) rfl ?_
    exact Keeps.refl
  · refine Keeps.step (memVerb_keeps ..) rfl ?_
    exact Keeps.refl

theorem execStoreNotifyRelease_keeps (src) (tag) (e) (s : State) : KeepsX 29997660265 s (execStoreNotifyRelease src tag e s) := by
  unfold execStoreNotifyRelease
  extract_lets +onlyGivenNames x1
  refine Keeps.cut (p := Keeps 29997660265 s x1) ?_ (fun k2 => ?_)
  · dsimp -zeta only [x1]
    refine Keeps.step (applySram_keeps ..) rfl ?_
    refine Keeps.step (applyEnv_keeps ..) rfl ?_
    exact Keeps.refl
  clear_value x1
  refine KeepsX.next ?_
  split
  · rename_i v3 v4 v5
    refine Keeps.ite ?_ ?_
    · exact k2
    · refine Keeps.step (retryOne_keeps ..) rfl ?_
      exact k2
  · rename_i v6 v7
    exact k2

theorem execAtomicFetch_keeps (r) (e) (s : State) : KeepsX 34292628969 s (execAtomicFetch r e s) := by
  unfold execAtomicFetch
  refine KeepsX.next ?_
  refine Keeps.trans ?_ (runVerb_keeps (M := 34292628969) rfl (fun y1 y2 => ?_))
  · refine Keeps.step (applySram_keeps ..) rfl ?_
    refine Keeps.step (atTime_keeps ..) rfl ?_
    exact Keeps.refl
  · refine Keeps.step (memVerb_keeps ..) rfl ?_
    exact Keeps.refl

theorem execAtomicAdd_keeps (r) (e) (s : State) : KeepsX 34292628969 s (execAtomicAdd r e s) := by
  unfold execAtomicAdd
  refine KeepsX.next ?_
  refine Keeps.trans ?_ (runVerb_keeps (M := 34292628969) rfl (fun y1 y2 => ?_))
  · refine Keeps.step (applySram_keeps ..) rfl ?_
    refine Keeps.step (atTime_keeps ..) rfl ?_
    exact Keeps.refl
  · refine Keeps.step (memVerb_keeps ..) rfl ?_
    exact Keeps.refl

theorem execAtomicSwap_keeps (r) (e) (s : State) : KeepsX 34292628969 s (execAtomicSwap r e s) := by
  unfold execAtomicSwap
  refine KeepsX.next ?_
  refine Keeps.trans ?_ (runVerb_keeps (M := 34292628969) rfl (fun y1 y2 => ?_))
  · refine Keeps.step (applySram_keeps ..) rfl ?_
    refine Keeps.step (atTime_keeps ..) rfl ?_
    exact Keeps.refl
  · refine Keeps.step (memVerb_keeps ..) rfl ?_
    exact Keeps.refl

theorem execAtomicCas_keeps (r) (e) (s : State) : KeepsX 34292628969 s (execAtomicCas r e s) := by
  unfold execAtomicCas
  refine KeepsX.next ?_
  refine Keeps.trans ?_ (runVerb_keeps (M := 34292628969) rfl (fun y1 y2 => ?_))
  · refine Keeps.step (applySram_keeps ..) rfl ?_
    refine Keeps.step (atTime_keeps ..) rfl ?_
    exact Keeps.refl
  · refine Keeps.step (memVerb_keeps ..) rfl ?_
    exact Keeps.refl

theorem execAtomicMin_keeps (r) (e) (s : State) : KeepsX 34292628969 s (execAtomicMin r e s) := by
  unfold execAtomicMin
  refine KeepsX.next ?_
  refine Keeps.trans ?_ (runVerb_keeps (M := 34292628969) rfl (fun y1 y2 => ?_))
  · refine Keeps.step (applySram_keeps ..) rfl ?_
    refine Keeps.step (atTime_keeps ..) rfl ?_
    exact Keeps.refl
  · refine Keeps.step (memVerb_keeps ..) rfl ?_
    exact Keeps.refl

theorem execAtomicMax_keeps (r) (e) (s : State) : KeepsX 34292628969 s (execAtomicMax r e s) := by
  unfold execAtomicMax
  refine KeepsX.next ?_
  refine Keeps.trans ?_ (runVerb_keeps (M := 34292628969) rfl (fun y1 y2 => ?_))
  · refine Keeps.step (applySram_keeps ..) rfl ?_
    refine Keeps.step (atTime_keeps ..) rfl ?_
    exact Keeps.refl
  · refine Keeps.step (memVerb_keeps ..) rfl ?_
    exact Keeps.refl

end Sys2Proof.Machine
end

