-- ==== Sys2Proof/Laws/KeepsStage.lean ====
section
/-! SUPPORT. What each operation of Machine/Stage.lean can touch, that it goes onward and that it keeps the invariant. -/

namespace Sys2Proof.Machine

theorem modDev_keeps (x) (f) (s : State) : Keeps 4 s (modDev x f s) := by
  unfold modDev
  refine Keeps.step (upd_flash_keeps _ _) rfl ?_
  exact Keeps.refl

theorem staging_keeps {sess t : Nat} {f : State → State} {s : State} {M : Nat} (hm : 34292629503 ||| M = M)
    (h : ∀ s, Keeps M s (f s)) : Keeps M s (staging sess t f s) := by
  unfold staging
  refine withSess_keeps (mask_trans rfl hm) (fun s => ?_)
  split
  · exact (mgmtReply_keeps _ _ _ s).mono (mask_trans rfl hm)
  · exact h s

theorem stageBegin_keeps (sess) (s : State) : Keeps 2147483660 s (stageBegin sess s) := by
  unfold stageBegin
  refine Keeps.ite ?_ ?_
  · refine Keeps.step (mgmtReply_keeps ..) rfl ?_
    exact Keeps.refl
  · extract_lets +onlyGivenNames x1
    clear_value x1
    refine Keeps.step (mgmtReply_keeps ..) rfl ?_
    refine Keeps.step (setBoot_keeps ..) rfl ?_
    refine Keeps.step (modDev_keeps ..) rfl ?_
    exact Keeps.refl

theorem execImageStageBegin_keeps (sess) (t) (s : State) : KeepsX 34292629503 s (execImageStageBegin sess t s) := by
  unfold execImageStageBegin
  refine KeepsX.next ?_
  refine Keeps.trans ?_ (staging_keeps (M := 34292629503) rfl (fun y1 => ?_))
  · exact Keeps.refl
  · refine Keeps.step (stageBegin_keeps ..) rfl ?_
    exact Keeps.refl

theorem stageWrite_keeps (sess) (ofs) (data) (s : State) : Keeps 3221225484 s (stageWrite sess ofs data s) := by
  unfold stageWrite
  split
  rename_i v1 v2 v3 v4
  refine Keeps.cut (p := Keeps 3221225484 s v2) (KeepsP.ofEq ?_ v4) (fun k5 => ?_)
  · clear v4
    refine KeepsP.ite ?_ ?_
    · refine KeepsP.step (freeBytes_keeps ..) rfl ?_
      exact Keeps.refl
    · refine KeepsP.mk ?_
      exact Keeps.refl
  clear v4
  refine Keeps.ite ?_ ?_
  · refine Keeps.step (mgmtReply_keeps ..) rfl ?_
    exact k5
  · refine Keeps.step (mgmtReply_keeps ..) rfl ?_
    refine Keeps.step (setBoot_keeps ..) rfl ?_
    refine Keeps.step (modDev_keeps ..) rfl ?_
    exact k5

theorem execImageStageWrite_keeps (sess) (ofs) (data) (t) (s : State) : KeepsX 34292629503 s (execImageStageWrite sess ofs data t s) := by
  unfold execImageStageWrite
  refine KeepsX.next ?_
  refine Keeps.trans ?_ (staging_keeps (M := 34292629503) rfl (fun y1 => ?_))
  · exact Keeps.refl
  · refine Keeps.step (stageWrite_keeps ..) rfl ?_
    exact Keeps.refl

theorem stageVerify_keeps (sess) (s : State) : Keeps 2147483656 s (stageVerify sess s) := by
  unfold stageVerify
  refine Keeps.ite ?_ ?_
  · refine Keeps.step (mgmtReply_keeps ..) rfl ?_
    exact Keeps.refl
  · extract_lets +onlyGivenNames x1
    clear_value x1
    extract_lets +onlyGivenNames x2
    clear_value x2
    refine Keeps.step (mgmtReply_keeps ..) rfl ?_
    refine Keeps.step (setBoot_keeps ..) rfl ?_
    exact Keeps.refl

theorem execImageStageVerify_keeps (sess) (t) (s : State) : KeepsX 34292629503 s (execImageStageVerify sess t s) := by
  unfold execImageStageVerify
  refine KeepsX.next ?_
  refine Keeps.trans ?_ (staging_keeps (M := 34292629503) rfl (fun y1 => ?_))
  · exact Keeps.refl
  · refine Keeps.step (stageVerify_keeps ..) rfl ?_
    exact Keeps.refl

theorem stageCommit_keeps (sess) (s : State) : Keeps 2147483660 s (stageCommit sess s) := by
  unfold stageCommit
  refine Keeps.ite ?_ ?_
  · refine Keeps.step (mgmtReply_keeps ..) rfl ?_
    exact Keeps.refl
  · extract_lets +onlyGivenNames x1
    clear_value x1
    extract_lets +onlyGivenNames x2
    refine Keeps.cut (p := Keeps 2147483660 s x2) ?_ (fun k3 => ?_)
    · dsimp -zeta only [x2]
      refine Keeps.step (modDev_keeps ..) rfl ?_
      exact Keeps.refl
    clear_value x2
    extract_lets +onlyGivenNames x4
    refine Keeps.cut (p := Keeps 2147483660 s x4) ?_ (fun k5 => ?_)
    · dsimp -zeta only [x4]
      refine Keeps.ite ?_ ?_
      · refine Keeps.step (modDev_keeps ..) rfl ?_
        exact k3
      · exact k3
    clear_value x4
    refine Keeps.step (mgmtReply_keeps ..) rfl ?_
    refine Keeps.step (setBoot_keeps ..) rfl ?_
    exact k5

theorem execImageStageCommit_keeps (sess) (t) (s : State) : KeepsX 34292629503 s (execImageStageCommit sess t s) := by
  unfold execImageStageCommit
  refine KeepsX.next ?_
  refine Keeps.trans ?_ (staging_keeps (M := 34292629503) rfl (fun y1 => ?_))
  · exact Keeps.refl
  · refine Keeps.step (stageCommit_keeps ..) rfl ?_
    exact Keeps.refl

theorem stageAbort_keeps (s : State) : Keeps 8 s (stageAbort s) := by
  unfold stageAbort
  refine Keeps.step (setBoot_keeps ..) rfl ?_
  exact Keeps.refl

theorem execImageStageAbort_keeps (sess) (t) (s : State) : KeepsX 34292629503 s (execImageStageAbort sess t s) := by
  unfold execImageStageAbort
  refine KeepsX.next ?_
  refine Keeps.trans ?_ (staging_keeps (M := 34292629503) rfl (fun y1 => ?_))
  · exact Keeps.refl
  · refine Keeps.step (mgmtReply_keeps ..) rfl ?_
    refine Keeps.step (stageAbort_keeps ..) rfl ?_
    exact Keeps.refl

end Sys2Proof.Machine
end

