-- ==== Sys2Proof/Laws/KeepsMgmt.lean ====
section
/-! SUPPORT. What each operation of Machine/Mgmt.lean can touch, that it goes onward and that it keeps the invariant. -/

namespace Sys2Proof.Machine

theorem closeSess_keeps (sess) (s : State) : Keeps 4294967816 s (closeSess sess s) := by
  unfold closeSess
  extract_lets +onlyGivenNames x1
  refine Keeps.cut (p := Keeps 4294967816 s x1) ?_ (fun k2 => ?_)
  · dsimp -zeta only [x1]
    refine Keeps.step (setMgmt_keeps ..) rfl ?_
    exact Keeps.refl
  extract_lets +onlyGivenNames x3
  refine Keeps.cut (p := Keeps 4294967816 s x3) ?_ (fun k4 => ?_)
  · dsimp -zeta only [x3]
    refine Keeps.step (upd_sels_keeps _ _) rfl ?_
    exact k2
  refine Keeps.ite ?_ ?_
  · refine Keeps.ite ?_ ?_
    · refine Keeps.step (setBoot_keeps ..) rfl ?_
      exact k4
    · refine Keeps.step (stageAbort_keeps ..) rfl ?_
      exact k4
  · exact k4

theorem execMgmtSessionClose_keeps (sess) (t) (s : State) : KeepsX 34292629503 s (execMgmtSessionClose sess t s) := by
  unfold execMgmtSessionClose
  refine KeepsX.next ?_
  refine Keeps.trans ?_ (withSess_keeps (M := 34292629503) rfl (fun y1 => ?_))
  · exact Keeps.refl
  · refine Keeps.step (closeSess_keeps ..) rfl ?_
    exact Keeps.refl

theorem idleClose_keeps (sess) (s : State) : Keeps 4294967816 s (idleClose sess s) := by
  unfold idleClose
  split
  · rename_i v1 v2 v3
    refine Keeps.ite ?_ ?_
    · refine Keeps.step (closeSess_keeps ..) rfl ?_
      exact Keeps.refl
    · exact Keeps.refl
  · rename_i v4 v5
    exact Keeps.refl

theorem execMgmtSessionIdleTimeout_keeps (sess) (t) (s : State) : KeepsX 5234491912 s (execMgmtSessionIdleTimeout sess t s) := by
  unfold execMgmtSessionIdleTimeout
  refine KeepsX.next ?_
  refine Keeps.step (idleClose_keeps ..) rfl ?_
  refine Keeps.step (atTime_keeps ..) rfl ?_
  exact Keeps.refl

theorem noteHs_keeps (port) (s : State) : Keeps 512 s (noteHs port s) := by
  unfold noteHs
  extract_lets +onlyGivenNames x1
  clear_value x1
  refine Keeps.step (setMgmt_keeps ..) rfl ?_
  exact Keeps.refl

theorem hsFails_keeps (s : State) : Keeps 512 s (hsFails s) := by
  unfold hsFails
  refine Keeps.step (setMgmt_keeps ..) rfl ?_
  exact Keeps.refl

theorem tlsHandshake_keeps (h) (s : State) : Keeps 34158411775 s (tlsHandshake h s) := by
  unfold tlsHandshake
  extract_lets +onlyGivenNames x1
  refine Keeps.cut (p := Keeps 34158411775 s x1) ?_ (fun k2 => ?_)
  · dsimp -zeta only [x1]
    refine Keeps.step (mgmtWake_keeps ..) rfl ?_
    exact Keeps.refl
  clear_value x1
  refine Keeps.ite ?_ ?_
  · exact k2
  · refine Keeps.ite ?_ ?_
    · refine Keeps.step (hsFails_keeps ..) rfl ?_
      exact k2
    · extract_lets +onlyGivenNames x3
      refine Keeps.cut (p := Keeps 34158411775 s x3) ?_ (fun k4 => ?_)
      · dsimp -zeta only [x3]
        refine Keeps.step (noteHs_keeps ..) rfl ?_
        exact k2
      clear_value x3
      split
      · rename_i v5 v6
        refine Keeps.step (hsFails_keeps ..) rfl ?_
        exact k4
      · rename_i v7 v8 v9 v10
        refine Keeps.ite ?_ ?_
        · refine Keeps.step (setMgmt_keeps ..) rfl ?_
          exact k4
        · refine Keeps.step (hsFails_keeps ..) rfl ?_
          exact k4

theorem execMgmtTlsHandshake_keeps (h) (s : State) : KeepsX 34292629503 s (execMgmtTlsHandshake h s) := by
  unfold execMgmtTlsHandshake
  refine KeepsX.next ?_
  refine Keeps.step (tlsHandshake_keeps ..) rfl ?_
  refine Keeps.step (atTime_keeps ..) rfl ?_
  exact Keeps.refl

end Sys2Proof.Machine
end

