-- ==== Sys2Proof/Laws/KeepsPower.lean ====
section
/-! SUPPORT. What each operation of Machine/Power.lean can touch, that it goes onward and that it keeps the invariant. -/

namespace Sys2Proof.Machine

theorem powerOn_keeps (b : BusIn) (s : State) : Keeps 31071404031 s (powerOn b s) := by
  unfold powerOn
  refine Keeps.ite ?_ ?_
  · exact Keeps.step (atTime_keeps ..) rfl Keeps.refl
  · extract_lets +onlyGivenNames x1
    have k : Keeps 31071404031 s x1 := Keeps.step (powerLost_keeps ..) rfl (Keeps.step (atTime_keeps ..) rfl Keeps.refl)
    clear_value x1
    extract_lets +onlyGivenNames x3 x4
    refine Keeps.step (softStart_keeps ..) rfl (k.trans ?_)
    exact ⟨fun p => by cases p <;> first | exact fun _ => rfl | exact fun h => (nomatch h),
      ⟨Nat.le_refl _, Nat.le_refl _, Nat.le_refl _, List.prefix_refl _, rfl, BitVec.and_self, BitVec.and_self⟩,
      fun i => ⟨i.memory, i.cairn, i.retained, freshStacks_length x1⟩⟩

theorem execPowerOn_keeps (b) (s : State) : KeepsX 31071404031 s (execPowerOn b s) := by
  unfold execPowerOn
  refine KeepsX.next ?_
  refine Keeps.step (powerOn_keeps ..) rfl ?_
  exact Keeps.refl

theorem cycleEnds_keeps (s : State) : Keeps 9 s (cycleEnds s) := by
  unfold cycleEnds
  split
  · rename_i v1 v2
    refine Keeps.step (setPwr_keeps ..) rfl ?_
    exact Keeps.refl
  · rename_i v3 v4
    refine Keeps.ite ?_ ?_
    · refine Keeps.step (setPwr_keeps ..) rfl ?_
      exact Keeps.refl
    · exact Keeps.refl
  · rename_i v5 v6
    refine Keeps.ite ?_ ?_
    · refine Keeps.step (setBoot_keeps ..) rfl ?_
      refine Keeps.step (setPwr_keeps ..) rfl ?_
      exact Keeps.refl
    · exact Keeps.refl
  · rename_i v7 v8
    refine Keeps.ite ?_ ?_
    · refine Keeps.step (setPwr_keeps ..) rfl ?_
      exact Keeps.refl
    · exact Keeps.refl
  · rename_i v9 v10 v11 v12 v13
    exact Keeps.refl

theorem enRise_keeps (s : State) : Keeps 2147483945 s (enRise s) := by
  unfold enRise
  extract_lets +onlyGivenNames x1
  refine Keeps.cut (p := Keeps 2147483945 s x1) ?_ (fun k2 => ?_)
  · dsimp -zeta only [x1]
    refine Keeps.step (belayStops_keeps ..) rfl ?_
    exact Keeps.refl
  clear_value x1
  refine Keeps.ite ?_ ?_
  · exact k2
  · refine Keeps.ite ?_ ?_
    · refine Keeps.step (setPwr_keeps ..) rfl ?_
      exact k2
    · extract_lets +onlyGivenNames x3
      refine Keeps.cut (p := Keeps 2147483945 s x3) ?_ (fun k4 => ?_)
      · dsimp -zeta only [x3]
        refine Keeps.step (setPwr_keeps ..) rfl ?_
        refine Keeps.step (cycleEnds_keeps ..) rfl ?_
        refine Keeps.step (setPwr_keeps ..) rfl ?_
        exact k2
      clear_value x3
      refine Keeps.step (alertPin_keeps ..) rfl ?_
      refine Keeps.step (permitRestart_keeps ..) rfl ?_
      refine Keeps.step (softStart_keeps ..) rfl ?_
      exact k4

theorem execEnRise_keeps (t) (s : State) : KeepsX 3087008041 s (execEnRise t s) := by
  unfold execEnRise
  refine KeepsX.next ?_
  refine Keeps.step (enRise_keeps ..) rfl ?_
  refine Keeps.step (atTime_keeps ..) rfl ?_
  exact Keeps.refl

theorem mainOff_keeps (s : State) : Keeps 1 s (mainOff s) := by
  unfold mainOff
  refine Keeps.step (setPwr_keeps ..) rfl ?_
  exact Keeps.refl

theorem enFall_keeps (s : State) : Keeps 34158411775 s (enFall s) := by
  unfold enFall
  extract_lets +onlyGivenNames x1
  refine Keeps.cut (p := Keeps 34158411775 s x1) ?_ (fun k2 => ?_)
  · dsimp -zeta only [x1]
    refine Keeps.step (belayStops_keeps ..) rfl ?_
    exact Keeps.refl
  clear_value x1
  refine Keeps.ite ?_ ?_
  · exact k2
  · refine Keeps.ite ?_ ?_
    · refine Keeps.step (mainOff_keeps ..) rfl ?_
      refine Keeps.step (setPwr_keeps ..) rfl ?_
      exact k2
    · extract_lets +onlyGivenNames x3
      refine Keeps.cut (p := Keeps 34158411775 s x3) ?_ (fun k4 => ?_)
      · dsimp -zeta only [x3]
        refine Keeps.step (setPwr_keeps ..) rfl ?_
        exact k2
      clear_value x3
      refine Keeps.ite ?_ ?_
      · refine Keeps.step (beginLeave_keeps ..) rfl ?_
        refine Keeps.step (wakeFull_keeps ..) rfl ?_
        exact k4
      · refine Keeps.ite ?_ ?_
        · refine Keeps.step (mainOff_keeps ..) rfl ?_
          exact k4
        · refine Keeps.ite ?_ ?_
          · refine Keeps.step (resetModule_keeps ..) rfl ?_
            exact k4
          · exact k4

theorem execEnFall_keeps (t) (s : State) : KeepsX 34292629503 s (execEnFall t s) := by
  unfold execEnFall
  refine KeepsX.next ?_
  refine Keeps.step (enFall_keeps ..) rfl ?_
  refine Keeps.step (atTime_keeps ..) rfl ?_
  exact Keeps.refl

theorem resetN_keeps (dur) (t) (s : State) : Keeps 33218887679 s (resetN dur t s) := by
  unfold resetN
  extract_lets +onlyGivenNames x1
  refine Keeps.cut (p := Keeps 33218887679 s x1) ?_ (fun k2 => ?_)
  · dsimp -zeta only [x1]
    refine Keeps.step (belayStops_keeps ..) rfl ?_
    refine Keeps.step (atTime_keeps ..) rfl ?_
    exact Keeps.refl
  clear_value x1
  refine Keeps.ite ?_ ?_
  · exact k2
  · extract_lets +onlyGivenNames x3
    clear_value x3
    extract_lets +onlyGivenNames x4
    refine Keeps.cut (p := Keeps 33218887679 s x4) ?_ (fun k5 => ?_)
    · dsimp -zeta only [x4]
      refine Keeps.step (resetModule_keeps ..) rfl ?_
      exact k2
    clear_value x4
    extract_lets +onlyGivenNames x6
    refine Keeps.cut (p := Keeps 33218887679 s x6) ?_ (fun k7 => ?_)
    · dsimp -zeta only [x6]
      refine Keeps.step (setPwr_keeps ..) rfl ?_
      refine Keeps.step (atTime_keeps ..) rfl ?_
      exact k5
    clear_value x6
    refine Keeps.step (alertPin_keeps ..) rfl ?_
    refine Keeps.step (permitRestart_keeps ..) rfl ?_
    refine Keeps.step (softStart_keeps ..) rfl ?_
    exact k7

theorem execResetNAssert_keeps (dur) (t) (s : State) : KeepsX 33218887679 s (execResetNAssert dur t s) := by
  unfold execResetNAssert
  refine KeepsX.next ?_
  refine Keeps.step (resetN_keeps ..) rfl ?_
  exact Keeps.refl

theorem overVoltage_keeps (mv) (s : State) : Keeps 33084669951 s (overVoltage mv s) := by
  unfold overVoltage
  refine Keeps.ite ?_ ?_
  · refine Keeps.step (emergencyShutdown_keeps ..) rfl ?_
    refine Keeps.step (setPwr_keeps ..) rfl ?_
    exact Keeps.refl
  · exact Keeps.refl

theorem execInputOvervoltage_keeps (mv) (t) (s : State) : KeepsX 33218887679 s (execInputOvervoltage mv t s) := by
  unfold execInputOvervoltage
  refine KeepsX.next ?_
  refine Keeps.step (overVoltage_keeps ..) rfl ?_
  refine Keeps.step (atTime_keeps ..) rfl ?_
  exact Keeps.refl

theorem execInputDropout_keeps (durUs) (t) (s : State) : KeepsX 31071404031 s (execInputDropout durUs t s) := by
  unfold execInputDropout
  extract_lets +onlyGivenNames x1
  refine Keeps.cut (p := Keeps 31071404031 s x1) ?_ (fun k2 => ?_)
  · dsimp -zeta only [x1]
    refine Keeps.step (atTime_keeps ..) rfl ?_
    exact Keeps.refl
  clear_value x1
  refine KeepsX.next ?_
  refine Keeps.ite ?_ ?_
  · exact k2
  · refine Keeps.step (powerLost_keeps ..) rfl ?_
    exact k2

theorem mainRailLoss_keeps (s : State) : Keeps 34158411775 s (mainRailLoss s) := by
  unfold mainRailLoss
  refine Keeps.ite ?_ ?_
  · exact Keeps.refl
  · refine Keeps.ite ?_ ?_
    · split
      rename_i v1 v2 v3 v4
      refine Keeps.cut (p := Keeps 34158411775 s v2) (KeepsP.ofEq ?_ v4) (fun k5 => ?_)
      · clear v4
        refine KeepsP.step (takeFree_keeps ..) rfl ?_
        exact Keeps.refl
      clear v4
      refine Keeps.step (setPwr_keeps ..) rfl ?_
      refine Keeps.step (resetModule_keeps ..) rfl ?_
      exact k5
    · refine Keeps.step (setPwr_keeps ..) rfl ?_
      exact Keeps.refl

theorem execMainRailLoss_keeps (t) (s : State) : KeepsX 34292629503 s (execMainRailLoss t s) := by
  unfold execMainRailLoss
  refine KeepsX.next ?_
  refine Keeps.step (mainRailLoss_keeps ..) rfl ?_
  refine Keeps.step (atTime_keeps ..) rfl ?_
  exact Keeps.refl

theorem autoRestart_keeps (s : State) : Keeps 2147483945 s (autoRestart s) := by
  unfold autoRestart
  extract_lets +onlyGivenNames x1
  refine Keeps.cut (p := Keeps 2147483945 s x1) ?_ (fun k2 => ?_)
  · dsimp -zeta only [x1]
    refine Keeps.step (belayStops_keeps ..) rfl ?_
    exact Keeps.refl
  clear_value x1
  refine Keeps.ite ?_ ?_
  · refine Keeps.ite ?_ ?_
    · refine Keeps.step (setPwr_keeps ..) rfl ?_
      refine Keeps.step (setBoot_keeps ..) rfl ?_
      exact k2
    · refine Keeps.step (alertPin_keeps ..) rfl ?_
      refine Keeps.step (setPwr_keeps ..) rfl ?_
      refine Keeps.step (setBoot_keeps ..) rfl ?_
      exact k2
  · exact k2

theorem execAutoRestart_keeps (t) (s : State) : KeepsX 3087008041 s (execAutoRestart t s) := by
  unfold execAutoRestart
  refine KeepsX.next ?_
  refine Keeps.step (autoRestart_keeps ..) rfl ?_
  refine Keeps.step (atTime_keeps ..) rfl ?_
  exact Keeps.refl

theorem belayLoss_keeps (s : State) : Keeps 34158411775 s (belayLoss s) := by
  unfold belayLoss
  refine Keeps.ite ?_ ?_
  · refine Keeps.step (beginLeave_keeps ..) rfl ?_
    refine Keeps.step (setIsl_keeps ..) rfl ?_
    exact Keeps.refl
  · exact Keeps.refl

theorem execBelayHeartbeatLoss_keeps (t) (s : State) : KeepsX 34292629503 s (execBelayHeartbeatLoss t s) := by
  unfold execBelayHeartbeatLoss
  refine KeepsX.next ?_
  refine Keeps.step (belayLoss_keeps ..) rfl ?_
  refine Keeps.step (atTime_keeps ..) rfl ?_
  exact Keeps.refl

theorem execModuleReset_keeps (sess) (t) (s : State) : KeepsX 34292629503 s (execModuleReset sess t s) := by
  unfold execModuleReset
  refine KeepsX.next ?_
  refine Keeps.trans ?_ (withSess_keeps (M := 34292629503) rfl (fun y1 => ?_))
  · exact Keeps.refl
  · refine Keeps.step (beginLeave_keeps ..) rfl ?_
    refine Keeps.step (mgmtReply_keeps ..) rfl ?_
    exact Keeps.refl

theorem execLeaveContextTimeout_keeps (t) (s : State) : KeepsX 34292629503 s (execLeaveContextTimeout t s) := by
  unfold execLeaveContextTimeout
  refine KeepsX.next ?_
  refine Keeps.step (leaveTimeout_keeps ..) rfl ?_
  refine Keeps.step (atTime_keeps ..) rfl ?_
  exact Keeps.refl

theorem islandLost_keeps (x) (s : State) : Keeps 34158411775 s (islandLost x s) := by
  unfold islandLost
  split
  · rename_i v1 v2
    refine Keeps.step (portIslandReset_keeps ..) rfl ?_
    exact Keeps.refl
  · rename_i v3
    refine Keeps.step (resetModule_keeps ..) rfl ?_
    exact Keeps.refl
  · rename_i v4 v5
    exact Keeps.refl
  · rename_i v6 v7
    refine Keeps.step (stackFail_keeps ..) rfl ?_
    exact Keeps.refl
  · rename_i v8 v9
    refine Keeps.step (stackFail_keeps ..) rfl ?_
    exact Keeps.refl
  · rename_i v10 v11
    refine Keeps.step (failCp_keeps ..) rfl ?_
    exact Keeps.refl

theorem lossOfLock_keeps (x) (s : State) : Keeps 34158411775 s (lossOfLock x s) := by
  unfold lossOfLock
  refine Keeps.ite ?_ ?_
  · extract_lets +onlyGivenNames x1
    clear_value x1
    extract_lets +onlyGivenNames x2
    refine Keeps.cut (p := Keeps 34158411775 s x2) ?_ (fun k3 => ?_)
    · dsimp -zeta only [x2]
      refine Keeps.step (setIsl_keeps ..) rfl ?_
      exact Keeps.refl
    clear_value x2
    refine Keeps.step (islandLost_keeps ..) rfl ?_
    refine Keeps.step (cairnAt_keeps ..) rfl ?_
    exact k3
  · exact Keeps.refl

theorem execPllLossOfLock_keeps (island) (t) (s : State) : KeepsX 34292629503 s (execPllLossOfLock island t s) := by
  unfold execPllLossOfLock
  refine KeepsX.next ?_
  refine Keeps.step (lossOfLock_keeps ..) rfl ?_
  refine Keeps.step (atTime_keeps ..) rfl ?_
  exact Keeps.refl

theorem execPortPllRelock_keeps (port) (t) (s : State) : KeepsX 939524128 s (execPortPllRelock port t s) := by
  unfold execPortPllRelock
  extract_lets +onlyGivenNames x1
  refine Keeps.cut (p := Keeps 939524128 s x1) ?_ (fun k2 => ?_)
  · dsimp -zeta only [x1]
    refine Keeps.step (atTime_keeps ..) rfl ?_
    exact Keeps.refl
  clear_value x1
  refine KeepsX.next ?_
  refine Keeps.ite ?_ ?_
  · refine Keeps.step (setIsl_keeps ..) rfl ?_
    exact k2
  · exact k2

theorem enterBivouac_keeps (s : State) : Keeps 19327614984 s (enterBivouac s) := by
  unfold enterBivouac
  extract_lets +onlyGivenNames x1
  refine Keeps.cut (p := Keeps 19327614984 s x1) ?_ (fun k2 => ?_)
  · dsimp -zeta only [x1]
    refine Keeps.step (upd_stks_keeps _ _ (fun h => by simp [h])) rfl ?_
    exact Keeps.refl
  clear_value x1
  extract_lets +onlyGivenNames x3
  refine Keeps.cut (p := Keeps 19327614984 s x3) ?_ (fun k4 => ?_)
  · dsimp -zeta only [x3]
    refine Keeps.foldl (fun x5 a6 => ?_) ?_
    · refine Keeps.ite ?_ ?_
      · refine Keeps.step (modPort_keeps ..) rfl ?_
        refine Keeps.step (sendCtl_keeps ..) rfl ?_
        exact Keeps.refl
      · exact Keeps.refl
    · exact k2
  clear_value x3
  refine Keeps.step (setBoot_keeps ..) rfl ?_
  exact k4

theorem execBivouacEnter_keeps (sess) (t) (s : State) : KeepsX 34292629503 s (execBivouacEnter sess t s) := by
  unfold execBivouacEnter
  refine KeepsX.next ?_
  refine Keeps.trans ?_ (withSess_keeps (M := 34292629503) rfl (fun y1 => ?_))
  · exact Keeps.refl
  · refine Keeps.ite ?_ ?_
    · refine Keeps.step (enterBivouac_keeps ..) rfl ?_
      refine Keeps.step (mgmtReply_keeps ..) rfl ?_
      exact Keeps.refl
    · refine Keeps.step (mgmtReply_keeps ..) rfl ?_
      exact Keeps.refl

theorem execBivouacAutoEntry_keeps (t) (s : State) : KeepsX 20267139080 s (execBivouacAutoEntry t s) := by
  unfold execBivouacAutoEntry
  extract_lets +onlyGivenNames x1
  refine Keeps.cut (p := Keeps 20267139080 s x1) ?_ (fun k2 => ?_)
  · dsimp -zeta only [x1]
    refine Keeps.step (atTime_keeps ..) rfl ?_
    exact Keeps.refl
  clear_value x1
  refine KeepsX.next ?_
  refine Keeps.ite ?_ ?_
  · refine Keeps.step (enterBivouac_keeps ..) rfl ?_
    exact k2
  · exact k2

theorem bivWake_keeps (w) (s : State) : Keeps 34158411775 s (bivWake w s) := by
  unfold bivWake
  refine Keeps.ite ?_ ?_
  · refine Keeps.step (admitHeld_keeps ..) rfl ?_
    exact Keeps.refl
  · extract_lets +onlyGivenNames x1
    refine Keeps.cut (p := Keeps 34158411775 s x1) ?_ (fun k2 => ?_)
    · dsimp -zeta only [x1]
      split
      · rename_i v3 v4 v5 v6
        refine Keeps.step (arrive_keeps ..) rfl ?_
        exact Keeps.refl
      · rename_i v7 v8
        exact Keeps.refl
    clear_value x1
    refine Keeps.ite ?_ ?_
    · refine Keeps.step (wakeAdmit_keeps ..) rfl ?_
      exact k2
    · refine Keeps.step (resetModule_keeps ..) rfl ?_
      exact k2

theorem execBivouacWake_keeps (w) (s : State) : KeepsX 34292629503 s (execBivouacWake w s) := by
  unfold execBivouacWake
  refine KeepsX.next ?_
  refine Keeps.step (bivWake_keeps ..) rfl ?_
  refine Keeps.step (atTime_keeps ..) rfl ?_
  exact Keeps.refl

end Sys2Proof.Machine
end

