-- ==== Sys2Proof/Laws/KeepsRegs.lean ====
section
/-! SUPPORT. What each operation of Machine/Regs.lean can touch, that it goes onward and that it keeps the invariant. -/

namespace Sys2Proof.Machine

theorem mgmtRead_keeps (sess) (a) (n) (s : State) : Keeps 19386064232 s (mgmtRead sess a n s) := by
  unfold mgmtRead
  split
  rename_i v1 v2 v3 v4
  refine Keeps.cut (p := Keeps 19386064232 s v2) (KeepsP.ofEq ?_ v4) (fun k5 => ?_)
  · clear v4
    refine KeepsP.step (readRegs_keeps ..) rfl ?_
    exact Keeps.refl
  clear v4
  refine Keeps.step (mgmtReply_keeps ..) rfl ?_
  exact k5

theorem execRegRead_keeps (sess) (addr) (count) (t) (s : State) : KeepsX 34292629503 s (execRegRead sess addr count t s) := by
  unfold execRegRead
  extract_lets +onlyGivenNames x1
  clear_value x1
  refine KeepsX.next ?_
  refine Keeps.trans ?_ (withSess_keeps (M := 34292629503) rfl (fun y2 => ?_))
  · exact Keeps.refl
  · refine Keeps.ite ?_ ?_
    · refine Keeps.step (mgmtRead_keeps ..) rfl ?_
      exact Keeps.refl
    · refine Keeps.step (mgmtDenied_keeps ..) rfl ?_
      exact Keeps.refl

theorem execRegWrite_keeps (sess) (addr) (v) (e) (s : State) : KeepsX 34292629503 s (execRegWrite sess addr v e s) := by
  unfold execRegWrite
  refine KeepsX.next ?_
  refine Keeps.trans ?_ (withWrite_keeps (M := 34292629503) rfl (fun y1 => ?_))
  · refine Keeps.step (applyEnv_keeps ..) rfl ?_
    exact Keeps.refl
  · refine Keeps.ite ?_ ?_
    · refine Keeps.step (mgmtReply_keeps ..) rfl ?_
      refine Keeps.step (writeReg_keeps ..) rfl ?_
      exact Keeps.refl
    · refine Keeps.step (mgmtDenied_keeps ..) rfl ?_
      exact Keeps.refl

theorem execTenantPageAccess_keeps (r) (e) (s : State) : KeepsX 34292628969 s (execTenantPageAccess r e s) := by
  unfold execTenantPageAccess
  refine KeepsX.next ?_
  refine Keeps.trans ?_ (runVerb_keeps (M := 34292628969) rfl (fun y1 y2 => ?_))
  · exact Keeps.refl
  · refine Keeps.step (pageAccess_keeps ..) rfl ?_
    exact Keeps.refl

end Sys2Proof.Machine
end

