-- ==== Sys2Proof/Laws/KeepsRegRead.lean ====
section
/-! SUPPORT. What each operation of Machine/RegRead.lean can touch, that it goes onward and that it keeps the invariant. -/

namespace Sys2Proof.Machine

theorem execGlbIslLolEvtRead_keeps (sess) (t) (s : State) : KeepsX 34292629503 s (execGlbIslLolEvtRead sess t s) := by
  unfold execGlbIslLolEvtRead
  refine KeepsX.next ?_
  refine Keeps.trans ?_ (withSess_keeps (M := 34292629503) rfl (fun y1 => ?_))
  · exact Keeps.refl
  · refine Keeps.step (mgmtRead_keeps ..) rfl ?_
    exact Keeps.refl

theorem execBootUnreachDropRead_keeps (sess) (t) (s : State) : KeepsX 34292629503 s (execBootUnreachDropRead sess t s) := by
  unfold execBootUnreachDropRead
  refine KeepsX.next ?_
  refine Keeps.trans ?_ (withSess_keeps (M := 34292629503) rfl (fun y1 => ?_))
  · exact Keeps.refl
  · refine Keeps.step (mgmtRead_keeps ..) rfl ?_
    exact Keeps.refl

theorem execWinRevokeAbortRead_keeps (sess) (t) (s : State) : KeepsX 34292629503 s (execWinRevokeAbortRead sess t s) := by
  unfold execWinRevokeAbortRead
  refine KeepsX.next ?_
  refine Keeps.trans ?_ (withSess_keeps (M := 34292629503) rfl (fun y1 => ?_))
  · exact Keeps.refl
  · refine Keeps.step (mgmtRead_keeps ..) rfl ?_
    exact Keeps.refl

theorem execAncEvtRead_keeps (sess) (t) (s : State) : KeepsX 34292629503 s (execAncEvtRead sess t s) := by
  unfold execAncEvtRead
  refine KeepsX.next ?_
  refine Keeps.trans ?_ (withSess_keeps (M := 34292629503) rfl (fun y1 => ?_))
  · exact Keeps.refl
  · refine Keeps.step (mgmtRead_keeps ..) rfl ?_
    exact Keeps.refl

theorem execCohEvtRead_keeps (sess) (t) (s : State) : KeepsX 34292629503 s (execCohEvtRead sess t s) := by
  unfold execCohEvtRead
  refine KeepsX.next ?_
  refine Keeps.trans ?_ (withSess_keeps (M := 34292629503) rfl (fun y1 => ?_))
  · exact Keeps.refl
  · refine Keeps.step (mgmtRead_keeps ..) rfl ?_
    exact Keeps.refl

theorem execVrbEvtRead_keeps (sess) (t) (s : State) : KeepsX 34292629503 s (execVrbEvtRead sess t s) := by
  unfold execVrbEvtRead
  refine KeepsX.next ?_
  refine Keeps.trans ?_ (withSess_keeps (M := 34292629503) rfl (fun y1 => ?_))
  · exact Keeps.refl
  · refine Keeps.step (mgmtRead_keeps ..) rfl ?_
    exact Keeps.refl

theorem execFeEvtRead_keeps (sess) (t) (s : State) : KeepsX 34292629503 s (execFeEvtRead sess t s) := by
  unfold execFeEvtRead
  refine KeepsX.next ?_
  refine Keeps.trans ?_ (withSess_keeps (M := 34292629503) rfl (fun y1 => ?_))
  · exact Keeps.refl
  · refine Keeps.step (mgmtRead_keeps ..) rfl ?_
    exact Keeps.refl

theorem execFeArithEvtRead_keeps (sess) (t) (s : State) : KeepsX 34292629503 s (execFeArithEvtRead sess t s) := by
  unfold execFeArithEvtRead
  refine KeepsX.next ?_
  refine Keeps.trans ?_ (withSess_keeps (M := 34292629503) rfl (fun y1 => ?_))
  · exact Keeps.refl
  · refine Keeps.step (mgmtRead_keeps ..) rfl ?_
    exact Keeps.refl

theorem execWsEvtRead_keeps (sess) (t) (s : State) : KeepsX 34292629503 s (execWsEvtRead sess t s) := by
  unfold execWsEvtRead
  refine KeepsX.next ?_
  refine Keeps.trans ?_ (withSess_keeps (M := 34292629503) rfl (fun y1 => ?_))
  · exact Keeps.refl
  · refine Keeps.step (mgmtRead_keeps ..) rfl ?_
    exact Keeps.refl

theorem execKvEvtRead_keeps (sess) (t) (s : State) : KeepsX 34292629503 s (execKvEvtRead sess t s) := by
  unfold execKvEvtRead
  refine KeepsX.next ?_
  refine Keeps.trans ?_ (withSess_keeps (M := 34292629503) rfl (fun y1 => ?_))
  · exact Keeps.refl
  · refine Keeps.step (mgmtRead_keeps ..) rfl ?_
    exact Keeps.refl

theorem execLnkErrRead_keeps (sess) (t) (s : State) : KeepsX 34292629503 s (execLnkErrRead sess t s) := by
  unfold execLnkErrRead
  refine KeepsX.next ?_
  refine Keeps.trans ?_ (withSess_keeps (M := 34292629503) rfl (fun y1 => ?_))
  · exact Keeps.refl
  · refine Keeps.step (mgmtRead_keeps ..) rfl ?_
    exact Keeps.refl

theorem execRteEvtRead_keeps (sess) (t) (s : State) : KeepsX 34292629503 s (execRteEvtRead sess t s) := by
  unfold execRteEvtRead
  refine KeepsX.next ?_
  refine Keeps.trans ?_ (withSess_keeps (M := 34292629503) rfl (fun y1 => ?_))
  · exact Keeps.refl
  · refine Keeps.step (mgmtRead_keeps ..) rfl ?_
    exact Keeps.refl

theorem execE2eEvtRead_keeps (sess) (t) (s : State) : KeepsX 34292629503 s (execE2eEvtRead sess t s) := by
  unfold execE2eEvtRead
  refine KeepsX.next ?_
  refine Keeps.trans ?_ (withSess_keeps (M := 34292629503) rfl (fun y1 => ?_))
  · exact Keeps.refl
  · refine Keeps.step (mgmtRead_keeps ..) rfl ?_
    exact Keeps.refl

theorem execE2eDropRead_keeps (sess) (t) (s : State) : KeepsX 34292629503 s (execE2eDropRead sess t s) := by
  unfold execE2eDropRead
  refine KeepsX.next ?_
  refine Keeps.trans ?_ (withSess_keeps (M := 34292629503) rfl (fun y1 => ?_))
  · exact Keeps.refl
  · refine Keeps.step (mgmtRead_keeps ..) rfl ?_
    exact Keeps.refl

theorem execQosEvtRead_keeps (sess) (t) (s : State) : KeepsX 34292629503 s (execQosEvtRead sess t s) := by
  unfold execQosEvtRead
  refine KeepsX.next ?_
  refine Keeps.trans ?_ (withSess_keeps (M := 34292629503) rfl (fun y1 => ?_))
  · exact Keeps.refl
  · refine Keeps.step (mgmtRead_keeps ..) rfl ?_
    exact Keeps.refl

theorem execDrcEvtRead_keeps (sess) (t) (s : State) : KeepsX 34292629503 s (execDrcEvtRead sess t s) := by
  unfold execDrcEvtRead
  refine KeepsX.next ?_
  refine Keeps.trans ?_ (withSess_keeps (M := 34292629503) rfl (fun y1 => ?_))
  · exact Keeps.refl
  · refine Keeps.step (mgmtRead_keeps ..) rfl ?_
    exact Keeps.refl

theorem execEccStkCntRead_keeps (sess) (t) (s : State) : KeepsX 34292629503 s (execEccStkCntRead sess t s) := by
  unfold execEccStkCntRead
  refine KeepsX.next ?_
  refine Keeps.trans ?_ (withSess_keeps (M := 34292629503) rfl (fun y1 => ?_))
  · exact Keeps.refl
  · refine Keeps.step (mgmtRead_keeps ..) rfl ?_
    exact Keeps.refl

theorem execEccSramRead_keeps (sess) (t) (s : State) : KeepsX 34292629503 s (execEccSramRead sess t s) := by
  unfold execEccSramRead
  refine KeepsX.next ?_
  refine Keeps.trans ?_ (withSess_keeps (M := 34292629503) rfl (fun y1 => ?_))
  · exact Keeps.refl
  · refine Keeps.step (mgmtRead_keeps ..) rfl ?_
    exact Keeps.refl

theorem execEccCritRead_keeps (sess) (t) (s : State) : KeepsX 34292629503 s (execEccCritRead sess t s) := by
  unfold execEccCritRead
  refine KeepsX.next ?_
  refine Keeps.trans ?_ (withSess_keeps (M := 34292629503) rfl (fun y1 => ?_))
  · exact Keeps.refl
  · refine Keeps.step (mgmtRead_keeps ..) rfl ?_
    exact Keeps.refl

theorem execOnxEvtRead_keeps (sess) (t) (s : State) : KeepsX 34292629503 s (execOnxEvtRead sess t s) := by
  unfold execOnxEvtRead
  refine KeepsX.next ?_
  refine Keeps.trans ?_ (withSess_keeps (M := 34292629503) rfl (fun y1 => ?_))
  · exact Keeps.refl
  · refine Keeps.step (mgmtRead_keeps ..) rfl ?_
    exact Keeps.refl

theorem execSecEvtRead_keeps (sess) (t) (s : State) : KeepsX 34292629503 s (execSecEvtRead sess t s) := by
  unfold execSecEvtRead
  refine KeepsX.next ?_
  refine Keeps.trans ?_ (withSess_keeps (M := 34292629503) rfl (fun y1 => ?_))
  · exact Keeps.refl
  · refine Keeps.step (mgmtRead_keeps ..) rfl ?_
    exact Keeps.refl

theorem execCrnDropRead_keeps (sess) (t) (s : State) : KeepsX 34292629503 s (execCrnDropRead sess t s) := by
  unfold execCrnDropRead
  refine KeepsX.next ?_
  refine Keeps.trans ?_ (withSess_keeps (M := 34292629503) rfl (fun y1 => ?_))
  · exact Keeps.refl
  · refine Keeps.step (mgmtRead_keeps ..) rfl ?_
    exact Keeps.refl

theorem execCrnMergeRead_keeps (sess) (t) (s : State) : KeepsX 34292629503 s (execCrnMergeRead sess t s) := by
  unfold execCrnMergeRead
  refine KeepsX.next ?_
  refine Keeps.trans ?_ (withSess_keeps (M := 34292629503) rfl (fun y1 => ?_))
  · exact Keeps.refl
  · refine Keeps.step (mgmtRead_keeps ..) rfl ?_
    exact Keeps.refl

theorem execBelEvtRead_keeps (sess) (t) (s : State) : KeepsX 34292629503 s (execBelEvtRead sess t s) := by
  unfold execBelEvtRead
  refine KeepsX.next ?_
  refine Keeps.trans ?_ (withSess_keeps (M := 34292629503) rfl (fun y1 => ?_))
  · exact Keeps.refl
  · refine Keeps.step (mgmtRead_keeps ..) rfl ?_
    exact Keeps.refl

theorem execGlbAccErrRead_keeps (sess) (t) (s : State) : KeepsX 34292629503 s (execGlbAccErrRead sess t s) := by
  unfold execGlbAccErrRead
  refine KeepsX.next ?_
  refine Keeps.trans ?_ (withSess_keeps (M := 34292629503) rfl (fun y1 => ?_))
  · exact Keeps.refl
  · refine Keeps.step (mgmtRead_keeps ..) rfl ?_
    exact Keeps.refl

end Sys2Proof.Machine
end

