-- ==== Sys2Proof/Laws/Resets.lean ====
section
/-! SUPPORT. What the alert pin and a module reset leave, field by field (02_startup_and_loss R66, R67). -/

namespace Sys2Proof.Machine

@[simp] theorem alertPin_pwr (s : State) : (alertPin s).pwr = s.pwr := by unfold alertPin; split <;> rfl
@[simp] theorem alertPin_fuse (s : State) : (alertPin s).fuse = s.fuse := by unfold alertPin; split <;> rfl
@[simp] theorem alertPin_flash (s : State) : (alertPin s).flash = s.flash := by unfold alertPin; split <;> rfl
@[simp] theorem alertPin_boot (s : State) : (alertPin s).boot = s.boot := by unfold alertPin; split <;> rfl
@[simp] theorem alertPin_img (s : State) : (alertPin s).img = s.img := by unfold alertPin; split <;> rfl
@[simp] theorem alertPin_isl (s : State) : (alertPin s).isl = s.isl := by unfold alertPin; split <;> rfl
@[simp] theorem alertPin_crn (s : State) : (alertPin s).crn = s.crn := by unfold alertPin; split <;> rfl
@[simp] theorem alertPin_cp (s : State) : (alertPin s).cp = s.cp := by unfold alertPin; split <;> rfl
@[simp] theorem alertPin_mgmt (s : State) : (alertPin s).mgmt = s.mgmt := by unfold alertPin; split <;> rfl
@[simp] theorem alertPin_glb (s : State) : (alertPin s).glb = s.glb := by unfold alertPin; split <;> rfl
@[simp] theorem alertPin_pool (s : State) : (alertPin s).pool = s.pool := by unfold alertPin; split <;> rfl
@[simp] theorem alertPin_vrb (s : State) : (alertPin s).vrb = s.vrb := by unfold alertPin; split <;> rfl
@[simp] theorem alertPin_bulk (s : State) : (alertPin s).bulk = s.bulk := by unfold alertPin; split <;> rfl
@[simp] theorem alertPin_coh (s : State) : (alertPin s).coh = s.coh := by unfold alertPin; split <;> rfl
@[simp] theorem alertPin_fe (s : State) : (alertPin s).fe = s.fe := by unfold alertPin; split <;> rfl
@[simp] theorem alertPin_ws (s : State) : (alertPin s).ws = s.ws := by unfold alertPin; split <;> rfl
@[simp] theorem alertPin_kv (s : State) : (alertPin s).kv = s.kv := by unfold alertPin; split <;> rfl
@[simp] theorem alertPin_lnk (s : State) : (alertPin s).lnk = s.lnk := by unfold alertPin; split <;> rfl
@[simp] theorem alertPin_rte (s : State) : (alertPin s).rte = s.rte := by unfold alertPin; split <;> rfl
@[simp] theorem alertPin_e2e (s : State) : (alertPin s).e2e = s.e2e := by unfold alertPin; split <;> rfl
@[simp] theorem alertPin_qos (s : State) : (alertPin s).qos = s.qos := by unfold alertPin; split <;> rfl
@[simp] theorem alertPin_ecc (s : State) : (alertPin s).ecc = s.ecc := by unfold alertPin; split <;> rfl
@[simp] theorem alertPin_trv (s : State) : (alertPin s).trv = s.trv := by unfold alertPin; split <;> rfl
@[simp] theorem alertPin_onx (s : State) : (alertPin s).onx = s.onx := by unfold alertPin; split <;> rfl
@[simp] theorem alertPin_sec (s : State) : (alertPin s).sec = s.sec := by unfold alertPin; split <;> rfl
@[simp] theorem alertPin_pending (s : State) : (alertPin s).pending = s.pending := by unfold alertPin; split <;> rfl
@[simp] theorem alertPin_now (s : State) : (alertPin s).now = s.now := by unfold alertPin; split <;> rfl
@[simp] theorem alertPin_free (s : State) : (alertPin s).free = s.free := by unfold alertPin; split <;> rfl
@[simp] theorem alertPin_sels (s : State) : (alertPin s).sels = s.sels := by unfold alertPin; split <;> rfl
@[simp] theorem alertPin_mem (s : State) : (alertPin s).mem = s.mem := by unfold alertPin; split <;> rfl
@[simp] theorem alertPin_stks (s : State) : (alertPin s).stks = s.stks := by unfold alertPin; split <;> rfl
@[simp] theorem resetModule_img (c : Nat) (h : Hold) (s : State) : (resetModule c h s).img = ({} : State).img := by
  unfold resetModule; simp
@[simp] theorem resetModule_cp (c : Nat) (h : Hold) (s : State) : (resetModule c h s).cp = ({} : State).cp := by
  unfold resetModule; simp
@[simp] theorem resetModule_mgmt (c : Nat) (h : Hold) (s : State) : (resetModule c h s).mgmt = ({} : State).mgmt := by
  unfold resetModule; simp
@[simp] theorem resetModule_glb (c : Nat) (h : Hold) (s : State) : (resetModule c h s).glb = ({} : State).glb := by
  unfold resetModule; simp
@[simp] theorem resetModule_pool (c : Nat) (h : Hold) (s : State) : (resetModule c h s).pool = ({} : State).pool := by
  unfold resetModule; simp
@[simp] theorem resetModule_vrb (c : Nat) (h : Hold) (s : State) : (resetModule c h s).vrb = ({} : State).vrb := by
  unfold resetModule; simp
@[simp] theorem resetModule_bulk (c : Nat) (h : Hold) (s : State) : (resetModule c h s).bulk = ({} : State).bulk := by
  unfold resetModule; simp
@[simp] theorem resetModule_coh (c : Nat) (h : Hold) (s : State) : (resetModule c h s).coh = ({} : State).coh := by
  unfold resetModule; simp
@[simp] theorem resetModule_fe (c : Nat) (h : Hold) (s : State) : (resetModule c h s).fe = ({} : State).fe := by
  unfold resetModule; simp
@[simp] theorem resetModule_ws (c : Nat) (h : Hold) (s : State) : (resetModule c h s).ws = ({} : State).ws := by
  unfold resetModule; simp
@[simp] theorem resetModule_kv (c : Nat) (h : Hold) (s : State) : (resetModule c h s).kv = ({} : State).kv := by
  unfold resetModule; simp
@[simp] theorem resetModule_lnk (c : Nat) (h : Hold) (s : State) : (resetModule c h s).lnk = ({} : State).lnk := by
  unfold resetModule; simp
@[simp] theorem resetModule_rte (c : Nat) (h : Hold) (s : State) : (resetModule c h s).rte = ({} : State).rte := by
  unfold resetModule; simp
@[simp] theorem resetModule_e2e (c : Nat) (h : Hold) (s : State) : (resetModule c h s).e2e = ({} : State).e2e := by
  unfold resetModule; simp
@[simp] theorem resetModule_qos (c : Nat) (h : Hold) (s : State) : (resetModule c h s).qos = ({} : State).qos := by
  unfold resetModule; simp
@[simp] theorem resetModule_ecc (c : Nat) (h : Hold) (s : State) : (resetModule c h s).ecc = ({} : State).ecc := by
  unfold resetModule; simp
@[simp] theorem resetModule_trv (c : Nat) (h : Hold) (s : State) : (resetModule c h s).trv = ({} : State).trv := by
  unfold resetModule; simp
@[simp] theorem resetModule_sec (c : Nat) (h : Hold) (s : State) : (resetModule c h s).sec = ({} : State).sec := by
  unfold resetModule; simp
@[simp] theorem resetModule_sels (c : Nat) (h : Hold) (s : State) : (resetModule c h s).sels = ({} : State).sels := by
  unfold resetModule; simp
@[simp] theorem resetModule_mem (c : Nat) (h : Hold) (s : State) : (resetModule c h s).mem = ({} : State).mem := by
  unfold resetModule; simp

/-- The retention copy leaves everything but the fault queue. -/
theorem retentionCopy_eq (s : State) : ∃ c, retentionCopy s = { s with crn := c } := by
  unfold retentionCopy; split <;> exact ⟨_, rfl⟩

@[simp] theorem resetModule_flash (c : Nat) (h : Hold) (s : State) :
    (resetModule c h s).flash = s.flash := by
  unfold resetModule; obtain ⟨k, hk⟩ := retentionCopy_eq s; simp [hk]
@[simp] theorem resetModule_pending (c : Nat) (h : Hold) (s : State) :
    (resetModule c h s).pending = s.pending := by
  unfold resetModule; obtain ⟨k, hk⟩ := retentionCopy_eq s; simp [hk]
@[simp] theorem resetModule_now (c : Nat) (h : Hold) (s : State) :
    (resetModule c h s).now = s.now := by
  unfold resetModule; obtain ⟨k, hk⟩ := retentionCopy_eq s; simp [hk]
@[simp] theorem resetModule_free (c : Nat) (h : Hold) (s : State) :
    (resetModule c h s).free = s.free := by
  unfold resetModule; obtain ⟨k, hk⟩ := retentionCopy_eq s; simp [hk]
@[simp] theorem resetModule_boot (c : Nat) (h : Hold) (s : State) :
    (resetModule c h s).boot = { ({} : State).boot with cause := c, count := s.boot.count, restarts := s.boot.restarts, powerOnStart := s.boot.powerOnStart } := by
  unfold resetModule; obtain ⟨k, hk⟩ := retentionCopy_eq s; simp [hk]
@[simp] theorem resetModule_isl (c : Nat) (h : Hold) (s : State) :
    (resetModule c h s).isl = { ({} : State).isl with belayOn := s.isl.belayOn } := by
  unfold resetModule; obtain ⟨k, hk⟩ := retentionCopy_eq s; simp [hk]
@[simp] theorem resetModule_fuse (c : Nat) (h : Hold) (s : State) :
    (resetModule c h s).fuse = { s.fuse with pending := 0 } := by
  unfold resetModule; obtain ⟨k, hk⟩ := retentionCopy_eq s; simp [hk]

/-- The power supply after a module reset (02 R66; 16 R635). -/
theorem resetModule_pwr (c : Nat) (h : Hold) (s : State) : (resetModule c h s).pwr =
    { laserReset s.pwr with
      txDark := true, hold := h, permit := false, offSeen := shutdownHold h && !s.pwr.en
      mainOn := s.pwr.mainOn && !shutdownHold h, pgood := s.pwr.pgood && !shutdownHold h, heldAt := s.now
      stackSw := BitVec.ofNat 32 (2 ^ stackCount s - 1) } := by
  unfold resetModule; obtain ⟨k, hk⟩ := retentionCopy_eq s; simp [hk]; rfl

@[simp] theorem laserReset_busMv (p : Pwr) : (laserReset p).busMv = p.busMv := by unfold laserReset; split <;> rfl
@[simp] theorem laserReset_standbyOk (p : Pwr) : (laserReset p).standbyOk = p.standbyOk := by unfold laserReset; split <;> rfl
@[simp] theorem laserReset_inrushDone (p : Pwr) : (laserReset p).inrushDone = p.inrushDone := by unfold laserReset; split <;> rfl
@[simp] theorem laserReset_en (p : Pwr) : (laserReset p).en = p.en := by unfold laserReset; split <;> rfl
@[simp] theorem laserReset_resetN (p : Pwr) : (laserReset p).resetN = p.resetN := by unfold laserReset; split <;> rfl
@[simp] theorem laserReset_ovp (p : Pwr) : (laserReset p).ovp = p.ovp := by unfold laserReset; split <;> rfl
@[simp] theorem laserReset_slotPins (p : Pwr) : (laserReset p).slotPins = p.slotPins := by unfold laserReset; split <;> rfl

end Sys2Proof.Machine
end

