-- ==== Sys2Proof/Laws/Runs.lean ====
section
/-! SUPPORT. How a verb command and a management command run, in the terms of Safety.lean. -/

namespace Sys2Proof.Machine

/-- The taken request is the command's. -/
theorem taken_req {r : Req} {e : Env} {s s0 : State} {w : Waiting} (h : taken r e s = some (w, s0)) : w.req = r := by
  unfold taken at h
  split at h
  · cases h
  · split at h
    · rename_i v hv
      have := List.find?_some hv
      simp at this h
      rw [← h.1]; exact this.1.2
    · split at h
      · simp at h; rw [← h.1]; rfl
      · cases h

/-- The taken request has the command's opcode. -/
theorem taken_op {r : Req} {e : Env} {s s0 : State} {w : Waiting} (h : taken r e s = some (w, s0)) : w.op = r.opcode.toNat := by
  unfold taken at h
  split at h
  · cases h
  · split at h
    · rename_i v hv
      have := List.find?_some hv
      simp at this h
      rw [← h.1]; exact this.2
    · split at h
      · simp at h; rw [← h.1]; rfl
      · cases h

/-- A verb command runs its verb on the request it takes. -/
theorem runVerb_taken {r : Req} {e : Env} {s s0 : State} {w : Waiting} (verb : Waiting → State → State)
    (h : taken r e s = some (w, s0)) (hc : ctlFits r = true) : runVerb r e verb s = verb w s0 := by
  have hg : ctlGuard r verb = verb := by
    unfold ctlGuard
    rw [if_neg]
    simp only [ctlFits, Bool.not_eq_true'] at hc
    rw [hc]; simp
  unfold taken at h
  unfold runVerb
  rw [hg]
  split at h
  · cases h
  · rename_i hr
    simp only [if_neg hr]
    cases hi : inboxOf (applyEnv e s) r with
    | some v =>
      simp only [hi, Option.some.injEq, Prod.mk.injEq] at h ⊢
      rw [← h.1, ← h.2]
    | none =>
      simp only [hi] at h ⊢
      split at h
      · rename_i s1 ha
        simp only [ha, Option.some.injEq, Prod.mk.injEq, if_true] at h ⊢
        rw [← h.1, ← h.2]
      · cases h

/-- A verb command with CTL set in a verb that has no use for it is denied (17 R657). -/
theorem runVerb_ctl {r : Req} {e : Env} {s s0 : State} {w : Waiting} (verb : Waiting → State → State)
    (h : taken r e s = some (w, s0)) (hc : ctlFits r = false) : runVerb r e verb s = ctlDenied w s0 := by
  have hg : ctlGuard r verb = ctlDenied := by
    unfold ctlGuard
    rw [if_pos]
    simpa [ctlFits] using hc
  unfold taken at h
  unfold runVerb
  rw [hg]
  split at h
  · cases h
  · rename_i hr
    simp only [if_neg hr]
    cases hi : inboxOf (applyEnv e s) r with
    | some v =>
      simp only [hi, Option.some.injEq, Prod.mk.injEq] at h ⊢
      rw [← h.1, ← h.2]
    | none =>
      simp only [hi] at h ⊢
      split at h
      · rename_i s1 ha
        simp only [ha, Option.some.injEq, Prod.mk.injEq, if_true] at h ⊢
        rw [← h.1, ← h.2]
      · cases h

/-- A management verb runs on its session. -/
theorem withSess_served {sess t : Nat} {n : Need} {f : State → State} {s s0 : State} {x : Sess}
    (h : served sess t s = some (x, s0)) (hr : mayRun x n = true) : withSess sess t n f s = f s0 := by
  unfold served at h
  unfold withSess
  simp only at h ⊢
  cases hy : sessAt (mgmtWake (noteStep4 (atTime t s))) sess with
  | none => simp [hy] at h
  | some y =>
    simp only [hy, Option.some.injEq, Prod.mk.injEq] at h ⊢
    rw [h.1, if_pos hr, h.2]

/-- A management verb of a session without the role is denied. -/
theorem withSess_denied {sess t : Nat} {n : Need} {f : State → State} {s s0 : State} {x : Sess}
    (h : served sess t s = some (x, s0)) (hr : mayRun x n = false) :
    withSess sess t n f s = mgmtReply sess .denied [] s0 := by
  unfold served at h
  unfold withSess
  simp only at h ⊢
  cases hy : sessAt (mgmtWake (noteStep4 (atTime t s))) sess with
  | none => simp [hy] at h
  | some y =>
    simp only [hy, Option.some.injEq, Prod.mk.injEq] at h ⊢
    rw [h.1, if_neg (by simp [hr]), h.2]

/-- A register write of management runs on its session. -/
theorem withWrite_served {sess t : Nat} {f : State → State} {s s0 : State} {x : Sess}
    (h : served sess t s = some (x, s0)) (hr : mayRun x .operator = true) : withWrite sess t f s = f s0 := by
  unfold served at h
  unfold withWrite
  simp only at h ⊢
  cases hy : sessAt (mgmtWake (noteStep4 (atTime t s))) sess with
  | none => simp [hy] at h
  | some y =>
    simp only [hy, Option.some.injEq, Prod.mk.injEq] at h ⊢
    rw [h.1, if_pos hr, h.2]

/-- A command of a port operation goes on with the operation that it finds, where it is one of the command's. -/
theorem portOp_now {n : Nat} {is : OpD → Bool} {mover : Bool} {run : OpCtx → State → State × OpRes} {s s1 : State} {c : OpCtx}
    (h : opNow n mover s = some (c, s1)) (hi : is c.d = true) : portOp n is mover run s = settleOp c mover (run c s1) := by
  unfold opNow at h
  unfold portOp
  cases hr : runOf s n with
  | none => simp [hr] at h
  | some x =>
    obtain ⟨p, r⟩ := x
    simp only [hr] at h ⊢
    generalize setSvc 0 s = s at h ⊢
    by_cases h1 : ((engAt s n).st ≠ .running || (engAt s n).ended) = true
    · rw [if_pos h1] at h; cases h
    · rw [if_neg h1] at h ⊢
      cases hf : (if mover = true then (engAt s n).mov else (engAt s n).comp) with
      | some f =>
        simp only [hf] at h ⊢
        split at h
        · rename_i h2
          simp only [Option.some.injEq, Prod.mk.injEq] at h
          obtain ⟨rfl, rfl⟩ := h
          obtain ⟨h3, h4⟩ := (Bool.and_eq_true _ _).mp h2
          obtain ⟨h5, h6⟩ := (Bool.and_eq_true _ _).mp h3
          obtain ⟨h7, h8⟩ := (Bool.and_eq_true _ _).mp h5
          rw [if_pos (by simp only at hi; rw [hi, h7, h8, h6]; rfl)]
          simp only [Option.isNone_iff_eq_none] at h4
          rw [if_neg (by rw [h4]; simp)]
        · cases h
      | none =>
        simp only [hf] at h ⊢
        generalize hg : noteWork p.idx _ = s2 at h ⊢
        split at h
        · rename_i h2
          simp only [Option.some.injEq, Prod.mk.injEq] at h
          obtain ⟨rfl, rfl⟩ := h
          obtain ⟨h3, h4⟩ := (Bool.and_eq_true _ _).mp h2
          rw [if_pos (by simp only at hi; rw [hi, h3]; rfl)]
          simp only [Option.isNone_iff_eq_none] at h4
          rw [if_neg (by rw [h4]; simp)]
        · cases h

end Sys2Proof.Machine
end

