-- ==== Sys2Proof/Laws/State.lean ====
section
/-! SUPPORT. What each update of the state leaves in each field of it: one lemma for each field and update, true by definition, so that no
proof unfolds a record update. -/

namespace Sys2Proof.Machine

/-! setPwr -/

@[simp] theorem setPwr_pwr (f : Pwr → Pwr) (s : State) : (setPwr f s).pwr = f s.pwr := rfl
@[simp] theorem setPwr_fuse (f : Pwr → Pwr) (s : State) : (setPwr f s).fuse = s.fuse := rfl
@[simp] theorem setPwr_flash (f : Pwr → Pwr) (s : State) : (setPwr f s).flash = s.flash := rfl
@[simp] theorem setPwr_boot (f : Pwr → Pwr) (s : State) : (setPwr f s).boot = s.boot := rfl
@[simp] theorem setPwr_img (f : Pwr → Pwr) (s : State) : (setPwr f s).img = s.img := rfl
@[simp] theorem setPwr_isl (f : Pwr → Pwr) (s : State) : (setPwr f s).isl = s.isl := rfl
@[simp] theorem setPwr_crn (f : Pwr → Pwr) (s : State) : (setPwr f s).crn = s.crn := rfl
@[simp] theorem setPwr_cp (f : Pwr → Pwr) (s : State) : (setPwr f s).cp = s.cp := rfl
@[simp] theorem setPwr_bel (f : Pwr → Pwr) (s : State) : (setPwr f s).bel = s.bel := rfl
@[simp] theorem setPwr_mgmt (f : Pwr → Pwr) (s : State) : (setPwr f s).mgmt = s.mgmt := rfl
@[simp] theorem setPwr_glb (f : Pwr → Pwr) (s : State) : (setPwr f s).glb = s.glb := rfl
@[simp] theorem setPwr_pool (f : Pwr → Pwr) (s : State) : (setPwr f s).pool = s.pool := rfl
@[simp] theorem setPwr_vrb (f : Pwr → Pwr) (s : State) : (setPwr f s).vrb = s.vrb := rfl
@[simp] theorem setPwr_bulk (f : Pwr → Pwr) (s : State) : (setPwr f s).bulk = s.bulk := rfl
@[simp] theorem setPwr_coh (f : Pwr → Pwr) (s : State) : (setPwr f s).coh = s.coh := rfl
@[simp] theorem setPwr_fe (f : Pwr → Pwr) (s : State) : (setPwr f s).fe = s.fe := rfl
@[simp] theorem setPwr_ws (f : Pwr → Pwr) (s : State) : (setPwr f s).ws = s.ws := rfl
@[simp] theorem setPwr_kv (f : Pwr → Pwr) (s : State) : (setPwr f s).kv = s.kv := rfl
@[simp] theorem setPwr_lnk (f : Pwr → Pwr) (s : State) : (setPwr f s).lnk = s.lnk := rfl
@[simp] theorem setPwr_rte (f : Pwr → Pwr) (s : State) : (setPwr f s).rte = s.rte := rfl
@[simp] theorem setPwr_e2e (f : Pwr → Pwr) (s : State) : (setPwr f s).e2e = s.e2e := rfl
@[simp] theorem setPwr_qos (f : Pwr → Pwr) (s : State) : (setPwr f s).qos = s.qos := rfl
@[simp] theorem setPwr_ecc (f : Pwr → Pwr) (s : State) : (setPwr f s).ecc = s.ecc := rfl
@[simp] theorem setPwr_trv (f : Pwr → Pwr) (s : State) : (setPwr f s).trv = s.trv := rfl
@[simp] theorem setPwr_onx (f : Pwr → Pwr) (s : State) : (setPwr f s).onx = s.onx := rfl
@[simp] theorem setPwr_sec (f : Pwr → Pwr) (s : State) : (setPwr f s).sec = s.sec := rfl
@[simp] theorem setPwr_pending (f : Pwr → Pwr) (s : State) : (setPwr f s).pending = s.pending := rfl
@[simp] theorem setPwr_now (f : Pwr → Pwr) (s : State) : (setPwr f s).now = s.now := rfl
@[simp] theorem setPwr_busyAt (f : Pwr → Pwr) (s : State) : (setPwr f s).busyAt = s.busyAt := rfl
@[simp] theorem setPwr_svc (f : Pwr → Pwr) (s : State) : (setPwr f s).svc = s.svc := rfl
@[simp] theorem setPwr_free (f : Pwr → Pwr) (s : State) : (setPwr f s).free = s.free := rfl
@[simp] theorem setPwr_out (f : Pwr → Pwr) (s : State) : (setPwr f s).out = s.out := rfl
@[simp] theorem setPwr_sels (f : Pwr → Pwr) (s : State) : (setPwr f s).sels = s.sels := rfl
@[simp] theorem setPwr_mem (f : Pwr → Pwr) (s : State) : (setPwr f s).mem = s.mem := rfl
@[simp] theorem setPwr_stks (f : Pwr → Pwr) (s : State) : (setPwr f s).stks = s.stks := rfl

/-! setBoot -/

@[simp] theorem setBoot_pwr (f : Boot → Boot) (s : State) : (setBoot f s).pwr = s.pwr := rfl
@[simp] theorem setBoot_fuse (f : Boot → Boot) (s : State) : (setBoot f s).fuse = s.fuse := rfl
@[simp] theorem setBoot_flash (f : Boot → Boot) (s : State) : (setBoot f s).flash = s.flash := rfl
@[simp] theorem setBoot_boot (f : Boot → Boot) (s : State) : (setBoot f s).boot = f s.boot := rfl
@[simp] theorem setBoot_img (f : Boot → Boot) (s : State) : (setBoot f s).img = s.img := rfl
@[simp] theorem setBoot_isl (f : Boot → Boot) (s : State) : (setBoot f s).isl = s.isl := rfl
@[simp] theorem setBoot_crn (f : Boot → Boot) (s : State) : (setBoot f s).crn = s.crn := rfl
@[simp] theorem setBoot_cp (f : Boot → Boot) (s : State) : (setBoot f s).cp = s.cp := rfl
@[simp] theorem setBoot_bel (f : Boot → Boot) (s : State) : (setBoot f s).bel = s.bel := rfl
@[simp] theorem setBoot_mgmt (f : Boot → Boot) (s : State) : (setBoot f s).mgmt = s.mgmt := rfl
@[simp] theorem setBoot_glb (f : Boot → Boot) (s : State) : (setBoot f s).glb = s.glb := rfl
@[simp] theorem setBoot_pool (f : Boot → Boot) (s : State) : (setBoot f s).pool = s.pool := rfl
@[simp] theorem setBoot_vrb (f : Boot → Boot) (s : State) : (setBoot f s).vrb = s.vrb := rfl
@[simp] theorem setBoot_bulk (f : Boot → Boot) (s : State) : (setBoot f s).bulk = s.bulk := rfl
@[simp] theorem setBoot_coh (f : Boot → Boot) (s : State) : (setBoot f s).coh = s.coh := rfl
@[simp] theorem setBoot_fe (f : Boot → Boot) (s : State) : (setBoot f s).fe = s.fe := rfl
@[simp] theorem setBoot_ws (f : Boot → Boot) (s : State) : (setBoot f s).ws = s.ws := rfl
@[simp] theorem setBoot_kv (f : Boot → Boot) (s : State) : (setBoot f s).kv = s.kv := rfl
@[simp] theorem setBoot_lnk (f : Boot → Boot) (s : State) : (setBoot f s).lnk = s.lnk := rfl
@[simp] theorem setBoot_rte (f : Boot → Boot) (s : State) : (setBoot f s).rte = s.rte := rfl
@[simp] theorem setBoot_e2e (f : Boot → Boot) (s : State) : (setBoot f s).e2e = s.e2e := rfl
@[simp] theorem setBoot_qos (f : Boot → Boot) (s : State) : (setBoot f s).qos = s.qos := rfl
@[simp] theorem setBoot_ecc (f : Boot → Boot) (s : State) : (setBoot f s).ecc = s.ecc := rfl
@[simp] theorem setBoot_trv (f : Boot → Boot) (s : State) : (setBoot f s).trv = s.trv := rfl
@[simp] theorem setBoot_onx (f : Boot → Boot) (s : State) : (setBoot f s).onx = s.onx := rfl
@[simp] theorem setBoot_sec (f : Boot → Boot) (s : State) : (setBoot f s).sec = s.sec := rfl
@[simp] theorem setBoot_pending (f : Boot → Boot) (s : State) : (setBoot f s).pending = s.pending := rfl
@[simp] theorem setBoot_now (f : Boot → Boot) (s : State) : (setBoot f s).now = s.now := rfl
@[simp] theorem setBoot_busyAt (f : Boot → Boot) (s : State) : (setBoot f s).busyAt = s.busyAt := rfl
@[simp] theorem setBoot_svc (f : Boot → Boot) (s : State) : (setBoot f s).svc = s.svc := rfl
@[simp] theorem setBoot_free (f : Boot → Boot) (s : State) : (setBoot f s).free = s.free := rfl
@[simp] theorem setBoot_out (f : Boot → Boot) (s : State) : (setBoot f s).out = s.out := rfl
@[simp] theorem setBoot_sels (f : Boot → Boot) (s : State) : (setBoot f s).sels = s.sels := rfl
@[simp] theorem setBoot_mem (f : Boot → Boot) (s : State) : (setBoot f s).mem = s.mem := rfl
@[simp] theorem setBoot_stks (f : Boot → Boot) (s : State) : (setBoot f s).stks = s.stks := rfl

/-! setIsl -/

@[simp] theorem setIsl_pwr (f : Isl → Isl) (s : State) : (setIsl f s).pwr = s.pwr := rfl
@[simp] theorem setIsl_fuse (f : Isl → Isl) (s : State) : (setIsl f s).fuse = s.fuse := rfl
@[simp] theorem setIsl_flash (f : Isl → Isl) (s : State) : (setIsl f s).flash = s.flash := rfl
@[simp] theorem setIsl_boot (f : Isl → Isl) (s : State) : (setIsl f s).boot = s.boot := rfl
@[simp] theorem setIsl_img (f : Isl → Isl) (s : State) : (setIsl f s).img = s.img := rfl
@[simp] theorem setIsl_isl (f : Isl → Isl) (s : State) : (setIsl f s).isl = f s.isl := rfl
@[simp] theorem setIsl_crn (f : Isl → Isl) (s : State) : (setIsl f s).crn = s.crn := rfl
@[simp] theorem setIsl_cp (f : Isl → Isl) (s : State) : (setIsl f s).cp = s.cp := rfl
@[simp] theorem setIsl_bel (f : Isl → Isl) (s : State) : (setIsl f s).bel = s.bel := rfl
@[simp] theorem setIsl_mgmt (f : Isl → Isl) (s : State) : (setIsl f s).mgmt = s.mgmt := rfl
@[simp] theorem setIsl_glb (f : Isl → Isl) (s : State) : (setIsl f s).glb = s.glb := rfl
@[simp] theorem setIsl_pool (f : Isl → Isl) (s : State) : (setIsl f s).pool = s.pool := rfl
@[simp] theorem setIsl_vrb (f : Isl → Isl) (s : State) : (setIsl f s).vrb = s.vrb := rfl
@[simp] theorem setIsl_bulk (f : Isl → Isl) (s : State) : (setIsl f s).bulk = s.bulk := rfl
@[simp] theorem setIsl_coh (f : Isl → Isl) (s : State) : (setIsl f s).coh = s.coh := rfl
@[simp] theorem setIsl_fe (f : Isl → Isl) (s : State) : (setIsl f s).fe = s.fe := rfl
@[simp] theorem setIsl_ws (f : Isl → Isl) (s : State) : (setIsl f s).ws = s.ws := rfl
@[simp] theorem setIsl_kv (f : Isl → Isl) (s : State) : (setIsl f s).kv = s.kv := rfl
@[simp] theorem setIsl_lnk (f : Isl → Isl) (s : State) : (setIsl f s).lnk = s.lnk := rfl
@[simp] theorem setIsl_rte (f : Isl → Isl) (s : State) : (setIsl f s).rte = s.rte := rfl
@[simp] theorem setIsl_e2e (f : Isl → Isl) (s : State) : (setIsl f s).e2e = s.e2e := rfl
@[simp] theorem setIsl_qos (f : Isl → Isl) (s : State) : (setIsl f s).qos = s.qos := rfl
@[simp] theorem setIsl_ecc (f : Isl → Isl) (s : State) : (setIsl f s).ecc = s.ecc := rfl
@[simp] theorem setIsl_trv (f : Isl → Isl) (s : State) : (setIsl f s).trv = s.trv := rfl
@[simp] theorem setIsl_onx (f : Isl → Isl) (s : State) : (setIsl f s).onx = s.onx := rfl
@[simp] theorem setIsl_sec (f : Isl → Isl) (s : State) : (setIsl f s).sec = s.sec := rfl
@[simp] theorem setIsl_pending (f : Isl → Isl) (s : State) : (setIsl f s).pending = s.pending := rfl
@[simp] theorem setIsl_now (f : Isl → Isl) (s : State) : (setIsl f s).now = s.now := rfl
@[simp] theorem setIsl_busyAt (f : Isl → Isl) (s : State) : (setIsl f s).busyAt = s.busyAt := rfl
@[simp] theorem setIsl_svc (f : Isl → Isl) (s : State) : (setIsl f s).svc = s.svc := rfl
@[simp] theorem setIsl_free (f : Isl → Isl) (s : State) : (setIsl f s).free = s.free := rfl
@[simp] theorem setIsl_out (f : Isl → Isl) (s : State) : (setIsl f s).out = s.out := rfl
@[simp] theorem setIsl_sels (f : Isl → Isl) (s : State) : (setIsl f s).sels = s.sels := rfl
@[simp] theorem setIsl_mem (f : Isl → Isl) (s : State) : (setIsl f s).mem = s.mem := rfl
@[simp] theorem setIsl_stks (f : Isl → Isl) (s : State) : (setIsl f s).stks = s.stks := rfl

/-! setCrn -/

@[simp] theorem setCrn_pwr (f : Cairn → Cairn) (s : State) : (setCrn f s).pwr = s.pwr := rfl
@[simp] theorem setCrn_fuse (f : Cairn → Cairn) (s : State) : (setCrn f s).fuse = s.fuse := rfl
@[simp] theorem setCrn_flash (f : Cairn → Cairn) (s : State) : (setCrn f s).flash = s.flash := rfl
@[simp] theorem setCrn_boot (f : Cairn → Cairn) (s : State) : (setCrn f s).boot = s.boot := rfl
@[simp] theorem setCrn_img (f : Cairn → Cairn) (s : State) : (setCrn f s).img = s.img := rfl
@[simp] theorem setCrn_isl (f : Cairn → Cairn) (s : State) : (setCrn f s).isl = s.isl := rfl
@[simp] theorem setCrn_crn (f : Cairn → Cairn) (s : State) : (setCrn f s).crn = f s.crn := rfl
@[simp] theorem setCrn_cp (f : Cairn → Cairn) (s : State) : (setCrn f s).cp = s.cp := rfl
@[simp] theorem setCrn_bel (f : Cairn → Cairn) (s : State) : (setCrn f s).bel = s.bel := rfl
@[simp] theorem setCrn_mgmt (f : Cairn → Cairn) (s : State) : (setCrn f s).mgmt = s.mgmt := rfl
@[simp] theorem setCrn_glb (f : Cairn → Cairn) (s : State) : (setCrn f s).glb = s.glb := rfl
@[simp] theorem setCrn_pool (f : Cairn → Cairn) (s : State) : (setCrn f s).pool = s.pool := rfl
@[simp] theorem setCrn_vrb (f : Cairn → Cairn) (s : State) : (setCrn f s).vrb = s.vrb := rfl
@[simp] theorem setCrn_bulk (f : Cairn → Cairn) (s : State) : (setCrn f s).bulk = s.bulk := rfl
@[simp] theorem setCrn_coh (f : Cairn → Cairn) (s : State) : (setCrn f s).coh = s.coh := rfl
@[simp] theorem setCrn_fe (f : Cairn → Cairn) (s : State) : (setCrn f s).fe = s.fe := rfl
@[simp] theorem setCrn_ws (f : Cairn → Cairn) (s : State) : (setCrn f s).ws = s.ws := rfl
@[simp] theorem setCrn_kv (f : Cairn → Cairn) (s : State) : (setCrn f s).kv = s.kv := rfl
@[simp] theorem setCrn_lnk (f : Cairn → Cairn) (s : State) : (setCrn f s).lnk = s.lnk := rfl
@[simp] theorem setCrn_rte (f : Cairn → Cairn) (s : State) : (setCrn f s).rte = s.rte := rfl
@[simp] theorem setCrn_e2e (f : Cairn → Cairn) (s : State) : (setCrn f s).e2e = s.e2e := rfl
@[simp] theorem setCrn_qos (f : Cairn → Cairn) (s : State) : (setCrn f s).qos = s.qos := rfl
@[simp] theorem setCrn_ecc (f : Cairn → Cairn) (s : State) : (setCrn f s).ecc = s.ecc := rfl
@[simp] theorem setCrn_trv (f : Cairn → Cairn) (s : State) : (setCrn f s).trv = s.trv := rfl
@[simp] theorem setCrn_onx (f : Cairn → Cairn) (s : State) : (setCrn f s).onx = s.onx := rfl
@[simp] theorem setCrn_sec (f : Cairn → Cairn) (s : State) : (setCrn f s).sec = s.sec := rfl
@[simp] theorem setCrn_pending (f : Cairn → Cairn) (s : State) : (setCrn f s).pending = s.pending := rfl
@[simp] theorem setCrn_now (f : Cairn → Cairn) (s : State) : (setCrn f s).now = s.now := rfl
@[simp] theorem setCrn_busyAt (f : Cairn → Cairn) (s : State) : (setCrn f s).busyAt = s.busyAt := rfl
@[simp] theorem setCrn_svc (f : Cairn → Cairn) (s : State) : (setCrn f s).svc = s.svc := rfl
@[simp] theorem setCrn_free (f : Cairn → Cairn) (s : State) : (setCrn f s).free = s.free := rfl
@[simp] theorem setCrn_out (f : Cairn → Cairn) (s : State) : (setCrn f s).out = s.out := rfl
@[simp] theorem setCrn_sels (f : Cairn → Cairn) (s : State) : (setCrn f s).sels = s.sels := rfl
@[simp] theorem setCrn_mem (f : Cairn → Cairn) (s : State) : (setCrn f s).mem = s.mem := rfl
@[simp] theorem setCrn_stks (f : Cairn → Cairn) (s : State) : (setCrn f s).stks = s.stks := rfl

/-! setCp -/

@[simp] theorem setCp_pwr (f : Ctl → Ctl) (s : State) : (setCp f s).pwr = s.pwr := rfl
@[simp] theorem setCp_fuse (f : Ctl → Ctl) (s : State) : (setCp f s).fuse = s.fuse := rfl
@[simp] theorem setCp_flash (f : Ctl → Ctl) (s : State) : (setCp f s).flash = s.flash := rfl
@[simp] theorem setCp_boot (f : Ctl → Ctl) (s : State) : (setCp f s).boot = s.boot := rfl
@[simp] theorem setCp_img (f : Ctl → Ctl) (s : State) : (setCp f s).img = s.img := rfl
@[simp] theorem setCp_isl (f : Ctl → Ctl) (s : State) : (setCp f s).isl = s.isl := rfl
@[simp] theorem setCp_crn (f : Ctl → Ctl) (s : State) : (setCp f s).crn = s.crn := rfl
@[simp] theorem setCp_cp (f : Ctl → Ctl) (s : State) : (setCp f s).cp = f s.cp := rfl
@[simp] theorem setCp_bel (f : Ctl → Ctl) (s : State) : (setCp f s).bel = s.bel := rfl
@[simp] theorem setCp_mgmt (f : Ctl → Ctl) (s : State) : (setCp f s).mgmt = s.mgmt := rfl
@[simp] theorem setCp_glb (f : Ctl → Ctl) (s : State) : (setCp f s).glb = s.glb := rfl
@[simp] theorem setCp_pool (f : Ctl → Ctl) (s : State) : (setCp f s).pool = s.pool := rfl
@[simp] theorem setCp_vrb (f : Ctl → Ctl) (s : State) : (setCp f s).vrb = s.vrb := rfl
@[simp] theorem setCp_bulk (f : Ctl → Ctl) (s : State) : (setCp f s).bulk = s.bulk := rfl
@[simp] theorem setCp_coh (f : Ctl → Ctl) (s : State) : (setCp f s).coh = s.coh := rfl
@[simp] theorem setCp_fe (f : Ctl → Ctl) (s : State) : (setCp f s).fe = s.fe := rfl
@[simp] theorem setCp_ws (f : Ctl → Ctl) (s : State) : (setCp f s).ws = s.ws := rfl
@[simp] theorem setCp_kv (f : Ctl → Ctl) (s : State) : (setCp f s).kv = s.kv := rfl
@[simp] theorem setCp_lnk (f : Ctl → Ctl) (s : State) : (setCp f s).lnk = s.lnk := rfl
@[simp] theorem setCp_rte (f : Ctl → Ctl) (s : State) : (setCp f s).rte = s.rte := rfl
@[simp] theorem setCp_e2e (f : Ctl → Ctl) (s : State) : (setCp f s).e2e = s.e2e := rfl
@[simp] theorem setCp_qos (f : Ctl → Ctl) (s : State) : (setCp f s).qos = s.qos := rfl
@[simp] theorem setCp_ecc (f : Ctl → Ctl) (s : State) : (setCp f s).ecc = s.ecc := rfl
@[simp] theorem setCp_trv (f : Ctl → Ctl) (s : State) : (setCp f s).trv = s.trv := rfl
@[simp] theorem setCp_onx (f : Ctl → Ctl) (s : State) : (setCp f s).onx = s.onx := rfl
@[simp] theorem setCp_sec (f : Ctl → Ctl) (s : State) : (setCp f s).sec = s.sec := rfl
@[simp] theorem setCp_pending (f : Ctl → Ctl) (s : State) : (setCp f s).pending = s.pending := rfl
@[simp] theorem setCp_now (f : Ctl → Ctl) (s : State) : (setCp f s).now = s.now := rfl
@[simp] theorem setCp_busyAt (f : Ctl → Ctl) (s : State) : (setCp f s).busyAt = s.busyAt := rfl
@[simp] theorem setCp_svc (f : Ctl → Ctl) (s : State) : (setCp f s).svc = s.svc := rfl
@[simp] theorem setCp_free (f : Ctl → Ctl) (s : State) : (setCp f s).free = s.free := rfl
@[simp] theorem setCp_out (f : Ctl → Ctl) (s : State) : (setCp f s).out = s.out := rfl
@[simp] theorem setCp_sels (f : Ctl → Ctl) (s : State) : (setCp f s).sels = s.sels := rfl
@[simp] theorem setCp_mem (f : Ctl → Ctl) (s : State) : (setCp f s).mem = s.mem := rfl
@[simp] theorem setCp_stks (f : Ctl → Ctl) (s : State) : (setCp f s).stks = s.stks := rfl

/-! setBel -/

@[simp] theorem setBel_pwr (f : Bel → Bel) (s : State) : (setBel f s).pwr = s.pwr := rfl
@[simp] theorem setBel_fuse (f : Bel → Bel) (s : State) : (setBel f s).fuse = s.fuse := rfl
@[simp] theorem setBel_flash (f : Bel → Bel) (s : State) : (setBel f s).flash = s.flash := rfl
@[simp] theorem setBel_boot (f : Bel → Bel) (s : State) : (setBel f s).boot = s.boot := rfl
@[simp] theorem setBel_img (f : Bel → Bel) (s : State) : (setBel f s).img = s.img := rfl
@[simp] theorem setBel_isl (f : Bel → Bel) (s : State) : (setBel f s).isl = s.isl := rfl
@[simp] theorem setBel_crn (f : Bel → Bel) (s : State) : (setBel f s).crn = s.crn := rfl
@[simp] theorem setBel_cp (f : Bel → Bel) (s : State) : (setBel f s).cp = s.cp := rfl
@[simp] theorem setBel_bel (f : Bel → Bel) (s : State) : (setBel f s).bel = f s.bel := rfl
@[simp] theorem setBel_mgmt (f : Bel → Bel) (s : State) : (setBel f s).mgmt = s.mgmt := rfl
@[simp] theorem setBel_glb (f : Bel → Bel) (s : State) : (setBel f s).glb = s.glb := rfl
@[simp] theorem setBel_pool (f : Bel → Bel) (s : State) : (setBel f s).pool = s.pool := rfl
@[simp] theorem setBel_vrb (f : Bel → Bel) (s : State) : (setBel f s).vrb = s.vrb := rfl
@[simp] theorem setBel_bulk (f : Bel → Bel) (s : State) : (setBel f s).bulk = s.bulk := rfl
@[simp] theorem setBel_coh (f : Bel → Bel) (s : State) : (setBel f s).coh = s.coh := rfl
@[simp] theorem setBel_fe (f : Bel → Bel) (s : State) : (setBel f s).fe = s.fe := rfl
@[simp] theorem setBel_ws (f : Bel → Bel) (s : State) : (setBel f s).ws = s.ws := rfl
@[simp] theorem setBel_kv (f : Bel → Bel) (s : State) : (setBel f s).kv = s.kv := rfl
@[simp] theorem setBel_lnk (f : Bel → Bel) (s : State) : (setBel f s).lnk = s.lnk := rfl
@[simp] theorem setBel_rte (f : Bel → Bel) (s : State) : (setBel f s).rte = s.rte := rfl
@[simp] theorem setBel_e2e (f : Bel → Bel) (s : State) : (setBel f s).e2e = s.e2e := rfl
@[simp] theorem setBel_qos (f : Bel → Bel) (s : State) : (setBel f s).qos = s.qos := rfl
@[simp] theorem setBel_ecc (f : Bel → Bel) (s : State) : (setBel f s).ecc = s.ecc := rfl
@[simp] theorem setBel_trv (f : Bel → Bel) (s : State) : (setBel f s).trv = s.trv := rfl
@[simp] theorem setBel_onx (f : Bel → Bel) (s : State) : (setBel f s).onx = s.onx := rfl
@[simp] theorem setBel_sec (f : Bel → Bel) (s : State) : (setBel f s).sec = s.sec := rfl
@[simp] theorem setBel_pending (f : Bel → Bel) (s : State) : (setBel f s).pending = s.pending := rfl
@[simp] theorem setBel_now (f : Bel → Bel) (s : State) : (setBel f s).now = s.now := rfl
@[simp] theorem setBel_busyAt (f : Bel → Bel) (s : State) : (setBel f s).busyAt = s.busyAt := rfl
@[simp] theorem setBel_svc (f : Bel → Bel) (s : State) : (setBel f s).svc = s.svc := rfl
@[simp] theorem setBel_free (f : Bel → Bel) (s : State) : (setBel f s).free = s.free := rfl
@[simp] theorem setBel_out (f : Bel → Bel) (s : State) : (setBel f s).out = s.out := rfl
@[simp] theorem setBel_sels (f : Bel → Bel) (s : State) : (setBel f s).sels = s.sels := rfl
@[simp] theorem setBel_mem (f : Bel → Bel) (s : State) : (setBel f s).mem = s.mem := rfl
@[simp] theorem setBel_stks (f : Bel → Bel) (s : State) : (setBel f s).stks = s.stks := rfl

/-! setMgmt -/

@[simp] theorem setMgmt_pwr (f : Mgmt → Mgmt) (s : State) : (setMgmt f s).pwr = s.pwr := rfl
@[simp] theorem setMgmt_fuse (f : Mgmt → Mgmt) (s : State) : (setMgmt f s).fuse = s.fuse := rfl
@[simp] theorem setMgmt_flash (f : Mgmt → Mgmt) (s : State) : (setMgmt f s).flash = s.flash := rfl
@[simp] theorem setMgmt_boot (f : Mgmt → Mgmt) (s : State) : (setMgmt f s).boot = s.boot := rfl
@[simp] theorem setMgmt_img (f : Mgmt → Mgmt) (s : State) : (setMgmt f s).img = s.img := rfl
@[simp] theorem setMgmt_isl (f : Mgmt → Mgmt) (s : State) : (setMgmt f s).isl = s.isl := rfl
@[simp] theorem setMgmt_crn (f : Mgmt → Mgmt) (s : State) : (setMgmt f s).crn = s.crn := rfl
@[simp] theorem setMgmt_cp (f : Mgmt → Mgmt) (s : State) : (setMgmt f s).cp = s.cp := rfl
@[simp] theorem setMgmt_bel (f : Mgmt → Mgmt) (s : State) : (setMgmt f s).bel = s.bel := rfl
@[simp] theorem setMgmt_mgmt (f : Mgmt → Mgmt) (s : State) : (setMgmt f s).mgmt = f s.mgmt := rfl
@[simp] theorem setMgmt_glb (f : Mgmt → Mgmt) (s : State) : (setMgmt f s).glb = s.glb := rfl
@[simp] theorem setMgmt_pool (f : Mgmt → Mgmt) (s : State) : (setMgmt f s).pool = s.pool := rfl
@[simp] theorem setMgmt_vrb (f : Mgmt → Mgmt) (s : State) : (setMgmt f s).vrb = s.vrb := rfl
@[simp] theorem setMgmt_bulk (f : Mgmt → Mgmt) (s : State) : (setMgmt f s).bulk = s.bulk := rfl
@[simp] theorem setMgmt_coh (f : Mgmt → Mgmt) (s : State) : (setMgmt f s).coh = s.coh := rfl
@[simp] theorem setMgmt_fe (f : Mgmt → Mgmt) (s : State) : (setMgmt f s).fe = s.fe := rfl
@[simp] theorem setMgmt_ws (f : Mgmt → Mgmt) (s : State) : (setMgmt f s).ws = s.ws := rfl
@[simp] theorem setMgmt_kv (f : Mgmt → Mgmt) (s : State) : (setMgmt f s).kv = s.kv := rfl
@[simp] theorem setMgmt_lnk (f : Mgmt → Mgmt) (s : State) : (setMgmt f s).lnk = s.lnk := rfl
@[simp] theorem setMgmt_rte (f : Mgmt → Mgmt) (s : State) : (setMgmt f s).rte = s.rte := rfl
@[simp] theorem setMgmt_e2e (f : Mgmt → Mgmt) (s : State) : (setMgmt f s).e2e = s.e2e := rfl
@[simp] theorem setMgmt_qos (f : Mgmt → Mgmt) (s : State) : (setMgmt f s).qos = s.qos := rfl
@[simp] theorem setMgmt_ecc (f : Mgmt → Mgmt) (s : State) : (setMgmt f s).ecc = s.ecc := rfl
@[simp] theorem setMgmt_trv (f : Mgmt → Mgmt) (s : State) : (setMgmt f s).trv = s.trv := rfl
@[simp] theorem setMgmt_onx (f : Mgmt → Mgmt) (s : State) : (setMgmt f s).onx = s.onx := rfl
@[simp] theorem setMgmt_sec (f : Mgmt → Mgmt) (s : State) : (setMgmt f s).sec = s.sec := rfl
@[simp] theorem setMgmt_pending (f : Mgmt → Mgmt) (s : State) : (setMgmt f s).pending = s.pending := rfl
@[simp] theorem setMgmt_now (f : Mgmt → Mgmt) (s : State) : (setMgmt f s).now = s.now := rfl
@[simp] theorem setMgmt_busyAt (f : Mgmt → Mgmt) (s : State) : (setMgmt f s).busyAt = s.busyAt := rfl
@[simp] theorem setMgmt_svc (f : Mgmt → Mgmt) (s : State) : (setMgmt f s).svc = s.svc := rfl
@[simp] theorem setMgmt_free (f : Mgmt → Mgmt) (s : State) : (setMgmt f s).free = s.free := rfl
@[simp] theorem setMgmt_out (f : Mgmt → Mgmt) (s : State) : (setMgmt f s).out = s.out := rfl
@[simp] theorem setMgmt_sels (f : Mgmt → Mgmt) (s : State) : (setMgmt f s).sels = s.sels := rfl
@[simp] theorem setMgmt_mem (f : Mgmt → Mgmt) (s : State) : (setMgmt f s).mem = s.mem := rfl
@[simp] theorem setMgmt_stks (f : Mgmt → Mgmt) (s : State) : (setMgmt f s).stks = s.stks := rfl

/-! setPool -/

@[simp] theorem setPool_pwr (f : Pool → Pool) (s : State) : (setPool f s).pwr = s.pwr := rfl
@[simp] theorem setPool_fuse (f : Pool → Pool) (s : State) : (setPool f s).fuse = s.fuse := rfl
@[simp] theorem setPool_flash (f : Pool → Pool) (s : State) : (setPool f s).flash = s.flash := rfl
@[simp] theorem setPool_boot (f : Pool → Pool) (s : State) : (setPool f s).boot = s.boot := rfl
@[simp] theorem setPool_img (f : Pool → Pool) (s : State) : (setPool f s).img = s.img := rfl
@[simp] theorem setPool_isl (f : Pool → Pool) (s : State) : (setPool f s).isl = s.isl := rfl
@[simp] theorem setPool_crn (f : Pool → Pool) (s : State) : (setPool f s).crn = s.crn := rfl
@[simp] theorem setPool_cp (f : Pool → Pool) (s : State) : (setPool f s).cp = s.cp := rfl
@[simp] theorem setPool_bel (f : Pool → Pool) (s : State) : (setPool f s).bel = s.bel := rfl
@[simp] theorem setPool_mgmt (f : Pool → Pool) (s : State) : (setPool f s).mgmt = s.mgmt := rfl
@[simp] theorem setPool_glb (f : Pool → Pool) (s : State) : (setPool f s).glb = s.glb := rfl
@[simp] theorem setPool_pool (f : Pool → Pool) (s : State) : (setPool f s).pool = f s.pool := rfl
@[simp] theorem setPool_vrb (f : Pool → Pool) (s : State) : (setPool f s).vrb = s.vrb := rfl
@[simp] theorem setPool_bulk (f : Pool → Pool) (s : State) : (setPool f s).bulk = s.bulk := rfl
@[simp] theorem setPool_coh (f : Pool → Pool) (s : State) : (setPool f s).coh = s.coh := rfl
@[simp] theorem setPool_fe (f : Pool → Pool) (s : State) : (setPool f s).fe = s.fe := rfl
@[simp] theorem setPool_ws (f : Pool → Pool) (s : State) : (setPool f s).ws = s.ws := rfl
@[simp] theorem setPool_kv (f : Pool → Pool) (s : State) : (setPool f s).kv = s.kv := rfl
@[simp] theorem setPool_lnk (f : Pool → Pool) (s : State) : (setPool f s).lnk = s.lnk := rfl
@[simp] theorem setPool_rte (f : Pool → Pool) (s : State) : (setPool f s).rte = s.rte := rfl
@[simp] theorem setPool_e2e (f : Pool → Pool) (s : State) : (setPool f s).e2e = s.e2e := rfl
@[simp] theorem setPool_qos (f : Pool → Pool) (s : State) : (setPool f s).qos = s.qos := rfl
@[simp] theorem setPool_ecc (f : Pool → Pool) (s : State) : (setPool f s).ecc = s.ecc := rfl
@[simp] theorem setPool_trv (f : Pool → Pool) (s : State) : (setPool f s).trv = s.trv := rfl
@[simp] theorem setPool_onx (f : Pool → Pool) (s : State) : (setPool f s).onx = s.onx := rfl
@[simp] theorem setPool_sec (f : Pool → Pool) (s : State) : (setPool f s).sec = s.sec := rfl
@[simp] theorem setPool_pending (f : Pool → Pool) (s : State) : (setPool f s).pending = s.pending := rfl
@[simp] theorem setPool_now (f : Pool → Pool) (s : State) : (setPool f s).now = s.now := rfl
@[simp] theorem setPool_busyAt (f : Pool → Pool) (s : State) : (setPool f s).busyAt = s.busyAt := rfl
@[simp] theorem setPool_svc (f : Pool → Pool) (s : State) : (setPool f s).svc = s.svc := rfl
@[simp] theorem setPool_free (f : Pool → Pool) (s : State) : (setPool f s).free = s.free := rfl
@[simp] theorem setPool_out (f : Pool → Pool) (s : State) : (setPool f s).out = s.out := rfl
@[simp] theorem setPool_sels (f : Pool → Pool) (s : State) : (setPool f s).sels = s.sels := rfl
@[simp] theorem setPool_mem (f : Pool → Pool) (s : State) : (setPool f s).mem = s.mem := rfl
@[simp] theorem setPool_stks (f : Pool → Pool) (s : State) : (setPool f s).stks = s.stks := rfl

/-! setVrb -/

@[simp] theorem setVrb_pwr (f : Vrb → Vrb) (s : State) : (setVrb f s).pwr = s.pwr := rfl
@[simp] theorem setVrb_fuse (f : Vrb → Vrb) (s : State) : (setVrb f s).fuse = s.fuse := rfl
@[simp] theorem setVrb_flash (f : Vrb → Vrb) (s : State) : (setVrb f s).flash = s.flash := rfl
@[simp] theorem setVrb_boot (f : Vrb → Vrb) (s : State) : (setVrb f s).boot = s.boot := rfl
@[simp] theorem setVrb_img (f : Vrb → Vrb) (s : State) : (setVrb f s).img = s.img := rfl
@[simp] theorem setVrb_isl (f : Vrb → Vrb) (s : State) : (setVrb f s).isl = s.isl := rfl
@[simp] theorem setVrb_crn (f : Vrb → Vrb) (s : State) : (setVrb f s).crn = s.crn := rfl
@[simp] theorem setVrb_cp (f : Vrb → Vrb) (s : State) : (setVrb f s).cp = s.cp := rfl
@[simp] theorem setVrb_bel (f : Vrb → Vrb) (s : State) : (setVrb f s).bel = s.bel := rfl
@[simp] theorem setVrb_mgmt (f : Vrb → Vrb) (s : State) : (setVrb f s).mgmt = s.mgmt := rfl
@[simp] theorem setVrb_glb (f : Vrb → Vrb) (s : State) : (setVrb f s).glb = s.glb := rfl
@[simp] theorem setVrb_pool (f : Vrb → Vrb) (s : State) : (setVrb f s).pool = s.pool := rfl
@[simp] theorem setVrb_vrb (f : Vrb → Vrb) (s : State) : (setVrb f s).vrb = f s.vrb := rfl
@[simp] theorem setVrb_bulk (f : Vrb → Vrb) (s : State) : (setVrb f s).bulk = s.bulk := rfl
@[simp] theorem setVrb_coh (f : Vrb → Vrb) (s : State) : (setVrb f s).coh = s.coh := rfl
@[simp] theorem setVrb_fe (f : Vrb → Vrb) (s : State) : (setVrb f s).fe = s.fe := rfl
@[simp] theorem setVrb_ws (f : Vrb → Vrb) (s : State) : (setVrb f s).ws = s.ws := rfl
@[simp] theorem setVrb_kv (f : Vrb → Vrb) (s : State) : (setVrb f s).kv = s.kv := rfl
@[simp] theorem setVrb_lnk (f : Vrb → Vrb) (s : State) : (setVrb f s).lnk = s.lnk := rfl
@[simp] theorem setVrb_rte (f : Vrb → Vrb) (s : State) : (setVrb f s).rte = s.rte := rfl
@[simp] theorem setVrb_e2e (f : Vrb → Vrb) (s : State) : (setVrb f s).e2e = s.e2e := rfl
@[simp] theorem setVrb_qos (f : Vrb → Vrb) (s : State) : (setVrb f s).qos = s.qos := rfl
@[simp] theorem setVrb_ecc (f : Vrb → Vrb) (s : State) : (setVrb f s).ecc = s.ecc := rfl
@[simp] theorem setVrb_trv (f : Vrb → Vrb) (s : State) : (setVrb f s).trv = s.trv := rfl
@[simp] theorem setVrb_onx (f : Vrb → Vrb) (s : State) : (setVrb f s).onx = s.onx := rfl
@[simp] theorem setVrb_sec (f : Vrb → Vrb) (s : State) : (setVrb f s).sec = s.sec := rfl
@[simp] theorem setVrb_pending (f : Vrb → Vrb) (s : State) : (setVrb f s).pending = s.pending := rfl
@[simp] theorem setVrb_now (f : Vrb → Vrb) (s : State) : (setVrb f s).now = s.now := rfl
@[simp] theorem setVrb_busyAt (f : Vrb → Vrb) (s : State) : (setVrb f s).busyAt = s.busyAt := rfl
@[simp] theorem setVrb_svc (f : Vrb → Vrb) (s : State) : (setVrb f s).svc = s.svc := rfl
@[simp] theorem setVrb_free (f : Vrb → Vrb) (s : State) : (setVrb f s).free = s.free := rfl
@[simp] theorem setVrb_out (f : Vrb → Vrb) (s : State) : (setVrb f s).out = s.out := rfl
@[simp] theorem setVrb_sels (f : Vrb → Vrb) (s : State) : (setVrb f s).sels = s.sels := rfl
@[simp] theorem setVrb_mem (f : Vrb → Vrb) (s : State) : (setVrb f s).mem = s.mem := rfl
@[simp] theorem setVrb_stks (f : Vrb → Vrb) (s : State) : (setVrb f s).stks = s.stks := rfl

/-! setBulk -/

@[simp] theorem setBulk_pwr (f : Bulk → Bulk) (s : State) : (setBulk f s).pwr = s.pwr := rfl
@[simp] theorem setBulk_fuse (f : Bulk → Bulk) (s : State) : (setBulk f s).fuse = s.fuse := rfl
@[simp] theorem setBulk_flash (f : Bulk → Bulk) (s : State) : (setBulk f s).flash = s.flash := rfl
@[simp] theorem setBulk_boot (f : Bulk → Bulk) (s : State) : (setBulk f s).boot = s.boot := rfl
@[simp] theorem setBulk_img (f : Bulk → Bulk) (s : State) : (setBulk f s).img = s.img := rfl
@[simp] theorem setBulk_isl (f : Bulk → Bulk) (s : State) : (setBulk f s).isl = s.isl := rfl
@[simp] theorem setBulk_crn (f : Bulk → Bulk) (s : State) : (setBulk f s).crn = s.crn := rfl
@[simp] theorem setBulk_cp (f : Bulk → Bulk) (s : State) : (setBulk f s).cp = s.cp := rfl
@[simp] theorem setBulk_bel (f : Bulk → Bulk) (s : State) : (setBulk f s).bel = s.bel := rfl
@[simp] theorem setBulk_mgmt (f : Bulk → Bulk) (s : State) : (setBulk f s).mgmt = s.mgmt := rfl
@[simp] theorem setBulk_glb (f : Bulk → Bulk) (s : State) : (setBulk f s).glb = s.glb := rfl
@[simp] theorem setBulk_pool (f : Bulk → Bulk) (s : State) : (setBulk f s).pool = s.pool := rfl
@[simp] theorem setBulk_vrb (f : Bulk → Bulk) (s : State) : (setBulk f s).vrb = s.vrb := rfl
@[simp] theorem setBulk_bulk (f : Bulk → Bulk) (s : State) : (setBulk f s).bulk = f s.bulk := rfl
@[simp] theorem setBulk_coh (f : Bulk → Bulk) (s : State) : (setBulk f s).coh = s.coh := rfl
@[simp] theorem setBulk_fe (f : Bulk → Bulk) (s : State) : (setBulk f s).fe = s.fe := rfl
@[simp] theorem setBulk_ws (f : Bulk → Bulk) (s : State) : (setBulk f s).ws = s.ws := rfl
@[simp] theorem setBulk_kv (f : Bulk → Bulk) (s : State) : (setBulk f s).kv = s.kv := rfl
@[simp] theorem setBulk_lnk (f : Bulk → Bulk) (s : State) : (setBulk f s).lnk = s.lnk := rfl
@[simp] theorem setBulk_rte (f : Bulk → Bulk) (s : State) : (setBulk f s).rte = s.rte := rfl
@[simp] theorem setBulk_e2e (f : Bulk → Bulk) (s : State) : (setBulk f s).e2e = s.e2e := rfl
@[simp] theorem setBulk_qos (f : Bulk → Bulk) (s : State) : (setBulk f s).qos = s.qos := rfl
@[simp] theorem setBulk_ecc (f : Bulk → Bulk) (s : State) : (setBulk f s).ecc = s.ecc := rfl
@[simp] theorem setBulk_trv (f : Bulk → Bulk) (s : State) : (setBulk f s).trv = s.trv := rfl
@[simp] theorem setBulk_onx (f : Bulk → Bulk) (s : State) : (setBulk f s).onx = s.onx := rfl
@[simp] theorem setBulk_sec (f : Bulk → Bulk) (s : State) : (setBulk f s).sec = s.sec := rfl
@[simp] theorem setBulk_pending (f : Bulk → Bulk) (s : State) : (setBulk f s).pending = s.pending := rfl
@[simp] theorem setBulk_now (f : Bulk → Bulk) (s : State) : (setBulk f s).now = s.now := rfl
@[simp] theorem setBulk_busyAt (f : Bulk → Bulk) (s : State) : (setBulk f s).busyAt = s.busyAt := rfl
@[simp] theorem setBulk_svc (f : Bulk → Bulk) (s : State) : (setBulk f s).svc = s.svc := rfl
@[simp] theorem setBulk_free (f : Bulk → Bulk) (s : State) : (setBulk f s).free = s.free := rfl
@[simp] theorem setBulk_out (f : Bulk → Bulk) (s : State) : (setBulk f s).out = s.out := rfl
@[simp] theorem setBulk_sels (f : Bulk → Bulk) (s : State) : (setBulk f s).sels = s.sels := rfl
@[simp] theorem setBulk_mem (f : Bulk → Bulk) (s : State) : (setBulk f s).mem = s.mem := rfl
@[simp] theorem setBulk_stks (f : Bulk → Bulk) (s : State) : (setBulk f s).stks = s.stks := rfl

/-! setCoh -/

@[simp] theorem setCoh_pwr (f : Coh → Coh) (s : State) : (setCoh f s).pwr = s.pwr := rfl
@[simp] theorem setCoh_fuse (f : Coh → Coh) (s : State) : (setCoh f s).fuse = s.fuse := rfl
@[simp] theorem setCoh_flash (f : Coh → Coh) (s : State) : (setCoh f s).flash = s.flash := rfl
@[simp] theorem setCoh_boot (f : Coh → Coh) (s : State) : (setCoh f s).boot = s.boot := rfl
@[simp] theorem setCoh_img (f : Coh → Coh) (s : State) : (setCoh f s).img = s.img := rfl
@[simp] theorem setCoh_isl (f : Coh → Coh) (s : State) : (setCoh f s).isl = s.isl := rfl
@[simp] theorem setCoh_crn (f : Coh → Coh) (s : State) : (setCoh f s).crn = s.crn := rfl
@[simp] theorem setCoh_cp (f : Coh → Coh) (s : State) : (setCoh f s).cp = s.cp := rfl
@[simp] theorem setCoh_bel (f : Coh → Coh) (s : State) : (setCoh f s).bel = s.bel := rfl
@[simp] theorem setCoh_mgmt (f : Coh → Coh) (s : State) : (setCoh f s).mgmt = s.mgmt := rfl
@[simp] theorem setCoh_glb (f : Coh → Coh) (s : State) : (setCoh f s).glb = s.glb := rfl
@[simp] theorem setCoh_pool (f : Coh → Coh) (s : State) : (setCoh f s).pool = s.pool := rfl
@[simp] theorem setCoh_vrb (f : Coh → Coh) (s : State) : (setCoh f s).vrb = s.vrb := rfl
@[simp] theorem setCoh_bulk (f : Coh → Coh) (s : State) : (setCoh f s).bulk = s.bulk := rfl
@[simp] theorem setCoh_coh (f : Coh → Coh) (s : State) : (setCoh f s).coh = f s.coh := rfl
@[simp] theorem setCoh_fe (f : Coh → Coh) (s : State) : (setCoh f s).fe = s.fe := rfl
@[simp] theorem setCoh_ws (f : Coh → Coh) (s : State) : (setCoh f s).ws = s.ws := rfl
@[simp] theorem setCoh_kv (f : Coh → Coh) (s : State) : (setCoh f s).kv = s.kv := rfl
@[simp] theorem setCoh_lnk (f : Coh → Coh) (s : State) : (setCoh f s).lnk = s.lnk := rfl
@[simp] theorem setCoh_rte (f : Coh → Coh) (s : State) : (setCoh f s).rte = s.rte := rfl
@[simp] theorem setCoh_e2e (f : Coh → Coh) (s : State) : (setCoh f s).e2e = s.e2e := rfl
@[simp] theorem setCoh_qos (f : Coh → Coh) (s : State) : (setCoh f s).qos = s.qos := rfl
@[simp] theorem setCoh_ecc (f : Coh → Coh) (s : State) : (setCoh f s).ecc = s.ecc := rfl
@[simp] theorem setCoh_trv (f : Coh → Coh) (s : State) : (setCoh f s).trv = s.trv := rfl
@[simp] theorem setCoh_onx (f : Coh → Coh) (s : State) : (setCoh f s).onx = s.onx := rfl
@[simp] theorem setCoh_sec (f : Coh → Coh) (s : State) : (setCoh f s).sec = s.sec := rfl
@[simp] theorem setCoh_pending (f : Coh → Coh) (s : State) : (setCoh f s).pending = s.pending := rfl
@[simp] theorem setCoh_now (f : Coh → Coh) (s : State) : (setCoh f s).now = s.now := rfl
@[simp] theorem setCoh_busyAt (f : Coh → Coh) (s : State) : (setCoh f s).busyAt = s.busyAt := rfl
@[simp] theorem setCoh_svc (f : Coh → Coh) (s : State) : (setCoh f s).svc = s.svc := rfl
@[simp] theorem setCoh_free (f : Coh → Coh) (s : State) : (setCoh f s).free = s.free := rfl
@[simp] theorem setCoh_out (f : Coh → Coh) (s : State) : (setCoh f s).out = s.out := rfl
@[simp] theorem setCoh_sels (f : Coh → Coh) (s : State) : (setCoh f s).sels = s.sels := rfl
@[simp] theorem setCoh_mem (f : Coh → Coh) (s : State) : (setCoh f s).mem = s.mem := rfl
@[simp] theorem setCoh_stks (f : Coh → Coh) (s : State) : (setCoh f s).stks = s.stks := rfl

/-! setFe -/

@[simp] theorem setFe_pwr (f : Fe → Fe) (s : State) : (setFe f s).pwr = s.pwr := rfl
@[simp] theorem setFe_fuse (f : Fe → Fe) (s : State) : (setFe f s).fuse = s.fuse := rfl
@[simp] theorem setFe_flash (f : Fe → Fe) (s : State) : (setFe f s).flash = s.flash := rfl
@[simp] theorem setFe_boot (f : Fe → Fe) (s : State) : (setFe f s).boot = s.boot := rfl
@[simp] theorem setFe_img (f : Fe → Fe) (s : State) : (setFe f s).img = s.img := rfl
@[simp] theorem setFe_isl (f : Fe → Fe) (s : State) : (setFe f s).isl = s.isl := rfl
@[simp] theorem setFe_crn (f : Fe → Fe) (s : State) : (setFe f s).crn = s.crn := rfl
@[simp] theorem setFe_cp (f : Fe → Fe) (s : State) : (setFe f s).cp = s.cp := rfl
@[simp] theorem setFe_bel (f : Fe → Fe) (s : State) : (setFe f s).bel = s.bel := rfl
@[simp] theorem setFe_mgmt (f : Fe → Fe) (s : State) : (setFe f s).mgmt = s.mgmt := rfl
@[simp] theorem setFe_glb (f : Fe → Fe) (s : State) : (setFe f s).glb = s.glb := rfl
@[simp] theorem setFe_pool (f : Fe → Fe) (s : State) : (setFe f s).pool = s.pool := rfl
@[simp] theorem setFe_vrb (f : Fe → Fe) (s : State) : (setFe f s).vrb = s.vrb := rfl
@[simp] theorem setFe_bulk (f : Fe → Fe) (s : State) : (setFe f s).bulk = s.bulk := rfl
@[simp] theorem setFe_coh (f : Fe → Fe) (s : State) : (setFe f s).coh = s.coh := rfl
@[simp] theorem setFe_fe (f : Fe → Fe) (s : State) : (setFe f s).fe = f s.fe := rfl
@[simp] theorem setFe_ws (f : Fe → Fe) (s : State) : (setFe f s).ws = s.ws := rfl
@[simp] theorem setFe_kv (f : Fe → Fe) (s : State) : (setFe f s).kv = s.kv := rfl
@[simp] theorem setFe_lnk (f : Fe → Fe) (s : State) : (setFe f s).lnk = s.lnk := rfl
@[simp] theorem setFe_rte (f : Fe → Fe) (s : State) : (setFe f s).rte = s.rte := rfl
@[simp] theorem setFe_e2e (f : Fe → Fe) (s : State) : (setFe f s).e2e = s.e2e := rfl
@[simp] theorem setFe_qos (f : Fe → Fe) (s : State) : (setFe f s).qos = s.qos := rfl
@[simp] theorem setFe_ecc (f : Fe → Fe) (s : State) : (setFe f s).ecc = s.ecc := rfl
@[simp] theorem setFe_trv (f : Fe → Fe) (s : State) : (setFe f s).trv = s.trv := rfl
@[simp] theorem setFe_onx (f : Fe → Fe) (s : State) : (setFe f s).onx = s.onx := rfl
@[simp] theorem setFe_sec (f : Fe → Fe) (s : State) : (setFe f s).sec = s.sec := rfl
@[simp] theorem setFe_pending (f : Fe → Fe) (s : State) : (setFe f s).pending = s.pending := rfl
@[simp] theorem setFe_now (f : Fe → Fe) (s : State) : (setFe f s).now = s.now := rfl
@[simp] theorem setFe_busyAt (f : Fe → Fe) (s : State) : (setFe f s).busyAt = s.busyAt := rfl
@[simp] theorem setFe_svc (f : Fe → Fe) (s : State) : (setFe f s).svc = s.svc := rfl
@[simp] theorem setFe_free (f : Fe → Fe) (s : State) : (setFe f s).free = s.free := rfl
@[simp] theorem setFe_out (f : Fe → Fe) (s : State) : (setFe f s).out = s.out := rfl
@[simp] theorem setFe_sels (f : Fe → Fe) (s : State) : (setFe f s).sels = s.sels := rfl
@[simp] theorem setFe_mem (f : Fe → Fe) (s : State) : (setFe f s).mem = s.mem := rfl
@[simp] theorem setFe_stks (f : Fe → Fe) (s : State) : (setFe f s).stks = s.stks := rfl

/-! setWs -/

@[simp] theorem setWs_pwr (f : Ws → Ws) (s : State) : (setWs f s).pwr = s.pwr := rfl
@[simp] theorem setWs_fuse (f : Ws → Ws) (s : State) : (setWs f s).fuse = s.fuse := rfl
@[simp] theorem setWs_flash (f : Ws → Ws) (s : State) : (setWs f s).flash = s.flash := rfl
@[simp] theorem setWs_boot (f : Ws → Ws) (s : State) : (setWs f s).boot = s.boot := rfl
@[simp] theorem setWs_img (f : Ws → Ws) (s : State) : (setWs f s).img = s.img := rfl
@[simp] theorem setWs_isl (f : Ws → Ws) (s : State) : (setWs f s).isl = s.isl := rfl
@[simp] theorem setWs_crn (f : Ws → Ws) (s : State) : (setWs f s).crn = s.crn := rfl
@[simp] theorem setWs_cp (f : Ws → Ws) (s : State) : (setWs f s).cp = s.cp := rfl
@[simp] theorem setWs_bel (f : Ws → Ws) (s : State) : (setWs f s).bel = s.bel := rfl
@[simp] theorem setWs_mgmt (f : Ws → Ws) (s : State) : (setWs f s).mgmt = s.mgmt := rfl
@[simp] theorem setWs_glb (f : Ws → Ws) (s : State) : (setWs f s).glb = s.glb := rfl
@[simp] theorem setWs_pool (f : Ws → Ws) (s : State) : (setWs f s).pool = s.pool := rfl
@[simp] theorem setWs_vrb (f : Ws → Ws) (s : State) : (setWs f s).vrb = s.vrb := rfl
@[simp] theorem setWs_bulk (f : Ws → Ws) (s : State) : (setWs f s).bulk = s.bulk := rfl
@[simp] theorem setWs_coh (f : Ws → Ws) (s : State) : (setWs f s).coh = s.coh := rfl
@[simp] theorem setWs_fe (f : Ws → Ws) (s : State) : (setWs f s).fe = s.fe := rfl
@[simp] theorem setWs_ws (f : Ws → Ws) (s : State) : (setWs f s).ws = f s.ws := rfl
@[simp] theorem setWs_kv (f : Ws → Ws) (s : State) : (setWs f s).kv = s.kv := rfl
@[simp] theorem setWs_lnk (f : Ws → Ws) (s : State) : (setWs f s).lnk = s.lnk := rfl
@[simp] theorem setWs_rte (f : Ws → Ws) (s : State) : (setWs f s).rte = s.rte := rfl
@[simp] theorem setWs_e2e (f : Ws → Ws) (s : State) : (setWs f s).e2e = s.e2e := rfl
@[simp] theorem setWs_qos (f : Ws → Ws) (s : State) : (setWs f s).qos = s.qos := rfl
@[simp] theorem setWs_ecc (f : Ws → Ws) (s : State) : (setWs f s).ecc = s.ecc := rfl
@[simp] theorem setWs_trv (f : Ws → Ws) (s : State) : (setWs f s).trv = s.trv := rfl
@[simp] theorem setWs_onx (f : Ws → Ws) (s : State) : (setWs f s).onx = s.onx := rfl
@[simp] theorem setWs_sec (f : Ws → Ws) (s : State) : (setWs f s).sec = s.sec := rfl
@[simp] theorem setWs_pending (f : Ws → Ws) (s : State) : (setWs f s).pending = s.pending := rfl
@[simp] theorem setWs_now (f : Ws → Ws) (s : State) : (setWs f s).now = s.now := rfl
@[simp] theorem setWs_busyAt (f : Ws → Ws) (s : State) : (setWs f s).busyAt = s.busyAt := rfl
@[simp] theorem setWs_svc (f : Ws → Ws) (s : State) : (setWs f s).svc = s.svc := rfl
@[simp] theorem setWs_free (f : Ws → Ws) (s : State) : (setWs f s).free = s.free := rfl
@[simp] theorem setWs_out (f : Ws → Ws) (s : State) : (setWs f s).out = s.out := rfl
@[simp] theorem setWs_sels (f : Ws → Ws) (s : State) : (setWs f s).sels = s.sels := rfl
@[simp] theorem setWs_mem (f : Ws → Ws) (s : State) : (setWs f s).mem = s.mem := rfl
@[simp] theorem setWs_stks (f : Ws → Ws) (s : State) : (setWs f s).stks = s.stks := rfl

/-! setKv -/

@[simp] theorem setKv_pwr (f : Kv → Kv) (s : State) : (setKv f s).pwr = s.pwr := rfl
@[simp] theorem setKv_fuse (f : Kv → Kv) (s : State) : (setKv f s).fuse = s.fuse := rfl
@[simp] theorem setKv_flash (f : Kv → Kv) (s : State) : (setKv f s).flash = s.flash := rfl
@[simp] theorem setKv_boot (f : Kv → Kv) (s : State) : (setKv f s).boot = s.boot := rfl
@[simp] theorem setKv_img (f : Kv → Kv) (s : State) : (setKv f s).img = s.img := rfl
@[simp] theorem setKv_isl (f : Kv → Kv) (s : State) : (setKv f s).isl = s.isl := rfl
@[simp] theorem setKv_crn (f : Kv → Kv) (s : State) : (setKv f s).crn = s.crn := rfl
@[simp] theorem setKv_cp (f : Kv → Kv) (s : State) : (setKv f s).cp = s.cp := rfl
@[simp] theorem setKv_bel (f : Kv → Kv) (s : State) : (setKv f s).bel = s.bel := rfl
@[simp] theorem setKv_mgmt (f : Kv → Kv) (s : State) : (setKv f s).mgmt = s.mgmt := rfl
@[simp] theorem setKv_glb (f : Kv → Kv) (s : State) : (setKv f s).glb = s.glb := rfl
@[simp] theorem setKv_pool (f : Kv → Kv) (s : State) : (setKv f s).pool = s.pool := rfl
@[simp] theorem setKv_vrb (f : Kv → Kv) (s : State) : (setKv f s).vrb = s.vrb := rfl
@[simp] theorem setKv_bulk (f : Kv → Kv) (s : State) : (setKv f s).bulk = s.bulk := rfl
@[simp] theorem setKv_coh (f : Kv → Kv) (s : State) : (setKv f s).coh = s.coh := rfl
@[simp] theorem setKv_fe (f : Kv → Kv) (s : State) : (setKv f s).fe = s.fe := rfl
@[simp] theorem setKv_ws (f : Kv → Kv) (s : State) : (setKv f s).ws = s.ws := rfl
@[simp] theorem setKv_kv (f : Kv → Kv) (s : State) : (setKv f s).kv = f s.kv := rfl
@[simp] theorem setKv_lnk (f : Kv → Kv) (s : State) : (setKv f s).lnk = s.lnk := rfl
@[simp] theorem setKv_rte (f : Kv → Kv) (s : State) : (setKv f s).rte = s.rte := rfl
@[simp] theorem setKv_e2e (f : Kv → Kv) (s : State) : (setKv f s).e2e = s.e2e := rfl
@[simp] theorem setKv_qos (f : Kv → Kv) (s : State) : (setKv f s).qos = s.qos := rfl
@[simp] theorem setKv_ecc (f : Kv → Kv) (s : State) : (setKv f s).ecc = s.ecc := rfl
@[simp] theorem setKv_trv (f : Kv → Kv) (s : State) : (setKv f s).trv = s.trv := rfl
@[simp] theorem setKv_onx (f : Kv → Kv) (s : State) : (setKv f s).onx = s.onx := rfl
@[simp] theorem setKv_sec (f : Kv → Kv) (s : State) : (setKv f s).sec = s.sec := rfl
@[simp] theorem setKv_pending (f : Kv → Kv) (s : State) : (setKv f s).pending = s.pending := rfl
@[simp] theorem setKv_now (f : Kv → Kv) (s : State) : (setKv f s).now = s.now := rfl
@[simp] theorem setKv_busyAt (f : Kv → Kv) (s : State) : (setKv f s).busyAt = s.busyAt := rfl
@[simp] theorem setKv_svc (f : Kv → Kv) (s : State) : (setKv f s).svc = s.svc := rfl
@[simp] theorem setKv_free (f : Kv → Kv) (s : State) : (setKv f s).free = s.free := rfl
@[simp] theorem setKv_out (f : Kv → Kv) (s : State) : (setKv f s).out = s.out := rfl
@[simp] theorem setKv_sels (f : Kv → Kv) (s : State) : (setKv f s).sels = s.sels := rfl
@[simp] theorem setKv_mem (f : Kv → Kv) (s : State) : (setKv f s).mem = s.mem := rfl
@[simp] theorem setKv_stks (f : Kv → Kv) (s : State) : (setKv f s).stks = s.stks := rfl

/-! setLnk -/

@[simp] theorem setLnk_pwr (f : Lnk → Lnk) (s : State) : (setLnk f s).pwr = s.pwr := rfl
@[simp] theorem setLnk_fuse (f : Lnk → Lnk) (s : State) : (setLnk f s).fuse = s.fuse := rfl
@[simp] theorem setLnk_flash (f : Lnk → Lnk) (s : State) : (setLnk f s).flash = s.flash := rfl
@[simp] theorem setLnk_boot (f : Lnk → Lnk) (s : State) : (setLnk f s).boot = s.boot := rfl
@[simp] theorem setLnk_img (f : Lnk → Lnk) (s : State) : (setLnk f s).img = s.img := rfl
@[simp] theorem setLnk_isl (f : Lnk → Lnk) (s : State) : (setLnk f s).isl = s.isl := rfl
@[simp] theorem setLnk_crn (f : Lnk → Lnk) (s : State) : (setLnk f s).crn = s.crn := rfl
@[simp] theorem setLnk_cp (f : Lnk → Lnk) (s : State) : (setLnk f s).cp = s.cp := rfl
@[simp] theorem setLnk_bel (f : Lnk → Lnk) (s : State) : (setLnk f s).bel = s.bel := rfl
@[simp] theorem setLnk_mgmt (f : Lnk → Lnk) (s : State) : (setLnk f s).mgmt = s.mgmt := rfl
@[simp] theorem setLnk_glb (f : Lnk → Lnk) (s : State) : (setLnk f s).glb = s.glb := rfl
@[simp] theorem setLnk_pool (f : Lnk → Lnk) (s : State) : (setLnk f s).pool = s.pool := rfl
@[simp] theorem setLnk_vrb (f : Lnk → Lnk) (s : State) : (setLnk f s).vrb = s.vrb := rfl
@[simp] theorem setLnk_bulk (f : Lnk → Lnk) (s : State) : (setLnk f s).bulk = s.bulk := rfl
@[simp] theorem setLnk_coh (f : Lnk → Lnk) (s : State) : (setLnk f s).coh = s.coh := rfl
@[simp] theorem setLnk_fe (f : Lnk → Lnk) (s : State) : (setLnk f s).fe = s.fe := rfl
@[simp] theorem setLnk_ws (f : Lnk → Lnk) (s : State) : (setLnk f s).ws = s.ws := rfl
@[simp] theorem setLnk_kv (f : Lnk → Lnk) (s : State) : (setLnk f s).kv = s.kv := rfl
@[simp] theorem setLnk_lnk (f : Lnk → Lnk) (s : State) : (setLnk f s).lnk = f s.lnk := rfl
@[simp] theorem setLnk_rte (f : Lnk → Lnk) (s : State) : (setLnk f s).rte = s.rte := rfl
@[simp] theorem setLnk_e2e (f : Lnk → Lnk) (s : State) : (setLnk f s).e2e = s.e2e := rfl
@[simp] theorem setLnk_qos (f : Lnk → Lnk) (s : State) : (setLnk f s).qos = s.qos := rfl
@[simp] theorem setLnk_ecc (f : Lnk → Lnk) (s : State) : (setLnk f s).ecc = s.ecc := rfl
@[simp] theorem setLnk_trv (f : Lnk → Lnk) (s : State) : (setLnk f s).trv = s.trv := rfl
@[simp] theorem setLnk_onx (f : Lnk → Lnk) (s : State) : (setLnk f s).onx = s.onx := rfl
@[simp] theorem setLnk_sec (f : Lnk → Lnk) (s : State) : (setLnk f s).sec = s.sec := rfl
@[simp] theorem setLnk_pending (f : Lnk → Lnk) (s : State) : (setLnk f s).pending = s.pending := rfl
@[simp] theorem setLnk_now (f : Lnk → Lnk) (s : State) : (setLnk f s).now = s.now := rfl
@[simp] theorem setLnk_busyAt (f : Lnk → Lnk) (s : State) : (setLnk f s).busyAt = s.busyAt := rfl
@[simp] theorem setLnk_svc (f : Lnk → Lnk) (s : State) : (setLnk f s).svc = s.svc := rfl
@[simp] theorem setLnk_free (f : Lnk → Lnk) (s : State) : (setLnk f s).free = s.free := rfl
@[simp] theorem setLnk_out (f : Lnk → Lnk) (s : State) : (setLnk f s).out = s.out := rfl
@[simp] theorem setLnk_sels (f : Lnk → Lnk) (s : State) : (setLnk f s).sels = s.sels := rfl
@[simp] theorem setLnk_mem (f : Lnk → Lnk) (s : State) : (setLnk f s).mem = s.mem := rfl
@[simp] theorem setLnk_stks (f : Lnk → Lnk) (s : State) : (setLnk f s).stks = s.stks := rfl

/-! setRte -/

@[simp] theorem setRte_pwr (f : Rte → Rte) (s : State) : (setRte f s).pwr = s.pwr := rfl
@[simp] theorem setRte_fuse (f : Rte → Rte) (s : State) : (setRte f s).fuse = s.fuse := rfl
@[simp] theorem setRte_flash (f : Rte → Rte) (s : State) : (setRte f s).flash = s.flash := rfl
@[simp] theorem setRte_boot (f : Rte → Rte) (s : State) : (setRte f s).boot = s.boot := rfl
@[simp] theorem setRte_img (f : Rte → Rte) (s : State) : (setRte f s).img = s.img := rfl
@[simp] theorem setRte_isl (f : Rte → Rte) (s : State) : (setRte f s).isl = s.isl := rfl
@[simp] theorem setRte_crn (f : Rte → Rte) (s : State) : (setRte f s).crn = s.crn := rfl
@[simp] theorem setRte_cp (f : Rte → Rte) (s : State) : (setRte f s).cp = s.cp := rfl
@[simp] theorem setRte_bel (f : Rte → Rte) (s : State) : (setRte f s).bel = s.bel := rfl
@[simp] theorem setRte_mgmt (f : Rte → Rte) (s : State) : (setRte f s).mgmt = s.mgmt := rfl
@[simp] theorem setRte_glb (f : Rte → Rte) (s : State) : (setRte f s).glb = s.glb := rfl
@[simp] theorem setRte_pool (f : Rte → Rte) (s : State) : (setRte f s).pool = s.pool := rfl
@[simp] theorem setRte_vrb (f : Rte → Rte) (s : State) : (setRte f s).vrb = s.vrb := rfl
@[simp] theorem setRte_bulk (f : Rte → Rte) (s : State) : (setRte f s).bulk = s.bulk := rfl
@[simp] theorem setRte_coh (f : Rte → Rte) (s : State) : (setRte f s).coh = s.coh := rfl
@[simp] theorem setRte_fe (f : Rte → Rte) (s : State) : (setRte f s).fe = s.fe := rfl
@[simp] theorem setRte_ws (f : Rte → Rte) (s : State) : (setRte f s).ws = s.ws := rfl
@[simp] theorem setRte_kv (f : Rte → Rte) (s : State) : (setRte f s).kv = s.kv := rfl
@[simp] theorem setRte_lnk (f : Rte → Rte) (s : State) : (setRte f s).lnk = s.lnk := rfl
@[simp] theorem setRte_rte (f : Rte → Rte) (s : State) : (setRte f s).rte = f s.rte := rfl
@[simp] theorem setRte_e2e (f : Rte → Rte) (s : State) : (setRte f s).e2e = s.e2e := rfl
@[simp] theorem setRte_qos (f : Rte → Rte) (s : State) : (setRte f s).qos = s.qos := rfl
@[simp] theorem setRte_ecc (f : Rte → Rte) (s : State) : (setRte f s).ecc = s.ecc := rfl
@[simp] theorem setRte_trv (f : Rte → Rte) (s : State) : (setRte f s).trv = s.trv := rfl
@[simp] theorem setRte_onx (f : Rte → Rte) (s : State) : (setRte f s).onx = s.onx := rfl
@[simp] theorem setRte_sec (f : Rte → Rte) (s : State) : (setRte f s).sec = s.sec := rfl
@[simp] theorem setRte_pending (f : Rte → Rte) (s : State) : (setRte f s).pending = s.pending := rfl
@[simp] theorem setRte_now (f : Rte → Rte) (s : State) : (setRte f s).now = s.now := rfl
@[simp] theorem setRte_busyAt (f : Rte → Rte) (s : State) : (setRte f s).busyAt = s.busyAt := rfl
@[simp] theorem setRte_svc (f : Rte → Rte) (s : State) : (setRte f s).svc = s.svc := rfl
@[simp] theorem setRte_free (f : Rte → Rte) (s : State) : (setRte f s).free = s.free := rfl
@[simp] theorem setRte_out (f : Rte → Rte) (s : State) : (setRte f s).out = s.out := rfl
@[simp] theorem setRte_sels (f : Rte → Rte) (s : State) : (setRte f s).sels = s.sels := rfl
@[simp] theorem setRte_mem (f : Rte → Rte) (s : State) : (setRte f s).mem = s.mem := rfl
@[simp] theorem setRte_stks (f : Rte → Rte) (s : State) : (setRte f s).stks = s.stks := rfl

/-! setE2e -/

@[simp] theorem setE2e_pwr (f : E2e → E2e) (s : State) : (setE2e f s).pwr = s.pwr := rfl
@[simp] theorem setE2e_fuse (f : E2e → E2e) (s : State) : (setE2e f s).fuse = s.fuse := rfl
@[simp] theorem setE2e_flash (f : E2e → E2e) (s : State) : (setE2e f s).flash = s.flash := rfl
@[simp] theorem setE2e_boot (f : E2e → E2e) (s : State) : (setE2e f s).boot = s.boot := rfl
@[simp] theorem setE2e_img (f : E2e → E2e) (s : State) : (setE2e f s).img = s.img := rfl
@[simp] theorem setE2e_isl (f : E2e → E2e) (s : State) : (setE2e f s).isl = s.isl := rfl
@[simp] theorem setE2e_crn (f : E2e → E2e) (s : State) : (setE2e f s).crn = s.crn := rfl
@[simp] theorem setE2e_cp (f : E2e → E2e) (s : State) : (setE2e f s).cp = s.cp := rfl
@[simp] theorem setE2e_bel (f : E2e → E2e) (s : State) : (setE2e f s).bel = s.bel := rfl
@[simp] theorem setE2e_mgmt (f : E2e → E2e) (s : State) : (setE2e f s).mgmt = s.mgmt := rfl
@[simp] theorem setE2e_glb (f : E2e → E2e) (s : State) : (setE2e f s).glb = s.glb := rfl
@[simp] theorem setE2e_pool (f : E2e → E2e) (s : State) : (setE2e f s).pool = s.pool := rfl
@[simp] theorem setE2e_vrb (f : E2e → E2e) (s : State) : (setE2e f s).vrb = s.vrb := rfl
@[simp] theorem setE2e_bulk (f : E2e → E2e) (s : State) : (setE2e f s).bulk = s.bulk := rfl
@[simp] theorem setE2e_coh (f : E2e → E2e) (s : State) : (setE2e f s).coh = s.coh := rfl
@[simp] theorem setE2e_fe (f : E2e → E2e) (s : State) : (setE2e f s).fe = s.fe := rfl
@[simp] theorem setE2e_ws (f : E2e → E2e) (s : State) : (setE2e f s).ws = s.ws := rfl
@[simp] theorem setE2e_kv (f : E2e → E2e) (s : State) : (setE2e f s).kv = s.kv := rfl
@[simp] theorem setE2e_lnk (f : E2e → E2e) (s : State) : (setE2e f s).lnk = s.lnk := rfl
@[simp] theorem setE2e_rte (f : E2e → E2e) (s : State) : (setE2e f s).rte = s.rte := rfl
@[simp] theorem setE2e_e2e (f : E2e → E2e) (s : State) : (setE2e f s).e2e = f s.e2e := rfl
@[simp] theorem setE2e_qos (f : E2e → E2e) (s : State) : (setE2e f s).qos = s.qos := rfl
@[simp] theorem setE2e_ecc (f : E2e → E2e) (s : State) : (setE2e f s).ecc = s.ecc := rfl
@[simp] theorem setE2e_trv (f : E2e → E2e) (s : State) : (setE2e f s).trv = s.trv := rfl
@[simp] theorem setE2e_onx (f : E2e → E2e) (s : State) : (setE2e f s).onx = s.onx := rfl
@[simp] theorem setE2e_sec (f : E2e → E2e) (s : State) : (setE2e f s).sec = s.sec := rfl
@[simp] theorem setE2e_pending (f : E2e → E2e) (s : State) : (setE2e f s).pending = s.pending := rfl
@[simp] theorem setE2e_now (f : E2e → E2e) (s : State) : (setE2e f s).now = s.now := rfl
@[simp] theorem setE2e_busyAt (f : E2e → E2e) (s : State) : (setE2e f s).busyAt = s.busyAt := rfl
@[simp] theorem setE2e_svc (f : E2e → E2e) (s : State) : (setE2e f s).svc = s.svc := rfl
@[simp] theorem setE2e_free (f : E2e → E2e) (s : State) : (setE2e f s).free = s.free := rfl
@[simp] theorem setE2e_out (f : E2e → E2e) (s : State) : (setE2e f s).out = s.out := rfl
@[simp] theorem setE2e_sels (f : E2e → E2e) (s : State) : (setE2e f s).sels = s.sels := rfl
@[simp] theorem setE2e_mem (f : E2e → E2e) (s : State) : (setE2e f s).mem = s.mem := rfl
@[simp] theorem setE2e_stks (f : E2e → E2e) (s : State) : (setE2e f s).stks = s.stks := rfl

/-! setQos -/

@[simp] theorem setQos_pwr (f : Qos → Qos) (s : State) : (setQos f s).pwr = s.pwr := rfl
@[simp] theorem setQos_fuse (f : Qos → Qos) (s : State) : (setQos f s).fuse = s.fuse := rfl
@[simp] theorem setQos_flash (f : Qos → Qos) (s : State) : (setQos f s).flash = s.flash := rfl
@[simp] theorem setQos_boot (f : Qos → Qos) (s : State) : (setQos f s).boot = s.boot := rfl
@[simp] theorem setQos_img (f : Qos → Qos) (s : State) : (setQos f s).img = s.img := rfl
@[simp] theorem setQos_isl (f : Qos → Qos) (s : State) : (setQos f s).isl = s.isl := rfl
@[simp] theorem setQos_crn (f : Qos → Qos) (s : State) : (setQos f s).crn = s.crn := rfl
@[simp] theorem setQos_cp (f : Qos → Qos) (s : State) : (setQos f s).cp = s.cp := rfl
@[simp] theorem setQos_bel (f : Qos → Qos) (s : State) : (setQos f s).bel = s.bel := rfl
@[simp] theorem setQos_mgmt (f : Qos → Qos) (s : State) : (setQos f s).mgmt = s.mgmt := rfl
@[simp] theorem setQos_glb (f : Qos → Qos) (s : State) : (setQos f s).glb = s.glb := rfl
@[simp] theorem setQos_pool (f : Qos → Qos) (s : State) : (setQos f s).pool = s.pool := rfl
@[simp] theorem setQos_vrb (f : Qos → Qos) (s : State) : (setQos f s).vrb = s.vrb := rfl
@[simp] theorem setQos_bulk (f : Qos → Qos) (s : State) : (setQos f s).bulk = s.bulk := rfl
@[simp] theorem setQos_coh (f : Qos → Qos) (s : State) : (setQos f s).coh = s.coh := rfl
@[simp] theorem setQos_fe (f : Qos → Qos) (s : State) : (setQos f s).fe = s.fe := rfl
@[simp] theorem setQos_ws (f : Qos → Qos) (s : State) : (setQos f s).ws = s.ws := rfl
@[simp] theorem setQos_kv (f : Qos → Qos) (s : State) : (setQos f s).kv = s.kv := rfl
@[simp] theorem setQos_lnk (f : Qos → Qos) (s : State) : (setQos f s).lnk = s.lnk := rfl
@[simp] theorem setQos_rte (f : Qos → Qos) (s : State) : (setQos f s).rte = s.rte := rfl
@[simp] theorem setQos_e2e (f : Qos → Qos) (s : State) : (setQos f s).e2e = s.e2e := rfl
@[simp] theorem setQos_qos (f : Qos → Qos) (s : State) : (setQos f s).qos = f s.qos := rfl
@[simp] theorem setQos_ecc (f : Qos → Qos) (s : State) : (setQos f s).ecc = s.ecc := rfl
@[simp] theorem setQos_trv (f : Qos → Qos) (s : State) : (setQos f s).trv = s.trv := rfl
@[simp] theorem setQos_onx (f : Qos → Qos) (s : State) : (setQos f s).onx = s.onx := rfl
@[simp] theorem setQos_sec (f : Qos → Qos) (s : State) : (setQos f s).sec = s.sec := rfl
@[simp] theorem setQos_pending (f : Qos → Qos) (s : State) : (setQos f s).pending = s.pending := rfl
@[simp] theorem setQos_now (f : Qos → Qos) (s : State) : (setQos f s).now = s.now := rfl
@[simp] theorem setQos_busyAt (f : Qos → Qos) (s : State) : (setQos f s).busyAt = s.busyAt := rfl
@[simp] theorem setQos_svc (f : Qos → Qos) (s : State) : (setQos f s).svc = s.svc := rfl
@[simp] theorem setQos_free (f : Qos → Qos) (s : State) : (setQos f s).free = s.free := rfl
@[simp] theorem setQos_out (f : Qos → Qos) (s : State) : (setQos f s).out = s.out := rfl
@[simp] theorem setQos_sels (f : Qos → Qos) (s : State) : (setQos f s).sels = s.sels := rfl
@[simp] theorem setQos_mem (f : Qos → Qos) (s : State) : (setQos f s).mem = s.mem := rfl
@[simp] theorem setQos_stks (f : Qos → Qos) (s : State) : (setQos f s).stks = s.stks := rfl

/-! setEcc -/

@[simp] theorem setEcc_pwr (f : Ecc → Ecc) (s : State) : (setEcc f s).pwr = s.pwr := rfl
@[simp] theorem setEcc_fuse (f : Ecc → Ecc) (s : State) : (setEcc f s).fuse = s.fuse := rfl
@[simp] theorem setEcc_flash (f : Ecc → Ecc) (s : State) : (setEcc f s).flash = s.flash := rfl
@[simp] theorem setEcc_boot (f : Ecc → Ecc) (s : State) : (setEcc f s).boot = s.boot := rfl
@[simp] theorem setEcc_img (f : Ecc → Ecc) (s : State) : (setEcc f s).img = s.img := rfl
@[simp] theorem setEcc_isl (f : Ecc → Ecc) (s : State) : (setEcc f s).isl = s.isl := rfl
@[simp] theorem setEcc_crn (f : Ecc → Ecc) (s : State) : (setEcc f s).crn = s.crn := rfl
@[simp] theorem setEcc_cp (f : Ecc → Ecc) (s : State) : (setEcc f s).cp = s.cp := rfl
@[simp] theorem setEcc_bel (f : Ecc → Ecc) (s : State) : (setEcc f s).bel = s.bel := rfl
@[simp] theorem setEcc_mgmt (f : Ecc → Ecc) (s : State) : (setEcc f s).mgmt = s.mgmt := rfl
@[simp] theorem setEcc_glb (f : Ecc → Ecc) (s : State) : (setEcc f s).glb = s.glb := rfl
@[simp] theorem setEcc_pool (f : Ecc → Ecc) (s : State) : (setEcc f s).pool = s.pool := rfl
@[simp] theorem setEcc_vrb (f : Ecc → Ecc) (s : State) : (setEcc f s).vrb = s.vrb := rfl
@[simp] theorem setEcc_bulk (f : Ecc → Ecc) (s : State) : (setEcc f s).bulk = s.bulk := rfl
@[simp] theorem setEcc_coh (f : Ecc → Ecc) (s : State) : (setEcc f s).coh = s.coh := rfl
@[simp] theorem setEcc_fe (f : Ecc → Ecc) (s : State) : (setEcc f s).fe = s.fe := rfl
@[simp] theorem setEcc_ws (f : Ecc → Ecc) (s : State) : (setEcc f s).ws = s.ws := rfl
@[simp] theorem setEcc_kv (f : Ecc → Ecc) (s : State) : (setEcc f s).kv = s.kv := rfl
@[simp] theorem setEcc_lnk (f : Ecc → Ecc) (s : State) : (setEcc f s).lnk = s.lnk := rfl
@[simp] theorem setEcc_rte (f : Ecc → Ecc) (s : State) : (setEcc f s).rte = s.rte := rfl
@[simp] theorem setEcc_e2e (f : Ecc → Ecc) (s : State) : (setEcc f s).e2e = s.e2e := rfl
@[simp] theorem setEcc_qos (f : Ecc → Ecc) (s : State) : (setEcc f s).qos = s.qos := rfl
@[simp] theorem setEcc_ecc (f : Ecc → Ecc) (s : State) : (setEcc f s).ecc = f s.ecc := rfl
@[simp] theorem setEcc_trv (f : Ecc → Ecc) (s : State) : (setEcc f s).trv = s.trv := rfl
@[simp] theorem setEcc_onx (f : Ecc → Ecc) (s : State) : (setEcc f s).onx = s.onx := rfl
@[simp] theorem setEcc_sec (f : Ecc → Ecc) (s : State) : (setEcc f s).sec = s.sec := rfl
@[simp] theorem setEcc_pending (f : Ecc → Ecc) (s : State) : (setEcc f s).pending = s.pending := rfl
@[simp] theorem setEcc_now (f : Ecc → Ecc) (s : State) : (setEcc f s).now = s.now := rfl
@[simp] theorem setEcc_busyAt (f : Ecc → Ecc) (s : State) : (setEcc f s).busyAt = s.busyAt := rfl
@[simp] theorem setEcc_svc (f : Ecc → Ecc) (s : State) : (setEcc f s).svc = s.svc := rfl
@[simp] theorem setEcc_free (f : Ecc → Ecc) (s : State) : (setEcc f s).free = s.free := rfl
@[simp] theorem setEcc_out (f : Ecc → Ecc) (s : State) : (setEcc f s).out = s.out := rfl
@[simp] theorem setEcc_sels (f : Ecc → Ecc) (s : State) : (setEcc f s).sels = s.sels := rfl
@[simp] theorem setEcc_mem (f : Ecc → Ecc) (s : State) : (setEcc f s).mem = s.mem := rfl
@[simp] theorem setEcc_stks (f : Ecc → Ecc) (s : State) : (setEcc f s).stks = s.stks := rfl

/-! setTrv -/

@[simp] theorem setTrv_pwr (f : Trv → Trv) (s : State) : (setTrv f s).pwr = s.pwr := rfl
@[simp] theorem setTrv_fuse (f : Trv → Trv) (s : State) : (setTrv f s).fuse = s.fuse := rfl
@[simp] theorem setTrv_flash (f : Trv → Trv) (s : State) : (setTrv f s).flash = s.flash := rfl
@[simp] theorem setTrv_boot (f : Trv → Trv) (s : State) : (setTrv f s).boot = s.boot := rfl
@[simp] theorem setTrv_img (f : Trv → Trv) (s : State) : (setTrv f s).img = s.img := rfl
@[simp] theorem setTrv_isl (f : Trv → Trv) (s : State) : (setTrv f s).isl = s.isl := rfl
@[simp] theorem setTrv_crn (f : Trv → Trv) (s : State) : (setTrv f s).crn = s.crn := rfl
@[simp] theorem setTrv_cp (f : Trv → Trv) (s : State) : (setTrv f s).cp = s.cp := rfl
@[simp] theorem setTrv_bel (f : Trv → Trv) (s : State) : (setTrv f s).bel = s.bel := rfl
@[simp] theorem setTrv_mgmt (f : Trv → Trv) (s : State) : (setTrv f s).mgmt = s.mgmt := rfl
@[simp] theorem setTrv_glb (f : Trv → Trv) (s : State) : (setTrv f s).glb = s.glb := rfl
@[simp] theorem setTrv_pool (f : Trv → Trv) (s : State) : (setTrv f s).pool = s.pool := rfl
@[simp] theorem setTrv_vrb (f : Trv → Trv) (s : State) : (setTrv f s).vrb = s.vrb := rfl
@[simp] theorem setTrv_bulk (f : Trv → Trv) (s : State) : (setTrv f s).bulk = s.bulk := rfl
@[simp] theorem setTrv_coh (f : Trv → Trv) (s : State) : (setTrv f s).coh = s.coh := rfl
@[simp] theorem setTrv_fe (f : Trv → Trv) (s : State) : (setTrv f s).fe = s.fe := rfl
@[simp] theorem setTrv_ws (f : Trv → Trv) (s : State) : (setTrv f s).ws = s.ws := rfl
@[simp] theorem setTrv_kv (f : Trv → Trv) (s : State) : (setTrv f s).kv = s.kv := rfl
@[simp] theorem setTrv_lnk (f : Trv → Trv) (s : State) : (setTrv f s).lnk = s.lnk := rfl
@[simp] theorem setTrv_rte (f : Trv → Trv) (s : State) : (setTrv f s).rte = s.rte := rfl
@[simp] theorem setTrv_e2e (f : Trv → Trv) (s : State) : (setTrv f s).e2e = s.e2e := rfl
@[simp] theorem setTrv_qos (f : Trv → Trv) (s : State) : (setTrv f s).qos = s.qos := rfl
@[simp] theorem setTrv_ecc (f : Trv → Trv) (s : State) : (setTrv f s).ecc = s.ecc := rfl
@[simp] theorem setTrv_trv (f : Trv → Trv) (s : State) : (setTrv f s).trv = f s.trv := rfl
@[simp] theorem setTrv_onx (f : Trv → Trv) (s : State) : (setTrv f s).onx = s.onx := rfl
@[simp] theorem setTrv_sec (f : Trv → Trv) (s : State) : (setTrv f s).sec = s.sec := rfl
@[simp] theorem setTrv_pending (f : Trv → Trv) (s : State) : (setTrv f s).pending = s.pending := rfl
@[simp] theorem setTrv_now (f : Trv → Trv) (s : State) : (setTrv f s).now = s.now := rfl
@[simp] theorem setTrv_busyAt (f : Trv → Trv) (s : State) : (setTrv f s).busyAt = s.busyAt := rfl
@[simp] theorem setTrv_svc (f : Trv → Trv) (s : State) : (setTrv f s).svc = s.svc := rfl
@[simp] theorem setTrv_free (f : Trv → Trv) (s : State) : (setTrv f s).free = s.free := rfl
@[simp] theorem setTrv_out (f : Trv → Trv) (s : State) : (setTrv f s).out = s.out := rfl
@[simp] theorem setTrv_sels (f : Trv → Trv) (s : State) : (setTrv f s).sels = s.sels := rfl
@[simp] theorem setTrv_mem (f : Trv → Trv) (s : State) : (setTrv f s).mem = s.mem := rfl
@[simp] theorem setTrv_stks (f : Trv → Trv) (s : State) : (setTrv f s).stks = s.stks := rfl

/-! setOnx -/

@[simp] theorem setOnx_pwr (f : Onx → Onx) (s : State) : (setOnx f s).pwr = s.pwr := rfl
@[simp] theorem setOnx_fuse (f : Onx → Onx) (s : State) : (setOnx f s).fuse = s.fuse := rfl
@[simp] theorem setOnx_flash (f : Onx → Onx) (s : State) : (setOnx f s).flash = s.flash := rfl
@[simp] theorem setOnx_boot (f : Onx → Onx) (s : State) : (setOnx f s).boot = s.boot := rfl
@[simp] theorem setOnx_img (f : Onx → Onx) (s : State) : (setOnx f s).img = s.img := rfl
@[simp] theorem setOnx_isl (f : Onx → Onx) (s : State) : (setOnx f s).isl = s.isl := rfl
@[simp] theorem setOnx_crn (f : Onx → Onx) (s : State) : (setOnx f s).crn = s.crn := rfl
@[simp] theorem setOnx_cp (f : Onx → Onx) (s : State) : (setOnx f s).cp = s.cp := rfl
@[simp] theorem setOnx_bel (f : Onx → Onx) (s : State) : (setOnx f s).bel = s.bel := rfl
@[simp] theorem setOnx_mgmt (f : Onx → Onx) (s : State) : (setOnx f s).mgmt = s.mgmt := rfl
@[simp] theorem setOnx_glb (f : Onx → Onx) (s : State) : (setOnx f s).glb = s.glb := rfl
@[simp] theorem setOnx_pool (f : Onx → Onx) (s : State) : (setOnx f s).pool = s.pool := rfl
@[simp] theorem setOnx_vrb (f : Onx → Onx) (s : State) : (setOnx f s).vrb = s.vrb := rfl
@[simp] theorem setOnx_bulk (f : Onx → Onx) (s : State) : (setOnx f s).bulk = s.bulk := rfl
@[simp] theorem setOnx_coh (f : Onx → Onx) (s : State) : (setOnx f s).coh = s.coh := rfl
@[simp] theorem setOnx_fe (f : Onx → Onx) (s : State) : (setOnx f s).fe = s.fe := rfl
@[simp] theorem setOnx_ws (f : Onx → Onx) (s : State) : (setOnx f s).ws = s.ws := rfl
@[simp] theorem setOnx_kv (f : Onx → Onx) (s : State) : (setOnx f s).kv = s.kv := rfl
@[simp] theorem setOnx_lnk (f : Onx → Onx) (s : State) : (setOnx f s).lnk = s.lnk := rfl
@[simp] theorem setOnx_rte (f : Onx → Onx) (s : State) : (setOnx f s).rte = s.rte := rfl
@[simp] theorem setOnx_e2e (f : Onx → Onx) (s : State) : (setOnx f s).e2e = s.e2e := rfl
@[simp] theorem setOnx_qos (f : Onx → Onx) (s : State) : (setOnx f s).qos = s.qos := rfl
@[simp] theorem setOnx_ecc (f : Onx → Onx) (s : State) : (setOnx f s).ecc = s.ecc := rfl
@[simp] theorem setOnx_trv (f : Onx → Onx) (s : State) : (setOnx f s).trv = s.trv := rfl
@[simp] theorem setOnx_onx (f : Onx → Onx) (s : State) : (setOnx f s).onx = f s.onx := rfl
@[simp] theorem setOnx_sec (f : Onx → Onx) (s : State) : (setOnx f s).sec = s.sec := rfl
@[simp] theorem setOnx_pending (f : Onx → Onx) (s : State) : (setOnx f s).pending = s.pending := rfl
@[simp] theorem setOnx_now (f : Onx → Onx) (s : State) : (setOnx f s).now = s.now := rfl
@[simp] theorem setOnx_busyAt (f : Onx → Onx) (s : State) : (setOnx f s).busyAt = s.busyAt := rfl
@[simp] theorem setOnx_svc (f : Onx → Onx) (s : State) : (setOnx f s).svc = s.svc := rfl
@[simp] theorem setOnx_free (f : Onx → Onx) (s : State) : (setOnx f s).free = s.free := rfl
@[simp] theorem setOnx_out (f : Onx → Onx) (s : State) : (setOnx f s).out = s.out := rfl
@[simp] theorem setOnx_sels (f : Onx → Onx) (s : State) : (setOnx f s).sels = s.sels := rfl
@[simp] theorem setOnx_mem (f : Onx → Onx) (s : State) : (setOnx f s).mem = s.mem := rfl
@[simp] theorem setOnx_stks (f : Onx → Onx) (s : State) : (setOnx f s).stks = s.stks := rfl

/-! setSec -/

@[simp] theorem setSec_pwr (f : Sec → Sec) (s : State) : (setSec f s).pwr = s.pwr := rfl
@[simp] theorem setSec_fuse (f : Sec → Sec) (s : State) : (setSec f s).fuse = s.fuse := rfl
@[simp] theorem setSec_flash (f : Sec → Sec) (s : State) : (setSec f s).flash = s.flash := rfl
@[simp] theorem setSec_boot (f : Sec → Sec) (s : State) : (setSec f s).boot = s.boot := rfl
@[simp] theorem setSec_img (f : Sec → Sec) (s : State) : (setSec f s).img = s.img := rfl
@[simp] theorem setSec_isl (f : Sec → Sec) (s : State) : (setSec f s).isl = s.isl := rfl
@[simp] theorem setSec_crn (f : Sec → Sec) (s : State) : (setSec f s).crn = s.crn := rfl
@[simp] theorem setSec_cp (f : Sec → Sec) (s : State) : (setSec f s).cp = s.cp := rfl
@[simp] theorem setSec_bel (f : Sec → Sec) (s : State) : (setSec f s).bel = s.bel := rfl
@[simp] theorem setSec_mgmt (f : Sec → Sec) (s : State) : (setSec f s).mgmt = s.mgmt := rfl
@[simp] theorem setSec_glb (f : Sec → Sec) (s : State) : (setSec f s).glb = s.glb := rfl
@[simp] theorem setSec_pool (f : Sec → Sec) (s : State) : (setSec f s).pool = s.pool := rfl
@[simp] theorem setSec_vrb (f : Sec → Sec) (s : State) : (setSec f s).vrb = s.vrb := rfl
@[simp] theorem setSec_bulk (f : Sec → Sec) (s : State) : (setSec f s).bulk = s.bulk := rfl
@[simp] theorem setSec_coh (f : Sec → Sec) (s : State) : (setSec f s).coh = s.coh := rfl
@[simp] theorem setSec_fe (f : Sec → Sec) (s : State) : (setSec f s).fe = s.fe := rfl
@[simp] theorem setSec_ws (f : Sec → Sec) (s : State) : (setSec f s).ws = s.ws := rfl
@[simp] theorem setSec_kv (f : Sec → Sec) (s : State) : (setSec f s).kv = s.kv := rfl
@[simp] theorem setSec_lnk (f : Sec → Sec) (s : State) : (setSec f s).lnk = s.lnk := rfl
@[simp] theorem setSec_rte (f : Sec → Sec) (s : State) : (setSec f s).rte = s.rte := rfl
@[simp] theorem setSec_e2e (f : Sec → Sec) (s : State) : (setSec f s).e2e = s.e2e := rfl
@[simp] theorem setSec_qos (f : Sec → Sec) (s : State) : (setSec f s).qos = s.qos := rfl
@[simp] theorem setSec_ecc (f : Sec → Sec) (s : State) : (setSec f s).ecc = s.ecc := rfl
@[simp] theorem setSec_trv (f : Sec → Sec) (s : State) : (setSec f s).trv = s.trv := rfl
@[simp] theorem setSec_onx (f : Sec → Sec) (s : State) : (setSec f s).onx = s.onx := rfl
@[simp] theorem setSec_sec (f : Sec → Sec) (s : State) : (setSec f s).sec = f s.sec := rfl
@[simp] theorem setSec_pending (f : Sec → Sec) (s : State) : (setSec f s).pending = s.pending := rfl
@[simp] theorem setSec_now (f : Sec → Sec) (s : State) : (setSec f s).now = s.now := rfl
@[simp] theorem setSec_busyAt (f : Sec → Sec) (s : State) : (setSec f s).busyAt = s.busyAt := rfl
@[simp] theorem setSec_svc (f : Sec → Sec) (s : State) : (setSec f s).svc = s.svc := rfl
@[simp] theorem setSec_free (f : Sec → Sec) (s : State) : (setSec f s).free = s.free := rfl
@[simp] theorem setSec_out (f : Sec → Sec) (s : State) : (setSec f s).out = s.out := rfl
@[simp] theorem setSec_sels (f : Sec → Sec) (s : State) : (setSec f s).sels = s.sels := rfl
@[simp] theorem setSec_mem (f : Sec → Sec) (s : State) : (setSec f s).mem = s.mem := rfl
@[simp] theorem setSec_stks (f : Sec → Sec) (s : State) : (setSec f s).stks = s.stks := rfl

/-! setMem -/

@[simp] theorem setMem_pwr (f : List (Nat × BitVec 8) → List (Nat × BitVec 8)) (s : State) : (setMem f s).pwr = s.pwr := rfl
@[simp] theorem setMem_fuse (f : List (Nat × BitVec 8) → List (Nat × BitVec 8)) (s : State) : (setMem f s).fuse = s.fuse := rfl
@[simp] theorem setMem_flash (f : List (Nat × BitVec 8) → List (Nat × BitVec 8)) (s : State) : (setMem f s).flash = s.flash := rfl
@[simp] theorem setMem_boot (f : List (Nat × BitVec 8) → List (Nat × BitVec 8)) (s : State) : (setMem f s).boot = s.boot := rfl
@[simp] theorem setMem_img (f : List (Nat × BitVec 8) → List (Nat × BitVec 8)) (s : State) : (setMem f s).img = s.img := rfl
@[simp] theorem setMem_isl (f : List (Nat × BitVec 8) → List (Nat × BitVec 8)) (s : State) : (setMem f s).isl = s.isl := rfl
@[simp] theorem setMem_crn (f : List (Nat × BitVec 8) → List (Nat × BitVec 8)) (s : State) : (setMem f s).crn = s.crn := rfl
@[simp] theorem setMem_cp (f : List (Nat × BitVec 8) → List (Nat × BitVec 8)) (s : State) : (setMem f s).cp = s.cp := rfl
@[simp] theorem setMem_bel (f : List (Nat × BitVec 8) → List (Nat × BitVec 8)) (s : State) : (setMem f s).bel = s.bel := rfl
@[simp] theorem setMem_mgmt (f : List (Nat × BitVec 8) → List (Nat × BitVec 8)) (s : State) : (setMem f s).mgmt = s.mgmt := rfl
@[simp] theorem setMem_glb (f : List (Nat × BitVec 8) → List (Nat × BitVec 8)) (s : State) : (setMem f s).glb = s.glb := rfl
@[simp] theorem setMem_pool (f : List (Nat × BitVec 8) → List (Nat × BitVec 8)) (s : State) : (setMem f s).pool = s.pool := rfl
@[simp] theorem setMem_vrb (f : List (Nat × BitVec 8) → List (Nat × BitVec 8)) (s : State) : (setMem f s).vrb = s.vrb := rfl
@[simp] theorem setMem_bulk (f : List (Nat × BitVec 8) → List (Nat × BitVec 8)) (s : State) : (setMem f s).bulk = s.bulk := rfl
@[simp] theorem setMem_coh (f : List (Nat × BitVec 8) → List (Nat × BitVec 8)) (s : State) : (setMem f s).coh = s.coh := rfl
@[simp] theorem setMem_fe (f : List (Nat × BitVec 8) → List (Nat × BitVec 8)) (s : State) : (setMem f s).fe = s.fe := rfl
@[simp] theorem setMem_ws (f : List (Nat × BitVec 8) → List (Nat × BitVec 8)) (s : State) : (setMem f s).ws = s.ws := rfl
@[simp] theorem setMem_kv (f : List (Nat × BitVec 8) → List (Nat × BitVec 8)) (s : State) : (setMem f s).kv = s.kv := rfl
@[simp] theorem setMem_lnk (f : List (Nat × BitVec 8) → List (Nat × BitVec 8)) (s : State) : (setMem f s).lnk = s.lnk := rfl
@[simp] theorem setMem_rte (f : List (Nat × BitVec 8) → List (Nat × BitVec 8)) (s : State) : (setMem f s).rte = s.rte := rfl
@[simp] theorem setMem_e2e (f : List (Nat × BitVec 8) → List (Nat × BitVec 8)) (s : State) : (setMem f s).e2e = s.e2e := rfl
@[simp] theorem setMem_qos (f : List (Nat × BitVec 8) → List (Nat × BitVec 8)) (s : State) : (setMem f s).qos = s.qos := rfl
@[simp] theorem setMem_ecc (f : List (Nat × BitVec 8) → List (Nat × BitVec 8)) (s : State) : (setMem f s).ecc = s.ecc := rfl
@[simp] theorem setMem_trv (f : List (Nat × BitVec 8) → List (Nat × BitVec 8)) (s : State) : (setMem f s).trv = s.trv := rfl
@[simp] theorem setMem_onx (f : List (Nat × BitVec 8) → List (Nat × BitVec 8)) (s : State) : (setMem f s).onx = s.onx := rfl
@[simp] theorem setMem_sec (f : List (Nat × BitVec 8) → List (Nat × BitVec 8)) (s : State) : (setMem f s).sec = s.sec := rfl
@[simp] theorem setMem_pending (f : List (Nat × BitVec 8) → List (Nat × BitVec 8)) (s : State) : (setMem f s).pending = s.pending := rfl
@[simp] theorem setMem_now (f : List (Nat × BitVec 8) → List (Nat × BitVec 8)) (s : State) : (setMem f s).now = s.now := rfl
@[simp] theorem setMem_busyAt (f : List (Nat × BitVec 8) → List (Nat × BitVec 8)) (s : State) : (setMem f s).busyAt = s.busyAt := rfl
@[simp] theorem setMem_svc (f : List (Nat × BitVec 8) → List (Nat × BitVec 8)) (s : State) : (setMem f s).svc = s.svc := rfl
@[simp] theorem setMem_free (f : List (Nat × BitVec 8) → List (Nat × BitVec 8)) (s : State) : (setMem f s).free = s.free := rfl
@[simp] theorem setMem_out (f : List (Nat × BitVec 8) → List (Nat × BitVec 8)) (s : State) : (setMem f s).out = s.out := rfl
@[simp] theorem setMem_sels (f : List (Nat × BitVec 8) → List (Nat × BitVec 8)) (s : State) : (setMem f s).sels = s.sels := rfl
@[simp] theorem setMem_mem (f : List (Nat × BitVec 8) → List (Nat × BitVec 8)) (s : State) : (setMem f s).mem = f s.mem := rfl
@[simp] theorem setMem_stks (f : List (Nat × BitVec 8) → List (Nat × BitVec 8)) (s : State) : (setMem f s).stks = s.stks := rfl

/-! Time, free values, outputs and stacks -/

@[simp] theorem atTime_pwr (t : Nat) (s : State) : (atTime t s).pwr = s.pwr := rfl
@[simp] theorem atTime_fuse (t : Nat) (s : State) : (atTime t s).fuse = s.fuse := rfl
@[simp] theorem atTime_flash (t : Nat) (s : State) : (atTime t s).flash = s.flash := rfl
@[simp] theorem atTime_boot (t : Nat) (s : State) : (atTime t s).boot = s.boot := rfl
@[simp] theorem atTime_img (t : Nat) (s : State) : (atTime t s).img = s.img := rfl
@[simp] theorem atTime_isl (t : Nat) (s : State) : (atTime t s).isl = s.isl := rfl
@[simp] theorem atTime_crn (t : Nat) (s : State) : (atTime t s).crn = s.crn := rfl
@[simp] theorem atTime_cp (t : Nat) (s : State) : (atTime t s).cp = s.cp := rfl
@[simp] theorem atTime_bel (t : Nat) (s : State) : (atTime t s).bel = s.bel := rfl
@[simp] theorem atTime_mgmt (t : Nat) (s : State) : (atTime t s).mgmt = s.mgmt := rfl
@[simp] theorem atTime_glb (t : Nat) (s : State) : (atTime t s).glb = s.glb := rfl
@[simp] theorem atTime_pool (t : Nat) (s : State) : (atTime t s).pool = s.pool := rfl
@[simp] theorem atTime_vrb (t : Nat) (s : State) : (atTime t s).vrb = s.vrb := rfl
@[simp] theorem atTime_bulk (t : Nat) (s : State) : (atTime t s).bulk = s.bulk := rfl
@[simp] theorem atTime_coh (t : Nat) (s : State) : (atTime t s).coh = s.coh := rfl
@[simp] theorem atTime_fe (t : Nat) (s : State) : (atTime t s).fe = s.fe := rfl
@[simp] theorem atTime_ws (t : Nat) (s : State) : (atTime t s).ws = s.ws := rfl
@[simp] theorem atTime_kv (t : Nat) (s : State) : (atTime t s).kv = s.kv := rfl
@[simp] theorem atTime_lnk (t : Nat) (s : State) : (atTime t s).lnk = s.lnk := rfl
@[simp] theorem atTime_rte (t : Nat) (s : State) : (atTime t s).rte = s.rte := rfl
@[simp] theorem atTime_e2e (t : Nat) (s : State) : (atTime t s).e2e = s.e2e := rfl
@[simp] theorem atTime_qos (t : Nat) (s : State) : (atTime t s).qos = s.qos := rfl
@[simp] theorem atTime_ecc (t : Nat) (s : State) : (atTime t s).ecc = s.ecc := rfl
@[simp] theorem atTime_trv (t : Nat) (s : State) : (atTime t s).trv = s.trv := rfl
@[simp] theorem atTime_onx (t : Nat) (s : State) : (atTime t s).onx = s.onx := rfl
@[simp] theorem atTime_sec (t : Nat) (s : State) : (atTime t s).sec = s.sec := rfl
@[simp] theorem atTime_pending (t : Nat) (s : State) : (atTime t s).pending = s.pending := rfl
@[simp] theorem atTime_now (t : Nat) (s : State) : (atTime t s).now = max s.now t := rfl
@[simp] theorem atTime_busyAt (t : Nat) (s : State) : (atTime t s).busyAt = if bivReady s then s.busyAt else max s.now t := rfl
@[simp] theorem atTime_svc (t : Nat) (s : State) : (atTime t s).svc = 2 := rfl
@[simp] theorem atTime_free (t : Nat) (s : State) : (atTime t s).free = s.free := rfl
@[simp] theorem atTime_out (t : Nat) (s : State) : (atTime t s).out = s.out := rfl
@[simp] theorem atTime_sels (t : Nat) (s : State) : (atTime t s).sels = s.sels := rfl
@[simp] theorem atTime_mem (t : Nat) (s : State) : (atTime t s).mem = s.mem := rfl
@[simp] theorem atTime_stks (t : Nat) (s : State) : (atTime t s).stks = s.stks := rfl

@[simp] theorem setSvc_pwr (c : Nat) (s : State) : (setSvc c s).pwr = s.pwr := rfl
@[simp] theorem setSvc_fuse (c : Nat) (s : State) : (setSvc c s).fuse = s.fuse := rfl
@[simp] theorem setSvc_flash (c : Nat) (s : State) : (setSvc c s).flash = s.flash := rfl
@[simp] theorem setSvc_boot (c : Nat) (s : State) : (setSvc c s).boot = s.boot := rfl
@[simp] theorem setSvc_img (c : Nat) (s : State) : (setSvc c s).img = s.img := rfl
@[simp] theorem setSvc_isl (c : Nat) (s : State) : (setSvc c s).isl = s.isl := rfl
@[simp] theorem setSvc_crn (c : Nat) (s : State) : (setSvc c s).crn = s.crn := rfl
@[simp] theorem setSvc_cp (c : Nat) (s : State) : (setSvc c s).cp = s.cp := rfl
@[simp] theorem setSvc_bel (c : Nat) (s : State) : (setSvc c s).bel = s.bel := rfl
@[simp] theorem setSvc_mgmt (c : Nat) (s : State) : (setSvc c s).mgmt = s.mgmt := rfl
@[simp] theorem setSvc_glb (c : Nat) (s : State) : (setSvc c s).glb = s.glb := rfl
@[simp] theorem setSvc_pool (c : Nat) (s : State) : (setSvc c s).pool = s.pool := rfl
@[simp] theorem setSvc_vrb (c : Nat) (s : State) : (setSvc c s).vrb = s.vrb := rfl
@[simp] theorem setSvc_bulk (c : Nat) (s : State) : (setSvc c s).bulk = s.bulk := rfl
@[simp] theorem setSvc_coh (c : Nat) (s : State) : (setSvc c s).coh = s.coh := rfl
@[simp] theorem setSvc_fe (c : Nat) (s : State) : (setSvc c s).fe = s.fe := rfl
@[simp] theorem setSvc_ws (c : Nat) (s : State) : (setSvc c s).ws = s.ws := rfl
@[simp] theorem setSvc_kv (c : Nat) (s : State) : (setSvc c s).kv = s.kv := rfl
@[simp] theorem setSvc_lnk (c : Nat) (s : State) : (setSvc c s).lnk = s.lnk := rfl
@[simp] theorem setSvc_rte (c : Nat) (s : State) : (setSvc c s).rte = s.rte := rfl
@[simp] theorem setSvc_e2e (c : Nat) (s : State) : (setSvc c s).e2e = s.e2e := rfl
@[simp] theorem setSvc_qos (c : Nat) (s : State) : (setSvc c s).qos = s.qos := rfl
@[simp] theorem setSvc_ecc (c : Nat) (s : State) : (setSvc c s).ecc = s.ecc := rfl
@[simp] theorem setSvc_trv (c : Nat) (s : State) : (setSvc c s).trv = s.trv := rfl
@[simp] theorem setSvc_onx (c : Nat) (s : State) : (setSvc c s).onx = s.onx := rfl
@[simp] theorem setSvc_sec (c : Nat) (s : State) : (setSvc c s).sec = s.sec := rfl
@[simp] theorem setSvc_pending (c : Nat) (s : State) : (setSvc c s).pending = s.pending := rfl
@[simp] theorem setSvc_now (c : Nat) (s : State) : (setSvc c s).now = s.now := rfl
@[simp] theorem setSvc_busyAt (c : Nat) (s : State) : (setSvc c s).busyAt = s.busyAt := rfl
@[simp] theorem setSvc_svc (c : Nat) (s : State) : (setSvc c s).svc = c := rfl
@[simp] theorem setSvc_free (c : Nat) (s : State) : (setSvc c s).free = s.free := rfl
@[simp] theorem setSvc_out (c : Nat) (s : State) : (setSvc c s).out = s.out := rfl
@[simp] theorem setSvc_sels (c : Nat) (s : State) : (setSvc c s).sels = s.sels := rfl
@[simp] theorem setSvc_mem (c : Nat) (s : State) : (setSvc c s).mem = s.mem := rfl
@[simp] theorem setSvc_stks (c : Nat) (s : State) : (setSvc c s).stks = s.stks := rfl

@[simp] theorem emit_pwr (o : Out) (s : State) : (emit o s).pwr = s.pwr := rfl
@[simp] theorem emit_fuse (o : Out) (s : State) : (emit o s).fuse = s.fuse := rfl
@[simp] theorem emit_flash (o : Out) (s : State) : (emit o s).flash = s.flash := rfl
@[simp] theorem emit_boot (o : Out) (s : State) : (emit o s).boot = s.boot := rfl
@[simp] theorem emit_img (o : Out) (s : State) : (emit o s).img = s.img := rfl
@[simp] theorem emit_isl (o : Out) (s : State) : (emit o s).isl = s.isl := rfl
@[simp] theorem emit_crn (o : Out) (s : State) : (emit o s).crn = s.crn := rfl
@[simp] theorem emit_cp (o : Out) (s : State) : (emit o s).cp = s.cp := rfl
@[simp] theorem emit_bel (o : Out) (s : State) : (emit o s).bel = s.bel := rfl
@[simp] theorem emit_mgmt (o : Out) (s : State) : (emit o s).mgmt = s.mgmt := rfl
@[simp] theorem emit_glb (o : Out) (s : State) : (emit o s).glb = s.glb := rfl
@[simp] theorem emit_pool (o : Out) (s : State) : (emit o s).pool = s.pool := rfl
@[simp] theorem emit_vrb (o : Out) (s : State) : (emit o s).vrb = s.vrb := rfl
@[simp] theorem emit_bulk (o : Out) (s : State) : (emit o s).bulk = s.bulk := rfl
@[simp] theorem emit_coh (o : Out) (s : State) : (emit o s).coh = s.coh := rfl
@[simp] theorem emit_fe (o : Out) (s : State) : (emit o s).fe = s.fe := rfl
@[simp] theorem emit_ws (o : Out) (s : State) : (emit o s).ws = s.ws := rfl
@[simp] theorem emit_kv (o : Out) (s : State) : (emit o s).kv = s.kv := rfl
@[simp] theorem emit_lnk (o : Out) (s : State) : (emit o s).lnk = s.lnk := rfl
@[simp] theorem emit_rte (o : Out) (s : State) : (emit o s).rte = s.rte := rfl
@[simp] theorem emit_e2e (o : Out) (s : State) : (emit o s).e2e = s.e2e := rfl
@[simp] theorem emit_qos (o : Out) (s : State) : (emit o s).qos = s.qos := rfl
@[simp] theorem emit_ecc (o : Out) (s : State) : (emit o s).ecc = s.ecc := rfl
@[simp] theorem emit_trv (o : Out) (s : State) : (emit o s).trv = s.trv := rfl
@[simp] theorem emit_onx (o : Out) (s : State) : (emit o s).onx = s.onx := rfl
@[simp] theorem emit_sec (o : Out) (s : State) : (emit o s).sec = s.sec := rfl
@[simp] theorem emit_pending (o : Out) (s : State) : (emit o s).pending = s.pending := rfl
@[simp] theorem emit_now (o : Out) (s : State) : (emit o s).now = s.now := rfl
@[simp] theorem emit_busyAt (o : Out) (s : State) : (emit o s).busyAt = s.busyAt := rfl
@[simp] theorem emit_svc (o : Out) (s : State) : (emit o s).svc = s.svc := rfl
@[simp] theorem emit_free (o : Out) (s : State) : (emit o s).free = s.free := rfl
@[simp] theorem emit_out (o : Out) (s : State) : (emit o s).out = s.out ++ [o] := rfl
@[simp] theorem emit_sels (o : Out) (s : State) : (emit o s).sels = s.sels := rfl
@[simp] theorem emit_mem (o : Out) (s : State) : (emit o s).mem = s.mem := rfl
@[simp] theorem emit_stks (o : Out) (s : State) : (emit o s).stks = s.stks := rfl

@[simp] theorem takeFree_pwr (n : Nat) (s : State) : ((takeFree n s).1).pwr = s.pwr := rfl
@[simp] theorem takeFree_fuse (n : Nat) (s : State) : ((takeFree n s).1).fuse = s.fuse := rfl
@[simp] theorem takeFree_flash (n : Nat) (s : State) : ((takeFree n s).1).flash = s.flash := rfl
@[simp] theorem takeFree_boot (n : Nat) (s : State) : ((takeFree n s).1).boot = s.boot := rfl
@[simp] theorem takeFree_img (n : Nat) (s : State) : ((takeFree n s).1).img = s.img := rfl
@[simp] theorem takeFree_isl (n : Nat) (s : State) : ((takeFree n s).1).isl = s.isl := rfl
@[simp] theorem takeFree_crn (n : Nat) (s : State) : ((takeFree n s).1).crn = s.crn := rfl
@[simp] theorem takeFree_cp (n : Nat) (s : State) : ((takeFree n s).1).cp = s.cp := rfl
@[simp] theorem takeFree_bel (n : Nat) (s : State) : ((takeFree n s).1).bel = s.bel := rfl
@[simp] theorem takeFree_mgmt (n : Nat) (s : State) : ((takeFree n s).1).mgmt = s.mgmt := rfl
@[simp] theorem takeFree_glb (n : Nat) (s : State) : ((takeFree n s).1).glb = s.glb := rfl
@[simp] theorem takeFree_pool (n : Nat) (s : State) : ((takeFree n s).1).pool = s.pool := rfl
@[simp] theorem takeFree_vrb (n : Nat) (s : State) : ((takeFree n s).1).vrb = s.vrb := rfl
@[simp] theorem takeFree_bulk (n : Nat) (s : State) : ((takeFree n s).1).bulk = s.bulk := rfl
@[simp] theorem takeFree_coh (n : Nat) (s : State) : ((takeFree n s).1).coh = s.coh := rfl
@[simp] theorem takeFree_fe (n : Nat) (s : State) : ((takeFree n s).1).fe = s.fe := rfl
@[simp] theorem takeFree_ws (n : Nat) (s : State) : ((takeFree n s).1).ws = s.ws := rfl
@[simp] theorem takeFree_kv (n : Nat) (s : State) : ((takeFree n s).1).kv = s.kv := rfl
@[simp] theorem takeFree_lnk (n : Nat) (s : State) : ((takeFree n s).1).lnk = s.lnk := rfl
@[simp] theorem takeFree_rte (n : Nat) (s : State) : ((takeFree n s).1).rte = s.rte := rfl
@[simp] theorem takeFree_e2e (n : Nat) (s : State) : ((takeFree n s).1).e2e = s.e2e := rfl
@[simp] theorem takeFree_qos (n : Nat) (s : State) : ((takeFree n s).1).qos = s.qos := rfl
@[simp] theorem takeFree_ecc (n : Nat) (s : State) : ((takeFree n s).1).ecc = s.ecc := rfl
@[simp] theorem takeFree_trv (n : Nat) (s : State) : ((takeFree n s).1).trv = s.trv := rfl
@[simp] theorem takeFree_onx (n : Nat) (s : State) : ((takeFree n s).1).onx = s.onx := rfl
@[simp] theorem takeFree_sec (n : Nat) (s : State) : ((takeFree n s).1).sec = s.sec := rfl
@[simp] theorem takeFree_pending (n : Nat) (s : State) : ((takeFree n s).1).pending = s.pending := rfl
@[simp] theorem takeFree_now (n : Nat) (s : State) : ((takeFree n s).1).now = s.now := rfl
@[simp] theorem takeFree_busyAt (n : Nat) (s : State) : ((takeFree n s).1).busyAt = s.busyAt := rfl
@[simp] theorem takeFree_svc (n : Nat) (s : State) : ((takeFree n s).1).svc = s.svc := rfl
@[simp] theorem takeFree_free (n : Nat) (s : State) : ((takeFree n s).1).free = s.free + n := rfl
@[simp] theorem takeFree_out (n : Nat) (s : State) : ((takeFree n s).1).out = s.out := rfl
@[simp] theorem takeFree_sels (n : Nat) (s : State) : ((takeFree n s).1).sels = s.sels := rfl
@[simp] theorem takeFree_mem (n : Nat) (s : State) : ((takeFree n s).1).mem = s.mem := rfl
@[simp] theorem takeFree_stks (n : Nat) (s : State) : ((takeFree n s).1).stks = s.stks := rfl

@[simp] theorem takeFree_index (n : Nat) (s : State) : (takeFree n s).2 = s.free := rfl

@[simp] theorem modStack_pwr (k : Nat) (f : Stk → Stk) (s : State) : (modStack k f s).pwr = s.pwr := rfl
@[simp] theorem modStack_fuse (k : Nat) (f : Stk → Stk) (s : State) : (modStack k f s).fuse = s.fuse := rfl
@[simp] theorem modStack_flash (k : Nat) (f : Stk → Stk) (s : State) : (modStack k f s).flash = s.flash := rfl
@[simp] theorem modStack_boot (k : Nat) (f : Stk → Stk) (s : State) : (modStack k f s).boot = s.boot := rfl
@[simp] theorem modStack_img (k : Nat) (f : Stk → Stk) (s : State) : (modStack k f s).img = s.img := rfl
@[simp] theorem modStack_isl (k : Nat) (f : Stk → Stk) (s : State) : (modStack k f s).isl = s.isl := rfl
@[simp] theorem modStack_crn (k : Nat) (f : Stk → Stk) (s : State) : (modStack k f s).crn = s.crn := rfl
@[simp] theorem modStack_cp (k : Nat) (f : Stk → Stk) (s : State) : (modStack k f s).cp = s.cp := rfl
@[simp] theorem modStack_bel (k : Nat) (f : Stk → Stk) (s : State) : (modStack k f s).bel = s.bel := rfl
@[simp] theorem modStack_mgmt (k : Nat) (f : Stk → Stk) (s : State) : (modStack k f s).mgmt = s.mgmt := rfl
@[simp] theorem modStack_glb (k : Nat) (f : Stk → Stk) (s : State) : (modStack k f s).glb = s.glb := rfl
@[simp] theorem modStack_pool (k : Nat) (f : Stk → Stk) (s : State) : (modStack k f s).pool = s.pool := rfl
@[simp] theorem modStack_vrb (k : Nat) (f : Stk → Stk) (s : State) : (modStack k f s).vrb = s.vrb := rfl
@[simp] theorem modStack_bulk (k : Nat) (f : Stk → Stk) (s : State) : (modStack k f s).bulk = s.bulk := rfl
@[simp] theorem modStack_coh (k : Nat) (f : Stk → Stk) (s : State) : (modStack k f s).coh = s.coh := rfl
@[simp] theorem modStack_fe (k : Nat) (f : Stk → Stk) (s : State) : (modStack k f s).fe = s.fe := rfl
@[simp] theorem modStack_ws (k : Nat) (f : Stk → Stk) (s : State) : (modStack k f s).ws = s.ws := rfl
@[simp] theorem modStack_kv (k : Nat) (f : Stk → Stk) (s : State) : (modStack k f s).kv = s.kv := rfl
@[simp] theorem modStack_lnk (k : Nat) (f : Stk → Stk) (s : State) : (modStack k f s).lnk = s.lnk := rfl
@[simp] theorem modStack_rte (k : Nat) (f : Stk → Stk) (s : State) : (modStack k f s).rte = s.rte := rfl
@[simp] theorem modStack_e2e (k : Nat) (f : Stk → Stk) (s : State) : (modStack k f s).e2e = s.e2e := rfl
@[simp] theorem modStack_qos (k : Nat) (f : Stk → Stk) (s : State) : (modStack k f s).qos = s.qos := rfl
@[simp] theorem modStack_ecc (k : Nat) (f : Stk → Stk) (s : State) : (modStack k f s).ecc = s.ecc := rfl
@[simp] theorem modStack_trv (k : Nat) (f : Stk → Stk) (s : State) : (modStack k f s).trv = s.trv := rfl
@[simp] theorem modStack_onx (k : Nat) (f : Stk → Stk) (s : State) : (modStack k f s).onx = s.onx := rfl
@[simp] theorem modStack_sec (k : Nat) (f : Stk → Stk) (s : State) : (modStack k f s).sec = s.sec := rfl
@[simp] theorem modStack_pending (k : Nat) (f : Stk → Stk) (s : State) : (modStack k f s).pending = s.pending := rfl
@[simp] theorem modStack_now (k : Nat) (f : Stk → Stk) (s : State) : (modStack k f s).now = s.now := rfl
@[simp] theorem modStack_busyAt (k : Nat) (f : Stk → Stk) (s : State) : (modStack k f s).busyAt = s.busyAt := rfl
@[simp] theorem modStack_svc (k : Nat) (f : Stk → Stk) (s : State) : (modStack k f s).svc = s.svc := rfl
@[simp] theorem modStack_free (k : Nat) (f : Stk → Stk) (s : State) : (modStack k f s).free = s.free := rfl
@[simp] theorem modStack_out (k : Nat) (f : Stk → Stk) (s : State) : (modStack k f s).out = s.out := rfl
@[simp] theorem modStack_sels (k : Nat) (f : Stk → Stk) (s : State) : (modStack k f s).sels = s.sels := rfl
@[simp] theorem modStack_mem (k : Nat) (f : Stk → Stk) (s : State) : (modStack k f s).mem = s.mem := rfl
@[simp] theorem modStack_stks (k : Nat) (f : Stk → Stk) (s : State) : (modStack k f s).stks = modNth k f s.stks := rfl

@[simp] theorem idleTick_pwr (s : State) : (idleTick s).pwr = s.pwr := rfl
@[simp] theorem idleTick_fuse (s : State) : (idleTick s).fuse = s.fuse := rfl
@[simp] theorem idleTick_flash (s : State) : (idleTick s).flash = s.flash := rfl
@[simp] theorem idleTick_boot (s : State) : (idleTick s).boot = s.boot := rfl
@[simp] theorem idleTick_img (s : State) : (idleTick s).img = s.img := rfl
@[simp] theorem idleTick_isl (s : State) : (idleTick s).isl = s.isl := rfl
@[simp] theorem idleTick_crn (s : State) : (idleTick s).crn = s.crn := rfl
@[simp] theorem idleTick_cp (s : State) : (idleTick s).cp = s.cp := rfl
@[simp] theorem idleTick_bel (s : State) : (idleTick s).bel = s.bel := rfl
@[simp] theorem idleTick_mgmt (s : State) : (idleTick s).mgmt = s.mgmt := rfl
@[simp] theorem idleTick_glb (s : State) : (idleTick s).glb = s.glb := rfl
@[simp] theorem idleTick_pool (s : State) : (idleTick s).pool = s.pool := rfl
@[simp] theorem idleTick_vrb (s : State) : (idleTick s).vrb = s.vrb := rfl
@[simp] theorem idleTick_bulk (s : State) : (idleTick s).bulk = s.bulk := rfl
@[simp] theorem idleTick_coh (s : State) : (idleTick s).coh = s.coh := rfl
@[simp] theorem idleTick_fe (s : State) : (idleTick s).fe = s.fe := rfl
@[simp] theorem idleTick_ws (s : State) : (idleTick s).ws = s.ws := rfl
@[simp] theorem idleTick_kv (s : State) : (idleTick s).kv = s.kv := rfl
@[simp] theorem idleTick_lnk (s : State) : (idleTick s).lnk = s.lnk := rfl
@[simp] theorem idleTick_rte (s : State) : (idleTick s).rte = s.rte := rfl
@[simp] theorem idleTick_e2e (s : State) : (idleTick s).e2e = s.e2e := rfl
@[simp] theorem idleTick_qos (s : State) : (idleTick s).qos = s.qos := rfl
@[simp] theorem idleTick_ecc (s : State) : (idleTick s).ecc = s.ecc := rfl
@[simp] theorem idleTick_trv (s : State) : (idleTick s).trv = s.trv := rfl
@[simp] theorem idleTick_onx (s : State) : (idleTick s).onx = s.onx := rfl
@[simp] theorem idleTick_sec (s : State) : (idleTick s).sec = s.sec := rfl
@[simp] theorem idleTick_pending (s : State) : (idleTick s).pending = s.pending := rfl
@[simp] theorem idleTick_now (s : State) : (idleTick s).now = s.now + 1000 := rfl
@[simp] theorem idleTick_busyAt (s : State) : (idleTick s).busyAt = if bivReady s then s.busyAt else s.now + 1000 := rfl
@[simp] theorem idleTick_svc (s : State) : (idleTick s).svc = s.svc := rfl
@[simp] theorem idleTick_free (s : State) : (idleTick s).free = s.free := rfl
@[simp] theorem idleTick_out (s : State) : (idleTick s).out = s.out := rfl
@[simp] theorem idleTick_sels (s : State) : (idleTick s).sels = s.sels := rfl
@[simp] theorem idleTick_mem (s : State) : (idleTick s).mem = s.mem := rfl
@[simp] theorem idleTick_stks (s : State) : (idleTick s).stks = s.stks.map drained := rfl

end Sys2Proof.Machine
end

