-- ==== Sys2Proof/WellFormed.lean ====
section
/-! DEFINITION. The commands that the environment can send: requests with at most 32 payload slots, packets whose fields fit the
widths of 11_fabric_routing R444, registers at 8-byte addresses. The meanings are total; a command that is not well formed
is one that no environment sends. -/

namespace Sys2Proof

/-- A request has at most 32 payload slots of 64 B (06_pool_verbs R222; 11 R444). -/
def Req.wf (r : Req) : Bool := decide (r.payload.length ≤ 2048) && decide (r.tc ≤ 4) && decide (r.src < 2 ^ 20)

/-- A packet's fields fit the widths of 11 R444. -/
def Pkt.wf (p : Pkt) : Bool :=
  decide (p.tc ≤ 4) && decide (p.pslots ≤ 32) && decide (p.hops < 256) && decide (p.dst < 2 ^ 20)
    && decide (p.src < 2 ^ 20) && decide (p.srcInc < 65536) && decide (p.dstInc < 65536) && decide (p.seq < 65536)
    && decide (p.ack < 65536)

/-- An environment's part disturbs symbols that a line has (13_memory_integrity R517). -/
def Env.wf (e : Env) : Bool := e.upsets.all fun x => decide (x.2.1 < 144)

end Sys2Proof
end

