-- ==== Sys2Proof/Tests/Slice0.lean ====
section
/-! SUPPORT. Small checks of the model: what is not well formed is refused, one step of some commands against what the rules say,
and, for each statement of Certificates/Slice0/Obligations.lean that has hypotheses, a state and operands that meet them
(test_meets_ and the statement's name; one theorem for each clause or group of clauses). -/

namespace Sys2Proof.Tests

set_option Elab.async false

open Sys2Proof.Machine

/-! Helpers -/

/-- The outcome is a next state that satisfies a test. -/
def nextIs (o : Host.Outcome State Fault Refusal) (p : State → Bool) : Bool :=
  match o with
  | .next t => p t
  | _ => false

/-- A request is taken, with what it leads to satisfying a test. -/
def tk (q : Req) (s : State) (p : Waiting → State → Bool) : Bool :=
  match taken q {} s with
  | some (w, s0) => p w s0
  | none => false

/-- A request is taken whose register-page bit fits. -/
def tc (q : Req) (s : State) (p : Waiting → State → Bool) : Bool := tk q s fun w s0 => ctlFits w.req && p w s0

/-- Session 7 is served, may do everything but stage as the factory, and the state satisfies a test. -/
def sv (s : State) (p : State → Bool) : Bool :=
  match served 7 0 s with
  | some (x, s0) => mayRun x .operator && mayRun x .stage && mayRun x .read && p s0
  | none => false

/-- An optional value is there and satisfies a test. -/
def has {α : Type} (o : Option α) (p : α → Bool) : Bool := o.any p

/-- An access check answers a window, a region and an offset that satisfy a test. -/
def acc (a : Access) (p : Window → Region → Nat → Bool) : Bool :=
  match a with
  | .ok x g o => p x g o
  | .bad _ => false

/-- The access check of a memory verb's operand. -/
def accOf (w : Waiting) (s : State) (len rt : Nat) (p : Window → Region → Nat → Bool) : Bool :=
  acc (checkAccess s w.ord (reqWin w.req) (reqTid w.req) w.req.src (reqVa w.req) len rt) p

/-- A fetch answers its bytes. -/
def got (f : Fetched) (p : State → List Byte → Bool) : Bool :=
  match f with
  | .ok s d => p s d
  | _ => false

/-- An open module: tenant 1 with hosts 16 to 31, mirror peer 900, an operator's session 7, a PRIVATE region 1 and a COHERENT region
2 to which node 16 is attached, each with a window of the same number. -/
def base : State :=
  { State.reset with
    now := 5000000000
    pwr := { State.reset.pwr with
      standbyOk := true, en := true, mainOn := true, pgood := true, hold := .none, txDark := false, busMv := 380000 }
    isl := { State.reset.isl with belayOn := true }
    boot := { State.reset.boot with st := .poolOpen, step3Done := true, step4Done := true, slot := .slotA }
    img := { State.reset.img with
      tenants := [{ tid := 1, enabled := true, level := 1, maxMemGib := 64, maxWindows := 100, maxContexts := 1000,
                    maxKv := 10, maxWs := 10, maxCohGib := 64, maxAnchors := 10 }]
      hosts := [{ tid := 1, first := 16, nodes := 16 }], mirrorPeers := [900] }
    onx := { State.reset.onx with tkeys := [{ tid := 1, st := .active }] }
    sec := { State.reset.sec with peers := [{ node := 16, st := .active }, { node := 900, st := .active }] }
    mgmt := { State.reset.mgmt with sess := [{ id := 7, role := .operator }] }
    pool := { State.reset.pool with
      regions := [{ idx := 1, owner := 1, size := 4, exts := [{ base := 8, stack := 0, len := 4 }] },
        { idx := 2, owner := 1, size := 1, mode := .coherent, exts := [{ base := 16, stack := 1, len := 1 }]
          slots := [{ k := 3, node := 16, deadline := 6000000000, win := 2 }] }]
      windows := [{ idx := 1, owner := 1, region := 1, len := 4, grants := [some { tid := 1, first := 16, nodes := 16, rights := 7 }] },
        { idx := 2, owner := 1, region := 2, len := 1, grants := [some { tid := 1, first := 16, nodes := 16, rights := 7 }] }]
      tables := true } }

/-- A request of node 16 for tenant 1 on window 1. -/
def rq : Req := { src := 16, tid := 1, win := 1 }

/-- A request that waits for a start command. -/
def parked : Waiting := { op := 0x02, req := { rq with opcode := 0x02, tc := 2, payload := [1] }, why := .budget, ord := 0 }

/-- The module with one request waiting. -/
def busy : State := { base with vrb := { base.vrb with waiting := [parked], nextOrd := 1 } }

/-! What is not well formed is refused -/

theorem test_wf_req : Req.wf rq = true := by decide
theorem test_wf_refuses_long_payload : Req.wf { rq with payload := List.replicate 2049 0 } = false := by decide +kernel
theorem test_wf_refuses_traffic_class_5 : Req.wf { rq with tc := 5 } = false := by decide
theorem test_wf_refuses_node_of_21_bits : Req.wf { rq with src := 1048576 } = false := by decide
theorem test_wf_pkt : Pkt.wf {} = true := by decide
theorem test_wf_refuses_packet_fields :
    ([{ tc := 5 }, { pslots := 33 }, { hops := 256 }, { dst := 1048576 }, { src := 1048576 }, { srcInc := 65536 },
      { dstInc := 65536 }, { seq := 65536 }, { ack := 65536 }] : List Pkt).all (fun p => Pkt.wf p = false) = true := by decide
theorem test_wf_refuses_symbol_144 : Env.wf { upsets := [(0, 144, 1)] } = false := by decide
theorem test_wf_env : Env.wf { upsets := [(0, 143, 1)] } = true := by decide

/-! The machine as a whole -/

theorem test_meets_StepRunsTheFrontCommand : State.reset.pending = [] := rfl

theorem test_meets_StepsKeepTheInvariant :
    Inv State.reset ∧ nextIs (step { State.reset with pending := [.powerOn {}] }) (fun t => t.pwr.standbyOk) = true :=
  ⟨⟨by decide, by decide, by decide, by decide⟩, by decide +kernel⟩

theorem test_meets_StepsGoOnward : nextIs (step { base with pending := [.load { rq with opcode := 1, len := 64 } {}] })
    (fun t => t.pending = []) = true := by decide +kernel

theorem test_meets_CommandsStayInTheirFootprint :
    nextIs (exec (.store { rq with opcode := 2, tc := 2, len := 1, payload := [9] } {}) base) (fun t => t.pool = base.pool) = true := by
  decide +kernel

/-! Power, start, restarts, Bivouac -/

/-- The module with EN low. -/
def enLow : State := { base with pwr := { base.pwr with en := false, mainOn := false, pgood := false, hold := .enLow, busMv := 410000 } }

/-- The module held in reset with its rails up. -/
def held : State := { base with boot := { base.boot with st := .held, step3Done := false, step4Done := false } }

theorem test_meets_PinsAndPowerComplete_power_on : State.reset.pwr.standbyOk = false ∧ 260000 ≤ ({ mv := 260000 } : BusIn).mv ∧
    ({ mv := 260000 } : BusIn).mv ≤ 410000 := by decide
theorem test_meets_PinsAndPowerComplete_en_rise : enLow.pwr.standbyOk = true ∧ enLow.isl.belayOn = true ∧ enLow.pwr.en = false ∧ enLow.pwr.hold = .enLow ∧
    enLow.pwr.mainOn = false ∧ 260000 ≤ enLow.pwr.busMv ∧ enLow.pwr.busMv ≤ 410000 := by decide
theorem test_meets_PinsAndPowerComplete_en_fall_open : busy.pwr.standbyOk = true ∧ busy.isl.belayOn = true ∧ busy.pwr.en = true ∧
    busy.pwr.hold = .none ∧ busy.boot.st = .poolOpen ∧ 0 < ctxAll busy := by decide
theorem test_meets_PinsAndPowerComplete_en_fall_held : held.pwr.standbyOk = true ∧ held.isl.belayOn = true ∧ held.pwr.en = true ∧
    held.boot.st = .held ∧ held.pwr.hold ≠ .restartLimit ∧ held.boot.cause ≠ 7 ∧ held.pwr.mainOn = true := by decide

/-- The module more than 10 ms after a loss of Belay's heartbeats, with EN low. -/
def stopped : State := { enLow with
  pwr := { enLow.pwr with hold := .module, heldAt := 4989999999 }
  boot := { held.boot with cause := 7 } }

theorem test_meets_PinsAndPowerComplete_reset : 1000 ≤ 1000 ∧ base.pwr.standbyOk = true ∧ base.isl.belayOn = true ∧ base.boot.cause ≠ 7 := by
  decide
theorem test_meets_PinsAndPowerComplete_stopped : stopped.pwr.hold = .module ∧ stopped.boot.cause = 7 ∧
    stopped.pwr.heldAt + 10000000 < max stopped.now 0 ∧ stopped.pwr.standbyOk = true ∧ stopped.pwr.en = false := by decide
theorem test_stopped_module_stays_held : nextIs (exec (.resetNAssert 1000 0) stopped)
    (fun t => t.boot.cause = 7 && t.pwr.hold = .module) = true := by decide +kernel
theorem test_reset_pin_of_1_us : nextIs (exec (.resetNAssert 1000 0) base)
    (fun t => t.boot.cause = 1 && t.pwr.txDark && t.pool.regions.isEmpty) = true := by decide +kernel
theorem test_reset_pin_below_1_us : nextIs (exec (.resetNAssert 999 0) base) (fun t => t.boot.st = .poolOpen) = true := by decide +kernel
theorem test_overvoltage : nextIs (exec (.inputOvervoltage 420001 0) base)
    (fun t => t.boot.cause = 4 && t.pwr.hold = .emergency) = true := by decide +kernel
theorem test_dropout_of_200_us : nextIs (exec (.inputDropout 200 0) base) (fun t => !t.pwr.standbyOk) = true := by decide +kernel
theorem test_dropout_below_200_us : nextIs (exec (.inputDropout 199 0) base) (fun t => t.boot.st = .poolOpen) = true := by decide +kernel
theorem test_main_rail_loss : nextIs (exec (.mainRailLoss 0) base) (fun t => t.pwr.txDark && t.boot.st = .held) = true := by
  decide +kernel
theorem test_meets_PinsAndPowerComplete_rails : base.pwr.mainOn = true ∧ base.pwr.hold = .none ∧
    420000 < ({ State.reset with pwr := { State.reset.pwr with hold := .enLow, mainOn := true } } : State).pwr.busMv + 420001 ∧
    ({ base with pwr := { base.pwr with hold := .module } } : State).pwr.hold ≠ .none := by decide

/-- The module held in reset with channel 45, a rail, at a filtered value. -/
def railAt (v : Int) : State := { held with bel := { held.bel with chans := (List.range 96).map fun k => if k = 45 then { filt := v, n := 9 } else {} } }

theorem test_meets_StartAndOpenComplete_rails : railsOk (romThresholds held) = true ∧
    (railsOk (romThresholds (railAt 1000000)) && railsOk (romThresholds (railAt (-1)))) = false := by decide +kernel
theorem test_meets_StartAndOpenComplete_no_image : held.boot.st = .held ∧ held.pwr.standbyOk = true ∧ held.pwr.en = true ∧
    held.pwr.mainOn = true ∧ held.pwr.hold = .none ∧ (startTo2 {} held).boot.slot = .noSlot := by decide +kernel

/-- The module in its backoff. -/
def inBackoff : State := { base with boot := { base.boot with st := .backoff, step3End := 3000000000, backoffMs := 2000 } }

theorem test_meets_StartAndOpenComplete_open : mayOpen (noteStep4 (atTime 0 inBackoff)) = true := by decide +kernel
theorem test_meets_StartAndOpenComplete_backoff : inBackoff.boot.st = .backoff ∧
    inBackoff.boot.step3End + inBackoff.boot.backoffMs * 1000000 ≤ max inBackoff.now 0 := by decide

/-- The module after a reset of a cause, with restarts behind it. -/
def afterReset (rs : List Nat) : State :=
  { held with
    pwr := { held.pwr with hold := .module }
    boot := { held.boot with cause := 5, restarts := rs } }

theorem test_meets_RestartsAndLocksComplete_auto_restart : (afterReset []).boot.st = .held ∧ (afterReset []).pwr.hold = .module ∧
    (afterReset []).isl.belayOn = true ∧ 5 ≤ (afterReset []).boot.cause ∧ (afterReset []).boot.cause ≤ 7 ∧
    (afterReset []).boot.cause ≠ 7 ∧ (recentRestarts (atTime 0 (afterReset [1, 2]))).length < 3 ∧
    3 ≤ (recentRestarts (atTime 0 (afterReset [1, 2, 3]))).length := by decide +kernel
theorem test_meets_RestartsAndLocksComplete_belay_heartbeat : running busy = true ∧ 0 < ctxAll busy ∧
    coreOn { held with boot := { held.boot with st := .noImage } } = true := by decide
theorem test_meets_RestartsAndLocksComplete_module_reset : sv busy (fun s => running s && decide (0 < ctxAll s)) = true := by
  decide +kernel

/-- A leave of 1 ms. -/
def leaving : State :=
  { busy with boot := { busy.boot with
    st := .leaving, leave := some { since := 4999000000, what := .thenReset, cause := 2 } } }

theorem test_meets_RestartsAndLocksComplete_leave : leaving.boot.st = .leaving ∧
    leaving.boot.leave = some { since := 4999000000, what := .thenReset, cause := 2 } ∧ 4999000000 + 1000000 ≤ max leaving.now 0 := by
  decide
theorem test_meets_RestartsAndLocksComplete_locks :
    islandLock { base with isl := { base.isl with miscLock := 1 } } .core = true ∧
    islandLock { base with isl := { base.isl with portLock := 1 } } (.port 0) = true ∧
    base.boot.step3Done = true ∧ base.isl.portLock.getLsbD 63 = false := by decide

/-- Ready for Bivouac. -/
def idleLong : State :=
  { base with boot := { base.boot with bivAuto := true, bivIdleMs := 1 } }

theorem test_meets_BivouacComplete_enter : sv idleLong (fun s => s.boot.st = .poolOpen && bivReady s && bivIdle s) = true ∧
    sv busy (fun s => !(bivReady s && bivIdle s)) = true := by decide +kernel
theorem test_meets_BivouacComplete_auto : idleLong.boot.st = .poolOpen ∧ idleLong.boot.bivAuto = true ∧
    bivReady (atTime 0 idleLong) = true ∧ bivIdle (atTime 0 idleLong) = true ∧
    (atTime 0 idleLong).busyAt + idleLong.boot.bivIdleMs * 1000000 ≤ max idleLong.now 0 := by decide +kernel
theorem test_meets_BivouacComplete_management : (noteStep4 (atTime 0 { base with boot := { base.boot with st := .bivouac } })).boot.st = .bivouac ∧
    sessAt (noteStep4 (atTime 0 { base with boot := { base.boot with st := .bivouac } })) 8 = none := by decide +kernel
theorem test_meets_BivouacComplete_wake : nextIs (exec (.bivouacWake { chkOk := false })
      { base with boot := { base.boot with st := .bivouac } }) (fun t => t.boot.cause = 6) = true ∧
    nextIs (exec (.bivouacWake {}) { base with boot := { base.boot with st := .bivouac } }) (fun t => t.boot.st = .poolOpen) = true := by
  decide +kernel
/-! Registers, staging, sessions -/

theorem test_meets_LolEventReadClears : sv base (fun _ => true) = true := by decide +kernel
theorem test_lol_event_read_keeps_last : nextIs (exec (.glbIslLolEvtRead 7 0)
    { base with isl := { base.isl with lolCount := 3, lolLast := 9 } })
    (fun t => t.isl.lolCount = 0 && t.isl.lolLast = 9 && t.out = [.mgmt 7 .ok [0x090003]]) = true := by decide +kernel
theorem test_meets_EventReadsClear : sv base (fun s => hasAnchors s && hasEngines s
    && stackServes s ((selsOf s (.mgmt 7)).drcStk % 32) && decide (s.stks.length = 32)) = true := by decide +kernel
theorem test_ecc_sram_read_clears : nextIs (exec (.eccSramRead 7 0)
    { base with ecc := { base.ecc with sramCe := 5, sramUe := 2, sramLast := 1 } })
    (fun t => t.ecc.sramCe = 0 && t.ecc.sramUe = 0 && t.out = [.mgmt 7 .ok [0x0001000200000005]]) = true := by decide +kernel

theorem test_meets_RegisterAccessCompletes_management : sv base (fun _ => inWindow 0x30 (clampTo 1 64 1) && inWindow 0x30 1
    && !inWindow 0x3FFFFF8 (clampTo 1 64 2)) = true := by decide +kernel
theorem test_scratch_set : nextIs (exec (.regWrite 7 0x30 0xF0 {}) { base with glb := { base.glb with scratch := 0x0F } })
    (fun t => t.glb.scratch = 0xFF) = true := by decide +kernel
theorem test_meets_RegisterAccessCompletes_page_read : tk (withCtl { rq with opcode := 1, va := 4088, len := 8 }) base
    (fun w _ => decide (reqVa w.req < 4096) && decide (reqVa w.req % 8 = 0) && decide (reqLen w.req = 8) && !reqCached w.req) = true := by
  decide +kernel
theorem test_meets_RegisterAccessCompletes_page_write :
    tk (withCtl { rq with opcode := 2, va := 0, len := 8, payload := List.replicate 64 0, tc := 2 }) base
      (fun w _ => decide (reqLen w.req = 8) && !reqCached w.req && decide (0 < reqSlots w.req)) = true := by decide +kernel
theorem test_meets_RegisterAccessCompletes_page_denied : tk (withCtl { rq with opcode := 1, va := 4096, len := 8 }) base
    (fun w _ => decide (4096 ≤ reqVa w.req)) = true := by decide +kernel

/-- Session 7 stages. -/
def staged (st : StageState) (who : Option Nat) : State :=
  { base with boot := { base.boot with stage := st, stageTarget := .slotB, stageSess := who, stageEnd := 64 } }

theorem test_meets_StagingAndSessionsComplete_begin : sv base (fun s => !otherStages 7 s && decide (s.boot.st ≠ .leaving)) = true := by
  decide +kernel
theorem test_meets_StagingAndSessionsComplete_write : sv (staged .writing (some 7)) (fun s => !otherStages 7 s
    && decide (s.boot.stage = .writing) && decide (0x3FFFFF + [0#8].length ≤ 0x400000) && decide (s.boot.stageEnd ≤ 0x3FFFFF)) = true := by
  decide +kernel
theorem test_meets_StagingAndSessionsComplete_verify_failed : sv (staged .writing (some 7)) (fun s => !otherStages 7 s
    && decide (s.boot.stage ≠ .idle) && decide (stageReasonOf s (slotDev s (idleSlot s)) ≠ 0)) = true := by decide +kernel
theorem test_meets_StagingAndSessionsComplete_commit : sv (staged .verified (some 7)) (fun s => !otherStages 7 s
    && decide (s.boot.stage = .verified)) = true := by decide +kernel
theorem test_meets_StagingAndSessionsComplete_other : sv { staged .writing (some 8) with
    mgmt := { base.mgmt with sess := [{ id := 7, role := .operator }, { id := 8, role := .operator }] } }
    (fun s => otherStages 7 s) = true := by decide +kernel
theorem test_meets_StagingAndSessionsComplete_close : sv (staged .writing (some 7)) (fun s => decide (s.boot.stageSess = some 7)
    && decide (s.boot.stage ≠ .committed)) = true := by decide +kernel

/-- The module trusts one certificate. -/
def trusting : State := { base with img := { base.img with trust := [{ role := .operator, cert := [1] }] } }

/-- Four sessions on a port. -/
def crowded : State := { trusting with mgmt := { base.mgmt with sess := (List.range 4).map fun i => { id := i, port := 0 } } }

theorem test_meets_StagingAndSessionsComplete_handshake : coreOn trusting = true ∧ trusting.boot.st ≠ .bivouac ∧
    sessAt trusting 9 = none ∧ (recentHs (atTime 0 trusting) 0).length < 10 ∧
    countIf (fun x => x.port = 0) trusting.mgmt.sess < 4 ∧ roleOf { sess := 9, anchor := [1] } trusting = some (.operator, false) := by
  decide +kernel
theorem test_meets_StagingAndSessionsComplete_full : coreOn crowded = true ∧ crowded.boot.st ≠ .bivouac ∧ sessAt crowded 9 = none ∧
    4 ≤ countIf (fun x => x.port = 0) crowded.mgmt.sess := by decide +kernel
theorem test_meets_StagingAndSessionsComplete_idle : sessAt base 7 = some { id := 7, role := .operator } ∧
    base.boot.st ≠ .bivouac ∧ 0 + 300000000000 ≤ max base.now 300000000000 := by decide +kernel

/-! Regions, windows, revocation, anchors -/

/-- REGION_CREATE of one unit: PRIVATE with PACK, or MIRRORED with peer 0. -/
def regionReq (subop : Byte) : Req := { rq with opcode := 0x18, subop := subop, op0 := 1 }

theorem test_meets_RegionCommandsComplete_create : tc (regionReq 0x08) base (fun w s => decide ((regParams s w.req).place ≠ 2)
    && decide ((regParams s w.req).mode ≠ .mirrored) && (newRegion (reqTid w.req) 0 (regParams s w.req) s).2.isSome) = true := by
  decide +kernel

/-- The tenant's limit of regions is reached. -/
def fullTenant : State := { base with img := { base.img with tenants := base.img.tenants.map fun t => { t with maxWindows := 2 } } }

theorem test_meets_RegionCommandsComplete_refused : tc (regionReq 0x08) fullTenant (fun w s => decide ((regParams s w.req).place ≠ 2)
    && decide ((regParams s w.req).mode ≠ .mirrored) && (newRegion (reqTid w.req) 0 (regParams s w.req) s).2.isNone) = true := by
  decide +kernel
theorem test_meets_RegionCommandsComplete_mirrored : tc (regionReq 0x0B) base (fun w s => decide ((regParams s w.req).place ≠ 2)
    && decide ((regParams s w.req).mode = .mirrored) && decide (s.img.mirrorPeers[(regParams s w.req).peer]? = some 900)
    && (newRegion (reqTid w.req) 0 (regParams s w.req) s).2.isSome) = true := by decide +kernel

/-- Change region 1 of the open module. -/
def with1 (f : Region → Region) : State := modRegion 1 f base

theorem test_meets_RegionCommandsComplete_repair : tc { rq with opcode := 0x19, op0 := 1 }
    (with1 fun g => { g with exts := [{ base := 8, stack := 0, len := 4, lost := true }] })
    (fun w s => has (ownRegion s (reqTid w.req) (op0 w.req % 65536)) fun g => decide (g.st ≠ .revoking)
      && (repairN g.idx (g.mode = .coherent) (lostExts g) s).isSome) = true := by decide +kernel
theorem test_meets_RegionCommandsComplete_degrade : tc { rq with opcode := 0x1A, op0 := 1 } (with1 fun g => { g with st := .fenced })
    (fun w s => has (tenantRegion s (reqTid w.req) (op0 w.req % 65536)) fun g => g.st = .fenced) = true := by decide +kernel

theorem test_meets_RegionCommandsComplete_window :
    tc { rq with opcode := 0x1B, op0 := 1, op1 := 0x400000000, va := 0x1000000000 } base
      (fun w s => has (ownRegion s (reqTid w.req) (op0 w.req % 65536)) fun g => decide (g.st ≠ .revoking) && !mirrorLive g
        && decide ((newWindow (reqTid w.req) 5 (reqVa w.req) (bits (op1 w.req) 19 0) (bits (op1 w.req) 51 32) g s).2.1 = .ok)) = true := by
  decide +kernel
theorem test_meets_WindowsAndRevocationsComplete_grant : tc { rq with opcode := 0x1C, win := 2, op0 := 0x10000FFFFF, op1 := 1 } base
    (fun w s => has (windowOf s (reqWin w.req)) fun x => has (ownRegion s (reqTid w.req) x.region) fun g =>
      let y : Grant := { tid := bits (op1 w.req) 11 0, first := bits (op0 w.req) 19 0, nodes := clampTo 1 1048576 (bits (op0 w.req) 52 32),
                         rights := BitVec.ofNat 3 (bits (op1 w.req) 18 16) }
      decide (x.owner = reqTid w.req) && !x.revoking && decide (g.st ≠ .revoking) && !mirrorLive g
        && decide ((List.range 8).find? (fun i => (x.grants.getD i none).isNone) = some 1)
        && !secondNode s g y && decide (y.first < 1048576)) = true := by decide +kernel
theorem test_meets_WindowsAndRevocationsComplete_grant_end : tc { rq with opcode := 0x1C, win := 2, op0 := 0x1000FFFFF, op1 := 1 } base
    (fun w _ => decide (bits (op0 w.req) 19 0 + clampTo 1 1048576 (bits (op0 w.req) 52 32) ≤ 1048576)) = true := by decide +kernel
theorem test_meets_WindowsAndRevocationsComplete_revoke_grant : tc { rq with opcode := 0x1D, subop := grantSubop 0 } base
    (fun w s => has (windowOf s (reqWin w.req)) fun x => (ownRegion s (reqTid w.req) x.region).isSome
      && decide (x.owner = reqTid w.req) && (x.grants.getD (bits (op0 w.req) 2 0) none).isSome) = true := by decide +kernel
theorem test_meets_WindowsAndRevocationsComplete_revoke_window : tc { rq with opcode := 0x1D, subop := 1 } base
    (fun w s => has (windowOf s (reqWin w.req)) fun x => has (ownRegion s (reqTid w.req) x.region) fun g =>
      decide (x.owner = reqTid w.req) && !x.revoking && decide (g.st ≠ .revoking)) = true := by decide +kernel
theorem test_meets_WindowsAndRevocationsComplete_revoke_region : tc { rq with opcode := 0x1D, subop := 2, op0 := 1 } base
    (fun w s => has (ownRegion s (reqTid w.req) (op0 w.req % 65536)) fun g => decide (g.st ≠ .revoking)
      && !sealedRegion s g.idx && !loadsOn s g.idx) = true := by decide +kernel
theorem test_meets_WindowsAndRevocationsComplete_revoke_tenant : sv base (fun s => !hasRev s 3 (4097 % 4096)) = true := by decide +kernel

/-- A revocation of window 1 in a phase. -/
def revoking (p : RevPhase) : State :=
  { base with pool := { base.pool with revs := [{ kind := 1, id := 1, since := 4999000000, phase := p }] } }

theorem test_meets_WindowsAndRevocationsComplete_phases : (revoking .drain).pool.revs[0]?.isSome = true ∧
    (∃ v, (revoking .pins).pool.revs[0]? = some v ∧ v.phase = .pins ∧ v.since + 1000000 ≤ (applyEnv {} (revoking .pins)).now) ∧
    (∃ v, (revoking .overwrite).pool.revs[0]? = some v ∧ v.phase = .overwrite ∧ v.kind ≠ 3) :=
  ⟨by decide, ⟨_, rfl, by decide⟩, ⟨_, rfl, by decide⟩⟩

theorem test_meets_AnchorsAndHintsComplete_lend : tc { rq with opcode := 0x20, op0 := 0x100000001 } base
    (fun w s => decide (anchorCount s (reqTid w.req) < limitOf s (reqTid w.req) TenantCfg.maxAnchors)
      && (findFree (fun i => (anchorAt s i).isNone) 16384 16383).isSome) = true := by decide +kernel

/-- Node 16 lends anchor 3. -/
def lent : State := { base with pool := { base.pool with anchors := [{ idx := 3, tid := 1, lender := 16, len := 1 }] } }

theorem test_meets_AnchorsAndHintsComplete_reclaim : tc { rq with opcode := 0x21, op0 := 3 } lent
    (fun w s => has (anchorAt s (bits (op0 w.req) 13 0)) fun a => decide (a.lender = w.req.src) && decide (a.tid = reqTid w.req)
      && !anchorGone s a && decide (a.st ≠ .revoking)) = true := by decide +kernel

/-- The range of a hint is accessible, sound, and touches no unit of an anchor without a shadow. -/
def hintOk (w : Waiting) (s : State) (p : Region → Bool) : Bool :=
  accOf w s (hintLen w.req) rightR fun _ g o => p g && decide (partsStatus s w.ord g.owner (partsOf g o (hintLen w.req)) = .ok)
    && ((anchorUnits (partsOf g o (hintLen w.req))).filter (fun u => (shadowOf s u.1 (u.2 * unit2M)).isNone)).isEmpty

theorem test_meets_AnchorsAndHintsComplete_hints :
    tc { rq with opcode := 8, op0 := 64 } base (fun w s => hintOk w s fun _ => true) = true ∧
    tc { rq with opcode := 9, subop := grantSubop 0, op0 := 64 } base (fun w s => hintOk w s fun _ => true) = true ∧
    tc { rq with opcode := 9, subop := 1, op0 := 64 } base (fun w s => hintOk w s fun _ => true) = true ∧
    tc { rq with opcode := 9, subop := 2, op0 := 64, win := 2 } base (fun w s => hintOk w s fun g => g.mode = .coherent) = true ∧
    tc { rq with opcode := 9, subop := 3, op0 := 64 } base (fun w s => hintOk w s fun _ => true) = true := by decide +kernel

/-- Tenant 1 holds the lent anchors 3 and 5. -/
def lentTwo : State := { base with pool := { base.pool with
  anchors := [{ idx := 3, tid := 1, lender := 16, len := 1 }, { idx := 5, tid := 1, lender := 17, len := 2 }] } }

theorem test_meets_RegionCommandsComplete_anchors :
    tc { rq with opcode := 0x18, subop := 0x10, tc := 2, payload := [5, 0, 3, 0] ++ List.replicate 60 0, op0 := 0x20000000000 } lentTwo (fun w s =>
      let p := regParams s w.req
      let ids := (List.range p.anchors).map (fun i => field w.req.payload (2 * i) 2 % 2 ^ 14)
      let as := ids.filterMap (anchorAt s)
      decide (p.place = 2) && decide (p.mode = .priv) && decide (ids = [5, 3]) && decide (2 * p.anchors ≤ 64 * reqSlots w.req)
        && decide (as.length = ids.length) && decide (ids.eraseDups.length = ids.length)
        && as.all (fun a => decide (a.tid = reqTid w.req ∧ a.st = .lent)) && decide (sumBy Anchor.len as ≤ maxUnits s)
        && decide (regionCount s (reqTid w.req) < limitOf s (reqTid w.req) TenantCfg.maxWindows)
        && (freeRegion s 0).isSome && (xtBase s as.length).isSome) = true := by decide +kernel

/-! Mirrors and stacks -/

/-- A request of the mirror peer. -/
def pq (op subop : Byte) : Req := { src := 900, tid := 1, opcode := op, subop := subop, op0 := 1, op1 := 1 }

/-- The open module with region 1 as the shadow of region 1 of node 900, or as a mirrored primary of it. -/
def shadowed (st : RegionState) : State :=
  with1 fun g => { g with mode := .mirrored, isShadow := st = .shadow, bound := true, shadowNode := 900, otherIdx := 1, st := st }

theorem test_meets_MirrorAndStackCommandsComplete_bind : tc (pq 0x90 0) base (fun w s => decide (w.req.subop ≠ 1)
    && decide (w.req.subop ≠ 2) && (newRegion (reqTid w.req) 0 ({
      mode := .mirrored, size := clampTo 1 (maxUnits s) (bits (op1 w.req) 19 0), ilv := min 2 (bits (op1 w.req) 21 20) } : RegParams)
      s).2.isSome) = true := by decide +kernel
theorem test_meets_MirrorAndStackCommandsComplete_bind_window :
    tc { pq 0x90 1 with va := 0x1000000000 } (shadowed .shadow) (fun w s => has (shadowRegion s w.req.src (op0 w.req % 65536)) fun g =>
      decide ((newWindow (reqTid w.req) 5 (reqVa w.req) (bits (op1 w.req) 19 0) (bits (op1 w.req) 51 32) g s).2.1 = .ok)) = true := by
  decide +kernel
theorem test_meets_MirrorAndStackCommandsComplete_write :
    tc { pq 0x91 0 with payload := List.replicate 64 7, tc := 2, len := 64, va := 0x7FFFC0 } (shadowed .shadow)
      (fun w s => has (shadowRegion s w.req.src (op0 w.req % 65536)) fun g => decide (g.st = .shadow)
        && decide (reqVa w.req + min (reqLen w.req) (64 * reqSlots w.req) ≤ g.size * unit2M)) = true := by decide +kernel
theorem test_meets_MirrorAndStackCommandsComplete_heartbeat : tc (pq 0x92 0) base (fun _ _ => true) = true := by decide +kernel
theorem test_meets_MirrorAndStackCommandsComplete_fence : has (regionAt (applyEnv {} (setPool (fun p => { p with
    mirrorSeen := [(900, 4998000000)] }) (shadowed .active))) 1) (fun g => mirrorLive g) = true ∧
    mirrorSilent (applyEnv {} (setPool (fun p => { p with mirrorSeen := [(900, 4998000000)] }) (shadowed .active))) 900 2000000 = true := by
  decide +kernel
theorem test_meets_MirrorAndStackCommandsComplete_open : has (regionAt (applyEnv {} (setPool (fun p => { p with
    mirrorSeen := [(900, 4997000000)] }) (shadowed .shadow))) 1) (fun g => g.isShadow && g.bound && decide (g.st = .shadow)) = true ∧
    mirrorSilent (applyEnv {} (setPool (fun p => { p with mirrorSeen := [(900, 4997000000)] }) (shadowed .shadow))) 900 3000000 = true := by
  decide +kernel
theorem test_meets_MirrorAndStackCommandsComplete_handoff : tc (pq 0x93 0) (shadowed .shadow)
    (fun w s => has (shadowRegion s w.req.src (op0 w.req % 65536)) fun g => g.st = .shadow) = true := by decide +kernel
theorem test_meets_MirrorAndStackCommandsComplete_break : tc (pq 0x94 0) (shadowed .active)
    (fun w s => has (regionAt s (op0 w.req % 65536)) fun g => decide (g.mode = .mirrored) && g.bound && !g.isShadow
      && decide (g.shadowNode = w.req.src) && decide (g.st = .active)) = true := by decide +kernel
theorem test_meets_StacksRetireComplete_renew : base.pool.lastRenew + leaseNs base / 4 ≤ max base.now 0 := by decide +kernel
theorem test_meets_StacksRetireComplete_retire : sv base (fun s => inService s 0 && !planOnStack s 0 && !holdsObject s 0
    && ((reserveRuns 0 (movers s 0) s).bind fun s' => moveShadows 0 (s.pool.shadows.filter fun u => u.stack = 0) s').isSome) = true := by
  decide +kernel

/-- A set whose tiles lie on stack 0. -/
def withSet : State := { base with ws := { base.ws with sets := [{ idx := 0, tid := 1, region := 1, st := .resident, loads := 1, runs := [(0, 0, 128)] }] } }

theorem test_meets_StacksRetireComplete_retire_busy : sv withSet (fun s => holdsObject s 0) = true := by decide +kernel

/-- The extent of region 1 moves to stack 5. -/
def moving : State := with1 fun g => { g with exts := [{ base := 8, stack := 0, len := 4, migrating := true, newStack := 5, newBase := 8 }] }

theorem test_meets_StacksRetireComplete_migration : has (regionAt (applyEnv {} moving) 1) (fun g => has g.exts[0]? fun x =>
    x.migrating && extentStable (applyEnv {} moving) g 0
      && decide ((regionAt (copyDram (x.stack * 2 ^ 36 + x.base * unit2M) (x.newStack * 2 ^ 36 + x.newBase * unit2M) (x.len * unit2M)
        (applyEnv {} moving)) 1).bind (fun g => g.exts[0]?) = some x)) = true := by decide +kernel
theorem test_meets_MirrorAndStackCommandsComplete_die_to_die : (stackAt (applyEnv {} base) 31).d2d.getLsbD 3 = true ∧
    (stackAt (applyEnv {} base) 31).fitted = true := by decide +kernel
/-! Memory verbs and coherence -/

/-- A STORE of bytes to window 1. -/
def st (op : Byte) (d : List Byte) : Req := { rq with opcode := op, tc := 2, len := BitVec.ofNat 16 d.length, payload := d }

/-- The range of a verb is accessible and sound, its data come from DRAM and its budget has room. -/
def readable (w : Waiting) (s : State) (len rt : Nat) (p : Region → Bool) : Bool :=
  !overtakes s w && accOf w s len rt fun _ g o => p g && decide (partsStatus s w.ord g.owner (partsOf g o len) = .ok)
    && (needRd s [] (pieces false (partsOf g o len))).isEmpty
    && has (useBudget (ctxTid s w.ord w.req) (pieces false (partsOf g o len)) s) fun s1 =>
      (readPieces 0 [] (pieces false (partsOf g o len)) s1).2.isSome

theorem test_meets_LoadsComplete_uncached : tk (withCached false { rq with opcode := 1, len := 64 }) base (fun w s =>
    !reqCtl w.req && readable w s (clampTo 1 2048 (reqLen w.req)) rightR fun g => g.mode ≠ .coherent) = true := by decide +kernel
theorem test_meets_LoadsComplete_cached : tk (withCached true { rq with opcode := 1, len := 128, va := 0x7FFF80 }) base (fun w s =>
    !reqCtl w.req && decide (reqVa w.req % 128 = 0) && readable w s 128 rightR fun g => g.mode = .priv) = true := by decide +kernel
theorem test_meets_LoadsComplete_coherent : tk (withCached false { rq with opcode := 1, len := 64, win := 2 }) base (fun w s =>
    !reqCtl w.req && !overtakes s w && accOf w s (clampTo 1 2048 (reqLen w.req)) rightR fun _ g o =>
      let ps := partsOf g o (clampTo 1 2048 (reqLen w.req))
      decide (g.mode = .coherent) && decide (partsStatus s w.ord g.owner ps = .ok)
        && (match cohGate w.ord g.idx (linesOfParts ps) .loadU ((slotOf g w.req.src).map Slot.k) s with
          | (s1, .go) => !(linesOfParts ps).any (lineLm s1 g.idx) && (useBudget (ctxTid s1 w.ord w.req) ps s1).isSome
          | _ => false)) = true := by decide +kernel
theorem test_meets_LoadsComplete_page : reqCtl { rq with win := 0x80000000 } = true ∧
    tk (withCached false { rq with opcode := 1, win := 0x80000000 }) base (fun _ _ => true) = true := by decide +kernel
theorem test_meets_LoadsComplete_line : ([0, 2] : List (BitVec 16)).all (fun f =>
    tk (withCached true { rq with opcode := 1, win := 2, flags := f }) base (fun w s =>
      !reqCtl w.req && !overtakes s w && decide (reqVa w.req % 128 = 0) && accOf w s 128 rightR fun _ g o => has (slotOf g w.req.src) fun k =>
        let u := if reqIntentM w.req then LineUse.loadM else .loadS
        decide (g.mode = .coherent)
          && (acc (checkAccess s w.ord (reqWin w.req) (reqTid w.req) w.req.src (reqVa w.req) 128
            (rightR + rightW)) (fun _ _ _ => true) || decide (u ≠ .loadM))
          && decide (partsStatus s w.ord g.owner (partsOf g o 128) = .ok)
          && (match linesOfParts (partsOf g o 128) with
            | [l] => (match cohGate w.ord g.idx [l] u (some k.k) s with
              | (s1, .go) => !lineLm s1 g.idx l && (useBudget (ctxTid s1 w.ord w.req) (partsOf g o 128) s1).isSome
              | _ => false)
            | _ => false))) = true := by decide +kernel

/-- A STORE of a length is accessible, and the directory and the budget let it through. -/
def storable (w : Waiting) (s : State) (p : Window → Region → Bool) : Bool :=
  let len := clampTo 1 (64 * reqSlots w.req) (reqLen w.req)
  !reqCtl w.req && !overtakes s w && decide (reqSlots w.req ≠ 0) && accOf w s len rightW fun x g o =>
    let good := (partsOf g o len).filter fun p => partStatus s w.ord g.owner p = .ok
    p x g && (match (if g.mode = .coherent then cohGate w.ord g.idx (linesOfParts good) .write ((slotOf g w.req.src).map Slot.k) s else (s, .go)) with
        | (s1, .go) => (useBudget (ctxTid s1 w.ord w.req) good s1).isSome
        | _ => false)

theorem test_meets_StoresComplete_store : tk (st 2 (List.replicate 64 1)) base (fun w s => storable w s fun _ g => g.mode = .priv) = true ∧
    tk { st 2 (List.replicate 128 1) with win := 2 } base (fun w s => storable w s fun _ g => g.mode = .coherent) = true := by
  decide +kernel
theorem test_meets_StoresComplete_notify : tk { st 3 [1] with flags := 8, op0 := 31 } base (fun w s => !earlierWrites s w
    && storable w s fun x _ => reqSendEvt w.req && covered (grantsOf x) (op0 w.req % 2 ^ 20)) = true := by decide +kernel

/-- A STORE_NOTIFY that waits. -/
def notifying : State := { base with vrb := { base.vrb with
  waiting := [{ op := 3, req := { st 3 [1] with tag := 9 }, why := .notify, ord := 0 }], nextOrd := 1 } }

theorem test_meets_StoresComplete_release : has (notifyOf (applySram {} (applyEnv {} notifying)) 16 9)
    (fun w => !earlierWrites (applySram {} (applyEnv {} notifying)) w) = true := by decide +kernel
theorem test_store_writes : nextIs (exec (.store (st 2 [1, 2, 3]) {}) base)
    (fun t => t.mem = [(8 * unit2M, 1), (8 * unit2M + 1, 2), (8 * unit2M + 2, 3)]) = true := by decide +kernel

/-- Window 1 holds FF FF FF FF at 0. -/
def ones : State := { base with mem := (List.range 4).map fun i => (8 * unit2M + i, 0xFF) }

/-- An ATOMIC on window 1. -/
def at1 (op : Byte) (a b : BitVec 64) : Req := { rq with opcode := 4, subop := op, op0 := a, op1 := b }

theorem test_meets_AtomicsComplete : ([(at1 (fetchSubop 0) 0 0), atomicReq 1 (at1 0 1 0), atomicReq 2 (at1 0 1 0), atomicReq 3 (at1 0 1 0),
    atomicReq 3 (at1 0 0xFFFFFFFF 5), atomicReq 4 (at1 0x10 1 0), atomicReq 5 (at1 0x10 1 0)] : List Req).all (fun q =>
    tk q ones (fun w s => !reqCtl w.req && decide (reqVa w.req % atomicWidth w.req = 0)
      && readable w s (atomicWidth w.req) rightA fun g => decide (g.mode ≠ .coherent))) = true := by
  decide +kernel
theorem test_meets_AtomicsComplete_coherent : ([{ at1 (fetchSubop 0) 0 0 with win := 2 }, atomicReq 1 { at1 8 0 0 with win := 2 }] : List Req).all (fun q =>
    tk q base (fun w s => !reqCtl w.req && !overtakes s w && decide (reqVa w.req % atomicWidth w.req = 0)
      && accOf w s (atomicWidth w.req) rightA fun _ g o => decide (g.mode = .coherent)
        && decide (partsStatus s w.ord g.owner (partsOf g o (atomicWidth w.req)) = .ok)
        && (match cohGate w.ord g.idx [o / 128] .write ((slotOf g w.req.src).map Slot.k) s with
          | (s1, .go) => !lineLm s1 g.idx (o / 128)
          | _ => false))) = true := by decide +kernel
theorem test_atomic_add_wraps : nextIs (exec (.atomicAdd (at1 0 1 0) {}) ones) (fun t => t.mem = []) = true := by decide +kernel
theorem test_atomic_min_signed : nextIs (exec (.atomicMin (at1 0x10 1 0) {}) ones)
    (fun t => memRead t.mem (8 * unit2M) = 0xFF) = true := by decide +kernel
theorem test_atomic_max_signed : nextIs (exec (.atomicMax (at1 0x10 1 0) {}) ones)
    (fun t => memRead t.mem (8 * unit2M) = 1 && memRead t.mem (8 * unit2M + 3) = 0) = true := by decide +kernel

/-- A coherence request on window 2. -/
def co (op subop : Byte) : Req := { rq with opcode := op, subop := subop, win := 2, tag := 5 }

/-- The open module without an attached node. -/
def detached : State := modRegion 2 (fun g => { g with slots := [] }) base

theorem test_meets_CoherenceSlotsComplete :
    tc (co 0x28 0) base (fun w s => acc (cohWin s w) fun x g _ => (grantsFor x w.ord).any (grantFits (reqTid w.req) w.req.src rightR)
      && decide (g.mode = .coherent) && (slotOf g w.req.src).isSome) = true ∧
    tc (co 0x28 0) detached (fun w s => acc (cohWin s w) fun x g _ => (grantsFor x w.ord).any (grantFits (reqTid w.req) w.req.src rightR)
      && (slotOf g w.req.src).isNone && (findFree (fun k => (slotAt g k).isNone) 64 63).isSome) = true ∧
    tc (co 0x29 0) base (fun w s => acc (cohWin s w) fun _ g _ => (slotOf g w.req.src).isSome) = true ∧
    tc (co 0x2A 0) base (fun w s => acc (cohWin s w) fun _ g _ => (slotOf g w.req.src).isSome) = true := by decide +kernel

/-- Line 0 of region 2 in a state, owned by slot 3, with an outstanding message of a kind to it. -/
def lineIn (d : DirState) (kind : Nat) : State :=
  { base with coh := { base.coh with
    dir := [{ region := 2, line := 0, st := d, owner := 3, sharers := 8, pend := 1 }]
    msgs := [{ tag := 5, kind := kind, region := 2, line := 0, slot := 3, node := 16 }] } }

theorem test_meets_LinesAndLeasesComplete_writeback :
    tc { co 0x2B 0 with payload := List.replicate 128 1, tc := 2 } (lineIn .modified 1) (fun w s => decide (reqVa w.req % 128 = 0)
      && decide (2 ≤ reqSlots w.req) && acc (writebackAccess s w) fun _ g o => has (slotOf g w.req.src) fun y =>
        let d := dirAt (dirLookup g.idx (o / 128) s) g.idx (o / 128)
        decide (g.mode = .coherent) && decide (partsStatus s 0 g.owner (partsOf g (o / 128 * 128) 128) = .ok) && decide (d.owner = y.k)
          && decide (d.st = .modified) && decide ((lineBack g (o / 128) w.req.payload s).2 = .ok)) = true := by decide +kernel
theorem test_meets_LinesAndLeasesComplete_writeback_private :
    tc { rq with opcode := 0x2B, payload := List.replicate 128 1, tc := 2 } base (fun w s => decide (reqVa w.req % 128 = 0)
      && decide (2 ≤ reqSlots w.req) && acc (writebackAccess s w) fun _ g _ => g.mode = .priv) = true := by decide +kernel

/-- A message of a kind is outstanding and its line stands in a state. -/
def told (kind : Nat) (d : DirState) (w : Waiting) (s : State) : Bool :=
  match takeMsg kind w.req s with
  | (s1, some m) => !m.done && decide ((dirAt s1 m.region m.line).st = d) && decide ((dirAt s1 m.region m.line).owner = m.slot)
      && (regionAt s1 m.region).isSome
  | _ => false

theorem test_meets_LinesAndLeasesComplete_answers :
    tc (co 0x2C 0) (lineIn .waitInv 0) (told 0 .waitInv) = true ∧ tc (co 0x2D 0) (lineIn .waitRcl 1) (told 1 .waitRcl) = true ∧
    tc { co 0x2D 1 with payload := List.replicate 128 1, tc := 2 } (lineIn .waitRcl 1)
      (fun w s => told 1 .waitRcl w s && decide (2 ≤ reqSlots w.req)) = true ∧
    tc (co 0x2D 2) (lineIn .waitRcl 1) (told 1 .waitRcl) = true ∧ tc (co 0x2E 0) (lineIn .inv 2) (told 2 .inv) = true := by
  decide +kernel
theorem test_meets_CoherenceSlotsComplete_declare : ([0, 1] : List Byte).all (fun b =>
    tc { co 0x2F b with op0 := 128, va := 0x1FFF80 } (lineIn .lostModified 9) (fun w s => acc (cohWin s w) fun x _ _ =>
      decide (x.owner = reqTid w.req) && decide (x.vaBase * unit2M ≤ reqVa w.req / 128 * 128)
        && decide (ceilDiv (reqVa w.req + clampTo 1 (2 ^ 40) (op0 w.req)) 128 * 128 ≤ (x.vaBase + x.len) * unit2M))) = true := by
  decide +kernel
theorem test_meets_CoherenceSlotsComplete_query : tc (co 0x30 0) (lineIn .lostModified 9) (fun w s => accOf w s 1 rightR fun _ g o =>
    lostLines s g.idx (ceilDiv o 128) 16384 = [0]) = true := by
  decide +kernel
theorem test_meets_CoherenceSlotsComplete_arrival : cohRegionOf (applyEnv {} base) (co 0x2A 0) = some 2 := by decide +kernel

/-- The lease of slot 3 has ended, or the slot is dead with a number of lost lines. -/
def leased (dead : Bool) (n : Nat) : State :=
  modRegion 2 (fun g => { g with slots := [{ k := 3, node := 16, deadline := 5000000000, win := 2, dead := dead, lmMade := n }] }) base

theorem test_meets_LinesAndLeasesComplete_leases :
    has ((regionAt (applyEnv {} (leased false 0)) 2).bind fun y => slotAt y 3) (fun x => !x.dead && leaseOver (applyEnv {} (leased false 0)) x)
      = true ∧
    has (regionAt (applyEnv {} (leased true 1)) 2) (fun y => has (slotAt y 3) fun x => x.dead && decide (x.lmMade ≠ 0)) = true ∧
    has (regionAt (applyEnv {} (leased true 0)) 2) (fun y => has (slotAt y 3) fun x => x.dead && decide (x.lmMade = 0)) = true := by
  decide +kernel

theorem test_meets_MemoryVerbsWriteTheirOperand : Memory.wf base.mem = true ∧
    tk (st 2 [1]) base (fun w s => !reqCtl w.req && accOf w s 1 rightW fun _ _ _ => true) = true ∧
    tk { st 2 [1] with win := 77 } base (fun w s => decide (checkAccess s w.ord (reqWin w.req) (reqTid w.req) w.req.src (reqVa w.req) 1 rightW
      = .bad .noMapping)) = true := by decide +kernel

/-- Line 0 of stack 0 decodes as poison. -/
def poisonedLine : State := { base with ecc := { base.ecc with errs := [(0, poisonPat)] } }

theorem test_meets_WholeLinesClearPoison : Memory.wf base.mem = true ∧ linePat poisonedLine 0 ≠ [] ∧
    decodeLine (linePat poisonedLine 0) (erasedLane poisonedLine (paStack 5) (paPch 5)) = .poison := by decide +kernel
theorem test_meets_BytesReadBack : Memory.wf base.mem = true ∧ (base.ecc.errs = []) := by decide +kernel

/-- A request that fails step 3, 4, 5 or 6 of admission. -/
theorem test_meets_AdmissionRefuses :
    reachable base = true ∧ inboxOf base { rq with opcode := 1 } = none ∧
    admissionStatus base { rq with opcode := 0x18, tc := 3 } = some .denied ∧
    admissionStatus { base with boot := { base.boot with st := .forwardOnly } } { rq with opcode := 1 } = some .internal ∧
    admissionStatus base { rq with opcode := 1, src := 32 } = some .denied ∧
    admissionStatus { base with fuse := { base.fuse with variant := .c3240M } } { rq with opcode := 0x50 } = some .absent := by decide +kernel
theorem test_meets_MisalignedIsDenied :
    tk (withCached true { rq with opcode := 1, va := 127 }) (applySram {} (atTime 0 base)) (fun w _ => decide (reqVa w.req % 128 ≠ 0)) = true ∧
    tk { rq with opcode := 0x2B, va := 1, tc := 2, payload := [1] } base (fun w _ => decide (reqVa w.req % 128 ≠ 0)) = true ∧
    tk { at1 8 0 0 with va := 4 } (applySram {} (atTime 0 base)) (fun w _ =>
      decide (reqVa w.req % (if w.req.subop.getLsbD 3 then 8 else 4) ≠ 0)) = true := by decide +kernel

/-! Bulk queues -/

/-- A descriptor between the two windows, from offset 0 to an offset. -/
def dsc (op : Nat) : Desc := { op := op, dstWin := 1, srcWin := 2, src2Win := 2, dstVa := 256, src2Va := 64, len := 8,
                               elem := 2, pattern := 0x0102030405060708 }

/-- The module with a queue 0 that holds descriptors, the first half of them released. -/
def bq (ds : List DescRec) : State := { base with bulk := { base.bulk with
  qs := [{ idx := 0, owner := 1, cqNode := 16, tail := 3, run := 2, descs := ds }] } }

/-- A BULK_SUBMIT of one descriptor of an operation. -/
def sb (op : Byte) (f : BitVec 16) : Req := { rq with opcode := 0x12, tc := 2, len := 1, flags := f, payload := op :: List.replicate 63 0 }

theorem test_meets_BulkQueuesAndCapsComplete_create : tc { rq with opcode := 0x10, op1 := 31 } base (fun w s =>
    nodeListed s (reqTid w.req) (op1 w.req % 2 ^ 20) && decide (descSlots s + bqDepth (op0 w.req % 65536) ≤ 65536)
      && decide (countIf (fun q => q.owner = reqTid w.req) s.bulk.qs < 64)
      && (findFree (fun i => (bqAt s i).isNone && indexRested s 1 i) 4096 0).isSome) = true := by decide +kernel
theorem test_meets_BulkQueuesAndCapsComplete_destroy : tc { rq with opcode := 0x11 } (bq [{ n := 0 }]) (fun w s =>
    (bqOf s (op0 w.req) (reqTid w.req)).isSome) = true := by decide +kernel
theorem test_meets_BulkQueuesAndCapsComplete_submit : ([(0, true), (1, false)] : List (Byte × Bool)).all (fun x =>
    tc (sb x.1 4) (bq []) (fun w s => decide (reqSlots w.req ≠ 0) && has (bqOf s (op0 w.req) (reqTid w.req)) fun q =>
      let ds := submitted w.req
      decide (q.descs.length + ds.length ≤ q.depth) && !bulkFull s w.ord (reqTid w.req) ds
        && decide (ds.length = 1) && decide ((ds.map (checkDesc s w.ord (reqTid w.req) w.req.src) = [.ok]) = x.2))) = true := by
  decide +kernel
theorem test_meets_BulkQueuesAndCapsComplete_doorbell : tc { rq with opcode := 0x13 } (bq []) (fun w s =>
    (bqOf s (op0 w.req) (reqTid w.req)).isSome) = true := by decide +kernel
theorem test_meets_BulkQueuesAndCapsComplete_descriptors : ((bqAt (applyEnv {} (bq [{ n := 0 }])) 0).bind startable).isSome = true ∧
    has (bqAt (applyEnv {} (bq [{ n := 0, phase := .done }])) 0) (fun b => has b.descs.head? fun x => x.phase = .done && x.wr.isEmpty)
      = true ∧
    has (bqAt (applyEnv {} (bq [{ n := 0, phase := .aborted }])) 0) (fun b => has b.descs.head? fun x => x.phase = .aborted)
      = true := by decide +kernel

/-- A running descriptor of an operation in queue 0, with its state. -/
def runs (op : Nat) (p : DescRec → State → Bool) : Bool :=
  let s := applyEnv {} (bq [{ n := 0, d := dsc op, phase := .running }])
  has (runningDesc s 0 op) fun x => x.tags.isEmpty && p x s

/-- The lenders' data of a running descriptor have come, the directory lets its lines through, and its writes end, or its comparison. -/
def descGoes (op : Nat) : Bool :=
  runs op fun x s =>
    let s := setSvc (if isPart s 1 then 1 else 3) s
    let srcs := descSrcs s x.d
    let dst := descDst s x.d
    let r := descGate x.ord x.d.len dst srcs s
    !((dst.toList ++ srcs).any fun y => y.g.st = .fenced) && decide (dst.isSome = (op = 1 || op = 2 || op = 4))
      && ((([0, 2 ^ 40] : List Nat).zip srcs).all fun y => (spanNeed s x.got y.1 x.d.len y.2).isEmpty)
      && decide (r.2 = .go) && decide (bqAt r.1 0 = bqAt s 0)
      && (match dst with
        | some t => decide ((descWrite x.d t.g srcs (descPieces x.d t) (serveParts 1 x.d srcs dst r.1)).2.2.1 = .ok)
        | none => op = 0 || srcs.length = 2)

theorem test_meets_DescriptorsExecute : ([0, 1, 2, 3, 4] : List Nat).all descGoes = true := by decide +kernel

theorem test_meets_DescriptorsExecute_fenced :
    (let s := applyEnv {} (modRegion 1 (fun g => { g with st := .fenced }) (bq [{ n := 0, d := dsc 1, phase := .running }]))
     has (runningDesc s 0 1) fun x => x.tags.isEmpty && has (descDst (setSvc 3 s) x.d) fun t => t.g.st = .fenced) = true := by
  decide +kernel

/-- As many lines wait as may, none of them of the source. -/
def manyWait : State := { bq [{ n := 0, d := { dsc 2 with srcVa := 128 }, phase := .running }] with
  coh := { base.coh with dir := { region := 2, line := 1, st := .modified, owner := 3, sharers := 8 } ::
    (List.range 16384).map fun i => { region := 9, line := i, st := .waitRcl } } }

theorem test_meets_DescriptorsExecute_busy : (let s := setSvc 3 (applyEnv {} manyWait)
    has (runningDesc s 0 2) fun x => decide ((descGate x.ord x.d.len (descDst s x.d) (descSrcs s x.d) s).2 = .busy)) = true := by
  decide +kernel
theorem test_fill_writes : nextIs (exec (.descFill 0 {}) (bq [{ n := 0, d := dsc 1, phase := .running }]))
    (fun t => memReadL t.mem (8 * unit2M + 256) 8 = [8, 7, 6, 5, 4, 3, 2, 1]) = true := by decide +kernel

theorem test_meets_BulkQueuesAndCapsComplete_caps : tc { rq with opcode := 0x7F } base (fun _ _ => true) = true ∧
    (inboxOf (applyEnv {} { base with vrb := { base.vrb with waiting := [{ op := 0x80, req := { rq with opcode := 0x80 } }] } })
      { rq with opcode := 0x80 }).isSome = true := by decide +kernel

/-! Plans -/

/-- Stack 0's engines 0 and 1 run plan 0, whose engine 0 has a list of operations. -/
def prg (ds : List OpD) (e0 : Eng → Eng) (r : Option Run) : State :=
  let st : EngState := if r.isSome then .running else .reserved
  let run : Eng := { st := st, tid := 1, ended := false }
  let e := e0 run
  { base with fe := { base.fe with
      plans := [{ idx := 0, tid := 1, node := 16, engs := [0, 1], ops := ds, streams := [(0, ds.length)], bars := [0], run := r }]
      engs := [e, { run with n := 1, phys := 1, ended := true }]
      bars := [{ idx := 0, tid := 1, mask := [0, 1] }] } }

/-- A run since a second. -/
def rn : Run := { node := 16, since := 4000000000, progress := 4000000000 }

/-- Window 1 holds a bundle with a sound header. -/
def bundle : State :=
  let d := le 8 0x3130304E414E4542 ++ le 2 1 ++ le 2 0x80 ++ le 4 0 ++ le 4 0x1000 ++ le 2 4 ++ le 4 0 ++ le 2 1
  { base with mem := memWriteL [] (8 * unit2M) d }

/-- A plan's bundle: one engine whose stream is END, with its trailer's marker and a signature of zeros. -/
def planBytes : Bytes :=
  let at_ : Nat → Bytes → Bytes := fun n l => l ++ List.replicate (n - l.length) 0
  let dir : Nat → Nat → Nat → Bytes := fun t ofs len => le 2 t ++ le 2 1 ++ le 4 ofs ++ le 4 len ++ le 4 0
  at_ 0x80 (le 8 0x3130304E414E4542 ++ le 2 1 ++ le 2 0x80 ++ le 4 0 ++ le 4 0x1000 ++ le 2 4 ++ [0, 0, 0xFF, 0xFF]
      ++ le 2 1 ++ [0, 0xFF])
    ++ at_ 0x80 (dir 1 0x100 32 ++ dir 2 0x140 12 ++ dir 3 0x180 16 ++ dir 4 0x1C0 40)
    ++ at_ 0x40 [] ++ at_ 0x40 (le 8 1 ++ [0xFF, 0, 1, 0]) ++ at_ 0x40 (le 8 1 ++ le 4 0 ++ le 4 1)
    ++ at_ (0xF80 - 0x1C0) (le 8 1 ++ [0x0F, 0, 0, 1] ++ List.replicate 28 0) ++ at_ 0x80 (le 8 0x544749534E45564C)

/-- The first plan key is programmed. -/
def keyed : State := { base with fuse := { base.fuse with prog := 1 <<< 4 } }

theorem test_meets_PlansComplete_denied : planDenied base 1 planBytes (parsePlan planBytes) = 3 := by decide +kernel

/-- The plan is taken where the signature, whose verification is a constant without a value, holds. -/
theorem test_meets_PlansComplete_enter (h : signedBy (keyOf keyed 4) planBytes (field planBytes 0x10 4) = true) :
    planDenied keyed 1 planBytes (parsePlan planBytes) = 0 ∧
    planRefused 0 keyed 1 (parsePlan planBytes) (placeGroups keyed (parsePlan planBytes)) = none ∧
    planShape keyed 1 (parsePlan planBytes) (placedEngines (parsePlan planBytes) (placeGroups keyed (parsePlan planBytes))) = 0 ∧
    (freeHandle keyed 2 256 0 (fun i => keyed.fe.plans.any fun x => x.idx = i)).isSome = true := by
  have k : (parsePlan planBytes).key = 0 := by decide +kernel
  have u : keyUsable keyed 4 = true := by decide +kernel
  have r : (let p := parsePlan planBytes
    p.ok = true ∧ p.bind = 0xFFFF ∧ p.tiles.any (tileElsewhere keyed 1 p) = false
      ∧ (declaredOk p && p.ops.all fun d => operandsOk p d && syncOk p d) = true ∧ p.ops.any writesTile = false) := by
    decide +kernel
  refine ⟨?_, by decide +kernel, by decide +kernel, by decide +kernel⟩
  obtain ⟨a, b, c, d, e⟩ := r
  simp only [planDenied, k, a, b, c, d, e, h, u]
  decide

/-- Two engines more than a stack has. -/
theorem test_meets_PlansComplete_refused : planRefused 0 keyed 1 { parsePlan planBytes with groups := [{ stack := some 0, count := 66 }] }
    (placeGroups keyed { parsePlan planBytes with groups := [{ stack := some 0, count := 66 }] }) = some (2, 2) := by decide +kernel

theorem test_meets_PlansComplete_load : tc { rq with opcode := 0x50 } bundle (fun w s =>
    match fetchRange w (2 ^ 50) (reqWin w.req) (reqVa w.req) 0x80 s with
    | .ok s1 hd => planHeadOk hd && decide ((rangeParts s1 w.ord (reqTid w.req) w.req.src (max 128 (field hd 0x10 4)) (reqWin w.req, reqVa w.req, rightR)).1 = .ok)
      && (match fetchRange w 0 (reqWin w.req) (reqVa w.req) (field hd 0x10 4) s1 with
      | .ok _ d => decide (d.length = 0x1000)
      | _ => false)
    | _ => false) = true := by decide +kernel
theorem test_meets_PlansComplete_unload : ([some rn, none] : List (Option Run)).all (fun r =>
    tc { rq with opcode := 0x50, subop := 1 } (prg [] id r) (fun w s =>
      (planOf s (op0 w.req % 2 ^ 16) (reqTid w.req)).isSome)) = true := by decide +kernel
theorem test_meets_PlansComplete_run : tc { rq with opcode := 0x51 } (prg [] id none) (fun w s =>
    has (planOf s (op0 w.req % 2 ^ 16) (reqTid w.req)) fun p => p.run.isNone && !p.storeBad && !p.engs.any (engOut s)
      && !(p.engs.any fun n => (engAt s n).st = .substituting)
      && ((((List.range p.args.length).zip p.args).map fun x => argValue s w x.2 x.1).findIdx? (fun v => v.1 ≠ .ok)).isNone)
    = true := by decide +kernel
theorem test_meets_PlansComplete_end : let s := applyEnv {} (prg [] (fun e => { e with ended := true }) (some rn))
    has (planAt s 0) (fun p => p.run.isSome && !(p.engs.any fun n => !(engAt s n).ended)) = true := by decide +kernel

/-- A sync verb of the plan's tenant. -/
def sy (op : Byte) (a b : BitVec 64) : Req :=
  { rq with opcode := op, tc := 2, op0 := a, op1 := b, len := 256, payload := 3 :: List.replicate 255 0 }

theorem test_meets_SyncVerbsComplete_define : tc (sy 0x4A 0 0xFFFF) (prg [] id (some rn)) (fun w s =>
    decide (op1 w.req % 2 ^ 16 = 0xFFFF) && !((maskBits (slice w.req.payload 0 256)).any fun n => !engineOf s (reqTid w.req) n)
      && decide (maskBits (slice w.req.payload 0 256) = [0, 1])
      && (findFree (fun i => !(s.fe.bars.any fun b => b.idx = i)) 256 0).isSome) = true ∧
    tc (sy 0x4A 0 0) (prg [] id (some rn)) (fun w s => has (barOf s (op1 w.req % 2 ^ 16) (reqTid w.req)) fun b =>
      !((maskBits (slice w.req.payload 0 256)).any fun n => !engineOf s (reqTid w.req) n) && b.arrived.isEmpty && b.extArr == 0)
    = true := by decide +kernel
theorem test_meets_SyncVerbsComplete_free : tc { sy 0x4A 0 0 with subop := 1 } (prg [] id (some rn)) (fun w s =>
    has (barOf s (op1 w.req % 2 ^ 16) (reqTid w.req)) fun b => !barAwaited s b) = true := by decide +kernel
theorem test_meets_SyncVerbsComplete_arrive : tc (sy 0x48 0x10005 1) (prg [] id (some rn)) (fun w s =>
    match syncTarget s (reqTid w.req) (op0 w.req) with | some (.slot p n k) => p.run.isSome && n == 1 && k == 5 | _ => false) = true ∧
    tc (sy 0x48 (1 <<< 62) 1) (prg [] id (some rn)) (fun w s =>
      match syncTarget s (reqTid w.req) (op0 w.req) with | some (.barrier b) => b.idx == 0 | _ => false) = true := by decide +kernel
theorem test_meets_SyncVerbsComplete_wait : ([(0, true), (1, false)] : List (BitVec 64 × Bool)).all (fun x =>
    tc (sy 0x49 0x10005 x.1) (prg [] id (some rn)) (fun w s =>
      match syncTarget s (reqTid w.req) (op0 w.req) with
      | some (.slot _ n k) => decide (op1 w.req % 2 ^ 16 ≤ slotVal (engAt s n) k) == x.2
      | _ => false)) = true := by decide +kernel
theorem test_meets_SyncVerbsComplete_timeout : let s := applyEnv {} { base with vrb := { base.vrb with
      waiting := [{ op := 0x49, req := sy 0x49 0 0, why := .slot 0 0 0 1 5000000000 }] } }
    (s.vrb.waiting.find? fun w => w.req.src = 16 && w.req.tag.toNat = 0 && syncLate s w).isSome = true := by decide +kernel

/-- Engine 0 of a run waits at a barrier that engine 1, which has ended, never reaches. -/
def stuck : State := prg [{ opc := 9 }] (fun e => { e with pc := 1, comp := some {} }) (some rn)

theorem test_meets_EngineServiceCompletes_deadlock : let s := applyEnv {} stuck
    has (planAt s 0) (fun p => has p.run fun r => runBlocked s p && decide (r.progress + s.img.deadlockUs * 1000 ≤ s.now))
      = true := by decide +kernel

/-- Engine 0 is parked on record 0. -/
def parkedEng : State :=
  let s := prg [{ opc := 3 }] (fun e => { e with st := .parked, park := some 0 }) (some rn)
  { s with fe := { s.fe with parks := [{ idx := 0, tid := 1, mask := 1 }] } }

theorem test_meets_EngineServiceCompletes_park : sv parkedEng (fun s => hasEngines s
      && (s.fe.parks.find? fun p => p.idx = 64 % 64).isSome) = true ∧
    (let s := atTime 0 (applyEnv {} parkedEng)
     reachable (applyEnv {} parkedEng) && hasEngines s && has (s.fe.parks.find? fun p => p.idx = 0) fun p => p.tid = 1) = true := by
  decide +kernel
theorem test_meets_EngineServiceCompletes_hang : let s := applyEnv {} (prg [{ opc := 2 }] (fun e => { e with comp := some { since := 4900000000 } }) (some rn));
    hangs s (engAt s 0) = true := by decide +kernel

/-- Spare 64 substitutes engine 0. -/
def spared : State := prg [] (fun e => { e with st := .substituting, phys := 64, saved := .reserved }) none

theorem test_meets_EngineServiceCompletes_spare : let s := applyEnv {} spared
    (hasEngines s && decide (0 < stackCount s) && decide (engineAtPos s 0 64 = some 0) && decide ((engAt s 0).st = .substituting)
      && decide ((engAt (modEng 0 (fun x => { x with lastTest := some 0 }) s) 0).lastTest ≠ none)) = true := by decide +kernel
theorem test_meets_EngineServiceCompletes_bank : sv parkedEng (fun s => hasEngines s && decide (1279 < 64 * stackCount s)) = true ∧
    (let s := atTime 0 (applyEnv {} parkedEng)
     reachable (applyEnv {} parkedEng) && hasEngines s && engineOf s 1 1 && decide (1 < 64 * stackCount s)) = true := by
  decide +kernel

/-- Engine 0 of a running plan stands at an operation. -/
def at0 (d : OpD) : State := prg [d] id (some rn)

theorem test_meets_StreamAndMoverOperationsComplete_stream : ([0, 8, 9, 0x0F] : List Nat).all (fun k =>
    let s := applyAll {} (at0 { opc := k })
    has (runOf s 0) fun x => (opAt x.1 0 (engAt s 0).pc).opc == k && (engAt s 0).st == .running && !(engAt s 0).ended
      && (engAt s 0).comp.isNone && (decide (k ≠ 9) || (opBar s x.1 x.2 (opAt x.1 0 0)).isSome) && waitMet (engAt s 0) (opAt x.1 0 (engAt s 0).pc) && portsIdle (engAt s 0)) = true := by decide +kernel

/-- Scratch operands of a port whose banks it owns. -/
def ported (mover : Bool) (d : OpD) (p : OpCtx → State → Bool) : Bool :=
  let s := prg [d] (fun e => if mover then { e with own := List.replicate 4 .mover, landed := [4, 0, 0, 0] } else e) (some rn)
  has (opNow 0 mover (applyAll {} s)) fun x => p x.1 x.2

/-- A read operand, and what it yields. -/
def srcOf (c : OpCtx) (mover : Bool) (s : State) (p : State → List Byte → Bool) : Bool :=
  match readSrc c mover 0 c.d.src.toNat (moveLen c.d) s with
  | (s, .ok d) => p s d
  | _ => false

theorem test_meets_StreamAndMoverOperationsComplete_mover : ([1, 6] : List Nat).all (fun k => ported true { opc := k, dst := 64, param := 8 } (fun c s =>
      decide (bits c.d.dst.toNat 63 60 ≠ 3) && srcOf c true s fun s d => (writeDst c true c.d.dst.toNat d s).2 = .done)) = true ∧
    ported true { opc := 6, dst := 3 <<< 60, param := 8 } (fun c s => srcOf c true s fun _ d =>
      decide (bits c.d.dst.toNat 63 60 = 3) && d.length == 8) = true ∧
    ported true { opc := 7, param := 4 } (fun c s =>
      decide (moveLen c.d ≤ nth 0 (engAt s c.n).landed (bits c.d.param.toNat 21 20))) = true := by decide +kernel

/-- A weight set of one tile of zeros on stack 0. -/
def zeroSet : Wset := { idx := 0, tid := 1, st := .resident, region := 3, loads := 1, mats := [{ rows := 1, cols := 64 }]
                        tiles := [{ rows := 1, cols := 64, ofs := 24 * unit2M }], runs := [(0, 24 * unit2M, 65536)] }

/-- A region 3 of the tenant's for objects. -/
def with3 (s : State) : State := { s with pool := { s.pool with
  regions := s.pool.regions ++ [{ idx := 3, owner := 1, size := 4, exts := [{ base := 24, stack := 0, len := 4 }] }] } }

/-- The module with a weight set. -/
def setIn (x : Wset) (s : State) : State := let s := with3 s; { s with ws := { s.ws with sets := [x] } }

/-- Engine 0 stands at a GEMV of the set's tile. -/
def gm : State :=
  let s := setIn zeroSet (at0 { opc := 2, dst := 1 <<< 17 })
  { s with fe := { s.fe with plans := s.fe.plans.map fun p => { p with wsRefs := [[]] } } }

/-- A first execution whose outputs a disturbance may touch. -/
def once (e : Env) (p : State → GemvOut → Bool) : Bool :=
  has (opNow 0 false (applyAll e gm)) fun x => decide (x.1.d.opc = 2) && (match gemvOnce e 0x200 x.1 x.2 with
    | (s, some o, _) => p s o
    | _ => false)

theorem test_meets_ComputeOperationsComplete_gemv : once {} (fun _ o => o.miss.isNone && o.ys == [[0]]) = true ∧
    once { sram := [(0x200, 0, 0x3F800000)] } (fun s o => o.miss.isSome && (reexecPos s 0).isSome) = true := by decide +kernel

/-- Argument 0 of engine 0's run is a KV object of one layer without tokens. -/
def kvIn (s : State) : State := let s := with3 s; { s with kv := { s.kv with
  objs := [{ idx := 0, tid := 1, node := 16, region := 3, maxTok := 256, stks := [0], lens := [0], idleMs := 1, lastUse := 4000000000 }] } }

theorem test_meets_ComputeOperationsComplete_attend : let s := kvIn (prg [{ opc := 3, dst := 1 <<< 17 }] id
      (some { rn with args := [{ kind := 4 }] }));
    has (opNow 0 false (applyAll {} s)) (fun x => decide (x.1.d.opc = 3) && decide ((attendOp x.1 x.2).2 = .done)) = true := by
  decide +kernel
theorem test_meets_ComputeOperationsComplete_ewise : ([0, 1, 2, 3] : List Nat).all (fun k =>
    ported false { opc := 4, dst := 1 <<< 17, param := BitVec.ofNat 64 k } (fun c s => decide (ewiseFunc c.d = k)
      && decide ((writeDst c false c.d.dst.toNat [0, 0, 0, 0] s).2 = .done))) = true := by decide +kernel
theorem test_meets_ComputeOperationsComplete_convert : ported false { opc := 4, fmt := 2, dst := 1 <<< 17, param := 4 } (fun c s =>
      decide (ewiseFunc c.d = 4) && decide ((convertOp c s).2 = .done)) = true ∧
    ported false { opc := 5, dst := 1 <<< 17 } (fun c s => decide ((reduceOp c s).2 = .done)) = true := by decide +kernel
theorem test_meets_ComputeOperationsComplete_reexec : let s := applyAll {} { gm with fe := { gm.fe with
      engs := gm.fe.engs.map fun e => { e with pc := 1, comp := some {} }, reexec := [{ eng := 0, pos := 64 }] } };
    ((s.fe.reexec.find? fun x => x.eng = 0).isSome && (runOf s 0).isSome && (engAt s 0).comp.isSome
      && decide ((engAt s 0).st = .running)
      && has (runOf s 0) fun x => has (engAt s 0).comp fun f => (foreignBank (engAt s 0) false (opAt x.1 0 f.i)).isNone) = true := by decide +kernel

/-! Weight sets and KV objects -/

/-- A verb of a payload of one slot. -/
def pv (op : Byte) (l : List Byte) : Req :=
  { rq with opcode := op, tc := 2, len := 64, payload := l ++ List.replicate (64 - l.length) 0 }

/-- Window 1 holds a bundle of one matrix of 1 x 64. -/
def wbundle : State :=
  let d := le 8 0x3130544847494557 ++ le 2 1 ++ le 2 0x80 ++ le 1 0 ++ le 1 0 ++ le 2 1 ++ le 8 0x1000
    ++ List.replicate (0x80 - 0x18) 0 ++ le 4 1 ++ le 4 64 ++ le 8 0 ++ le 8 0x800
  { base with mem := memWriteL [] (8 * unit2M) d }

/-- The WS_LOAD of that bundle. -/
def wload : Req := pv 0x38 (le 4 1 ++ le 4 1)

/-- The directory of the bundle of a WS_LOAD has been read. -/
def wsDir (s : State) (p : Waiting → State → Bytes → Bundle → Region → Bool) : Bool :=
  tc wload s fun w s =>
    has (objRegion s (reqTid w.req) (objField w)) fun g => decide (g.st ≠ .revoking) && !w.sealLate
      && !writesPending s g.idx w.ord && !loadsEarlier s w
      && (match fetchRange w (2 ^ 50) (field w.req.payload 0 3) (field w.req.payload 8 8) 0x80 s with
        | .ok s hd => decide ((rangeParts s w.ord (reqTid w.req) w.req.src (max 0x80 (field hd 0x10 8))
              (field w.req.payload 0 3, field w.req.payload 8 8, rightR)).1 = .ok)
            && decide (0x80 + 32 * field hd 0x0E 2 ≤ field hd 0x10 8)
            && got (fetchRange w (2 ^ 51) (field w.req.payload 0 3) (field w.req.payload 8 8) (0x80 + 32 * field hd 0x0E 2) s)
              fun s d => has (parseBundle d) fun b => p w s d b g
        | _ => false)

/-- A set of the bundle's shape that loads, with its run. -/
def loadingSet (ord : Nat) : Wset := { idx := 0, tid := 1, st := .loading, region := 3, loads := 1, mats := [{ rows := 1, cols := 64 }]
                                       stks := [0], runs := [(0, 24 * unit2M, 65536)], loader := some ord }

theorem test_meets_WeightSetsComplete_load : wsDir wbundle (fun w s _ b _ => ((loadingOf s w).filter (sameShape b)).isNone) = true ∧
    wsDir (setIn (loadingSet 0) wbundle) (fun w s _ b _ => ((loadingOf s w).filter (sameShape b)).isSome) = true := by decide +kernel
theorem test_meets_WeightSetsComplete_place : wsDir wbundle (fun w s _ b g =>
    let ks := stackList s g (field w.req.payload 0x10 4)
    let ts := tileOrder b ks
    let used := ks.filter fun k => ts.any fun x => x.t.stack = k
    !(b.dir.any fun x => decide (x.m.cols % 64 ≠ 0)) && !(b.residual && b.wfmt ≠ 0) && decide (setCount s w (fun _ => true) < 256)
      && decide (setCount s w (· == reqTid w.req) < limitOf s (reqTid w.req) TenantCfg.maxWs)
      && (freeHandle s 4 256 0 fun i => s.ws.sets.any fun x => x.idx = i).isSome && !used.isEmpty
      && (used.all fun k => (arenaFit s g k (runBytes (wfmtOf b.wfmt) b.residual ts k)).1.isSome)
      && (firstShort (metaShort s b.residual ts) used).isNone) = true := by decide +kernel
theorem test_meets_WeightSetsComplete_resident : wsDir (setIn (loadingSet 0) wbundle) (fun w s _ b _ =>
    has (loadingOf s w) fun x => got (fetchSpans w (field w.req.payload 0 3) (field w.req.payload 8 8) (bundleSpans b) [] s) fun s d =>
      decide ((tileOrder b x.stks).length = 1) && tilesReject (wfmtOf b.wfmt) b.residual d (tileOrder b x.stks) == 0
        && !equalLoads w x b s && s.ws.sets.all (fun y => y.st ≠ .resident)) = true := by decide +kernel
theorem test_meets_WeightSetsComplete_release : ([1, 2] : List Nat).all (fun n =>
    tc (pv 0x3A []) (setIn { zeroSet with loads := n } base) (fun w s =>
      has (setOf s (field w.req.payload 0 2) (reqTid w.req)) fun x => decide (x.st ≠ .lost)
        && (decide (1 < x.loads) || (!planRefs s x.tid x.digest && !gemvRuns s x)))) = true ∧
    tc (pv 0x3A []) (setIn { zeroSet with st := .lost } base) (fun w s =>
      has (setOf s (field w.req.payload 0 2) (reqTid w.req)) fun x => x.st = .lost) = true := by decide +kernel

theorem test_meets_GemvAndAttendComplete_gemv :
    tc (pv 0x39 (le 12 0 ++ le 4 1 ++ le 8 1 ++ le 8 0 ++ le 8 4096)) (setIn zeroSet base) (fun w s =>
      let b := slice w.req.payload 0 64
      has (setOf s (field b 0 2) (reqTid w.req)) fun x =>
        let p := gemvParams x b
        let k := (nth {} x.mats p.first).cols
        let ilen := p.batch * actStride p.af k
        let olen := p.batch * outStride p.bf (sumBy Mat.rows ((x.mats.drop p.first).take p.count))
        let i := rangeParts s w.ord (reqTid w.req) w.req.src ilen (field b 0x0C 3, field b 0x18 8, rightR)
        let o := rangeParts s w.ord (reqTid w.req) w.req.src olen (field b 0x10 3, field b 0x20 8, rightW)
        decide (x.st ≠ .lost) && decide (p.first < x.mats.length) && decide (i.1 = .ok) && decide (o.1 = .ok)
          && !(((x.mats.drop p.first).take p.count).any fun m => m.cols ≠ k)
          && !rangesOverlap (physRanges i.2) (physRanges o.2) && decide ((callEngines s x p).1 = .ok)
          && !earlierTo s w (field b 0x0C 3)
          && has (spanOf s (field b 0x10 3) (field b 0x20 8)) fun t => let g := descGate w.ord olen (some t) [] s
            decide (g.2 = .go) && got (fetchRange { w with outAt := some (t.g.idx, t.o, olen, 0) } 0 (field b 0x0C 3) (field b 0x18 8) ilen g.1)
              fun _ _ => true) = true := by decide +kernel
theorem test_meets_GemvAndAttendComplete_attend :
    tc (pv 0x42 (le 16 0 ++ le 4 1 ++ le 4 1 ++ le 8 0 ++ le 8 4096)) (kvIn base) (fun w s =>
      let b := slice w.req.payload 0 64
      has (kvOf s (field b 0 4) (reqTid w.req)) fun o =>
        let s := touchKv o.idx s
        let p := attParams o b
        let n := p.nq * p.heads
        let qlen := n * actStride p.qf o.headDim
        let olen := n * outStride p.bf o.headDim + 4 * n
        let i := rangeParts s w.ord (reqTid w.req) w.req.src qlen (field b 0x10 3, field b 0x18 8, rightR)
        let t := rangeParts s w.ord (reqTid w.req) w.req.src olen (field b 0x14 3, field b 0x20 8, rightW)
        decide (o.st ≠ .lost) && decide (field b 4 2 < o.layers) && !earlierKv s w o [0x41] (field b 4 2) 1
          && decide (i.1 = .ok) && decide (t.1 = .ok) && !rangesOverlap (physRanges i.2) (physRanges t.2)
          && decide ((attEngines s o p.layer p.ctx).1 = .ok)
          && has (spanOf s (field b 0x14 3) (field b 0x20 8)) fun t => let g := descGate w.ord olen (some t) [] s
            decide (g.2 = .go) && got (fetchRange { w with outAt := some (t.g.idx, t.o, olen, p.ctx) } 0 (field b 0x10 3) (field b 0x18 8) qlen g.1)
              fun _ _ => true) = true := by decide +kernel

theorem test_meets_GemvAndAttendComplete_gemv_work :
    (let s := setIn zeroSet base
     let p : GemvP := gemvParams zeroSet (le 12 0 ++ le 4 1 ++ le 8 1 ++ le 40 0)
     let tiles := (callEngines s zeroSet p).2.2
     let vecs := (List.range p.batch).map fun v => slice (List.replicate 256 0) (v * actStride p.af 64) (actStride p.af 64)
     let row := fun i => sumBy Mat.rows (((zeroSet.mats.drop p.first).take p.count).take (i - p.first))
     let r := callTiles {} zeroSet p vecs row 64 tiles { out := vecs.map fun _ => List.replicate 1 0 } s
     decide (tiles.length = 1) && decide (r.2.st = .ok) && has (regionAt s 1) fun g =>
       decide ((writeOut g 4096 (((List.range p.batch).zip (r.2.out.map (outBytes p.bf))).map fun b => (b.1 * outStride p.bf 1, b.2.1)) r.1).2.1
         = .ok)) = true := by decide +kernel
theorem test_meets_GemvAndAttendComplete_attend_work : has (kvAt (kvIn base) 0) (fun o =>
    let p := attParams o (List.replicate 64 0)
    let r := readHeads o p.layer p.ctx (List.range o.heads) (kvIn base)
    let ys := attOutputs o p (List.replicate 512 0) r.2
    !(r.2.any fun c => c.any Option.isNone) && has (regionAt (kvIn base) 1) fun g => decide ((writeOut g 4096
      ((((List.range ys.length).zip ys).map fun y => (y.1 * outStride p.bf o.headDim, y.2.1)) ++
        [(p.nq * p.heads * outStride p.bf o.headDim, (ys.map fun y => le 4 y.2.1.toNat).flatten)]) r.1).2.1 = .ok)) = true := by
  decide +kernel

theorem test_meets_KvObjectsComplete_create : tc (pv 0x40 (le 4 1)) base (fun w s =>
    has (objRegion s (reqTid w.req) (objField w)) fun g =>
      decide (g.st ≠ .revoking) && !w.sealLate && !writesPending s g.idx w.ord) = true ∧
    has (regionAt base 1) (fun g => let o : KvObj := { tid := 1, region := 1, maxTok := 256, stks := [0], lens := [0] };
      (kvRefuse base g o 0).isNone && (freeHandle base 5 (2 ^ 20) 0 (fun i => base.kv.objs.any fun x => x.idx = i)).isSome) = true := by
  decide +kernel

/-- An object with a reservation of frames for its pages. -/
def kvRes : State :=
  let s := kvIn base
  { s with kv := { s.kv with objs := s.kv.objs.map fun o => { o with resv := kvNeed o 0 (kvN o) } } }

theorem test_meets_KvObjectsComplete_append : tc (pv 0x41 (le 12 0 ++ le 4 1 ++ le 4 1)) kvRes (fun w s =>
    let b := slice w.req.payload 0 64
    has (kvOf s (field b 0 4) (reqTid w.req)) fun o =>
      let s := touchKv o.idx s
      let ln := clampTo 1 (o.layers - field b 4 2) (field b 6 2)
      let pos := field b 8 4
      let count := clampTo 0 65536 (field b 0x0C 4)
      let len := ln * count * o.heads * 2 * headBytes o.mx o.headDim
      decide (o.st ≠ .lost) && decide (field b 4 2 < o.layers) && decide (count = 1)
        && !earlierKv s w o [0x41, 0x42] (field b 4 2) ln && !attendFlies s o (field b 4 2) ln w.ord
        && decide ((rangeParts s w.ord (reqTid w.req) w.req.src len (field b 0x10 3, field b 0x18 8, rightR)).1 = .ok)
        && !(((List.range ln).map fun i => field b 4 2 + i).any fun l => decide (nth 0 o.lens l < pos))
        && !((touchedPages o (field b 4 2) ln pos count).any fun x => pageImmutable s o x.1 x.2.1 x.2.2)
        && decide (pos + count ≤ o.maxTok)
        && got (fetchRange w 0 (field b 0x10 3) (field b 0x18 8) len s) fun s d =>
          decide (((touchedPages o (field b 4 2) ln pos count).foldl (appendPage o.idx (field b 4 2) pos count d) (s, .ok, 0, 0)).2
            = (.ok, 1, 0))) = true := by decide +kernel
theorem test_meets_KvObjectsComplete_share : tc (pv 0x43 []) kvRes (fun w s =>
    has (kvOf s (field (slice w.req.payload 0 64) 0 4) (reqTid w.req)) fun o => decide (o.st ≠ .lost)
      && !earlierKv (touchKv o.idx s) w o [0x41] 0 o.layers
      && has (regionAt (touchKv o.idx s) o.region) fun g => decide (g.st ≠ .revoking)) = true := by decide +kernel
theorem test_meets_KvObjectsComplete_release : tc (pv 0x44 []) kvRes (fun w s =>
    has (kvOf s (field w.req.payload 0 4) (reqTid w.req)) fun o => !kvBusy s o) = true ∧
    (let s := applyEnv {} kvRes
     has (kvAt s 0) fun o => decide (o.idleMs ≠ 0) && decide (o.lastUse + o.idleMs * 1000000 ≤ s.now) && !kvBusy s o) = true := by
  decide +kernel

/-! Links and packets -/

/-- A module whose port 0 is mapped, lit and in a state. -/
def lk (f : LnkPort → LnkPort) : State := modPort 0 f { base with
  isl := { base.isl with portLock := 1 }, img := { base.img with ports := [{ mapped := true }] } }

/-- A test of the module and port 0 at its time. -/
def lp (f : LnkPort → LnkPort) (p : State → LnkPort → Bool) : Bool := let s := atTime 0 (lk f); p s (portAt s 0)

theorem test_meets_LinkTrains_down : lp id (fun s p => p.st == .down
    && mayTrain (modPort 0 (fun p => { p with signal := some s.now }) s) 0) = true := by decide +kernel
/-- Bytes of a flit with its CRC under a sequence, or with the next value in its place. -/
def flit (q off : Nat) (z : List Byte) : List Byte := z ++ le 8 (((crc64 (le 3 q ++ z)).toNat + off) % 2 ^ 64)

theorem ofLe_le (v : Nat) : ∀ n, ofLe (le n v) = v % 256 ^ n := by
  intro n
  induction n generalizing v with
  | zero => simp [le, ofLe, Nat.mod_one]
  | succ n ih =>
    rw [show 256 ^ (n + 1) = 256 * 256 ^ n from Nat.pow_succ', Nat.mod_mul, le, ofLe, ih, BitVec.toNat_ofNat]

theorem flit_crc (q off : Nat) (z : List Byte) (hz : z.length = 264) : crcHolds q (flit q off z)
    = decide (((crc64 (le 3 q ++ z)).toNat + off) % 2 ^ 64 = (crc64 (le 3 q ++ z)).toNat) := by
  have hl : ∀ v, (le 8 v).length = 8 := fun v => rfl
  have h1 : slice (flit q off z) 0 264 = z := by
    unfold slice flit
    rw [List.drop_zero, List.take_left' hz]; dsimp only; rw [hz]; exact List.append_nil z
  have h2 : slice (flit q off z) 264 8 = le 8 (((crc64 (le 3 q ++ z)).toNat + off) % 2 ^ 64) := by
    unfold slice flit
    rw [List.drop_left' hz, List.take_of_length_le (Nat.le_of_eq (hl _))]; exact List.append_nil _
  unfold crcHolds field
  rw [h1, h2, ofLe_le, show (256 ^ 8 : Nat) = 2 ^ 64 from rfl, Nat.mod_mod]

theorem crc_own (q h : Nat) (d : List Byte) : crcHolds q (flitBytes q h d) = true := by
  have hz : (le 8 h ++ slice d 0 256).length = 264 := by rw [List.length_append]; simp [slice]; rfl
  have e : flitBytes q h d = flit q 0 (le 8 h ++ slice d 0 256) := by
    unfold flitBytes flit
    rw [Nat.add_zero, Nat.mod_eq_of_lt (BitVec.isLt _)]
  rw [e, flit_crc _ _ _ hz, Nat.add_zero, Nat.mod_eq_of_lt (BitVec.isLt _)]
  exact decide_eq_true rfl

/-- A LINK_CTL flit of a message, without returns. -/
def ctlF (c : LinkCtl) : Bytes := flitBytes 0xFFFFFF 2 (ctlBytes c)

/-- Its type and message are read back, beside its CRC. -/
def spells (c : LinkCtl) : Bool :=
  flitType (ctlF c) == 2 && decide (ctlOf (slice (ctlF c) 8 64) = some c)

theorem test_meets_LinkTrains_crc (c : LinkCtl) : crcHolds 0xFFFFFF (ctlF c) = true := crc_own _ _ _
theorem test_meets_LinkTrains_flits : ([.trainParam 1 0 0xFF ownCredits, .rttProbe 9, .rttEcho 9] : List LinkCtl).all spells = true := by
  decide +kernel
theorem test_meets_LinkTrains_train : lp (fun p => { p with st := .train, lanesGood := 0xFF, since := 4000000000 }) (fun s p =>
    p.st == .train && !p.peerParams && decide (p.since + 150000000 ≤ s.now)
      && !badCredits ownCredits && decide (laneChoice p.sentWidth (min 3 0) p.lanesGood 0xFF = some (0, 0xFF))) = true ∧
    ([0, 14, 15] : List Nat).all (fun n => lp (fun p => { p with st := .train, peerParams := true, rttPairs := n }) (fun _ p =>
      p.st == .train && p.peerParams && (decide (p.rttPairs + 1 < 16) == decide (n < 15)))) = true := by decide +kernel
theorem test_meets_LinkTrains_verify : ([true, false] : List Bool).all (fun g =>
    lp (fun p => { p with st := .verify, since := 4000000000, nonce := 9, gotIdent := g }) (fun s p =>
      let s1 := (takeIngress 0 5 s).1
      p.st == .verify && !p.gotAck && p.gotIdent == g && decide (p.since + 20000000 ≤ s.now) && (portAt s1 0).st == .verify
        && (portAt s1 0).nonce == 9 && decide ((5 : Nat) ≠ s1.glb.node) && !(portCfg s1 0).verify
        && decide (s1.img.clusterId = 0))) = true := by decide +kernel

/-- An ACTIVE port that has heard nothing for a second. -/
def act (p : LnkPort) : LnkPort := { p with st := .active, lanesUsed := 0xFF, nbrNode := 7, nbrInc := 1, lpiPeer := true, lpiTx := true }

theorem test_meets_LinkLossAndManagementComplete_active : lp act (fun s p => let s1 := (takeIngress 0 5 s).1
    p.st == .active && decide (p.lastHbTx + 100000 ≤ s.now) && decide (p.lastHb + 400000 ≤ s.now)
      && laneFaulty (portAt (laneWindow 0 7 0 8 s) 0) 7 false && !laneFaulty (portAt (laneWindow 0 7 42500 7 s) 0) 7 false
      && (portAt s1 0).st == .active && (portAt s1 0).nbrNode == 7 && (portAt s1 0).nbrInc == 1) = true := by decide +kernel
theorem test_meets_LinkLossAndManagementComplete_reset : spells (.reset 4) = true ∧
    ([.train, .verify, .active] : List LinkState).all (fun x => lp (fun p => { p with st := x }) (fun s p =>
      p.st == x && (portAt (if carries p then flitReturns 0 (field (ctlF (.reset 4)) 0 8) s else s) 0).st == x)) = true := by decide +kernel
theorem test_meets_LinkLossAndManagementComplete_others : lp id (fun _ p => p.st == .down) = true ∧
    lp (fun p => { p with st := .reset }) (fun s p => p.st == .reset && decide (p.since + 1000 ≤ s.now)) = true ∧
    lp (fun p => { p with holdUntil := some 5000000000 }) (fun s p => has p.holdUntil fun u => decide (u ≤ s.now)) = true ∧
    lp (fun p => { p with signal := some 0, backoffUntil := 5000000000 }) (fun s _ => mayTrain s 0) = true := by decide +kernel

theorem test_meets_LinkFlitsComplete_crc (q : Nat) : crcHolds q (flit q 1 (List.replicate 264 0)) = false ∧
    (∀ h, crcHolds q (flitBytes q h []) = true) := by
  refine ⟨?_, fun h => crc_own q h []⟩
  rw [flit_crc _ _ _ List.length_replicate]
  have := (crc64 (le 3 q ++ List.replicate 264 0)).isLt
  generalize (crc64 (le 3 q ++ List.replicate 264 0)).toNat = c at *
  simp only [decide_eq_false_iff_not]; omega
theorem test_meets_LinkFlitsComplete_payload : (let s := applyAll {} (lk act)
    let p := portAt s 0
    carries p && !p.nak && p.rxReplayFrom.isNone && p.rxExp == 0 && flitType (flitBytes 0 0 []) == 0
      && flitType (flit 0 1 (List.replicate 264 0)) == 0 && carries (portAt (flitReturns 0 (field (flitBytes 0 0 []) 0 8) s) 0)) = true := by
  decide +kernel
theorem test_meets_LinkFlitsComplete_control : flitType (flitBytes 0xFFFFFF 1 []) = 1 ∧
    ([.nak 3, .replayStart 0, .credit ownCredits, .lpiEnter, .lpiExit] : List LinkCtl).all (fun c => spells c &&
      ([0, 3] : List Nat).all fun n => lp (fun p => { act p with txSeq := n, buf := [{ seq := 3 - n }] }) (fun s p =>
        let q := portAt (flitReturns 0 (field (ctlF c) 0 8) s) 0
        carries p && carries q && q.st == .active && q.rxExp == 0 && (q.txSeq == 3 || q.buf.any fun x => x.seq == 3))) = true := by
  decide +kernel
theorem test_meets_LinkFlitsComplete_timers : lp (fun p => { act p with unacked := 1, buf := [{ seq := 3 }] }) (fun s p =>
      carries p && ackDue s.now p && !p.buf.isEmpty && decide (p.timer + replayTo p ≤ s.now) && p.st == .active && p.lpiTx && p.lpiPeer
        && decide (p.lastBurst + 40000 ≤ s.now)) = true ∧
    lp (fun p => { p with st := .verify }) (fun _ p => carries p && !p.lpiTx) = true := by decide +kernel
theorem test_meets_LinkLossAndManagementComplete_management : sv (lk act) (fun s => (portCfg s 0).mapped) = true := by decide +kernel

/-- The module is node 3 with a route to group 0 by port 1, a packet in the ingress of port 0, and the held state of peer 16 with an
idle space. -/
def netWith (b : Bytes) (p : Peer → Peer) : State :=
  let s := modPort 1 (fun p => { act p with crdPeer := ownCredits }) (lk act)
  { s with
    glb := { s.glb with node := 3 }
    rte := { s.rte with copy0 := [3], live := 3 }
    lnk := { s.lnk with ingress := [{ port := 0, tc := 0, bytes := b }] }
    e2e := { s.e2e with peers := [p { node := 16, inc := 5, incOk := true }] } }

/-- The same without a packet. -/
def net (p : Peer → Peer) : State := let s := netWith [] p; { s with lnk := { s.lnk with ingress := [] } }

/-- A packet comes in by port 0, with a header that is its own, and leads with what arrives of it to a state that satisfies a test. -/
def came (q : Pkt) (p : Pkt → State → Bool) : Bool :=
  let s := applyEvery {} (netWith (pktHeader { q with sealed := false } ++ List.replicate 40 0) id)
  decide (s.boot.st ≠ .bivouac) && s.e2e.bivHeld.isEmpty && reachable s && (match takeIngress 0 q.tc s with
    | (s, some a) => p (withClass (if a.demoted then 2 else a.tc) (arrived a.bytes q)) (critRead 0x19 s)
    | _ => false)

theorem test_meets_PacketsAreLocalOrForwarded : came { dst := 3, src := 16 } (fun q s => q.dst == s.glb.node) = true ∧
    came { dst := 9, src := 16 } (fun q s => q.dst != s.glb.node) = true := by decide +kernel
theorem test_meets_PacketsComplete_forward : ([(false, 7, some 1), (true, 7, none), (false, 0, some 1)] : List (Bool × Nat × Option Nat)).all (fun x =>
    came { dst := 9, src := 16, epoch := x.1, hops := x.2.1 } (fun q s => decide (q.dst ≠ s.glb.node)
      && (decide (min 12 q.hops = 0) == decide (x.2.1 = 0))
      && (choosePort 0 (1 + q.pslots) none (liveSet s q.epoch (groupOf q.dst) &&& ~~~ (1#64 <<< 0)) s).2 == x.2.2)) = true := by
  decide +kernel
theorem test_meets_PacketsComplete_age : let s := atTime 0 (lk fun p => { act p with eg := [{ transit := some 1 }] })
    has (transitPkts s)[0]? (fun x => decide (x.2.arrived + 8000 < s.now)) = true := by decide +kernel

/-- A sealed packet of peer 16 for the module. -/
def pk (b : Body) : Pkt :=
  { dst := 3, src := 16, srcInc := 5, incV := true, dstInc := incarnation base, sealed := true, sealOk := true, body := b }

theorem test_meets_PacketsComplete_local : ([.req rq, .stream {}, .ack {}] : List Body).all (fun b => came (pk b) (fun q s =>
    decide (q.dst = s.glb.node) && decide (q.body = b) && !isBlocked s 16 && q.incV && decide (q.dstInc = incarnation s) && q.src == 16
      && (has (peerOf s 16 false) fun h => h.incOk && h.inc == q.srcInc) && decide (sealCheck s false q = .pass)
      && decide (liveSet (critRead 0x00 s) s.rte.sel (groupOf 16) ≠ 0)
      && (peerOf (if hasSession s 16 then modSec 16 (fun x => { x with last := s.now }) s else s) 16 false).isSome)) = true := by
  decide +kernel

theorem test_meets_EndToEndTimersComplete_ack : let s := atTime 0 (net fun p => { p with sp0 := { p.sp0 with dlv := 1 } })
    (reachable s && (has (peerOf s 16 false) fun p => (spaceOf p false).held.isEmpty && decide (0 < (spaceOf p false).dlv))
      && (peerOf (sendAck 16 false false s) 16 true).isNone) = true := by decide +kernel
theorem test_meets_EndToEndTimersComplete_retransmit : ([1, 6] : List Nat).all (fun n =>
    let s := atTime 0 (net fun p => { p with sp0 := { p.sp0 with sent := [{ seq := 2, count := n }] } })
    reachable s && has (peerOf s 16 false) fun p => has ((spaceOf p false).sent.find? fun x => x.seq = 2) fun x =>
      !x.reported && decide (x.sentAt + s.img.rtoUs * 1000 ≤ s.now) && x.count == n
        && (peerOf (retransmit p false x s) 16 true).isNone && (peerOf (peerLost 16 s) 16 true).isNone) = true := by decide +kernel
theorem test_meets_EndToEndTimersComplete_drain : let s := atTime 0 (net fun p => { p with draining := true })
    (match s.e2e.peers.filter fun p => p.node = 16 && p.draining with | [p] => peerIdle s p | _ => false) = true := by decide +kernel
theorem test_meets_EndToEndTimersComplete_epoch : let s := atTime 0 { base with rte := { base.rte with draining := true } }
    (s.rte.draining && decide (s.rte.flipAt + 100000 ≤ s.now)) = true ∧
    sv base (fun s => !(critRead 0x00 s).rte.draining) = true ∧
    sv { base with rte := { base.rte with sel := true } } (fun s =>
      decide (decide ((selsOf s (.mgmt 7)).rteCopy % 2 = 1) ≠ (critRead 0x00 s).rte.sel)) = true := by decide +kernel

/-! Lenders, service, integrity -/

/-- Requests that wait for an answer of the lender of anchor 2 by TAG 5, or of mirror peer 900 by TAG 6. -/
def owed (w : Waiting) : State := { base with
  vrb := { base.vrb with waiting := [w] }
  pool := { base.pool with anchors := [{ idx := 2, lender := 77 }], ancTags := [(5, 2)], mirTags := [(6, 900)] } }

/-- What is left when the TAG of the lender's answer is spent. -/
def answered (w : Waiting) (p : State → Bool) : Bool :=
  let s := applyEnv {} (owed w)
  decide (assoc 5 s.pool.ancTags = some 2) && (has (anchorAt s 2) fun x => x.lender == 77)
    && p (setPool (fun q => { q with ancTags := q.ancTags.filter fun t => t.1 ≠ 5 }) s)

theorem test_meets_LenderAnswersComplete_anchor :
    answered { op := 2, req := st 2 [1], why := .anchorWr [5] .ok [] } (fun s =>
      has (s.vrb.waiting.find? (waitsTag 5)) fun w => w.why = .anchorWr [5] .ok []) = true ∧
    answered { op := 1, req := { rq with opcode := 1 }, why := .anchorRd [(5, 0)] [] } (fun s =>
      has (s.vrb.waiting.find? (waitsTag 5)) fun w => decide (w.why = .anchorRd [(5, 0)] []) && w.op == 1 && !w.dirty) = true := by
  decide +kernel
theorem test_meets_LenderAnswersComplete_mirror : let s := applyEnv {} (owed { op := 2, req := st 2 [1], why := .mirror [6] {} })
    ((s.pool.mirTags.any fun t => t == (6, 900)) && has ((setPool (fun q => { q with mirTags := q.mirTags.filter fun t => t.1 ≠ 6 })
      s).vrb.waiting.find? (waitsTag 6)) fun w => decide (w.why = .mirror [6] {}) && w.op == 2) = true := by decide +kernel

theorem test_meets_ServiceCompletes_shaper : sv { base with sels := [(.mgmt 7, { qosTid := 1 })] } (fun s =>
    let tid := (selsOf s (.mgmt 7)).qosTid % 4096
    tid == 1 && (has (tenantOf s tid) fun y => y.enabled) && !isPart s tid) = true := by decide +kernel
theorem test_meets_ServiceCompletes_stack : let s := atTime 0 base
    (stackServes s 0 && !(stackAt s 0).selfRef && decide ((stackAt s 0).lastUse + 50000 ≤ s.now) && !enginesBusy s 0 && !passRuns s)
      = true := by decide +kernel
theorem test_meets_ServiceCompletes_training : ([0, 1] : List Nat).all (fun n =>
    let s := applyEnv {} (modStack 0 (fun x => { x with chFails := [(3, n)], lastTrain := [(3, 4900000000)] }) base)
    stackServes s 0 && (has (assoc 3 (stackAt s 0).lastTrain) fun u => decide (u + 100000000 ≤ s.now))
      && (assoc 4 (stackAt s 0).lastTrain).isNone && assocD 0 3 (stackAt s 0).chFails == n) = true := by decide +kernel

theorem test_meets_RetirementAndScrubComplete_retirement : ([0, 256] : List Nat).all (fun n => sv (modStack 0 (fun x => { x with spareUsed := n }) base) (fun s =>
      stackServes s 0 && decide (0xFFEFF < spareBase) && !((stackAt s 0).remapping.any fun r => r.1 = 0xFFEFF)
        && (stackAt s 0).spareUsed == n)) = true ∧
    ((stackAt (applyEnv {} (modStack 0 (fun x => { x with remapping := [(8, spareBase, 0)] }) base)) 0).remapping.find? fun r => r.1 = 8)
      = some (8, spareBase, 0) := by decide +kernel

/-- The TRV registers of a page. -/
def trv (p : TrvPage) : State := { base with trv := { base.trv with pages := [p] } }

theorem test_meets_RetirementAndScrubComplete_start : sv base (fun s => decide ((trvPage s (trvPageOf (.mgmt 7))).st ≠ .running)
      && decide (countIf (fun q => q.st == .running) s.trv.pages < 8)) = true ∧
    ([1, 9] : List (BitVec 32)).all (fun h => let s := atTime 0 (applyEnv {} (trv { tid := 1, tgt := h }))
      reachable s && (let p := trvPage s 1
        p.st != .running && (decide (trvCheck s 1 16 (p.tgt.toNat % 2 ^ 24) 0 128 = .ok) == decide (h = 1)))) = true := by
  decide +kernel
theorem test_meets_RetirementAndScrubComplete_end : (sv (trv { st := .running }) fun s => (trvPage s 0xFFFF).st == .running) = true ∧
    ([true, false] : List Bool).all (fun l => let p := trvPage (applyEnv {} (trv { st := .running, stackLost := l })) 0xFFFF
      p.st == .running && p.stackLost == l && p.tid == 0xFFFF) = true ∧
    (let s := applyEnv {} (trv { tid := 1, st := .running, pTgt := 1 })
     let p := trvPage s 1
     p.st == .running && !p.stackLost && p.tid == 1 && has (passRegion s p) fun x => !x.2.1.exts.any fun y => y.lost) = true := by
  decide +kernel

theorem test_meets_InjectionCompletes_reads : sv base (fun s => decide ((selsOf s (.mgmt 7)).eccStk % 32 = 0)) = true ∧
    (atTime 0 { base with img := { base.img with ceBucket := true } }).img.ceBucket = true := by decide +kernel
theorem test_meets_InjectionCompletes : sv base (fun s => s.ecc.injArmed.isNone
      && unitIsFree s (injStack s (100 * 2 ^ 14)) (injUnit (100 * 2 ^ 14))) = true ∧
    sv { base with ecc := { base.ecc with injArmed := some (0, 100) } } (fun s => s.ecc.injArmed == some (0, 100)
      && armedAt s (injPa s (100 * 2 ^ 14)) && !armedAt s (injPa s 0)) = true := by decide +kernel

/-! Security, control, Belay -/

theorem test_meets_RootOfTrustCompletes : sv base (fun s => !sysSignerOk s [0xFF] || !sysFree s (sysSlot [0xFF])) = true ∧
    (atTime 0 base).onx.drbgEver = false := by decide +kernel

/-- Two image keys are programmed and a challenge is valid. -/
def signing : State := { base with fuse := { base.fuse with prog := 3 }, onx := { base.onx with nonce := some 7 } }

/-- What a signature, whose verification is a constant without a value, leaves to ask of SYSKEY_PROGRAM and SYSKEY_REVOKE. -/
theorem test_meets_RootOfTrustCompletes_signer : sv signing (fun s => sysSignerOk s [11, 0] && sysFree s (sysSlot [11, 0])
    && sysSignerOk s [1, 0] && imageKeyLeft s (sysSlot [1, 0]) && !s.onx.drbgFail && (draw 8 s).2.length == 8) = true := by decide +kernel

/-- An SPDM request of a node that a packet carries. -/
def sp (node : Nat) (f : SpdmIn → SpdmIn) : SpdmIn :=
  f { req := { rq with src := node, opcode := 0x7F, subop := 1, tc := 2, payload := List.replicate 64 0, len := 4 } }

/-- The SPDM request of a code is taken, in a state that satisfies a test. -/
def spdm (m : SpdmIn) (c : Nat) (s : State) (p : SpdmIn → Waiting → State → Bool) : Bool :=
  let q := asCode m c
  m.sess.isNone && (match taken { q.req with opcode := 0x7F, subop := 1 } { t := m.t } s with
    | some (w, s0) => ctlFits w.req && p q w s0
    | none => false)

/-- Peer 16 has a security state. -/
def sec16 (p : SecPeer) : State := { base with sec := { base.sec with peers := [{ p with node := 16 }] } }

/-- A node's request waits while an earlier one of it is in the inbox. -/
def waitingSpdm : State := { base with vrb := { base.vrb with
  nextOrd := 1, waiting := [{ op := 0x7F, req := { rq with opcode := 0x7F, subop := 1, tag := 4 }, why := .inbox, ord := 0 }] } }

theorem test_meets_SpdmCompletes_requests : ([(base, false), (waitingSpdm, true)] : List (State × Bool)).all (fun x =>
    spdm (sp 16 id) 0x84 x.1 fun _ w s => carryBusy s w == x.2) = true ∧ sv base (fun _ => true) = true := by decide +kernel
theorem test_meets_SpdmCompletes_exchange : spdm (sp 16 id) 0xE4 (sec16 { negotiated := 3 }) (fun q w s =>
    !carryBusy s w && !s.onx.drbgFail && (makeSessionRoom s).2 && has (secOf s q.req.src) fun p =>
      decide (p.st ≠ .active) && decide (p.st ≠ .handshake) && decide (p.negotiated = 3)) = true := by decide +kernel
theorem test_meets_SpdmCompletes_finish : spdm (sp 16 fun m => { m with root := some 8 }) 0xE5
    { sec16 { st := .handshake } with fuse := { base.fuse with prog := 0xFFFF } } (fun q w s =>
      !carryBusy s w && !w.prov && q.ok && decide (q.root = some 8) && keyUsable s 8 && has (secOf s q.req.src) fun p =>
        decide (p.st = .handshake) && !p.requester) = true := by decide +kernel
theorem test_meets_SpdmCompletes_session : ([1, 2] : List Byte).all (fun op =>
    spdm (sp 16 fun m => { m with req := { m.req with payload := 0 :: 0 :: op :: List.replicate 61 0 } }) 0xE9 base (fun q w s =>
      !carryBusy s w && hasSession s q.req.src && decide (field q.req.payload 2 1 = op.toNat))) = true ∧
    spdm (sp 16 id) 0xEC base (fun q w s => !carryBusy s w && hasSession s q.req.src) = true := by decide +kernel

/-- Control processors whose Second is in a state, with a cycle awaited. -/
def cps (x : CpState) (aw : Option (BitVec 32)) (dt : Nat) : State :=
  let c := { base.cp with awaiting := aw, deltaAt := dt, chk := 3 }
  { base with cp := { c with lead := 0, cp0 := { c.cp0 with st := .lead }, cp1 := { c.cp1 with st := x } } }

theorem test_meets_ControlCompletes_processors : ([.second, .resync] : List CpState).all (fun x =>
    let s := atTime 0 (cps x (some 1) 4999999000)
    cpsRun s && copies s && decide (s.cp.awaiting = some 1) && decide (s.now ≤ s.cp.deltaAt + 5000)
      && decide ((cpAt s (otherCp s)).st = x) && decide ((4 : BitVec 64) ≠ s.cp.chk)) = true ∧
    ([some 1, none] : List (Option (BitVec 32))).all (fun a => let s := atTime 0 (cps .second a 4000000000)
      cpsRun s && decide (s.cp.awaiting = a) && decide (s.cp.deltaAt + 20000 ≤ s.now) && decide ((cpAt s (otherCp s)).st = .second)) = true ∧
    sv (cps .second none 0) (fun s => cpsRun s && decide ((cpAt s s.cp.lead.val).st = .lead)
      && decide ((cpAt s (otherCp s)).st = .second)) = true := by decide +kernel
theorem test_meets_ControlCompletes_cairn : sv { base with crn := { base.crn with q := [{ seq := 4 }] } } (fun s => !s.crn.q.isEmpty)
      = true ∧
    (let s := atTime 0 { base with crn := { base.crn with critFull := true } }
     s.crn.critFull && decide (s.crn.q.length < 1024) && s.crn.lastFullAlert.isNone) = true ∧
    (let s := atTime 0 { base with crn := { base.crn with critFull := true, lastFullAlert := some 4000000000 } }
     has s.crn.lastFullAlert fun u => decide (u + 1000000000 ≤ s.now)) = true := by decide +kernel

/-- Belay has filtered a power of the module. -/
def pow (f : Int) (low : Nat) : State :=
  modChan 76 (fun c => { c with filt := f, n := 5 }) { base with bel := { base.bel with lowMs := low } }

theorem test_meets_BelayCompletes : (atTime 0 base).isl.belayOn = true ∧
    (let s := atTime 0 (pow 100000 0)
     decides s 76 (chanAt s 76) && decide ((s.bel.capW : Int) < (chanAt s 76).filt)) = true ∧
    (let s := atTime 0 (pow 0 9)
     decides s 76 (chanAt s 76) && decide (10 * (chanAt s 76).filt < 9 * (s.bel.capW : Int))
      && decide ((chanAt s 76).filt ≤ (s.bel.capW : Int)) && decide (9 ≤ s.bel.lowMs)) = true ∧
    coreOn (atTime 0 { State.reset with isl := { State.reset.isl with belayOn := true } }) = false := by decide +kernel
theorem test_meets_BelayCompletes_lasers : ([(.active, .standby), (.standby, .active)] : List (LaserState × LaserState)).all (fun x =>
    sv { base with pwr := { base.pwr with laserA := x.1, laserB := x.2 } } (fun s =>
      decide (s.pwr.laserA = x.1) && decide (s.pwr.laserB = x.2))) = true := by decide +kernel

/-! Rules of the specification -/

theorem test_meets_SlotOutOfPlaceResetsTheLink : ((portAt (lk fun p => { act p with rxOpen := [(8, 1, [])] }) 0).rxOpen.any fun x =>
      x.1 % 8 = 0) = true ∧ (portAt (lk act) 0).st = .active ∧ (portAt (lk act) 0).rxOpen = [] := by decide +kernel
theorem test_meets_PortsBackOff : (portAt (lk fun p => { p with st := .train }) 0).st = .train ∧
    (lk fun p => { p with backoffUntil := 5000000001 }).now < (portAt (lk fun p => { p with backoffUntil := 5000000001 }) 0).backoffUntil := by
  decide +kernel
theorem test_meets_StacksWithObjectsAreBusy : sv withSet (fun s => s.ws.sets.any fun w => w.runs.any fun r => r.1 == 0) = true ∧
    sv { base with kv := { base.kv with objs := [{ tid := 1, region := 1, pages := [{ frame := { stack := 31 } }] }] } } (fun s =>
      s.kv.objs.any fun o => o.pages.any fun p => p.frame.stack == 31) = true := by decide +kernel
theorem test_meets_TheOldestRecordIsPopped : sv { base with crn := { base.crn with q := [{ seq := 4 }] } } (fun s =>
    has s.crn.q.head? fun r => decide (r.seq = 4) && decide (r.seq ≠ 5)) = true := by decide +kernel
theorem test_meets_BlocksOfANode : (3 : BitVec 64).getLsbD 0 = true ∧ (3 : BitVec 64).getLsbD 1 = true ∧ sv base (fun s =>
      (secOf s ((selsOf s (.mgmt 7)).sec % 2 ^ 20)).isNone) = true ∧
    sv (sec16 { st := .blockedMgmt }) (fun s => isBlocked s (16 % 2 ^ 20)) = true := by decide +kernel
theorem test_meets_IntegerAndTernaryElements : (List.replicate 16 (0x9C : Byte)).length = 16 ∧
    (blockCodes (wfmtOf 3) (List.replicate 16 0x9C)).take 4 = [0, 3, 1, 2] := by decide +kernel

end Sys2Proof.Tests
end

section
/-! SUPPORT. What holds of every command: it answers a next state, it keeps to its footprint, and it goes onward. -/

namespace Sys2Proof.Machine

/-- A list of pieces as the set of pieces that Keeps speaks of. -/
def pieceSet (l : List Piece) : Nat := l.foldr (fun p m => 2 ^ p.idx ||| m) 0

theorem Piece.idx_eq_ctorIdx (p : Piece) : p.idx = p.ctorIdx := by cases p <;> rfl

theorem Piece.idx_injective {p q : Piece} (h : p.idx = q.idx) : p = q := by
  rw [p.idx_eq_ctorIdx, q.idx_eq_ctorIdx] at h
  rw [← Piece.ofNat_ctorIdx p, h, Piece.ofNat_ctorIdx]

theorem testBit_pieceSet_of_notMem {p : Piece} {l : List Piece} (h : p ∉ l) : (pieceSet l).testBit p.idx = false := by
  induction l with
  | nil => exact Nat.zero_testBit _
  | cons q l ih =>
    obtain ⟨hne, hl⟩ := not_or.1 (List.mem_cons.not.1 h)
    have hbit : q.idx ≠ p.idx := fun e => hne (Piece.idx_injective e.symm)
    have hstep : pieceSet (q :: l) = 2 ^ q.idx ||| pieceSet l := rfl
    rw [hstep, Nat.testBit_or, Nat.testBit_two_pow_of_ne hbit, ih hl, Bool.or_self]

/-- Keeping to the set of a list leaves the pieces outside the list alone. -/
theorem Keeps.agreeOff {l : List Piece} {s t : State} (h : Keeps (pieceSet l) s t) : AgreeOff l s t :=
  fun p hp => h.agree p (testBit_pieceSet_of_notMem hp)

theorem onward_pending (l : List Instr) (s : State) : Onward s { s with pending := l } :=
  ⟨Nat.le_refl _, Nat.le_refl _, Nat.le_refl _, List.prefix_refl _, rfl, BitVec.and_self, BitVec.and_self⟩

/-- Every command keeps to its footprint: command by command, what its meaning can touch. -/
theorem exec_keeps (c : Instr) (s : State) : KeepsX (pieceSet (footprint c)) s (exec c s) :=
  match c with
  | .powerOn b => execPowerOn_keeps b s
  | .enRise t => execEnRise_keeps t s
  | .enFall t => execEnFall_keeps t s
  | .resetNAssert dur t => execResetNAssert_keeps dur t s
  | .startSequence b => execStartSequence_keeps b s
  | .poolOpen t => execPoolOpen_keeps t s
  | .backoffExpiry t => execBackoffExpiry_keeps t s
  | .autoRestart t => execAutoRestart_keeps t s
  | .belayHeartbeatLoss t => execBelayHeartbeatLoss_keeps t s
  | .pllLossOfLock island t => execPllLossOfLock_keeps island t s
  | .portPllRelock port t => execPortPllRelock_keeps port t s
  | .moduleReset sess t => execModuleReset_keeps sess t s
  | .leaveContextTimeout t => execLeaveContextTimeout_keeps t s
  | .bivouacEnter sess t => execBivouacEnter_keeps sess t s
  | .bivouacAutoEntry t => execBivouacAutoEntry_keeps t s
  | .bivouacWake w => execBivouacWake_keeps w s
  | .inputOvervoltage mv t => execInputOvervoltage_keeps mv t s
  | .inputDropout durUs t => execInputDropout_keeps durUs t s
  | .imageStageBegin sess t => execImageStageBegin_keeps sess t s
  | .imageStageWrite sess ofs data t => execImageStageWrite_keeps sess ofs data t s
  | .imageStageVerify sess t => execImageStageVerify_keeps sess t s
  | .imageStageCommit sess t => execImageStageCommit_keeps sess t s
  | .imageStageAbort sess t => execImageStageAbort_keeps sess t s
  | .mgmtSessionClose sess t => execMgmtSessionClose_keeps sess t s
  | .mgmtTlsHandshake h => execMgmtTlsHandshake_keeps h s
  | .mgmtSessionIdleTimeout sess t => execMgmtSessionIdleTimeout_keeps sess t s
  | .regRead sess addr count t => execRegRead_keeps sess addr count t s
  | .regWrite sess addr v e => execRegWrite_keeps sess addr v e s
  | .tenantPageAccess r e => execTenantPageAccess_keeps r e s
  | .regionCreate r e => execRegionCreate_keeps r e s
  | .regionRepair r e => execRegionRepair_keeps r e s
  | .regionDegrade r e => execRegionDegrade_keeps r e s
  | .windowCreate r e => execWindowCreate_keeps r e s
  | .windowGrant r e => execWindowGrant_keeps r e s
  | .revokeGrant r e => execRevokeGrant_keeps r e s
  | .revokeWindow r e => execRevokeWindow_keeps r e s
  | .revokeRegion r e => execRevokeRegion_keeps r e s
  | .revokeTenant sess tid e => execRevokeTenant_keeps sess tid e s
  | .revokeDrainDone idx e => execRevokeDrainDone_keeps idx e s
  | .revokePinTimeout idx e => execRevokePinTimeout_keeps idx e s
  | .revokeOverwriteDone idx e => execRevokeOverwriteDone_keeps idx e s
  | .mirrorBind r e => execMirrorBind_keeps r e s
  | .mirrorWrite r e => execMirrorWrite_keeps r e s
  | .mirrorHbSend e => execMirrorHbSend_keeps e s
  | .mirrorHb r e => execMirrorHb_keeps r e s
  | .mirrorFence region e => execMirrorFence_keeps region e s
  | .shadowOpen region e => execShadowOpen_keeps region e s
  | .handoff r e => execHandoff_keeps r e s
  | .mirrorBreak r e => execMirrorBreak_keeps r e s
  | .anchorLend r e => execAnchorLend_keeps r e s
  | .anchorRenew t => execAnchorRenew_keeps t s
  | .anchorResponse node p e => execAnchorResponse_keeps node p e s
  | .anchorReclaim r e => execAnchorReclaim_keeps r e s
  | .prefetch r e => execPrefetch_keeps r e s
  | .adviseWillNeed r e => execAdviseWillNeed_keeps r e s
  | .adviseDontNeed r e => execAdviseDontNeed_keeps r e s
  | .adviseReadMostly r e => execAdviseReadMostly_keeps r e s
  | .advisePin r e => execAdvisePin_keeps r e s
  | .stackRetire sess stk e => execStackRetire_keeps sess stk e s
  | .extentMigrationDone region ext e => execExtentMigrationDone_keeps region ext e s
  | .stackFail stk e => execStackFail_keeps stk e s
  | .dieToDieModuleOut stk m e => execDieToDieModuleOut_keeps stk m e s
  | .load r e => execLoad_keeps r e s
  | .loadCached r e => execLoadCached_keeps r e s
  | .store r e => execStore_keeps r e s
  | .storeNotify r e => execStoreNotify_keeps r e s
  | .storeNotifyRelease src tag e => execStoreNotifyRelease_keeps src tag e s
  | .atomicFetch r e => execAtomicFetch_keeps r e s
  | .atomicAdd r e => execAtomicAdd_keeps r e s
  | .atomicSwap r e => execAtomicSwap_keeps r e s
  | .atomicCas r e => execAtomicCas_keeps r e s
  | .atomicMin r e => execAtomicMin_keeps r e s
  | .atomicMax r e => execAtomicMax_keeps r e s
  | .cohAttach r e => execCohAttach_keeps r e s
  | .cohDetach r e => execCohDetach_keeps r e s
  | .cohRenew r e => execCohRenew_keeps r e s
  | .writeback r e => execWriteback_keeps r e s
  | .invalAck r e => execInvalAck_keeps r e s
  | .recallAckNodata r e => execRecallAckNodata_keeps r e s
  | .recallAckData r e => execRecallAckData_keeps r e s
  | .recallAckWbSent r e => execRecallAckWbSent_keeps r e s
  | .cohRevokeAck r e => execCohRevokeAck_keeps r e s
  | .cohDeclareLostZero r e => execCohDeclareLostZero_keeps r e s
  | .cohDeclareLostStale r e => execCohDeclareLostStale_keeps r e s
  | .cohLmQuery r e => execCohLmQuery_keeps r e s
  | .leaseExpiry region slot e => execLeaseExpiry_keeps region slot e s
  | .cohSweepDone region slot e => execCohSweepDone_keeps region slot e s
  | .bqCreate r e => execBqCreate_keeps r e s
  | .bqDestroy r e => execBqDestroy_keeps r e s
  | .bulkSubmit r e => execBulkSubmit_keeps r e s
  | .bulkDoorbell r e => execBulkDoorbell_keeps r e s
  | .descriptorStart q e => execDescriptorStart_keeps q e s
  | .descNop q e => execDescNop_keeps q e s
  | .descFill q e => execDescFill_keeps q e s
  | .descCopy q e => execDescCopy_keeps q e s
  | .descCompare q e => execDescCompare_keeps q e s
  | .descReduce q e => execDescReduce_keeps q e s
  | .descriptorComplete q e => execDescriptorComplete_keeps q e s
  | .queryCaps r e => execQueryCaps_keeps r e s
  | .spdmCarry r e => execSpdmCarry_keeps r e s
  | .eventReceived r e => execEventReceived_keeps r e s
  | .loadInterval t => execLoadInterval_keeps t s
  | .planLoad r e => execPlanLoad_keeps r e s
  | .planUnload r e => execPlanUnload_keeps r e s
  | .planRun r e => execPlanRun_keeps r e s
  | .planRunEnd plan e => execPlanRunEnd_keeps plan e s
  | .opNop eng e => execOpNop_keeps eng e s
  | .opMove eng e => execOpMove_keeps eng e s
  | .opGemv eng e => execOpGemv_keeps eng e s
  | .opAttend eng e => execOpAttend_keeps eng e s
  | .opEwiseAdd eng e => execOpEwiseAdd_keeps eng e s
  | .opEwiseMul eng e => execOpEwiseMul_keeps eng e s
  | .opEwiseMax eng e => execOpEwiseMax_keeps eng e s
  | .opEwiseScale eng e => execOpEwiseScale_keeps eng e s
  | .opEwiseConvert eng e => execOpEwiseConvert_keeps eng e s
  | .opReduce eng e => execOpReduce_keeps eng e s
  | .opSend eng e => execOpSend_keeps eng e s
  | .opRecv eng e => execOpRecv_keeps eng e s
  | .opBankOwn eng e => execOpBankOwn_keeps eng e s
  | .opBarrier eng e => execOpBarrier_keeps eng e s
  | .opEnd eng e => execOpEnd_keeps eng e s
  | .barrierDefine r e => execBarrierDefine_keeps r e s
  | .barrierFree r e => execBarrierFree_keeps r e s
  | .syncArrive r e => execSyncArrive_keeps r e s
  | .syncWait r e => execSyncWait_keeps r e s
  | .syncWaitTimeout src tag e => execSyncWaitTimeout_keeps src tag e s
  | .deadlockDetect plan e => execDeadlockDetect_keeps plan e s
  | .feParkActRetry q rec e => execFeParkActRetry_keeps q rec e s
  | .feParkActAbort q rec e => execFeParkActAbort_keeps q rec e s
  | .engineHang eng e => execEngineHang_keeps eng e s
  | .engineSelftest stk pos pass e => execEngineSelftest_keeps stk pos pass e s
  | .spareRemapDone eng e => execSpareRemapDone_keeps eng e s
  | .abftReexecDone eng e => execAbftReexecDone_keeps eng e s
  | .feBankOwnWrite q eng v e => execFeBankOwnWrite_keeps q eng v e s
  | .feAbftClr q e => execFeAbftClr_keeps q e s
  | .wsLoad r e => execWsLoad_keeps r e s
  | .wsGemv r e => execWsGemv_keeps r e s
  | .wsRelease r e => execWsRelease_keeps r e s
  | .kvCreate r e => execKvCreate_keeps r e s
  | .kvAppend r e => execKvAppend_keeps r e s
  | .kvAttend r e => execKvAttend_keeps r e s
  | .kvSharePrefix r e => execKvSharePrefix_keeps r e s
  | .kvRelease r e => execKvRelease_keeps r e s
  | .kvExpired obj e => execKvExpired_keeps obj e s
  | .signalDetect port m => execSignalDetect_keeps port m s
  | .trainParam port head param counts tail t => execTrainParam_keeps port head param counts tail t s
  | .rttProbe port flit t => execRttProbe_keeps port flit t s
  | .rttEcho port flit t => execRttEcho_keeps port flit t s
  | .trainTimeout port t => execTrainTimeout_keeps port t s
  | .identSend port t => execIdentSend_keeps port t s
  | .ident port m t => execIdent_keeps port m t s
  | .identAck port m t => execIdentAck_keeps port m t s
  | .verifyTimeout port t => execVerifyTimeout_keeps port t s
  | .heartbeatSend port t => execHeartbeatSend_keeps port t s
  | .heartbeat port m t => execHeartbeat_keeps port m t s
  | .hbLoss port t => execHbLoss_keeps port t s
  | .leave port t => execLeave_keeps port t s
  | .los port t => execLos_keeps port t s
  | .resetFlit port flit t => execResetFlit_keeps port flit t s
  | .linkResetExit port t => execLinkResetExit_keeps port t s
  | .laneFault port lane w => execLaneFault_keeps port lane w s
  | .laneExclusionExpiry port lane t => execLaneExclusionExpiry_keeps port lane t s
  | .flapHoldExpiry port t => execFlapHoldExpiry_keeps port t s
  | .trainingBackoffExpiry port t => execTrainingBackoffExpiry_keeps port t s
  | .payload port flit e => execPayload_keeps port flit e s
  | .idle port flit t => execIdle_keeps port flit t s
  | .linkAckSend port t => execLinkAckSend_keeps port t s
  | .nak port flit t => execNak_keeps port flit t s
  | .replayStart port flit t => execReplayStart_keeps port flit t s
  | .replayTimeout port t => execReplayTimeout_keeps port t s
  | .credit port flit t => execCredit_keeps port flit t s
  | .creditSend port t => execCreditSend_keeps port t s
  | .lpiEnter port f => execLpiEnter_keeps port f s
  | .lpiExit port f => execLpiExit_keeps port f s
  | .lpiBurst port t => execLpiBurst_keeps port t s
  | .keepaliveLoss port t => execKeepaliveLoss_keeps port t s
  | .retrain sess port t => execRetrain_keeps sess port t s
  | .clearHold sess port t => execClearHold_keeps sess port t s
  | .adminDown sess port v t => execAdminDown_keeps sess port v t s
  | .transitForward port p e => execTransitForward_keeps port p e s
  | .transitAgeDrop n t => execTransitAgeDrop_keeps n t s
  | .flip sess t => execFlip_keeps sess t s
  | .drainingEnd t => execDrainingEnd_keeps t s
  | .rteGrpSetWrite sess v t => execRteGrpSetWrite_keeps sess v t s
  | .e2e port p e => execE2e_keeps port p e s
  | .stream port p t => execStream_keeps port p t s
  | .e2eAck port p t => execE2eAck_keeps port p t s
  | .e2eAckSend node space t => execE2eAckSend_keeps node space t s
  | .e2eRetransmitTimeout node space seq t => execE2eRetransmitTimeout_keeps node space seq t s
  | .shaperRefill t => execShaperRefill_keeps t s
  | .qosShpWrite sess v t => execQosShpWrite_keeps sess v t s
  | .partitionBudgetRefill t => execPartitionBudgetRefill_keeps t s
  | .partitionResponseRelease t => execPartitionResponseRelease_keeps t s
  | .dramAgePromotion stk t => execDramAgePromotion_keeps stk t s
  | .dramRefresh stk pch bank t => execDramRefresh_keeps stk pch bank t s
  | .channelRetraining stk ch pass e => execChannelRetraining_keeps stk ch pass e s
  | .selfRefreshEntry stk t => execSelfRefreshEntry_keeps stk t s
  | .ceBucketLeak t => execCeBucketLeak_keeps t s
  | .memRetire sess pa e => execMemRetire_keeps sess pa e s
  | .pageRemapDone stk page e => execPageRemapDone_keeps stk page e s
  | .trvStart q e => execTrvStart_keeps q e s
  | .trvAbort q e => execTrvAbort_keeps q e s
  | .traverseDone q e => execTraverseDone_keeps q e s
  | .eccInjArm sess v e => execEccInjArm_keeps sess v e s
  | .eccInjDisarm sess v e => execEccInjDisarm_keeps sess v e s
  | .eccInjWriteRaw sess v e => execEccInjWriteRaw_keeps sess v e s
  | .eccInjWriteEnc sess v e => execEccInjWriteEnc_keeps sess v e s
  | .eccInjReadRaw sess v e => execEccInjReadRaw_keeps sess v e s
  | .eccInjReadDec sess v e => execEccInjReadDec_keeps sess v e s
  | .eccInjFlipCrit sess v e => execEccInjFlipCrit_keeps sess v e s
  | .eccLogSelWrite sess v t => execEccLogSelWrite_keeps sess v t s
  | .eccLogClr sess t => execEccLogClr_keeps sess t s
  | .syskeyProgram sess req t => execSyskeyProgram_keeps sess req t s
  | .syskeyRevoke sess req t => execSyskeyRevoke_keeps sess req t s
  | .onxSyskeyNonceRead sess t => execOnxSyskeyNonceRead_keeps sess t s
  | .drbgFail t => execDrbgFail_keeps t s
  | .getVersion m => execGetVersion_keeps m s
  | .getCapabilities m => execGetCapabilities_keeps m s
  | .negotiateAlgorithms m => execNegotiateAlgorithms_keeps m s
  | .getDigests m => execGetDigests_keeps m s
  | .getCertificate m => execGetCertificate_keeps m s
  | .challenge m => execChallenge_keeps m s
  | .getMeasurements m => execGetMeasurements_keeps m s
  | .keyExchange m => execKeyExchange_keeps m s
  | .finish m => execFinish_keeps m s
  | .keyUpdate m => execKeyUpdate_keeps m s
  | .endSession m => execEndSession_keeps m s
  | .chunkSend m => execChunkSend_keeps m s
  | .chunkGet m => execChunkGet_keeps m s
  | .block sess node t => execBlock_keeps sess node t s
  | .unblock sess node t => execUnblock_keeps sess node t s
  | .controlCycle t => execControlCycle_keeps t s
  | .deltaAck cycle chk t => execDeltaAck_keeps cycle chk t s
  | .secondHang t => execSecondHang_keeps t s
  | .noDelta t => execNoDelta_keeps t s
  | .watchdog cp t => execWatchdog_keeps cp t s
  | .forceSwitch sess t => execForceSwitch_keeps sess t s
  | .resyncDone t => execResyncDone_keeps t s
  | .belaySample b => execBelaySample_keeps b s
  | .lPowerUpdate t => execLPowerUpdate_keeps t s
  | .lThermalUpdate t => execLThermalUpdate_keeps t s
  | .belayStatusRequest port req t => execBelayStatusRequest_keeps port req t s
  | .swap sess t => execSwap_keeps sess t s
  | .crnPop sess seq t => execCrnPop_keeps sess seq t s
  | .cairnMergeRelease t => execCairnMergeRelease_keeps t s
  | .cairnCritFullAlert t => execCairnCritFullAlert_keeps t s
  | .glbIslLolEvtRead sess t => execGlbIslLolEvtRead_keeps sess t s
  | .bootUnreachDropRead sess t => execBootUnreachDropRead_keeps sess t s
  | .winRevokeAbortRead sess t => execWinRevokeAbortRead_keeps sess t s
  | .ancEvtRead sess t => execAncEvtRead_keeps sess t s
  | .cohEvtRead sess t => execCohEvtRead_keeps sess t s
  | .vrbEvtRead sess t => execVrbEvtRead_keeps sess t s
  | .feEvtRead sess t => execFeEvtRead_keeps sess t s
  | .feArithEvtRead sess t => execFeArithEvtRead_keeps sess t s
  | .wsEvtRead sess t => execWsEvtRead_keeps sess t s
  | .kvEvtRead sess t => execKvEvtRead_keeps sess t s
  | .lnkErrRead sess t => execLnkErrRead_keeps sess t s
  | .rteEvtRead sess t => execRteEvtRead_keeps sess t s
  | .e2eEvtRead sess t => execE2eEvtRead_keeps sess t s
  | .e2eDropRead sess t => execE2eDropRead_keeps sess t s
  | .qosEvtRead sess t => execQosEvtRead_keeps sess t s
  | .drcEvtRead sess t => execDrcEvtRead_keeps sess t s
  | .eccStkCntRead sess t => execEccStkCntRead_keeps sess t s
  | .eccSramRead sess t => execEccSramRead_keeps sess t s
  | .eccCritRead sess t => execEccCritRead_keeps sess t s
  | .onxEvtRead sess t => execOnxEvtRead_keeps sess t s
  | .secEvtRead sess t => execSecEvtRead_keeps sess t s
  | .crnDropRead sess t => execCrnDropRead_keeps sess t s
  | .crnMergeRead sess t => execCrnMergeRead_keeps sess t s
  | .belEvtRead sess t => execBelEvtRead_keeps sess t s
  | .glbAccErrRead sess t => execGlbAccErrRead_keeps sess t s
  | .mainRailLoss t => execMainRailLoss_keeps t s
  | .mirrorPeerResponse node p e => execMirrorPeerResponse_keeps node p e s
  | .drainingPeerEviction node t => execDrainingPeerEviction_keeps node t s

/-- Settles O7: what each command's meaning can touch is its footprint. -/
theorem commandsStayInTheirFootprint : Obligations.CommandsStayInTheirFootprint := by
  unfold Obligations.CommandsStayInTheirFootprint
  intro c s t h
  exact (exec_keeps c s t h).agreeOff

/-- Settles O6: an idle step goes onward, and so does every command, whatever the queue's rest. -/
theorem stepsGoOnward : Obligations.StepsGoOnward := by
  unfold Obligations.StepsGoOnward
  intro s t h
  unfold step at h
  split at h
  · cases h
    exact (idleTick_keeps s).onward
  · next c rest _ => exact (onward_pending rest s).trans (exec_keeps c _ t h).onward

/-- Settles O1: both halves are the branches of step, and the idle tick touches three pieces alone. -/
theorem stepRunsTheFrontCommand : Obligations.StepRunsTheFrontCommand := by
  unfold Obligations.StepRunsTheFrontCommand
  refine ⟨fun c l s => rfl, fun s h => ⟨idleTick s, ?_, rfl, ?_, rfl⟩⟩
  · simp only [step, h]
  · exact Keeps.agreeOff (l := [.now, .busyAt, .stks]) (idleTick_keeps s)

/-- REVOKE of a REGION answers a next state on both its branches: SUBOP 3 names a tenant and is denied (04 R170). -/
theorem execRevokeRegion_next (r : Req) (e : Env) (s : State) : ∃ t, execRevokeRegion r e s = .next t := by
  unfold execRevokeRegion
  split
  · exact ⟨_, rfl⟩
  · exact ⟨_, rfl⟩

/-- Settles O2: each meaning but that of REVOKE of a REGION is a next state by its definition, for what it refuses lies inside that
state. -/
theorem everyCommandAnswers : Obligations.EveryCommandAnswers := by
  unfold Obligations.EveryCommandAnswers
  intro c s
  cases c
  case revokeRegion r e => exact execRevokeRegion_next r e s
  all_goals exact ⟨_, rfl⟩

end Sys2Proof.Machine
end


section
/-! SUPPORT. Reads and writes of DRAM whose lines have no error pattern: a read answers the bytes of memory, a write answers OK and puts
its bytes into memory. -/

namespace Sys2Proof.Machine

/-! Error patterns of lines -/

theorem assoc_filter_ne {α : Type} (k j : Nat) (l : List (Nat × α)) :
    assoc k (l.filter fun x => x.1 ≠ j) = if k = j then none else assoc k l := by
  induction l with
  | nil => simp [assoc]
  | cons x l ih =>
    by_cases hx : x.1 = j
    · rw [List.filter_cons_of_neg (by simpa using hx), ih]
      by_cases hk : k = j
      · rw [if_pos hk, if_pos hk]
      · rw [if_neg hk, if_neg hk, assoc, if_neg fun e => hk (e.symm.trans hx)]
    · rw [List.filter_cons_of_pos (by simpa using hx), assoc, assoc, ih]
      by_cases hk : x.1 = k
      · rw [if_pos hk, if_pos hk, if_neg (hk ▸ hx)]
      · rw [if_neg hk, if_neg hk]

theorem linePat_setPat (l k : Nat) (p : Pattern) (s : State) :
    linePat (setPat l p s) k = if k = l then p else linePat s k := by
  unfold linePat assocD setPat
  simp only [setEcc_ecc]
  split
  · next hp =>
    rw [assoc_filter_ne, List.isEmpty_iff.1 hp]
    split <;> rfl
  · rw [assoc, assoc_filter_ne]
    by_cases hk : k = l
    · rw [if_pos hk.symm, if_pos hk, Option.getD_some]
    · rw [if_neg hk, if_neg (Ne.symm hk), if_neg hk]

/-- The error patterns stand in the ECC unit alone. -/
theorem linePat_congr {s t : State} (h : t.ecc = s.ecc) (l : Nat) : linePat t l = linePat s l := by
  unfold linePat
  rw [h]

@[simp] theorem readQueue_mem (pa : Nat) (s : State) : (readQueue pa s).mem = s.mem := rfl
@[simp] theorem readQueue_ecc (pa : Nat) (s : State) : (readQueue pa s).ecc = s.ecc := rfl

/-! Bytes of memory in a row -/

@[simp] theorem memReadL_length (m : List (Nat × BitVec 8)) (a n : Nat) : (memReadL m a n).length = n := by
  simp [memReadL]

theorem memReadL_getD {m : List (Nat × BitVec 8)} {a n i : Nat} (h : i < n) : (memReadL m a n).getD i 0 = memRead m (a + i) := by
  simp [memReadL, h]

theorem memReadL_append (m : List (Nat × BitVec 8)) (a n k : Nat) :
    memReadL m a n ++ memReadL m (a + n) k = memReadL m a (n + k) := by
  simp [memReadL, List.range_add, Function.comp_def, Nat.add_assoc]

theorem memReadL_drop_take (m : List (Nat × BitVec 8)) {a n i k : Nat} (h : i + k ≤ n) :
    ((memReadL m a n).drop i).take k = memReadL m (a + i) k := by
  obtain ⟨j, rfl⟩ := Nat.exists_eq_add_of_le h
  rw [← memReadL_append m a (i + k) j, ← memReadL_append m a i k, List.append_assoc, List.drop_left' (memReadL_length ..),
    List.take_left' (memReadL_length ..)]

/-- Writing back what a range holds changes no byte. -/
theorem memRead_memWriteL_memReadL {m : List (Nat × BitVec 8)} (h : Memory.wf m = true) (a n b : Nat) :
    memRead (memWriteL m a (memReadL m a n)) b = memRead m b := by
  rw [memRead_memWriteL h, memReadL_length]
  split
  · next hb => rw [memReadL_getD (by omega), Nat.add_sub_cancel' hb.1]
  · rfl

/-! Sound lines -/

theorem soundAt.line {s : State} {pa n : Nat} (h : soundAt s pa n) (hn : 0 < n) : linePat s (pa / 128) = [] :=
  h _ (Nat.le_refl _) (by omega)

theorem soundAt.congr {s t : State} {pa n : Nat} (h : soundAt s pa n) (he : t.ecc = s.ecc) : soundAt t pa n :=
  fun l hl hl' => (linePat_congr he l).trans (h l hl hl')

theorem soundAt.drop {s : State} {pa n k : Nat} (h : soundAt s pa n) (hk : k ≤ n) : soundAt s (pa + k) (n - k) :=
  fun l hl hl' => h l (by omega) (by omega)

/-- What is left of a sound range after its first line. -/
theorem soundAt.nextLine {s : State} {pa n : Nat} (h : soundAt s pa n) :
    soundAt s (pa + (128 - pa % 128)) (n - (128 - pa % 128)) :=
  fun l hl hl' => h l (by omega) (by omega)

/-! Reads -/

theorem lineData_nil (pa : Nat) (s : State) : lineData pa [] s = (s, memReadL s.mem (pa / 128 * 128) 128) := rfl

/-- A read of a sound line answers the line's bytes and moves the stack's queue alone (13 R519). -/
theorem readLine_sound {pa : Nat} {s : State} (src : Nat) (h : linePat s (pa / 128) = []) :
    readLine src pa s = (readQueue pa s, .data (memReadL s.mem (pa / 128 * 128) 128) 0) := by
  unfold readLine
  simp only [linePat_congr (readQueue_ecc pa s), h, decodeLine, patSum, List.foldl_nil, lineData_nil, readQueue_mem]

theorem readSpan_sound (src n pa len : Nat) (s : State) (hn : 0 < len → pa % 128 + len ≤ n * 128) (h : soundAt s pa len) :
    (readSpan src n pa len s).2 = some (memReadL s.mem pa len) := by
  induction n generalizing pa len s with
  | zero =>
    obtain rfl : len = 0 := by omega
    rfl
  | succ n ih =>
    unfold readSpan
    split
    · next h0 => rw [h0]; rfl
    · next h0 =>
      have hline := h.line (Nat.pos_of_ne_zero h0)
      have hmin : min len (128 - pa % 128) ≤ len := Nat.min_le_left ..
      have hrest := ih (pa + min len (128 - pa % 128)) _ _ (by omega) ((h.drop hmin).congr (readQueue_ecc pa s))
      have hbase : pa / 128 * 128 + pa % 128 = pa := Nat.div_add_mod' pa 128
      simp only [readLine_sound src hline, hrest, readQueue_mem]
      rw [memReadL_drop_take s.mem (by omega), hbase, memReadL_append, Nat.add_sub_cancel' hmin]

/-- A read of sound lines answers the bytes of memory, whatever its source. -/
theorem readDram_sound (src pa len : Nat) (s : State) (h : soundAt s pa len) :
    (readDram src pa len s).2 = some (memReadL s.mem pa len) :=
  readSpan_sound src _ pa len s (fun _ => by omega) h

/-! Writes -/

/-- From s to t the bytes d have been written at pa: they stand there, every other byte and the canonical form stay, and no sound line has
got an error pattern. -/
structure Wrote (pa : Nat) (d : List Byte) (s t : State) : Prop where
  /-- The canonical form. -/
  wf : Memory.wf t.mem = true
  /-- Each byte of memory. -/
  bytes : ∀ a, memRead t.mem a = if pa ≤ a ∧ a < pa + d.length then d.getD (a - pa) 0 else memRead s.mem a
  /-- Sound lines stay sound. -/
  sound : ∀ l, linePat s l = [] → linePat t l = []

theorem Wrote.nil {s : State} (pa : Nat) (h : Memory.wf s.mem = true) : Wrote pa [] s s :=
  ⟨h, fun a => (if_neg (by simp)).symm, fun _ hl => hl⟩

theorem Wrote.append {pa pb : Nat} {d e : List Byte} {s t u : State} (h : Wrote pa d s t) (hb : 0 < e.length → pb = pa + d.length)
    (k : Wrote pb e t u) : Wrote pa (d ++ e) s u := by
  refine ⟨k.wf, fun a => ?_, fun l hl => k.sound l (h.sound l hl)⟩
  rw [k.bytes, h.bytes, List.length_append]
  by_cases he : pb ≤ a ∧ a < pb + e.length
  · obtain rfl := hb (by omega)
    rw [if_pos he, if_pos (by omega), List.getD_append_right _ _ _ _ (by omega), Nat.sub_sub]
  · rw [if_neg he]
    by_cases hd : pa ≤ a ∧ a < pa + d.length
    · rw [if_pos hd, if_pos (by omega), List.getD_append _ _ _ _ (by omega)]
    · rw [if_neg hd, if_neg (by omega)]

/-- The bytes written are what a read of their range finds. -/
theorem Wrote.memReadL_eq {pa : Nat} {d : List Byte} {s t : State} (h : Wrote pa d s t) : memReadL t.mem pa d.length = d := by
  refine List.ext_getElem (memReadL_length ..) fun i _ hi => ?_
  simp only [memReadL, List.getElem_map, List.getElem_range]
  rw [h.bytes, if_pos ⟨by omega, by omega⟩, Nat.add_sub_cancel_left, List.getD_eq_getElem _ _ hi]

theorem Wrote.soundAt {pa pb n : Nat} {d : List Byte} {s t : State} (k : Wrote pa d s t) (h : soundAt s pb n) :
    soundAt t pb n := fun l hl hl' => k.sound l (h l hl hl')

/-- A write whose memory is that of memWriteL, and whose error patterns are those before but for lines made sound. -/
theorem Wrote.ofMem {pa : Nat} {d : List Byte} {s t : State} {m : List (Nat × BitVec 8)} (hwf : Memory.wf m = true)
    (hm : ∀ a, memRead m a = memRead s.mem a) (ht : t.mem = memWriteL m pa d) (hp : ∀ l, linePat s l = [] → linePat t l = []) :
    Wrote pa d s t :=
  ⟨ht ▸ memWriteL_wf pa d hwf, fun a => by rw [ht, memRead_memWriteL hwf, hm], hp⟩

theorem linePat_setPat_nil_of_sound {s : State} {l : Nat} (k : Nat) (h : linePat s l = []) : linePat (setPat k [] s) l = [] := by
  rw [linePat_setPat, h, ite_self]

/-- A write within a sound line answers OK and puts its bytes, whether the line is whole, queued or merged (13 R523, R525). -/
theorem writeLine_sound {pa : Nat} {d : List Byte} {s : State} (hwf : Memory.wf s.mem = true) (h : linePat s (pa / 128) = []) :
    (writeLine pa d s).2 = .ok ∧ Wrote pa d s (writeLine pa d s).1 := by
  unfold writeLine
  simp only [readLine_sound 1 h]
  split
  · exact ⟨rfl, Wrote.ofMem hwf (fun _ => rfl) rfl fun l hl => linePat_setPat_nil_of_sound _ hl⟩
  · split
    · exact ⟨rfl, Wrote.ofMem hwf (fun _ => rfl) rfl fun l hl => hl⟩
    · exact ⟨rfl, Wrote.ofMem (memWriteL_wf _ _ hwf) (memRead_memWriteL_memReadL hwf _ _) rfl
        fun l hl => linePat_setPat_nil_of_sound _ hl⟩

theorem writeSpan_sound (n pa : Nat) (d : List Byte) (s : State) (hn : 0 < d.length → pa % 128 + d.length ≤ n * 128)
    (hwf : Memory.wf s.mem = true) (h : soundAt s pa d.length) :
    (writeSpan n pa d s).2 = .ok ∧ Wrote pa d s (writeSpan n pa d s).1 := by
  induction n generalizing pa d s with
  | zero =>
    obtain rfl : d = [] := List.length_eq_zero_iff.1 (by omega)
    exact ⟨rfl, Wrote.nil pa hwf⟩
  | succ n ih =>
    unfold writeSpan
    split
    · next h0 =>
      obtain rfl := List.isEmpty_iff.1 h0
      exact ⟨rfl, Wrote.nil pa hwf⟩
    · next h0 =>
      have hpos : 0 < d.length := List.length_pos_iff.2 fun e => h0 (List.isEmpty_iff.2 e)
      have hdrop : (d.drop (128 - pa % 128)).length = d.length - (128 - pa % 128) := List.length_drop
      obtain ⟨hst, hw⟩ := writeLine_sound (d := d.take (128 - pa % 128)) hwf (h.line hpos)
      obtain ⟨hst', hw'⟩ := ih (pa + (128 - pa % 128)) (d.drop (128 - pa % 128)) _ (by omega) hw.wf
        (hdrop ▸ hw.soundAt h.nextLine)
      have hboth := hw.append (fun _ => by rw [List.length_take]; omega) hw'
      rw [List.take_append_drop] at hboth
      simp only [hst, hst']
      exact ⟨rfl, hboth⟩

/-- A write into sound lines answers OK and puts its bytes. -/
theorem writeDram_sound {pa : Nat} {d : List Byte} {s : State} (hwf : Memory.wf s.mem = true) (h : soundAt s pa d.length) :
    (writeDram pa d s).2 = .ok ∧ Wrote pa d s (writeDram pa d s).1 :=
  writeSpan_sound _ pa d s (fun _ => by omega) hwf h

/-- Settles O51: the lines stay sound over the write, so that the read answers the bytes of memory, and these are the bytes written. -/
theorem bytesReadBack : Obligations.BytesReadBack := by
  unfold Obligations.BytesReadBack
  intro pa d s hwf h
  obtain ⟨hst, hw⟩ := writeDram_sound hwf h
  refine ⟨hst, fun src => ?_, fun a ha => ?_⟩
  · rw [readDram_sound src pa _ _ (hw.soundAt h), hw.memReadL_eq]
  · exact (hw.bytes a).trans (if_neg ha)

end Sys2Proof.Machine
end

section
/-! SUPPORT. The power supply, the pins and the orderly leave, and the statements about power events, restarts and lost locks
(01_architecture R37 to R39; 02_startup_and_loss R44, R69 to R73, R80; 16_connectors_and_power R630, R631, R636, R637). -/

namespace Sys2Proof.Machine

/-! Soft start and the permitted restart move the supply alone -/

@[simp] theorem softStart_boot (s : State) : (softStart s).boot = s.boot := (softStart_keeps s).agree .boot rfl
@[simp] theorem softStart_flash (s : State) : (softStart s).flash = s.flash := (softStart_keeps s).agree .flash rfl
@[simp] theorem softStart_pool (s : State) : (softStart s).pool = s.pool := (softStart_keeps s).agree .pool rfl
@[simp] theorem softStart_vrb (s : State) : (softStart s).vrb = s.vrb := (softStart_keeps s).agree .vrb rfl
@[simp] theorem softStart_mem (s : State) : (softStart s).mem = s.mem := (softStart_keeps s).agree .mem rfl

@[simp] theorem permitRestart_boot (s : State) : (permitRestart s).boot = s.boot := (permitRestart_keeps s).agree .boot rfl
@[simp] theorem permitRestart_flash (s : State) : (permitRestart s).flash = s.flash := (permitRestart_keeps s).agree .flash rfl
@[simp] theorem permitRestart_pool (s : State) : (permitRestart s).pool = s.pool := (permitRestart_keeps s).agree .pool rfl
@[simp] theorem permitRestart_vrb (s : State) : (permitRestart s).vrb = s.vrb := (permitRestart_keeps s).agree .vrb rfl
@[simp] theorem permitRestart_mem (s : State) : (permitRestart s).mem = s.mem := (permitRestart_keeps s).agree .mem rfl

@[simp] theorem softStart_pwr_txDark (s : State) : (softStart s).pwr.txDark = s.pwr.txDark := by
  unfold softStart; dsimp only; split <;> rfl
@[simp] theorem softStart_pwr_resetN (s : State) : (softStart s).pwr.resetN = s.pwr.resetN := by
  unfold softStart; dsimp only; split <;> rfl

@[simp] theorem permitRestart_pwr_txDark (s : State) : (permitRestart s).pwr.txDark = s.pwr.txDark := by
  unfold permitRestart; split <;> simp
@[simp] theorem permitRestart_pwr_resetN (s : State) : (permitRestart s).pwr.resetN = s.pwr.resetN := by
  unfold permitRestart; split <;> simp

theorem softStart_of_enLow {s : State} (h : s.pwr.en = false) : softStart s = s := by
  simp [softStart, h]

/-- With the input in range, EN high and no hold the converter comes on (02 R44). -/
theorem softStart_starts {s : State} (hs : s.pwr.standbyOk = true) (he : s.pwr.en = true) (hm : s.pwr.mainOn = false)
    (hh : s.pwr.hold = .none) (hlo : 260000 ≤ s.pwr.busMv) (hhi : s.pwr.busMv ≤ 410000) :
    softStart s = setPwr (fun p => { p with mainOn := true, pgood := true }) s := by
  simp [softStart, hs, he, hm, hh, shutdownHold, hlo, hhi]

theorem permitRestart_of_not_orderly {s : State} (h : s.pwr.hold ≠ .orderly) : permitRestart s = s := by
  simp [permitRestart, h]

/-! Belay runs or has stopped (01 R38) -/

/-- Belay goes on unless 10 ms have passed since a loss of its heartbeats. -/
theorem belayStops_of_running {s : State} (h : s.pwr.hold = .module → s.boot.cause = 7 → s.now ≤ s.pwr.heldAt + 10000000) :
    belayStops s = s := by
  unfold belayStops
  rw [if_neg]
  simp only [Bool.and_eq_true, decide_eq_true_eq]
  rintro ⟨⟨hh, hc⟩, ht⟩
  exact absurd (h hh hc) (by omega)

theorem belayStops_of_lapsed {s : State} (hh : s.pwr.hold = .module) (hc : s.boot.cause = 7)
    (ht : s.pwr.heldAt + 10000000 < s.now) : belayStops s = setIsl (fun i => { i with belayOn := false }) s := by
  simp [belayStops, hh, hc, ht]

/-! Pins -/

/-- A rise of EN ends an EN-low hold and starts the main converter (02 R73). -/
theorem enRise_starts {s : State} (hs : s.pwr.standbyOk = true) (hb : s.isl.belayOn = true) (he : s.pwr.en = false)
    (hh : s.pwr.hold = .none ∨ s.pwr.hold = .enLow) (hm : s.pwr.mainOn = false) (hlo : 260000 ≤ s.pwr.busMv)
    (hhi : s.pwr.busMv ≤ 410000) :
    (enRise s).boot = s.boot ∧
      (enRise s).pwr = { s.pwr with en := true, offSeen := false, hold := .none, mainOn := true, pgood := true } := by
  have hrun : belayStops s = s := belayStops_of_running fun h => by simp [h] at hh
  unfold enRise
  simp only [hrun, hs, he, hb, Bool.not_true, Bool.or_self, if_neg Bool.false_ne_true]
  obtain hn | hl := hh
  · rw [cycleEnds, setPwr_pwr, hn]
    rw [softStart_starts (by simpa using hs) rfl (by simpa using hm) (by simpa using hn) (by simpa using hlo)
      (by simpa using hhi), permitRestart_of_not_orderly (by simp [hn])]
    simp [hn, hs]
  · rw [cycleEnds, setPwr_pwr, hl]
    rw [softStart_starts (by simpa using hs) rfl (by simpa using hm) rfl (by simpa using hlo) (by simpa using hhi),
      permitRestart_of_not_orderly (by simp)]
    simp [hs]

/-- Without Belay only the pin follows EN. -/
theorem enRise_of_lapsed {s : State} (hh : s.pwr.hold = .module) (hc : s.boot.cause = 7)
    (ht : s.pwr.heldAt + 10000000 < s.now) (hs : s.pwr.standbyOk = true) (he : s.pwr.en = false) :
    enRise s = setPwr (fun p => { p with en := true }) (setIsl (fun i => { i with belayOn := false }) s) := by
  simp [enRise, belayStops_of_lapsed hh hc ht, hs, he]

/-- RESET_N with Belay at work: the module reset, 10 us at least, and what may start then (02 R44, R69). -/
theorem resetN_of_running {dur t : Nat} {s : State} (hd : 1000 ≤ dur) (hs : s.pwr.standbyOk = true) (hb : s.isl.belayOn = true)
    (hrun : belayStops (atTime t s) = atTime t s) :
    resetN dur t s = alertPin (permitRestart (softStart
      (setPwr (fun p => { p with resetN := true, permit := holdAfterReset s.pwr.hold == .orderly })
        (atTime (max s.now t + max dur 10000) (resetModule 1 (holdAfterReset s.pwr.hold) (atTime t s)))))) := by
  simp [resetN, hrun, hs, hb, Nat.not_lt.2 hd]

/-- Without Belay RESET_N does nothing. -/
theorem resetN_of_lapsed {dur t : Nat} {s : State} (hh : s.pwr.hold = .module) (hc : s.boot.cause = 7)
    (ht : s.pwr.heldAt + 10000000 < max s.now t) :
    resetN dur t s = setIsl (fun i => { i with belayOn := false }) (atTime t s) := by
  have hstop : belayStops (atTime t s) = setIsl (fun i => { i with belayOn := false }) (atTime t s) :=
    belayStops_of_lapsed hh hc ht
  simp [resetN, hstop]

/-! The orderly leave (02 R80) -/

theorem not_leaving_of_running {s : State} (h : running s = true) : s.boot.st ≠ .leaving := by
  intro hl
  simp [running, hl] at h

theorem coreOn_of_running {s : State} (h : running s = true) : coreOn s = true := by
  have hheld : s.boot.st ≠ .held := fun e => by simp [running, e] at h
  have hshut : s.boot.st ≠ .heldShutdown := fun e => by simp [running, e] at h
  simp [coreOn, hheld, hshut]

/-- A module that runs with contexts open begins its leave, and nothing else changes yet. -/
theorem beginLeave_of_running {what : LeaveThen} {cause : Nat} {s : State} (hr : running s = true) (hc : 0 < ctxAll s) :
    beginLeave what cause s = setBoot (fun b => { b with
      st := .leaving, leave := some { since := s.now, what := what, cause := cause } }) s := by
  have hctx : ∀ f, ctxAll (setBoot f s) = ctxAll s := fun _ => rfl
  simp [beginLeave, not_leaving_of_running hr, hr, hctx, Nat.ne_of_gt hc]

/-- A module that neither runs nor leaves has nothing to leave. -/
theorem beginLeave_of_idle {what : LeaveThen} {cause : Nat} {s : State} (hr : running s = false) (hl : s.boot.st ≠ .leaving) :
    beginLeave what cause s = leaveEnds { since := s.now, what := what, cause := cause } s := by
  simp [beginLeave, hl, hr]

/-- A leave for a reset ends in the module reset of its cause, after what the leave has sent. -/
theorem finishLeave_thenReset {l : Leave} (h : l.what = .thenReset) (s : State) :
    ∃ u, finishLeave l s = resetModule l.cause (if l.cause = 2 then .none else .module) u := by
  unfold finishLeave leaveEnds
  simp only [h]
  exact ⟨_, rfl⟩

/-! The statements on pins and power, clause by clause -/

theorem powerOn_completes (b : BusIn) {s : State} (hs : s.pwr.standbyOk = false) (hlo : 260000 ≤ b.mv) (hhi : b.mv ≤ 410000) :
    ∃ t, exec (.powerOn b) s = .next t ∧ t.isl.belayOn = true ∧ t.pwr.standbyOk = true ∧ t.pwr.busMv = b.mv
      ∧ t.pwr.mainOn = b.en ∧ t.pwr.pgood = b.en ∧ t.pwr.hold = .none ∧ t.boot.st = .held ∧ t.boot.cause = 0
      ∧ t.mem = [] ∧ t.flash = s.flash := by
  refine ⟨_, rfl, ?_⟩
  unfold powerOn
  rw [if_neg (by simp [hs, hlo, hhi])]
  cases he : b.en with
  | true =>
    rw [softStart_starts rfl rfl rfl rfl hlo hhi]
    simp [powerLost]
  | false =>
    rw [softStart_of_enLow rfl]
    simp [powerLost]

theorem enFall_of_open {s : State} (hs : s.pwr.standbyOk = true) (hb : s.isl.belayOn = true) (he : s.pwr.en = true)
    (hh : s.pwr.hold = .none) (hst : s.boot.st = .poolOpen) (hc : 0 < ctxAll s) :
    enFall s = setBoot (fun b => { b with
        st := .leaving, leave := some { since := s.now, what := .thenEnOff, cause := 8 } })
      (setPwr (fun p => { p with en := false, offSeen := true }) s) := by
  have hrun : belayStops s = s := belayStops_of_running fun h => by simp [hh] at h
  have hr : running (setPwr (fun p => { p with en := false, offSeen := true }) s) = true := by simp [running, hst]
  have hctx : ∀ f, ctxAll (setPwr f s) = ctxAll s := fun _ => rfl
  simp only [enFall, hrun, hs, he, hb, hr, Bool.not_true, Bool.or_self, Bool.true_or, if_true,
    wakeFull, setPwr_boot, hst, reduceCtorEq, if_false]
  rw [beginLeave_of_running hr (by rwa [hctx])]
  rfl

theorem enFall_of_held {s : State} (hs : s.pwr.standbyOk = true) (hb : s.isl.belayOn = true) (he : s.pwr.en = true)
    (hst : s.boot.st = .held) (hh : s.pwr.hold ≠ .restartLimit) (hrun : belayStops s = s) (hm : s.pwr.mainOn = true) :
    enFall s = resetModule 8 .enLow (setPwr (fun p => { p with en := false, offSeen := true }) s) := by
  have hr : running (setPwr (fun p => { p with en := false, offSeen := true }) s) = false := by simp [running, hst]
  simp [enFall, hrun, hs, he, hb, hr, hst, hh, hm]

/-- An emergency shutdown is the module reset with cause 0x04, after a record and a trigger that leave the supply (15 R614). -/
theorem emergencyShutdown_resets (ch : Nat) (v : Int) (s : State) :
    ∃ u, emergencyShutdown ch v s = resetModule 4 .emergency u ∧ u.pwr = s.pwr :=
  ⟨_, rfl, (emergRecord_keeps ch v s).agree .pwr rfl⟩

theorem overVoltage_of_high {mv : Nat} {s : State} (hs : s.pwr.standbyOk = true) (hv : 420000 < mv) :
    overVoltage mv s = emergencyShutdown 44 mv (setPwr (fun p => { p with busMv := mv, ovp := true }) s) :=
  if_pos (by simp [hs, hv])

/-- Settles O8: each event's own lemma says what it does; the frames of soft start and of the module reset give the rest. -/
theorem pinsAndPowerComplete : Obligations.PinsAndPowerComplete := by
  unfold Obligations.PinsAndPowerComplete
  refine ⟨⟨fun b s => powerOn_completes b, ?enRise, ?enFallOpen, ?enFallHeld, ?resetN, ?lapsed⟩,
    ?overvoltage, ?shortDropout, ?longDropout, ?railLoss, ?railLossHeld⟩
  case enRise =>
    intro t0 s hs hb he hh hm hlo hhi
    obtain ⟨hboot, hpwr⟩ := enRise_starts (s := atTime t0 s) hs hb he hh hm hlo hhi
    exact ⟨_, rfl, by simp [hpwr], by simp [hpwr], by simp [hpwr], by simp [hpwr], hboot⟩
  case enFallOpen =>
    intro t0 s hs hb he hh hst hc
    refine ⟨_, rfl, ?_⟩
    rw [enFall_of_open (s := atTime t0 s) hs hb he hh hst hc]
    simp
  case enFallHeld =>
    intro t0 s hs hb he hst hh hc hm
    refine ⟨_, rfl, ?_⟩
    rw [enFall_of_held (s := atTime t0 s) hs hb he hst hh (belayStops_of_running fun _ => hc) hm]
    simp [resetModule_pwr, shutdownHold]
  case resetN =>
    intro dur t0 s hd hs hb hc
    refine ⟨_, rfl, ?_⟩
    rw [resetN_of_running hd hs hb (belayStops_of_running fun _ => hc)]
    simp [resetModule_pwr]
  case lapsed =>
    intro dur t0 s hh hc ht
    refine ⟨⟨_, rfl, ?_⟩, fun hs he => ⟨_, rfl, ?_⟩⟩
    · rw [resetN_of_lapsed hh hc ht]
      simp
    · rw [enRise_of_lapsed (s := atTime t0 s) hh hc ht hs he]
      simp
  case overvoltage =>
    intro mv t0 s hs hv
    obtain ⟨u, hu, hp⟩ := emergencyShutdown_resets 44 mv (setPwr (fun p => { p with busMv := mv, ovp := true }) (atTime t0 s))
    refine ⟨_, rfl, ?_⟩
    rw [overVoltage_of_high (s := atTime t0 s) hs hv, hu]
    simp [resetModule_pwr, shutdownHold, hp]
  case shortDropout =>
    intro durUs t0 s hd
    exact congrArg _ (if_pos hd)
  case longDropout =>
    intro durUs t0 s hd
    refine ⟨_, rfl, ?_⟩
    rw [if_neg (Nat.not_lt.2 hd)]
    simp [powerLost]
  case railLoss =>
    intro t0 s hm hh
    have hcause : ∀ n, Config.freeNat n % 9 ≤ 8 := fun n => Nat.le_of_lt_succ (Nat.mod_lt _ (by decide))
    refine ⟨_, rfl, ?_⟩
    simp [mainRailLoss, hm, hh, resetModule_pwr, hcause]
  case railLossHeld =>
    intro t0 s hm hh
    refine ⟨_, rfl, ?_⟩
    simp [mainRailLoss, hm, hh]

/-! The statements on restarts and lost locks, clause by clause -/

theorem autoRestart_of_running {s : State} (hst : s.boot.st = .held) (hh : s.pwr.hold = .module) (hb : s.isl.belayOn = true)
    (hlo : 5 ≤ s.boot.cause) (hhi : s.boot.cause ≤ 7) (hrun : belayStops s = s) :
    autoRestart s = if (recentRestarts s).length < 3 then
        setPwr (fun p => { p with hold := .none }) (setBoot (fun b => { b with restarts := recentRestarts s ++ [s.now] }) s)
      else alertPin
        (setPwr (fun p => { p with hold := .restartLimit }) (setBoot (fun b => { b with st := .heldShutdown }) s)) := by
  simp [autoRestart, hrun, hst, hh, hb, hlo, hhi]

theorem autoRestart_of_lapsed {s : State} (hh : s.pwr.hold = .module) (hc : s.boot.cause = 7)
    (ht : s.pwr.heldAt + 10000000 < s.now) : autoRestart s = setIsl (fun i => { i with belayOn := false }) s := by
  simp [autoRestart, belayStops_of_lapsed hh hc ht]

/-- Where the controller core runs, a loss of Belay's heartbeats is noted and the leave begins (01 R38). -/
theorem belayLoss_of_coreOn {s : State} (h : coreOn s = true) :
    belayLoss s = beginLeave .thenReset 7 (setIsl (fun i => { i with coreHb := false }) s) := if_pos h

theorem leaveTimeout_of_due {s : State} {l : Leave} (hst : s.boot.st = .leaving) (hl : s.boot.leave = some l)
    (ht : l.since + 1000000 ≤ s.now) : leaveTimeout s = finishLeave l s := by
  simp [leaveTimeout, hst, hl, ht]

/-- A loss of lock: the lock bit, the count and the name, the record, then the island's own action (01 R37, R39). -/
theorem lossOfLock_of_locked {x : Island} {s : State} (h : islandLock s x = true) :
    lossOfLock x s = islandLost x (cairnAt 0x0C 1 (islandIdx x) 0 0 (islandIdx x) 0xFFFF .ok
      (setIsl (fun i => { islandDown x i with lolCount := satAdd 16 i.lolCount 1, lolLast := islandIdx x }) s)) := if_pos h

/-- Settles O10: the lemmas of the restart, of the leave and of the lost lock, each at the command's time. -/
theorem restartsAndLocksComplete : Obligations.RestartsAndLocksComplete := by
  unfold Obligations.RestartsAndLocksComplete
  refine ⟨?restart, ?lapsed, ?noImage, ?heartbeats, ?moduleReset, ?timeout, ?lossOfLock, ?core, ?relock⟩
  case restart =>
    intro t0 s hst hh hb hlo hhi hc
    refine ⟨_, rfl, fun hr => ?_, fun hr => ?_⟩
    all_goals rw [autoRestart_of_running (s := atTime t0 s) hst hh hb hlo hhi (belayStops_of_running fun _ => hc)]
    · rw [if_pos hr]
      simp
    · rw [if_neg (Nat.not_lt.2 hr)]
      simp
  case lapsed =>
    intro t0 s hh hc ht
    refine ⟨_, rfl, ?_⟩
    rw [autoRestart_of_lapsed (s := atTime t0 s) hh hc ht]
    simp
  case noImage =>
    intro t0 s hst hcore
    have hidle : running s = false := by simp [running, hst]
    refine ⟨_, rfl, ?_⟩
    rw [belayLoss_of_coreOn (s := atTime t0 s) hcore, beginLeave_of_idle (s := setIsl _ (atTime t0 s)) hidle (by simp [hst])]
    simp [leaveEnds, resetModule_pwr]
  case heartbeats =>
    intro t0 s hr hc
    refine ⟨_, rfl, ?_⟩
    rw [belayLoss_of_coreOn (s := atTime t0 s) (coreOn_of_running hr),
      beginLeave_of_running (s := setIsl _ (atTime t0 s)) hr hc]
    simp
  case moduleReset =>
    intro sess t0 s s0 x hserved hmay hr hc
    refine ⟨_, rfl, ?_⟩
    rw [withSess_served hserved hmay, beginLeave_of_running (s := mgmtReply sess .ok [] s0) hr hc]
    simp [mgmtReply, emit]
  case timeout =>
    intro t0 s l hst hl hw ht
    obtain ⟨u, hu⟩ := finishLeave_thenReset hw (atTime t0 s)
    refine ⟨_, rfl, ?_⟩
    rw [leaveTimeout_of_due (s := atTime t0 s) hst hl ht, hu]
    simp [resetModule_pwr]
  case lossOfLock =>
    intro x t0 s h
    exact congrArg _ (lossOfLock_of_locked (s := atTime t0 s) h)
  case core =>
    intro t0 s h
    refine ⟨_, rfl, ?_⟩
    rw [lossOfLock_of_locked (x := .core) (s := atTime t0 s) h]
    simp [islandLost, resetModule_pwr]
  case relock =>
    intro k t0 s h3 hk
    refine ⟨_, rfl, ?_⟩
    rw [if_pos (by simpa [h3] using hk)]
    simp

end Sys2Proof.Machine
end

section
/-! SUPPORT. The statement about the read of GLB_ISL_LOL_EVT (01_architecture R41). -/

namespace Sys2Proof.Machine

/-- A read of one register by management answers its value after the read's own effect (17 R656). -/
theorem mgmtRead_one (sess a : Nat) (s : State) :
    mgmtRead sess a 1 s = mgmtReply sess .ok [(readReg (.mgmt sess) a s).2] (readReg (.mgmt sess) a s).1 := rfl

/-- GLB_ISL_LOL_EVT reads LAST and COUNT, and the read clears COUNT. -/
theorem readReg_lolEvt (q : Requester) (s : State) : readReg q (regAt 0x00 0x218) s =
    (setIsl (fun i => { i with lolCount := 0 }) s, w64 (pk [(23, 16, s.isl.lolLast), (15, 0, s.isl.lolCount)])) := by
  have hcrit : critOfReg (regAt 0x00 0x218) s = s := by simp [critOfReg, regAt]
  have hclear : ∀ v, clearCounts v (regAt 0x00 0x218) s = setIsl (fun i => { i with lolCount := 0 }) s := fun v => by
    simp [clearCounts, regAt]
  have hread : ∀ v, readAt s v (regAt 0x00 0x218) = pk [(23, 16, s.isl.lolLast), (15, 0, s.isl.lolCount)] := fun v => by
    simp [readAt, blockOf, readGlb, regAt, assocD, assoc]
  rw [readReg, if_neg (by decide)]
  simp only [hcrit, hclear, hread]

/-- Settles O12: the session's read of the register, and what that read answers and clears. -/
theorem lolEventReadClears : Obligations.LolEventReadClears := by
  unfold Obligations.LolEventReadClears
  intro sess t0 s s0 x hserved
  refine ⟨_, rfl, ?_⟩
  rw [withSess_served hserved rfl, mgmtRead_one, readReg_lolEvt]
  exact ⟨rfl, rfl, rfl⟩

end Sys2Proof.Machine
end

section
/-! SUPPORT. The statements about retirement of stacks and renewal of anchors (04_pool_memory R162, R177, R178;
05_coherence R215). -/

namespace Sys2Proof.Machine

/-- A plan or an object on the stack keeps it in service: BUSY (07 R306; 09 R359). -/
theorem stackRetire_of_used {sess k : Nat} {s : State} (h : planOnStack s k = true ∨ holdsObject s k = true) :
    stackRetire sess k s = mgmtReply sess .busy [] s := if_pos (by simpa using h)

/-- The state after a retirement has found a run elsewhere for each extent and each shadow unit of the stack (04 R177). -/
def roomElsewhere (k : Nat) (s : State) : Option State :=
  (reserveRuns k (movers s k) s).bind fun s' => moveShadows k (s.pool.shadows.filter fun u => u.stack = k) s'

/-- A stack that may retire and has room elsewhere drains (04 R177). -/
theorem stackRetire_of_room {sess k : Nat} {s t : State} (hin : inService s k = true) (hp : planOnStack s k = false)
    (ho : holdsObject s k = false) (h : roomElsewhere k s = some t) :
    stackRetire sess k s =
      retireDone k (mgmtReply sess .ok [] (modStack k (fun x => { x with st := .draining }) t)) := by
  unfold roomElsewhere at h
  simp only [stackRetire, hp, ho, hin, h, Bool.or_self, Bool.not_true, if_neg Bool.false_ne_true]

/-- Without room elsewhere the retirement is refused (04 R177). -/
theorem stackRetire_of_full {sess k : Nat} {s : State} (hin : inService s k = true) (hp : planOnStack s k = false)
    (ho : holdsObject s k = false) (h : roomElsewhere k s = none) :
    stackRetire sess k s = mgmtReply sess .refused [] s := by
  unfold roomElsewhere at h
  simp only [stackRetire, hp, ho, hin, h, Bool.or_self, Bool.not_true, if_neg Bool.false_ne_true]

/-- The end of a migration of a stable extent that the copy leaves as it is: the extent takes its new run, the old run is zeroed and
counted, and the stack may be done (04 R178). -/
theorem migrationDone_of_stable {gi n src dst done : Nat} {s : State} {g : Region} {x : Extent} (hg : regionAt s gi = some g)
    (hx : g.exts[n]? = some x) (hm : x.migrating = true) (hst : extentStable s g n = true)
    (hsrc : src = x.stack * 2 ^ 36 + x.base * unit2M) (hdst : dst = x.newStack * 2 ^ 36 + x.newBase * unit2M)
    (hdone : done = x.copyPtr * 2 ^ 20)
    (hafter : (regionAt (copyDram (src + done) (dst + done) (x.len * unit2M - done) s) gi).bind (fun g => g.exts[n]?) = some x) :
    migrationDone gi n s = retireDone x.stack (modStack x.stack (fun k => { k with migrated := (k.migrated + 1) % 2 ^ 18 })
      (zeroDram src (x.len * unit2M)
        (modRegion gi (fun g => { g with exts := g.exts.set n { x with
          stack := x.newStack, base := x.newBase, migrating := false, copyPtr := 0 } })
          (copyDram (src + done) (dst + done) (x.len * unit2M - done) s)))) := by
  subst hsrc hdst hdone
  simp only [migrationDone, hg, hx, hm, hst, hafter, Option.bind_some, Option.map_some, Bool.not_true, Bool.or_self,
    if_neg Bool.false_ne_true]

/-- Settles O20: the lemmas of the retirement and of the migration's end, on the session and at the time of the command. -/
theorem stacksRetireComplete : Obligations.StacksRetireComplete := by
  unfold Obligations.StacksRetireComplete
  refine ⟨?renew, ?retire, ?busy, ?migrated⟩
  case renew =>
    intro t0 s h
    exact congrArg _ (if_pos h)
  case retire =>
    intro sess k e s s0 s1 x hserved hmay hin hp ho
    refine ⟨fun hroom => congrArg Host.Outcome.next ?_, fun hfull => congrArg Host.Outcome.next ?_⟩
    · exact (withSess_served hserved hmay).trans (stackRetire_of_room hin hp ho hroom)
    · exact (withSess_served hserved hmay).trans (stackRetire_of_full hin hp ho hfull)
  case busy =>
    intro sess k e s s0 x hserved hmay h
    exact congrArg _ ((withSess_served hserved hmay).trans (stackRetire_of_used h))
  case migrated =>
    rintro gi n src dst done e s s0 g x rfl hg hx hm hst hsrc hdst hdone hafter
    exact congrArg _ (migrationDone_of_stable hg hx hm hst hsrc hdst hdone hafter)

end Sys2Proof.Machine
end

section
/-! SUPPORT. The state before power is first applied, the start sequence, the opening of the pool and deep idle
(02_startup_and_loss R48 to R57, R74 to R79). -/

namespace Sys2Proof.Machine

/-- Settles O3: every field named is at the default of its record. -/
theorem resetState : Obligations.ResetState := by
  unfold Obligations.ResetState
  and_intros <;> rfl

/-! Time -/

/-- What keeps the module from Bivouac does not depend on the time. -/
theorem bivReady_atTime (t : Nat) (s : State) : bivReady (atTime t s) = bivReady s := rfl

/-- Time that has come to t comes to it no second time. -/
theorem atTime_atTime_same (t : Nat) (s : State) : atTime t (atTime t s) = atTime t s := by
  have hnow : max (max s.now t) t = max s.now t := max_eq_left (Nat.le_max_right ..)
  have hbusy : (if bivReady s then (atTime t s).busyAt else max s.now t) = (atTime t s).busyAt := by
    rw [atTime_busyAt]
    split <;> rfl
  calc atTime t (atTime t s)
      = { atTime t s with
          now := max (max s.now t) t
          busyAt := if bivReady (atTime t s) then (atTime t s).busyAt else max (max s.now t) t } := rfl
    _ = atTime t s := by rw [bivReady_atTime, hnow, hbusy]; rfl

@[simp] theorem noteStep4_now (s : State) : (noteStep4 s).now = s.now := (noteStep4_keeps s).agree .now rfl

/-- Step 4 finishes once: a module that trains no more is as it was. -/
theorem noteStep4_of_not_training {s : State} (h : s.boot.st ≠ .training) : noteStep4 s = s := by
  simp [noteStep4, h]

/-! The start sequence, branch by branch (02 R48, R51) -/

/-- A start may begin: the module is in reset with its rails up, and nothing holds it (02 R48). -/
structure StartReady (s : State) : Prop where
  /-- The module is in reset. -/
  held : s.boot.st = .held
  /-- Standby power is good. -/
  standby : s.pwr.standbyOk = true
  /-- EN is high. -/
  en : s.pwr.en = true
  /-- The main converter is on. -/
  main : s.pwr.mainOn = true
  /-- Nothing holds the module. -/
  free : s.pwr.hold = .none

theorem StartReady.test {s : State} (h : StartReady s) :
    (s.boot.st = .held && s.pwr.standbyOk && s.pwr.en && s.pwr.mainOn && s.pwr.hold = .none) = true := by
  simp [h.held, h.standby, h.en, h.main, h.free]

theorem startSequence_of_bad_rails (b : StartIn) {s : State} (h : StartReady s) (hr : railsOk (romThresholds s) = false) :
    startSequence b s = romThresholds (atTime (max s.now b.t) s) := by
  rw [startSequence, if_pos h.test]
  simp only [hr, Bool.not_false, if_true]

theorem startSequence_of_no_slot (b : StartIn) {s : State} (h : StartReady s) (hr : railsOk (romThresholds s) = true)
    (hslot : (startTo2 b s).boot.slot = .noSlot) :
    startSequence b s = alertPin (setBoot (fun x => { x with st := .noImage })
      { startTo2 b s with now := max s.now b.t + b.imgMs * 1000000 }) := by
  rw [startSequence, if_pos h.test]
  simp only [hr, hslot, Bool.not_true, if_neg Bool.false_ne_true, if_true]

theorem startSequence_of_image (b : StartIn) {s : State} (h : StartReady s) (hr : railsOk (romThresholds s) = true)
    (hslot : (startTo2 b s).boot.slot ≠ .noSlot) (hcp : b.cp0Ok = true ∨ b.cp1Ok = true) :
    startSequence b s = alertPin (startStep3 b
      { startTo2 b s with now := max s.now b.t + max b.imgMs b.cpMs * 1000000 }) := by
  have hfail : ¬(!b.cp0Ok && !b.cp1Ok) = true := by
    rcases hcp with hcp | hcp <;> simp [hcp]
  rw [startSequence, if_pos h.test]
  simp only [hr, Bool.not_true, if_neg Bool.false_ne_true, if_neg hslot, if_neg hfail]

/-! What step 3 leaves (02 R50; 14 R555) -/

@[simp] theorem startStep3_now (b : StartIn) (s : State) : (startStep3 b s).now = s.now :=
  (startStep3_keeps b s).agree .now rfl

@[simp] theorem startStep3_boot_st (b : StartIn) (s : State) : (startStep3 b s).boot.st = .training := rfl
@[simp] theorem startStep3_boot_step3Done (b : StartIn) (s : State) : (startStep3 b s).boot.step3Done = true := rfl
@[simp] theorem startStep3_pwr_txDark (b : StartIn) (s : State) : (startStep3 b s).pwr.txDark = false := rfl

/-- After the identity of layer 1 step 3 leaves the keys and the locks of Onyx alone. -/
theorem startStep3_onx (b : StartIn) (s : State) : ∃ u, (startStep3 b s).onx = (identity u).onx := by
  unfold startStep3
  extract_lets x s1 s2 s3 s4 s5 s6
  have hrecord : s2.onx = (identity (drawKeys (loadTables x s1))).onx := (imageRecord_keeps _).agree .onx rfl
  have hislands : s3.onx = s2.onx := (islandsLocked_keeps ..).agree .onx rfl
  clear_value s2 s3
  have hstacks : s4.onx = s3.onx := by simp only [s4]
  have hengines : Keeps 20442894400 s4 s5 := Keeps.foldl (fun y k => enginesLeave_keeps k y) Keeps.refl
  clear_value s4 s5
  exact ⟨_, (hengines.agree .onx rfl).trans (hstacks.trans (hislands.trans hrecord))⟩

@[simp] theorem startStep3_onx_udsLocked (b : StartIn) (s : State) : (startStep3 b s).onx.udsLocked = true := by
  obtain ⟨u, hu⟩ := startStep3_onx b s
  rw [hu]
  rfl

/-! The opening (02 R54, R56, R57) -/

/-- The boot unit after the opening: the raise of the floor in the fuses leaves it alone. -/
theorem openPool_boot (s : State) : (openPool s).boot = { s.boot with
    st := if someStack s then .poolOpen else .forwardOnly, openAt := s.now
    openMs := if someStack s then min 65535 ((s.now - s.boot.t0) / 1000000) else s.boot.openMs } := by
  unfold openPool
  extract_lets s1
  split
  · exact (critWrite_keeps _ _).agree .boot rfl
  · rfl

theorem tryOpen_opens {t : Nat} {s : State} (h : mayOpen (noteStep4 (atTime t s)) = true) :
    tryOpen t s = openPool (noteStep4 (atTime t s)) := if_pos h

/-- BACKOFF_EXPIRY opens a module whose backoff is over, whatever ports still pend (02 R56, R57). -/
theorem backoffExpiry_opens {t : Nat} {s : State} (hst : s.boot.st = .backoff)
    (hover : s.boot.step3End + s.boot.backoffMs * 1000000 ≤ max s.now t) :
    exec (.backoffExpiry t) s = .next (openPool (noteStep4 (atTime t s))) := by
  have hnote : noteStep4 (atTime t s) = atTime t s := noteStep4_of_not_training (by simp [hst])
  have hback : backoffOver (atTime t s) = true := decide_eq_true hover
  have hagain : noteStep4 (atTime t (atTime t s)) = atTime t s := by rw [atTime_atTime_same, hnote]
  have hopen : mayOpen (noteStep4 (atTime t (atTime t s))) = true := by
    rw [hagain]
    simp [mayOpen, hst, hback]
  have hexec : exec (.backoffExpiry t) s = .next (if backoffOver (noteStep4 (atTime t s))
      then tryOpen t (noteStep4 (atTime t s)) else noteStep4 (atTime t s)) := rfl
  rw [hexec, hnote, if_pos hback, tryOpen_opens hopen, hagain]

/-- Settles O9: each branch of the start by its own lemma, and both commands that open through the opening's. -/
theorem startAndOpenComplete : Obligations.StartAndOpenComplete := by
  unfold Obligations.StartAndOpenComplete
  refine ⟨?badRails, ?start, ?poolOpen, ?backoff⟩
  case badRails =>
    intro b s hst hs he hm hh hr
    exact congrArg Host.Outcome.next (startSequence_of_bad_rails b ⟨hst, hs, he, hm, hh⟩ hr)
  case start =>
    intro b s hst hs he hm hh hr
    have hready : StartReady s := ⟨hst, hs, he, hm, hh⟩
    refine ⟨_, rfl, fun hslot => ?_, fun hslot hcp => ?_⟩
    · rw [startSequence_of_no_slot b hready hr hslot]
      simp
    · rw [startSequence_of_image b hready hr hslot hcp]
      simp
  case poolOpen =>
    intro t0 s hopen
    refine ⟨_, rfl, ?_⟩
    rw [tryOpen_opens hopen, openPool_boot]
    simp
  case backoff =>
    intro t0 s hst hover
    refine ⟨_, backoffExpiry_opens hst hover, ?_⟩
    rw [openPool_boot]
    simp

/-! Entry into Bivouac (02 R74 to R76) -/

/-- The links' low power and the stacks' self-refresh leave the boot unit. -/
@[simp] theorem enterBivouac_boot (s : State) : (enterBivouac s).boot = { s.boot with
    st := .bivouac, bivEntries := satAdd 16 s.boot.bivEntries 1 } := by
  unfold enterBivouac
  extract_lets s1 s2
  have hlinks : Keeps 2147745792 s1 s2 := Keeps.foldl (fun x k =>
    Keeps.ite (Keeps.step (modPort_keeps _ _ _) rfl (sendCtl_keeps k .lpiEnter x)) Keeps.refl) Keeps.refl
  have hboot : s2.boot = s.boot := hlinks.agree .boot rfl
  rw [setBoot_boot, hboot]

@[simp] theorem enterBivouac_mem (s : State) : (enterBivouac s).mem = s.mem := (enterBivouac_keeps s).agree .mem rfl

/-! The wake by a management packet (02 R77, R79) -/

/-- A management verb on no open session does no more than wake the module. -/
theorem withSess_of_none {sess t : Nat} {n : Need} {f : State → State} {s : State}
    (h : sessAt (mgmtWake (noteStep4 (atTime t s))) sess = none) :
    withSess sess t n f s = mgmtWake (noteStep4 (atTime t s)) := by
  simp only [withSess, h]

theorem wakeChecked_eq (src : Nat) (s : State) : wakeChecked src s =
    if (wakeDiffers s).2 then resetModule 6 .module (wakeDiffers s).1 else wakeUp src (wakeDiffers s).1 := rfl

/-- A wake opens no session: the reset closes all of them, and the wake proper leaves them. -/
theorem sessAt_wakeChecked_none {src sess : Nat} {s : State} (h : sessAt s sess = none) :
    sessAt (wakeChecked src s) sess = none := by
  rw [wakeChecked_eq]
  split
  · rw [sessAt, resetModule_mgmt]
    rfl
  · have hmgmt : (wakeUp src (wakeDiffers s).1).mgmt = s.mgmt := (wakeUp_keeps _ _).agree .mgmt rfl
    rw [sessAt, hmgmt]
    exact h

theorem mgmtWake_of_bivouac {s : State} (h : s.boot.st = .bivouac) : mgmtWake s = wakeChecked 2 s := if_pos h

/-! BIVOUAC_WAKE (02 R77, R79) -/

/-- No packet comes with a wake by management or by Belay. -/
theorem bivWake_of_agreeing {w : WakeIn} {s : State} (hst : s.boot.st = .bivouac) (hsrc : w.src = .mgmt ∨ w.src = .belay)
    (hchk : w.chkOk = true) : bivWake w s = wakeAdmit (wakeCode w.src) s := by
  obtain hs | hs := hsrc <;> simp [bivWake, hst, hs, hchk]

/-- Whatever woke the module, disagreeing checksums reset it. -/
theorem bivWake_of_disagreeing {w : WakeIn} {s : State} (hst : s.boot.st = .bivouac) (hchk : w.chkOk = false) :
    ∃ u, bivWake w s = resetModule 6 .module u := by
  rw [bivWake, if_neg (not_not.2 hst)]
  simp only [hchk, if_neg Bool.false_ne_true]
  exact ⟨_, rfl⟩

/-- Settles O11: the entry's lemma for both entries, and the lemmas of the wake for a session's command and for BIVOUAC_WAKE. -/
theorem bivouacComplete : Obligations.BivouacComplete := by
  unfold Obligations.BivouacComplete
  refine ⟨?enter, ?busy, ?auto, ?management, ?wake, ?differs⟩
  case enter =>
    intro sess t0 s s0 x hserved hmay hst hready hidle
    refine ⟨_, rfl, ?_⟩
    rw [withSess_served hserved hmay, if_pos (by simp [hst, hready, hidle])]
    simp [mgmtReply]
  case busy =>
    intro sess t0 s s0 x hserved hmay hnot
    refine congrArg Host.Outcome.next ((withSess_served hserved hmay).trans (if_neg ?_))
    rw [Bool.and_assoc, hnot, Bool.and_false]
    exact Bool.false_ne_true
  case auto =>
    rintro t0 s s0 rfl hst hauto hready hidle hlong
    refine ⟨_, rfl, ?_⟩
    rw [if_pos (by simpa [hst, hauto, hready, hidle] using hlong)]
    simp
  case management =>
    rintro sess t0 s s0 rfl hst hnone
    have hwake := mgmtWake_of_bivouac hst
    refine congrArg Host.Outcome.next ((withSess_of_none ?_).trans (hwake.trans (wakeChecked_eq ..)))
    rw [hwake]
    exact sessAt_wakeChecked_none hnone
  case wake =>
    intro w s hst hsrc hchk
    exact congrArg Host.Outcome.next (bivWake_of_agreeing (s := atTime w.t s) hst hsrc hchk)
  case differs =>
    intro w s hst hchk
    obtain ⟨u, hu⟩ := bivWake_of_disagreeing (s := atTime w.t s) hst hchk
    refine ⟨_, rfl, ?_⟩
    rw [hu]
    simp

end Sys2Proof.Machine
end

section
/-! SUPPORT. Staging of an image and management sessions (03_salven_image R114 to R119; 14_security_and_isolation R583 to R586). -/

namespace Sys2Proof.Machine

/-! The answer of a management verb and the flash devices -/

@[simp] theorem mgmtReply_out (sess : Nat) (st : Status) (data : List (BitVec 64)) (s : State) :
    (mgmtReply sess st data s).out = s.out ++ [.mgmt sess st data] := rfl
@[simp] theorem mgmtReply_boot (sess : Nat) (st : Status) (data : List (BitVec 64)) (s : State) :
    (mgmtReply sess st data s).boot = s.boot := rfl
@[simp] theorem mgmtReply_flash (sess : Nat) (st : Status) (data : List (BitVec 64)) (s : State) :
    (mgmtReply sess st data s).flash = s.flash := rfl

@[simp] theorem modDev_out (x : SlotName) (f : FlashDev → FlashDev) (s : State) : (modDev x f s).out = s.out := rfl
@[simp] theorem modDev_boot (x : SlotName) (f : FlashDev → FlashDev) (s : State) : (modDev x f s).boot = s.boot := rfl

/-- The devices stand in the flash alone. -/
theorem slotDev_congr {s t : State} (h : t.flash = s.flash) (x : SlotName) : slotDev t x = slotDev s x := by
  unfold slotDev
  rw [h]

@[simp] theorem slotDev_modDev_same (x : SlotName) (f : FlashDev → FlashDev) (s : State) :
    slotDev (modDev x f s) x = f (slotDev s x) := by
  by_cases hx : x = .slotB <;> simp [slotDev, modDev, hx]

@[simp] theorem slotDev_mgmtReply (sess : Nat) (st : Status) (data : List (BitVec 64)) (s : State) (x : SlotName) :
    slotDev (mgmtReply sess st data s) x = slotDev s x := rfl
@[simp] theorem slotDev_setBoot (f : Boot → Boot) (s : State) (x : SlotName) : slotDev (setBoot f s) x = slotDev s x := rfl

/-! The staging verbs (03 R115 to R117, R119) -/

/-- A staging verb of a session that may stage runs where no other session stages. -/
theorem staging_alone {sess t : Nat} {f : State → State} {s s0 : State} {x : Sess} (h : served sess t s = some (x, s0))
    (hr : mayRun x .stage = true) (ho : otherStages sess s0 = false) : staging sess t f s = f s0 :=
  (withSess_served h hr).trans (if_neg (ho ▸ Bool.false_ne_true))

/-- A staging verb is BUSY while another session stages. -/
theorem staging_busy {sess t : Nat} {f : State → State} {s s0 : State} {x : Sess} (h : served sess t s = some (x, s0))
    (hr : mayRun x .stage = true) (ho : otherStages sess s0 = true) : staging sess t f s = mgmtReply sess .busy [] s0 :=
  (withSess_served h hr).trans (if_pos ho)

theorem stageBegin_of_not_leaving {sess : Nat} {s : State} (h : s.boot.st ≠ .leaving) :
    stageBegin sess s = mgmtReply sess .ok [] (setBoot (fun b => { b with
      stage := .writing, stageTarget := idleSlot s, stageReason := 0, stageWritten := 0, stageEnd := 0, stageSess := some sess })
      (modDev (idleSlot s) (fun d => { d with commit := 0xFF, supersede := 0xFF, image := [] }) s)) := if_neg h

/-- The data of a WRITE: the first 65,536 bytes, and of an empty WRITE a free byte, which touches no more than the counter of the
free values (03 R116; log entry 44). -/
theorem writeData_keeps {data d : Bytes} {s s1 : State}
    (h : (s1, d) = if data.isEmpty then freeBytes 1 s else (s, data.take 65536)) : Keeps 1073741824 s s1 := by
  have hdata : KeepsP 1073741824 s (if data.isEmpty then freeBytes 1 s else (s, data.take 65536)) :=
    KeepsP.ite (freeBytes_keeps 1 s) (KeepsP.mk Keeps.refl)
  exact KeepsP.ofEq hdata h.symm

theorem stageWrite_of_writing {sess ofs : Nat} {data d : Bytes} {s s1 : State}
    (hd : (s1, d) = if data.isEmpty then freeBytes 1 s else (s, data.take 65536)) (hst : s1.boot.stage = .writing)
    (hfits : ofs + d.length ≤ 0x400000) (hend : s1.boot.stageEnd ≤ ofs) :
    stageWrite sess ofs data s = mgmtReply sess .ok [] (setBoot (fun b => { b with
      stageWritten := b.stageWritten + d.length, stageEnd := ofs + d.length })
      (modDev s1.boot.stageTarget (fun x => { x with image := programAt ofs d x.image }) s1)) := by
  unfold stageWrite
  rw [← hd]
  exact if_neg (by simpa [hst] using ⟨hfits, hend⟩)

theorem stageVerify_of_staging {sess : Nat} {s : State} (h : s.boot.stage ≠ .idle) :
    stageVerify sess s = mgmtReply sess (if stageReasonOf s (slotDev s (idleSlot s)) = 0 then .ok else .denied) []
      (setBoot (fun b => { b with
        stage := if stageReasonOf s (slotDev s (idleSlot s)) = 0 then .verified else .failed, stageTarget := idleSlot s
        stageReason := stageReasonOf s (slotDev s (idleSlot s)), stageSess := some sess }) s) := if_neg h

/-- The markers that a COMMIT programs: the slot's own, then SUPERSEDE of slot A for slot B (03 R115). -/
def commitMarkers (x : SlotName) (s : State) : State :=
  if x = .slotB then modDev .slotA (fun d => { d with supersede := 0 }) (modDev x (fun d => { d with commit := 0 }) s)
  else modDev x (fun d => { d with commit := 0 }) s

theorem stageCommit_of_verified {sess : Nat} {s : State} (h : s.boot.stage = .verified) :
    stageCommit sess s = mgmtReply sess .ok [] (setBoot (fun b => { b with stage := .committed })
      (commitMarkers s.boot.stageTarget s)) := if_neg (not_not.2 h)

theorem commitMarkers_keeps (x : SlotName) (s : State) : Keeps 4 s (commitMarkers x s) :=
  Keeps.ite (Keeps.step (modDev_keeps ..) rfl (modDev_keeps ..)) (modDev_keeps ..)

@[simp] theorem commitMarkers_out (x : SlotName) (s : State) : (commitMarkers x s).out = s.out :=
  (commitMarkers_keeps x s).agree .out rfl

@[simp] theorem slotDev_commitMarkers_commit (x : SlotName) (s : State) : (slotDev (commitMarkers x s) x).commit = 0 := by
  by_cases hx : x = .slotB
  · subst hx
    rfl
  · rw [commitMarkers, if_neg hx, slotDev_modDev_same]

/-- COMMIT supersedes slot A for slot B alone. -/
@[simp] theorem commitMarkers_supersede (x : SlotName) (s : State) :
    (commitMarkers x s).flash.a.supersede = if x = .slotB then 0 else s.flash.a.supersede := by
  by_cases hx : x = .slotB <;> simp [commitMarkers, modDev, hx]

/-! The end of a session (03 R117; 14 R586) -/

/-- A closed session leaves the list of the sessions. -/
@[simp] theorem closeSess_sess (sess : Nat) (s : State) :
    (closeSess sess s).mgmt.sess = s.mgmt.sess.filter fun y => y.id ≠ sess := by
  unfold closeSess stageAbort
  dsimp only
  split_ifs <;> rfl

/-- A closed session is open no more. -/
theorem sessAt_closeSess (sess : Nat) (s : State) : sessAt (closeSess sess s) sess = none := by
  simp [sessAt]

/-- Closing the session that stages aborts what is not committed (03 R117). -/
theorem closeSess_boot_of_staging {sess : Nat} {s : State} (h : s.boot.stageSess = some sess) (hc : s.boot.stage ≠ .committed) :
    (closeSess sess s).boot = { s.boot with stage := .idle, stageSess := none } := by
  simp [closeSess, stageAbort, h, hc]

/-- A session idle for 300 s closes outside Bivouac. -/
theorem idleClose_of_idle {sess : Nat} {s : State} {x : Sess} (hx : sessAt s sess = some x) (hst : s.boot.st ≠ .bivouac)
    (hidle : x.lastUse + 300000000000 ≤ s.now) : idleClose sess s = closeSess sess s := by
  simp [idleClose, hx, hst, hidle]

/-! The handshake (14 R583 to R586) -/

theorem mgmtWake_of_awake {s : State} (h : s.boot.st ≠ .bivouac) : mgmtWake s = s := if_neg h

/-- A running core does not ignore a handshake under a new name. -/
theorem not_handshake_ignored {sess : Nat} {s : State} (hon : coreOn s = true) (hnew : sessAt s sess = none) :
    ¬(!coreOn s || (sessAt s sess).isSome) = true := by
  simp [hon, hnew]

/-- A running core refuses a handshake over the limit of its port's handshakes or sessions, and counts it as failed (log
entry 44). -/
theorem tlsHandshake_over_limit {h : TlsIn} {s : State} (hon : coreOn s = true) (hst : s.boot.st ≠ .bivouac)
    (hnew : sessAt s h.sess = none)
    (hlimit : 10 ≤ (recentHs s h.port).length ∨ 4 ≤ countIf (fun x => x.port = h.port) s.mgmt.sess) :
    tlsHandshake h s = hsFails s := by
  unfold tlsHandshake
  rw [mgmtWake_of_awake hst, if_neg (not_handshake_ignored hon hnew)]
  exact if_pos (by simpa using hlimit)

@[simp] theorem noteHs_now (port : Fin 2) (s : State) : (noteHs port s).now = s.now := rfl

@[simp] theorem noteHs_sess (port : Fin 2) (s : State) : (noteHs port s).mgmt.sess = s.mgmt.sess := by
  by_cases hp : port = 0 <;> simp [noteHs, hp]

@[simp] theorem noteHs_hsFail (port : Fin 2) (s : State) : (noteHs port s).mgmt.hsFail = s.mgmt.hsFail := by
  by_cases hp : port = 0 <;> simp [noteHs, hp]

/-- The role of a client's chain does not depend on the handshakes noted. -/
theorem roleOf_noteHs (h : TlsIn) (port : Fin 2) (s : State) : roleOf h (noteHs port s) = roleOf h s := rfl

/-- Within the limits a running core notes the handshake and opens a session of the role of the client's anchor. -/
theorem tlsHandshake_opens {h : TlsIn} {s : State} {role : MgmtRole} {f : Bool} (hon : coreOn s = true)
    (hst : s.boot.st ≠ .bivouac) (hnew : sessAt s h.sess = none) (hrate : (recentHs s h.port).length < 10)
    (hroom : countIf (fun x => x.port = h.port) s.mgmt.sess < 4) (hrole : roleOf h s = some (role, f)) (hok : h.ok = true) :
    tlsHandshake h s = setMgmt (fun m => { m with sess := m.sess ++
      [{ id := h.sess, port := h.port, role := role, factory := f, lastUse := s.now }] }) (noteHs h.port s) := by
  have hlimit : ¬(10 ≤ (recentHs s h.port).length || 4 ≤ countIf (fun x => x.port = h.port) s.mgmt.sess) = true := by
    simpa using ⟨hrate, hroom⟩
  unfold tlsHandshake
  rw [mgmtWake_of_awake hst, if_neg (not_handshake_ignored hon hnew)]
  refine (if_neg hlimit).trans ?_
  simp only [roleOf_noteHs, hrole, hok, if_true, noteHs_now]

/-- Settles O15: each staging verb by its equation on a session that stages alone, the ends of a session by the close's lemmas, and
the handshake by its lemmas within and over the limits. -/
theorem stagingAndSessionsComplete : Obligations.StagingAndSessionsComplete := by
  unfold Obligations.StagingAndSessionsComplete
  refine ⟨fun sess t0 s s0 x hserved hmay => ⟨fun halone => ⟨?start, ?write, ?verify, ?commit, ?abort⟩, ?busy⟩,
    ?close, ?handshake, ?idle⟩
  case start =>
    intro hst
    refine ⟨_, congrArg Host.Outcome.next ((staging_alone hserved hmay halone).trans (stageBegin_of_not_leaving hst)), ?_⟩
    simp
  case write =>
    intro ofs data d s1 hd hst hfits hend
    have hkeeps := writeData_keeps hd
    have hboot : s1.boot = s0.boot := hkeeps.agree .boot rfl
    have hflash : s1.flash = s0.flash := hkeeps.agree .flash rfl
    have hout : s1.out = s0.out := hkeeps.agree .out rfl
    refine ⟨_, congrArg Host.Outcome.next ((staging_alone hserved hmay halone).trans
      (stageWrite_of_writing hd (hboot ▸ hst) hfits (hboot ▸ hend))), ?_⟩
    simp [hboot, hout, slotDev_congr hflash]
  case verify =>
    rintro r hst rfl
    exact congrArg Host.Outcome.next ((staging_alone hserved hmay halone).trans (stageVerify_of_staging hst))
  case commit =>
    intro hst
    refine ⟨_, congrArg Host.Outcome.next ((staging_alone hserved hmay halone).trans (stageCommit_of_verified hst)), ?_⟩
    simp
  case abort =>
    exact congrArg Host.Outcome.next (staging_alone hserved hmay halone)
  case busy =>
    rintro i hother (rfl | rfl | rfl | rfl) <;> exact congrArg Host.Outcome.next (staging_busy hserved hmay hother)
  case close =>
    intro sess t0 s s0 x hserved
    refine ⟨_, congrArg Host.Outcome.next (withSess_served hserved rfl), sessAt_closeSess .., closeSess_sess ..,
      fun hsess hc => ?_⟩
    simp [closeSess_boot_of_staging hsess hc]
  case handshake =>
    intro h s hon hst hnew
    refine ⟨fun hrate hroom role f hrole hok => ?_, fun hlimit => ?_⟩
    · refine ⟨_, congrArg Host.Outcome.next (tlsHandshake_opens (s := atTime h.t s) hon hst hnew hrate hroom hrole hok), ?_⟩
      simp
    · exact congrArg Host.Outcome.next (tlsHandshake_over_limit (s := atTime h.t s) hon hst hnew hlimit)
  case idle =>
    intro sess t0 s x hx hst hidle
    exact ⟨_, congrArg Host.Outcome.next (idleClose_of_idle (s := atTime t0 s) hx hst hidle), sessAt_closeSess ..,
      closeSess_sess ..⟩

end Sys2Proof.Machine
end

section
/-! SUPPORT. How the memory verbs run, branch by branch, and the statements about LOAD, STORE and STORE_NOTIFY (04_pool_memory R135,
R155; 05_coherence R194 to R207; 06_pool_verbs R230 to R235; 17_register_map R657). -/

namespace Sys2Proof.Machine

/-! The command and the request it takes -/

/-- The register-page bit clear fits every verb. -/
theorem ctlFits_of_window {r : Req} (h : reqCtl r = false) : ctlFits r = true := by simp [ctlFits, h]

/-- The register-page bit fits LOAD and STORE, clear or set (17 R657). -/
theorem ctlFits_of_opcode {r : Req} (h : r.opcode = 1 ∨ r.opcode = 2) : ctlFits r = true := by
  rcases h with h | h <;> simp [ctlFits, h]

@[simp] theorem reqCached_withCached (c : Bool) (r : Req) : reqCached (withCached c r) = c := by
  cases c <;> simp [reqCached, withCached]

@[simp] theorem withCached_opcode (c : Bool) (r : Req) : (withCached c r).opcode = r.opcode := rfl
@[simp] theorem reqCtl_withCached (c : Bool) (r : Req) : reqCtl (withCached c r) = reqCtl r := rfl

/-- A verb command runs its verb on the request that it takes, where the register-page bit of that request fits. -/
theorem runVerb_fits {q : Req} {e : Env} {s s0 : State} {w : Waiting} (verb : Waiting → State → State)
    (h : taken q e s = some (w, s0)) (hc : ctlFits w.req = true) : runVerb q e verb s = verb w s0 :=
  runVerb_taken verb h (taken_req h ▸ hc)

/-- A memory verb on its window, with nothing to wait for, is tried at once (06 R255). -/
theorem memVerb_of_window {w : Waiting} {s : State} (hctl : reqCtl w.req = false) (hov : overtakes s w = false) :
    memVerb w s = memAttempt w [] s := by
  simp [memVerb, hctl, hov]

theorem memVerb_of_page {w : Waiting} (s : State) (h : reqCtl w.req = true) : memVerb w s = pageAccess w s := if_pos h

theorem memAttempt_load {w : Waiting} (h : w.op = 1) (got : List (Nat × List Byte)) (s : State) :
    memAttempt w got s = loadRun w got s := if_pos h

theorem memAttempt_store {w : Waiting} (h : w.op = 2 ∨ w.op = 3) (got : List (Nat × List Byte)) (s : State) :
    memAttempt w got s = storeRun w s := by
  rcases h with h | h <;> simp [memAttempt, h]

/-- A memory verb command runs the attempt of the request that it takes, where that names a window and overtakes nothing. -/
theorem runVerb_attempt {q : Req} {e : Env} {s s0 : State} {w : Waiting} (h : taken q e s = some (w, s0))
    (hctl : reqCtl w.req = false) (hov : overtakes s0 w = false) : runVerb q e memVerb s = memAttempt w [] s0 :=
  (runVerb_fits memVerb h (ctlFits_of_window hctl)).trans (memVerb_of_window hctl hov)

/-- LOAD, uncached or cached, runs loadRun on its request. -/
theorem runVerb_load {r : Req} {c : Bool} {e : Env} {s s0 : State} {w : Waiting}
    (h : taken (withCached c { r with opcode := 0x01 }) e s = some (w, s0)) (hctl : reqCtl w.req = false)
    (hov : overtakes s0 w = false) :
    runVerb (withCached c { r with opcode := 0x01 }) e memVerb s = loadRun w [] s0 ∧ reqCached w.req = c :=
  ⟨(runVerb_attempt h hctl hov).trans (memAttempt_load (taken_op h) [] s0), by rw [taken_req h, reqCached_withCached]⟩

/-! LOAD -/

/-- LOAD of sound data that DRAM holds, with room in the budget, answers OK with its bytes and the grant code (06 R230). -/
theorem loadData_reads {w : Waiting} {g : Region} {ps : List Part} {got : List (Nat × List Byte)} {s s1 s2 : State}
    {d : List Byte} (code : Nat) (hneed : needRd s got (pieces false ps) = [])
    (hroom : useBudget (ctxTid s w.ord w.req) (pieces false ps) s = some s1)
    (hread : readPieces 0 got (pieces false ps) s1 = (s2, some d)) :
    loadData w g ps got code s = finishMem w { mkResp s2 w.req .ok with payload := d, r0 := w64 code } s2 := by
  simp only [loadData, hneed, hroom, hread, List.isEmpty_nil, if_true]

/-- LOAD of a range of a region that is not COHERENT goes to its data: uncached without a grant, cached of a PRIVATE region with grant
code 3 (06 R230). -/
theorem loadRun_of_plain {w : Waiting} {s : State} {x : Window} {g : Region} {o len : Nat} {c : Bool}
    (hc : reqCached w.req = c) (hlen : len = if c then 128 else clampTo 1 2048 (reqLen w.req))
    (halign : c = true → reqVa w.req % 128 = 0)
    (hacc : checkAccess s w.ord (reqWin w.req) (reqTid w.req) w.req.src (reqVa w.req) len rightR = .ok x g o)
    (hmode : g.mode ≠ .coherent) (hpriv : c = true → g.mode = .priv)
    (hok : partsStatus s w.ord g.owner (partsOf g o len) = .ok) (got : List (Nat × List Byte)) :
    loadRun w got s = loadData w g (partsOf g o len) got (if c then 3 else 0) s := by
  subst hc hlen
  have hdenied : (reqCached w.req && decide (reqVa w.req % 128 ≠ 0)) = false := by simpa using halign
  have hmayCache : (reqCached w.req && (decide (g.mode = .uncached) || decide (g.mode = .mirrored))) = false := by
    rw [Bool.and_eq_false_imp]
    intro h
    simp [hpriv h]
  simp only [loadRun, hdenied, hacc, hmayCache, hmode, hok, Bool.false_eq_true, if_false, ne_eq, not_true_eq_false]

/-- What a LOAD does to a line: by CACHED and by the intent (05 R196; 06 R230). -/
def loadUse (r : Req) : LineUse := if !reqCached r then .loadU else if reqIntentM r then .loadM else .loadS

/-- The grant code of a LOAD whose lines have come to states: that of the first for a cached one, none for the others (06 R230). -/
def loadCode (c : Bool) (ds : List DirEnt) : Nat := if c then (ds.head?.map grantCode).getD 0 else 0

/-- LOAD of a range of a COHERENT region that the directory lets through: its lines take their next states and the data follow (05 R194,
R196, R207). -/
theorem loadRun_of_coherent {w : Waiting} {s s1 : State} {x : Window} {g : Region} {o len : Nat} {c : Bool} {u : LineUse}
    {slot : Option Nat} (hc : reqCached w.req = c) (hu : loadUse w.req = u)
    (hlen : len = if c then 128 else clampTo 1 2048 (reqLen w.req)) (halign : c = true → reqVa w.req % 128 = 0)
    (hacc : checkAccess s w.ord (reqWin w.req) (reqTid w.req) w.req.src (reqVa w.req) len rightR = .ok x g o)
    (hmode : g.mode = .coherent) (hslot : (slotOf g w.req.src).map Slot.k = slot) (hatt : c = true → slot.isSome = true)
    (hright : u = .loadM → ∃ x' g' o', checkAccess s w.ord (reqWin w.req) (reqTid w.req) w.req.src (reqVa w.req) len
      (rightR + rightW) = .ok x' g' o')
    (hok : partsStatus s w.ord g.owner (partsOf g o len) = .ok)
    (hgo : cohGate w.ord g.idx (linesOfParts (partsOf g o len)) u slot s = (s1, .go))
    (hlm : (linesOfParts (partsOf g o len)).any (lineLm s1 g.idx) = false)
    (hroom : (useBudget (ctxTid s1 w.ord w.req) (partsOf g o len) s1).isSome = true) (got : List (Nat × List Byte))
    {ds : List DirEnt} (hds : ds = (linesOfParts (partsOf g o len)).map fun l => lineAfter g (dirAt s1 g.idx l) u slot) :
    loadRun w got s = loadData w g (partsOf g o len) got (loadCode c ds) (ds.foldl (fun s d => setDir d s) s1) := by
  subst hc hlen hslot
  have hdenied : (reqCached w.req && decide (reqVa w.req % 128 ≠ 0)) = false := by simpa using halign
  have hattached : (reqCached w.req && ((slotOf g w.req.src).map Slot.k).isNone) = false := by
    rw [Bool.and_eq_false_imp]
    exact fun h => Option.isNone_eq_false_iff.2 (hatt h)
  have hbudget := Option.isNone_eq_false_iff.2 hroom
  have hboth : ∃ x' g' o', (if u = .loadM then checkAccess s w.ord (reqWin w.req) (reqTid w.req) w.req.src (reqVa w.req)
      (if reqCached w.req = true then 128 else clampTo 1 2048 (reqLen w.req)) (rightR + rightW) else .ok {} g o)
        = .ok x' g' o' := by
    split
    · next h => exact hright h
    · exact ⟨_, _, _, rfl⟩
  obtain ⟨x', g', o', hboth⟩ := hboth
  simp only [loadUse] at hu
  simp only [loadRun, hdenied, hacc, hmode, reduceCtorEq, hattached, hok, hu, hboth, hgo, hlm, hbudget, ← hds, decide_false,
    Bool.or_self, Bool.and_false, Bool.false_eq_true, if_false, if_true, ne_eq, not_true_eq_false]
  cases ds <;> rfl

/-- Settles O21: LOAD runs on the request it takes, then by the mode of its region. -/
theorem loadsComplete : Obligations.LoadsComplete := by
  unfold Obligations.LoadsComplete
  refine ⟨⟨?uncached, ?cached, ?coherent, ?page⟩, ?line⟩
  case uncached =>
    intro r e s s0 s1 s2 w x g o len d htaken hctl hov hlen hacc hmode hok hneed hroom hread
    obtain ⟨hrun, hc⟩ := runVerb_load htaken hctl hov
    refine congrArg Host.Outcome.next (hrun.trans ?_)
    rw [loadRun_of_plain hc hlen nofun hacc hmode nofun hok]
    exact loadData_reads 0 hneed hroom hread
  case cached =>
    intro r e s s0 s1 s2 w x g o d htaken hctl hov halign hacc hmode hok hneed hroom hread
    obtain ⟨hrun, hc⟩ := runVerb_load htaken hctl hov
    refine congrArg Host.Outcome.next (hrun.trans ?_)
    rw [loadRun_of_plain hc rfl (fun _ => halign) hacc (by simp [hmode]) (fun _ => hmode) hok]
    exact loadData_reads 3 hneed hroom hread
  case coherent =>
    intro r e s s0 s1 w x g o len htaken hctl hov hlen hacc hmode hok hgo hlm hroom
    obtain ⟨hrun, hc⟩ := runVerb_load htaken hctl hov
    have huse : loadUse w.req = .loadU := by simp [loadUse, hc]
    exact congrArg Host.Outcome.next (hrun.trans
      (loadRun_of_coherent hc huse hlen nofun hacc hmode rfl nofun nofun hok hgo hlm hroom [] rfl))
  case page =>
    intro r e s s0 w hctl htaken
    refine congrArg Host.Outcome.next ((runVerb_taken memVerb htaken (ctlFits_of_opcode (Or.inl rfl))).trans ?_)
    exact memVerb_of_page s0 ((congrArg reqCtl (taken_req htaken)).trans hctl)
  case line =>
    intro r e s s0 s1 w x g k o l u htaken hctl hov halign hacc hmode hslot hu hright hok hline hgo hlm hroom
    obtain ⟨hrun, hc⟩ := runVerb_load htaken hctl hov
    have huse : loadUse w.req = u := by simp [loadUse, hc, hu]
    have hds : [lineAfter g (dirAt s1 g.idx l) u (some k.k)] =
        (linesOfParts (partsOf g o 128)).map fun l => lineAfter g (dirAt s1 g.idx l) u (some k.k) := by rw [hline]; rfl
    exact congrArg Host.Outcome.next (hrun.trans (loadRun_of_coherent hc huse rfl (fun _ => halign) hacc hmode
      (by rw [hslot]; rfl) (fun _ => rfl) hright hok (hline ▸ hgo) (by rw [if_pos rfl, hline]; simpa using hlm) hroom [] hds))

/-! STORE and STORE_NOTIFY -/

/-- STORE and STORE_NOTIFY write their pieces, once the directory lets them through and their budget has room (06 R234, R235; 05
R194). -/
theorem storeRun_writes {w : Waiting} {s s1 s2 s3 : State} {x : Window} {g : Region} {o len : Nat} {st : Status} {tags : List Nat}
    (hop : w.op = 2 ∨ w.op = 3)
    (hnotify : w.op = 3 → earlierWrites s w = false
      ∧ (reqSendEvt w.req = true → covered (grantsOf x) (op0 w.req % 2 ^ 20) = true))
    (hslots : reqSlots w.req ≠ 0) (hlen : len = clampTo 1 (64 * reqSlots w.req) (reqLen w.req))
    (hacc : checkAccess s w.ord (reqWin w.req) (reqTid w.req) w.req.src (reqVa w.req) len rightW = .ok x g o)
    (hgo : (if g.mode = .coherent then cohGate w.ord g.idx
      (linesOfParts ((partsOf g o len).filter fun p => partStatus s w.ord g.owner p = .ok)) .write
      ((slotOf g w.req.src).map Slot.k) s else (s, .go)) = (s1, .go))
    (hroom : useBudget (ctxTid s1 w.ord w.req) ((partsOf g o len).filter fun p => partStatus s w.ord g.owner p = .ok) s1 = some s2)
    (hwrite : storePieces w.ord g w.req.payload (pieces (g.mode = .coherent) (partsOf g o len)) s2 = (s3, st, tags)) :
    storeRun w s = finishWrite w (mkResp s3 w.req st) (g.mode ≠ .mirrored) tags [] s3 := by
  subst hlen
  have hwb : w.op ≠ 0x2B := by omega
  have hhold : (decide (w.op = 3) && earlierWrites s w) = false := by
    rw [Bool.and_eq_false_imp]
    exact fun h => (hnotify (of_decide_eq_true h)).1
  have hcover : (decide (w.op = 3) && reqSendEvt w.req && !covered (grantsOf x) (op0 w.req % 2 ^ 20)) = false := by
    rw [Bool.and_eq_false_imp, Bool.and_eq_true]
    rintro ⟨h, hevt⟩
    rw [(hnotify (of_decide_eq_true h)).2 hevt]
    rfl
  simp only [storeRun, hslots, hwb, hhold, hacc, hcover, hgo, hroom, hwrite, decide_false, Bool.false_and, Bool.or_self,
    Bool.false_eq_true, if_false]

/-- Settles O22: both verbs by storeRun on the request they take; the release of a STORE_NOTIFY by its definition. -/
theorem storesComplete : Obligations.StoresComplete := by
  unfold Obligations.StoresComplete
  refine ⟨?store, ?release⟩
  case store =>
    intro r e s s0 s1 s2 s3 w x g o len i st tags hi hctl hov hslots hlen hacc hgo hroom hwrite
    rcases hi with ⟨rfl, htaken⟩ | ⟨rfl, htaken, hearly, hcover⟩
    · have hop : w.op = 2 := taken_op htaken
      refine congrArg Host.Outcome.next (((runVerb_attempt htaken hctl hov).trans (memAttempt_store (Or.inl hop) [] s0)).trans ?_)
      exact storeRun_writes (Or.inl hop) (by simp [hop]) hslots hlen hacc hgo hroom hwrite
    · have hop : w.op = 3 := taken_op htaken
      refine congrArg Host.Outcome.next (((runVerb_attempt htaken hctl hov).trans (memAttempt_store (Or.inr hop) [] s0)).trans ?_)
      exact storeRun_writes (Or.inr hop) (fun _ => ⟨hearly, hcover⟩) hslots hlen hacc hgo hroom hwrite
  case release =>
    intro src tag e s w hw hearly
    refine congrArg Host.Outcome.next ?_
    simp only [hw, hearly, Bool.false_eq_true, if_false]

end Sys2Proof.Machine
end

section
/-! SUPPORT. What the answers of lenders and mirror peers do to the request that waits for them (04_pool_memory R155, R163, R164, R168). -/

namespace Sys2Proof.Machine

/-- The answer to a message reaches the request that waits for its TAG. -/
theorem landTag_of_waits {tag obj : Nat} {st : Status} {d : List Byte} {w : Waiting} {s : State}
    (h : s.vrb.waiting.find? (waitsTag tag) = some w) : landTag tag st obj d s = landWait tag st obj d w s := by
  simp only [landTag, h]

/-- The answer to the only write that a request waits for completes it (04 R163). -/
theorem landWait_lastWrite {tag obj : Nat} {st st' : Status} {d old : List Byte} {w : Waiting} {s : State}
    (h : w.why = .anchorWr [tag] st' old) : landWait tag st obj d w s = finishMem w { mkResp s w.req (worse st' st) with
      r0 := w64 (if w.op = 4 && worse st' st = .ok then ofLe old else 0) } (unwait w s) := by
  simp [landWait, h]

/-- A LOAD whose data no one has written meanwhile is tried with all of them (04 R168; 05 R187). -/
theorem withData_load {w : Waiting} (hop : w.op = 1) (hd : w.dirty = false) (got : List (Nat × List Byte)) (s : State) :
    withData w got s = memAttempt w got s := by
  have hw : { w with dirty := false } = w := by rw [← hd]
  simp only [withData, hw]
  simp [hop, hd]

/-- The answer to the only read that a LOAD waits for, its data not written meanwhile, lets it go on (04 R168). -/
theorem landWait_lastRead {tag key obj : Nat} {d : List Byte} {got : List (Nat × List Byte)} {w : Waiting} {s : State}
    (h : w.why = .anchorRd [(tag, key)] got) (hop : w.op = 1) (hd : w.dirty = false) :
    landWait tag .ok obj d w s = memAttempt w (setAssoc key d got) (unwait w s) := by
  simp [landWait, h, assoc, withData_load hop hd]

/-- The answer to the only MIRROR_WRITE that a STORE waits for completes it with the worst of both statuses (04 R155). -/
theorem landWait_lastMirror {tag obj : Nat} {st : Status} {d : List Byte} {resp : Resp} {w : Waiting} {s : State}
    (h : w.why = .mirror [tag] resp) (hop : w.op = 2 ∨ w.op = 3) (hout : w.outAt = none) :
    landWait tag st obj d w s = finishMem w { resp with status := worse resp.status st } (unwait w s) := by
  have hbind : bindAnswered w resp st obj (unwait w s) = (unwait w s, { resp with status := worse resp.status st }) := by
    rcases hop with hop | hop <;> simp [bindAnswered, hop]
  simp [landWait, h, hbind, hout]

/-- The lender of the anchor that a TAG asked answers: its note goes, the anchor is lost unless the status is OK, and what waits goes on
(04 R163, R164). -/
theorem lenderAnswer_of_lender {node a : Nat} {p : Resp} {s s1 : State} {x : Anchor}
    (ha : assoc p.tag.toNat s.pool.ancTags = some a) (hx : anchorAt s a = some x) (hl : x.lender = node)
    (hs : s1 = setPool (fun q => { q with ancTags := q.ancTags.filter fun t => t.1 ≠ p.tag.toNat }) s) :
    lenderAnswer node p s = revsAdvance (landTag p.tag.toNat (if p.status = .ok then .ok else .nodeLost) 0 p.payload
      (if p.status = .ok then s1 else loseAnchor x.idx s1)) := by
  subst hs
  simp only [lenderAnswer, ha, Option.bind_some, hx, hl, ne_eq, not_true_eq_false, if_false]

/-- The mirror peer that owes the answer to a TAG answers: its note goes, and what waits goes on (04 R155). -/
theorem mirrorAnswer_of_owed {node : Nat} {p : Resp} {s s1 : State} (h : (s.pool.mirTags.any fun t => t == (p.tag.toNat, node)) = true)
    (hs : s1 = setPool (fun q => { q with mirTags := q.mirTags.filter fun t => t.1 ≠ p.tag.toNat }) s) :
    mirrorAnswer node p s = revsAdvance (landTag p.tag.toNat p.status p.obj.toNat [] s1) := by
  subst hs
  exact if_pos h

/-- Settles O41: the answer's lemma, then the lemma of what the waiting request waits for. -/
theorem lenderAnswersComplete : Obligations.LenderAnswersComplete := by
  unfold Obligations.LenderAnswersComplete
  refine ⟨?lender, ?mirror⟩
  case lender =>
    rintro node a tag p e s s0 s1 x rfl rfl ha hx hl hs
    have hrun := lenderAnswer_of_lender ha hx hl hs
    refine ⟨fun hok w st old hw hwhy _ => ?write, fun hok w key got hw hwhy hop hd => ?read, fun hbad => ?lost⟩
    case write =>
      rw [if_pos hok, if_pos hok, landTag_of_waits hw, landWait_lastWrite hwhy] at hrun
      exact congrArg Host.Outcome.next hrun
    case read =>
      rw [if_pos hok, if_pos hok, landTag_of_waits hw, landWait_lastRead hwhy hop hd] at hrun
      exact congrArg Host.Outcome.next hrun
    case lost =>
      rw [if_neg hbad, if_neg hbad] at hrun
      exact congrArg Host.Outcome.next hrun
  case mirror =>
    rintro node tag p resp e s s0 s1 w rfl rfl howed hs hw hwhy hop hout
    refine congrArg Host.Outcome.next ((mirrorAnswer_of_owed howed hs).trans ?_)
    rw [landTag_of_waits hw, landWait_lastMirror hwhy hop hout]

end Sys2Proof.Machine
end

section
/-! SUPPORT. The commands of regions and windows, branch by branch (04_pool_memory R143 to R158, R180, R676). -/

namespace Sys2Proof.Machine

/-! REGION_CREATE -/

/-- Local placement without a mirror: the region that newRegion enters, or REFUSED (04 R143 to R147). -/
theorem regionCreate_of_local {pick : Nat} {w : Waiting} {s s1 : State} (hplace : (regParams s w.req).place ≠ 2)
    (hmode : (regParams s w.req).mode ≠ .mirrored) :
    (∀ g, newRegion (reqTid w.req) pick (regParams s w.req) s = (s1, some g) →
      regionCreate pick w s = reply w (regionResp s1 w.req g (regParams s w.req)
        (maskWord (maskStacks s (regParams s w.req).mask))) s1) ∧
    (newRegion (reqTid w.req) pick (regParams s w.req) s = (s1, none) → regionCreate pick w s = replySt w .refused s1) := by
  refine ⟨fun g hnew => ?_, fun hnew => ?_⟩
  all_goals
    simp only [regionCreate, hplace, if_false]
    split
    · next h _ => exact absurd h hmode
    · next h _ => exact absurd h hmode
    · rw [hnew]

/-- A MIRRORED region asks its peer for the shadow and waits for the answer (04 R153). -/
theorem regionCreate_of_mirrored {pick node : Nat} {w : Waiting} {s s1 : State} {g : Region}
    (hplace : (regParams s w.req).place ≠ 2) (hmode : (regParams s w.req).mode = .mirrored)
    (hpeer : s.img.mirrorPeers[(regParams s w.req).peer]? = some node)
    (hnew : newRegion (reqTid w.req) pick (regParams s w.req) s = (s1, some g)) :
    ∃ tag s2 s3, regionCreate pick w s = waitFor w (.mirror [tag] (regionResp s3 w.req g (regParams s w.req)
        (maskWord (maskStacks s (regParams s w.req).mask)))) s3
      ∧ s3 = mirrorMsg node 0x90 g.owner tag 0 g.idx (g.size + 2 ^ 20 * (regParams s w.req).ilv) 0 0 [] s2 := by
  refine ⟨s1.coh.nextTag, modRegion g.idx (fun g => { g with shadowNode := node }) (freshTag s1).1, _, ?_, rfl⟩
  simp only [regionCreate, hplace, if_false, hmode, hpeer, hnew]
  rfl

/-- The region that PLACE ANCHOR makes of anchors in list order (04 R146). -/
def anchoredRegion (i xt : Nat) (p : RegParams) (tid : Nat) (as : List Anchor) : Region :=
  { idx := i, mode := p.mode, owner := tid, xtBase := xt, exts := anchorExtents 0 as, ilv := p.ilv, size := sumBy Anchor.len as }

/-- The region of some anchors is entered, and the anchors are in it (04 R146). -/
def enterAnchored (ids : List Nat) (g : Region) (s : State) : State :=
  setPool (fun q => { q with
    anchors := mapIf (fun a => ids.contains a.idx) (fun a => { a with st := .inRegion, region := some g.idx }) q.anchors })
    (addRegion g s)

/-- PLACE ANCHOR of lent anchors of the tenant, within every limit: the region of these anchors is entered (04 R142, R146). -/
theorem createAnchored_of_lent {pick i xt : Nat} {p : RegParams} {w : Waiting} {s : State} {ids : List Nat} {as : List Anchor}
    (hcoh : p.mode ≠ .coherent) (hmir : p.mode ≠ .mirrored) (hlist : 2 * p.anchors ≤ 64 * reqSlots w.req)
    (hids : ids = (List.range p.anchors).map fun i => field w.req.payload (2 * i) 2 % 2 ^ 14)
    (has : as = ids.filterMap (anchorAt s)) (hall : as.length = ids.length) (hdup : ids.eraseDups.length = ids.length)
    (hlent : ∀ a ∈ as, a.tid = reqTid w.req ∧ a.st = .lent) (hsize : sumBy Anchor.len as ≤ maxUnits s)
    (hcount : regionCount s (reqTid w.req) < limitOf s (reqTid w.req) TenantCfg.maxWindows)
    (hfree : freeRegion s pick = some i) (hxt : xtBase s as.length = some xt) {g : Region} {s1 : State}
    (hg : g = anchoredRegion i xt p (reqTid w.req) as) (hs : s1 = enterAnchored ids g s) :
    createAnchored pick p w s = reply w (regionResp s1 w.req g p (maskWord (maskStacks s1 p.mask))) s1 := by
  have hnone : as.any (fun a => decide (a.tid ≠ reqTid w.req) || decide (a.st ≠ .lent)) = false := by
    simpa [List.any_eq_false] using hlent
  subst hg hs
  rw [hall] at hxt
  simp only [createAnchored, ← hids, ← has, hcoh, hmir, Nat.not_lt.2 hlist, hall, hdup, hnone, Nat.not_lt.2 hsize, Nat.not_le.2 hcount, hfree,
    hxt, decide_false, Bool.or_self, Bool.false_eq_true, if_false, ne_eq, not_true_eq_false]
  rfl

/-! Repair, degrading and windows -/

theorem regionRepair_of_room {w : Waiting} {s s1 : State} {g : Region}
    (hg : ownRegion s (reqTid w.req) (op0 w.req % 65536) = some g) (hst : g.st ≠ .revoking)
    (hrep : repairN g.idx (g.mode = .coherent) (lostExts g) s = some s1) :
    regionRepair w s = reply w { mkResp s1 w.req .ok with
      obj := BitVec.ofNat 32 g.idx, r0 := w64 (lostExts g).length } s1 := by
  simp only [regionRepair, hg, hst, hrep, if_false]

theorem regionDegrade_of_fenced {w : Waiting} {s : State} {g : Region}
    (hg : tenantRegion s (reqTid w.req) (op0 w.req % 65536) = some g) (hst : g.st = .fenced) :
    regionDegrade w s = reply w { mkResp s w.req .ok with obj := BitVec.ofNat 32 g.idx, r0 := 1 }
      (modRegion g.idx (fun x => { x with st := .degraded, bound := false }) s) := by
  simp [regionDegrade, hg, hst]

theorem windowCreate_of_unmirrored {pick : Nat} {w : Waiting} {s s1 : State} {g : Region} {x : Window}
    (hg : ownRegion s (reqTid w.req) (op0 w.req % 65536) = some g) (hst : g.st ≠ .revoking) (hlive : mirrorLive g = false)
    (hnew : newWindow (reqTid w.req) pick (reqVa w.req) (bits (op1 w.req) 19 0) (bits (op1 w.req) 51 32) g s = (s1, .ok, x)) :
    windowCreate pick w s = reply w { mkResp s1 w.req .ok with
      obj := BitVec.ofNat 32 (handleOf x), r0 := w64 (x.regOfs + 2 ^ 32 * x.len) } s1 := by
  simp only [windowCreate, hg, hst, hnew, hlive, Bool.false_eq_true, if_false]

/-- Settles O16: each verb runs on the request it takes, by the lemma of its branch. -/
theorem regionCommandsComplete : Obligations.RegionCommandsComplete := by
  unfold Obligations.RegionCommandsComplete
  refine ⟨?create, ?refused, ?mirrored, ?anchored, ?repair, ?degrade, ?window⟩
  case create =>
    intro r e s s0 s1 w g htaken hfits hplace hmode hnew
    exact congrArg Host.Outcome.next ((runVerb_fits _ htaken hfits).trans ((regionCreate_of_local hplace hmode).1 g hnew))
  case refused =>
    intro r e s s0 s1 w htaken hfits hplace hmode hnew
    exact congrArg Host.Outcome.next ((runVerb_fits _ htaken hfits).trans ((regionCreate_of_local hplace hmode).2 hnew))
  case mirrored =>
    intro r e s s0 s1 w g node htaken hfits hplace hmode hpeer hnew
    obtain ⟨tag, s2, s3, hrun, hmsg⟩ := regionCreate_of_mirrored hplace hmode hpeer hnew
    exact ⟨tag, s2, s3, congrArg Host.Outcome.next ((runVerb_fits _ htaken hfits).trans hrun), hmsg⟩
  case anchored =>
    rintro r e s s0 w p ids as i xt htaken hfits rfl hplace hcoh hmir hlist hids has hall hdup hlent hsize hcount hfree hxt
    have hrun := createAnchored_of_lent hcoh hmir hlist hids has hall hdup hlent hsize hcount hfree hxt rfl rfl
    have hverb : regionCreate e.pick w s0 = createAnchored e.pick (regParams s0 w.req) w s0 := if_pos hplace
    exact ⟨_, _, congrArg Host.Outcome.next ((runVerb_fits _ htaken hfits).trans (hverb.trans hrun)), rfl, rfl, rfl, rfl, rfl,
      rfl⟩
  case repair =>
    intro r e s s0 s1 w g htaken hfits hg hst hrep
    exact congrArg Host.Outcome.next ((runVerb_fits _ htaken hfits).trans (regionRepair_of_room hg hst hrep))
  case degrade =>
    intro r e s s0 w g htaken hfits hg hst
    exact congrArg Host.Outcome.next ((runVerb_fits _ htaken hfits).trans (regionDegrade_of_fenced hg hst))
  case window =>
    intro r e s s0 s1 w g x htaken hfits hg hst hlive hnew
    exact congrArg Host.Outcome.next ((runVerb_fits _ htaken hfits).trans (windowCreate_of_unmirrored hg hst hlive hnew))

end Sys2Proof.Machine
end

section
/-! SUPPORT. The commands of lent anchors and the hints, branch by branch (04_pool_memory R160, R165 to R169; 05_coherence R200). -/

namespace Sys2Proof.Machine

theorem anchorLend_of_room {pick i : Nat} {w : Waiting} {s : State}
    (hroom : anchorCount s (reqTid w.req) < limitOf s (reqTid w.req) TenantCfg.maxAnchors)
    (hfree : findFree (fun i => (anchorAt s i).isNone) 16384 pick = some i) :
    anchorLend pick w s = reply w { mkResp s w.req .ok with
      obj := BitVec.ofNat 32 i, r0 := w64 (clampTo 1 32768 (bits (op0 w.req) 47 32)) }
      (setPool (fun p => { p with anchors := p.anchors ++ [
        { idx := i, tid := reqTid w.req, lender := w.req.src, rwin := bits (op0 w.req) 15 0,
          len := clampTo 1 32768 (bits (op0 w.req) 47 32) }] }) s) := by
  simp only [anchorLend, Nat.not_le.2 hroom, hfree, if_false]

theorem anchorReclaim_of_lender {w : Waiting} {s : State} {a : Anchor} (ha : anchorAt s (bits (op0 w.req) 13 0) = some a)
    (hl : a.lender = w.req.src) (ht : a.tid = reqTid w.req) (hgone : anchorGone s a = false) (hst : a.st ≠ .revoking) :
    anchorReclaim w s = revBegin { kind := 4, id := a.idx, node := some w.req.src, since := w.since }
      (waitFor w (.revoke a.idx) s) := by
  simp only [anchorReclaim, ha, hl, ht, hgone, hst, ne_eq, not_true_eq_false, decide_false, Bool.or_self, Bool.false_eq_true,
    if_false]

/-- PREFETCH and WILL_NEED of an accessible range with no unit to fill answer OK at once (04 R167). -/
theorem prefetchRun_of_filled {w : Waiting} {s : State} {x : Window} {g : Region} {o : Nat}
    (hacc : checkAccess s w.ord (reqWin w.req) (reqTid w.req) w.req.src (reqVa w.req) (hintLen w.req) rightR = .ok x g o)
    (hok : partsStatus s w.ord g.owner (partsOf g o (hintLen w.req)) = .ok)
    (hfilled : (anchorUnits (partsOf g o (hintLen w.req))).filter (fun u => (shadowOf s u.1 (u.2 * unit2M)).isNone) = [])
    (got : List (Nat × List Byte)) : prefetchRun w got s = reply w (mkResp s w.req .ok) s := by
  simp only [prefetchRun, hacc, hok, hfilled, List.isEmpty_nil, if_true, ne_eq, not_true_eq_false, if_false]

/-- An ADVISE of another kind acts on an accessible, sound range (04 R676). -/
theorem adviseRange_of_ok {w : Waiting} {s : State} {x : Window} {g : Region} {o : Nat}
    (f : Region → List Part → Nat → State → State)
    (hacc : checkAccess s w.ord (reqWin w.req) (reqTid w.req) w.req.src (reqVa w.req) (hintLen w.req) rightR = .ok x g o)
    (hok : partsStatus s w.ord g.owner (partsOf g o (hintLen w.req)) = .ok) :
    adviseRange w f s = f g (partsOf g o (hintLen w.req)) o s := by
  simp only [adviseRange, hacc, hok, ne_eq, not_true_eq_false, if_false]

/-- Settles O18: each verb runs on the request it takes, by the lemma of its branch. -/
theorem anchorsAndHintsComplete : Obligations.AnchorsAndHintsComplete := by
  unfold Obligations.AnchorsAndHintsComplete
  refine ⟨?lend, ?reclaim, ?fill, ?dontNeed, ?readMostly, ?pin⟩
  case lend =>
    intro r e s s0 w i htaken hfits hroom hfree
    exact congrArg Host.Outcome.next ((runVerb_fits _ htaken hfits).trans (anchorLend_of_room hroom hfree))
  case reclaim =>
    intro r e s s0 w a htaken hfits ha hl ht hgone hst
    exact congrArg Host.Outcome.next ((runVerb_fits _ htaken hfits).trans (anchorReclaim_of_lender ha hl ht hgone hst))
  case fill =>
    intro r e s s0 w i x g o hi hfits hacc hok hfilled
    have hrun := prefetchRun_of_filled hacc hok hfilled []
    rcases hi with ⟨rfl, htaken⟩ | ⟨rfl, htaken⟩
    · exact congrArg Host.Outcome.next ((runVerb_fits _ htaken hfits).trans hrun)
    · exact congrArg Host.Outcome.next ((runVerb_fits _ htaken hfits).trans hrun)
  case dontNeed =>
    intro r e s s0 w x g o htaken hfits hacc hok
    exact ⟨_, congrArg Host.Outcome.next ((runVerb_fits _ htaken hfits).trans (adviseRange_of_ok _ hacc hok)), rfl, rfl⟩
  case readMostly =>
    intro r e s s0 w x g o htaken hfits hacc hok hmode
    refine ⟨_, congrArg Host.Outcome.next ((runVerb_fits _ htaken hfits).trans ((adviseRange_of_ok _ hacc hok).trans ?_)), rfl⟩
    simp only [hmode, if_true]
  case pin =>
    intro r e s s0 w x g o htaken hfits hacc hok
    exact ⟨_, congrArg Host.Outcome.next ((runVerb_fits _ htaken hfits).trans (adviseRange_of_ok _ hacc hok)), rfl⟩

end Sys2Proof.Machine
end

section
/-! SUPPORT. The messages of mirror peers and the failures of stacks, branch by branch (04_pool_memory R153 to R159; 06_pool_verbs R237;
13_memory_integrity R528). -/

namespace Sys2Proof.Machine

/-! MIRROR_BIND -/

theorem mirrorBind_region {pick : Nat} {w : Waiting} {s s1 s2 : State} {g : Region} (h1 : w.req.subop ≠ 1) (h2 : w.req.subop ≠ 2)
    (hnew : newRegion (reqTid w.req) pick
      { mode := .mirrored, size := clampTo 1 (maxUnits s) (bits (op1 w.req) 19 0), ilv := min 2 (bits (op1 w.req) 21 20) } s
        = (s1, some g))
    (hs : s2 = modRegion g.idx (fun g => { g with
      st := .shadow, isShadow := true, bound := true, shadowNode := w.req.src, otherIdx := op0 w.req % 65536 }) s1) :
    mirrorBind pick w s = reply w { mkResp s2 w.req .ok with obj := BitVec.ofNat 32 g.idx } (sawMirror w.req.src s2) := by
  subst hs
  simp only [mirrorBind, h1, h2, if_false, bindRegion, hnew]

theorem mirrorBind_window {pick : Nat} {w : Waiting} {s s1 : State} {g : Region} {x : Window} (h1 : w.req.subop = 1)
    (hg : shadowRegion s w.req.src (op0 w.req % 65536) = some g)
    (hnew : newWindow (reqTid w.req) pick (reqVa w.req) (bits (op1 w.req) 19 0) (bits (op1 w.req) 51 32) g s = (s1, .ok, x)) :
    mirrorBind pick w s = reply w { mkResp s1 w.req .ok with obj := BitVec.ofNat 32 (handleOf x) } s1 := by
  simp only [mirrorBind, h1, if_true, bindWindow, hg, hnew]

theorem mirrorBind_grant {pick : Nat} {w : Waiting} {s : State} {g : Region} {x : Window} {y : Grant} (h2 : w.req.subop = 2)
    (hg : shadowRegion s w.req.src (op0 w.req % 65536) = some g) (hx : windowOf s (reqVa w.req / 2 ^ 32 % 2 ^ 24) = some x)
    (hr : x.region = g.idx)
    (hy : y = { tid := bits (reqVa w.req) 11 0, first := bits (op1 w.req) 19 0, nodes := clampTo 1 1048576 (bits (op1 w.req) 52 32),
                rights := BitVec.ofNat 3 (bits (reqVa w.req) 18 16) }) :
    mirrorBind pick w s = replySt w (addGrant x g y s).2.1 (addGrant x g y s).1 := by
  subst hy
  have hverb : mirrorBind pick w s = bindGrant w s := by simp [mirrorBind, h2]
  rw [hverb]
  simp only [bindGrant, if_false, hg, hx, hr, ne_eq, not_true_eq_false]

/-! The other messages -/

theorem mirrorWrite_of_shadow {w : Waiting} {s : State} {g : Region} {len : Nat} (hlen : len = min (reqLen w.req) (64 * reqSlots w.req))
    (hg : shadowRegion s w.req.src (op0 w.req % 65536) = some g) (hst : g.st = .shadow)
    (hfits : reqVa w.req + len ≤ g.size * unit2M) :
    mirrorWrite w s = replySt w (storePieces w.ord g w.req.payload (partsOf g (reqVa w.req) len) s).2.1
      (storePieces w.ord g w.req.payload (partsOf g (reqVa w.req) len) s).1 := by
  subst hlen
  simp only [mirrorWrite, hg, hst, Nat.not_lt.2 hfits, ne_eq, not_true_eq_false, decide_false, Bool.or_self, Bool.false_eq_true,
    if_false]

theorem handoff_of_shadow {w : Waiting} {s : State} {g : Region} (hg : shadowRegion s w.req.src (op0 w.req % 65536) = some g)
    (hst : g.st = .shadow) : handoff w s = replySt w .ok (openShadow g s) := by
  simp only [handoff, hg, hst, if_true]

theorem mirrorBreak_of_peer {w : Waiting} {s : State} {g : Region} (hg : regionAt s (op0 w.req % 65536) = some g)
    (hmode : g.mode = .mirrored) (hbound : g.bound = true) (hprim : g.isShadow = false) (hpeer : g.shadowNode = w.req.src)
    (hst : g.st = .active) :
    mirrorBreak w s = replySt w .ok (mirrorGiveUp (op0 w.req % 65536)
      (modRegion (op0 w.req % 65536) (fun g => { g with st := .degraded, bound := false }) s)) := by
  simp [mirrorBreak, hg, hmode, hbound, hprim, hpeer, hst]

/-- A module of a stack's link leaves service; the last one takes the stack with it (01 R19; 13 R528). -/
theorem dieModuleOut_of_fitted {k m : Nat} {s s1 : State} (hd : (stackAt s k).d2d.getLsbD m = true)
    (hf : (stackAt s k).fitted = true)
    (hs : s1 = cairnAt 0x0B 2 k 1 0 (0x50 + k) 0xFFFF .ok (modStack k (fun x => { x with d2d := x.d2d &&& ~~~ (1#4 <<< m) }) s)) :
    dieModuleOut k m s = if (stackAt s1 k).d2d = 0 then stackFail k 1 s1 else s1 := by
  subst hs
  exact if_pos (by rw [hd, hf]; rfl)

/-- Settles O19: each message runs on the request it takes, by the lemma of its branch; the timers and the failures of stacks are
their definitions' branches. -/
theorem mirrorAndStackCommandsComplete : Obligations.MirrorAndStackCommandsComplete := by
  unfold Obligations.MirrorAndStackCommandsComplete
  refine ⟨?bind, ?messages, ?events⟩
  case bind =>
    intro r e s s0 s1 s2 w g x y hfits htaken
    have hrun := runVerb_fits (mirrorBind e.pick) htaken hfits
    refine ⟨fun h1 h2 hnew hs => ?_, fun h1 hg hnew => ?_, fun h2 hg hx hr hy => ?_⟩
    · exact congrArg Host.Outcome.next (hrun.trans (mirrorBind_region h1 h2 hnew hs))
    · exact congrArg Host.Outcome.next (hrun.trans (mirrorBind_window h1 hg hnew))
    · exact congrArg Host.Outcome.next (hrun.trans (mirrorBind_grant h2 hg hx hr hy))
  case messages =>
    intro r e s s0 s1 w g len hfits
    refine ⟨?write, ?heartbeat, ?handoff, ?break'⟩
    case write =>
      rintro htaken hlen hg hst hroom st rfl rfl
      exact congrArg Host.Outcome.next ((runVerb_fits _ htaken hfits).trans (mirrorWrite_of_shadow hlen hg hst hroom))
    case heartbeat =>
      rintro htaken rfl
      exact congrArg Host.Outcome.next (runVerb_fits _ htaken hfits)
    case handoff =>
      intro htaken hg hst
      exact congrArg Host.Outcome.next ((runVerb_fits _ htaken hfits).trans (handoff_of_shadow hg hst))
    case break' =>
      intro htaken hg hmode hbound hprim hpeer hst
      exact congrArg Host.Outcome.next
        ((runVerb_fits _ htaken hfits).trans (mirrorBreak_of_peer hg hmode hbound hprim hpeer hst))
  case events =>
    rintro i k m e s s0 g rfl
    refine ⟨rfl, fun hg hlive hsilent => congrArg Host.Outcome.next ?fence, fun hg hsh hb hst hsilent =>
      congrArg Host.Outcome.next ?openShadow, rfl, fun s1 hd hf hs => congrArg Host.Outcome.next (dieModuleOut_of_fitted hd hf hs)⟩
    case fence => simp only [hg, hlive, hsilent, Bool.and_self, if_true]
    case openShadow => simp only [hg, hsh, hb, hst, hsilent, decide_true, Bool.and_self, if_true]

end Sys2Proof.Machine
end

section
/-! SUPPORT. The statement that a memory verb writes the bytes of its operand alone (04_pool_memory R178; 13_memory_integrity R521, R528)
fails, for it speaks of every state. In a table that lists a region's index twice, the loss of a stack puts the extents of the second
entry into the first. A part of a STORE under way then finds its extent no more and goes by what it remembers of it, the more so
where the region had another extent in the same place. No command of the model makes such a table. -/

namespace Sys2Proof.Machine

/-! A copy that has come to its end -/

theorem memCopy_empty (m : List (Nat × BitVec 8)) (src dst : Nat) : memCopy m src dst 0 = m := by
  have hsrc : m.filter (fun c => decide (src ≤ c.1) && decide (c.1 < src + 0)) = [] := by simp
  have hdst : memZero m dst 0 = m := List.filter_eq_self.2 fun c _ => by simp; omega
  rw [memCopy, hsrc, hdst]
  rfl

/-- A copy of no bytes changes neither memory nor error patterns nor the tables. -/
theorem copyDram_empty (src dst : Nat) (s : State) :
    (copyDram src dst 0 s).mem = s.mem ∧ (copyDram src dst 0 s).ecc = s.ecc ∧ (copyDram src dst 0 s).pool = s.pool := by
  have hhit : (s.ecc.errs.map Prod.fst).filter (fun l => decide (src / 128 ≤ l) && decide (l < (src + 0) / 128)) = [] := by simp
  have herrs : s.ecc.errs.filter (fun x => !decide (dst / 128 ≤ x.1) || !decide (x.1 < dst / 128)) = s.ecc.errs :=
    List.filter_eq_self.2 fun x _ => by simp; omega
  unfold copyDram
  simp only [hhit, List.foldl_nil]
  exact ⟨by simp [memCopy_empty], by simp [herrs], by simp⟩

theorem modRegion_id {i : Nat} {f : Region → Region} (h : ∀ g, f g = g) (s : State) : modRegion i f s = s := by
  have hf : f = id := funext h
  subst hf
  simp [modRegion, mapIf, setPool]

/-- The copy of an extent that has come to its end goes no further (04 R178). -/
theorem advanceCopy_of_ended {i : Nat} {x : Extent} {s : State} (h : (extentNow s i x).copyPtr = 2 * (extentNow s i x).len) :
    (advanceCopy i x s).mem = s.mem ∧ (advanceCopy i x s).ecc = s.ecc ∧ (advanceCopy i x s).pool = s.pool := by
  unfold advanceCopy
  simp only [h, Nat.sub_self, Nat.zero_add, Nat.mod_one, Nat.zero_mul, Nat.add_zero]
  split
  · exact ⟨rfl, rfl, rfl⟩
  · rw [modRegion_id fun g => by simp [mapIf]]
    exact copyDram_empty _ _ _

/-! One piece of a write -/

theorem extentNow_congr {i : Nat} {s t : State} (h : t.pool = s.pool) (x : Extent) : extentNow t i x = extentNow s i x := by
  simp only [extentNow, regionAt, h]

/-- A state that lists no error pattern has sound lines only. -/
theorem soundAt_of_noErrs {s : State} (h : s.ecc.errs = []) (pa n : Nat) : soundAt s pa n := by
  intro l _ _
  simp [linePat, assocD, assoc, h]

/-- A piece below COPY_PTR of an extent on its way is written to both copies (04 R178). -/
theorem writeBoth_of_copied {i pa : Nat} {p : Part} {x : Extent} {d : List Byte} {s t : State}
    (hmoves : (p.x.anchor.isNone && p.x.migrating) = true) (ht : advanceCopy i p.x s = t) (hx : extentNow t i p.x = x)
    (hcopied : (p.x.anchor.isNone && x.migrating && decide (p.ofs / 2 ^ 20 < x.copyPtr)) = true) :
    (writeBoth i p pa d s).1 =
      (writeDram (x.newStack * 2 ^ 36 + x.newBase * unit2M + p.ofs) d (writeDram pa d t).1).1 := by
  rw [writeBoth, if_pos hmoves, ht, hx]
  generalize writeDram pa d t = q
  dsimp only
  rw [if_pos hcopied]

/-- A piece whose extent has been copied to the end is written to the new run too, where it stands after the write (04 R178). -/
theorem writeBoth_reaches_newRun {i pa pb : Nat} {p : Part} {b : Byte} {s : State} (hloc : p.x.anchor = none)
    (hmig : p.x.migrating = true) (hnow : extentNow s i p.x = p.x) (hend : p.x.copyPtr = 2 * p.x.len)
    (hbelow : p.ofs / 2 ^ 20 < p.x.copyPtr) (hwf : Memory.wf s.mem = true) (herrs : s.ecc.errs = [])
    (hpb : p.x.newStack * 2 ^ 36 + p.x.newBase * unit2M + p.ofs = pb) :
    memRead (writeBoth i p pa [b] s).1.mem pb = b := by
  obtain ⟨hmem, hecc, hpool⟩ := advanceCopy_of_ended (x := p.x) (s := s) (i := i) (by rw [hnow, hend])
  have hmoves : (p.x.anchor.isNone && p.x.migrating) = true := by rw [hloc, hmig]; rfl
  have hsound := soundAt_of_noErrs (s := advanceCopy i p.x s) (by rw [hecc, herrs])
  obtain ⟨-, hold⟩ := writeDram_sound (d := [b]) (hmem.symm ▸ hwf) (hsound pa _)
  obtain ⟨-, hnew⟩ := writeDram_sound (d := [b]) hold.wf (hold.soundAt (hsound pb _))
  rw [writeBoth_of_copied hmoves rfl ((extentNow_congr hpool p.x).trans hnow) (by rw [hmoves, decide_eq_true hbelow]; rfl),
    hpb, hnew.bytes, if_pos ⟨Nat.le_refl _, by simp⟩, Nat.sub_self]
  rfl

/-- A piece of a local extent of a region without a live mirror is written to DRAM alone. -/
theorem writePiece_of_local {g : Region} {p : Part} (hloc : p.x.anchor = none) (hlive : mirrorLive g = false) (d : List Byte)
    (s : State) : (writePiece g p d s).1 = (writeBoth g.idx p (partPa p) d s).1 := by
  simp only [writePiece, pieceAddr, hloc, hlive, Option.isSome_none, Bool.false_eq_true, if_false]
  split <;> rfl

theorem storePieces_nil {ord : Nat} {g : Region} {data : List Byte} {s : State} : (storePieces ord g data [] s).1 = s := rfl

/-- A sound piece of a STORE to a region that is not COHERENT is written, then the others. -/
theorem storePieces_cons {ord : Nat} {g : Region} {data : List Byte} {p : Part} {s : State} (hmode : g.mode ≠ .coherent)
    (hok : partStatus s ord g.owner p = .ok) (ps : List Part) :
    (storePieces ord g data (p :: ps) s).1 = (storePieces ord g data ps (writePiece g p (slice data p.pos p.len) s).1).1 := by
  simp [storePieces, hok, hmode]

/-- A tenant that is not PARTITIONED has no budget to use (12 R504). -/
theorem useBudget_of_noParts {s : State} (h : s.qos.parts = []) (tid : Nat) (ps : List Part) : useBudget tid ps s = some s := by
  simp [useBudget, h]

/-! The table that lists an index twice -/

/-- The first extent of the region: it stays where it is. -/
def stillExtent : Extent := { base := 8, len := 1 }

/-- The second extent, in the same place: it has been copied to stack 2. -/
def movedExtent : Extent := { base := 8, start := 1, len := 1, migrating := true, newStack := 2, newBase := 8, copyPtr := 2 }

/-- The region that the window names. -/
def namedRegion : Region := { idx := 1, owner := 1, size := 2, exts := [stillExtent, movedExtent] }

/-- The second region of the same index, with other extents of the same stack. -/
def secondRegion : Region := { namedRegion with exts := [{ base := 16, len := 1 }, { base := 17, start := 1, len := 1 }] }

/-- The window of tenant 1. -/
def namedWindow : Window :=
  { idx := 1, owner := 1, region := 1, len := 2, grants := [some { tid := 1, first := 16, nodes := 1, rights := 7 }] }

/-- An open module with both regions. One symbol of the last line of the first extent is disturbed, in a pseudo-channel of stack 0
where one lane is in erasure mode and another has had 15 errors: the next one fails the stack. -/
def doubledTable : State :=
  { State.reset with
    now := 5000000000
    boot := { State.reset.boot with st := .poolOpen }
    img := { State.reset.img with
      tenants := [{ tid := 1, enabled := true, maxContexts := 1 }]
      hosts := [{ tid := 1, first := 16, nodes := 1 }] }
    onx := { State.reset.onx with tkeys := [{ tid := 1, st := .active }] }
    sec := { State.reset.sec with peers := [{ node := 16, st := .active }] }
    pool := { State.reset.pool with regions := [namedRegion, secondRegion], windows := [namedWindow] }
    ecc := { State.reset.ecc with errs := [(147455, [(5, 1)])] }
    stks := modNth 0 (fun x => { x with erase := [(63, 7)], laneHits := List.replicate 15 (63, 5, 5000000000) }) State.reset.stks }

/-- A STORE of two bytes, the last of the first extent and the first of the second. -/
def crossing : Req := { src := 16, tid := 1, opcode := 2, tc := 2, win := 1, va := 0x1FFFFF, len := 2, payload := [1, 1] }

/-- The part of the STORE in the first extent. -/
def firstPart : Part := { o := 0x1FFFFF, len := 1, ofs := 0x1FFFFF, x := stillExtent }

/-- The part of the STORE in the second extent. -/
def secondPart : Part := { pos := 1, o := 0x200000, len := 1, ext := 1, x := movedExtent }

/-- The state after the write of the first part: the stack has failed. -/
def afterFirst (s : State) : State := (writePiece namedRegion firstPart [1] s).1

/-- What the STORE meets in the state that it is taken in: it may write both parts. -/
def mayCross (w : Waiting) (s : State) : Bool :=
  !overtakes s w && decide (checkAccess s w.ord 1 1 16 0x1FFFFF 2 rightW = .ok namedWindow namedRegion 0x1FFFFF)
    && decide (partStatus s w.ord 1 firstPart = .ok) && s.qos.parts.isEmpty
    && decide (extentNow s 1 stillExtent = stillExtent) && decide (extentNow s 1 movedExtent = stillExtent)

/-- What the second part meets: its extent is found no more, and memory is canonical and sound. -/
def lostItsExtent (w : Waiting) (s : State) : Bool :=
  decide (partStatus s w.ord 1 secondPart = .ok) && decide (extentNow s 1 movedExtent = movedExtent)
    && Memory.wf s.mem && s.ecc.errs.isEmpty

/-- The first byte of the run on stack 2, where no byte of the STORE's operand lies. -/
def strayByte : Nat := 2 * 2 ^ 36 + 8 * 2 ^ 21

/-- The STORE is taken, and its parts meet what they meet. -/
theorem crossing_taken : ∃ w s0, taken crossing {} (applySram {} (atTime 0 doubledTable)) = some (w, s0)
    ∧ mayCross w s0 = true ∧ lostItsExtent w (afterFirst s0) = true := by
  have h : (taken crossing {} (applySram {} (atTime 0 doubledTable))).any
    (fun x => mayCross x.1 x.2 && lostItsExtent x.1 (afterFirst x.2)) = true := by decide +kernel
  obtain ⟨⟨w, s0⟩, htaken, hmeets⟩ := (Option.any_eq_true ..).1 h
  exact ⟨w, s0, htaken, (Bool.and_eq_true _ _).mp hmeets⟩

theorem pieces_crossing : pieces (namedRegion.mode = .coherent) (partsOf namedRegion 0x1FFFFF 2) = [firstPart, secondPart] := by
  decide +kernel

/-- The STORE runs to the writes of its two parts. -/
theorem crossing_runs {w : Waiting} {s0 : State} (htaken : taken crossing {} (applySram {} (atTime 0 doubledTable)) = some (w, s0))
    (hmay : mayCross w s0 = true) : ∃ t, exec (.store crossing {}) doubledTable = .next t
      ∧ t.mem = (storePieces w.ord namedRegion [1, 1] [firstPart, secondPart] s0).1.mem := by
  simp only [mayCross, Bool.and_eq_true, Bool.not_eq_true', decide_eq_true_eq, List.isEmpty_iff] at hmay
  obtain ⟨⟨⟨⟨⟨hov, hacc⟩, -⟩, hparts⟩, -⟩, -⟩ := hmay
  have hreq : w.req = crossing := taken_req htaken
  have hop : w.op = 2 := taken_op htaken
  have hctl : reqCtl w.req = false := by rw [hreq]; decide
  have hrun := storeRun_writes (s := s0) (s1 := s0) (Or.inl hop) (by simp [hop]) (by rw [hreq]; decide) rfl
    (by rw [hreq]; exact hacc) rfl (useBudget_of_noParts hparts _ _) rfl
  refine ⟨_, congrArg Host.Outcome.next (((runVerb_attempt htaken hctl hov).trans (memAttempt_store (Or.inl hop) [] s0)).trans hrun), ?_⟩
  rw [(finishWrite_keeps ..).mem_eq rfl, hreq]
  exact congrArg (fun l => (storePieces w.ord namedRegion [1, 1] l s0).1.mem) pieces_crossing

/-- The second part is written to the run that only it remembers. -/
theorem crossing_strays {w : Waiting} {s0 : State} (hmay : mayCross w s0 = true) (hlost : lostItsExtent w (afterFirst s0) = true) :
    memRead (storePieces w.ord namedRegion [1, 1] [firstPart, secondPart] s0).1.mem strayByte = 1 := by
  simp only [mayCross, lostItsExtent, Bool.and_eq_true, decide_eq_true_eq, List.isEmpty_iff] at hmay hlost
  obtain ⟨⟨⟨⟨-, hfirst⟩, -⟩, -⟩, -⟩ := hmay
  obtain ⟨⟨⟨hsecond, hnow⟩, hwf⟩, herrs⟩ := hlost
  have hmode : namedRegion.mode ≠ .coherent := by decide
  rw [storePieces_cons hmode hfirst]
  have hfirstCut : slice ([1, 1] : List Byte) firstPart.pos firstPart.len = [1] := rfl
  have hsecondCut : slice ([1, 1] : List Byte) secondPart.pos secondPart.len = [1] := rfl
  rw [hfirstCut, ← afterFirst]
  generalize afterFirst s0 = u at hsecond hnow hwf herrs
  rw [storePieces_cons hmode hsecond, hsecondCut, storePieces_nil, writePiece_of_local rfl rfl]
  exact writeBoth_reaches_newRun rfl rfl hnow rfl (by decide) hwf herrs rfl

/-- The stray byte lies neither in a line of the landings of a part nor in what the copy of an extent on its way may change. -/
theorem strayByte_outside {w : Waiting} {s0 : State} (hmay : mayCross w s0 = true) : ∀ p ∈ [firstPart, secondPart],
    ¬ inCopy s0 1 p strayByte ∧ ∀ pa ∈ landings s0 1 p, ¬ inLines pa p.len strayByte := by
  simp only [mayCross, Bool.and_eq_true, decide_eq_true_eq] at hmay
  obtain ⟨⟨-, hstill⟩, hmoved⟩ := hmay
  have hall : ∀ p ∈ [firstPart, secondPart], extentNow s0 1 p.x = stillExtent ∧ p.x.anchor = none
      ∧ ¬ inLines (partPa p) p.len strayByte := by
    simp only [List.forall_mem_cons]
    exact ⟨⟨hstill, rfl, by unfold inLines; decide⟩, ⟨hmoved, rfl, by unfold inLines; decide⟩, by simp⟩
  intro p hp
  obtain ⟨hnow, hloc, hfar⟩ := hall p hp
  refine ⟨fun hcopy => ?_, fun pa hpa => ?_⟩
  · obtain ⟨-, hmig, -⟩ := hcopy
    rw [hnow] at hmig
    exact absurd hmig (by decide)
  · have hland : landings s0 1 p = [partPa p] := by
      simp only [landings, hloc, hnow]
      rfl
    rw [hland, List.mem_singleton] at hpa
    exact hpa ▸ hfar

/-- Refutes O49: a STORE across two extents of a region whose index the table lists twice. Its first part fails their stack, and the
loss of the second region's extents takes the first region's out of the table. Its second part then writes the run of stack 2, which
neither the landings nor the copy of the state before the STORE holds. -/
theorem not_memoryVerbsWriteTheirOperand : ¬ Obligations.MemoryVerbsWriteTheirOperand := by
  unfold Obligations.MemoryVerbsWriteTheirOperand
  intro h
  obtain ⟨w, s0, htaken, hmay, hlost⟩ := crossing_taken
  obtain ⟨t, hrun, hmem⟩ := crossing_runs htaken hmay
  have hreq : w.req = crossing := taken_req htaken
  have hacc : checkAccess s0 w.ord 1 1 16 0x1FFFFF 2 rightW = .ok namedWindow namedRegion 0x1FFFFF := by
    simp only [mayCross, Bool.and_eq_true, decide_eq_true_eq] at hmay
    obtain ⟨⟨⟨⟨⟨-, hacc⟩, -⟩, -⟩, -⟩, -⟩ := hmay
    exact hacc
  obtain ⟨hframe, -⟩ := h crossing crossing {} doubledTable s0 t w _ 2 rightW rfl htaken (by rw [hreq]; decide)
    (Or.inl ⟨rfl, rfl, rfl, by rw [hreq]; decide⟩) hrun
  obtain ⟨hlines, -⟩ := hframe namedWindow namedRegion 0x1FFFFF ([firstPart, secondPart] ++ [firstPart, secondPart])
    (by rw [hreq]; exact hacc) (congrArg₂ (· ++ ·) pieces_crossing.symm pieces_crossing.symm)
  have hsame := hlines strayByte fun p hp => strayByte_outside hmay p ((List.mem_append.1 hp).elim id id)
  rw [hmem, crossing_strays hmay hlost] at hsame
  exact absurd hsame (by decide)

end Sys2Proof.Machine
end

section
/-! SUPPORT. The operations of ATOMIC, branch by branch, and the statement about them (05_coherence R187, R194, R207; 06_pool_verbs
R230 to R233). -/

namespace Sys2Proof.Machine

/-! The operation that a request names -/

/-- The OP field of an ATOMIC's request is the operation of its command (06 R233). -/
theorem atomicReq_op (r : Req) {op : Byte} (h : op.toNat < 8) : (atomicReq op r).subop.toNat % 8 = op.toNat := by
  have hmask : (0xF8 : Byte).toNat % 2 ^ 3 = 0 := rfl
  change (r.subop &&& 0xF8 ||| op).toNat % 2 ^ 3 = op.toNat
  rw [BitVec.toNat_or, BitVec.toNat_and, Nat.or_mod_two_pow, Nat.and_mod_two_pow, hmask, Nat.and_zero, Nat.zero_or]
  exact Nat.mod_eq_of_lt h

/-- The OP field of FETCH is 0 or a reserved code (06 R233). -/
theorem fetchSubop_op (b : Byte) : (fetchSubop b).toNat % 8 = 0 ∨ 6 ≤ (fetchSubop b).toNat % 8 := by
  revert b
  decide

/-- FETCH has no new value, whatever the operands (06 R233). -/
theorem atomicNew_fetch (b : Byte) (width : Nat) (signed : Bool) (old x y : Nat) :
    atomicNew ((fetchSubop b).toNat % 8) width signed old x y = none := by
  rcases fetchSubop_op b with h | h
  · rw [h]
    rfl
  · obtain ⟨k, hk⟩ := Nat.exists_eq_add_of_le' h
    rw [hk]
    rfl

/-- A CAS that does not find its operand has no new value (06 R233). -/
theorem atomicNew_cas_differs {old x : Nat} (h : old ≠ x) (width : Nat) (signed : Bool) (y : Nat) :
    atomicNew 3 width signed old x y = none := if_neg h

/-- A CAS that finds its operand writes the other one (06 R233). -/
theorem atomicNew_cas_equal {old x : Nat} (h : old = x) (width : Nat) (signed : Bool) (y : Nat) :
    atomicNew 3 width signed old x y = some y := if_pos h

/-- The new value of the ATOMIC r with operation k on an operand that reads as d, where it has one (06 R233). -/
def atomicValue (k : Nat) (r : Req) (d : List Byte) : Option Nat :=
  atomicNew k (atomicWidth r) (r.subop.getLsbD 4) (ofLe d) (op0 r % 2 ^ (8 * atomicWidth r)) (op1 r % 2 ^ (8 * atomicWidth r))

/-- The command i is a row of ATOMIC: it runs the memory verb on the request q, whose operation is k (06 R233). -/
structure AtomicRow (i : Instr) (q : Req) (e : Env) (k : Nat) : Prop where
  /-- The command runs the memory verb on the request. -/
  runs : ∀ s : State, exec i s = .next (runVerb q e memVerb (applySram e (atTime e.t s)))
  /-- The request is an ATOMIC. -/
  opcode : q.opcode = 0x04
  /-- The OP field of the request. -/
  op : q.subop.toNat % 8 = k

/-- FETCH is a row of ATOMIC, with the operation that its SUBOP names. -/
theorem atomicFetch_row (r : Req) (e : Env) : AtomicRow (.atomicFetch r e)
    { r with opcode := 0x04, subop := fetchSubop r.subop } e ((fetchSubop r.subop).toNat % 8) := ⟨fun _ => rfl, rfl, rfl⟩

theorem atomicAdd_row (r : Req) (e : Env) : AtomicRow (.atomicAdd r e) (atomicReq 1 r) e 1 :=
  ⟨fun _ => rfl, rfl, atomicReq_op r (by decide)⟩

theorem atomicSwap_row (r : Req) (e : Env) : AtomicRow (.atomicSwap r e) (atomicReq 2 r) e 2 :=
  ⟨fun _ => rfl, rfl, atomicReq_op r (by decide)⟩

theorem atomicCas_row (r : Req) (e : Env) : AtomicRow (.atomicCas r e) (atomicReq 3 r) e 3 :=
  ⟨fun _ => rfl, rfl, atomicReq_op r (by decide)⟩

theorem atomicMin_row (r : Req) (e : Env) : AtomicRow (.atomicMin r e) (atomicReq 4 r) e 4 :=
  ⟨fun _ => rfl, rfl, atomicReq_op r (by decide)⟩

theorem atomicMax_row (r : Req) (e : Env) : AtomicRow (.atomicMax r e) (atomicReq 5 r) e 5 :=
  ⟨fun _ => rfl, rfl, atomicReq_op r (by decide)⟩

/-! The attempt -/

/-- A row of ATOMIC runs atomicRun on the request that it takes, where that names a window and overtakes nothing. -/
theorem AtomicRow.attempt {i : Instr} {q : Req} {e : Env} {k : Nat} {s s0 : State} {w : Waiting} (hrow : AtomicRow i q e k)
    (htaken : taken q e (applySram e (atTime e.t s)) = some (w, s0)) (hctl : reqCtl w.req = false)
    (hov : overtakes s0 w = false) : exec i s = .next (atomicRun w [] s0) := by
  have hop : w.op = 4 := (taken_op htaken).trans (congrArg BitVec.toNat hrow.opcode)
  have hattempt : memAttempt w [] s0 = atomicRun w [] s0 := by simp [memAttempt, hop]
  rw [hrow.runs, runVerb_attempt htaken hctl hov, hattempt]

/-- The operation of the request that a row of ATOMIC takes. -/
theorem AtomicRow.taken_op {i : Instr} {q : Req} {e : Env} {k : Nat} {s s0 : State} {w : Waiting} (hrow : AtomicRow i q e k)
    (htaken : taken q e s = some (w, s0)) : w.req.subop.toNat % 8 = k := by
  rw [taken_req htaken]
  exact hrow.op

/-- An ATOMIC, aligned, of a sound operand of a region that is not COHERENT goes to its data (06 R231, R232). -/
theorem atomicRun_of_plain {w : Waiting} {s : State} {x : Window} {g : Region} {o : Nat}
    (halign : reqVa w.req % atomicWidth w.req = 0)
    (hacc : checkAccess s w.ord (reqWin w.req) (reqTid w.req) w.req.src (reqVa w.req) (atomicWidth w.req) rightA = .ok x g o)
    (hmode : g.mode ≠ .coherent) (hok : partsStatus s w.ord g.owner (partsOf g o (atomicWidth w.req)) = .ok)
    (got : List (Nat × List Byte)) : atomicRun w got s = atomicDo w g (partsOf g o (atomicWidth w.req)) got s := by
  simp only [atomicRun, halign, hacc, hok, hmode, ne_eq, not_true_eq_false, if_false]

/-- An ATOMIC of a COHERENT region whose line the directory lets through, and which is not lost, leaves the line in I and goes to its
data (05 R194, R196, R207). -/
theorem atomicRun_of_coherent {w : Waiting} {s s1 : State} {x : Window} {g : Region} {o : Nat}
    (halign : reqVa w.req % atomicWidth w.req = 0)
    (hacc : checkAccess s w.ord (reqWin w.req) (reqTid w.req) w.req.src (reqVa w.req) (atomicWidth w.req) rightA = .ok x g o)
    (hmode : g.mode = .coherent) (hok : partsStatus s w.ord g.owner (partsOf g o (atomicWidth w.req)) = .ok)
    (hgo : cohGate w.ord g.idx [o / 128] .write ((slotOf g w.req.src).map Slot.k) s = (s1, .go))
    (hlm : lineLm s1 g.idx (o / 128) = false) (got : List (Nat × List Byte)) :
    atomicRun w got s = atomicDo w g (partsOf g o (atomicWidth w.req)) got (setDir { region := g.idx, line := o / 128 } s1) := by
  simp only [atomicRun, halign, hacc, hok, hmode, hgo, hlm, ne_eq, not_true_eq_false, Bool.false_eq_true, if_false, if_true]

/-! The data -/

/-- An ATOMIC without a new value answers OK with the old one and writes nothing (06 R233). -/
theorem atomicDo_reads {w : Waiting} {g : Region} {ps : List Part} {got : List (Nat × List Byte)} {s s1 s2 : State} {d : List Byte}
    (hneed : needRd s got (pieces false ps) = []) (hroom : useBudget (ctxTid s w.ord w.req) ps s = some s1)
    (hread : readPieces 0 got (pieces false ps) s1 = (s2, some d))
    (hnew : atomicValue (w.req.subop.toNat % 8) w.req d = none) :
    atomicDo w g ps got s = finishMem w { mkResp s2 w.req .ok with r0 := w64 (ofLe d) } s2 := by
  rw [atomicValue] at hnew
  simp only [atomicDo, hneed, hroom, hread, hnew, List.isEmpty_nil, if_true]

/-- An ATOMIC with a new value writes it over the operand and answers the old one where the write succeeds (05 R187; 06 R233). -/
theorem atomicDo_writes {w : Waiting} {g : Region} {ps : List Part} {got : List (Nat × List Byte)} {s s1 s2 s3 : State}
    {d : List Byte} {v : Nat} {st : Status} {tags : List Nat} (hmode : g.mode ≠ .coherent)
    (hneed : needRd s got (pieces false ps) = []) (hroom : useBudget (ctxTid s w.ord w.req) ps s = some s1)
    (hread : readPieces 0 got (pieces false ps) s1 = (s2, some d))
    (hnew : atomicValue (w.req.subop.toNat % 8) w.req d = some v)
    (hwrite : storePieces w.ord g (le (atomicWidth w.req) v) (pieces false ps) s2 = (s3, st, tags)) :
    atomicDo w g ps got s = finishWrite w { mkResp s3 w.req st with r0 := w64 (if st = .ok then ofLe d else 0) }
      (g.mode ≠ .mirrored) tags d s3 := by
  rw [atomicValue] at hnew
  simp only [atomicDo, hneed, hroom, hread, hnew, hmode, decide_false, hwrite, List.isEmpty_nil, if_true]

/-- Settles O23: each command is a row of ATOMIC, which runs by the mode of its region; what its data do follows from its new value. -/
theorem atomicsComplete : Obligations.AtomicsComplete := by
  unfold Obligations.AtomicsComplete
  refine ⟨?plain, ?coherent⟩
  case plain =>
    rintro r e s s0 s1 s2 w x g o _ _ _ _ q d i htaken hctl hov rfl halign hacc hmode hok hneed hroom hread rfl rfl rfl
    have hdo : ∀ {k}, AtomicRow i q e k → exec i s = .next (atomicDo w g (partsOf g o (atomicWidth w.req)) [] s0) := fun hrow =>
      (hrow.attempt htaken hctl hov).trans (congrArg Host.Outcome.next (atomicRun_of_plain halign hacc hmode hok []))
    refine ⟨fun hi => ?reads, fun v s3 st tags hi hwrite => ?writes⟩
    case reads =>
      have hreads : ∀ {k}, AtomicRow i q e k → atomicValue k w.req d = none →
          exec i s = .next (finishMem w { mkResp s2 w.req .ok with r0 := w64 (ofLe d) } s2) := fun hrow hnew =>
        (hdo hrow).trans (congrArg Host.Outcome.next (atomicDo_reads hneed hroom hread (hrow.taken_op htaken ▸ hnew)))
      rcases hi with ⟨rfl, rfl⟩ | ⟨rfl, rfl, hdiffers⟩
      · exact hreads (atomicFetch_row r e) (atomicNew_fetch ..)
      · exact hreads (atomicCas_row r e) (atomicNew_cas_differs hdiffers ..)
    case writes =>
      have hwrites : ∀ {k}, AtomicRow i q e k → atomicValue k w.req d = some v →
          exec i s = .next (finishWrite w { mkResp s3 w.req st with r0 := w64 (if st = .ok then ofLe d else 0) }
            (g.mode ≠ .mirrored) tags d s3) := fun hrow hnew =>
        (hdo hrow).trans (congrArg Host.Outcome.next
          (atomicDo_writes hmode hneed hroom hread (hrow.taken_op htaken ▸ hnew) hwrite))
      rcases hi with ⟨rfl, rfl, rfl⟩ | ⟨rfl, rfl, rfl⟩ | ⟨rfl, rfl, hfound, rfl⟩ | ⟨rfl, rfl, rfl⟩ | ⟨rfl, rfl, rfl⟩
      · exact hwrites (atomicAdd_row r e) rfl
      · exact hwrites (atomicSwap_row r e) rfl
      · exact hwrites (atomicCas_row r e) (atomicNew_cas_equal hfound ..)
      · exact hwrites (atomicMin_row r e) rfl
      · exact hwrites (atomicMax_row r e) rfl
  case coherent =>
    intro r q e s s0 s1 w x g o i htaken hctl hov hi halign hacc hmode hok hgo hlm
    have hruns : ∀ {k}, AtomicRow i q e k → exec i s = .next (atomicDo w g (partsOf g o (atomicWidth w.req)) []
        (setDir { region := g.idx, line := o / 128 } s1)) := fun hrow =>
      (hrow.attempt htaken hctl hov).trans
        (congrArg Host.Outcome.next (atomicRun_of_coherent halign hacc hmode hok hgo hlm []))
    rcases hi with ⟨rfl, rfl⟩ | ⟨rfl, rfl⟩ | ⟨rfl, rfl⟩ | ⟨rfl, rfl⟩ | ⟨rfl, rfl⟩ | ⟨rfl, rfl⟩
    · exact hruns (atomicFetch_row r e)
    · exact hruns (atomicAdd_row r e)
    · exact hruns (atomicSwap_row r e)
    · exact hruns (atomicCas_row r e)
    · exact hruns (atomicMin_row r e)
    · exact hruns (atomicMax_row r e)

end Sys2Proof.Machine
end

section
/-! SUPPORT. Coherence slots, lost lines, the return of lines and the end of leases, branch by branch, and the statements about them
(05_coherence R188 to R217; 06_pool_verbs R231, R232, R236). -/

namespace Sys2Proof.Machine

/-- A verb command whose verb leads from the request that it takes to a state answers that state. -/
theorem next_runVerb {q : Req} {e : Env} {s s0 t : State} {w : Waiting} {verb : Waiting → State → State}
    (htaken : taken q e s = some (w, s0)) (hfits : ctlFits w.req = true) (hverb : verb w s0 = t) :
    (.next (runVerb q e verb s) : Host.Outcome State Fault Refusal) = .next t :=
  congrArg Host.Outcome.next ((runVerb_fits verb htaken hfits).trans hverb)

/-! Slots (05 R188, R189, R201, R204) -/

/-- COH_ATTACH of a node that has a live slot answers its number (05 R189). -/
theorem cohAttach_of_attached {pick : Nat} {w : Waiting} {s : State} {x : Window} {g : Region} {o : Nat} {y : Slot}
    (hwin : cohWin s w = .ok x g o) (hmode : g.mode = .coherent)
    (hright : (grantsFor x w.ord).any (grantFits (reqTid w.req) w.req.src rightR) = true) (hslot : slotOf g w.req.src = some y) :
    cohAttach pick w s = reply w (leaseResp s w.req y.k) s := by
  simp only [cohAttach, hwin, hmode, hright, hslot, ne_eq, not_true_eq_false, decide_false, Bool.not_true, Bool.or_self,
    Bool.false_eq_true, if_false]

/-- COH_ATTACH of another node takes a free slot, with a lease from the arrival of the request on (05 R188, R201). -/
theorem cohAttach_of_free {pick k : Nat} {w : Waiting} {s : State} {x : Window} {g : Region} {o : Nat}
    (hwin : cohWin s w = .ok x g o) (hmode : g.mode = .coherent)
    (hright : (grantsFor x w.ord).any (grantFits (reqTid w.req) w.req.src rightR) = true) (hslot : slotOf g w.req.src = none)
    (hfree : findFree (fun k => (slotAt g k).isNone) 64 pick = some k) :
    cohAttach pick w s = reply w (leaseResp s w.req k) (modRegion g.idx (fun g => { g with
      slots := g.slots ++ [{ k := k, node := w.req.src, deadline := w.since + leaseNs s, win := handleOf x }] }) s) := by
  simp only [cohAttach, hwin, hmode, hright, hslot, hfree, ne_eq, not_true_eq_false, decide_false, Bool.not_true, Bool.or_self,
    Bool.false_eq_true, if_false]

/-- COH_DETACH of a slot that owes a line is BUSY; of another one it drops its lines and frees it (05 R204). -/
theorem cohDetach_of_slot {w : Waiting} {s : State} {x : Window} {g : Region} {o : Nat} {y : Slot}
    (hwin : cohWin s w = .ok x g o) (hslot : slotOf g w.req.src = some y) :
    cohDetach w s = if slotOwes s g.idx y.k then replySt w .busy s
      else cohSettled (replySt w .ok (freeSlot g.idx y.k (dropSlotLines g.idx y.k false s))) := by
  simp only [cohDetach, hwin, hslot]

/-- COH_RENEW of an attached node answers the length of the lease (05 R201). -/
theorem cohRenew_of_slot {w : Waiting} {s : State} {x : Window} {g : Region} {o : Nat} {y : Slot}
    (hwin : cohWin s w = .ok x g o) (hslot : slotOf g w.req.src = some y) :
    cohRenew w s = reply w (leaseResp s w.req 0) s := by
  simp only [cohRenew, hwin, hslot]

/-- A message that belongs to a coherent region renews the lease of its host (05 R201). -/
theorem leaseArrival_of_region {r : Req} {s : State} {g : Nat} (h : cohRegionOf s r = some g) :
    leaseArrival r s = renewLease g r.src s := by
  simp only [leaseArrival, h]

/-! Lost lines (05 R207 to R209) -/

/-- COH_DECLARE_LOST by the owner of the window, within it, puts the lost lines of the range into I (05 R207, R208). -/
theorem declareLost_of_owner {w : Waiting} {s : State} {x : Window} {g : Region} {o lo hi : Nat} (zero : Bool)
    (hwin : cohWin s w = .ok x g o) (howner : x.owner = reqTid w.req) (hlo : lo = reqVa w.req / 128 * 128)
    (hhi : hi = ceilDiv (reqVa w.req + clampTo 1 (2 ^ 40) (op0 w.req)) 128 * 128) (hfrom : x.vaBase * unit2M ≤ lo)
    (hto : hi ≤ (x.vaBase + x.len) * unit2M) :
    declareLost zero w s = cohSettled (replySt w .ok ((lostLines s g.idx
      ((lo - x.vaBase * unit2M + x.regOfs * unit2M) / 128) ((hi - x.vaBase * unit2M + x.regOfs * unit2M) / 128)).foldl
      (fun s l => setDir { dirAt (if zero then (lineBack g l (List.replicate 128 0) s).1 else s) g.idx l with st := .inv }
        (if zero then (lineBack g l (List.replicate 128 0) s).1 else s)) s)) := by
  subst hlo hhi
  simp only [declareLost, hwin, howner, Nat.not_lt.2 hfrom, Nat.not_lt.2 hto, ne_eq, not_true_eq_false, decide_false, Bool.or_self,
    Bool.false_eq_true, if_false]

/-- COH_LM_QUERY of an accessible address lists the first 256 lost lines from it on, and where to go on (05 R209). -/
theorem lmQuery_of_access {w : Waiting} {s : State} {x : Window} {g : Region} {o : Nat} {all vas : List Nat}
    (hacc : checkAccess s w.ord (reqWin w.req) (reqTid w.req) w.req.src (reqVa w.req) 1 rightR = .ok x g o)
    (hall : all = lostLines s g.idx (ceilDiv o 128) ((x.regOfs + x.len) * unit2M / 128))
    (hvas : vas = (all.take 256).map (fun l => l * 128 + x.vaBase * unit2M - x.regOfs * unit2M)) :
    lmQuery w s = reply w { mkResp s w.req .ok with
      r0 := w64 vas.length
      r1 := w64 (if 256 < all.length then (vas.getLast?).getD 0 + 128 else (x.vaBase + x.len) * unit2M)
      payload := (vas.map fun v => le 8 v).flatten } s := by
  subst hvas hall
  simp only [lmQuery, hacc]

/-- Settles O24: each verb runs on the request it takes, by the lemma of its branch. -/
theorem coherenceSlotsComplete : Obligations.CoherenceSlotsComplete := by
  unfold Obligations.CoherenceSlotsComplete
  refine ⟨?slots, ?declare, ?query, fun r s g h => leaseArrival_of_region h⟩
  case slots =>
    intro r e s s0 w x g o k y hfits hwin
    refine ⟨fun htaken hmode hright => ⟨fun hslot => ?attached, fun hslot hfree => ?free⟩, fun htaken hslot => ?detach,
      fun htaken hslot => ?renew⟩
    case attached =>
      exact next_runVerb htaken hfits (cohAttach_of_attached hwin hmode hright hslot)
    case free =>
      exact next_runVerb htaken hfits (cohAttach_of_free hwin hmode hright hslot hfree)
    case detach => exact next_runVerb htaken hfits (cohDetach_of_slot hwin hslot)
    case renew => exact next_runVerb htaken hfits (cohRenew_of_slot hwin hslot)
  case declare =>
    intro r e s s0 w x g o lo hi zero i hrow hfits hwin howner hlo hhi hfrom hto
    have hrun := declareLost_of_owner zero hwin howner hlo hhi hfrom hto
    rcases hrow with ⟨rfl, rfl, htaken⟩ | ⟨rfl, rfl, htaken⟩
    · exact next_runVerb htaken hfits hrun
    · exact next_runVerb htaken hfits hrun
  case query =>
    intro r e s s0 w x g o all vas htaken hfits hacc hall hvas
    exact next_runVerb htaken hfits (lmQuery_of_access hacc hall hvas)

/-! Lines that come back (05 R196, R199, R216) -/

/-- A line that its owner writes back is stored, and its recall ends, or it goes to I (05 R196, R199). -/
theorem cohWriteback_of_owner {w : Waiting} {g : Region} {line : Nat} {s s2 : State} {y : Slot} {d : DirEnt}
    (hslot : slotOf g w.req.src = some y) (hsound : partsStatus s 0 g.owner (partsOf g (line * 128) 128) = .ok)
    (hd : d = dirAt (dirLookup g.idx line s) g.idx line) (howner : d.owner = y.k)
    (hst : d.st = .excl ∨ d.st = .modified ∨ d.st = .waitRcl) (hback : lineBack g line w.req.payload s = (s2, .ok)) :
    cohWriteback w g line s = cohSettled (replySt w .ok
      (setDir (if d.st = .waitRcl then recallEnd d else { d with st := .inv })
        (setCoh (fun c => { c with msgs := mapIf (fun m =>
          m.kind == 1 && m.region == g.idx && m.line == line && m.slot == y.k) (fun m => { m with done := true }) c.msgs }) s2))) := by
  have howns : (decide (d.st = .excl) || decide (d.st = .modified) || decide (d.st = .waitRcl)) = true := by
    simpa [or_assoc] using hst
  simp only [cohWriteback, ← hd, hslot, hsound, howner, howns, hback, ne_eq, not_true_eq_false, decide_false, Bool.not_true,
    Bool.or_self, Bool.false_eq_true, if_false]

/-- An aligned WRITEBACK with its two slots, to a line of its window, goes by the mode of the region (05 R199; 06 R231, R232). -/
theorem writeback_of_access {w : Waiting} {s : State} {x : Window} {g : Region} {o : Nat} (halign : reqVa w.req % 128 = 0)
    (hslots : 2 ≤ reqSlots w.req) (hacc : writebackAccess s w = .ok x g o) :
    (g.mode = .coherent → writeback w s = cohWriteback w g (o / 128) s) ∧ (g.mode = .priv → writeback w s = storeRun w s) := by
  refine ⟨fun hmode => ?_, fun hmode => ?_⟩
  all_goals
    simp only [writeback, halign, Nat.not_lt.2 hslots, hacc, hmode, ne_eq, not_true_eq_false, decide_false, Bool.or_self,
      Bool.false_eq_true, if_false]

/-! Acknowledgements (05 R196, R217) -/

/-- INVAL_ACK of an outstanding invalidation takes its sharer off the line, with one fewer to wait for (05 R196). -/
theorem invalAck_of_waiting {w : Waiting} {s s1 : State} {m : CohMsg} {d : DirEnt} (hd : d = dirAt s1 m.region m.line)
    (hmsg : takeMsg 0 w.req s = (s1, some m)) (hst : d.st = .waitInv) :
    invalAck w s = cohSettled (setDir (settle { d with
      pend := d.pend - 1, sharers := d.sharers &&& ~~~ (1#64 <<< m.slot) }) s1) := by
  simp only [invalAck, hmsg, ← hd, hst, if_true]

/-- A RECALL_ACK of a recall that still stands does its part on the line's entry, and what waits goes on (05 R196). -/
theorem takeRecall_of_standing {r : Req} {s s1 : State} {m : CohMsg} {d : DirEnt} (hd : d = dirAt s1 m.region m.line)
    (hmsg : takeMsg 1 r s = (s1, some m)) (hdone : m.done = false) (hst : d.st = .waitRcl) (howner : d.owner = m.slot)
    (f : CohMsg → DirEnt → State → State) : takeRecall r f s = cohSettled (f m d s1) := by
  simp only [takeRecall, hmsg, ← hd, hdone, hst, howner, decide_true, Bool.not_false, Bool.and_self, if_true]

/-- RECALL_ACK DATA stores the bytes of the line before the recall ends (05 R196). -/
theorem recallData_of_standing {w : Waiting} {s s1 : State} {m : CohMsg} {d : DirEnt} {g : Region}
    (hd : d = dirAt s1 m.region m.line) (hmsg : takeMsg 1 w.req s = (s1, some m)) (hdone : m.done = false)
    (hst : d.st = .waitRcl) (howner : d.owner = m.slot) (hregion : regionAt s1 m.region = some g) (hslots : 2 ≤ reqSlots w.req) :
    recallData w s = cohSettled (setDir (recallEnd d) (lineBack g m.line w.req.payload s1).1) := by
  rw [recallData, takeRecall_of_standing hd hmsg hdone hst howner]
  simp only [hregion, hslots, if_true]

/-- RECALL_ACK NODATA has SUBOP 0, or a reserved code that stands for it (06 R236). -/
theorem exec_recallAckNodata {r : Req} (e : Env) (s : State) (h1 : r.subop ≠ 1) (h2 : r.subop ≠ 2) :
    exec (.recallAckNodata r e) s = .next (runVerb { r with opcode := 0x2D } e
      (fun w s => takeRecall w.req (fun _ d s => setDir (recallEnd d) s) s) s) := by
  have hsub : (if r.subop = 1 || r.subop = 2 then 0 else r.subop) = r.subop := if_neg (by
    simp only [Bool.or_eq_true, decide_eq_true_eq, not_or]
    exact ⟨h1, h2⟩)
  change Host.Outcome.next (runVerb { r with
    opcode := 0x2D, subop := if r.subop = 1 || r.subop = 2 then 0 else r.subop } e _ s) = _
  rw [hsub]

/-- COH_REVOKE_ACK takes its slot off the revocations that wait for it (05 R217). -/
theorem cohRevokeAck_of_message {w : Waiting} {s s1 : State} {m : CohMsg} (hmsg : takeMsg 2 w.req s = (s1, some m)) :
    cohRevokeAck w s = revsAdvance (setPool (fun p => { p with revs := p.revs.map fun v =>
      if v.kind = 1 then v else { v with slots := v.slots.filter fun x => x ≠ (m.region, m.slot) } }) s1) := by
  simp only [cohRevokeAck, hmsg]

/-! Leases (05 R202, R205, R206) -/

/-- The lease of a live slot ends once it is over (05 R202). -/
theorem leaseExpiry_of_over {g k : Nat} {s : State} {y : Region} {x : Slot} (hregion : regionAt s g = some y)
    (hslot : slotAt y k = some x) (hlive : x.dead = false) (hover : leaseOver s x = true) :
    leaseExpiry g k s = cohSettled (leaseEnd g k s) := by
  simp only [leaseExpiry, hregion, Option.bind_some, hslot, hlive, hover, Bool.not_false, Bool.and_self, if_true]

/-- The sweep of a dead slot frees it, and tells the covered nodes where lines were lost (05 R205, R206). -/
theorem sweepDone_of_dead {g k : Nat} {s : State} {y : Region} {x : Slot} (hregion : regionAt s g = some y)
    (hslot : slotAt y k = some x) (hdead : x.dead = true) :
    sweepDone g k s = if x.lmMade = 0 then freeSlot g k s else
      fanOut (regionGrants (freeSlot g k s) g) 0x04 .lostModified y.owner g k x.lmMade 0
        (cairnAt 0x06 1 g k 0 0x40 y.owner .lostModified (freeSlot g k s)) := by
  simp only [sweepDone, hregion, Option.bind_some, hslot, Option.map_some, hdead, Bool.not_true, Bool.false_eq_true, if_false]

/-- Settles O25: each verb runs on the request it takes, by the lemma of its branch; so do the timers of leases. -/
theorem linesAndLeasesComplete : Obligations.LinesAndLeasesComplete := by
  unfold Obligations.LinesAndLeasesComplete
  refine ⟨?writeback, ?acks, ?leases⟩
  case writeback =>
    intro r e s s0 s2 w x g o y d htaken hfits halign hslots hacc
    obtain ⟨hcoherent, hpriv⟩ := writeback_of_access halign hslots hacc
    refine ⟨fun hmode hslot hsound hd howner hst hback => ?_, fun hmode => ?_⟩
    · exact next_runVerb htaken hfits
        ((hcoherent hmode).trans (cohWriteback_of_owner hslot hsound hd howner hst hback))
    · exact next_runVerb htaken hfits (hpriv hmode)
  case acks =>
    intro r e s s0 s1 w m d hfits hd
    refine ⟨fun htaken hmsg hst => ?inval, fun hmsg hdone hst howner => ⟨fun h1 h2 htaken => ?nodata,
      fun g htaken hregion hslots => ?data, fun htaken => ?wbSent⟩, fun htaken hmsg => ?revoke⟩
    case inval =>
      exact next_runVerb htaken hfits (invalAck_of_waiting hd hmsg hst)
    case nodata =>
      exact (exec_recallAckNodata e s h1 h2).trans
        (next_runVerb htaken hfits (takeRecall_of_standing hd hmsg hdone hst howner _))
    case data =>
      exact next_runVerb htaken hfits (recallData_of_standing hd hmsg hdone hst howner hregion hslots)
    case wbSent =>
      exact next_runVerb htaken hfits (takeRecall_of_standing hd hmsg hdone hst howner _)
    case revoke =>
      exact next_runVerb htaken hfits (cohRevokeAck_of_message hmsg)
  case leases =>
    rintro g k e s s0 y x rfl hregion hslot
    refine ⟨fun hlive hover => ?expiry, fun hdead => ?sweep⟩
    case expiry => exact congrArg Host.Outcome.next (leaseExpiry_of_over hregion hslot hlive hover)
    case sweep => exact congrArg Host.Outcome.next (sweepDone_of_dead hregion hslot hdead)

end Sys2Proof.Machine
end

section
/-! SUPPORT. What admission refuses, and what alignment denies (06_pool_verbs R221, R226, R227, R231, R258; 14_security_and_isolation R576;
17_register_map R657). -/

namespace Sys2Proof.Machine

/-! Admission (06 R227) -/

/-- A verb command whose own request fails a step of admission answers with the step's status (06 R227). -/
theorem runVerb_of_refused {q : Req} {e : Env} {s : State} {st : Status} (verb : Waiting → State → State)
    (hreach : reachable (applyEnv e s) = true) (hinbox : inboxOf (applyEnv e s) q = none)
    (hstatus : admissionStatus (applyEnv e s) q = some st) : runVerb q e verb s = refuse false q st (applyEnv e s) := by
  have hadmission : admission false q (applyEnv e s) = (refuse false q st (applyEnv e s), false) := by
    simp only [admission, hstatus]
  simp only [runVerb, hreach, hinbox, hadmission, Bool.not_true, Bool.false_eq_true, if_false]

/-- Settles O52: each command brings its request to admission, and a refusal touches none of the pieces named. -/
theorem admissionRefuses : Obligations.AdmissionRefuses := by
  unfold Obligations.AdmissionRefuses
  intro r q e s s0 i st hrow hreach hinbox hstatus
  have hkeeps := refuse_keeps false q st s0
  refine ⟨?answer, hkeeps.agree .mem rfl, hkeeps.agree .pool rfl, hkeeps.agree .fe rfl, hkeeps.agree .ws rfl, hkeeps.agree .kv rfl⟩
  rcases hrow with ⟨rfl, rfl, rfl⟩ | ⟨rfl, rfl, rfl⟩ | ⟨rfl, rfl, rfl⟩ | ⟨rfl, rfl, rfl⟩ | ⟨rfl, rfl, rfl⟩ | ⟨rfl, rfl, rfl⟩
    | ⟨rfl, rfl, rfl⟩
  all_goals exact congrArg Host.Outcome.next (runVerb_of_refused _ hreach hinbox hstatus)

/-! Alignment (06 R231) -/

/-- The answer to a request that alignment denies; one to the register page is counted (06 R231; 17 R657). -/
def misalignedAnswer (w : Waiting) (s : State) : State := if reqCtl w.req then ctlDenied w s else replySt w .denied s

theorem misalignedAnswer_of_page {w : Waiting} (s : State) (h : reqCtl w.req = true) : misalignedAnswer w s = ctlDenied w s := if_pos h

theorem misalignedAnswer_of_window {w : Waiting} (s : State) (h : reqCtl w.req = false) :
    misalignedAnswer w s = replySt w .denied s := if_neg (by simp [h])

@[simp] theorem misalignedAnswer_mem (w : Waiting) (s : State) : (misalignedAnswer w s).mem = s.mem := by
  unfold misalignedAnswer
  split
  · exact (ctlDenied_keeps w s).agree .mem rfl
  · exact (replySt_keeps w .denied s).agree .mem rfl

/-- A verb that is not STORE_NOTIFY sends no event with its status. -/
theorem finishSt_of_not_notify {w : Waiting} (h : w.op ≠ 3) (st : Status) (s : State) : finishSt w st s = replySt w st s := by
  simp [finishSt, finishMem, h, replySt]

/-- A misaligned request waits for no earlier verb: it accesses no line (06 R231, R255). -/
theorem overtakes_of_misaligned {w : Waiting} (h : misaligned w = true) (s : State) : overtakes s w = false := by
  simp [overtakes, h]

/-- A cached access to the register page is denied (17 R657). -/
theorem pageAccess_of_cached {w : Waiting} (h : reqCached w.req = true) (s : State) : pageAccess w s = ctlDenied w s := by
  simp [pageAccess, h]

theorem loadRun_of_misaligned {w : Waiting} (hop : w.op = 1) (hc : reqCached w.req = true) (hva : reqVa w.req % 128 ≠ 0)
    (got : List (Nat × List Byte)) (s : State) : loadRun w got s = replySt w .denied s := by
  rw [← finishSt_of_not_notify (by omega) .denied s]
  simp [loadRun, hc, hva]

theorem atomicRun_of_misaligned {w : Waiting} (hop : w.op = 4) (hva : reqVa w.req % atomicWidth w.req ≠ 0)
    (got : List (Nat × List Byte)) (s : State) : atomicRun w got s = replySt w .denied s := by
  rw [← finishSt_of_not_notify (by omega) .denied s]
  exact if_pos hva

theorem writeback_of_misaligned {w : Waiting} (hva : reqVa w.req % 128 ≠ 0) (s : State) : writeback w s = replySt w .denied s := by
  simp [writeback, hva]

/-- CTL fits no verb that reads WIN as a window, but for LOAD and STORE (17 R657). -/
theorem ctlFits_of_page {r : Req} (hctl : reqCtl r = true) (hwin : usesWin r = true) (hload : r.opcode ≠ 1) (hstore : r.opcode ≠ 2) :
    ctlFits r = false := by
  simpa [ctlFits, hctl, hwin] using And.intro hload hstore

/-- A verb command that runs a verb on its window alone denies a misaligned request, where the verb does. -/
theorem runVerb_of_misaligned {q : Req} {e : Env} {s s0 : State} {w : Waiting} {verb : Waiting → State → State}
    (htaken : taken q e s = some (w, s0)) (hwin : usesWin q = true) (hload : q.opcode ≠ 1) (hstore : q.opcode ≠ 2)
    (hverb : reqCtl w.req = false → verb w s0 = replySt w .denied s0) : runVerb q e verb s = misalignedAnswer w s0 := by
  have hreq : w.req = q := taken_req htaken
  cases hctl : reqCtl w.req with
  | true =>
    rw [misalignedAnswer_of_page _ hctl]
    exact runVerb_ctl verb htaken (ctlFits_of_page (hreq ▸ hctl) hwin hload hstore)
  | false =>
    rw [misalignedAnswer_of_window _ hctl, runVerb_fits verb htaken (ctlFits_of_window hctl), hverb hctl]

theorem runVerb_loadCached_misaligned {r : Req} {e : Env} {s s0 : State} {w : Waiting}
    (htaken : taken (withCached true { r with opcode := 0x01 }) e s = some (w, s0)) (hva : reqVa w.req % 128 ≠ 0) :
    runVerb (withCached true { r with opcode := 0x01 }) e memVerb s = misalignedAnswer w s0 := by
  have hop : w.op = 1 := taken_op htaken
  have hopcode : w.req.opcode = 1 := by rw [taken_req htaken, withCached_opcode]
  have hc : reqCached w.req = true := by rw [taken_req htaken, reqCached_withCached]
  rw [runVerb_fits memVerb htaken (ctlFits_of_opcode (Or.inl hopcode))]
  cases hctl : reqCtl w.req with
  | true => rw [misalignedAnswer_of_page _ hctl, memVerb_of_page _ hctl, pageAccess_of_cached hc]
  | false =>
    have hmis : misaligned w = true := by simp [misaligned, hop, hc, hva]
    rw [misalignedAnswer_of_window _ hctl, memVerb_of_window hctl (overtakes_of_misaligned hmis s0), memAttempt_load hop,
      loadRun_of_misaligned hop hc hva]

/-- A row of ATOMIC denies an operand that is not aligned to its width, whatever the operation (06 R231). -/
theorem AtomicRow.misaligned {i : Instr} {q : Req} {e : Env} {k : Nat} {s s0 : State} {w : Waiting} (hrow : AtomicRow i q e k)
    (htaken : taken q e (applySram e (atTime e.t s)) = some (w, s0)) (hva : reqVa w.req % atomicWidth w.req ≠ 0) :
    exec i s = .next (misalignedAnswer w s0) := by
  have hop : w.op = 4 := (Machine.taken_op htaken).trans (congrArg BitVec.toNat hrow.opcode)
  have hmis : Machine.misaligned w = true := by simp [Machine.misaligned, hop, hva]
  have hwin : usesWin q = true := by simp [usesWin, hrow.opcode]
  rw [hrow.runs]
  refine congrArg Host.Outcome.next (runVerb_of_misaligned htaken hwin (by simp [hrow.opcode]) (by simp [hrow.opcode])
    fun hctl => ?_)
  have hattempt : memAttempt w [] s0 = atomicRun w [] s0 := by simp [memAttempt, hop]
  rw [memVerb_of_window hctl (overtakes_of_misaligned hmis s0), hattempt, atomicRun_of_misaligned hop hva]

/-- Settles O53: each command denies the misaligned request that it takes, by the lemma of its verb. -/
theorem misalignedIsDenied : Obligations.MisalignedIsDenied := by
  unfold Obligations.MisalignedIsDenied
  intro r q e s s1 s0 w i htaken hrow
  suffices hrun : exec i s = .next (misalignedAnswer w s0) from ⟨_, hrun, misalignedAnswer_mem w s0, rfl⟩
  rcases hrow with ⟨rfl, rfl, rfl, hva⟩ | ⟨rfl, rfl, rfl, hva⟩ | ⟨hatomic, rfl, hva⟩
  · exact congrArg Host.Outcome.next (runVerb_loadCached_misaligned htaken hva)
  · exact congrArg Host.Outcome.next
      (runVerb_of_misaligned htaken rfl nofun nofun fun _ => writeback_of_misaligned hva s0)
  · rcases hatomic with ⟨rfl, rfl⟩ | ⟨rfl, rfl⟩ | ⟨rfl, rfl⟩ | ⟨rfl, rfl⟩ | ⟨rfl, rfl⟩ | ⟨rfl, rfl⟩
    · exact (atomicFetch_row r e).misaligned htaken hva
    · exact (atomicAdd_row r e).misaligned htaken hva
    · exact (atomicSwap_row r e).misaligned htaken hva
    · exact (atomicCas_row r e).misaligned htaken hva
    · exact (atomicMin_row r e).misaligned htaken hva
    · exact (atomicMax_row r e).misaligned htaken hva

end Sys2Proof.Machine
end

section
/-! SUPPORT. The verbs of the bulk queues, discovery, events and the load interval, branch by branch (06_pool_verbs R226, R238 to R249,
R252, R257; 05_coherence R218; 12_service_and_dram R515). -/

namespace Sys2Proof.Machine

/-! Queues (06 R238, R243, R249) -/

/-- BQ_CREATE for a listed completion node, within the limits and with a free index, enters the queue (06 R238). -/
theorem bqCreate_of_room {pick i d : Nat} {w : Waiting} {s : State} {q : Bq}
    (hnode : nodeListed s (reqTid w.req) (op1 w.req % 2 ^ 20) = true) (hd : d = bqDepth (op0 w.req % 65536))
    (hslots : descSlots s + d ≤ 65536) (hcount : countIf (fun q => q.owner = reqTid w.req) s.bulk.qs < 64)
    (hfree : findFree (fun i => (bqAt s i).isNone && indexRested s 1 i) 4096 pick = some i)
    (hq : q = { idx := i, gen := nextGen s 1 i, owner := reqTid w.req, cqNode := op1 w.req % 2 ^ 20, depth := d }) {s1 : State}
    (hs : s1 = useIndex 1 i q.gen (setBulk (fun b => { b with qs := b.qs ++ [q] }) s)) :
    bqCreate pick w s = reply w { mkResp s1 w.req .ok with r0 := w64 (bqHandle q), r1 := w64 d } s1 := by
  subst hd hq hs
  simp only [bqCreate, hnode, Nat.not_lt.2 hslots, Nat.not_le.2 hcount, hfree, decide_false, Bool.or_self, Bool.not_true,
    Bool.false_eq_true, if_false]

/-- BQ_DESTROY of an own queue waits for it, its unreleased descriptors aborted (06 R249). -/
theorem bqDestroy_of_own {w : Waiting} {s : State} {q : Bq} (hq : bqOf s (op0 w.req) (reqTid w.req) = some q) :
    bqDestroy w s = destroyDone q.idx (modBq q.idx (fun b => { b with
      destroy := some { w with why := .never }
      descs := b.descs.map fun x =>
        if (q.run + 65536 - q.head) % 65536 ≤ (x.n + 65536 - q.head) % 65536 && x.phase = .queued then
          { x with phase := .aborted, status := .revoked, bytes := 0 } else x })
      (setVrb (fun v => { v with waiting := v.waiting ++ [{ w with why := .never }] }) s)) := by
  simp only [bqDestroy, hq]

/-- BULK_DOORBELL moves RUN of an own queue forward (06 R243). -/
theorem bulkDoorbell_of_own {w : Waiting} {s : State} {q : Bq} {run : Nat} (hq : bqOf s (op0 w.req) (reqTid w.req) = some q)
    (hrun : run = (q.run + min ((op1 w.req % 65536 + 65536 - q.run) % 65536) ((q.tail + 65536 - q.run) % 65536)) % 65536) :
    bulkDoorbell w s = reply w { mkResp s w.req .ok with r0 := w64 run } (modBq q.idx (fun b => { b with run := run }) s) := by
  subst hrun
  simp only [bulkDoorbell, hq]

/-! Submissions (06 R240, R241, R243) -/

/-- What a BULK_SUBMIT meets before its descriptors are checked: payload, an own queue, room in it and in the contexts, and the status of
each descriptor (06 R228, R240, R241). -/
structure SubmitMeets (w : Waiting) (s : State) (q : Bq) (ds : List Desc) (st : List Status) : Prop where
  /-- It has a payload. -/
  payload : reqSlots w.req ≠ 0
  /-- The queue is its tenant's. -/
  queue : bqOf s (op0 w.req) (reqTid w.req) = some q
  /-- The descriptors are those of the payload. -/
  descs : ds = submitted w.req
  /-- The queue has room for them. -/
  room : q.descs.length + ds.length ≤ q.depth
  /-- So have the contexts. -/
  contexts : bulkFull s w.ord (reqTid w.req) ds = false
  /-- The status of each descriptor's checks. -/
  status : st = ds.map (checkDesc s w.ord (reqTid w.req) w.req.src)

/-- A descriptor that fails its check: none is entered, and the answer names the first (06 R241). -/
theorem bulkSubmit_of_bad {w : Waiting} {s : State} {q : Bq} {ds : List Desc} {st : List Status} (h : SubmitMeets w s q ds st) {i : Nat}
    (hbad : (List.range ds.length).find? (fun i => st[i]? ≠ some .ok) = some i) :
    bulkSubmit w s = reply w { mkResp s w.req (st.getD i .ok) with r1 := w64 i } s := by
  obtain ⟨hpayload, hq, rfl, hroom, hctx, rfl⟩ := h
  simp only [bulkSubmit, hpayload, hq, Nat.not_lt.2 hroom, hctx, hbad, Bool.false_eq_true, if_false]

/-- All descriptors pass their checks: they are entered behind TAIL, released where DOORBELL is set (06 R240, R243). -/
theorem bulkSubmit_of_good {w : Waiting} {s s1 : State} {q : Bq} {ds : List Desc} {st : List Status} (h : SubmitMeets w s q ds st)
    (hgood : (List.range ds.length).find? (fun i => st[i]? ≠ some .ok) = none)
    (hs : s1 = modBq q.idx (fun b => { b with
      descs := b.descs ++ ((List.range ds.length).zip ds).map fun p =>
        { n := (q.tail + p.1) % 65536, d := p.2, node := w.req.src, ord := w.ord : DescRec }
      tail := (q.tail + ds.length) % 65536
      run := if reqDoorbell w.req then (q.tail + ds.length) % 65536 else b.run }) s) :
    bulkSubmit w s = reply w { mkResp s1 w.req .ok with r0 := w64 ((q.tail + ds.length) % 65536), r1 := 0xFFFF } (notePeak s1) := by
  obtain ⟨hpayload, hq, rfl, hroom, hctx, rfl⟩ := h
  subst hs
  simp only [bulkSubmit, hpayload, hq, Nat.not_lt.2 hroom, hctx, hgood, Bool.false_eq_true, if_false]

/-- Settles O26: each verb runs on the request it takes, by the lemma of its branch; the load interval takes its figures by definition. -/
theorem bulkQueuesAndCapsComplete : Obligations.BulkQueuesAndCapsComplete := by
  unfold Obligations.BulkQueuesAndCapsComplete
  refine ⟨?queues, ?submit, ?discovery, ?interval⟩
  case queues =>
    intro r e s s0 w i d q hfits
    refine ⟨fun htaken hnode hd hslots hcount hfree hq => ?create, fun htaken hq => ?destroy, fun run htaken hq hrun => ?doorbell⟩
    case create =>
      exact ⟨_, next_runVerb htaken hfits (bqCreate_of_room hnode hd hslots hcount hfree hq rfl), rfl⟩
    case destroy => exact next_runVerb htaken hfits (bqDestroy_of_own hq)
    case doorbell => exact next_runVerb htaken hfits (bulkDoorbell_of_own hq hrun)
  case submit =>
    intro r e s s0 w q ds st htaken hfits hpayload hq hds hroom hctx hst
    have hmeets : SubmitMeets w s0 q ds st := ⟨hpayload, hq, hds, hroom, hctx, hst⟩
    refine ⟨fun hgood => ?good, fun i hbad => ?bad⟩
    case good => exact ⟨_, next_runVerb htaken hfits (bulkSubmit_of_good hmeets hgood rfl), rfl⟩
    case bad => exact next_runVerb htaken hfits (bulkSubmit_of_bad hmeets hbad)
  case discovery =>
    intro r e s s0 s1 w
    refine ⟨fun htaken hfits hs => ?caps, fun hinbox => congrArg Host.Outcome.next ?event⟩
    case caps =>
      subst hs
      exact congrArg Host.Outcome.next (runVerb_fits queryCaps htaken hfits)
    case event => simp only [hinbox]
  case interval =>
    rintro t0 s s1 rfl
    exact ⟨_, rfl, rfl, rfl, rfl, rfl, rfl⟩

end Sys2Proof.Machine
end

section
/-! SUPPORT. How descriptors start, run and complete, branch by branch (04_pool_memory R157; 05_coherence R194; 06_pool_verbs R243 to R248). -/

namespace Sys2Proof.Machine

/-! The ends of a queue (06 R243, R244, R248) -/

/-- A finished head descriptor leaves its queue, and its record goes where it was asked for or is not OK (06 R244, R248). -/
theorem headDone_of_over {q : Nat} {s s1 : State} {b : Bq} {x : DescRec} {rest : List DescRec} (hb : bqAt s q = some b)
    (hdescs : b.descs = x :: rest) (hover : descOver x = true)
    (hs : s1 = modBq q (fun b => { b with descs := rest, head := (b.head + 1) % 65536 }) s) :
    headDone q s = destroyDone q (if x.d.cpl || x.status ≠ .ok then descRecord b x s1 else s1) := by
  subst hs
  simp only [headDone, hb, hdescs, hover, if_true]

/-! A running descriptor -/

/-- What a command of a queue's running descriptors finds: the first that runs with the operation, its answers all here, and where its
bytes lie. The state s0 is that of its class (06 R244, R245; 12 R506). -/
structure DescFound (q op : Nat) (s s0 : State) (b : Bq) (x : DescRec) (srcs : List Span) (dst : Option Span) : Prop where
  /-- The queue. -/
  queue : bqAt s q = some b
  /-- The descriptor. -/
  desc : runningDesc s q op = some x
  /-- It waits for no lender. -/
  answered : x.tags = []
  /-- Its class. -/
  svc : s0 = setSvc (if isPart s b.owner then 1 else 3) s
  /-- Its sources. -/
  sources : srcs = descSrcs s0 x.d
  /-- Its destination. -/
  target : dst = descDst s0 x.d

section
variable {q op : Nat} {s s0 s1 : State} {b : Bq} {x : DescRec} {srcs : List Span} {dst : Option Span}

/-- A descriptor with a fenced region ends with NODE_LOST (04 R157). -/
theorem DescFound.run_of_fenced (h : DescFound q op s s0 b x srcs dst)
    (hfenced : ((dst.toList ++ srcs).any fun y => y.g.st = .fenced) = true) :
    descRun q op s = descEnd q x.n .nodeLost 0 0 [] s0 := by
  obtain ⟨hq, hx, htags, hs, rfl, rfl⟩ := h
  simp only [descRun, hx, hq, ← hs, htags, hfenced, List.isEmpty_nil, Bool.not_true, Bool.false_eq_true, if_false, if_true]

/-- No lender is asked where the sources of a descriptor need none. -/
theorem noLender_of_noNeed
    (hneed : ∀ y ∈ ([0, 2 ^ 40] : List Nat).zip srcs, spanNeed s0 x.got y.1 x.d.len y.2 = []) :
    ((([0, 2 ^ 40] : List Nat).zip srcs).map fun y => (spanNeed s0 x.got y.1 x.d.len y.2).map fun p =>
      ({ p with pos := y.1 + p.pos : Part }, y.2.g.owner)).flatten = [] := by
  rw [List.flatten_eq_nil_iff, List.forall_mem_map]
  exact fun y hy => List.map_eq_nil_iff.2 (hneed y hy)

/-- A descriptor that would pass the limit of waiting lines ends with BUSY (05 R194). -/
theorem DescFound.run_of_busy (h : DescFound q op s s0 b x srcs dst)
    (hsound : ((dst.toList ++ srcs).any fun y => y.g.st = .fenced) = false)
    (hneed : ∀ y ∈ ([0, 2 ^ 40] : List Nat).zip srcs, spanNeed s0 x.got y.1 x.d.len y.2 = [])
    (hgate : descGate x.ord x.d.len dst srcs s0 = (s1, .busy)) : descRun q op s = descEnd q x.n .busy 0 0 [] s1 := by
  obtain ⟨hq, hx, htags, hs, rfl, rfl⟩ := h
  have hlenders := noLender_of_noNeed hneed
  simp only [descRun, hx, hq, ← hs, htags, hsound, hlenders, hgate, List.isEmpty_nil, Bool.not_true, Bool.false_eq_true, if_false]

/-- A descriptor that the directory lets through reads its lenders' data whole and executes: NOP, a comparison, or a write (06 R246,
R248, R259). -/
theorem DescFound.run_of_go (h : DescFound q op s s0 b x srcs dst)
    (hsound : ((dst.toList ++ srcs).any fun y => y.g.st = .fenced) = false)
    (hneed : ∀ y ∈ ([0, 2 ^ 40] : List Nat).zip srcs, spanNeed s0 x.got y.1 x.d.len y.2 = [])
    (hgate : descGate x.ord x.d.len dst srcs s0 = (s1, .go)) (hqueue : bqAt s1 q = bqAt s0 q) {s2 : State} {srcs' : List Span}
    (hwhole : (s2, srcs') = (([0, 2 ^ 40] : List Nat).zip srcs).foldl (fun (a : State × List Span) y =>
      ((spanWhole a.1 x.got y.1 x.d.len y.2).1, a.2 ++ [(spanWhole a.1 x.got y.1 x.d.len y.2).2]))
      (serveParts b.owner x.d srcs dst s1, [])) :
    (op = 0 → descRun q op s = descEnd q x.n .ok 0 0 [] s2) ∧
    (∀ t s3 n st wr, op ≠ 0 → op ≠ 3 → dst = some t → descWrite x.d t.g srcs' (descPieces x.d t) s2 = (s3, n, st, wr) →
      descRun q op s = descEnd q x.n st n 0 wr s3) ∧
    (∀ a c s3 n st res, op = 3 → srcs' = [a, c] → descCompare a c x.d.len (x.d.len / 128 + 2) 0 s2 = (s3, n, st, res) →
      descRun q op s = descEnd q x.n st n (if st = .ok then res else 0) [] s3) := by
  obtain ⟨hq, hx, htags, hs, rfl, rfl⟩ := h
  have hlenders := noLender_of_noNeed hneed
  have hq1 : bqAt s1 q = some b := hqueue.trans (hs ▸ hq)
  simp only [descRun, hx, hq, ← hs, htags, hsound, hlenders, hgate, hq1, ← hwhole, List.isEmpty_nil, Bool.not_true,
    Bool.false_eq_true, if_false]
  refine ⟨?nop, ?write, ?compare⟩
  case nop =>
    rintro rfl
    rfl
  case write =>
    intro t s3 n st wr h0 h3 hdst hwrite
    rw [hdst]
    split
    · exact absurd rfl h3
    · exact absurd rfl h0
    · next ht _ =>
      cases ht
      simp only [hwrite]
    · next hnone => exact (hnone t rfl).elim
  case compare =>
    rintro a c s3 n st res rfl rfl hcompare
    simp only [hcompare]

end

/-- Each command of a queue's running descriptors runs the first with its operation (06 R246). -/
theorem exec_desc {i : Instr} {q op : Nat} {e : Env}
    (h : (i, op) ∈ [(.descNop q e, 0), (.descFill q e, 1), (.descCopy q e, 2), (.descCompare q e, 3), (.descReduce q e, 4)])
    (s : State) : exec i s = .next (descRun q op (applyEnv e s)) := by
  simp only [List.mem_cons, Prod.mk.injEq, List.not_mem_nil, or_false] at h
  rcases h with ⟨rfl, rfl⟩ | ⟨rfl, rfl⟩ | ⟨rfl, rfl⟩ | ⟨rfl, rfl⟩ | ⟨rfl, rfl⟩ <;> rfl

/-- A FILL writes the bytes of its pattern by their position (06 R246). -/
theorem descData_fill {d : Desc} (h : d.op = 1) (srcs : List Span) (pos len : Nat) (s : State) : descData d srcs pos len s =
    (s, .ok, (List.range len).map fun i => BitVec.ofNat 8 (d.pattern.toNat / 256 ^ ((pos + i) % 8))) := by
  simp only [descData, h]

/-- Settles O27: a queue's head and its next descriptor by definition; a running descriptor by the lemma of the way that it ends. -/
theorem descriptorsExecute : Obligations.DescriptorsExecute := by
  unfold Obligations.DescriptorsExecute
  refine ⟨?queue, ?running, fun d pos len s hop => descData_fill hop [] pos len s⟩
  case queue =>
    rintro q e s s0 x rfl
    refine ⟨fun hstart => congrArg Host.Outcome.next ?start, fun b rest s1 hb hdescs hover hs => ?complete⟩
    case start => simp only [hstart]
    case complete => exact congrArg (fun t => Host.Outcome.next (revsAdvance t)) (headDone_of_over hb hdescs hover hs)
  case running =>
    rintro q op tid e s s0 s1 s2 b x srcs srcs' dst i hq rfl hrow hx htags hs hsrcs hdst
    have hfound : DescFound q op (applyEnv e s) s0 b x srcs dst := ⟨hq, hx, htags, hs, hsrcs, hdst⟩
    rw [exec_desc hrow]
    refine ⟨fun hfenced => congrArg Host.Outcome.next (hfound.run_of_fenced hfenced), fun hsound hneed =>
      ⟨fun hgate => congrArg Host.Outcome.next (hfound.run_of_busy hsound hneed hgate), fun hgate hwhole hqueue => ?go⟩⟩
    case go =>
      obtain ⟨hnop, hwrite, hcompare⟩ := hfound.run_of_go hsound hneed hgate hqueue hwhole
      exact ⟨fun h0 => congrArg Host.Outcome.next (hnop h0),
        fun t s3 n st wr h0 h3 ht hw => congrArg Host.Outcome.next (hwrite t s3 n st wr h0 h3 ht hw),
        fun a c s3 n st res h3 hac hc => congrArg Host.Outcome.next (hcompare a c s3 n st res h3 hac hc)⟩

end Sys2Proof.Machine
end

section
/-! SUPPORT. Barriers and the sync verbs, branch by branch (07_facet_engines R292 to R296). -/

namespace Sys2Proof.Machine

/-! Barriers (07 R295) -/

section
variable {w : Waiting} {s : State} {b : Bar}

/-- BARRIER_DEFINE without a handle enters a barrier under a free index (07 R295; the handle in RESULT0 is log entry 65). -/
theorem barrierDefine_of_new {pick i : Nat} (hnew : op1 w.req % 2 ^ 16 = 0xFFFF)
    (hown : ((maskBits (slice w.req.payload 0 256)).any fun n => !engineOf s (reqTid w.req) n) = false)
    (hfree : findFree (fun i => !(s.fe.bars.any fun b => b.idx = i)) 256 pick = some i)
    (hb : b = { idx := i, gen := nextGen s 3 i, tid := reqTid w.req, mask := maskBits (slice w.req.payload 0 256),
                ext := op0 w.req % 2 ^ 16 }) :
    barrierDefine pick w s = reply w { mkResp s w.req .ok with r0 := w64 (barHandle b) }
      (useIndex 3 i b.gen (setFe (fun c => { c with bars := c.bars ++ [b] }) s)) := by
  subst hb
  simp only [barrierDefine, hnew, hown, hfree, Bool.false_eq_true, if_true, if_false]

/-- BARRIER_DEFINE of an own barrier at which nothing has arrived sets its members (07 R295). -/
theorem barrierDefine_of_idle {pick : Nat} (hold : op1 w.req % 2 ^ 16 ≠ 0xFFFF)
    (hb : barOf s (op1 w.req % 2 ^ 16) (reqTid w.req) = some b)
    (hown : ((maskBits (slice w.req.payload 0 256)).any fun n => !engineOf s (reqTid w.req) n) = false) (harr : b.arrived = [])
    (hext : b.extArr = 0) :
    barrierDefine pick w s = reply w { mkResp s w.req .ok with r0 := w64 (barHandle b) }
      (modBar b.idx (fun b => { b with mask := maskBits (slice w.req.payload 0 256), ext := op0 w.req % 2 ^ 16 }) s) := by
  have hidle : (!b.arrived.isEmpty || b.extArr ≠ 0) = false := by simp [harr, hext]
  simp only [barrierDefine, if_neg hold, hb, hown, hidle, Bool.false_eq_true, if_false]

/-- BARRIER_FREE of an own barrier on which nothing waits frees it (07 R295). -/
theorem barrierFree_of_idle (hb : barOf s (op1 w.req % 2 ^ 16) (reqTid w.req) = some b) (hidle : barAwaited s b = false) :
    barrierFree w s = replySt w .ok (freeIndex 3 b.idx
      (setFe (fun c => { c with bars := c.bars.filter fun x => x.idx ≠ b.idx }) s)) := by
  simp only [barrierFree, hb, hidle, Bool.false_eq_true, if_false]

end

/-! The sync verbs (07 R296) -/

section
variable {w : Waiting} {s : State} {p : Plan} {n k : Nat}

/-- SYNC_ARRIVE at a slot of a running plan adds its count to the slot (07 R292, R296). -/
theorem syncArrive_of_slot (htarget : syncTarget s (reqTid w.req) (op0 w.req) = some (.slot p n k)) (hrun : p.run.isSome = true) :
    syncArrive w s = replySt w .ok (noteBreak p.idx
      (addSlot p n k (clampTo 1 65535 (op1 w.req % 2 ^ 16)) (noteBreak p.idx s))) := by
  have hruns : p.run.isNone = false := by rw [← Option.not_isSome, hrun, Bool.not_true]
  simp only [syncArrive, htarget, hruns, Bool.false_eq_true, if_false]

/-- SYNC_ARRIVE at a barrier adds its count to the external arrivals, up to 65,535 (07 R294, R296; log entry 65). -/
theorem syncArrive_of_barrier {b : Bar} (htarget : syncTarget s (reqTid w.req) (op0 w.req) = some (.barrier b)) :
    syncArrive w s = replySt w .ok (barArrived b.idx (modBar b.idx (fun b => { b with
      extArr := min 65535 (b.extArr + clampTo 1 65535 (op1 w.req % 2 ^ 16)) }) s)) := by
  simp only [syncArrive, htarget]

/-- SYNC_WAIT on a slot that has reached the count answers at once (07 R296). -/
theorem syncWait_of_reached (htarget : syncTarget s (reqTid w.req) (op0 w.req) = some (.slot p n k))
    (hreached : op1 w.req % 2 ^ 16 ≤ slotVal (engAt s n) k) :
    syncWait w s = reply w { mkResp s w.req .ok with r0 := w64 (slotVal (engAt s n) k) } s := by
  simp only [syncWait, htarget, if_pos hreached]

/-- SYNC_WAIT on a slot below the count waits for it, until its time has passed (07 R296). -/
theorem syncWait_of_below (htarget : syncTarget s (reqTid w.req) (op0 w.req) = some (.slot p n k))
    (hbelow : slotVal (engAt s n) k < op1 w.req % 2 ^ 16) :
    syncWait w s = waitFor w (.slot (planHandle p) n k (op1 w.req % 2 ^ 16)
      (w.since + clampTo 1 1000000 (bits (op1 w.req) 63 32) * 1000)) s := by
  simp only [syncWait, htarget, if_neg (Nat.not_le.2 hbelow)]

end

/-- Settles O29: each verb runs on the request that it takes, by the lemma of its branch. -/
theorem syncVerbsComplete : Obligations.SyncVerbsComplete := by
  unfold Obligations.SyncVerbsComplete
  refine ⟨?new, ?members, ?free, ?arriveSlot, ?arriveBarrier, ?reached, ?below, ?late⟩
  case new =>
    intro r e s s0 w i b htaken hfits hnew hown hfree hb
    exact next_runVerb htaken hfits (barrierDefine_of_new hnew hown hfree hb)
  case members =>
    intro r e s s0 w b htaken hfits hold hb hown harr hext
    exact next_runVerb htaken hfits (barrierDefine_of_idle hold hb hown harr hext)
  case free =>
    intro r e s s0 w b htaken hfits hb hidle
    exact next_runVerb htaken hfits (barrierFree_of_idle hb hidle)
  case arriveSlot =>
    intro r e s s0 w p n k htaken hfits htarget hrun
    exact next_runVerb htaken hfits (syncArrive_of_slot htarget hrun)
  case arriveBarrier =>
    intro r e s s0 w b htaken hfits htarget
    exact next_runVerb htaken hfits (syncArrive_of_barrier htarget)
  case reached =>
    intro r e s s0 w p n k htaken hfits htarget hreached
    exact next_runVerb htaken hfits (syncWait_of_reached htarget hreached)
  case below =>
    intro r e s s0 w p n k htaken hfits htarget hbelow
    exact next_runVerb htaken hfits (syncWait_of_below htarget hbelow)
  case late =>
    intro src tag e s w hlate
    refine congrArg Host.Outcome.next ?_
    simp only [hlate]

end Sys2Proof.Machine
end

section
/-! SUPPORT. The deadlock detector, parks, the service of the engines and their registers, branch by branch
(07_facet_engines R268 to R270, R297 to R305; 08_narrow_arithmetic R354). -/

namespace Sys2Proof.Machine

/-! Register writes by their requester (14 R585; 17 R657) -/

/-- A register write of a management session that may operate is done and answered. -/
theorem byRequester_of_served {sess t : Nat} {f : State → State} {s s0 : State} {x : Sess} (h : served sess t s = some (x, s0))
    (hmay : mayRun x .operator = true) : byRequester (.mgmt sess) t f s = mgmtReply sess .ok [] (f s0) :=
  withWrite_served (f := fun s => mgmtReply sess .ok [] (f s)) h hmay

/-- A register write through a tenant's page is done while requests are served. -/
theorem byRequester_of_reachable {tid t : Nat} {f : State → State} {s : State} (h : reachable s = true) :
    byRequester (.page tid) t f s = f (atTime t s) := if_pos h

/-- An open record is acted on by a requester that may resolve it (07 R302, R309). -/
theorem parkAct_of_may {q : Requester} {k : Nat} {f : Park → State → State} {s : State} {p : Park} (heng : hasEngines s = true)
    (hpark : (s.fe.parks.find? fun p => p.idx = k) = some p) (hmay : mayResolve q p = true) : parkAct q k f s = f p s := by
  simp only [parkAct, heng, hpark, hmay, Bool.not_true, Bool.false_eq_true, if_false, if_true]

/-- Management hands over the banks of every engine of the module (07 R270). -/
theorem bankOwnWrite_of_mgmt {sess n v : Nat} {s : State} (heng : hasEngines s = true) (hn : n < 64 * stackCount s) :
    bankOwnWrite (.mgmt sess) n v s = writeBankOwn n v s := if_pos (by simp [heng, hn])

/-- A tenant's page hands over the banks of the engines of its plans (07 R270). -/
theorem bankOwnWrite_of_own {tid n v : Nat} {s : State} (heng : hasEngines s = true) (hown : engineOf s tid n = true)
    (hn : n < 64 * stackCount s) : bankOwnWrite (.page tid) n v s = writeBankOwn n v s := if_pos (by simp [heng, hown, hn])

/-- Management clears FE_ABFT_LAST.HELD (08 R354). -/
theorem abftClr_of_mgmt {sess : Nat} {s : State} (heng : hasEngines s = true) : abftClr (.mgmt sess) s =
    setFe (fun c => { c with abftLast := c.abftLast &&& ~~~ (1#64 <<< 61) }) s := if_pos heng

/-! Deadlocks (07 R297 to R299) -/

/-- A run that has been blocked for DEADLOCK_US is counted, recorded with its first engine that has not ended (log entry 66), and
aborted, its wait graph written. -/
theorem deadlockDetect_of_blocked {i : Nat} {s : State} {p : Plan} {r : Run} (hp : planAt s i = some p) (hr : p.run = some r)
    (hblocked : runBlocked s p = true) (hlong : r.progress + s.img.deadlockUs * 1000 ≤ s.now) {n : Nat} {s1 s2 : State}
    (hs1 : s1 = writeGraph p r s) (hn : n = (p.engs.find? fun n => !(engAt s n).ended).getD 0)
    (hs2 : s2 = setFe (fun c => { c with deadlock := satAdd 16 c.deadlock 1 }) s1) :
    deadlockDetect i s = abortRun i .engineFault none
      (cairnAt 0x07 0x02 n (n / 64 * 2 ^ 32) 0 (0x70 + n / 64) p.tid .engineFault s2) := by
  subst hs1 hs2 hn
  simp only [deadlockDetect, hp, hr, hblocked, hlong, decide_true, Bool.and_self, if_true]

/-! Engines that leave and return (07 R299, R303) -/

/-- A spare that substitutes tests itself; one that fails is taken out (07 R303). -/
theorem engineSelftest_of_substituting {k pos n : Nat} {pass : Bool} {s s1 : State} (heng : hasEngines s = true)
    (hk : k < stackCount s) (hpos : engineAtPos s k pos = some n) (hst : (engAt s n).st = .substituting)
    (hs : s1 = modEng n (fun x => { x with lastTest := s.now }) s) :
    engineSelftest k pos pass s = if pass then s1 else quarantine n 0x04 (engAt s1 n).tid .engineFault s1 := by
  subst hs
  simp only [engineSelftest, heng, Nat.not_le.2 hk, hpos, hst, decide_true, decide_false, Bool.not_true, Bool.or_false,
    Bool.true_or, Bool.false_eq_true, if_false]

/-- Settles O30: the detector, the self-test and the registers by the lemma of their branch; a hang and the end of a substitution are
the true branches of their tests. -/
theorem engineServiceCompletes : Obligations.EngineServiceCompletes := by
  unfold Obligations.EngineServiceCompletes
  refine ⟨?deadlock, ?parkMgmt, ?parkPage, ?hang, ?selftest, ?remap, ?bankMgmt, ?bankPage, ?abft⟩
  case deadlock =>
    rintro i e s s0 s1 p r n rfl hp hr hblocked hlong hs1 hn
    exact ⟨_, congrArg Host.Outcome.next (deadlockDetect_of_blocked hp hr hblocked hlong hs1 hn rfl), rfl⟩
  case parkMgmt =>
    intro sess k e s s0 x p hserved hmay heng hpark
    have hact (f : Park → State → State) : byRequester (.mgmt sess) e.t (parkAct (.mgmt sess) (k % 64) f) (applyEnv e s) =
        mgmtReply sess .ok [] (f p s0) :=
      (byRequester_of_served hserved hmay).trans (congrArg (mgmtReply sess .ok []) (parkAct_of_may heng hpark rfl))
    exact ⟨congrArg Host.Outcome.next (hact parkRetry), congrArg Host.Outcome.next (hact parkAbort)⟩
  case parkPage =>
    rintro tid k e s s0 p hreach rfl heng hpark htid
    have hmay : mayResolve (.page tid) p = true := beq_iff_eq.2 htid
    have hact (f : Park → State → State) : byRequester (.page tid) e.t (parkAct (.page tid) (k % 64) f) (applyEnv e s) =
        f p (atTime e.t (applyEnv e s)) :=
      (byRequester_of_reachable hreach).trans (parkAct_of_may heng hpark hmay)
    exact ⟨congrArg Host.Outcome.next (hact parkRetry), congrArg Host.Outcome.next (hact parkAbort)⟩
  case hang =>
    rintro n e s s0 rfl hhangs
    exact congrArg Host.Outcome.next (if_pos hhangs)
  case selftest =>
    rintro k pos pass e s s0 n rfl heng hk hpos hst
    exact ⟨_, congrArg Host.Outcome.next (engineSelftest_of_substituting heng hk hpos hst rfl), rfl⟩
  case remap =>
    rintro n e s s0 rfl hst htest
    have htested : (engAt (applyEnv e s) n).lastTest.isSome = true := Option.isSome_iff_ne_none.2 htest
    exact congrArg Host.Outcome.next (if_pos (by simp [hst, htested]))
  case bankMgmt =>
    intro sess n v e s s0 x hserved hmay heng hn
    exact congrArg Host.Outcome.next ((byRequester_of_served hserved hmay).trans
      (congrArg (mgmtReply sess .ok []) (bankOwnWrite_of_mgmt heng hn)))
  case bankPage =>
    rintro tid n v e s s0 hreach rfl heng hown hn
    exact congrArg Host.Outcome.next ((byRequester_of_reachable hreach).trans (bankOwnWrite_of_own heng hown hn))
  case abft =>
    intro sess e s s0 x hserved hmay heng
    exact ⟨_, congrArg Host.Outcome.next ((byRequester_of_served hserved hmay).trans
      (congrArg (mgmtReply sess .ok []) (abftClr_of_mgmt heng))), rfl, rfl⟩

end Sys2Proof.Machine
end

section
/-! SUPPORT. The operations of a plan: how an engine's stream executes the operation it stands at, and how those of its two ports
complete (07_facet_engines R268, R269, R275, R276, R287 to R294; 08_narrow_arithmetic R340 to R343). -/

namespace Sys2Proof.Machine

/-! The stream (07 R287) -/

/-- An engine stands at an operation and executes it: it runs, its stream has not ended, and the operation's wait is met (07 R287). -/
structure StandsAt (n : Nat) (s : State) (p : Plan) (r : Run) (d : OpD) : Prop where
  /-- The engine's plan and its run. -/
  run : runOf s n = some (p, r)
  /-- The operation is that of the engine's program counter. -/
  op : d = opAt p n (engAt s n).pc
  /-- The engine runs. -/
  running : (engAt s n).st = .running
  /-- Its stream has not ended. -/
  goesOn : (engAt s n).ended = false
  /-- The wait is met. -/
  wait : waitMet (engAt s n) d = true

section
variable {n : Nat} {s : State} {p : Plan} {r : Run} {d : OpD}

/-- An operation that takes no port runs where it needs no idle ports or finds them idle (07 R287). -/
theorem StandsAt.streamOp_runs (h : StandsAt n s p r d) {opc : Nat} {idle : Bool} (run : Plan → Run → OpD → State → State)
    (hopc : d.opc = opc) (hidle : idle = true → portsIdle (engAt s n) = true) :
    streamOp n opc idle run s = run p r d (noteWork p.idx s) := by
  obtain ⟨hrun, rfl, hst, hgoes, hwait⟩ := h
  have hports : (!idle || portsIdle (engAt s n)) = true := by
    cases idle
    · rfl
    · exact hidle rfl
  simp only [streamOp, hrun, hst, hgoes, hopc, hwait, hports, decide_true, Bool.not_false, Bool.and_self, if_true]

/-- BARRIER takes the free compute port and arrives at its barrier, where the engine is a member (07 R275, R287, R294). -/
theorem StandsAt.barrierOp_arrives (h : StandsAt n s p r d) (hopc : d.opc = 9) (hcomp : (engAt s n).comp = none) {s1 : State} {b : Bar}
    (hs : s1 = noteWork p.idx (advance n d (modEng n (fun x => { x with
      comp := some { i := (engAt s n).pc, since := s.now, ord := s.vrb.nextOrd } }) s))) (hb : opBar s1 p r d = some b) :
    barrierOp n s = barArrived b.idx (modBar b.idx (fun b => { b with
      arrived := if b.mask.contains n && !b.arrived.contains n then b.arrived ++ [n] else b.arrived }) s1) := by
  obtain ⟨hrun, rfl, hst, hgoes, hwait⟩ := h
  subst hs
  simp only [barrierOp, hrun, hst, hgoes, hopc, hcomp, hwait, hb, decide_true, Bool.not_false, Option.isNone_none, Bool.and_self,
    if_true]

end

/-! The ports (07 R287) -/

section
variable {n : Nat} {is : OpD → Bool} {mover : Bool} {run : OpCtx → State → State × OpRes} {s s1 s2 : State} {c : OpCtx}

/-- The operation that a command of a port finds completes where its attempt does. -/
theorem portOp_done (h : opNow n mover s = some (c, s1)) (hi : is c.d = true) (hrun : run c s1 = (s2, .done)) :
    portOp n is mover run s = opDone c.n mover c.p c.d s2 := by
  rw [portOp_now h hi, hrun]
  rfl

/-- It stays in execution where its attempt says so. -/
theorem portOp_stays (h : opNow n mover s = some (c, s1)) (hi : is c.d = true) (hrun : run c s1 = (s2, .stay)) :
    portOp n is mover run s = s2 := by
  rw [portOp_now h hi, hrun]
  rfl

end

/-! The mover port (07 R275, R276, R289, R290) -/

section
variable {c : OpCtx} {s s2 : State} {d : List Byte}

/-- MOVE writes the source that it has read (07 R275, R290). -/
theorem moveOp_of_read (hread : readSrc c true 0 c.d.src.toNat (moveLen c.d) s = (s2, .ok d)) :
    moveOp c s = writeDst c true c.d.dst.toNat d s2 := by
  simp only [moveOp, hread]

/-- SEND to a node sends its source in STREAM packets (07 R289). -/
theorem sendOp_of_node (hread : readSrc c true 0 c.d.src.toNat (moveLen c.d) s = (s2, .ok d))
    (hdst : bits c.d.dst.toNat 63 60 = 3) :
    sendOp c s = (sendStream c.p c.d.dst.toNat (d.length / 2048 + 1) d s2, .done) := by
  simp only [sendOp, hread, if_pos hdst]

/-- SEND to a destination of the module writes its source as a MOVE does (07 R289). -/
theorem sendOp_of_module (hread : readSrc c true 0 c.d.src.toNat (moveLen c.d) s = (s2, .ok d))
    (hdst : bits c.d.dst.toNat 63 60 ≠ 3) : sendOp c s = writeDst c true c.d.dst.toNat d s2 := by
  simp only [sendOp, hread, if_neg hdst]

/-- RECV takes its length off what has landed in its bank (07 R275). -/
theorem recvOp_of_landed {b : Nat} (hb : b = bits c.d.param.toNat 21 20)
    (hlen : moveLen c.d ≤ nth 0 (engAt s c.n).landed b) :
    recvOp c s = (modEng c.n (fun x => { x with
      landed := x.landed.set b (nth 0 (engAt s c.n).landed b - moveLen c.d) }) s, .done) := by
  subst hb
  exact if_neg (Nat.not_lt.2 hlen)

end

/-- Settles O31: the stream's operations by the lemmas of an engine that stands at one; the mover port's by what their attempts come
to. -/
theorem streamAndMoverOperationsComplete : Obligations.StreamAndMoverOperationsComplete := by
  unfold Obligations.StreamAndMoverOperationsComplete
  refine ⟨?stream, fun n e s s1 c hnow => ⟨?move, ?sendNode, ?sendModule, ?recv⟩⟩
  case stream =>
    rintro n e s s0 p r d rfl hrun hop hst hgoes hwait
    have hat : StandsAt n (applyAll e s) p r d := ⟨hrun, hop, hst, hgoes, hwait⟩
    refine ⟨fun hopc => ?nop, fun hopc hidle => ?bankOwn, fun s1 b hopc hcomp hs hb => ?barrier, fun hopc hidle => ?finish⟩
    case nop => exact congrArg Host.Outcome.next (hat.streamOp_runs _ hopc nofun)
    case bankOwn => exact congrArg Host.Outcome.next (hat.streamOp_runs _ hopc fun _ => hidle)
    case barrier => exact congrArg Host.Outcome.next (hat.barrierOp_arrives hopc hcomp hs hb)
    case finish => exact congrArg Host.Outcome.next (hat.streamOp_runs _ hopc fun _ => hidle)
  case move =>
    intro s2 s3 d hopc hread hwrite
    exact congrArg Host.Outcome.next (portOp_done hnow (beq_iff_eq.2 hopc) ((moveOp_of_read hread).trans hwrite))
  case sendNode =>
    intro s2 d hopc hread hdst
    exact congrArg Host.Outcome.next (portOp_done hnow (beq_iff_eq.2 hopc) (sendOp_of_node hread hdst))
  case sendModule =>
    intro s2 s3 d hopc hread hdst hwrite
    exact congrArg Host.Outcome.next (portOp_done hnow (beq_iff_eq.2 hopc) ((sendOp_of_module hread hdst).trans hwrite))
  case recv =>
    intro b hopc hb hlen
    exact congrArg Host.Outcome.next (portOp_done hnow (beq_iff_eq.2 hopc) (recvOp_of_landed hb hlen))

/-! The compute port (08 R340 to R342) -/

section
variable {env : Env} {c : OpCtx} {s s2 : State} {o : GemvOut} {y : OpRes}

/-- A GEMV whose checks pass writes its outputs (08 R340). -/
theorem gemvOp_of_pass (honce : gemvOnce env 0x200 c s = (s2, some o, y)) (hpass : o.miss = none) :
    gemvOp env c s = (gemvWrite c o s2, .done) := by
  simp only [gemvOp, honce, hpass]

/-- A GEMV whose check misses stays, for another engine to execute it again (08 R341). -/
theorem gemvOp_of_miss {ratio : Int} {pos : Nat} (honce : gemvOnce env 0x200 c s = (s2, some o, y)) (hmiss : o.miss = some ratio)
    (hpos : reexecPos s2 c.n = some pos) :
    gemvOp env c s = (setFe (fun x => { x with reexec := x.reexec ++ [{ eng := c.n, pos := pos, ratio := ratio }] }) s2, .stay) := by
  simp only [gemvOp, honce, hmiss, hpos]

end

/-- An EWISE of a function is one of the operations of its command. -/
theorem ewiseIs_of_func {k : Nat} {d : OpD} (hopc : d.opc = 4) (hfunc : ewiseFunc d = k) : ewiseIs k d = true := by
  simp [ewiseIs, hopc, hfunc]

/-- ABFT_REEXEC_DONE runs the second execution of a running engine whose banks are its compute port's own (08 R341, R342). -/
theorem exec_abftReexecDone {n : Nat} {e : Env} {s : State} {x : Reexec} {p : Plan} {r : Run} {f : Flight}
    (hx : ((applyAll e s).fe.reexec.find? fun x => x.eng = n) = some x) (hrun : runOf (applyAll e s) n = some (p, r))
    (hcomp : (engAt (applyAll e s) n).comp = some f) (hst : (engAt (applyAll e s) n).st = .running)
    (hbank : foreignBank (engAt (applyAll e s) n) false (opAt p n f.i) = none) :
    exec (.abftReexecDone n e) s =
      .next (reexecRun e x { n := n, p := p, r := r, d := opAt p n f.i, f := f } (applyAll e s)) := by
  refine congrArg Host.Outcome.next ?_
  simp only [hx, hrun, hcomp, hst, hbank, decide_true, Option.isNone_none, Bool.and_self, if_true]

/-- Settles O32: each operation by what its attempt comes to, and the second execution by the lemma of its command. -/
theorem computeOperationsComplete : Obligations.ComputeOperationsComplete := by
  unfold Obligations.ComputeOperationsComplete
  refine ⟨fun n e s s1 c hnow => ⟨?pass, ?miss, ?attend, ?ewise, ?convert, ?reduce⟩, ?again⟩
  case pass =>
    intro s2 o y hopc honce hpass
    exact congrArg Host.Outcome.next (portOp_done hnow (beq_iff_eq.2 hopc) (gemvOp_of_pass honce hpass))
  case miss =>
    intro s2 o y ratio pos hopc honce hmiss hpos
    exact congrArg Host.Outcome.next (portOp_stays hnow (beq_iff_eq.2 hopc) (gemvOp_of_miss honce hmiss hpos))
  case attend =>
    intro s2 hopc hattend
    exact congrArg Host.Outcome.next (portOp_done hnow (beq_iff_eq.2 hopc) hattend)
  case ewise =>
    rintro f i s2 m hopc hrow rfl hwrite
    have hdone : ewiseOp f c s1 = (s2, .done) := hwrite
    rcases hrow with ⟨rfl, hfunc, rfl⟩ | ⟨rfl, hfunc, rfl⟩ | ⟨rfl, hfunc, rfl⟩ | ⟨rfl, hfunc, rfl⟩ <;>
      exact congrArg Host.Outcome.next (portOp_done hnow (ewiseIs_of_func hopc hfunc) hdone)
  case convert =>
    intro s2 hopc hfunc hconvert
    exact congrArg Host.Outcome.next (portOp_done hnow (ewiseIs_of_func hopc hfunc) hconvert)
  case reduce =>
    intro s2 hopc hreduce
    exact congrArg Host.Outcome.next (portOp_done hnow (beq_iff_eq.2 hopc) hreduce)
  case again =>
    rintro n e s s0 x p r f rfl hx hrun hcomp hst hbank
    exact exec_abftReexecDone hx hrun hcomp hst hbank

end Sys2Proof.Machine
end

section
/-! SUPPORT. Little-endian fields and bit streams as quotients of the number that the bytes spell, two's complement, and the statement
about the elements of MXINT8 and of BNT in the 2-bit layout (00_conventions R9; 08_narrow_arithmetic R313, R316, R317). -/

namespace Sys2Proof.Machine

/-! Bytes as digits (00 R9) -/

/-- Little-endian bytes are the digits of their number in base 256. -/
theorem ofLe_eq_ofDigits (l : List Byte) : ofLe l = Nat.ofDigits 256 (l.map BitVec.toNat) := by
  induction l with
  | nil => rfl
  | cons b l ih => rw [List.map_cons, Nat.ofDigits_cons, ofLe, ih]

theorem map_toNat_lt_256 (l : List Byte) : ∀ d ∈ l.map BitVec.toNat, d < 256 :=
  List.forall_mem_map.2 fun b _ => b.isLt

theorem ofLe_drop (l : List Byte) (i : Nat) : ofLe (l.drop i) = ofLe l / 256 ^ i := by
  rw [ofLe_eq_ofDigits, ofLe_eq_ofDigits, List.map_drop,
    Nat.ofDigits_div_pow_eq_ofDigits_drop i (by decide) _ (map_toNat_lt_256 l)]

theorem ofLe_take (l : List Byte) (n : Nat) : ofLe (l.take n) = ofLe l % 256 ^ n := by
  rw [ofLe_eq_ofDigits, ofLe_eq_ofDigits, List.map_take,
    Nat.ofDigits_mod_pow_eq_ofDigits_take n (by decide) _ (map_toNat_lt_256 l)]

theorem ofLe_append_replicate_zero (l : List Byte) (k : Nat) : ofLe (l ++ List.replicate k 0) = ofLe l := by
  rw [ofLe_eq_ofDigits, ofLe_eq_ofDigits, List.map_append, List.map_replicate]
  exact Nat.ofDigits_append_replicate_zero _

/-- A field is a run of digits of the whole number; the zeros beyond the end of the bytes are its leading zeros. -/
theorem field_eq_div_mod (l : List Byte) (ofs n : Nat) : field l ofs n = ofLe l / 256 ^ ofs % 256 ^ n := by
  rw [← ofLe_drop, ← ofLe_take]
  exact ofLe_append_replicate_zero _ _

/-! Elements of a bit stream (08 R317) -/

/-- Bits c up to c + w of a number lie whole in its low n bits. -/
theorem mod_two_pow_div_mod {x n c w : Nat} (h : c + w ≤ n) : x % 2 ^ n / 2 ^ c % 2 ^ w = x / 2 ^ c % 2 ^ w := by
  have hn : 2 ^ n = 2 ^ c * 2 ^ (n - c) := by rw [← Nat.pow_add, Nat.add_sub_cancel' (by omega)]
  rw [hn, Nat.mod_mul_right_div_self, Nat.mod_mod_of_dvd _ (Nat.pow_dvd_pow 2 (by omega))]

/-- Three bytes hold an element of at most 17 bits wherever it begins, so element i is bits w i up to w i + w of the stream. -/
theorem streamElem_eq_div_mod {w : Nat} (hw : w ≤ 17) (l : List Byte) (i : Nat) :
    streamElem l w i = ofLe l / 2 ^ (w * i) % 2 ^ w := by
  have hfit : w * i % 8 + w ≤ 8 * 3 := by omega
  have hpow (n : Nat) : 256 ^ n = 2 ^ (8 * n) := Nat.pow_mul 2 8 n |>.symm
  calc streamElem l w i
      = ofLe l / 2 ^ (8 * (w * i / 8)) % 2 ^ (8 * 3) / 2 ^ (w * i % 8) % 2 ^ w := by
        rw [streamElem, field_eq_div_mod, hpow, hpow]
    _ = ofLe l / 2 ^ (8 * (w * i / 8)) / 2 ^ (w * i % 8) % 2 ^ w := mod_two_pow_div_mod hfit
    _ = ofLe l / 2 ^ (w * i) % 2 ^ w := by rw [Nat.div_div_eq_div_mul, ← Nat.pow_add, Nat.div_add_mod]

theorem efmtWidth_le_sixteen (f : EFmt) : efmtWidth f ≤ 16 := by cases f <;> decide

/-- The element codes of a block that is no packed BNT are the elements of its bit stream. -/
theorem blockCodes_of_stream {w : WFmt} (h : w.packed = false) (l : List Byte) :
    blockCodes w l = (List.range w.n).map fun i => ofLe l / 2 ^ (efmtWidth w.fmt * i) % 2 ^ efmtWidth w.fmt := by
  have hw : efmtWidth w.fmt ≤ 17 := Nat.le_succ_of_le (efmtWidth_le_sixteen w.fmt)
  simp only [blockCodes, h, Bool.false_eq_true, if_false, streamElem_eq_div_mod hw]

/-! BNT in the 2-bit layout (08 R316) -/

theorem blockCodes_bnt2 (l : List Byte) :
    blockCodes (wfmtOf 3) l = (List.range 64).map fun i => ofLe l / 4 ^ i % 4 := by
  have hpow (i : Nat) : 2 ^ (2 * i) = 4 ^ i := Nat.pow_mul 2 2 i
  rw [blockCodes_of_stream rfl]
  simp only [wfmtOf, efmtWidth, hpow, Nat.reducePow]

theorem blockInvalid_bnt2_iff (l : List Byte) : blockInvalid (wfmtOf 3) l = true ↔ 2 ∈ blockCodes (wfmtOf 3) l :=
  List.contains_iff_mem

/-! MXINT8 (08 R313) -/

theorem signedOf_toNat {w : Nat} (q : BitVec (w + 1)) : signedOf (w + 1) q.toNat = q.toInt := by
  have hpow : 2 ^ (w + 1) = 2 * 2 ^ w := Nat.pow_succ'
  have hiff : q.toNat < 2 ^ w ↔ 2 * q.toNat < 2 ^ (w + 1) := by omega
  simp only [signedOf, Nat.add_sub_cancel, BitVec.toInt_eq_toNat_cond, hiff, Nat.cast_pow, Nat.cast_ofNat]

theorem efmtDec_int8 (q : BitVec 8) : efmtDec .int8 q.toNat = .fin (decide (q.toInt < 0)) { m := q.toInt, e := -6 } := by
  simp only [efmtDec, signedOf_toNat q]

/-- Settles O60: MXINT8 by its two's complement, BNT by the elements of the block's bit stream. -/
theorem integerAndTernaryElements : Obligations.IntegerAndTernaryElements := by
  unfold Obligations.IntegerAndTernaryElements
  refine ⟨efmtDec_int8, efmtDec_int8 0x80, efmtDec_int8 0x7F, ?element, rfl, rfl, rfl, ?invalid⟩
  case element =>
    intro l i _
    simp [blockCodes_bnt2, List.getD_eq_getElem?_getD]
  case invalid =>
    intro l _
    rw [blockInvalid_bnt2_iff, blockCodes_bnt2, List.mem_map]
    simp only [List.mem_range, Fin.exists_iff, exists_prop]

end Sys2Proof.Machine
end

section
/-! SUPPORT. The verbs of weight sets and KV objects that compute, make, fill and release, branch by branch, and the objects that keep a
stack in service (09_weights_and_kv R359, R375 to R379, R383 to R402). -/

namespace Sys2Proof.Machine

/-! Stacks that hold an object (09 R359) -/

theorem holdsObject_iff {s : State} {k : Nat} : holdsObject s k = true ↔
    (∃ x ∈ s.ws.sets, ∃ r ∈ x.runs, r.1 = k) ∨ (∃ o ∈ s.kv.objs, ∃ p ∈ o.pages, p.frame.stack = k) := by
  simp [holdsObject]

/-- Settles O56: an object on the stack is what holdsObject finds, and STACK_RETIRE asks for it first. -/
theorem stacksWithObjectsAreBusy : Obligations.StacksWithObjectsAreBusy := by
  unfold Obligations.StacksWithObjectsAreBusy
  intro sess k e s s0 x hserved hmay hobject
  exact congrArg Host.Outcome.next
    ((withSess_served hserved hmay).trans (stackRetire_of_used (Or.inr (holdsObject_iff.2 hobject))))

/-! The input and the output of a call (09 R376, R379, R382, R398) -/

/-- Where the input or the output of a call lies: the window of the handle, the address in it, and the bytes. -/
structure CallRange where
  /-- The handle. -/
  win : Nat
  /-- The address. -/
  va : Nat
  /-- The bytes. -/
  len : Nat

/-- The status of a call's access to a range with a right, and the parts of the range. -/
def CallRange.parts (x : CallRange) (s : State) (w : Waiting) (right : Nat) : Status × List Part :=
  rangeParts s w.ord (reqTid w.req) w.req.src x.len (x.win, x.va, right)

/-- The request of a call that has begun: its output is noted, with what an answer that fails names in RESULT1 (09 R379, R398). -/
def beganAt (w : Waiting) (t : Span) (len ctx : Nat) : Waiting := { w with outAt := some (t.g.idx, t.o, len, ctx) }

/-- A call reads its input and may write its output: both are accessible and lie apart, the lines of the output wait for nothing, and the
input d has been read in the state s2. -/
structure CallMeets (w : Waiting) (i o : CallRange) (ctx : Nat) (s s1 s2 : State) (t : Span) (d : List Byte) : Prop where
  /-- The input may be read. -/
  readable : (i.parts s w rightR).1 = .ok
  /-- The output may be written. -/
  writable : (o.parts s w rightW).1 = .ok
  /-- They do not overlap. -/
  apart : rangesOverlap (physRanges (i.parts s w rightR).2) (physRanges (o.parts s w rightW).2) = false
  /-- Where the output lies. -/
  span : spanOf s o.win o.va = some t
  /-- The directory lets the output through. -/
  gate : descGate w.ord o.len (some t) [] s = (s1, .go)
  /-- The input. -/
  input : fetchRange (beganAt w t o.len ctx) 0 i.win i.va i.len s1 = .ok s2 d

/-! WS_GEMV (09 R375 to R379) -/

/-- The matrices that a call multiplies by. -/
def callMats (x : Wset) (p : GemvP) : List Mat := (x.mats.drop p.first).take p.count

/-- WS_GEMV of a resident set whose matrices of the call have one width does the work of the call, where its ranges and its engines are
at hand (09 R375, R376, R378, R382). -/
theorem wsGemv_of_met {e : Env} {w : Waiting} {b d : List Byte} {x : Wset} {p : GemvP} {k : Nat} {a : Nat × Nat}
    {tiles : List (Nat × Nat × Nat × Tile)} {t : Span} {s s1 s2 : State} (hb : b = slice w.req.payload 0 64)
    (hset : setOf s (field b 0 2) (reqTid w.req) = some x) (hp : p = gemvParams x b) (hst : x.st ≠ .lost)
    (hfirst : p.first < x.mats.length) (hk : k = (nth {} x.mats p.first).cols)
    (hwidth : ((callMats x p).any fun m => m.cols ≠ k) = false) (hengs : callEngines s x p = (.ok, a, tiles))
    (hearly : earlierTo s w (field b 0x0C 3) = false)
    (hmeets : CallMeets w ⟨field b 0x0C 3, field b 0x18 8, p.batch * actStride p.af k⟩
      ⟨field b 0x10 3, field b 0x20 8, p.batch * outStride p.bf (sumBy Mat.rows (callMats x p))⟩ 0 s s1 s2 t d) :
    wsGemv e w s = gemvWork e (beganAt w t (p.batch * outStride p.bf (sumBy Mat.rows (callMats x p))) 0) x p k tiles t.g t.o d s2 := by
  obtain ⟨hread, hwrite, hapart, hspan, hgate, hinput⟩ := hmeets
  subst hb hp hk
  simp only [CallRange.parts, beganAt, callMats] at hread hwrite hapart hspan hgate hinput hwidth ⊢
  simp only [wsGemv, hset, Nat.not_le.2 hfirst, hst, hwidth, hread, hwrite, hapart, hengs, hearly, hspan, hgate, hinput,
    Bool.and_false, Bool.false_eq_true, if_false, ne_eq, not_true_eq_false]

/-- Where every tile succeeds and the output can be written, the call answers OK, or OK_ESCALATED where sums escalated, with its flags,
its skipped and its escalated counts (09 R377, R379). -/
theorem gemvWork_of_written {e : Env} {w : Waiting} {x : Wset} {p : GemvP} {k oo fl : Nat}
    {tiles : List (Nat × Nat × Nat × Tile)} {g : Region} {input : List Byte} {ms : List Mat} {vecs : List (List Byte)}
    {row : Nat → Nat} {a : CallAcc} {tags : List Nat} {s s1 s2 s3 : State} (hms : ms = callMats x p)
    (hrow : row = fun i => sumBy Mat.rows (ms.take (i - p.first)))
    (hvecs : vecs = (List.range p.batch).map fun v => slice input (v * actStride p.af k) (actStride p.af k))
    (hs : s1 = ((tiles.map fun t => t.2.1).eraseDups).foldl (fun s n => clearFlags n (serveTenant n x.tid s)) s)
    (hcalls : callTiles e x p vecs row k tiles { out := vecs.map fun _ => List.replicate (sumBy Mat.rows ms) 0 } s1 = (s2, a))
    (hok : a.st = .ok) (hfl : fl = (a.out.map (outBytes p.bf)).foldl (fun f b => f ||| b.2) a.flags)
    (hwrite : writeOut g oo (((List.range p.batch).zip (a.out.map (outBytes p.bf))).map fun b =>
      (b.1 * outStride p.bf (sumBy Mat.rows ms), b.2.1)) (noteRounding p row tiles a.out s2) = (s3, .ok, tags)) :
    gemvWork e w x p k tiles g oo input s =
      replyAfter w { mkResp (runTime s3).1 w.req (if a.esc = 0 then .ok else .okEscalated) with
        obj := BitVec.ofNat 32 (fl % 256), r0 := (runTime s3).2, r1 := w64 a.skipped, r2 := w64 a.esc } tags (runTime s3).1 := by
  subst hms hrow hvecs hs hfl
  simp only [callMats] at hcalls hwrite
  simp only [gemvWork, hcalls, hok, hwrite, ne_eq, not_true_eq_false, if_false]

/-! KV_ATTEND (09 R389, R394 to R399) -/

/-- The queries of a call: each of its heads asks each of its queries (09 R394). -/
def attQueries (p : AttP) : Nat := p.nq * p.heads

/-- The bytes of a call's output: the vectors, then the LSE values (09 R398). -/
def attOutLen (o : KvObj) (p : AttP) : Nat := attQueries p * outStride p.bf o.headDim + 4 * attQueries p

/-- KV_ATTEND of a sound object's layer, behind no append, does the work of the call, where its ranges and its engines are at hand
(09 R389, R394, R399). -/
theorem kvAttend_of_met {w : Waiting} {b d : List Byte} {o : KvObj} {p : AttP} {engs : List Nat} {t : Span} {s s1 s2 s3 : State}
    (hb : b = slice w.req.payload 0 64) (hobj : kvOf s (field b 0 4) (reqTid w.req) = some o) (hs : s1 = touchKv o.idx s)
    (hst : o.st ≠ .lost) (hlayer : field b 4 2 < o.layers) (hearly : earlierKv s1 w o [0x41] (field b 4 2) 1 = false)
    (hp : p = attParams o b) (hengs : attEngines s1 o p.layer p.ctx = (.ok, engs))
    (hmeets : CallMeets w ⟨field b 0x10 3, field b 0x18 8, attQueries p * actStride p.qf o.headDim⟩
      ⟨field b 0x14 3, field b 0x20 8, attOutLen o p⟩ p.ctx s1 s2 s3 t d) :
    kvAttend w s = attWork (beganAt w t (attOutLen o p) p.ctx) o p engs t.g t.o (attOutLen o p) d s3 := by
  obtain ⟨hread, hwrite, hapart, hspan, hgate, hinput⟩ := hmeets
  subst hb hs hp
  simp only [CallRange.parts, beganAt, attOutLen, attQueries] at hread hwrite hapart hspan hgate hinput ⊢
  simp only [kvAttend, hobj, hst, Nat.not_le.2 hlayer, hearly, hread, hwrite, hapart, hengs, hspan, hgate, hinput,
    Bool.false_eq_true, if_false, ne_eq, not_true_eq_false]

/-- Where every page has been read and the output can be written, the call answers OK with its flags, its context and its pages
(09 R395, R398). -/
theorem attWork_of_written {w : Waiting} {o : KvObj} {p : AttP} {engs : List Nat} {g : Region} {oo len fl : Nat} {q : List Byte}
    {tags : List Nat} {s s1 s2 s3 : State} {kv : List (List (Option (List (List Fp × List Fp))))}
    {ys : List (List Byte × BitVec 32 × Nat)}
    (hread : readHeads o p.layer p.ctx (List.range o.heads) (engs.foldl (fun s n => serveTenant n o.tid s) s) = (s1, kv))
    (hys : ys = attOutputs o p q kv) (hfl : fl = ys.foldl (fun f y => f ||| y.2.2) 0)
    (hs : s2 = if fl = 0 then s1 else engs.foldl (fun s n => noteFlags n fl s) s1)
    (hall : (kv.any fun c => c.any Option.isNone) = false)
    (hwrite : writeOut g oo ((((List.range ys.length).zip ys).map fun y => (y.1 * outStride p.bf o.headDim, y.2.1)) ++
      [(attQueries p * outStride p.bf o.headDim, (ys.map fun y => le 4 y.2.1.toNat).flatten)]) s2 = (s3, .ok, tags)) :
    attWork w o p engs g oo len q s = replyAfter w { mkResp (runTime s3).1 w.req .ok with
      obj := BitVec.ofNat 32 fl, r0 := (runTime s3).2, r1 := w64 p.ctx, r2 := w64 (pagesRead kv) } tags (runTime s3).1 := by
  subst hys hfl hs
  simp only [attQueries] at hwrite
  simp only [attWork, hread, hall, hwrite, Bool.false_eq_true, if_false, ne_eq, not_true_eq_false]

/-- Settles O34: each verb comes to its work by the lemma of its checks, and the work to its answer by the lemma of what it writes. -/
theorem gemvAndAttendComplete : Obligations.GemvAndAttendComplete := by
  unfold Obligations.GemvAndAttendComplete
  refine ⟨?gemv, ?attend, ?gemvWork, ?attWork⟩
  case gemv =>
    rintro r e s s0 s1 s2 w w' b d x p k ilen olen a tiles t htaken hfits hb hset hp hst hfirst hk hwidth rfl rfl hread hwrite
      hapart hengs hearly hspan hgate rfl hinput
    exact next_runVerb htaken hfits
      (wsGemv_of_met hb hset hp hst hfirst hk hwidth hengs hearly ⟨hread, hwrite, hapart, hspan, hgate, hinput⟩)
  case attend =>
    rintro r e s s0 s1 s2 s3 w w' b d o p n qlen olen engs t htaken hfits hb hobj hs hst hlayer hearly hp rfl rfl rfl hread hwrite
      hapart hengs hspan hgate rfl hinput
    exact next_runVerb htaken hfits
      (kvAttend_of_met hb hobj hs hst hlayer hearly hp hengs ⟨hread, hwrite, hapart, hspan, hgate, hinput⟩)
  case gemvWork =>
    intro e w x p k oo fl tiles g input ms vecs row a tags s s1 s2 s3 hms hrow hvecs hs hcalls hok hfl hwrite
    exact gemvWork_of_written hms hrow hvecs hs hcalls hok hfl hwrite
  case attWork =>
    intro w o p engs g oo len fl q tags s s1 s2 s3 kv ys hread hys hfl hs hall hwrite
    exact attWork_of_written hread hys hfl hs hall hwrite

/-! Making and sharing objects (09 R383, R386, R390) -/

/-- The object that KV_CREATE makes in a region by its payload, without its handle and reservation (09 R383). -/
def kvFresh (w : Waiting) (g : Region) (s : State) : KvObj :=
  { tid := reqTid w.req, region := g.idx, layers := clampTo 1 256 (field w.req.payload 2 2),
    heads := clampTo 1 64 (field w.req.payload 4 1), headDim := if field w.req.payload 5 1 = 0 then 64 else 128,
    mx := field w.req.payload 6 1 = 1, maxTok := clampTo 1 (2 ^ 20) (field w.req.payload 8 4),
    idleMs := idleMsOf (field w.req.payload 0x0C 4), stks := stackList s g (field w.req.payload 0x10 4),
    lens := List.replicate (clampTo 1 256 (field w.req.payload 2 2)) 0 }

/-- KV_CREATE in an own object region that nothing may still write to adds a fresh object (09 R356, R357, R383). -/
theorem kvCreate_of_sealed {pick : Nat} {w : Waiting} {g : Region} {s : State} (hg : objRegion s (reqTid w.req) (objField w) = some g)
    (hst : g.st ≠ .revoking) (hseal : w.sealLate = false) (hwrites : writesPending s g.idx w.ord = false) :
    kvCreate pick w s = kvAdd pick 0 (kvT (kvFresh w g s)) w g (kvFresh w g s) s := by
  simp only [kvCreate, hg, hst, hseal, hwrites, Bool.false_eq_true, if_false, kvFresh]

@[simp] theorem useIndex_kv (tab idx gen : Nat) (s : State) : (useIndex tab idx gen s).kv = s.kv :=
  (useIndex_keeps tab idx gen s).agree .kv rfl

@[simp] theorem useIndex_mem (tab idx gen : Nat) (s : State) : (useIndex tab idx gen s).mem = s.mem :=
  (useIndex_keeps tab idx gen s).agree .mem rfl

/-- An object that nothing refuses is entered under a free handle with its frames reserved (09 R386). -/
theorem kvAdd_of_room {pick lo r1 i : Nat} {w : Waiting} {g : Region} {o o' : KvObj} {s s1 : State} (hroom : kvRefuse s g o lo = none)
    (hfree : freeHandle s 5 (2 ^ 20) pick (fun i => s.kv.objs.any fun x => x.idx = i) = some i)
    (ho : o' = { o with idx := i, gen := nextGen s 5 i, resv := kvNeed o lo (kvN o), lastUse := s.now, node := w.req.src })
    (hs : s1 = useIndex 5 i o'.gen (setKv (fun c => { c with objs := c.objs ++ [o'] }) s)) :
    kvAdd pick lo r1 w g o s = reply w { mkResp s1 w.req .ok with
      obj := BitVec.ofNat 32 (kvHandle o'), r0 := w64 (sumBy Prod.snd (kvNeed o lo (kvN o))), r1 := w64 r1 } s1 := by
  subst hs ho
  simp only [kvAdd, hroom, hfree]

/-- KV_SHARE_PREFIX of a sound object, behind no append, adds the child that shares its first tokens (09 R390). -/
theorem kvSharePrefix_of_sound {pick t p : Nat} {w : Waiting} {b : List Byte} {o : KvObj} {g : Region} {s s1 : State}
    (hb : b = slice w.req.payload 0 64) (hobj : kvOf s (field b 0 4) (reqTid w.req) = some o) (hs : s1 = touchKv o.idx s)
    (hst : o.st ≠ .lost) (hearly : earlierKv s1 w o [0x41] 0 o.layers = false) (hg : regionAt s1 o.region = some g)
    (hgst : g.st ≠ .revoking) (ht : t = kvT o) (hp : p = clampTo 0 (leastOf o.lens) (field b 4 4)) :
    kvSharePrefix pick w s = kvAdd pick (p / t) (p / t * t) w g { o with
      st := .active, maxTok := clampTo (max p 1) (2 ^ 20) (field b 8 4), idleMs := idleMsOf (field b 0x0C 4)
      lens := List.replicate o.layers p, sharedLen := p / t * t
      pages := o.pages.filter fun x => decide (x.p < ceilDiv p t) } s1 := by
  subst hb hs ht hp
  simp only [kvSharePrefix, hobj, hst, hearly, hg, hgst, Bool.false_eq_true, if_false]

/-! Appending (09 R387 to R391) -/

/-- Where the tokens of an append go (09 R387). -/
structure AppendPlace where
  /-- The object. -/
  o : KvObj
  /-- The first layer. -/
  l0 : Nat
  /-- The layers. -/
  ln : Nat
  /-- The first position. -/
  pos : Nat
  /-- The tokens. -/
  count : Nat

namespace AppendPlace

/-- The parameters b of an append name its place (09 R387). -/
structure NamedBy (a : AppendPlace) (b : List Byte) : Prop where
  /-- LAYER. -/
  l0 : a.l0 = field b 4 2
  /-- LAYER_COUNT. -/
  ln : a.ln = clampTo 1 (a.o.layers - a.l0) (field b 6 2)
  /-- POS. -/
  pos : a.pos = field b 8 4
  /-- COUNT. -/
  count : a.count = clampTo 0 65536 (field b 0x0C 4)

/-- The layers of an append. -/
def layers (a : AppendPlace) : List Nat := (List.range a.ln).map fun i => a.l0 + i

/-- The bytes of the source of an append (09 R387). -/
def len (a : AppendPlace) : Nat := a.ln * a.count * a.o.heads * 2 * headBytes a.o.mx a.o.headDim

/-- The pages that an append touches. -/
def pages (a : AppendPlace) : List (Nat × Nat × Nat) := touchedPages a.o a.l0 a.ln a.pos a.count

/-- An append may write its pages: nothing earlier flies on its layers, its source x may be read, it begins at or below the length of
each layer, it stays within MAX_TOKENS, and no page is immutable (09 R387 to R391). -/
structure Meets (a : AppendPlace) (w : Waiting) (x : CallRange) (s : State) : Prop where
  /-- The object is sound. -/
  sound : a.o.st ≠ .lost
  /-- It has the first layer. -/
  layer : a.l0 < a.o.layers
  /-- There is something to append. -/
  nonempty : a.count ≠ 0
  /-- Earlier verbs on its layers are over. -/
  first : earlierKv s w a.o [0x41, 0x42] a.l0 a.ln = false
  /-- So are the attends of plans. -/
  noAttend : attendFlies s a.o a.l0 a.ln w.ord = false
  /-- The source may be read. -/
  readable : (x.parts s w rightR).1 = .ok
  /-- No layer ends before its first position. -/
  noGap : (a.layers.any fun l => decide (nth 0 a.o.lens l < a.pos)) = false
  /-- No page is immutable. -/
  mutable : (a.pages.any fun y => pageImmutable s a.o y.1 y.2.1 y.2.2) = false
  /-- It stays within MAX_TOKENS. -/
  room : a.pos + a.count ≤ a.o.maxTok

end AppendPlace

/-- KV_APPEND that may write its pages writes them one by one, sets the lengths of its layers and answers OK (09 R387, R391). -/
theorem kvAppend_of_met {w : Waiting} {b d : List Byte} {a : AppendPlace} {fr cp : Nat} {s s1 s2 s3 : State}
    (hb : b = slice w.req.payload 0 64) (hobj : kvOf s (field b 0 4) (reqTid w.req) = some a.o) (hs : s1 = touchKv a.o.idx s)
    (hnamed : a.NamedBy b) (hmeets : a.Meets w ⟨field b 0x10 3, field b 0x18 8, a.len⟩ s1)
    (hread : fetchRange w 0 (field b 0x10 3) (field b 0x18 8) a.len s1 = .ok s2 d)
    (hwrite : a.pages.foldl (appendPage a.o.idx a.l0 a.pos a.count d) (s2, .ok, 0, 0) = (s3, .ok, fr, cp)) :
    kvAppend w s = reply w { mkResp s3 w.req .ok with r0 := w64 (a.pos + a.count), r1 := w64 fr, r2 := w64 cp }
      (modKv a.o.idx (fun y => { y with lens := a.layers.foldl (fun m l => m.set l (a.pos + a.count)) y.lens }) s3) := by
  obtain ⟨hl0, hln, hpos, hcount⟩ := hnamed
  obtain ⟨hst, hlayer, hsome, hearly, hattend, hsrc, hgap, hmut, hroom⟩ := hmeets
  simp only [AppendPlace.layers, AppendPlace.len, AppendPlace.pages, CallRange.parts] at hread hwrite hsrc hgap hmut ⊢
  simp only [kvAppend, ← hb, hobj, ← hs, hst, ← hl0, Nat.not_le.2 hlayer, ← hln, ← hpos, ← hcount, hsome, hearly, hattend, hsrc,
    hgap, hmut, Nat.not_lt.2 hroom, hread, hwrite, decide_false, Bool.or_self, Bool.and_false, Bool.false_eq_true, if_false, ne_eq,
    not_true_eq_false]

/-! Releasing (09 R392, R402) -/

/-- KV_RELEASE frees an own object that nothing holds (09 R392). -/
theorem kvRelease_of_idle {w : Waiting} {o : KvObj} {s : State}
    (hobj : kvOf s (field w.req.payload 0 4) (reqTid w.req) = some o) (hbusy : kvBusy s o = false) :
    kvRelease w s = replySt w .ok (freeObj o.idx s) := by
  simp only [kvRelease, hobj, hbusy, Bool.false_eq_true, if_false]

/-- KV_EXPIRED frees an object that nothing has named or holds for IDLE_MS, counts it and tells its node (09 R392, R402). -/
theorem execKvExpired_of_idle {i : Nat} {e : Env} {o : KvObj} {s s0 : State} (hs : s0 = applyEnv e s) (hobj : kvAt s0 i = some o)
    (hidle : o.idleMs ≠ 0) (hlong : o.lastUse + o.idleMs * 1000000 ≤ s0.now) (hbusy : kvBusy s0 o = false) :
    execKvExpired i e s = .next (event o.node 0x0C .ok o.tid (kvHandle o) o.idleMs 0 0
      (setKv (fun c => { c with expired := satAdd 16 c.expired 1 }) (freeObj i s0))) := by
  subst hs
  simp only [execKvExpired, hobj, hidle, Nat.not_lt.2 hlong, hbusy, decide_false, Bool.or_self, Bool.false_eq_true, if_false]

/-- Settles O35: each verb runs on the request it takes, by the lemma of the branch that its checks lead to. -/
theorem kvObjectsComplete : Obligations.KvObjectsComplete := by
  unfold Obligations.KvObjectsComplete
  refine ⟨?create, ?enter, ?append, ?share, ?release, ?expire⟩
  case create =>
    rintro r e s s0 w g o htaken hfits hg hst hseal hwrites rfl
    exact next_runVerb htaken hfits (kvCreate_of_sealed hg hst hseal hwrites)
  case enter =>
    intro pick lo r1 i w g o o' s hroom hfree ho
    exact ⟨_, kvAdd_of_room hroom hfree ho rfl, by simp, by simp⟩
  case append =>
    rintro r e s s0 s1 s2 s3 w b d o l0 ln pos count len fr cp htaken hfits hb hobj hs hst hl0 hlayer hln hpos hcount hsome rfl
      hearly hattend hsrc hgap hmut hroom hread hwrite
    exact next_runVerb htaken hfits (kvAppend_of_met (a := ⟨o, l0, ln, pos, count⟩) hb hobj hs ⟨hl0, hln, hpos, hcount⟩
      ⟨hst, hlayer, hsome, hearly, hattend, hsrc, hgap, hmut, hroom⟩ hread hwrite)
  case share =>
    intro r e s s0 s1 w b o g t p htaken hfits hb hobj hs hst hearly hg hgst ht hp
    exact next_runVerb htaken hfits (kvSharePrefix_of_sound hb hobj hs hst hearly hg hgst ht hp)
  case release =>
    intro r e s s0 w o htaken hfits hobj hbusy
    exact next_runVerb htaken hfits (kvRelease_of_idle hobj hbusy)
  case expire =>
    intro i e s s0 o hs hobj hidle hlong hbusy
    exact execKvExpired_of_idle hs hobj hidle hlong hbusy

end Sys2Proof.Machine
end

section
/-! SUPPORT. Ports of the link layer: what a port reads after a change of one, when a port receives flits, and that what leaves a port
or is queued at one leaves the state of every link as it was (10 R414, R426, R427). -/

namespace Sys2Proof.Machine

/-! Reading a port after a change -/

theorem nth_setNthD {α : Type} (d v : α) (k j : Nat) (l : List α) : nth d (setNthD d k v l) j = if j = k then v else nth d l j := by
  unfold nth setNthD
  by_cases hk : k < l.length
  · rw [if_pos hk, List.getD_eq_getElem?_getD, List.getElem?_set]
    by_cases hj : j = k
    · simp [hj, hk]
    · rw [if_neg (Ne.symm hj), if_neg hj, List.getD_eq_getElem?_getD]
  · rw [if_neg hk]
    simp only [List.getD_eq_getElem?_getD, List.append_assoc, List.getElem?_append, List.getElem?_replicate, List.length_replicate]
    grind

theorem portAt_modPort (k j : Nat) (f : LnkPort → LnkPort) (s : State) :
    portAt (modPort k f s) j = if j = k then f (portAt s k) else portAt s j := nth_setNthD ..

@[simp] theorem portAt_modPort_same (k : Nat) (f : LnkPort → LnkPort) (s : State) : portAt (modPort k f s) k = f (portAt s k) := by
  rw [portAt_modPort, if_pos rfl]

/-- Only the port as it stands matters to a change of it. -/
theorem modPort_congr {k : Nat} {f g : LnkPort → LnkPort} {s : State} (h : f (portAt s k) = g (portAt s k)) :
    modPort k f s = modPort k g s := by
  unfold portAt at h
  simp only [modPort, setLnk, h]

/-! Ports that receive flits -/

/-- A port trains, verifies or is ACTIVE: it receives flits and can be reset (10 R414, R426). -/
def Receives (p : LnkPort) : Prop := p.st = .train ∨ p.st = .verify ∨ p.st = .active

theorem carries_iff {p : LnkPort} : carries p = true ↔ p.st = .verify ∨ p.st = .active := by
  simp only [carries, Bool.or_eq_true, beq_iff_eq]

theorem Receives.of_carries {p : LnkPort} (h : carries p = true) : Receives p := .inr (carries_iff.1 h)

theorem carries_of_train {p : LnkPort} (h : p.st = .train) : carries p = false := by
  simp only [carries, h]; rfl

/-! What leaves every link in its state -/

/-- A port is in the same state of its link, for the same reason. -/
structure SameLink (p q : LnkPort) : Prop where
  st : q.st = p.st
  reason : q.reason = p.reason

/-- Every port of the module is. -/
structure SameLinks (s t : State) : Prop where
  port : ∀ j, SameLink (portAt s j) (portAt t j)

theorem SameLinks.refl (s : State) : SameLinks s s := ⟨fun _ => ⟨rfl, rfl⟩⟩

/-- One more operation, the last one first. -/
theorem SameLinks.step {s t u : State} (k : SameLinks t u) (h : SameLinks s t) : SameLinks s u :=
  ⟨fun j => ⟨(k.port j).st.trans (h.port j).st, (k.port j).reason.trans (h.port j).reason⟩⟩

theorem SameLinks.ite {c : Prop} [Decidable c] {s a b : State} (h : SameLinks s a) (k : SameLinks s b) :
    SameLinks s (if c then a else b) := by split <;> assumption

/-- An operation repeated over a list. -/
theorem SameLinks.foldl {α : Type} {f : State → α → State} (h : ∀ x a, SameLinks x (f x a)) (l : List α) (s : State) :
    SameLinks s (l.foldl f s) := by
  induction l generalizing s with
  | nil => exact .refl s
  | cons a l ih => exact (ih _).step (h s a)

/-- An operation that does not touch the ports. -/
theorem SameLinks.of_ports {s t : State} (h : t.lnk.ports = s.lnk.ports) : SameLinks s t := ⟨fun j => by
  simp only [portAt, h]; exact ⟨rfl, rfl⟩⟩

theorem Keeps.sameLinks {M : Nat} {s t : State} (h : Keeps M s t) (hM : M.testBit 18 = false) : SameLinks s t :=
  .of_ports (congrArg Lnk.ports (h.agree .lnk hM))

/-- A change of a port that leaves its state and its reason. -/
theorem sameLinks_modPort {k : Nat} {f : LnkPort → LnkPort} {s : State} (h : SameLink (portAt s k) (f (portAt s k))) :
    SameLinks s (modPort k f s) := ⟨fun j => by
  rw [portAt_modPort]
  split
  · next hj => exact hj ▸ h
  · exact ⟨rfl, rfl⟩⟩

theorem sameLinks_emit (o : Out) (s : State) : SameLinks s (emit o s) := .of_ports rfl

theorem sameLinks_setRte (f : Rte → Rte) (s : State) : SameLinks s (setRte f s) := .of_ports rfl

theorem sameLinks_setBoot (f : Boot → Boot) (s : State) : SameLinks s (setBoot f s) := .of_ports rfl

theorem sameLinks_putBucket (b : Bucket) (s : State) : SameLinks s (putBucket b s) := (putBucket_keeps b s).sameLinks rfl

/-! Flits -/

theorem sameLinks_lineFlit (k : Nat) (rpl : Bool) (b : List Byte) (s : State) : SameLinks s (lineFlit k rpl b s) :=
  (sameLinks_emit ..).step ((sameLinks_modPort ⟨rfl, rfl⟩).step (.ite (sameLinks_emit ..) (.refl s)))

theorem sameLink_headerWith (p : LnkPort) (ftype info : Nat) (ack : Bool) (crd : Option Nat) :
    SameLink p (headerWith p ftype info ack crd).2 := by
  cases ack <;> cases crd <;> exact ⟨rfl, rfl⟩

theorem sameLink_flitHeader (now : Nat) (p : LnkPort) (ftype info : Nat) : SameLink p (flitHeader now p ftype info).2 :=
  sameLink_headerWith ..

theorem sameLinks_sendFlit (k : Nat) (sl : List (Nat × Bool × List Byte)) (s : State) : SameLinks s (sendFlit k sl s) := by
  have h := sameLink_flitHeader s.now (portAt s k) 0 (slotInfo sl)
  unfold sendFlit
  exact (sameLinks_lineFlit ..).step (sameLinks_modPort ⟨h.st, h.reason⟩)

theorem sameLinks_sendCtl (k : Nat) (c : LinkCtl) (s : State) : SameLinks s (sendCtl k c s) := by
  unfold sendCtl sendOther
  exact (sameLinks_lineFlit ..).step (sameLinks_modPort (sameLink_flitHeader ..))

/-! The egress scheduler -/

theorem sameLink_egTake (s : State) (p : LnkPort) (e : EgPkt) : SameLink p (egTake s p e) := by
  unfold egTake
  dsimp only
  split
  · split <;> exact ⟨rfl, rfl⟩
  · exact ⟨rfl, rfl⟩

theorem sameLinks_startPkt (k pos : Nat) (e : EgPkt) (s : State) : SameLinks s (startPkt k pos e s) := by
  have h := sameLink_egTake s (portAt s k) e
  unfold startPkt
  dsimp only
  split <;> exact (sameLinks_emit ..).step (sameLinks_modPort ⟨h.st, h.reason⟩)

theorem sameLinks_startPkts (k n : Nat) (s : State) : SameLinks s (startPkts k n s) := by
  induction n generalizing s with
  | zero => exact .refl s
  | succ n ih =>
    unfold startPkts
    refine .ite (.refl s) ?_
    split
    · exact (ih _).step (sameLinks_startPkt ..)
    · exact .refl s

theorem sameLinks_sendSlots (k n : Nat) (s : State) : SameLinks s (sendSlots k n s) := by
  induction n generalizing s with
  | zero => exact .refl s
  | succ n ih =>
    unfold sendSlots
    exact .ite (.refl s) ((ih _).step ((sameLinks_sendFlit ..).step (sameLinks_modPort ⟨rfl, rfl⟩)))

theorem sameLinks_pumpPort (k : Nat) (s : State) : SameLinks s (pumpPort k s) :=
  (sameLinks_sendSlots ..).step (sameLinks_startPkts ..)

theorem sameLinks_enqueue (k : Nat) (e : EgPkt) (s : State) : SameLinks s (enqueue k e s) := by
  unfold enqueue
  extract_lets p mark e newly q t
  have h : SameLinks s t := sameLinks_modPort ⟨rfl, rfl⟩
  have hseen : SameLinks t (setLnk (fun l => { l with lastPkt := t.now }) t) := .of_ports rfl
  exact (sameLinks_pumpPort ..).step (.ite (hseen.step h) h)

theorem sameLinks_drainBucket (k tid n : Nat) (s : State) : SameLinks s (drainBucket k tid n s) := by
  induction n generalizing s with
  | zero => exact .refl s
  | succ n ih =>
    unfold drainBucket
    dsimp only
    split
    · exact .refl s
    · exact .ite ((ih _).step ((sameLinks_enqueue ..).step (sameLinks_putBucket ..))) (.refl s)

theorem sameLinks_toPort (k : Nat) (tid plan : Option Nat) (p : Pkt) (s : State) : SameLinks s (toPort k tid plan p s) := by
  unfold toPort
  cases tid with
  | none => exact sameLinks_enqueue ..
  | some t =>
    exact .ite (sameLinks_enqueue ..)
      (.ite ((sameLinks_drainBucket ..).step (sameLinks_putBucket ..)) (sameLinks_enqueue ..))

/-! Leaving ACTIVE -/

theorem sameLinks_choosePort {tc slots : Nat} {plan : Option Nat} {set : BitVec 64} {s t : State} {o : Option Nat}
    (h : choosePort tc slots plan set s = (t, o)) : SameLinks s t :=
  ((choosePort_keeps tc slots plan set s).ofEq h).sameLinks rfl

theorem sameLinks_resprayOne (s : State) (e : EgPkt) : SameLinks s (resprayOne s e) := by
  unfold resprayOne
  split
  · exact .refl s
  · dsimp only
    split
    · next h => exact (sameLinks_enqueue ..).step (sameLinks_choosePort h)
    · next h => exact .ite ((sameLinks_setRte ..).step (sameLinks_choosePort h)) (sameLinks_choosePort h)

theorem sameLinks_resprayShaped (tid : Nat) (s : State) (q : Pkt) : SameLinks s (resprayShaped tid s q) := by
  unfold resprayShaped
  split
  · next h => exact (sameLinks_toPort ..).step (sameLinks_choosePort h)
  · next h => exact sameLinks_choosePort h

theorem sameLinks_unlive (k : Nat) (s : State) : SameLinks s (unlive k s) := by
  unfold unlive
  exact (SameLinks.foldl (fun x b => sameLinks_putBucket _ x) _ _).step
    ((sameLinks_modPort ⟨rfl, rfl⟩).step ((sameLinks_setBoot ..).step (sameLinks_setRte ..)))

theorem sameLinks_prunePort (k : Nat) (s : State) : SameLinks s (prunePort k s) := by
  unfold prunePort
  exact (SameLinks.foldl (fun _ (b : Bucket) => .foldl (sameLinks_resprayShaped b.tid) _ _) _ _).step
    ((SameLinks.foldl sameLinks_resprayOne _ _).step (sameLinks_unlive k s))

theorem sameLinks_linkRec (k reason node port : Nat) (s : State) : SameLinks s (linkRec k reason node port s) :=
  (linkRec_keeps ..).sameLinks rfl

theorem sameLinks_countFlap (k reason : Nat) (s : State) : SameLinks s (countFlap k reason s) := by
  unfold countFlap
  extract_lets p old s1 s2 l
  have h1 : SameLinks s s1 := sameLinks_modPort ⟨rfl, rfl⟩
  have h2 : SameLinks s s2 := .ite ((sameLinks_linkRec ..).step h1) h1
  exact .ite ((sameLinks_modPort ⟨rfl, rfl⟩).step ((sameLinks_linkRec ..).step ((sameLinks_modPort ⟨rfl, rfl⟩).step h2))) h2

/-- A port that leaves its state is in the state it leaves for, for the reason given (10 R414, R426). -/
theorem exitPort_link (k reason : Nat) (st : LinkState) (s : State) :
    (portAt (exitPort k reason st s) k).st = st ∧ (portAt (exitPort k reason st s) k).reason = reason := by
  unfold exitPort
  extract_lets active s1 s2
  have h1 : (portAt s1 k).st = st ∧ (portAt s1 k).reason = reason := by
    simp only [s1, portAt_modPort_same, and_self]
  have h2 : SameLinks s1 s2 := .ite (sameLinks_countFlap ..) (.refl _)
  generalize hs3 : (if active = true then _ else _) = s3
  have h3 : SameLinks s1 s3 := hs3 ▸ .ite ((sameLinks_prunePort ..).step h2) ((sameLinks_modPort ⟨rfl, rfl⟩).step h2)
  exact ⟨(h3.port k).st.trans h1.1, (h3.port k).reason.trans h1.2⟩

theorem portReset_of_receives {k reason : Nat} {s : State} (h : Receives (portAt s k)) :
    portReset k reason s = sendCtl k (.reset reason) (exitPort k reason .reset s) := by
  unfold portReset
  rcases h with h | h | h <;> rw [h]

theorem portReset_link {k reason : Nat} {s : State} (h : Receives (portAt s k)) :
    (portAt (portReset k reason s) k).st = .reset ∧ (portAt (portReset k reason s) k).reason = reason := by
  rw [portReset_of_receives h]
  have hsent := (sameLinks_sendCtl k (.reset reason) (exitPort k reason .reset s)).port k
  have hexit := exitPort_link k reason .reset s
  exact ⟨hsent.st.trans hexit.1, hsent.reason.trans hexit.2⟩

end Sys2Proof.Machine
end

section
/-! SUPPORT and O54. A slot out of place is judged by the port as it stood when the slot came, and resets the link (10 R413). -/

namespace Sys2Proof.Machine

/-- A slot of a class is out of place: a header slot while a packet of the class is open, a payload slot while none is (10 R413). -/
def OutOfPlace (p : LnkPort) (tc : Nat) (hdr : Bool) : Prop :=
  (hdr = true ∧ ∃ x ∈ p.rxOpen, x.1 % 8 = tc) ∨ (hdr = false ∧ ∀ x ∈ p.rxOpen, x.1 % 8 ≠ tc)

/-- The state in which a slot is judged: one of TC4 has been counted (11 R482). -/
def slotCounted (k tc : Nat) (hdr : Bool) (s : State) : State := if tc = 4 then (tc4Count k hdr s).1 else s

theorem sameLinks_slotCounted (k tc : Nat) (hdr : Bool) (s : State) : SameLinks s (slotCounted k tc hdr s) := by
  have hcount : SameLinks s (tc4Count k hdr s).1 :=
    .ite ((sameLinks_setRte ..).step (sameLinks_modPort ⟨rfl, rfl⟩)) (sameLinks_modPort ⟨rfl, rfl⟩)
  exact .ite hcount (.refl s)

theorem slotIn_of_outOfPlace {k tc : Nat} {hdr : Bool} (b : List Byte) {s : State} (htc : tc < 6) (h : OutOfPlace (portAt s k) tc hdr) :
    slotIn k tc hdr b s = (portReset k rsProtocol (slotCounted k tc hdr s), false) := by
  have hfst : ∀ d : Bool, (if tc = 4 then tc4Count k hdr s else (s, d)).1 = slotCounted k tc hdr s := fun d => by
    unfold slotCounted; split <;> rfl
  simp only [slotIn, if_neg (Nat.not_le.2 htc), ← hfst false]
  obtain ⟨rfl, x, hx, hclass⟩ | ⟨rfl, hnone⟩ := h
  · have hany : ((portAt s k).rxOpen.any fun x => decide (x.1 % 8 = tc)) = true :=
      List.any_eq_true.2 ⟨x, hx, decide_eq_true hclass⟩
    simp only [hany, Bool.true_or, if_true]
  · have hfind : ((portAt s k).rxOpen.find? fun x => decide (x.1 % 8 = tc)) = none :=
      List.find?_eq_none.2 fun x hx => by simpa using hnone x hx
    simp only [hfind, Bool.false_eq_true, if_false]

/-- Settles O54: the slot is refused on the port as it stood, and the link, whose state the counting of a TC4 slot leaves, resets. -/
theorem slotOutOfPlaceResetsTheLink : Obligations.SlotOutOfPlaceResetsTheLink := by
  unfold Obligations.SlotOutOfPlaceResetsTheLink
  intro k tc hdr b s htc hup hplace
  rw [slotIn_of_outOfPlace b htc hplace]
  have hsame := (sameLinks_slotCounted k tc hdr s).port k
  exact ⟨rfl, portReset_link (by rwa [Receives, hsame.st])⟩

end Sys2Proof.Machine
end

section
/-! SUPPORT and O55. Training, verification and backoff of a port (10 R414, R417, R432). -/

namespace Sys2Proof.Machine

/-- A port that was not ACTIVE leaves its state by clearing its link: nothing is counted as a flap and nothing is sprayed anew. -/
theorem portAt_exitPort_of_inactive {k reason : Nat} {st : LinkState} {s : State} (h : (portAt s k).st ≠ .active) :
    portAt (exitPort k reason st s) k = { clearLink (portAt s k) with
      st := st, reason := reason, since := s.now, signal := none, lpiTx := false, lpiPeer := false
      laneBad := List.replicate 8 0, eg := [], wtag := [] } := by
  have hactive : ((portAt s k).st == .active) = false := beq_eq_false_iff_ne.2 h
  simp only [exitPort, hactive, Bool.false_and, Bool.false_eq_true, if_false, portAt_modPort_same]
  rfl

theorem portAt_trainFail {k reason : Nat} {s : State} (h : (portAt s k).st = .train ∨ (portAt s k).st = .verify) :
    (portAt (trainFail k reason s) k).st = .down ∧ (portAt (trainFail k reason s) k).reason = reason ∧
    (portAt (trainFail k reason s) k).fails = min 7 ((portAt s k).fails + 1) ∧
    (portAt (trainFail k reason s) k).backoffUntil = s.now + 10000000 * 2 ^ min 7 ((portAt s k).fails + 1) := by
  have hinactive : (portAt s k).st ≠ .active := by rcases h with h | h <;> rw [h] <;> decide
  unfold trainFail portDown
  rw [portAt_exitPort_of_inactive (by rwa [portAt_modPort_same]), portAt_modPort_same]
  exact ⟨rfl, rfl, rfl, rfl⟩

theorem mayTrain_of_backoff {k : Nat} {s : State} (h : s.now < (portAt s k).backoffUntil) : mayTrain s k = false := by
  simp only [mayTrain, decide_eq_false (Nat.not_le.2 h), Bool.and_false, Bool.false_and]

theorem tryTrain_of_not_mayTrain {k : Nat} {s : State} (h : mayTrain s k = false) : tryTrain k s = s := by
  rw [tryTrain, h]; rfl

theorem portAt_enterActive (k : Nat) (s : State) :
    portAt (enterActive k s) k = { portAt s k with st := .active, since := s.now, fails := 0, lastHb := s.now } :=
  portAt_modPort_same k (fun p => { p with st := .active, since := s.now, fails := 0, lastHb := s.now }) s

/-- Settles O55: a failed attempt leaves a port that was not ACTIVE, and the backoff it sets is one of the conditions to leave DOWN. -/
theorem portsBackOff : Obligations.PortsBackOff := by
  unfold Obligations.PortsBackOff
  refine ⟨?fails, ?waits, ?zeroed⟩
  case fails => exact fun k reason s h => portAt_trainFail h
  case waits =>
    intro k s h
    exact ⟨mayTrain_of_backoff h, tryTrain_of_not_mayTrain (mayTrain_of_backoff h)⟩
  case zeroed =>
    intro k s
    rw [portAt_enterActive]
    exact ⟨rfl, rfl⟩

end Sys2Proof.Machine
end

section
/-! SUPPORT. What an arriving flit and an arriving link-management packet do (10 R408, R409, R411, R423). -/

namespace Sys2Proof.Machine

/-- A command that waits for two conditions runs where both are met. -/
theorem next_of_both {a b : Bool} {x y : State} (ha : a = true) (hb : b = true) :
    (.next (if a && b then x else y) : Host.Outcome State Fault Refusal) = .next x := by
  rw [ha, hb]; rfl

/-- A port that receives flits reads a flit that is not PAYLOAD, where its CRC holds (10 R409). -/
theorem flitIn_of_other {k : Nat} {flit : List Byte} {s : State} (hr : Receives (portAt s k)) (ht : flitType flit ≠ 0)
    (hcrc : crcHolds 0xFFFFFF flit = true) : flitIn k flit s = otherIn k flit s := by
  simp only [flitIn, if_neg ht, hcrc, if_true]
  rcases hr with h | h | h <;> rw [h]

/-- What the header of a LINK_CTL flit returns; a port that trains takes no returns (10 R408). -/
def ctlReturned (k : Nat) (flit : List Byte) (s : State) : State :=
  if carries (portAt s k) then flitReturns k (field flit 0 8) s else s

theorem ctlReturned_of_carries {k : Nat} {flit : List Byte} {s : State} (h : carries (portAt s k) = true) :
    ctlReturned k flit s = flitReturns k (field flit 0 8) s := if_pos h

theorem ctlReturned_of_train {k : Nat} {flit : List Byte} {s : State} (h : (portAt s k).st = .train) :
    ctlReturned k flit s = s := if_neg (by rw [carries_of_train h]; decide)

/-- A LINK_CTL flit brings its returns, then its message (10 R408, R411). -/
theorem flitIn_of_ctl {k : Nat} {flit : List Byte} {s : State} {c : LinkCtl} (hr : Receives (portAt s k)) (ht : flitType flit = 2)
    (hcrc : crcHolds 0xFFFFFF flit = true) (hc : ctlOf (slice flit 8 64) = some c) :
    flitIn k flit s = ctlIn k c (ctlReturned k flit s) := by
  have hidle : ¬flitType flit = 1 := by rw [ht]; decide
  rw [flitIn_of_other hr (by rw [ht]; decide) hcrc]
  simp only [otherIn, ctlReturned, if_neg hidle, if_pos ht, hc]

theorem flitIn_ctl_of_train {k : Nat} {flit : List Byte} {s : State} {c : LinkCtl} (hst : (portAt s k).st = .train)
    (ht : flitType flit = 2) (hcrc : crcHolds 0xFFFFFF flit = true) (hc : ctlOf (slice flit 8 64) = some c) :
    flitIn k flit s = ctlIn k c s := by
  rw [flitIn_of_ctl (.inl hst) ht hcrc hc, ctlReturned_of_train hst]

theorem flitIn_ctl_of_carries {k : Nat} {flit : List Byte} {s : State} {c : LinkCtl} (hp : carries (portAt s k) = true)
    (ht : flitType flit = 2) (hcrc : crcHolds 0xFFFFFF flit = true) (hc : ctlOf (slice flit 8 64) = some c) :
    flitIn k flit s = ctlIn k c (flitReturns k (field flit 0 8) s) := by
  rw [flitIn_of_ctl (.of_carries hp) ht hcrc hc, ctlReturned_of_carries hp]

/-- A link-management message takes effect by its type (10 R423). -/
def lmActs (k : Nat) (m : LinkMgmt) (s : State) : State :=
  match m.type with
  | 1 => identCheck k m s
  | 2 => identAcked k m s
  | 4 => peerLeaves k s
  | _ => heartbeat k m s

/-- The message is what the arrived packet spells, or the command's own where none has come. -/
theorem lmIn_eq {k : Nat} {m0 m : LinkMgmt} {x : Option InPkt} {s s1 : State} (hin : takeIngress k 5 s = (s1, x))
    (hm : m = (x.map fun x => lmOf x.bytes).getD m0) : lmIn k m0 s = lmActs k m s1 := by
  subst hm
  unfold lmIn
  rw [hin]
  cases x <;> rfl

theorem lmActs_ident {k : Nat} {m : LinkMgmt} {s : State} (h : m.type = 1) : lmActs k m s = identCheck k m s := by
  rw [lmActs, h]; rfl

theorem lmActs_identAck {k : Nat} {m : LinkMgmt} {s : State} (h : m.type = 2) : lmActs k m s = identAcked k m s := by
  rw [lmActs, h]; rfl

theorem lmActs_heartbeat {k : Nat} {m : LinkMgmt} {s : State} (h : m.type = 3) : lmActs k m s = heartbeat k m s := by
  rw [lmActs, h]; rfl

theorem lmActs_leave {k : Nat} {m : LinkMgmt} {s : State} (h : m.type = 4) : lmActs k m s = peerLeaves k s := by
  rw [lmActs, h]; rfl

end Sys2Proof.Machine
end

section
/-! SUPPORT and O36. A link trains and verifies (10 R414, R417 to R421, R433). -/

namespace Sys2Proof.Machine

theorem tryTrain_of_mayTrain {k : Nat} {s : State} (h : mayTrain s k = true) :
    tryTrain k s = sendTrainParam k (modPort k (fun p => { clearLink p with
      st := .train, since := s.now, peerParams := false, rttPairs := 0, lanesUsed := 0, frame := 0, frameAt := 0
      lanesGood := p.lock &&& ~~~ exclMask p, sentWidth := ownWidth s k }) s) := if_pos h

/-- The peer's TRAIN_PARAM with a common width and sound credits (10 R417 to R419). -/
theorem trainParam_of_agreed {k reqWidth w : Nat} {goodMask lanes : Byte} {credits : List Nat} {s : State} {p : LnkPort}
    (hp : p = portAt s k) (hst : p.st = .train) (hfirst : p.peerParams = false)
    (hchoice : laneChoice p.sentWidth (min 3 reqWidth) p.lanesGood goodMask = some (w, lanes)) (hsound : badCredits credits = false) :
    trainParam k reqWidth goodMask credits s = sendCtl k (.rttProbe (w64 s.now)) (sendTrainParam k (modPort k (fun p => { p with
      width := w, lanesUsed := lanes, peerParams := true
      crdPeer := (List.range 12).map fun i => nth 0 credits i }) s)) := by
  simp only [trainParam, ← hp, hst, hfirst, hchoice, hsound, ne_eq, not_true_eq_false, decide_false, Bool.or_self,
    Bool.false_eq_true, if_false]

/-- An RTT sample in TRAIN, after the peer's parameters: the next probe, or VERIFY after the 16th (10 R417, R433). -/
theorem rttEcho_of_sample {k x rtt : Nat} {stamp : BitVec 64} {s s1 : State} {p : LnkPort} (hp : p = portAt s k) (hst : p.st = .train)
    (hparams : p.peerParams = true) (hx : x = min 65535 (s.now - stamp.toNat)) (hrtt : rtt = if p.rttPairs = 0 then x else max x p.rttNs)
    (hs1 : s1 = modPort k (fun p => { p with rttNs := rtt, rttPairs := p.rttPairs + 1 }) s) :
    rttEcho k stamp s = if p.rttPairs + 1 < 16 then sendCtl k (.rttProbe (w64 s1.now)) s1
      else enterVerify k (modPort k (fun p => { p with replayToNs := clampTo 1000 20000 (2 * rtt + 400) }) s1) := by
  simp only [rttEcho, ← hp, hst, hparams, ← hx, ← hrtt, ← hs1, ne_eq, not_true_eq_false, decide_false, Bool.not_true, Bool.or_self,
    Bool.false_eq_true, if_false]

/-- The IDENT of another node that no rule of verification refuses is answered and noted (10 R420, R422). -/
theorem identCheck_of_sound {k : Nat} {m : LinkMgmt} {s s2 : State} (hst : (portAt s k).st = .verify)
    (hs2 : s2 = modPort k (fun p => { p with
      nbrNode := m.node % 2 ^ 20, nbrPort := m.port % 64, nbrKind := min 2 m.kind, nbrInc := m.inc % 2 ^ 16 }) s)
    (hother : m.node % 2 ^ 20 ≠ s2.glb.node)
    (hnbr : (portCfg s k).verify = false ∨ (m.node % 2 ^ 20 = (portCfg s k).nbrNode ∧ m.port % 64 = (portCfg s k).nbrPort))
    (hcluster : s2.img.clusterId = 0 ∨ m.cluster = 0 ∨ s2.img.clusterId = m.cluster) :
    identCheck k m s = verifyPass k (sendLm k { ownLm s2 k 2 with echo := m.nonce }
      (modPort k (fun p => { p with gotIdent := true }) s2)) := by
  have hnbr' : ((portCfg s k).verify && (decide (m.node % 2 ^ 20 ≠ (portCfg s k).nbrNode) ||
      decide (m.port % 64 ≠ (portCfg s k).nbrPort))) = false := by
    obtain h | ⟨h1, h2⟩ := hnbr
    · rw [h]; rfl
    · simp only [h1, h2, ne_eq, not_true_eq_false, decide_false, Bool.or_self, Bool.and_false]
  have hcluster' : (decide (s2.img.clusterId ≠ 0) && decide (m.cluster ≠ 0) && decide (s2.img.clusterId ≠ m.cluster)) = false := by
    obtain h | h | h := hcluster <;> simp [h]
  simp only [identCheck, hst, ne_eq, not_true_eq_false, if_false, ← hs2, if_neg hother]
  simp only [ne_eq] at hnbr' hcluster'
  simp only [hnbr', hcluster', Bool.false_eq_true, if_false]

theorem identAcked_of_nonce {k : Nat} {m : LinkMgmt} {s : State} (hst : (portAt s k).st = .verify) (hecho : (portAt s k).nonce = m.echo) :
    identAcked k m s = verifyPass k (modPort k (fun p => { p with gotAck := true }) s) := by
  simp only [identAcked, hst, hecho, decide_true, Bool.and_self, if_true]

/-- 20 ms in VERIFY fail with the NODE and PORT of the IDENT, free where none came (10 R420, R422). -/
theorem execVerifyTimeout_of_due {port : Fin 64} {t : Nat} {s s0 : State} {p : LnkPort} (hs : s0 = atTime t s) (hp : p = portAt s0 port)
    (hst : p.st = .verify) (hdue : p.since + 20000000 ≤ s0.now) :
    execVerifyTimeout port t s = .next (if p.gotIdent then verifyFail port 0x14 p.nbrNode p.nbrPort s0
      else verifyFail port 0x14 (Config.freeNat (takeFree 2 s0).2 % 2 ^ 20) (Config.freeNat ((takeFree 2 s0).2 + 1) % 64)
        (takeFree 2 s0).1) := by
  subst hs hp
  exact next_of_both (decide_eq_true hst) (decide_eq_true hdue)

/-- Settles O36: each step of training and verification is the branch of its command that the port's state leads to. -/
theorem linkTrains : Obligations.LinkTrains := by
  unfold Obligations.LinkTrains
  intro port t s s0 p hs hp
  refine ⟨?signal, ?train, ?trainTimeout, ?identSend, ?management, ?verifyTimeout⟩
  case signal =>
    rintro marks s1 hdown rfl hmay
    refine congrArg Host.Outcome.next ?_
    dsimp only
    rw [← hs, ← hp, if_pos hdown, tryTrain_of_mayTrain hmay]
  case train =>
    intro flit hst htype hcrc
    have hin : ∀ {c}, ctlOf (slice flit 8 64) = some c → flitIn port flit (atTime t s) = ctlIn port c s0 := fun hc => by
      rw [← hs]; exact flitIn_ctl_of_train (hp ▸ hst) htype hcrc hc
    refine ⟨?param, ?probe, ?echo⟩
    case param =>
      rintro v reqWidth w goodMask lanes credits hfirst hc hchoice hsound head param counts tail rfl
      exact congrArg Host.Outcome.next ((hin hc).trans (trainParam_of_agreed hp hst hfirst hchoice hsound))
    case probe => exact fun stamp hc => congrArg Host.Outcome.next (hin hc)
    case echo =>
      intro stamp x rtt s1 hparams hc hx hrtt hs1
      have hsample := (hin hc).trans (rttEcho_of_sample hp hst hparams hx hrtt hs1)
      exact ⟨fun hmore => congrArg Host.Outcome.next (hsample.trans (if_pos hmore)),
        fun hlast => congrArg Host.Outcome.next (hsample.trans (if_neg (Nat.not_lt.2 hlast)))⟩
  case trainTimeout =>
    intro hst hdue
    subst hs hp
    exact next_of_both (decide_eq_true hst) (decide_eq_true hdue)
  case identSend =>
    intro hst hack
    subst hs hp
    exact next_of_both (decide_eq_true hst) (by rw [hack]; rfl)
  case management =>
    intro m0 m x s1 s2 hin hst
    subst hs
    refine ⟨fun hm htype hs2 hother hnbr hcluster => congrArg Host.Outcome.next ?_, fun hm htype hecho => congrArg Host.Outcome.next ?_⟩
    · rw [lmIn_eq hin hm, lmActs_ident htype, identCheck_of_sound hst hs2 hother hnbr hcluster]
    · rw [lmIn_eq hin hm, lmActs_identAck htype, identAcked_of_nonce hst hecho]
  case verifyTimeout =>
    intro hst hdue
    have htimeout := execVerifyTimeout_of_due hs hp hst hdue
    exact ⟨fun h => htimeout.trans (congrArg Host.Outcome.next (if_pos h)),
      fun h => htimeout.trans (congrArg Host.Outcome.next (if_neg (Bool.eq_false_iff.1 h)))⟩

end Sys2Proof.Machine
end

section
/-! SUPPORT and O37. Loss, reset and holds of a link, and management's commands of a port (10 R413, R415, R424 to R432, R442, R443). -/

namespace Sys2Proof.Machine

theorem heartbeat_of_neighbour {k : Nat} {m : LinkMgmt} {s : State} (hst : (portAt s k).st = .active)
    (hnode : m.node % 2 ^ 20 = (portAt s k).nbrNode) (hinc : m.inc % 2 ^ 16 = (portAt s k).nbrInc) :
    heartbeat k m s = modPort k (fun p => { p with lastHb := s.now }) s := by
  simp only [heartbeat, hst, hnode, hinc, ne_eq, not_true_eq_false, decide_false, Bool.or_self, Bool.false_eq_true, if_false]

theorem heartbeat_of_stranger {k : Nat} {m : LinkMgmt} {s : State} (hst : (portAt s k).st = .active)
    (h : m.node % 2 ^ 20 ≠ (portAt s k).nbrNode ∨ m.inc % 2 ^ 16 ≠ (portAt s k).nbrInc) :
    heartbeat k m s = portReset k rsNbrChanged (linkFlag k 5 s) := by
  have hstranger : (decide (m.node % 2 ^ 20 ≠ (portAt s k).nbrNode) || decide (m.inc % 2 ^ 16 ≠ (portAt s k).nbrInc)) = true := by
    simpa only [Bool.or_eq_true, decide_eq_true_eq] using h
  unfold heartbeat
  rw [if_neg (not_not.2 hst), if_pos hstranger]

theorem peerLeaves_of_up {k : Nat} {s : State} (h : (portAt s k).st = .active ∨ (portAt s k).st = .verify) :
    peerLeaves k s = modPort k (fun p => { p with losNeeded := true }) (portDown k rsPeerLeave s) := by
  unfold peerLeaves
  rcases h with h | h <;> rw [h]

theorem peerResets_of_receives {k : Nat} {s : State} (h : Receives (portAt s k)) :
    peerResets k s = portReset k rsPeerReset (linkFlag k 4 s) := by
  unfold peerResets
  rcases h with h | h | h <;> rw [h]

/-- Settles O37: each event is the branch of its command that the port's state and its times lead to; management's commands run on
their session. -/
theorem linkLossAndManagementComplete : Obligations.LinkLossAndManagementComplete := by
  unfold Obligations.LinkLossAndManagementComplete
  refine ⟨fun port t s s0 p hs hp => ?link, fun sess port t s s0 x hserved hmay => ?management⟩
  case link =>
    refine ⟨?send, ?heartbeat, ?loss, ?leave, ?los, ?losDown, ?reset, ?exit, ?lane, ?exclusion, ?hold, ?backoff⟩
    case send =>
      intro hst hdue
      subst hs hp
      exact next_of_both (decide_eq_true hst) (decide_eq_true hdue)
    case heartbeat =>
      intro m0 m x s1 hin hm htype hst
      have hbeat : lmIn port { m0 with type := 3 } (atTime t s) = heartbeat port m s1 := by
        rw [← hs, lmIn_eq hin hm, lmActs_heartbeat htype]
      exact ⟨fun hnode hinc => congrArg Host.Outcome.next (hbeat.trans (heartbeat_of_neighbour hst hnode hinc)),
        fun hother => congrArg Host.Outcome.next (hbeat.trans (heartbeat_of_stranger hst hother))⟩
    case loss =>
      intro hst hdue
      subst hs hp
      exact next_of_both (decide_eq_true hst) (decide_eq_true hdue)
    case leave =>
      intro s1 x hin htype hst
      have hleave : ((x.map fun x => lmOf x.bytes).getD { type := 4 }).type = 4 := by cases x <;> exact htype
      refine congrArg Host.Outcome.next ?_
      rw [← hs, lmIn_eq hin rfl, lmActs_leave hleave, peerLeaves_of_up hst]
    case los =>
      intro hst
      refine congrArg Host.Outcome.next ?_
      rw [← hs, ← hp, if_neg hst]
    case losDown =>
      intro hst
      refine congrArg Host.Outcome.next ?_
      rw [← hs, ← hp, if_pos hst]
    case reset =>
      intro flit reason s1 htype hcrc hc hst hs1 hst1
      have hreturned : ctlReturned port flit s0 = s1 := by rw [hs1, hp]; rfl
      have hr : Receives (portAt s0 port) := hp ▸ hst
      refine congrArg Host.Outcome.next ?_
      rw [← hs, flitIn_of_ctl hr htype hcrc hc, hreturned]
      exact peerResets_of_receives hst1
    case exit =>
      intro hst hdue
      subst hs hp
      exact next_of_both (decide_eq_true hst) (decide_eq_true hdue)
    case lane =>
      rintro lane lost corr uncorr s1 rfl
      subst hs
      rfl
    case exclusion =>
      intro lane
      subst hs
      rfl
    case hold =>
      intro u hu hdue
      refine congrArg Host.Outcome.next ?_
      simp only [← hs, ← hp, hu, hdue, if_true]
    case backoff =>
      intro hmay
      refine congrArg Host.Outcome.next ?_
      rw [← hs, tryTrain_of_mayTrain hmay]
  case management =>
    refine ⟨congrArg Host.Outcome.next (withWrite_served hserved hmay),
      congrArg Host.Outcome.next (withWrite_served hserved hmay), ?admin⟩
    intro v s1 hmapped hs1
    have hrun : exec (.adminDown sess port v t) s = .next (mgmtReply sess .ok []
        (if v.getLsbD 8 then portReset port rsAdminDown s1 else tryTrain port s1)) := by
      refine (congrArg Host.Outcome.next (withWrite_served hserved hmay)).trans ?_
      simp only [writeLnkCtl, hmapped, Bool.not_true, Bool.false_eq_true, if_false, ← hs1]
    exact ⟨fun h => by rw [hrun, h, if_pos rfl], fun h => by rw [hrun, h, if_neg Bool.false_ne_true]⟩

end Sys2Proof.Machine
end

section
/-! SUPPORT and O38. Flits, replay, credits and low-power idle of a link (10 R408 to R411, R433 to R440). -/

namespace Sys2Proof.Machine

/-- A PAYLOAD flit in sequence whose CRC holds is accepted, where its returns do not reset the link (10 R410, R434, R435). -/
theorem payloadIn_of_sequence {k : Nat} {flit : List Byte} {s s2 : State} {q : LnkPort} (hq : q = portAt s k) (hup : carries q = true)
    (hnak : q.nak = false) (hfrom : q.rxReplayFrom = none) (hcrc : crcHolds q.rxExp flit = true)
    (hs2 : s2 = flitReturns k (field flit 0 8) s) (hup2 : carries (portAt s2 k) = true) :
    payloadIn k flit s = payReturns k (slotsIn k (bits (field flit 0 8) 35 20) (slice flit 8 256) (modPort k (fun p => { p with
      rxExp := (q.rxExp + 1) % 2 ^ 24, rxReplayFrom := none, unacked := p.unacked + 1
      firstUnacked := if p.unacked = 0 then s2.now else p.firstUnacked }) s2)) := by
  simp only [payloadIn, ← hq, hup, hnak, hfrom, Option.getD_none, hcrc, ← hs2, hup2, Bool.not_true, Bool.or_self, ne_eq,
    not_true_eq_false, Bool.false_eq_true, if_false]

/-- One whose CRC does not hold is discarded with a NAK (10 R434). -/
theorem payloadIn_of_bad_crc {k : Nat} {flit : List Byte} {s : State} {q : LnkPort} (hq : q = portAt s k) (hup : carries q = true)
    (hnak : q.nak = false) (hcrc : crcHolds (q.rxReplayFrom.getD q.rxExp) flit = false) :
    payloadIn k flit s = sendCtl k (.nak q.rxExp) (modPort k (fun p => { p with
      crcErr := satAdd 16 p.crcErr 1, nak := true, rxReplayFrom := none, unacked := 0 }) s) := by
  simp only [payloadIn, ← hq, hup, hnak, hcrc, Bool.not_true, Bool.not_false, Bool.or_self, Bool.false_eq_true, if_false, if_true]

/-- An IDLE flit renews the last burst and brings its returns (10 R411, R440). -/
theorem flitIn_of_idle {k : Nat} {flit : List Byte} {s : State} (hup : carries (portAt s k) = true) (ht : flitType flit = 1)
    (hcrc : crcHolds 0xFFFFFF flit = true) :
    flitIn k flit s = flitReturns k (field flit 0 8) (modPort k (fun p => { p with lastBurst := s.now }) s) := by
  have hctl : ¬flitType flit = 2 := by rw [ht]; decide
  rw [flitIn_of_other (.of_carries hup) (by rw [ht]; decide) hcrc]
  simp only [otherIn, if_neg hctl, if_pos ht, if_pos hup]

theorem nakIn_of_window {k seq : Nat} {s : State} (hup : carries (portAt s k) = true)
    (h : seq = (portAt s k).txSeq ∨ (portAt s k).buf.any (fun f => f.seq = seq) = true) :
    nakIn k seq s = pumpPort k (replay k (ackFlits k ((seq + 65535) % 65536) s)) := by
  have hwindow : (decide (seq = (portAt s k).txSeq) || (portAt s k).buf.any fun f => f.seq = seq) = true := by
    simpa only [Bool.or_eq_true, decide_eq_true_eq] using h
  simp only [nakIn, hup, hwindow, Bool.and_self, if_true]

/-- REPLAY_START at the expected sequence ends the wait (10 R434). -/
theorem replayStartIn_of_expected {k : Nat} {s : State} (hup : carries (portAt s k) = true) (hseq : (portAt s k).rxExp < 2 ^ 24) :
    replayStartIn k (portAt s k).rxExp s = modPort k (fun p => { p with nak := false, rxReplayFrom := none }) s := by
  have hmod : (portAt s k).rxExp % 2 ^ 24 = (portAt s k).rxExp := Nat.mod_eq_of_lt hseq
  have hback : ((portAt s k).rxExp + 2 ^ 24 - (portAt s k).rxExp) % 2 ^ 24 < 2 ^ 23 := by
    rw [Nat.add_sub_cancel_left]; decide
  unfold replayStartIn
  rw [if_pos hup]
  refine modPort_congr ?_
  simp only [hmod, if_pos hback, if_true]

theorem creditIn_of_carries {k : Nat} {counts : List Nat} {s : State} (hup : carries (portAt s k) = true) :
    creditIn k counts s = pumpPort k (((List.range 12).zip counts).foldl (fun s x =>
      if carries (portAt s k) then creditBack k x.1 (x.2 % 65536) s else s) s) := if_pos hup

theorem lpiEnterIn_of_active {k : Nat} {s : State} (hst : (portAt s k).st = .active) :
    lpiEnterIn k s = modPort k (fun p => { p with lpiPeer := true, lastBurst := s.now }) s := if_pos hst

/-- The keepalive burst carries the acknowledgement and a count (10 R408, R440). -/
theorem burst_eq {k h : Nat} {s : State} {q : LnkPort}
    (hw : headerWith (portAt s k) 1 (slotInfo []) (!(portAt s k).nak) (some ((crdDue (portAt s k)).getD (portAt s k).crdNext)) = (h, q)) :
    burst k s = lineFlit k false (flitBytes 0xFFFFFF h []) (modPort k (fun _ => { q with frameAt := 0 }) s) := by
  unfold burst
  simp only [hw]

/-- Settles O38: each flit is read by its type, its CRC and its message, and each timer by the port's state. -/
theorem linkFlitsComplete : Obligations.LinkFlitsComplete := by
  unfold Obligations.LinkFlitsComplete
  intro port t s s0 p hs hp hup
  have hup0 : carries (portAt s0 port) = true := hp ▸ hup
  refine ⟨?payload, ?idle, ?ack, ?credit, ?control, ?replay, ?lowPower⟩
  case payload =>
    intro flit e s1 s2 q hs1 hq hupq htype hnak
    have hin : flitIn port flit (applyAll e s) = payloadIn port flit s1 := by rw [← hs1]; exact if_pos htype
    exact ⟨fun hfrom hcrc hs2 hup2 =>
        congrArg Host.Outcome.next (hin.trans (payloadIn_of_sequence hq hupq hnak hfrom hcrc hs2 hup2)),
      fun hcrc => congrArg Host.Outcome.next (hin.trans (payloadIn_of_bad_crc hq hupq hnak hcrc))⟩
  case idle =>
    intro flit htype hcrc
    refine congrArg Host.Outcome.next ?_
    rw [← hs, flitIn_of_idle hup0 htype hcrc]
  case ack =>
    intro hdue
    subst hs hp
    exact next_of_both hup hdue
  case credit =>
    intro hawake
    subst hs hp
    exact next_of_both hup (by rw [hawake]; rfl)
  case control =>
    intro flit c s1 q htype hcrc hc hs1 hq hupq
    subst hq
    have hin : flitIn port flit (atTime t s) = ctlIn port c s1 := by
      rw [← hs, flitIn_ctl_of_carries hup0 htype hcrc hc, ← hs1]
    refine ⟨?nak, ?start, ?counts, ?exit, ?enter⟩
    case nak =>
      rintro seq rfl hwindow
      exact congrArg Host.Outcome.next (hin.trans (nakIn_of_window hupq hwindow))
    case start =>
      rintro rfl hseq
      exact congrArg Host.Outcome.next (hin.trans (replayStartIn_of_expected hupq hseq))
    case counts =>
      rintro counts rfl
      exact congrArg Host.Outcome.next (hin.trans (creditIn_of_carries hupq))
    case exit =>
      rintro rfl
      exact congrArg Host.Outcome.next hin
    case enter =>
      rintro rfl hst
      exact congrArg Host.Outcome.next (hin.trans (lpiEnterIn_of_active hst))
  case replay =>
    intro hbuf hdue
    have hkept : p.buf.isEmpty = false := List.isEmpty_eq_false_iff.2 hbuf
    subst hs hp
    exact next_of_both (by rw [hup, hkept]; rfl) (decide_eq_true hdue)
  case lowPower =>
    intro hst
    subst hs hp
    exact ⟨fun h q hlpi hw => (next_of_both (decide_eq_true hst) hlpi).trans (congrArg Host.Outcome.next (burst_eq hw)),
      fun hpeer hdue => next_of_both (by rw [hpeer, hst]; rfl) (decide_eq_true hdue)⟩

end Sys2Proof.Machine
end


section
/-! O4 and O5. The invariant: it holds before power is first applied, and every step keeps it (15 R624, R626; 01_architecture R31). -/

namespace Sys2Proof.Machine

/-- Settles O4: pool memory, the fault queue and the retention memory are empty, and the stack positions are listed one by one. -/
theorem resetMeetsTheInvariant : Obligations.ResetMeetsTheInvariant := by
  unfold Obligations.ResetMeetsTheInvariant
  exact ⟨rfl, Nat.zero_le _, Nat.zero_le _, rfl⟩

/-- The queue of commands is no part of the invariant. -/
theorem Inv.pending {s : State} (h : Inv s) (l : List Instr) : Inv { s with pending := l } :=
  ⟨h.memory, h.cairn, h.retained, h.positions⟩

/-- Settles O5: an idle step keeps the invariant, and so does every command, whatever the queue's rest. -/
theorem stepsKeepTheInvariant : Obligations.StepsKeepTheInvariant := by
  unfold Obligations.StepsKeepTheInvariant
  intro s t h hinv
  unfold step at h
  split at h
  · cases h
    exact (idleTick_keeps s).inv hinv
  · next c rest _ => exact (exec_keeps c _ t h).inv (hinv.pending rest)

end Sys2Proof.Machine
end

section
/-! SUPPORT, O57 and O39. Packets that leave the ingress side of a port: delivery to the end-to-end layer and forwarding
(11_fabric_routing R447 to R452, R464, R465, R470, R482, R486). -/

namespace Sys2Proof.Machine

/-- A packet that its port's flits have brought goes to the end-to-end layer where it is the module's, and to forwarding otherwise
(11 R447). -/
theorem arrive_of_ingress {k tc : Nat} {p q : Pkt} {a : InPkt} {s s1 s2 : State} (hawake : s.boot.st ≠ .bivouac)
    (hheld : s.e2e.bivHeld = []) (hreach : reachable s = true) (hin : takeIngress k p.tc s = (s1, some a))
    (hq : q = arrived a.bytes p) (htc : tc = if a.demoted then 2 else a.tc) (hs2 : s2 = critRead 0x19 s1) :
    arrive k p s = if q.dst = s2.glb.node then localPacket (withClass tc q) s2 else transit k tc a.bytes q s2 := by
  subst hq htc hs2
  simp only [arrive, if_neg hawake, hheld, List.isEmpty_nil, if_true, arriveNow, hreach, Bool.not_true, Bool.false_eq_true,
    if_false, hin, arriveNow.go]

/-- Settles O57: each of the four commands brings its packet to the ingress side of its port. -/
theorem packetsAreLocalOrForwarded : Obligations.PacketsAreLocalOrForwarded := by
  unfold Obligations.PacketsAreLocalOrForwarded
  intro port p q a i s s0 s1 s2 tc hi hawake hheld hreach hin hq htc hs2
  have harrive := arrive_of_ingress hawake hheld hreach hin hq htc hs2
  obtain ⟨e, rfl, rfl | rfl⟩ | ⟨t, rfl, rfl | rfl⟩ := hi
  all_goals exact congrArg Host.Outcome.next harrive

/-! Forwarding (11 R448 to R451) -/

theorem transit_of_spent {k tc : Nat} {raw : List Byte} {p : Pkt} {s : State} (h : min 12 p.hops = 0) :
    transit k tc raw p s = setRte (fun r => { r with hopsDrop := satAdd 16 r.hopsDrop 1 }) s := if_pos h

section
variable {k tc : Nat} {raw : List Byte} {p : Pkt} {s s1 : State} {set : BitVec 64}
  (hhops : min 12 p.hops ≠ 0) (hset : set = liveSet s p.epoch (groupOf p.dst) &&& ~~~(1#64 <<< k))
include hhops hset

theorem transit_of_noroute (hport : choosePort tc (1 + p.pslots) none set s = (s1, none)) :
    transit k tc raw p s = setRte (fun r => { r with noroute := satAdd 16 r.noroute 1 }) s1 := by
  subst hset
  simp only [transit, if_neg hhops, hport]

theorem transit_of_port {j : Nat} (hport : choosePort tc (1 + p.pslots) none set s = (s1, some j)) :
    transit k tc raw p s = enqueue j
      { rank := if tc = 4 then 3 else if tc ≤ 1 then 2 else 4, queue := nth 0 s1.img.svcQueue 0, tc := tc, slots := 1 + p.pslots
        transit := some k, arrived := s1.now, raw := forwarded (min 12 p.hops - 1) raw
        pkt := some { p with hops := min 12 p.hops - 1 } } s1 := by
  subst hset
  simp only [transit, if_neg hhops, hport]

end

/-! Delivery (11 R464, R465, R470; 14 R571, R575) -/

/-- A packet of a source that is not blocked, under the module's incarnation and under that of the state held of its source, is judged
under that state; a request or an event needs a live port to its source (02 R60, R61). -/
theorem localPacket_of_known {p : Pkt} {s : State} {h : Peer} (hblock : isBlocked s p.src = false) (hinc : p.incV = true)
    (hdst : p.dstInc = incarnation s)
    (hlive : (isEvent p.body || isRequest p.body) = true → liveSet (critRead 0x00 s) s.rte.sel (groupOf p.src) ≠ 0)
    (hpeer : peerOf s p.src false = some h) (hok : h.incOk = true) (hsrc : h.inc = p.srcInc) :
    localPacket p s = underState false p s := by
  have hunreached : ¬((liveSet (critRead 0x00 s) s.rte.sel (groupOf p.src) = 0 && (isEvent p.body || isRequest p.body)) = true) := by
    simp only [Bool.and_eq_true, decide_eq_true_eq, not_and]
    exact fun hzero hbody => hlive hbody hzero
  simp only [localPacket, hblock, hinc, hdst, ne_eq, not_true_eq_false, decide_false, Bool.and_false, Bool.not_true, Bool.false_and,
    Bool.or_self, Bool.false_eq_true, if_false, if_neg hunreached, incarnationTest, hpeer, hok, hsrc, if_true]

/-- A packet whose seal passes under a held state goes to the sequence rules of its space (11 R468). -/
theorem underState_of_sealed {p : Pkt} {s s1 : State} (hbody : ∀ k, p.body ≠ .ack k) (hseal : sealCheck s false p = .pass)
    (hs1 : s1 = if hasSession s p.src then modSec p.src (fun x => { x with last := s.now }) s else s)
    (hpeer : (peerOf s1 p.src false).isSome = true) : underState false p s = sequenced false p s1 := by
  subst hs1
  unfold underState
  split
  · next a ha => exact absurd ha (hbody a)
  · simp only [hseal, Bool.not_false, Bool.true_and, if_pos hpeer]

/-- An E2E_ACK that is neither STALE nor RESYNC acknowledges: SACK first, then the cumulative part (11 R470). -/
theorem underState_of_ack {p : Pkt} {s s1 : State} {k : AckArea} (hbody : p.body = .ack k) (hstale : k.stale = false)
    (hresync : k.resync = false) (hs1 : s1 = modPeer p.src false (fun x => { x with last := s.now }) s) :
    underState false p s = ackIn p.src false p.space p.ack p.ece (sackIn p.src false p.space p.ack k.sack s1) := by
  subst hs1
  simp only [underState, hbody, ackPacket, hstale, hresync, Bool.false_eq_true, if_false]

/-- Settles O39: the ingress lemma brings each packet to forwarding or to the end-to-end layer, whose lemmas say where it goes. -/
theorem packetsComplete : Obligations.PacketsComplete := by
  unfold Obligations.PacketsComplete
  refine ⟨⟨?forward, ?age⟩, ?deliver⟩
  case forward =>
    rintro port p0 p a e s s0 s1 s2 tc set rfl hawake hheld hreach hin htc hp hs2 hdst hset
    have hforward : exec (.transitForward port p0 e) s = .next (transit port tc a.bytes p s2) :=
      congrArg Host.Outcome.next ((arrive_of_ingress hawake hheld hreach hin hp htc hs2).trans (if_neg hdst))
    refine ⟨fun hspent => ?_, fun s3 hhops hport => ?_, fun s3 j hhops hport => ?_⟩
    · rw [hforward, transit_of_spent hspent]
    · rw [hforward, transit_of_noroute hhops hset hport]
    · rw [hforward, transit_of_port hhops hset hport]
  case age =>
    rintro i t k s s0 x rfl hx hold
    refine congrArg Host.Outcome.next ?_
    simp only [hx, if_pos hold]
  case deliver =>
    intro port p p0 q a s s0 s1 s2 h hawake hheld hreach hin hp0 hq hs2 hdst hblock hincV hinc hpeer hok hsrc
    have harrive : arrive port p s0 = localPacket q s2 := by
      rw [arrive_of_ingress hawake hheld hreach hin hp0 rfl hs2, if_pos hdst, hq]
    have hknown := fun hlive => harrive.trans (localPacket_of_known hblock hincV hinc hlive hpeer hok hsrc)
    refine ⟨?e2e, ?stream, ?ack⟩
    case e2e =>
      rintro e rfl hlive hbody hseal s3 hs3 hheld3
      exact congrArg Host.Outcome.next ((hknown hlive).trans (underState_of_sealed hbody hseal hs3 hheld3))
    case stream =>
      rintro t x rfl hbody hseal s3 hs3 hheld3
      have hlive := hknown (by simp [hbody, isEvent, isRequest])
      exact congrArg Host.Outcome.next (hlive.trans (underState_of_sealed (by simp [hbody]) hseal hs3 hheld3))
    case ack =>
      rintro t k s3 rfl hbody hstale hresync hs3
      have hlive := hknown (by simp [hbody, isEvent, isRequest])
      exact congrArg Host.Outcome.next (hlive.trans (underState_of_ack hbody hstale hresync hs3))

end Sys2Proof.Machine
end

section
/-! SUPPORT and O40. End-to-end timers, eviction and the routing epoch (11_fabric_routing R457, R458, R462, R471 to R474). -/

namespace Sys2Proof.Machine

theorem deliverN_of_noPeer {node n : Nat} {prov space : Bool} {s : State} (h : peerOf s node prov = none) :
    deliverN node prov space n s = s := by
  cases n with
  | zero => rfl
  | succ n => simp only [deliverN, h]

theorem deliverN_of_noneHeld {node n : Nat} {prov space : Bool} {s : State} {p : Peer} (hp : peerOf s node prov = some p)
    (hheld : (spaceOf p space).held = []) : deliverN node prov space n s = s := by
  cases n with
  | zero => rfl
  | succ n => simp only [deliverN, hp, hheld, assoc]

section
variable {node t : Nat} {space : Bool} {s s0 : State} {p : Peer} (hs : s0 = atTime t s) (hreach : reachable s0 = true)
  (hp : peerOf s0 node false = some p)
include hs hreach hp

/-- What has been delivered since the last acknowledgement is acknowledged (11 R471). -/
theorem execE2eAckSend_of_delivered (hheld : (spaceOf p space).held = []) (hdlv : 0 < (spaceOf p space).dlv)
    (hprov : peerOf (sendAck node false space s0) node true = none) :
    execE2eAckSend node space t s = .next (sendAck node false space s0) := by
  subst hs
  simp only [execE2eAckSend, hreach, Bool.not_true, Bool.false_eq_true, if_false, List.foldl_cons, List.foldl_nil,
    deliverN_of_noneHeld hp hheld, hp, decide_eq_true hdlv, Bool.true_or, if_true, deliverN_of_noPeer hprov, hprov]

variable {seq : Nat} {x : SentPkt} (hx : ((spaceOf p space).sent.find? fun x => x.seq = seq) = some x)
  (hreport : x.reported = false) (hdue : x.sentAt + s0.img.rtoUs * 1000 ≤ s0.now)
include hx hreport hdue

/-- A packet that no SACK has reported is retransmitted RTO_US after it was sent, up to six times (11 R473). -/
theorem execE2eRetransmitTimeout_of_few (hcount : x.count < 6) (hprov : peerOf (retransmit p space x s0) node true = none) :
    execE2eRetransmitTimeout node space seq t s = .next (retransmit p space x s0) := by
  subst hs
  simp only [execE2eRetransmitTimeout, hreach, Bool.not_true, Bool.false_eq_true, if_false, List.foldl_cons, List.foldl_nil,
    hp, hx, hreport, decide_eq_false (Nat.not_lt.2 hdue), Bool.or_self, if_pos hcount, hprov]

/-- After the sixth the peer is lost (11 R474). -/
theorem execE2eRetransmitTimeout_of_limit (hcount : 6 ≤ x.count) (hprov : peerOf (peerLost node s0) node true = none) :
    execE2eRetransmitTimeout node space seq t s = .next (peerLost node s0) := by
  subst hs
  simp only [execE2eRetransmitTimeout, hreach, Bool.not_true, Bool.false_eq_true, if_false, List.foldl_cons, List.foldl_nil,
    hp, hx, hreport, decide_eq_false (Nat.not_lt.2 hdue), Bool.or_self, if_neg (Nat.not_lt.2 hcount), limitReached, hprov]

end

theorem flip_of_settled {s s1 : State} (hs1 : s1 = critRead 0x00 s) (h : s1.rte.draining = false) :
    flip s = critWrite 0x00 (setRte (fun r => { r with
      sel := !r.sel, draining := true, flipAt := s1.now, flips := wrapAdd 16 r.flips 1 }) s1) := by
  subst hs1
  exact if_neg (Bool.eq_false_iff.1 h)

/-- A write of the inactive copy sets the group's ports of those that are mapped (11 R457). -/
theorem grpSetWrite_of_inactive {copy : Bool} {g : Nat} {v : BitVec 64} {s s1 : State} (hs1 : s1 = critRead 0x00 s)
    (h : s1.rte.draining = false) (hcopy : copy ≠ s1.rte.sel) :
    grpSetWrite copy g v s = setRte (fun r =>
      if copy then { r with copy1 := setNthD 0 g (v &&& mappedMask s1.img.ports) r.copy1 }
      else { r with copy0 := setNthD 0 g (v &&& mappedMask s1.img.ports) r.copy0 }) s1 := by
  subst hs1
  exact if_neg (by simp [h, hcopy])

/-- Settles O40: each timer by the lemma of its branch, and management's commands on their session. -/
theorem endToEndTimersComplete : Obligations.EndToEndTimersComplete := by
  unfold Obligations.EndToEndTimersComplete
  refine ⟨fun node seq t space s s0 p hs hreach hp => ⟨?ack, fun x hx hreport hdue => ⟨?retransmit, ?lost⟩⟩, ?evict, ?drained, ?epoch⟩
  case ack => exact execE2eAckSend_of_delivered hs hreach hp
  case retransmit => exact execE2eRetransmitTimeout_of_few hs hreach hp hx hreport hdue
  case lost => exact execE2eRetransmitTimeout_of_limit hs hreach hp hx hreport hdue
  case evict =>
    rintro node t s s0 p rfl hpeers hidle
    refine congrArg Host.Outcome.next ?_
    simp only [hpeers, List.foldl_cons, List.foldl_nil, if_pos hidle]
  case drained =>
    rintro t s s0 rfl hdrain hdue
    exact next_of_both hdrain (decide_eq_true hdue)
  case epoch =>
    intro sess t s s0 s1 x hserved hmay hs1 hsettled
    refine ⟨congrArg Host.Outcome.next ?_, fun v copy g hc hg hcopy => congrArg Host.Outcome.next ?_⟩
    · rw [withWrite_served hserved hmay, flip_of_settled hs1 hsettled]
    · refine (withWrite_served hserved hmay).trans (congrArg (mgmtReply sess .ok []) ?_)
      rw [← grpSetWrite_of_inactive hs1 hsettled hcopy, hg, hc]

end Sys2Proof.Machine
end

section
/-! SUPPORT, O13, O58 and O59. Registers that management reads: the event registers, which a read clears, CRN_HEAD and SEC_PEER_STATE;
CRN_POP and SEC_CMD (14_security_and_isolation R594; 15_control_belay_faults R625; 17_register_map R656, R661). -/

namespace Sys2Proof.Machine

section
variable {sess t : Nat} {s s0 s1 : State} {x : Sess} (hserved : served sess t s = some (x, s0))
include hserved

/-- The command that reads one register on a session answers its value, after the read's own effect (17 R656). -/
theorem exec_of_mgmtRead_one {i : Instr} {a : Nat} {v : BitVec 64}
    (hi : exec i s = .next (withSess sess t .read (mgmtRead sess a 1) s)) (h : readReg (.mgmt sess) a s0 = (s1, v)) :
    exec i s = .next (mgmtReply sess .ok [v] s1) := by
  rw [hi, withSess_served hserved rfl, mgmtRead_one, h]

/-- So does REG_READ of one register. -/
theorem exec_regRead_one {a : Nat} {v : BitVec 64} (ha : inWindow a 1 = true) (h : readReg (.mgmt sess) a s0 = (s1, v)) :
    exec (.regRead sess a 1 t) s = .next (mgmtReply sess .ok [v] s1) := by
  refine congrArg Host.Outcome.next ((withSess_served hserved rfl).trans ?_)
  rw [show clampTo 1 64 1 = 1 from rfl, if_pos ha, mgmtRead_one, h]

end

/-- A read that clears counts and answers their value where a unit is there, and that answers 0 where it is not. -/
theorem read_of_unit {b : Bool} {s t : State} {n : Nat} (h : b = true) :
    ((if b then t else s), w64 (if !b then 0 else n)) = (t, w64 n) := by
  rw [h]; rfl

/-- Settles O13: each register's address picks its branch of what a read clears and of what it reads, by computation; of a unit that the
variant may lack, and of a stack that may not serve, the test decides both. -/
theorem eventReadsClear : Obligations.EventReadsClear := by
  unfold Obligations.EventReadsClear
  rintro sess t0 k d s s0 x ok hserved rfl rfl rfl
  refine ⟨?denied, ?unreach, ?revoke, fun h => ?anchors, ?coherence, ?verbs, fun h => ?engines, fun h => ?arithmetic, fun h => ?weights,
    ?kv, ?link, ?route, ?e2e, ?drop, ?qos, fun h => ?dram⟩
  case anchors | engines | arithmetic | weights | dram => exact exec_of_mgmtRead_one hserved rfl (read_of_unit h)
  all_goals exact exec_of_mgmtRead_one hserved rfl rfl

/-! Cairn's oldest record (15 R625) -/

/-- CRN_HEAD k is a register of Cairn, and a read of it changes nothing. -/
theorem readReg_crnHead (q : Requester) (k : Fin 8) (s : State) :
    readReg q (regAt 0x13 (0x40 + 8 * k)) s = (s, w64 (readCrn s (0x40 + 8 * k))) := by
  fin_cases k <;> rfl

/-- CRN_HEAD k shows word k of the oldest record, or 0. -/
theorem readCrn_head (k : Fin 8) (s : State) : readCrn s (0x40 + 8 * k) =
    (s.crn.q.head?.map fun r => digestWord (cairnBytes r) k).getD 0 := by
  have hmerge : (decide (0x20 ≤ 0x40 + 8 * k.val) && decide (0x40 + 8 * k.val ≤ 0x38)) = false := by
    simp; omega
  have hhead : (decide (0x40 ≤ 0x40 + 8 * k.val) && decide (0x40 + 8 * k.val ≤ 0x78)) = true := by
    simp; omega
  have hword : (0x40 + 8 * k.val - 0x40) / 8 = k.val := by omega
  simp only [readCrn, hmerge, hhead, hword, Bool.false_eq_true, if_false, if_true]
  cases s.crn.q <;> rfl

/-- Settles O58: the session reads Cairn's register; CRN_POP compares the SEQ with the oldest record's. -/
theorem theOldestRecordIsPopped : Obligations.TheOldestRecordIsPopped := by
  unfold Obligations.TheOldestRecordIsPopped
  refine ⟨fun sess t k s s0 x hserved => ?read, fun sess t seq s s0 x hserved hmay => ?pop⟩
  case read =>
    have hwindow : inWindow (regAt 0x13 (0x40 + 8 * k)) 1 = true := by fin_cases k <;> rfl
    rw [exec_regRead_one hserved hwindow (readReg_crnHead _ k s0), readCrn_head]
    cases s0.crn.q <;> rfl
  case pop =>
    have hpop : exec (.crnPop sess seq t) s = .next (mgmtReply sess .ok [] (crnPop seq s0)) :=
      congrArg Host.Outcome.next (withWrite_served hserved hmay)
    refine ⟨fun r l hq hseq => ?_, fun hother => ?_⟩
    · rw [hpop]
      simp only [crnPop, hq, if_pos hseq]
      rfl
    · rw [hpop]
      cases hq : s0.crn.q with
      | nil => simp only [crnPop, hq]
      | cons r l => simp only [crnPop, hq, if_neg (hother r l hq)]

/-! Blocks (14 R574, R594) -/

theorem bit_toNat (v : BitVec 64) (i : Nat) : bit v.toNat i = v.getLsbD i := by
  rw [bit, BitVec.getLsbD, Nat.testBit_eq_decide_div_mod_eq]
  rfl

/-- SEC_CMD with BLOCK and UNBLOCK set has no effect (14 R594). -/
theorem writeReg_secCmd_both {sess v : Nat} (s : State) (hblock : bit v 0 = true) (hunblock : bit v 1 = true) :
    writeReg (.mgmt sess) 0 (regAt 0x14 0x18) v s = s := by
  have hcmd : writeReg (.mgmt sess) 0 (regAt 0x14 0x18) v s = if bit v 0 && bit v 1 then s
      else if bit v 0 then blockPeer ((selsOf s (.mgmt sess)).sec % 2 ^ 20) .blockedMgmt s
      else if bit v 1 then unblockPeer ((selsOf s (.mgmt sess)).sec % 2 ^ 20) s else s := rfl
  rw [hcmd, if_pos (by rw [hblock, hunblock]; rfl)]

/-- SEC_PEER_STATE reads the state held of the selected node, and a read of it changes nothing. -/
theorem readReg_secPeerState (q : Requester) (s : State) : readReg q (regAt 0x14 0x10) s =
    (s, w64 (((secOf s ((selsOf s q).sec % 2 ^ 20)).map peerState).getD 0)) := by
  have hread : readReg q (regAt 0x14 0x10) s =
      (s, w64 (match secOf s ((selsOf s q).sec % 2 ^ 20) with | some p => peerState p | none => 0)) := rfl
  rw [hread]
  cases secOf s ((selsOf s q).sec % 2 ^ 20) <;> rfl

theorem peerState_of_nothing {p : SecPeer} (hst : p.st = .none) (hfails : p.fails = 0) : peerState p = 0 :=
  if_pos (by rw [hst, hfails]; rfl)

/-- Settles O59: a blocked node and a write of both bits change nothing, and a node of which nothing is held shows 0. -/
theorem blocksOfANode : Obligations.BlocksOfANode := by
  unfold Obligations.BlocksOfANode
  refine ⟨?both, ?again, ?state⟩
  case both =>
    intro sess v e s s0 x hserved hmay hblock hunblock
    refine congrArg Host.Outcome.next ((withWrite_served hserved hmay).trans ?_)
    rw [if_pos (by decide), writeReg_secCmd_both s0 (by rw [bit_toNat, hblock]) (by rw [bit_toNat, hunblock])]
  case again =>
    intro sess node t s s0 x hserved hmay hblocked
    refine congrArg Host.Outcome.next ((withWrite_served hserved hmay).trans ?_)
    rw [blockPeer, if_pos hblocked]
  case state =>
    intro sess t s s0 x hserved hnothing
    have hzero : ((secOf s0 ((selsOf s0 (.mgmt sess)).sec % 2 ^ 20)).map peerState).getD 0 = 0 := by
      cases hp : secOf s0 ((selsOf s0 (.mgmt sess)).sec % 2 ^ 20) with
      | none => rfl
      | some p =>
        obtain ⟨hst, hfails⟩ := hnothing p hp
        exact peerState_of_nothing hst hfails
    rw [exec_regRead_one hserved (by decide) (readReg_secPeerState _ s0), hzero]
    rfl

end Sys2Proof.Machine
end

section
/-! SUPPORT and O42. Shapers, budgets and the DRAM schedulers (12_service_and_dram R499 to R515; 13_memory_integrity R528). -/

namespace Sys2Proof.Machine

theorem writeShp_of_enabled {tid v : Nat} {s : State} {y : TenantCfg} (hy : tenantOf s tid = some y) (hen : y.enabled = true)
    (hpart : isPart s tid = false) : writeShp tid v s = setQos (fun q => { q with
      shp := q.shp.filter (fun z => z.tid ≠ tid) ++ [{ tid := tid, now := shpOf s tid, next := shpClamped (imgShp s tid) v }] }) s := by
  simp only [writeShp, hy, hen, hpart, Bool.not_false, Bool.and_self, if_true]

/-- A stack unused for 50 us, with no pass running and no engine busy, enters self-refresh (12 R513). -/
theorem selfRefresh_of_idle {k : Nat} {s : State} (hserves : stackServes s k = true) (hself : (stackAt s k).selfRef = false)
    (hidle : (stackAt s k).lastUse + 50000 ≤ s.now) (heng : enginesBusy s k = false) (hpass : passRuns s = false) :
    selfRefresh k s = modStack k (fun x => { drained x with selfRef := true, srEntries := satAdd 16 x.srEntries 1 }) s := by
  simp only [selfRefresh, hserves, hself, decide_eq_true hidle, heng, hpass, Bool.not_false, Bool.and_self, if_true]

section
variable {k ch : Nat} {s s1 : State} (hserves : stackServes s k = true)
  (hdue : assoc ch (stackAt s k).lastTrain = none ∨ ∃ u, assoc ch (stackAt s k).lastTrain = some u ∧ u + 100000000 ≤ s.now)
  (hs1 : s1 = modStack k (fun x => { x with trainCh := some ch, lastTrain := setAssoc ch s.now x.lastTrain }) s)
include hserves hdue hs1

/-- A channel not trained within 100 ms is trained: a pass clears its failure, a second failure in a row fails the stack (12 R512; 13
R528). -/
theorem retrainChannel_of_due (pass : Bool) : retrainChannel k ch pass s =
    if pass then modStack k (fun x => { x with chFails := x.chFails.filter fun y => y.1 ≠ ch }) s1
    else if 1 ≤ assocD 0 ch (stackAt s k).chFails then stackFail k 4 s1
    else modStack k (fun x => { x with chFails := setAssoc ch 1 x.chFails }) s1 := by
  subst hs1
  obtain hnone | ⟨u, hu, hpast⟩ := hdue
  · simp only [retrainChannel, hserves, hnone, Bool.and_self, if_true]
  · simp only [retrainChannel, hserves, hu, decide_eq_true hpast, Bool.and_self, if_true]

end

/-- Settles O42: each timer and each write by the branch that the state leads to. -/
theorem serviceCompletes : Obligations.ServiceCompletes := by
  unfold Obligations.ServiceCompletes
  refine ⟨?shaper, ?shp, fun t s => rfl, ?release, ?stack, ?retrain⟩
  case shaper =>
    rintro t s s0 s1 rfl rfl
    rfl
  case shp =>
    rintro sess t tid v s s0 x y hserved hmay rfl hy hen hpart
    refine congrArg Host.Outcome.next ((withWrite_served hserved hmay).trans ?_)
    rw [writeShp_of_enabled hy hen hpart]
  case release =>
    rintro t s s0 rfl
    rfl
  case stack =>
    rintro stk t s s0 rfl hserves
    exact ⟨congrArg Host.Outcome.next (if_pos hserves), fun pch bank => congrArg Host.Outcome.next (if_pos hserves),
      fun hself hidle heng hpass => congrArg Host.Outcome.next (selfRefresh_of_idle hserves hself hidle heng hpass)⟩
  case retrain =>
    intro stk ch e s s0 s1 hs0 hserves hdue hs1
    have htrain : ∀ pass, exec (.channelRetraining stk ch pass e) s = .next (retrainChannel stk ch pass s0) :=
      fun pass => by rw [hs0]; rfl
    refine ⟨?_, fun hfirst => ?_, fun hagain => ?_⟩
    all_goals rw [htrain, retrainChannel_of_due hserves hdue hs1]
    · rfl
    · rw [hfirst]; rfl
    · rw [if_neg Bool.false_ne_true, if_pos hagain]

end Sys2Proof.Machine
end

section
/-! SUPPORT and O43. Page retirement and scrub passes (13_memory_integrity R537 to R545). -/

namespace Sys2Proof.Machine

section
variable {sess k page : Nat} {s : State} (hserves : stackServes s k = true) (hpage : page < spareBase)
  (hidle : ((stackAt s k).remapping.any fun r => r.1 = page) = false)
include hserves hpage hidle

/-- A page whose copy does not run takes the next spare, and its copy begins (13 R537, R539). -/
theorem memRetire_of_spare (hleft : (stackAt s k).spareUsed < 256) : memRetire sess k page s =
    mgmtReply sess .ok [] (modStack k (fun y => { y with
      spareUsed := y.spareUsed + 1, remapping := y.remapping ++ [(page, spareBase + y.spareUsed, 0)] }) s) := by
  simp only [memRetire, hserves, decide_eq_false (Nat.not_le.2 hpage), hidle, if_neg (Nat.not_le.2 hleft), Bool.not_true,
    Bool.or_self, Bool.false_eq_true, if_false]

/-- With every spare used the flag is set (13 R538). -/
theorem memRetire_of_full (hfull : 256 ≤ (stackAt s k).spareUsed) : memRetire sess k page s =
    mgmtReply sess .refused [] (modStack k (fun y => { y with
      flags := y.flags ||| 8#5, flagsAt := setNow s.now y.flagsAt 8#5 }) s) := by
  simp only [memRetire, hserves, decide_eq_false (Nat.not_le.2 hpage), hidle, if_pos hfull, Bool.not_true,
    Bool.or_self, Bool.false_eq_true, if_false]

end

/-- The copy of a page reads and rewrites its lines that hold errors, and its entry becomes active (13 R539). -/
theorem remapDone_of_copy {k page spare n first : Nat} {s s1 : State}
    (hrun : ((stackAt s k).remapping.find? fun r => r.1 = page) = some (page, spare, n))
    (hfirst : first = (k * 2 ^ 36 + page * 2 ^ 16) / 128)
    (hs1 : s1 = ((s.ecc.errs.map Prod.fst).filter fun l => decide (first ≤ l) && decide (l < first + 512)).foldl remapLine s) :
    remapDone k page s = modStack k (fun x => if x.st = .failed then x else { x with
      remapping := x.remapping.filter fun r => r.1 ≠ page, remap := setAssoc page spare x.remap }) s1 := by
  subst hfirst hs1
  simp only [remapDone, hrun]

/-! Passes -/

/-- How a write of the TRV registers comes to the state it is served in, and what answers it: of an operator's session, which is answered
OK, or of a tenant page while requests are served (14 R585; 17 R657). -/
def TrvServed (q : Requester) (e : Env) (s s0 : State) (wrap : State → State) : Prop :=
  (∃ sess x, q = .mgmt sess ∧ served sess e.t (applyEnv e s) = some (x, s0) ∧ mayRun x .operator = true ∧
    wrap = mgmtReply sess .ok []) ∨
  (∃ tid, q = .page tid ∧ reachable (applyEnv e s) = true ∧ s0 = atTime e.t (applyEnv e s) ∧ wrap = id)

theorem byRequester_of_trvServed {q : Requester} {e : Env} {s s0 : State} {wrap : State → State} (h : TrvServed q e s s0 wrap)
    (f : State → State) : byRequester q e.t f (applyEnv e s) = wrap (f s0) := by
  obtain ⟨sess, x, rfl, hserved, hmay, rfl⟩ | ⟨tid, rfl, hreach, rfl, rfl⟩ := h
  · exact byRequester_of_served hserved hmay
  · exact byRequester_of_reachable hreach

section
variable {tid node addr len : Nat} {s : State} {p : TrvPage} (hp : p = trvPage s tid) (hst : p.st ≠ .running)
  (hroom : countIf (fun q => q.st == .running) s.trv.pages < 8) (haddr : addr = p.addr.toNat / 128 * 128)
  (hlen : len = ceilDiv p.len 128 * 128)
include hp hst hroom haddr hlen

/-- Management's pass over each stack of its mask goes at most to the end of a stack (13 R541). -/
theorem trvStart_of_mgmt (htid : tid = 0xFFFF) : trvStart tid node s = trvBegin 0xFFFF addr (min len (2 ^ 36 - addr))
    (min len (2 ^ 36 - addr) / 128 * (passStacks s { p with pTgt := p.tgt }).length) s := by
  subst haddr hlen hp
  simp only [trvStart, decide_eq_false hst, decide_eq_false (Nat.not_le.2 hroom), Bool.or_self, Bool.false_eq_true, if_false,
    if_pos htid]
  rw [htid]

/-- A tenant's pass begins where its range passes the checks; otherwise the check's status is the result (13 R541). -/
theorem trvStart_of_page (htid : tid ≠ 0xFFFF) : trvStart tid node s =
    if trvCheck s tid node (p.tgt.toNat % 2 ^ 24) addr len = .ok then trvBegin tid addr len (len / 128) s
    else trvRefuse tid (trvCheck s tid node (p.tgt.toNat % 2 ^ 24) addr len) s := by
  subst haddr hlen hp
  simp only [trvStart, decide_eq_false hst, decide_eq_false (Nat.not_le.2 hroom), Bool.or_self, Bool.false_eq_true, if_false,
    if_neg htid]
  split
  · next hok => rw [if_pos hok]
  · next hbad => rw [if_neg hbad]

end

theorem trvStop_of_running {tid result : Nat} {s : State} {p : TrvPage} (hp : p = trvPage s tid) (hst : p.st = .running) :
    trvStop tid result s =
      trvEnd tid result (passRead tid (Config.freeNat (takeFree 1 s).2 % (p.pLen / 128 + 1)) (takeFree 1 s).1) := by
  subst hp
  exact if_pos hst

/-- A pass that has read every line of its range ends with result 3 where a stack of it has been lost, else 0 (13 R544). -/
theorem trvFinish_of_running {tid : Nat} {s : State} {p : TrvPage} (hp : p = trvPage s tid) (hst : p.st = .running) :
    trvFinish tid s = trvEnd tid (if p.stackLost || (p.tid ≠ 0xFFFF && match passRegion s p with
      | some (_, g, o) => ((List.range g.exts.length).zip g.exts).any fun i => i.2.lost && decide (0 < bytesIn g i.1 o p.pLen)
      | none => false) then 3 else 0) (passRead tid (p.pLen / 128) s) := by
  subst hp
  exact if_pos hst

/-- What fails for every element of a list fails for every element of its zip. -/
theorem any_zip_of_none {α : Type} {l : List α} {is : List Nat} {f : α → Bool} {g : Nat × α → Bool} (h : l.any f = false) :
    ((is.zip l).any fun i => f i.2 && g i) = false := by
  rw [List.any_eq_false] at h ⊢
  intro i hi
  rw [Bool.eq_false_iff.2 (h i.2 (List.of_mem_zip hi).2)]
  exact Bool.false_ne_true

/-- Settles O43: the register's write is served, then the branch of its command. -/
theorem retirementAndScrubComplete : Obligations.RetirementAndScrubComplete := by
  unfold Obligations.RetirementAndScrubComplete
  refine ⟨⟨?retire, ?remap⟩, ?passes, ?done⟩
  case retire =>
    rintro sess k page pa e s s0 x hserved hmay rfl rfl hserves hpage hidle
    have hrun : exec (.memRetire sess pa e) s =
        .next (memRetire sess (pa.toNat / 2 ^ 36) (pa.toNat / 2 ^ 16 % 2 ^ 20) s0) :=
      congrArg Host.Outcome.next (withSess_served hserved hmay)
    exact ⟨fun hleft => by rw [hrun, memRetire_of_spare hserves hpage hidle hleft],
      fun hfull => by rw [hrun, memRetire_of_full hserves hpage hidle hfull]⟩
  case remap =>
    rintro stk page spare n first e s s0 s1 rfl hrun hfirst hs1
    exact congrArg Host.Outcome.next (remapDone_of_copy hrun hfirst hs1)
  case passes =>
    intro q e s s0 wrap hq
    have hserved := byRequester_of_trvServed hq
    refine ⟨fun p addr len hp hst hroom haddr hlen => ?start, fun p hp hst => ?abort⟩
    case start =>
      have hstart : exec (.trvStart q e) s = .next (wrap (trvStart (trvPageOf q) (e.pick % 2 ^ 20) s0)) :=
        congrArg Host.Outcome.next (hserved _)
      refine ⟨fun hmgmt => ?_, fun htid hok => ?_, fun st htid hcheck hbad => ?_⟩
      · rw [hstart, trvStart_of_mgmt hp hst hroom haddr hlen hmgmt]
      · rw [hstart, trvStart_of_page hp hst hroom haddr hlen htid, if_pos hok]
      · rw [hstart, trvStart_of_page hp hst hroom haddr hlen htid, hcheck, if_neg hbad]
    case abort =>
      refine (congrArg Host.Outcome.next (hserved _)).trans ?_
      rw [trvStop_of_running hp hst]
  case done =>
    rintro q e s s0 p rfl hp hst
    have hdone : exec (.traverseDone q e) s = .next (trvFinish (trvPageOf q) (applyEnv e s)) := rfl
    refine ⟨fun hlost => ?_, fun hmgmt hkept => ?_, fun x g o htid hkept hregion hexts => ?_⟩
    all_goals rw [hdone, trvFinish_of_running hp hst]
    · rw [hlost]; rfl
    · simp only [hkept, hmgmt, ne_eq, not_true_eq_false, decide_false, Bool.false_and, Bool.or_self, Bool.false_eq_true, if_false]
    · have hnone := any_zip_of_none (is := List.range g.exts.length) (g := fun i => decide (0 < bytesIn g i.1 o p.pLen)) hexts
      simp only [hkept, hregion, hnone, Bool.and_false, Bool.or_self, Bool.false_eq_true, if_false]

end Sys2Proof.Machine
end

section
/-! SUPPORT and O50. Whole lines and poison (13_memory_integrity R521 to R525): a whole line written or zeroed has no error pattern, and
a part of a poisoned line is not written. -/

namespace Sys2Proof.Machine

/-! Whole lines -/

/-- A whole line is encoded afresh, whatever pattern it had (13 R523). -/
theorem writeLine_of_whole {pa : Nat} {d : List Byte} (s : State) (hpa : pa % 128 = 0) (hd : d.length = 128) :
    writeLine pa d s = (writeQueue pa (setPat (pa / 128) [] (setMem (fun m => memWriteL m pa d) s)), .ok) :=
  if_pos (by rw [hd, hpa]; rfl)

/-- A whole line without an error pattern that holds the bytes written reads as them (13 R519). -/
theorem readLine_of_wrote {pa : Nat} {d : List Byte} {s t : State} (src : Nat) (hpa : pa % 128 = 0) (hd : d.length = 128)
    (hw : Wrote pa d s t) (hsound : linePat t (pa / 128) = []) : (readLine src pa t).2 = .data d 0 := by
  have hbase : pa / 128 * 128 = pa := Nat.div_mul_cancel (Nat.dvd_of_mod_eq_zero hpa)
  have hbytes : memReadL t.mem pa 128 = d := hd ▸ hw.memReadL_eq
  rw [readLine_sound src hsound, hbase, hbytes]

/-! Zeroing (04 R147, R176) -/

theorem memRead_memZero {m : List (Nat × BitVec 8)} {a n b : Nat} (hlo : a ≤ b) (hhi : b < a + n) :
    memRead (memZero m a n) b = 0 := by
  induction m with
  | nil => rfl
  | cons c m ih =>
    unfold memZero at ih ⊢
    rw [List.filter_cons]
    split
    · next hc =>
      have hne : c.1 ≠ b := by
        simp only [Bool.or_eq_true, decide_eq_true_eq] at hc
        omega
      simp only [memRead, if_neg hne, ih, ite_self]
    · exact ih

/-- A key that a filter drops has no value. -/
theorem assoc_filter_of_dropped {α : Type} {f : Nat × α → Bool} {k : Nat} (h : ∀ v, f (k, v) = false) (l : List (Nat × α)) :
    assoc k (l.filter f) = none := by
  induction l with
  | nil => rfl
  | cons x l ih =>
    rw [List.filter_cons]
    split
    · next hx =>
      have hne : x.1 ≠ k := fun e => Bool.false_ne_true ((h x.2).symm.trans (e ▸ hx))
      rw [assoc, if_neg hne, ih]
    · exact ih

/-- Lines that a zero-fill covers have no error pattern (13 R523). -/
theorem linePat_zeroDram {pa len l : Nat} {s : State} (hlo : pa / 128 ≤ l) (hhi : l < (pa + len) / 128) :
    linePat (zeroDram pa len s) l = [] := by
  have hdropped := assoc_filter_of_dropped
    (f := fun x : Nat × Pattern => !(decide (pa / 128 ≤ x.1) && decide (x.1 < (pa + len) / 128))) (k := l)
    (fun _ => by simp [hlo, hhi]) s.ecc.errs
  exact congrArg (fun o => Option.getD o []) hdropped

/-! Poison (13 R521, R525) -/

/-- What a change of one element leaves of an element, whichever is read. -/
theorem nth_modNth_of_kept {α β : Type} {g : α → β} {f : α → α} (h : ∀ x, g (f x) = g x) (d : α) (k j : Nat) (l : List α) :
    g (nth d (modNth k f l) j) = g (nth d l j) := by
  induction l generalizing k j with
  | nil => rw [modNth]
  | cons x l ih =>
    cases k with
    | zero => cases j with
      | zero => exact h x
      | succ j => rfl
    | succ k => cases j with
      | zero => rfl
      | succ j => exact ih k j

theorem issueBefore_erase (pch cls n : Nat) (x : Stk) : (issueBefore pch cls n x).erase = x.erase := by
  induction n generalizing x with
  | zero => rfl
  | succ n ih =>
    unfold issueBefore
    split
    · split
      · exact ih _
      · rfl
    · rfl

theorem issueRead_erase (line cls : Nat) (x : Stk) : (issueRead line cls x).erase = x.erase := issueBefore_erase ..

theorem erasedLane_modStack {f : Stk → Stk} (h : ∀ x, (f x).erase = x.erase) (j k pch : Nat) (s : State) :
    erasedLane (modStack j f s) k pch = erasedLane s k pch := congrArg (assoc pch) (nth_modNth_of_kept h ..)

/-- A column access leaves every lane as it was. -/
theorem erasedLane_readQueue (pa k pch : Nat) (s : State) : erasedLane (readQueue pa s) k pch = erasedLane s k pch := by
  have htouch : erasedLane (touchStack (paStack pa) s) k pch = erasedLane s k pch :=
    erasedLane_modStack (f := fun x => { x with selfRef := false, lastUse := s.now }) (fun _ => rfl) ..
  exact (erasedLane_modStack (f := fun x => issueRead (pa / 128) s.svc { x with rdBytes := x.rdBytes + 128 })
    (fun _ => issueRead_erase ..) ..).trans htouch

/-- A read of a line that decodes as poison answers so, and changes the stack's figures alone (13 R521). -/
theorem readLine_of_poison {pa : Nat} {s : State} (src : Nat)
    (h : decodeLine (linePat s (pa / 128)) (erasedLane s (paStack pa) (paPch pa)) = .poison) :
    readLine src pa s =
      (modStack (paStack pa) (fun x => { x with poisonReads := x.poisonReads + 1 }) (readQueue pa s), .poison) := by
  simp only [readLine, linePat_congr (readQueue_ecc pa s), erasedLane_readQueue, h]

/-- A part of a poisoned line is not written (13 R525). -/
theorem writeLine_of_poison {pa : Nat} {d : List Byte} {s : State} (hpart : ¬(d.length = 128 ∧ pa % 128 = 0))
    (hpat : linePat s (pa / 128) ≠ [])
    (h : decodeLine (linePat s (pa / 128)) (erasedLane s (paStack pa) (paPch pa)) = .poison) :
    writeLine pa d s =
      (modStack (paStack pa) (fun x => { x with poisonReads := x.poisonReads + 1 }) (readQueue pa s), .poisoned) := by
  have hwhole : ¬(decide (d.length = 128) && decide (pa % 128 = 0)) = true := by
    simpa only [Bool.and_eq_true, decide_eq_true_eq] using hpart
  have hqueued : (linePat s (pa / 128)).isEmpty = false := List.isEmpty_eq_false_iff.2 hpat
  simp only [writeLine, if_neg hwhole, hqueued, Bool.and_false, Bool.false_eq_true, if_false, readLine_of_poison 1 h]

/-- Settles O50: a whole line by its branch of the write and the bytes that then stand there, a zero-fill by what it filters out, a part of
a poisoned line by the read that it needs. -/
theorem wholeLinesClearPoison : Obligations.WholeLinesClearPoison := by
  unfold Obligations.WholeLinesClearPoison
  refine ⟨?whole, ?zero, ?part⟩
  case whole =>
    intro pa d s hwf hpa hd
    rw [writeLine_of_whole s hpa hd]
    have hsound : linePat (writeQueue pa (setPat (pa / 128) [] (setMem (fun m => memWriteL m pa d) s))) (pa / 128) = [] :=
      (linePat_setPat ..).trans (if_pos rfl)
    have hwrote : Wrote pa d s (writeQueue pa (setPat (pa / 128) [] (setMem (fun m => memWriteL m pa d) s))) :=
      Wrote.ofMem hwf (fun _ => rfl) rfl fun l hl => linePat_setPat_nil_of_sound _ hl
    exact ⟨rfl, hsound, fun src => readLine_of_wrote src hpa hd hwrote hsound⟩
  case zero =>
    intro pa len a s hpa hlen hlo hhi
    exact ⟨memRead_memZero hlo hhi, linePat_zeroDram (Nat.div_le_div_right hlo) (by omega)⟩
  case part =>
    intro pa d s hpart hpat hpoison
    rw [writeLine_of_poison hpart hpat hpoison]
    exact ⟨rfl, rfl, rfl⟩

end Sys2Proof.Machine
end

section
/-! SUPPORT and O44. Error injection, the buckets, the CE log and the event registers of ECC (13_memory_integrity R519, R533, R534, R546
to R548). -/

namespace Sys2Proof.Machine

theorem injArm_of_free {v : Nat} {s : State} (hnone : s.ecc.injArmed = none) (hfree : unitIsFree s (injStack s v) (injUnit v) = true) :
    injArm v s = injDone .ok (setEcc (fun e => { e with injArmed := some (injStack s v, injUnit v) }) s) := by
  simp only [injArm, hnone, hfree, Option.isSome_none, Bool.not_true, Bool.false_eq_true, if_false]

theorem injDisarm_of_armed {k u : Nat} {s : State} (h : s.ecc.injArmed = some (k, u)) :
    injDisarm s = injDone .ok (setEcc (fun e => { e with injArmed := none }) (zeroDram (k * 2 ^ 36 + u * unit2M) unit2M s)) := by
  simp only [injDisarm, h]

theorem onArmed_of_armed {v : Nat} {f : Nat → State → State} {s : State} (h : armedAt s (injPa s v) = true) :
    onArmed v f s = injDone .ok (f (injPa s v) s) := if_pos h

theorem onArmed_of_elsewhere {v : Nat} {f : Nat → State → State} {s : State} (h : armedAt s (injPa s v) = false) :
    onArmed v f s = injDone .denied s := if_neg (Bool.eq_false_iff.1 h)

/-- ECC_INJ_CTL keeps its clamped fields before its operation (13 R546, R547). -/
theorem injWrite_eq (v : Nat) {s s1 : State} (hs : s1 = setEcc (fun e => { e with injCtl := injBack s v }) s) :
    injWrite 1 v s = injArm v s1 ∧ injWrite 2 v s = injDisarm s1 ∧ injWrite 3 v s = onArmed v injWriteRaw s1 ∧
    injWrite 4 v s = onArmed v injWriteEnc s1 ∧ injWrite 5 v s = onArmed v injReadRaw s1 ∧
    injWrite 6 v s = onArmed v injReadDec s1 ∧ injWrite 7 v s = injFlip v s1 := by
  subst hs
  refine ⟨?_, ?_, ?_, ?_, ?_, ?_, ?_⟩ <;> simp only [injWrite, if_true, Nat.reduceEqDiff, if_false]

/-- A row of ECC_INJ_CTL of a session that may write is answered OK, whatever its operation's result (13 R546). -/
theorem exec_of_injRow {i : Instr} {op sess : Nat} {v : BitVec 64} {e : Env} {s s0 s1 : State} {x : Sess}
    (hserved : served sess e.t (applyEnv e s) = some (x, s0)) (hmay : mayRun x .operator = true)
    (hi : exec i s = .next (injRow op sess v.toNat e s)) (h : injWrite op v.toNat s0 = s1) :
    exec i s = .next (mgmtReply sess .ok [] s1) := by
  rw [hi, ← h]
  exact congrArg Host.Outcome.next (withWrite_served hserved hmay)

/-- Settles O44: each operation by its branch of the register's write; the event registers by computation. -/
theorem injectionCompletes : Obligations.InjectionCompletes := by
  unfold Obligations.InjectionCompletes
  refine ⟨?inject, ?events, ?leak, ?log⟩
  case inject =>
    intro sess v e s s0 s1 x hserved hmay hs1
    obtain ⟨harm, hdisarm, hwriteRaw, hwriteEnc, hreadRaw, hreadDec, hflip⟩ := injWrite_eq v.toNat hs1
    refine ⟨fun hnone hfree => ?arm, fun k u harmed => ?disarm, fun i f hi => ?line, ?flip⟩
    case arm => exact exec_of_injRow hserved hmay rfl (harm.trans (injArm_of_free hnone hfree))
    case disarm => exact exec_of_injRow hserved hmay rfl (hdisarm.trans (injDisarm_of_armed harmed))
    case line =>
      have hline : exec i s = .next (mgmtReply sess .ok [] (onArmed v.toNat f s1)) := by
        obtain ⟨rfl, rfl⟩ | ⟨rfl, rfl⟩ | ⟨rfl, rfl⟩ | ⟨rfl, rfl⟩ := hi
        · exact exec_of_injRow hserved hmay rfl hwriteRaw
        · exact exec_of_injRow hserved hmay rfl hwriteEnc
        · exact exec_of_injRow hserved hmay rfl hreadRaw
        · exact exec_of_injRow hserved hmay rfl hreadDec
      exact ⟨fun h => by rw [hline, onArmed_of_armed h, injDone], fun h => by rw [hline, onArmed_of_elsewhere h, injDone]⟩
    case flip => exact exec_of_injRow hserved hmay rfl hflip
  case events =>
    rintro sess t0 e s s0 x ok hserved rfl rfl
    exact ⟨exec_of_mgmtRead_one hserved rfl rfl, exec_of_mgmtRead_one hserved rfl rfl, exec_of_mgmtRead_one hserved rfl rfl⟩
  case leak =>
    rintro t s s0 rfl hrule
    exact congrArg Host.Outcome.next (if_pos hrule)
  case log =>
    intro sess t v s s0 x hserved hmay
    exact ⟨congrArg Host.Outcome.next (withWrite_served hserved hmay), congrArg Host.Outcome.next (withWrite_served hserved hmay)⟩

end Sys2Proof.Machine
end

section
/-! SUPPORT and O46. SPDM: how a request is taken and answered, and what the module as responder does (14_security_and_isolation R564 to
R571, R578, R582). -/

namespace Sys2Proof.Machine

section
variable {m : SpdmIn} {h : Bool → State → State × List Byte × Bool} {s s0 : State}

/-- A request of a packet is answered under the state of its request, and Busy while an earlier one of its node waits (14 R565). -/
theorem spdmServe_of_taken {w : Waiting} (hsess : m.sess = none)
    (htaken : taken { m.req with opcode := 0x7F, subop := 1 } { t := m.t } s = some (w, s0)) (hctl : ctlFits w.req = true) :
    spdmServe m h s = if carryBusy s0 w then spdmReply w (s0, spdmError errBusy 0, false) else spdmReply w (h w.prov s0) := by
  unfold spdmServe
  rw [hsess]
  exact runVerb_fits _ htaken hctl

/-- A request of a management session is answered in the session (14 R582). -/
theorem spdmServe_of_served {k : Nat} {x : Sess} {s1 : State} {msg : List Byte} {b : Bool} (hsess : m.sess = some k)
    (hserved : served k m.t s = some (x, s0)) (hmsg : h false s0 = (s1, msg, b)) :
    spdmServe m h s = mgmtReply k .ok (words64 (ceilDiv msg.length 8) msg) s1 := by
  unfold spdmServe
  rw [hsess]
  refine (withSess_served hserved rfl).trans ?_
  simp only [hmsg]

end

/-! The module as responder -/

section
variable {m : SpdmIn} {s : State} {p : SecPeer} (hsess : m.sess = none)
include hsess

theorem spdmVersion_of_packet : spdmVersion m s =
    (modSec m.req.src (fun p => { p with negotiated := 1 }) s, [0x10, 0x04, 0, 0, 0, 1] ++ le 2 0x1300) := by
  simp only [spdmVersion, setNeg, hsess]

/-- KEY_EXCHANGE after the negotiation, by a node without a session or a handshake, with room and a sound DRBG, puts the node in its
handshake and answers with drawn values (14 R556, R566). -/
theorem spdmKeyEx_of_room {prov : Bool} {s1 s2 s3 s4 : State} {r f : List Byte} (hp : secOf s m.req.src = some p)
    (hactive : p.st ≠ .active) (hhandshake : p.st ≠ .handshake) (hneg : p.negotiated = 3) (hdrbg : s.onx.drbgFail = false)
    (hroom : makeSessionRoom s = (s1, true))
    (hs2 : s2 = modSec m.req.src (fun p => if p.st = .active then { p with hsInc := some m.inc, cert := [], last := s1.now }
      else { p with st := .handshake, requester := false, cert := [], inc := m.inc, last := s1.now }) s1)
    (hdraw : draw 80 s2 = (s3, r)) (hfree : freeBytes 242 s3 = (s4, f)) :
    spdmKeyEx m prov s = (s4, spdmMsg 0x64 0 0 (f.take 2 ++ le 1 1 ++ le 1 0 ++ r.take 32 ++
      (f.drop 2).take 96 ++ measSummary s4 ++ le 2 0 ++ f.drop 98)) := by
  subst hs2
  have henough : ¬p.negotiated < 3 := by rw [hneg]; decide
  simp only [spdmKeyEx, hp, Option.getD_some, hsess, Option.isSome_none, hdrbg, decide_eq_false henough, decide_eq_false hactive,
    decide_eq_false hhandshake, if_neg hhandshake, hroom, hdraw, hfree, Bool.false_and, Bool.or_self, Bool.not_true,
    Bool.false_eq_true, if_false]

/-- KEY_UPDATE of a session counts the key generation and takes the first numbers of the new key (14 R571). -/
theorem spdmKeyUpdate_of_session {op : Nat} (hopen : hasSession s m.req.src = true) (hop : op = field m.req.payload 2 1)
    (hkind : op = 1 ∨ op = 2) : spdmKeyUpdate m s = (modSec m.req.src (fun p => { p with
      keyGen := wrapAdd 16 p.keyGen 1, rxK := [op1 m.req, op0 m.req]
      txK := if op = 2 then p.txN else p.txK, last := s.now }) s, spdmMsg 0x69 op (field m.req.payload 3 1) []) := by
  have hupdates : (decide (op = 1) || decide (op = 2)) = true := by simpa only [Bool.or_eq_true, decide_eq_true_eq] using hkind
  simp only [spdmKeyUpdate, hsess, Option.isSome_none, hopen, Bool.not_true, Bool.or_self, Bool.false_eq_true, if_false, ← hop,
    if_pos hupdates]

theorem spdmEnd_of_session (hopen : hasSession s m.req.src = true) : spdmEnd m s = (s, spdmMsg 0x6C 0 0 []) := by
  simp only [spdmEnd, hsess, Option.isSome_none, hopen, Bool.not_true, Bool.or_self, Bool.false_eq_true, if_false]

end

/-- FINISH of a node's own handshake whose check holds under a usable fabric root makes the session ACTIVE, and its answer goes out below
the switch point (14 R567, R571). -/
theorem spdmFinish_of_handshake {m : SpdmIn} {s : State} {p : SecPeer} {root : Nat} (hp : secOf s m.req.src = some p)
    (hst : p.st = .handshake) (hresponder : p.requester = false) (hok : m.ok = true) (hroot : m.root = some root) (hlo : 8 ≤ root)
    (hhi : root ≤ 11) (husable : keyUsable s root = true) :
    spdmFinish m false s = (openedSession m.req.src false root (p.hsInc.getD p.inc) s, spdmMsg 0x65 0 0 [], true) := by
  simp only [spdmFinish, hp, hst, hresponder, hok, hroot, decide_eq_true hlo, decide_eq_true hhi, husable, decide_true, Bool.not_false,
    Bool.and_self, Bool.true_or, Bool.not_true, Bool.false_eq_true, if_false, if_true]

/-- Settles O46: each row serves its message by the code of the row; the responder's lemmas say what the answers are. -/
theorem spdmCompletes : Obligations.SpdmCompletes := by
  unfold Obligations.SpdmCompletes
  refine ⟨⟨fun m q i h s hrow => ?row, ?carry⟩, fun m q s s0 w c hsess hq htaken hctl hidle => ?responder⟩
  case row =>
    have hserve : exec i s = .next (spdmServe q h s) ∧ q.sess = m.sess ∧ q.t = m.t := by
      obtain ⟨rfl, rfl, rfl⟩ | ⟨rfl, rfl, rfl⟩ | ⟨rfl, rfl, rfl⟩ | ⟨rfl, rfl, rfl⟩ | ⟨rfl, rfl, rfl⟩ | ⟨rfl, rfl, rfl⟩ |
        ⟨rfl, rfl, rfl⟩ | ⟨rfl, rfl, rfl⟩ | ⟨rfl, rfl, rfl⟩ | ⟨rfl, rfl, rfl⟩ | ⟨rfl, rfl, rfl⟩ | ⟨rfl, rfl, rfl⟩ |
        ⟨rfl, rfl, rfl⟩ := hrow
      all_goals exact ⟨rfl, rfl, rfl⟩
    obtain ⟨hexec, hqsess, hqt⟩ := hserve
    refine ⟨fun w s0 hsess htaken hctl => ?packet, fun k x s0 s1 msg b hsess hserved hmay hmsg => ?session⟩
    case packet =>
      rw [hexec, spdmServe_of_taken (hqsess.trans hsess) (hqt ▸ htaken) hctl]
      exact ⟨fun hidle => by rw [hidle]; rfl, fun hbusy => by rw [hbusy]; rfl⟩
    case session => rw [hexec, spdmServe_of_served (hqsess.trans hsess) (hqt ▸ hserved) hmsg]
  case carry =>
    intro r e s s0 w htaken hctl hidle
    refine congrArg Host.Outcome.next ((spdmServe_of_taken rfl htaken hctl).trans ?_)
    rw [hidle]; rfl
  case responder =>
    have hqsess : q.sess = none := by rw [hq]; exact hsess
    have hanswer : ∀ {h x}, h w.prov s0 = x → spdmServe q h s = spdmReply w x := fun {h x} hx => by
      have htakenq : taken { q.req with opcode := 0x7F, subop := 1 } { t := q.t } s = some (w, s0) := by rw [hq] at htaken ⊢; exact htaken
      rw [spdmServe_of_taken hqsess htakenq hctl, hidle, ← hx]
      rfl
    refine ⟨fun hc => ?version, fun p s1 s2 s3 s4 r f hc hp hactive hhandshake hneg hdrbg hroom hs2 hdraw hfree => ?exchange,
      fun p root hc hp hst hresponder hok hroot hlo hhi husable hheld => ?finish, fun op hc hopen hop hkind => ?update,
      fun hc hopen => ?final⟩
    all_goals subst hc hq
    case version =>
      refine congrArg Host.Outcome.next (hanswer ?_)
      simp only [plainAnswer, spdmVersion_of_packet hqsess]
    case exchange =>
      refine congrArg Host.Outcome.next (hanswer ?_)
      simp only [plainAnswer, spdmKeyEx_of_room hqsess hp hactive hhandshake hneg hdrbg hroom hs2 hdraw hfree]
    case finish =>
      refine congrArg Host.Outcome.next (hanswer ?_)
      rw [hheld, spdmFinish_of_handshake hp hst hresponder hok hroot hlo hhi husable]
    case update =>
      refine congrArg Host.Outcome.next (hanswer ?_)
      simp only [plainAnswer, spdmKeyUpdate_of_session hqsess hopen hop hkind]
    case final =>
      refine congrArg Host.Outcome.next (hanswer ?_)
      simp only [plainAnswer, spdmEnd_of_session hqsess hopen]

end Sys2Proof.Machine
end

section
/-! SUPPORT and O47. The control processors and Cairn (15_control_belay_faults R598 to R608, R624, R625). -/

namespace Sys2Proof.Machine

/-- What ends a control cycle after the delta leaves the processors' state as it is. -/
theorem cycleEnd_cp (s : State) : (keyUpdates (critRewrite s)).cp = s.cp :=
  ((keyUpdates_keeps _).agree .cp rfl).trans ((critRewrite_keeps s).agree .cp rfl)

/-- A cycle whose delta goes to the other processor ends from a state that counts the cycle and waits for its acknowledgement (15 R598). -/
theorem controlCycle_of_copies {s : State} (h : copies s = true) : ∃ u : State, controlCycle s = keyUpdates (critRewrite u) ∧
    u.cp.cycle = s.cp.cycle + 1 ∧ u.cp.awaiting = some (s.cp.cycle + 1) := by
  have hfailed : ∀ {u : State}, copies u = true → (cpAt u (otherCp u)).st ≠ .failed := fun {u} hu hst => by
    rw [copies, hst] at hu
    exact Bool.false_ne_true hu
  unfold controlCycle
  dsimp -zeta only [takeFree]
  extract_lets n chk s1 s2 s3
  have hs2 : s2 = emit (.delta s1.cp.cycle chk) (setCp (fun c => { c with awaiting := some c.cycle, deltaAt := s1.now }) s1) := if_pos h
  have hs3 : s3 = s2 := if_neg (hfailed (by rw [hs2]; exact h))
  exact ⟨s3, rfl, by rw [hs3, hs2]; rfl, by rw [hs3, hs2]; rfl⟩

/-- A cycle whose delta goes to the other processor counts the cycle and waits for its acknowledgement (15 R598). -/
theorem controlCycle_cp_of_copies {s : State} (h : copies s = true) : (controlCycle s).cp.cycle = s.cp.cycle + 1 ∧
    (controlCycle s).cp.awaiting = some (s.cp.cycle + 1) := by
  obtain ⟨u, heq, hcycle, hawaiting⟩ := controlCycle_of_copies h
  rw [heq, cycleEnd_cp]
  exact ⟨hcycle, hawaiting⟩

/-- What a timer of the processors does while they run. -/
theorem next_whenCps {t : Nat} {f : State → State} {s s0 s1 : State} (hs : s0 = atTime t s) (hrun : cpsRun s0 = true) (h : f s0 = s1) :
    Host.Outcome.next (whenCps t f s) = (.next s1 : Host.Outcome State Fault Refusal) := by
  subst hs h
  exact congrArg Host.Outcome.next (if_pos hrun)

section
variable {cycle : BitVec 32} {chk : BitVec 64} {s : State} (hwait : s.cp.awaiting = some cycle)
include hwait

/-- An acknowledgement of the awaited cycle that is not late is compared with Lead's CHK (15 R598, R599). -/
theorem deltaAck_of_awaited (hsoon : s.now ≤ s.cp.deltaAt + 5000) : deltaAck cycle chk s =
    if ((cpAt s (otherCp s)).st == .second && decide (chk ≠ s.cp.chk)) = true then
      failCp (otherCp s) 0x06 (setCp (fun c => { c with
        awaiting := none, lastCycle := cycle, mismatch := satAdd 16 c.mismatch 1 }) s)
    else setCp (fun c => { c with awaiting := none, lastCycle := cycle, applied := c.ctlSeq }) s :=
  (if_pos hwait).trans (if_neg fun hlate => absurd (of_decide_eq_true hlate) (by omega))

/-- An acknowledgement that agrees ends the wait (15 R598). -/
theorem deltaAck_of_agreeing (hsoon : s.now ≤ s.cp.deltaAt + 5000) (h : (cpAt s (otherCp s)).st ≠ .second ∨ chk = s.cp.chk) :
    deltaAck cycle chk s = setCp (fun c => { c with awaiting := none, lastCycle := cycle, applied := c.ctlSeq }) s := by
  refine (deltaAck_of_awaited hwait hsoon).trans (if_neg fun hdiffers => ?_)
  obtain ⟨hst, hchk⟩ := Bool.and_eq_true_iff.1 hdiffers
  have hne : chk ≠ s.cp.chk := of_decide_eq_true hchk
  exact h.elim (fun hother => hother (eq_of_beq hst)) hne

/-- A CHK that differs fails the SECOND (15 R599). -/
theorem deltaAck_of_disagreeing (hsoon : s.now ≤ s.cp.deltaAt + 5000) (hst : (cpAt s (otherCp s)).st = .second) (hchk : chk ≠ s.cp.chk) :
    deltaAck cycle chk s = failCp (otherCp s) 0x06 (setCp (fun c => { c with
      awaiting := none, lastCycle := cycle, mismatch := satAdd 16 c.mismatch 1 }) s) := by
  refine (deltaAck_of_awaited hwait hsoon).trans (if_pos ?_)
  rw [hst, decide_eq_true hchk]
  rfl

/-- An acknowledgement that has not come by 5 us fails the other processor (15 R599). -/
theorem secondHang_of_due (hdue : s.cp.deltaAt + 5000 ≤ s.now) : secondHang s = failCp (otherCp s) 0x07 s :=
  if_pos (by rw [hwait, decide_eq_true hdue]; rfl)

end

/-- 20 us after the last delta the SECOND that Lead still waits for is failed, or Lead where it waits for none (15 R601, R602). -/
theorem noDelta_of_due {s : State} (hst : (cpAt s (otherCp s)).st = .second) (hdue : s.cp.deltaAt + 20000 ≤ s.now) :
    noDelta s = if s.cp.awaiting.isSome then failCp (otherCp s) 0x07 s else failCp s.cp.lead.val 0x05 s :=
  if_pos (by rw [decide_eq_true hst, decide_eq_true hdue]; rfl)

/-- FORCE_SWITCH with both processors healthy (15 R606). -/
theorem forceSwitch_of_healthy {s : State} (hlead : (cpAt s s.cp.lead.val).st = .lead) (hsecond : (cpAt s (otherCp s)).st = .second) :
    forceSwitch s = (cpRec s.cp.lead.val 0x0A (switchTo (notCp s.cp.lead.val) 0x0A
      (modCp s.cp.lead.val (fun p => { p with st := .second }) s))).1 :=
  if_pos (by rw [decide_eq_true hlead, decide_eq_true hsecond]; rfl)

/-- Once merged records have room again their total is queued (15 R624). -/
theorem mergeRelease_of_room {s : State} (hfull : s.crn.critFull = true) (hroom : s.crn.q.length < 1024) :
    mergeRelease s = setCrn (fun c => { c with merge := List.replicate 16 0, critFull := false })
      (queueRec { mkRec 0x0F 1 (mergedTotal s) 0 0 s with count := mergedTotal s } s).1 :=
  if_pos (by rw [hfull, decide_eq_true hroom]; rfl)

/-- The alert of merged critical records, when the last is a second old (15 R624). -/
theorem critFullAlert_of_due {s : State} (hfull : s.crn.critFull = true)
    (hdue : s.crn.lastFullAlert = none ∨ ∃ u, s.crn.lastFullAlert = some u ∧ u + 1000000000 ≤ s.now) :
    critFullAlert s = setCrn (fun c => { c with lastFullAlert := some s.now })
      (alertAll { mkRec 0x0F 1 (mergedTotal s) 0 0 s with count := mergedTotal s } s) := by
  obtain hnone | ⟨u, hsome, hold⟩ := hdue
  · simp only [critFullAlert, hfull, hnone, Bool.and_true, if_true]
  · simp only [critFullAlert, hfull, hsome, decide_eq_true hold, Bool.and_true, if_true]

/-- Settles O47: each timer of the processors by its branch while they run, the two writes through the session that serves them, and
Cairn's timers by their branches. -/
theorem controlCompletes : Obligations.ControlCompletes := by
  unfold Obligations.ControlCompletes
  refine ⟨fun t s s0 hs hrun => ⟨?cycle, ?ack, ?hang, ?noDelta, ?watchdog, ?resync⟩, ?writes, ?cairn⟩
  case cycle =>
    exact fun hcopies => ⟨_, next_whenCps hs hrun rfl, rfl, controlCycle_cp_of_copies hcopies⟩
  case ack =>
    exact fun cycle chk hwait hsoon => ⟨fun hagree => next_whenCps hs hrun (deltaAck_of_agreeing hwait hsoon hagree),
      fun hst hchk => next_whenCps hs hrun (deltaAck_of_disagreeing hwait hsoon hst hchk)⟩
  case hang =>
    exact fun cycle hwait hdue => next_whenCps hs hrun (secondHang_of_due hwait hdue)
  case noDelta =>
    exact fun hst hdue =>
      ⟨fun hnone => next_whenCps hs hrun ((noDelta_of_due hst hdue).trans (if_neg (by rw [hnone]; exact Bool.false_ne_true))),
      fun cycle hwait => next_whenCps hs hrun ((noDelta_of_due hst hdue).trans (if_pos (by rw [hwait]; rfl)))⟩
  case watchdog => exact fun cp => next_whenCps hs hrun rfl
  case resync => exact fun hst => next_whenCps hs hrun (if_pos hst)
  case writes =>
    intro sess t s s0 x hserved hmay
    refine ⟨fun hrun hlead hsecond => congrArg Host.Outcome.next ((withWrite_served hserved hmay).trans ?_),
      fun r l hq => congrArg Host.Outcome.next ((withWrite_served hserved hmay).trans ?_)⟩
    · exact congrArg (mgmtReply sess .ok []) ((if_pos hrun).trans (forceSwitch_of_healthy hlead hsecond))
    · refine congrArg (mgmtReply sess .ok []) ?_
      simp only [crnPop, hq, if_true]
  case cairn =>
    rintro t s s0 rfl hfull
    exact ⟨fun hroom => congrArg Host.Outcome.next (mergeRelease_of_room hfull hroom),
      fun hdue => congrArg Host.Outcome.next (critFullAlert_of_due hfull hdue)⟩

end Sys2Proof.Machine
end

section
/-! SUPPORT and O48. Belay (15_control_belay_faults R612, R621; 01_architecture R38). -/

namespace Sys2Proof.Machine

/-- Belay's heartbeats have been lost and the module has been reset; that Belay itself has stopped is not yet noted. -/
def silentBelay : State := { pwr := { hold := .module }, boot := { cause := 7 }, isl := { belayOn := true } }

/-- Ten milliseconds after the reset a status request finds that Belay has stopped, and gets no answer (01 R38; 15 R621). -/
theorem exec_belayStatusRequest_of_lapsed {port : Fin 2} {req : List Byte} {t : Nat} {s : State} (hhold : s.pwr.hold = .module)
    (hcause : s.boot.cause = 7) (hlapsed : s.pwr.heldAt + 10000000 < max s.now t) (hawake : s.boot.st ≠ .bivouac) :
    exec (.belayStatusRequest port req t) s = .next (setIsl (fun i => { i with belayOn := false }) (atTime t s)) := by
  have hstops : belayStops (atTime t s) = setIsl (fun i => { i with belayOn := false }) (atTime t s) :=
    belayStops_of_lapsed (s := atTime t s) hhold hcause hlapsed
  have hwake : wakeFull 2 (setIsl (fun i => { i with belayOn := false }) (atTime t s)) =
      setIsl (fun i => { i with belayOn := false }) (atTime t s) := if_neg hawake
  refine congrArg Host.Outcome.next ?_
  rw [hstops, hwake]
  exact if_neg Bool.false_ne_true

/-- Refutes O48: the status request that comes 10 ms and 1 ns after the reset of a lost Belay. The state still says that Belay runs and
the core is held, so that the statement asks for the status reply; but the command notes first that Belay has stopped, and
answers nothing. -/
theorem not_belayCompletes : ¬ Obligations.BelayCompletes := by
  unfold Obligations.BelayCompletes
  intro h
  obtain ⟨-, hthrottle, -⟩ := h
  obtain ⟨-, -, -, hstatus⟩ := hthrottle 10000001 silentBelay _ rfl rfl
  have hreply := hstatus 0 [] rfl
  rw [exec_belayStatusRequest_of_lapsed rfl rfl (by decide) (by decide)] at hreply
  injection hreply with hstate
  exact Bool.false_ne_true (congrArg (fun s : State => s.isl.belayOn) hstate)

end Sys2Proof.Machine
end
